-- ==== Sys2Proof/Word.lean ====
section
/-! DEFINITION. The word types of the model and the sparse table every block's state is kept in. -/

namespace Sys2Proof

/-- One byte of a memory, a structure or a message (R10: byte 0 is the least significant). -/
abbrev Byte := BitVec 8

/-- A run of bytes, byte 0 first. -/
abbrev Bytes := List Byte

/-- A sparse table: entries by key, keys strictly rising. -/
abbrev Tbl (β : Type) := List (Nat × β)

end Sys2Proof
end

