-- ==== Sys2Proof/Machine/Values.lean ====
section
/-! DEFINITION. The values that the commands of the block carry as operands, and that its state keeps. An operand stands for what
comes from outside the block (a host's values, a pack's answer, a sensor's reading) or for which instance a row acts on. -/

namespace Sys2Proof

/-- Who accesses a register (R18, R19): a core by its index of R17, a core in user mode (R609), a porter channel, the debug port, or a host
function through its BARs. -/
inductive Initiator where
  | core (i : Fin 24)
  | user (i : Fin 24)
  | porter (n : Fin 64)
  | debug
  | host (f : Fin 66)
deriving DecidableEq, Repr

/-- Where a register access goes: the internal address space (R17), or BAR0, BAR2 or BAR4 of a function (R20). -/
inductive RegTarget where
  | internal (addr : Nat)
  | bar0 (f : Fin 66) (off : Nat)
  | bar2 (f : Fin 66) (off : Nat)
  | bar4 (f : Fin 66) (off : Nat)
deriving DecidableEq, Repr

/-- Which flit link a link-control command acts on: a pack lane (R181) or the twin link (R314). -/
inductive Link where
  | pack (n : Fin 32)
  | twin
deriving DecidableEq, Repr

/-- A logical block's bytes with its metadata bytes. -/
structure BlockData where
  data : Bytes
  md   : Bytes := []
deriving DecidableEq, Repr

/-- Why a block that a read, a Verify or a merge needs cannot be delivered from the packs: the outcome of the medium
and of the checks on it. -/
inductive BlockFault where
  | unrecoverable            -- R264: a codeword is unrecoverable
  | mismatch (stop : Fin 11) -- R111, R154: generation or QCRC mismatch, and the stage after which it is gone; at 10 it persists
  | tag                      -- R402: the tag fails under every key and after reconstruction
deriving DecidableEq, Repr

/-- The vendor fields and standard fields of Namespace Management Create (R49, R158). -/
structure NsCreate where
  nsze : Nat
  lbaf : Nat                 -- LBA format, 0 or 1
  meta64 : Bool              -- 64 bytes of metadata
  nskind : BitVec 8
  eltype : BitVec 8
  boundk : BitVec 8          -- signed
  flags : BitVec 8
  keyref : BitVec 32
  rsvd : BitVec 64           -- the bytes at 0xC08, which must be 0
  pi : Nat := 0              -- end-to-end protection type (R4), DPS bits [2:0]
  piFirst : Bool := false    -- its tuple lies in the first 8 bytes of metadata, DPS bit 3
  mext : Bool := false       -- metadata goes with the data as extended LBAs, else by its own buffer (R47), FLBAS bit 4
deriving DecidableEq, Repr

/-- A buffer outside system memory (R64): the last address that the command's data reached, and whether the zero-length read to it
fails (source 186). -/
structure PeerEnd where
  last : Nat
  failed : Bool
deriving DecidableEq, Repr

/-- The logical blocks a command names: the first and how many. -/
structure LbaSpan where
  slba : Nat
  nlb : Nat
deriving DecidableEq, Repr

/-- What Format NVM asks of metadata and end-to-end protection (R4, R46). -/
structure FormatProt where
  meta64 : Bool := false
  pi : Nat := 0
  piFirst : Bool := false
  mext : Bool := false        -- MSET: extended LBAs
deriving DecidableEq, Repr

/-- What a housekeeping round finds besides sensors, supplies and bridges (R104, R582): I2C buses that do not answer, and ports whose
corrected-symbol rate over the round was above 1 in 10^5; and the BRIDGE_TYPE read over I2C from ports (R211). -/
structure HkpLines where
  stuck : BitVec 8 := 0
  fec : BitVec 2 := 0
  types : List (Nat × BitVec 32) := []
deriving DecidableEq, Repr

/-- What an I/O command says of its data beside its range (R47): the SGL descriptor types it uses (none: PRPs), PRACT and the checks of
PRINFO, the expected or initial tags of end-to-end protection, and a peer buffer. -/
structure IoArgs where
  sgl : List Nat := []
  elsize : Nat := 0           -- ELSIZE, of Write alone (R160)
  pract : Bool := false
  chkGuard : Bool := false
  chkApp : Bool := false
  chkRef : Bool := false
  lbat : BitVec 16 := 0
  lbatm : BitVec 16 := 0
  ilbrt : BitVec 32 := 0
  peer : Option PeerEnd := none
  merge : List (Nat × BlockFault) := []   -- a Write's merges (R125): blocks they read that cannot be delivered, by LBA
deriving DecidableEq, Repr

/-- What the block reads in a fetched submission entry before its own command acts: the opcode, and Command Dword 10. -/
structure SqeHead where
  opcode : BitVec 8
  cdw10 : BitVec 32 := 0
deriving DecidableEq, Repr

/-- The twin block and the queue named in a fabric Connect (R83, R91). -/
structure ConnectReq where
  port : Fin 2
  assoc : Nat                -- the association joined, or to be opened by an admin Connect
  qid : Nat                  -- 0 for the admin queue
  size : Nat                 -- entries
  discovery : Bool
  group : Option (Fin 62)    -- host group of the host NQN (R410)
  twinMagic : BitVec 32
  pairId : BitVec 64
  mtu : Nat := 4096          -- path MTU offered (R82)
deriving DecidableEq, Repr

/-- The fields of a map request descriptor (R145) as firmware posts it on a queue. -/
structure MapDesc where
  flags : BitVec 8
  nsidx : Nat
  count : Nat
  bale : Nat
  value : BitVec 64
  expect : BitVec 64
  fstamp : BitVec 64
  blk : Nat
  mbz : Bool                 -- every byte that must be 0 is 0
  snapshot : List (Nat × BitVec 64) := []  -- OP 5: the patch values read with the snapshot (R127)
deriving DecidableEq, Repr

/-- The fields of a compression job descriptor (R175). -/
structure CmpDesc where
  flags : BitVec 8
  eltype : BitVec 8
  boundk : BitVec 8
  shuf : BitVec 8
  lbaf : BitVec 8
  src : Nat
  dst : Nat
  srclen : Nat
  mbz : Bool
deriving DecidableEq, Repr

/-- The fields of a convoy job descriptor (R253). -/
structure CvyDesc where
  flags : BitVec 8
  w : Nat
  k : Nat
  acc : Nat
  miss0 : Nat
  miss1 : Nat                -- 0xFF for none
  src : Nat
  dst : Nat
  mbz : Bool
deriving DecidableEq, Repr

/-- Why a stored unit is placed: a write's staged data, alone or merged (R125), a repack (R126), or a relocation (R239, R266). -/
inductive PlaceKind where
  | host | repack | reloc
deriving DecidableEq, Repr

/-- A bale (`blk` none) or a patch that firmware places in a data page of an open convoy, its last grain in that page, and that
commits with it (R231). The grain address and the nonces that its cipher jobs took are firmware's; what is stored follows from the
staged data and the map. -/
structure PlaceReq where
  nsidx : Nat
  bale : Nat
  blk : Option Nat
  gaddr : Nat
  fstamp : BitVec 64
  kind : PlaceKind := .host
  nonces : List (BitVec 96) := []   -- of a sealed namespace: one a quarter, or one for a patch (R404)
deriving DecidableEq, Repr

/-- The fields of a cipher job descriptor (R397). -/
structure CphDesc where
  flags : BitVec 8
  slot : Nat
  kgen : BitVec 32
  src : Nat
  dst : Nat
  len : Nat
  iv : BitVec 128
  aux : Nat
  aadlen : Nat
  mbz : Bool
deriving DecidableEq, Repr

/-- Which cores ran and checked a cipher job and how their results compared (R393, R394): the cores themselves are
the medium here, so whether a core computed rightly comes from outside. `ok` says the first check agreed; if not,
`rerunOk` says the rerun agreed with itself and `producerWrong` that its result differs from the first producer's. -/
structure CphRun where
  producer : Fin 18
  checker : Fin 18
  ok : Bool
  rerunOk : Bool := true
  producerWrong : Bool := true
deriving DecidableEq, Repr

/-- A secure-NOR descriptor (R555) as firmware writes it, with the core that wrote it (R554). -/
structure SnfDesc where
  core : Fin 24
  flags : BitVec 8
  count : Nat
  nor : Nat
  addr : Nat
  len : Nat
  mbz : Bool
deriving DecidableEq, Repr

/-- The header of a mailbox request (R467) and the channel it came on; `bodyLen` is LENGTH less the 16 header bytes. -/
structure Msg where
  chan : Fin 8
  opcode : BitVec 16
  tag : BitVec 16
  len : Nat
  replay : Bool
  token : BitVec 32
deriving DecidableEq, Repr

/-- Where a message that is being applied arrived: at this controller, or at its twin (R351, R478). -/
inductive Arrival where
  | here | peer
deriving DecidableEq, Repr

/-- The header of a pack response (R185) as far as it is not fixed by the data that follow. -/
structure RespHdr where
  opc : BitVec 8
  status : BitVec 8
  die : Nat
  cseq : BitVec 32
  busyUs : BitVec 32 := 0
  param : BitVec 128 := 0
deriving DecidableEq, Repr

/-- What a bridge's TRAIN flits carry (R195). -/
structure Train where
  h : BitVec 32
  hvalid : Bool
  refused : Bool
  bridgeType : BitVec 32
  credits : BitVec 16
deriving DecidableEq, Repr

/-- What a read of a codeword serves (R265, R270): it sets the CAUSE of a poisoning; `recon` is a reconstruction of another codeword
(R263). -/
inductive ReadKind where
  | host | scrub | reclaim | refresh | rebuild | mapPage | recon
deriving DecidableEq, Repr

/-- ESEQ and CODE of a pack's event (R205). -/
structure AsyncHdr where
  eseq : BitVec 32
  code : Nat
deriving DecidableEq, Repr

/-- A ledger entry (R323, R324): its class, header flags, TOFF and the payload words its class names. -/
structure LEntry where
  cls : Nat
  origin : Bool
  toff : Nat
  payload : List Nat
deriving DecidableEq, Repr

/-- A segment of a stage record (R331): the entries it carries, and the header when it is the last one. -/
structure RecHdr where
  stage : BitVec 64
  dtime : BitVec 64
  epoch : BitVec 16
  stageUs : Nat
  held : Bool
  nent : Nat
  rlen : Nat
  dstage : BitVec 64
  digest : BitVec 128
deriving DecidableEq, Repr

/-- The body of PAIR_HELLO (R374). -/
structure PairHello where
  cfgdig : BitVec 384
  fwver : List (BitVec 64)
  setver : Nat
  epoch : BitVec 16
  dtime : BitVec 64
  statedig : BitVec 384
  serial : BitVec 192
  lists : Option Nat         -- LEVEL of the entry for this controller's FWVER in the peer's compatibility list (R454)
  native : Nat               -- native SETVER of the peer's release (R449)
deriving DecidableEq, Repr

/-- What a start finds in the world outside: straps (R624), the medium and the checks that only it can fail. -/
structure BootEnv where
  twinId : Bool
  linkMode : Bool
  recovN : Bool
  testEn : Bool
  slotAok : Bool             -- slot A passes R440
  slotBok : Bool
  katOk : Bool               -- the power-up self-tests of R424 pass
  logReadable : Bool         -- some copy of the system log can be read (R306)
  cfgBlockOk : Bool          -- the NOR configuration block passes its check (R567)
  pairAccepted : Bool        -- a peer paired by step 5 (R301)
  peerAbsent : Bool          -- the arbiter reports the peer absent (R301)
  noSpare : List (Fin 256)                -- repair entries that find no spare row (R539)
  mixed : List (Nat × Nat)                -- (CBID, position) found erased or of a wrong epoch (R299)
  kind6Total : Nat           -- spare rows the fuse map left unassigned (R276, R544)
  round1 : List Nat          -- ports whose memory acknowledged in the first round of step 4 (R213)
  round2 : List Nat          -- and in the second, 8 ms later
  types : List (Nat × BitVec 32) := []   -- BRIDGE_TYPE read over I2C, by port (R211)
deriving DecidableEq, Repr

/-- R213: the ports found present at step 4: both rounds acknowledged. -/
def BootEnv.present (e : BootEnv) : List Nat := e.round2.filter e.round1.contains

/-- What the outside does during a porter set (R515, R526): bytes read from PCIe, how an access failed and after how
many bytes, and whether the failure came after the last write (R528). -/
structure PtrEnv where
  input : Bytes := []
  err : Option (Fin 8 × Nat) := none
  late : Bool := false
deriving DecidableEq, Repr

/-- The debug-unlock token (R612). -/
structure DbgToken where
  headerOk : Bool            -- MAGIC, VERSION and SCOPE are those of R612
  serial : BitVec 192
  challenge : BitVec 384
  keyid : BitVec 384
  sig : BitVec 768
deriving DecidableEq, Repr

end Sys2Proof
end

