-- ==== Sys2Proof/Machine/Parts.lean ====
section
/-! DEFINITION. The parts of the block's state, as plain data: the records of its units, tables and queues. -/

namespace Sys2Proof.Machine

/-- A tenant of the context pool (R41): a function or a fabric association. -/
inductive Tenant where
  | func (f : Nat)
  | assoc (a : Nat)
deriving DecidableEq, Repr

/-- A Pack Link command (R184) as it leaves for pack `n`. -/
structure PackCmd where
  cseq : BitVec 32
  opc : Nat
  flags : Nat := 0
  die : Nat := 0
  block : Nat := 0
  page : Nat := 0
  cwmask : Nat := 0
  param : BitVec 64 := 0
  data : Bytes := []
deriving DecidableEq, Repr

/-- A flit (R179): its CRC is over the rest and no field. -/
structure Flit where
  seq : BitVec 32
  typ : Nat
  port : Nat                             -- the PORT byte
  len : Nat
  payload : Bytes := []                  -- its LEN bytes; the rest of 244 is zero
deriving DecidableEq, Repr

/-- What the block sends to the world outside. -/
inductive Out where
  | cqe (f sqid sqhd cqid slot : Nat) (addr : BitVec 64) (phase : Bool) (cid : BitVec 16) (dw0 dw1 : BitVec 32) (sct sc : Nat)
  | capsule (port qpn sqhd : Nat) (cid : BitVec 16) (dw0 dw1 : BitVec 32) (sct sc : Nat)
      (inv : Option (BitVec 32))                             -- by Send with Invalidate of this key (R82)
  | hostData (f : Nat) (cid : BitVec 16) (bytes : Bytes)     -- data of a command, or its separate metadata, to the buffer
  | hostWrite (f addr : Nat) (bytes : Bytes)                 -- a porter's write to PCIe space
  | hostRead (f addr len : Nat)                              -- PCIe memory reads
  | zeroRead (f addr : Nat)                                  -- zero-length read (R64, R525)
  | rdmaWrite (port qpn : Nat) (cid : BitVec 16) (bytes : Bytes)
  | rdmaRead (port qpn : Nat) (cid : BitVec 16) (len : Nat)
  | pack (n : Nat) (c : PackCmd)                             -- a command, once its last flit has left
  | flit (l : Link) (x : Flit)                               -- every flit of a pack lane or the twin link
  | nor (idx op nor len : Nat) (crc : BitVec 32)             -- a program or erase of a twin-visible region
  | mbx (chan : Nat) (tag : BitVec 16) (status : Nat) (body : Bytes)
  | digestIn (core : Nat) (v : BitVec 64)
  | twin (mtype : Nat) (body : Bytes)                        -- a twin-link message before sealing, once its last flit has left
  | arb (frame : Bytes)                                      -- an arbiter-link message, header to CRC (R354)
  | msix (f vector : Nat) (addr : BitVec 64) (data : BitVec 32)
  | cnp (qpn : Nat)                                          -- congestion notification packet
  | discovery (port : Nat) (bytes : Bytes)
  | value (v : BitVec 64)                                    -- the answer to a register read
  | busError (core : Nat)                                    -- R18: exception at a core
  | privilege (core : Nat)                                   -- R609: exception at a core in user mode
  | pin (name : Nat) (level : Bool)                          -- 0 HB, 1 THERMTRIP_N, 2 transmitters active
  | jtag (len v : Nat)                                         -- the data register captured, and its length
deriving DecidableEq, Repr

/-- A completion (R25): its event line (one of 0–15 for none, but for a hardware source's own pulse), the ring cursor that advances with the pulse and by how much,
the porter channel that ends, what it writes in HBM, the ERR bit it sets (by unit and ring) with the source that this raises where it was
clear, and the sources raised. It is held whole while its line is full. -/
structure HeldPulse where
  line : Nat := 0
  hw : Bool := false                     -- the pulse of a privileged hardware source, on a line of 0–15 (R23)
  ring : Option Nat := none
  steps : Nat := 1
  chan : Option Nat := none
  wr : List (Nat × Bytes) := []          -- RESULT, STATUS and the like in the descriptor, by address
  err : Option (Nat × Nat) := none       -- the unit (4 map, 5 compression, 6 cipher, 9 convoy) and the ring
  errSrc : Option Nat := none
  srcs : List Nat := []
deriving DecidableEq, Repr

/-- The event fabric and the claim cursors (R25, R327). -/
structure Evt where
  q : Tbl Nat := []                      -- pulses not yet delivered, per line
  held : List HeldPulse := []
  cursor : Tbl (BitVec 32) := []         -- per RING of R327, porter channels apart
deriving DecidableEq, Repr

/-- The interrupt controller beyond its registers (R504, R506). -/
structure Cic where
  stk : Tbl (List (Nat × Nat)) := []     -- (PRIO, source), top first, per target
  last : Tbl Nat := []                   -- target of the last presentation, per source
  kicked : Tbl Nat := []                 -- elapsed µs at the last start of a watchdog's period, per core
deriving DecidableEq, Repr

/-- An HBM row that has produced corrections (R540). -/
structure HbmRow where
  row : Nat                              -- stack, pseudo-channel, bank, row as in LOC of R542
  count : Nat
  rewritten : Bool
  age : Nat
deriving DecidableEq, Repr

/-- An entry of the HBM soft repair list (R542). -/
structure SoftRow where
  loc : Nat
  state : Nat
  epoch : BitVec 16
  dtime : BitVec 64
deriving DecidableEq, Repr

/-- The HBM controller beyond its registers. -/
structure Hbm where
  err : Tbl (BitVec 72) := []            -- stored word XOR what was written, per word address; unlisted: none
  symErr : Tbl (BitVec 16) := []         -- check symbols overridden by test mode, key 32·page + symbol
  rows : List HbmRow := []
  rowAge : Nat := 0
  hard : List Nat := []                  -- rows marked hard since reset (R541)
  soft : List SoftRow := []              -- region 7 of secure NOR
  fillBusy : Bool := false
  stackTemp : Tbl Int := []              -- last readout per stack, 1/16 °C (R547)
  coolRounds : Tbl Nat := []
  spareTotal : Nat := 0                  -- R544, at first start
deriving DecidableEq, Repr

/-- A secure-NOR descriptor in the queue (R555). -/
structure NorDesc where
  idx : Nat                              -- index in the queue, its slot modulo 64
  op : Nat
  d : SnfDesc
  status : Nat := 0
  wdone : Nat := 0
deriving DecidableEq, Repr

/-- The secure-NOR engine beyond its registers. -/
structure Nor where
  descs : List NorDesc := []             -- queued, running, suspended, and ended but not yet counted; queue order
  slots : Tbl NorDesc := []              -- descriptors as they stand in SNF_DESC once they ended, by slot
  progs : Tbl Nat := []                  -- times a word was programmed since its last erase
  remap : Tbl Nat := []                  -- sector to spare
  undef : List (Nat × Nat) := []         -- ranges left undefined by an interruption (R562): offset, bytes
  pwd : Tbl (BitVec 64) := []            -- stored passwords
  abandoned : Option NorDesc := none     -- an erase abandoned under R564
deriving DecidableEq, Repr

/-- The housekeeping, clock and power blocks beyond their registers. -/
structure Hkp where
  round : Nat := 0
  sample : Tbl Int := []                 -- last captured sample, TS[0..15], 1/16 °C
  sampleSup : Tbl Nat := []
  cool : Tbl Nat := []                   -- consecutive cooler rounds per sensor (R586)
  supOut : Tbl Nat := []                 -- consecutive rounds out of range per supply (R583)
  absent : Tbl Nat := []                 -- consecutive rounds with the other presence level, per port (R213)
  taskEnd : Tbl Nat := []                -- e of the last run, elapsed µs (R591), per task
  taskStart : Tbl Nat := []              -- s of the last run
  taskNom : Tbl Nat := []                -- nominal start t_k of the last run
  pll : Nat := 2                         -- 0 off, 1 warm standby, 2 locked
  hbmOn : Bool := true
  preset : Tbl Nat := []                 -- SerDes preset by lane group since its last training (R585)
  sleep : Tbl Nat := []                  -- sleep group: 0 awake, 1 light, 2 deep
  thermtripLow : Bool := false
deriving DecidableEq, Repr

/-- The span a tally record covers, as it accumulates (R595, R600). -/
structure Span where
  startDtime : BitVec 64 := 0
  startEpoch : BitVec 16 := 0
  startUs : Nat := 0
  lat : Tbl Nat := []                    -- key 32·class + bin
  latMax : Tbl Nat := []
  retry : Tbl Nat := []                  -- key 16·port + stage
  tmin : Tbl Int := []
  tmax : Tbl Int := []
  pkmax : Tbl Int := []
  lag : Tbl Nat := []
  resid : List Nat := [0, 0, 0]          -- CPM_RESID at the start
deriving DecidableEq, Repr

/-- A closed interval that waits for its P/E bins (R597). -/
structure TallyRec where
  flags : Nat
  span : Span
  endDtime : BitVec 64
  endEpoch : BitVec 16
  elapsedUs : Nat
  resid : List Nat
deriving DecidableEq, Repr

/-- The tally recorder, the counters' latches and the debug port beyond their registers. -/
structure Tly where
  cur : Span := {}
  closing : Option TallyRec := none
  due : Bool := false                    -- an interval fell due under FREEZE or a clear
  win : Bytes := []                      -- the window buffer
  winRec : Option Nat := none            -- the record it holds
  latch : Tbl (BitVec 32) := []          -- chained counters latched by a read (R608)
  ir : Nat := 0xFF                       -- JTAG instruction
  dom : Nat := 0                         -- SCAN_SEL
  memAddr : BitVec 40 := 0
  chal : Option (BitVec 384) := none
  token : Option DbgToken := none        -- a submitted token that is verified
  unlocking : Bool := false              -- a token was accepted, and the shutdown of R613 goes on
  freezeLow : Bool := false              -- FREEZE_N level
  peLate : Bool := false                 -- the 100 ms of R597 passed while the closing record was held
deriving DecidableEq, Repr

/-- A pack response (R185). -/
structure PackResp extends RespHdr where
  data : Bytes := []
deriving DecidableEq, Repr

/-- The identity record of a pack (R208), the fields the controller acts on, and whether its checks pass (R210). -/
structure PackId where
  valid : Bool
  serial : BitVec 192
  copyseq : BitVec 32
  bridgeType : BitVec 32
  bridgeFwMin : BitVec 64
  qdepth : Nat
  dies : Nat
  bpc : Nat
  planes : Nat
  blocks : Nat
  pages : Nat
  dieGib : Nat
  peRated : Nat
  peRatedSlc : Nat
  spareBlk : Nat
  lzBlk : Nat
  dieTempMax : Int
  pairId : BitVec 64
  svcDtime : BitVec 64
  svcEpoch : BitVec 16
  inserts : Nat
  retired : List Nat
  ageBounds : List Nat
  wtBounds : List Int
  rtBounds : List Int
  peBounds : List Nat
  nthr : Nat
  ladder : List (Int × Int)
  softDelta : Nat
  rmodel : Tbl (Int × Int × Int)
deriving DecidableEq, Repr

/-- One end of a flit link (R181 to R183): a pack lane or the twin link. -/
structure Lnk where
  tx : BitVec 32 := 0                    -- SEQ of the next new flit
  acked : BitVec 32 := 0                 -- SEQ up to which flits are acknowledged (next unacknowledged)
  rx : BitVec 32 := 0                    -- next SEQ expected
  credit : Nat := 0
  wait : List (List Flit × Out) := []    -- messages not yet sent in full: flits left, the message
  buf : List Flit := []                  -- retry buffer: flits sent and not yet acknowledged, oldest first
  replays : Nat := 0                     -- replays of one SEQ without progress
  fails : List Nat := []                 -- elapsed µs of failed retrains
deriving DecidableEq, Repr

/-- What an outstanding Pack Link command is for. -/
inductive PkUse where
  | hello | idRead (copy : Nat) | temp | sleep (level : Nat) | wake
  | fence (side : Nat) | unfence (side : Nat)
  | check (cbid m : Nat) (last : Bool)   -- reads of R298
  | eraseAgain (cbid m : Nat)
  | program (cbid page m : Nat)
  | rebuild (cbid page m : Nat)
  | rebuildRead (m : Nat)
  | scrub (cbid page : Nat)
  | copy (cbid dpi : Nat)
  | erase (die block : Nat)
  | landing
  | syslog (lseq : Nat)                  -- a copy of a system-log record
  | read
  | idWrite (step : Nat)
  | mbxRead
  | fwLoad | fwCommit | fwActivate
deriving DecidableEq, Repr

/-- A command that awaits its response (R189). -/
structure PkOut where
  cmd : PackCmd
  use : PkUse
  since : BitVec 64 := 0                 -- the captured time sample it was issued at (R189)
deriving DecidableEq, Repr

/-- A TEMP block (R203). -/
structure TempBlk where
  bridge : Int
  hi : Int
  lo : Int
  dies : List Int
deriving DecidableEq, Repr

/-- What the controller holds of a pack beyond its registers. -/
structure Pack where
  link : Lnk := {}
  cseqHeld : Bool := false               -- a CSEQ is held since the controller's own start (R191)
  hValid : Bool := false
  inUse : Bool := false                  -- has been in service since the controller's own start (R199)
  id : Option PackId := none             -- the identity record by ID_READ
  i2cType : Option (BitVec 32) := none   -- BRIDGE_TYPE over I2C (R211)
  sel : Nat := 0                         -- the copy of the record that R210 selected
  copy0 : Bytes := []                    -- copy 0 as read, until copy 1 is
  idOut : Bytes := []                    -- the record being written (R212)
  idAgain : Bool := false                -- the record has changed since
  ver : BitVec 64 := 0                   -- bridge firmware version by HELLO
  qdepth : BitVec 16 := 0                -- QDEPTH by HELLO (R186)
  outst : List PkOut := []
  heldCmds : List (PkUse × PackCmd) := []    -- commands not sent while HOLD, or before TEMP is captured (R204)
  raw : Bytes := []                      -- the identity record's bytes
  timeouts : List Nat := []              -- elapsed µs of response timeouts (R189)
  temp : Option TempBlk := none
  tempOk : Bool := false                 -- TEMP captured since the last bring-up (R204)
  svc : Bool := false                    -- in service, awake or asleep
  fenced : List Nat := []                -- sides fenced by this controller's commands
  removing : Bool := false
  updStep : Nat := 0                     -- bridge update (R217): 0 none, 1..5 the step
  updImage : Bytes := []                 -- the image being loaded, and its digest
  updDigest : Bytes := []
  updOff : Nat := 0
  sideLost : Bool := false               -- lost to the lead while paired (R242)
  peerLost : Bool := false               -- lost to the trail
  removable : Bool := false              -- may be taken out (R216)
  eseq : Nat := 0                        -- last ESEQ received (R205)
  admitting : Bool := false              -- being erased wholly before it enters service
  home : Bool := false                   -- in service at the last stop
  newModel : Option (Tbl (Int × Int × Int)) := none  -- a model table written and not yet read back (R261)
  sn : Option (BitVec 192) := none       -- SERIAL of the pack last in service at the port
  phase : Nat := 0                       -- its twin-visible state: 0, or 4 to 11 of PKP_STAT.STATE
  side : Nat := 0                        -- what the own lane shows instead: 1 present, 2 training, 3 wrong side, 12 port down
  fresh : Bool := false                  -- the port has been down: the next link up counts from 0 (R181)
  slept : Nat := 7                       -- its state before it went to sleep
deriving DecidableEq, Repr

/-- A fabric write whose data is to be read by RDMA Read (R85). -/
structure FabWrite where
  blocks : List BlockData
  nsid : Nat
  slba : Nat
  w : Nat
  io : IoArgs
  len : Nat                              -- bytes read
  sent : Bool := false                   -- its RDMA Read is outstanding (R82)
deriving DecidableEq, Repr

/-- A read that waits for its map pages (R117): a Read or Verify with its operands, or a Raw Bale Read. -/
inductive PageRead where
  | blocks (nsid slba nlb : Nat) (io : IoArgs) (faults : List (Nat × BlockFault)) (move : Bool)
  | bale (nsid bale len : Nat) (headerOnly dw12Bad : Bool) (fault : Option BlockFault)
deriving DecidableEq, Repr

/-- A fetched command (R42). What it waits for before its completion is posted. -/
inductive Wait where
  | dispatch                             -- its own row has not acted yet
  | rdma (x : FabWrite)                  -- fabric write: data still to come
  | page (x : PageRead)                  -- read: map pages to come (R117)
  | flush (stamp : BitVec 64) (nsid : Nat)
  | detach (nsid : Nat) (funcs : List Nat)
  | aer
  | mi                                   -- NVMe-MI Receive until RDY of channel 7
  | sqDrain (qid : Nat)                  -- Delete: entries of the queue that a full completion queue holds
  | progress                             -- Format NVM until its progress record says done
  | activation
deriving DecidableEq, Repr

/-- A command context (R41, R45). -/
structure Ctx where
  stamp : BitVec 64
  slot : Nat                             -- context number in the pool (R28), for R31
  tenant : Tenant
  sqid : Nat                             -- queue identifier; for a fabric command the queue pair
  cid : BitVec 16
  opcode : BitVec 8
  admin : Bool
  nsid : Nat
  t0 : Nat                               -- elapsed µs at fetch (R601)
  rseq : Nat := 0                        -- of a fabric command: the receive sequence of its capsule (R323)
  inCap : Nat := 0                       -- and its bytes of in-capsule data (R82)
  inv : Option (BitVec 32) := none       -- and the remote key it asks to invalidate (R82)
  wait : Wait
deriving DecidableEq, Repr

/-- A completion: Dword 0, status code type and status code. -/
structure Cpl where
  dw0 : BitVec 32 := 0
  dw1 : Option (BitVec 32) := none       -- fixed Dword 1 (R92); none: the twin sequence or 0
  sct : Nat := 0
  sc : Nat := 0
deriving DecidableEq, Repr

/-- A submission queue (R40). -/
structure Sq where
  base : BitVec 64
  size : Nat
  cqid : Nat
  prio : Nat
  tail : Nat := 0
  head : Nat := 0                        -- next entry to fetch
  next : BitVec 32 := 0                  -- next twin sequence (R76)
deriving DecidableEq, Repr

/-- A completion entry before its slot and phase are known. -/
structure CqEntry where
  sqid : Nat
  sqhd : Nat
  cid : BitVec 16
  dw0 : BitVec 32
  dw1 : BitVec 32
  sct : Nat
  sc : Nat
deriving DecidableEq, Repr

/-- A completion queue (R40, R74, R75). -/
structure Cq where
  base0 : BitVec 64
  base1 : BitVec 64
  size : Nat
  vector : Nat
  ien : Bool
  head : Nat := 0
  tail : Nat := 0
  phase : Bool := true
  held : List CqEntry := []
deriving DecidableEq, Repr

/-- A function's NVMe state beyond its registers. -/
structure Func where
  sqs : Tbl Sq := []                     -- by queue identifier, 0 the admin queue
  cqs : Tbl Cq := []
  granted : Option Nat := none           -- Dword 0 of Set Features Number of Queues (R38)
  feat : Tbl (BitVec 32) := []           -- features of R48 by identifier (and index, key 2^16·index + fid)
  aecOn : BitVec 32 := 0                 -- feature 0x0B
  evHeld : List (Nat × Nat) := []        -- held events (R71)
  evMasked : List (Nat × Nat) := []      -- masked pairs (R70)
  lastQ : Nat := 0                       -- queue served last (R44)
  wrr : List Nat := [0, 0, 0]            -- commands left to the high, medium and low class in this round (R44)
  changed : List Nat := []               -- log page 0x04: namespaces changed since it was read
deriving DecidableEq, Repr

/-- A namespace (R49, R106, R150). -/
structure Ns where
  nsze : Nat
  lbaf : Nat
  meta64 : Bool
  tolerance : Bool
  eltype : Nat
  boundk : Int
  raw : Bool                             -- FLAGS bit 0: compression off
  sealed : Bool
  keyref : BitVec 32
  inst : BitVec 32                       -- instance number of the slot (R107)
  funcs : List Nat := []                 -- functions it is attached to
  physUsed : Nat := 0
  mext : Bool := false                   -- its metadata goes with the data as extended LBAs, else by its own buffer (R47)
  pi : Nat := 0                          -- end-to-end protection type: 0 none, 1 or 3 (R4)
  piFirst : Bool := false                -- its tuple lies in the first 8 bytes of metadata, else in the last
  prevKey : Option (BitVec 32) := none   -- a rotation in progress (R413)
deriving DecidableEq, Repr

/-- An entry of the Error Information log (R641). -/
structure ErrEntry where
  func : Nat                             -- its controller: the function, or 2^16 + the association
  no : Nat := 0                          -- its number among that controller's errors
  sqid : Nat
  cid : BitVec 16
  sct : Nat
  sc : Nat
  nsid : Nat
deriving DecidableEq, Repr

/-- A range of log page 0xC0 (R643). -/
structure Poisoned where
  nsid : Nat
  slba : Nat
  nblk : Nat
  cause : Nat
  epoch : BitVec 16
  dtime : BitVec 64
  listed : Bool
  left : List Nat                        -- blocks neither overwritten nor deallocated yet
deriving DecidableEq, Repr

/-- A notice of log page 0xC4. -/
structure Notice where
  code : Nat
  epoch : BitVec 16
  param : Nat
  dtime : BitVec 64
  detail : Nat
deriving DecidableEq, Repr

/-- The host interface, the context pool, the namespaces and the log pages (chapter 2). -/
structure Hif where
  funcs : Tbl Func := []                 -- functions with state other than the default
  numVfs : Tbl Nat := []                 -- per port
  vfEnable : Tbl Bool := []
  linkUp : Tbl Bool := [(0, true), (1, true)]
  ctxs : List Ctx := []                  -- in fetch order
  nextStamp : BitVec 64 := 0
  fetchStop : Bool := false              -- fetching stopped on every function and association (R59, R61)
  activating : Option (Option (BitVec 64)) := none  -- an activation without reset, by a command or the mailbox
  turn : Nat := 0                        -- tenant served last (R44)
  turnLeft : Nat := 0
  ns : Tbl Ns := []
  nsGen : Tbl (BitVec 32) := []          -- instance number used last per NSID
  err : List ErrEntry := []
  errCount : Nat := 0
  poisoned : List Poisoned := []
  notices : List Notice := []
  nlost : Nat := 0
  fenceCnt : Nat := 0
  lastLoser : Nat := 0xFF
  lastCause : Nat := 0
  lastEpoch : BitVec 16 := 0
  lastDtime : BitVec 64 := 0
  refusal : Nat := 0
  peerFw : BitVec 64 := 0
  crit : BitVec 8 := 0                   -- Critical Warning
  dataRead : Nat := 0                    -- blocks of 512 bytes, in units of one
  dataWritten : Nat := 0
  readCmds : Nat := 0
  writeCmds : Nat := 0
  mediaErrs : Nat := 0
  powerCycles : Nat := 0
  unsafe_ : Nat := 0                     -- unsafe shutdowns
  capExceeded : Bool := false
  physWarn : Bool := false
  twinSeqOn : Bool := false              -- Dword 1 carries the twin sequence (R76)
  seqEnded : List Tenant := []           -- after a fence: controllers reset since, whose Dword 1 is 0 again (R76)
  coal : List (Nat × Nat × Nat × Nat) := []  -- interrupts that coalesce (feature 0x08): function, vector, entries, elapsed µs of the first
  msixTab : Tbl (BitVec 32) := []        -- MSI-X tables: dword w of vector v at key 16384·function + 4·v + w
  msixPend : List (Nat × Nat) := []      -- messages that wait while masked (PBA)
  selfTest : List (Nat × Bool × Nat) := []   -- self-test log: code, pass, NSID
  crossOver : Bool := false              -- composite above the over threshold
  miPending : List (BitVec 64) := []     -- Receive commands that wait for RDY (R466)
  shutdown : Tbl Nat := []               -- functions in shutdown
deriving DecidableEq, Repr

/-- A command capsule that has arrived, on a queue pair and under its receive sequence (R84, R320). -/
structure Capsule where
  qpn : Nat
  rseq : Nat
  bytes : Bytes                          -- the 64-byte command and its in-capsule data
deriving DecidableEq, Repr

/-- A copy of a Pack Link message that has arrived (R320). -/
inductive PkMsg where
  | resp (n : Nat) (r : PackResp)
  | async (n : Nat) (eseq : Nat) (code die : Nat) (value : BitVec 64)
deriving DecidableEq, Repr

/-- The digest of one stage as it accumulates (R347). -/
structure StageAcc where
  a : BitVec 256 := 0
  n : Nat := 0
  cls : Tbl (BitVec 256 × Nat) := []
deriving DecidableEq, Repr

/-- An output that is held under R360 or R365: the twin-link SEQ that must be acknowledged first, its OCLASS. -/
structure HeldOut where
  need : BitVec 32
  oclass : Nat
  o : Out
deriving DecidableEq, Repr

/-- A claim entry that awaits its reads on the trail (R329). -/
structure ClaimEnt where
  core : Nat
  ring : Nat
  polls : Nat
  value : BitVec 32
deriving DecidableEq, Repr

/-- The twin ledger unit beyond its registers (chapter 10). -/
structure Twn where
  link : Lnk := {}
  openRec : List LEntry := []            -- entries of the open stage
  openLen : Nat := 64                    -- RLEN so far
  openHeld : Bool := false
  openUs : Nat := 16                     -- STAGE_US of the open stage
  newUs : Option Nat := none             -- a length written, for the next stage (R333)
  openDtime : BitVec 64 := 0
  openEpoch : BitVec 16 := 0
  openAt : Nat := 0                      -- elapsed µs when the stage opened
  heldIn : List LEntry := []             -- inputs that wait in their sources (R326)
  retained : List (BitVec 64 × Nat) := []    -- stage and bytes of records not yet acknowledged
  lostFollow : Bool := false             -- a record was released unacknowledged (R337)
  rxEnts : List LEntry := []             -- entries of the record being received
  rxRecs : List (Nat × RecHdr × List LEntry) := []   -- complete records not yet applied, with the elapsed µs of arrival
  delivering : Option (Nat × RecHdr × List LEntry) := none   -- the record in delivery, with the entries left
  applying : List LEntry := []           -- delivered entries that wait for the copy that one of them names
  awaitAck : List (BitVec 64 × Nat) := []    -- stages delivered and not yet passed by every core, with their arrival
  lagging : Bool := false                -- beyond the lag limit (R335)
  stock : List LEntry := []              -- a trail's own pin edges (R368)
  markWait : List (Nat × BitVec 64) := []    -- markers that wait for room: ring, stage
  capsules : List Capsule := []          -- the trail's own copies
  packMsgs : List PkMsg := []
  fetches : List LEntry := []            -- entries that wait for a peer's copy
  claimLast : Tbl (BitVec 32) := []      -- key 1024·core + RING: value this core last received
  polls : Tbl Nat := []                  -- reads since the last recorded claim, per core
  claimQ : List ClaimEnt := []           -- the trail's claim entries, in order
  leadVals : List Bytes := []            -- the trail's lead values not yet used (class 0x09 of R323)
  irTail : Tbl (BitVec 32) := []         -- slots written per ring
  irUsed : Tbl Nat := []                 -- slots written and not yet read per ring
  markers : List (Nat × BitVec 32 × BitVec 64) := []  -- ring, tail after the marker, stage
  stageTimes : List (BitVec 64 × BitVec 64) := []     -- stage to DTIME of its header
  accs : List (BitVec 64 × StageAcc) := []
  finals : List (BitVec 64 × BitVec 128) := []        -- final digests not yet sent
  recent : List (BitVec 64 × BitVec 128) := []        -- the last 64 final digests, newest first
  peerDigs : List (BitVec 64 × BitVec 128) := []      -- the lead's digests of R330 not yet compared
  held : List HeldOut := []
  faults : BitVec 64 := 0                -- FAULTS of REPORT (R356)
  frozen : Bool := false                 -- QUERY freeze (R360)
  mseqTx : BitVec 64 := 0
  mseqRx : BitVec 64 := 0
  kgenRx : BitVec 16 := 0
  tagFails : List Nat := []              -- elapsed µs of tag failures
  unmatched : Nat := 0                   -- doorbells of source 264 (R352)
  ringDoorbells : List (Nat × Nat × Nat) := []  -- the trail's own doorbell values, local
deriving DecidableEq, Repr

/-- A frame of the map cache (R115). -/
structure Frame where
  mpn : Nat
  ref : Bool
  dirty : Bool
  pin : Bool
deriving DecidableEq, Repr

/-- A map request that has been taken and waits: for its page (R117) or for its grains (R142). -/
structure MapReq where
  q : Nat
  op : Nat
  slot : Nat                             -- index of its descriptor in the ring
  d : MapDesc
deriving DecidableEq, Repr

/-- A stored unit: what the packs hold from a grain address on (R147, R123, R151). -/
structure Stored where
  blocks : List BlockData := []          -- the plaintext blocks, by index
  header : Bytes := []                   -- the header grain of a bale, in clear (R152)
  coded : Bytes := []                    -- the quarter area or patch before enciphering
  image : Bytes := []                    -- the same as stored: enciphered, a sealed patch with its tag grain (R398)
deriving DecidableEq, Repr

/-- A bale or patch that is placed and has not committed (R231): its new entry or VALUE, what is stored, and the snapshot of a repack
or relocation (R127). -/
structure Placed where
  nsidx : Nat
  inst : BitVec 32                       -- instance of its namespace slot when it was placed (R107)
  bale : Nat
  blk : Option Nat
  value : BitVec 64
  fstamp : BitVec 64
  kind : PlaceKind
  unit : Stored
  expect : BitVec 64 := 0
  snapshot : List (Nat × BitVec 64) := []
deriving DecidableEq, Repr

/-- A block held in protected staging (R120). -/
structure Staged where
  nsid : Nat
  bale : Nat
  blk : Nat
  stamp : BitVec 64
  data : BlockData
  w : Nat := 0                           -- its shuffle width (R166)
deriving DecidableEq, Repr

/-- A charge held by a command in flight (R135). -/
structure Charge where
  stamp : BitVec 64
  nsid : Nat
  bale : Nat
  grains : Nat
deriving DecidableEq, Repr

/-- A journal record (R140). -/
structure JRec where
  typ : Nat
  blk : Nat
  nsidx : Nat
  inst : BitVec 32
  key : Nat
  value : BitVec 64
  jseq : Nat
deriving DecidableEq, Repr

/-- A closed journal block (R141): not yet placed, in a convoy (`cbid`, `page`), or programmed. -/
structure JBlock where
  recs : List JRec
  epoch : BitVec 16
  dtime : BitVec 64
  image : Bytes := []                    -- its 4 KiB as stored, under the system key (R398)
  place : Option (Nat × Nat) := none
  programmed : Bool := false
deriving DecidableEq, Repr

/-- What the checkpoint index holds of a stored map page (R143), and the page as stored. -/
structure Ckpt where
  inst : BitVec 32
  jseq : Nat
  loc : Nat                              -- the grain address of its 4 KiB
  crc : BitVec 32
  es : List (Nat × BitVec 64) := []      -- its entries that are not never-written, by key
  image : Bytes := []                    -- enciphered under the system key (R398)
deriving DecidableEq, Repr

/-- A unit of 4 KiB that the checkpoint has made and that is not in packs yet (R143, R303, R232). -/
structure CkUnit where
  kind : Nat                             -- 0 map page, 1 patch page, 2 and 3 snapshots of the convoy block and the erase count table
  key : Nat                              -- MPN, or the index in the round
  c : Ckpt
  round : Bool := true                   -- does the round wait for it?
  place : Option (Nat × Nat) := none     -- convoy block and page that it has been placed in
deriving DecidableEq, Repr

/-- The checkpoint round in progress: the last record and the patch table at its start, and where what it has stored besides map pages
lies. -/
structure CkRound where
  mark : Nat
  ps : Tbl (BitVec 64)
  locs : List Nat := []
deriving DecidableEq, Repr

/-- A compression job that waits in its ring, since no engine is in service (R172). -/
structure CmpWait where
  ring : Nat
  op : Nat
  d : CmpDesc
  mismatch : Bool
deriving DecidableEq, Repr

/-- A request to a clock domain that is held, which waits (R572). -/
inductive GateWait where
  | map (op q : Nat) (d : MapDesc)
  | convoy (op r : Nat) (d : CvyDesc) (items : List PlaceReq)
  | porter (n : Fin 64)
  | decode (kind : ReadKind) (cbid page pos cw : Nat) (stage : Fin 12) (iters : Nat)
  | encode (codewords : Nat) (line : Fin 256)
deriving DecidableEq, Repr

/-- The map engine beyond its registers (chapter 4). -/
structure MapS where
  entries : Tbl (BitVec 64) := []        -- by (NSID − 1)·2^37 + bale; an unlisted entry is never-written
  patches : Tbl (BitVec 64) := []        -- VALUE by 16·(entry key) + block
  durP : Tbl (BitVec 64) := []           -- the patch table of the last complete checkpoint round (R303)
  durAt : Nat := 0                       -- the last record that it includes
  frames : List Frame := []              -- the cache, the frame at the hand first
  misses : Tbl (List MapReq) := []       -- requests waiting, by MPN
  missOrder : List Nat := []             -- the pages missed, oldest first; the first 4096 are being read (R117)
  itemWait : List (Nat × Nat × Placed) := []  -- acknowledged items that wait for their map page: MPN, convoy block, item (R117)
  held : List MapReq := []               -- commits whose grains Pack Link has not acknowledged yet (R142)
  freeLater : List (Nat × Nat × Nat) := []  -- grains to free once their map page is in the cache: MPN, address, length (R131)
  overlay : List Staged := []            -- protected staging, oldest first
  lastCommit : Tbl (BitVec 64) := []     -- largest committed fetch stamp by block key
  dropCommit : Tbl (BitVec 64) := []     -- largest fetch stamp of a page drop, by MPN
  charges : List Charge := []
  nextJseq : Nat := 1
  relJseq : Nat := 0                     -- JSEQ of the last record released (R142)
  openJ : List JRec := []
  openJAt : Nat := 0                     -- elapsed µs of its first record
  jblocks : List JBlock := []            -- closed and not yet released
  ckptRound : Nat := 0
  ckpt : Tbl Ckpt := []                  -- by MPN
  dropped : Tbl Nat := []                -- pages dropped since they were stored: the JSEQ of the drop, by MPN
  ckptQ : List CkUnit := []              -- what the checkpoint has made and is not in packs
  ckptOpen : Option CkRound := none      -- the round in progress
  ckptLocs : List Nat := []              -- where the patch pages and table snapshots of the last complete round lie
  backs : List MapReq := []              -- page write-backs that wait for their page to be stored
  repack : List (Nat × Nat) := []        -- bales queued for repack: NSID, bale
  resol : Tbl (List (Nat × Nat × BitVec 64)) := []  -- last resolution list per queue: block, source, value
  store : Tbl Stored := []               -- what the packs hold from a grain address on (the medium)
  freedAt : Tbl Nat := []                -- per CBID, the JSEQ of the last record that freed grains in it
deriving DecidableEq, Repr


/-- A member of a convoy block (R224). -/
structure Member where
  port : Nat
  die : Nat
  block : Nat
  lost : Bool := false
  replaced : Bool := false
deriving DecidableEq, Repr

/-- An entry of the convoy block table (R227) with what the header of R224 and the stamp of R255 hold. -/
structure Cb where
  state : Nat := 0                       -- 0 free, 1 open, 2 closed, 3 being emptied, 4 awaiting erase, 5 abandoned
  w : Nat := 0
  kind : Nat := 0
  lost : Nat := 0
  nextPage : Nat := 0
  live : Nat := 0
  closeDtime : BitVec 64 := 0
  closeEpoch : BitVec 16 := 0
  rbclass : Nat := 0
  empty : Nat := 0
  members : List Member := []
  progMin : Nat := 0
  progEpoch : BitVec 16 := 0
  wtb : List Nat := []
  peb : List Nat := []
  openDtime : BitVec 64 := 0
  eraseEpochs : List Nat := []
  hdr : List Nat := []                   -- positions whose page 0 has not been programmed yet
  acked : Nat := 0                       -- one beyond the last page acknowledged whole
deriving DecidableEq, Repr

/-- The convoy that an accumulator assembles (R229). -/
structure OpenCv where
  cbid : Nat
  stream : Nat
  got : List (Nat × Nat) := []           -- data index and HBM address of its user bytes
  items : List Placed := []
  since : Nat := 0                       -- elapsed µs of its oldest data
  jblks : List Nat := []                 -- journal blocks placed in it, by the JSEQ of their first record
deriving DecidableEq, Repr

/-- A convoy whose pages are being programmed (R231). -/
structure Flight where
  cbid : Nat
  page : Nat
  stream : Nat
  wait : List Nat                        -- member positions not yet acknowledged
  items : List Placed
  jblks : List Nat
  cmds : List (Nat × PackCmd × Nat) := []    -- port, PROGRAM and position, not yet sent
deriving DecidableEq, Repr

/-- A relocation written and not yet committed (R239). -/
structure Reloc where
  item : Placed
  cbid : Nat                             -- destination block
  left : List (Nat × Nat × Nat)          -- page, position, codeword that have not decoded at the model offsets yet
deriving DecidableEq, Repr

/-- The in-place rebuild of a member (R245). -/
structure Rebuild where
  cbid : Nat
  pos : Nat
  new : Member
  page : Nat                             -- page whose survivors are being read
  want : List (BitVec 32 × Nat)          -- reads outstanding: CSEQ and position
  have_ : List (Nat × Bytes)             -- positions read and their user bytes
  toAck : List Nat := []                 -- pages programmed and not yet acknowledged
deriving DecidableEq, Repr

/-- A record of the system log (R295). -/
structure SysRec where
  typ : Nat
  port : Nat := 0
  die : Nat := 0
  block : Nat := 0
  arg : Nat := 0
  lseq : Nat := 0
  dtime : BitVec 64 := 0
  epoch : BitVec 16 := 0
deriving DecidableEq, Repr

/-- A system-log record whose PROGRAMs are not all acknowledged (R295). -/
structure LogWait where
  lseq : Nat
  ports : List Nat                       -- the packs whose copy is not acknowledged yet
  sent : Bool := false
deriving DecidableEq, Repr

/-- An ERASE that waits for its type 1 record (R296). -/
structure EraseHold where
  lseq : Nat
  port : Nat
  use : PkUse
  cmd : PackCmd
deriving DecidableEq, Repr

/-- A convoy job that waits in its ring while the engine is disabled (R254). -/
structure CvyWait where
  ring : Nat
  op : Nat
  d : CvyDesc
  items : List PlaceReq
deriving DecidableEq, Repr

/-- A reconstruction in progress (R262, R263): its codeword, what read it serves, the members whose codewords have been asked for, and
those that have decoded. -/
structure Recon where
  kind : ReadKind
  cbid : Nat
  page : Nat
  pos : Nat
  cw : Nat
  asked : List Nat
  ok : List Nat := []
deriving DecidableEq, Repr

/-- Placement, reclaim, rebuild and the media engines beyond their registers (chapters 7 and 8). -/
structure Conv where
  wait : List CvyWait := []              -- convoy jobs in their rings while the engine is disabled, oldest first
  repackRead : List (Nat × Nat) := []    -- bales queued for repack that have been read
  cbt : Tbl Cb := []
  acc : Tbl OpenCv := []
  flights : List Flight := []
  diePtr : Tbl Nat := []                 -- per pack
  erase : Tbl Nat := []                  -- P/E counts, by erase block (R257)
  erased : Tbl Nat := []                 -- erase epoch of the last type 2 record, by erase block
  erasing : List (Nat × Nat × Nat) := [] -- type 1 records with no later type 2 record: port, die, block
  spoilt : List (Nat × Nat × Nat) := []  -- blocks in no convoy block that are not erased
  retired : List (Nat × Nat × Nat) := []
  gone : List (BitVec 192) := []         -- SERIALs of packs declared lost, to be erased wholly before they serve again (R215)
  dieOut : List (Nat × Nat) := []        -- retired dies: port, die
  dieIn : List (Nat × Nat) := []         -- spare dies in service
  dieFail : List (Nat × Nat × Nat) := [] -- status 3 of a die: port, die, elapsed µs
  eraseEpoch : Nat := 0                  -- E of R296
  syslog : List SysRec := []
  anchor : List Nat := []                -- the packs that hold the copies of the system log (R295)
  logWait : List LogWait := []
  eraseHold : List EraseHold := []
  nextLseq : Nat := 1
  back : Tbl Nat := []                   -- BACK[e] in minutes (R258)
  victim : Option Nat := none
  byScore : Bool := false                -- the victim was chosen by score, not by wear (R235)
  chosen : Nat := 0                      -- v of R237
  copied : List (Nat × Nat) := []        -- data pages of victims and refreshed blocks already read: CBID, DPI
  hNow : Nat := 0                        -- pages programmed by the host and patch streams in this round
  hPrev : Nat := 0
  freed : Nat := 0                       -- erase blocks that reclaim has freed in critical mode and no host block has taken (R235)
  relocs : List Reloc := []
  rebuild : Option Rebuild := none
  refreshQ : List Nat := []
  refreshing : List Nat := []
  recons : List Recon := []
  escAt : Tbl Nat := []                  -- stage that the escalation of a codeword has reached (R262)
  scrubHalf : Nat := 0                   -- which half pass of the period it is in (R267)
  scrubMid : Nat := 0                    -- the CBID from which the second half pass takes the blocks that are not of the system stream
  scrubCb : Nat := 0
  scrubAt : Nat := 0                     -- page and member within it, page · W + member
  scrubCarry : Nat := 0
  scrubIdle : Nat := 0                   -- rounds carried while every pack sleeps
  scrubSeen : Tbl (Nat × Nat) := []      -- per block in this pass: codewords scrubbed, of these with many iterations
  removeBlk : List Nat := []             -- convoy blocks queued for relocation by a planned removal
  writeHold : Bool := false              -- write-class fetch held below 1 % free until 2 % (R235)
deriving DecidableEq, Repr

/-- Reserve accounting and the read-only state (R276 to R283). -/
structure Health where
  ready : Bool := false                  -- step 9 of R300 has been reached
  started : Bool := false                -- TOTAL of kinds 0 to 5 and 7 is fixed
  total : Tbl Nat := []
  crossed : Tbl Nat := []
  latched : Bool := false                -- 0xC2 read-only state of R283
  readOnly : Bool := false
  roFrom : BitVec 64 := 0                -- the first fetch stamp after the step that made it read-only (R281)
  saved : BitVec 64 := 0                 -- ARG of the last type 10 record
deriving DecidableEq, Repr

/-- The record of a dump in a landing half (R286 to R294). -/
structure Dump where
  cause : Nat
  seq : Nat
  half : Nat
  dtime : BitVec 64
  epoch : BitVec 16
  fstampMax : BitVec 64
  cseq : List Nat
  closed : List JBlock                   -- closed journal blocks that were not in packs
  tail : List JRec                       -- the open one's records
  accs : Tbl OpenCv
  staged : List Staged
  par : List (Nat × Bytes)               -- the accumulators: CBID, then P and Q
  ndesc : Nat                            -- descriptors written
  nblocks : Nat                          -- blocks of data written
  ended : Bool
deriving DecidableEq, Repr

/-- The progress record of Sanitize and Format (R309). -/
structure Progress where
  seq : Nat
  op : Nat
  ses : Nat
  state : Nat
  nsid : Nat
  cursor : BitVec 64                     -- the last erase block done: port, die, block
  done : Nat
  total : Nat
  dtime : BitVec 64
  epoch : BitVec 16
deriving DecidableEq, Repr

/-- Power loss and start-up (chapter 9). -/
structure Pow where
  dumping : Bool := false                -- steps 1 to 5 of R286 are in progress
  writing : Bool := false                -- they write a dump: the newest one
  dump : Option Dump := none             -- the newest dump in a landing half that is not released
  dumpSeq : Nat := 0
  half : Nat := 0                        -- the half the next dump goes to
  shutDone : Bool := false               -- a shutdown under R59 has completed since the start
  everStarted : Bool := false
  lastStop : Nat := 4                    -- CAUSE of HIF_BOOTSTAT for the next start
  savedDtime : BitVec 64 := 0            -- secure NOR, step 6 of R286
  savedEpoch : BitVec 16 := 0
  progress : Option Progress := none
  older : Option Dump := none            -- an unreleased dump before it, when a stop interrupted its replay
  relJseq : Option Nat := none           -- the replayed blocks have committed: release once records below it are in packs
  synch : Bool := false
  entering : Bool := false               -- dormant is entered once the checkpoint round has ended (R579)
  boot : Option BootEnv := none          -- a start that has not come to ready: steps 5 to 9 of R300 are to come
  fenceA : Bool := false                 -- FENCE of side A follows each HELLO of this start (R301)
deriving DecidableEq, Repr

/-- The settings store (R477). -/
structure Settings where
  val : Tbl Nat := []                    -- (identifier · 65536 + index) to value; unlisted: the default
  pend : Tbl Nat := []                   -- stored for the next reset
  nqn : Tbl Bytes := []                  -- HOST_GROUP_NQN
deriving DecidableEq, Repr

/-- A dyadic number m / 2^e, exact (R89). -/
structure Dy where
  m : Nat
  e : Nat := 0
deriving DecidableEq, Repr

/-- A fabric queue pair (R83, R88, R89). -/
structure Qp where
  port : Nat
  assoc : Nat
  qid : Nat
  size : Nat := 32
  head : Nat := 0                        -- SQHD
  next : BitVec 32 := 0                  -- next twin sequence
  rseq : BitVec 32 := 0                  -- capsules received
  err : Bool := false
  buf : List Capsule := []               -- receive buffers in use: capsules that have arrived and are not taken (R84)
  rc : Dy                                -- Mb/s
  rt : Dy
  alpha : Dy
  recov : Nat := 0
  mtu : Nat := 4096                      -- path MTU (R82)
  away : Bool := false                   -- the initiator has no connection to this twin: known from the peer alone (R96)
deriving DecidableEq, Repr

/-- A host association (R83, R101). -/
structure Assoc where
  port : Nat := 0
  group : Option Nat := none
  discovery : Bool := false
  ctl : Func := {}                       -- features, events and masks of its controller
deriving DecidableEq, Repr

/-- The fabric target beyond its registers (chapter 3). -/
structure Fab where
  qps : Tbl Qp := []
  assocs : Tbl Assoc := []
  lastCnp : Tbl Nat := []                -- elapsed µs of the last notification sent, per queue pair
  ledErr : List (Nat × Bool) := []       -- error states that the ledger carries: queue pair, of the trail (R101)
  heldConn : Tbl ConnectReq := []        -- Connects whose ledger entry waits (R326)
  landed : List (Nat × Nat × List BlockData) := []   -- write data that has come, by queue pair and receive sequence, newest first (R96)
deriving DecidableEq, Repr
/-- A compatibility entry of kind 2 (R436): bridge type and the versions it admits. -/
structure Compat where
  typ : BitVec 32
  vmin : BitVec 64
  vmax : BitVec 64
deriving DecidableEq, Repr

/-- A compatibility entry of kind 1 (R436): a twin peer. -/
structure TwinCompat where
  level : Nat
  tvlMin : Nat
  tvl : Nat
  fwver : List (BitVec 64)
deriving DecidableEq, Repr

/-- A part entry (R434). -/
structure Part where
  typ : Nat
  nblk : Nat
  btype : BitVec 32
  pver : BitVec 64
  off : Nat
  len : Nat
  crcIdx : Nat
  digest : Bytes
  fromMin : BitVec 64
deriving DecidableEq, Repr

/-- What a verified manifest says (R433 to R437). -/
structure Manifest where
  relver : BitVec 64 := 0
  svn : Nat := 0
  setver : Nat := 0
  setRunMin : Nat := 0
  tvl : Nat := 0
  tvlMin : Nat := 0
  revoke : Nat := 0
  signer : Nat := 0                      -- fused release-key slot that signed it
  parts : List Part := []
  twins : List TwinCompat := []
  bridges : List Compat := []
  anyBridge : Bool := false              -- the factory release's list is not stated: it admits every bridge
deriving DecidableEq, Repr

/-- A firmware slot that is not empty (R431). -/
structure Slot where
  pkg : Bytes := []
  man : Manifest
deriving DecidableEq, Repr

/-- A pack bridge update sequence (R458). -/
structure BridgeUpd where
  left : List Nat                        -- ports still to be updated, ascending
  now : Option Nat := none               -- the port whose update runs
  done : Nat := 0                        -- ports updated, as a mask
  stop : Bool := false                   -- a pack was lost: no further port is started
deriving DecidableEq, Repr

/-- The release that is in slot A at first start: no package of it is stated. It lists itself (R436). -/
def factory : Manifest := { anyBridge := true, twins := [{ level := 0, tvlMin := 0, tvl := 0, fwver := [0, 0, 0, 0] }] }

/-- Firmware: slots, boot selector, staging buffer (chapter 13). -/
structure Fw where
  slots : Tbl Slot := [(0, { man := factory })]
  running : Nat := 0                     -- the slot whose image runs
  active : Nat := 0                      -- boot selector (R445)
  pendingSel : Bool := false             -- STATE 2
  tries : Nat := 0
  lastfb : Nat := 0
  selSeq : Nat := 0
  selDtime : BitVec 64 := 0
  selEpoch : BitVec 16 := 0
  svnMin : Nat := 0
  stage : List (Nat × Bytes) := []       -- downloads into the staging buffer: offset and bytes
  owner : Option Nat := none             -- 0 NVMe, 1 mailbox (R442)
  cosign : List (BitVec 768 × BitVec 384) := []   -- enrolled countersigning keys
  cosignReq : Bool := false
  revoked : List Nat := []               -- release-key slots whose revocation fuse is blown
  testNext : Bool := false               -- restart in test mode (R450)
  testMode : Bool := false
  schema : Nat := 0                      -- schema version of the stored settings
  kept : List (Nat × Settings) := []     -- settings kept of replaced schemas (R449)
  level : Nat := 0                       -- running twin behaviour level (R455)
  upd : Option BridgeUpd := none
deriving DecidableEq, Repr

/-- A message that awaits the end of something before its response (R471). What it waits for: 0 ID_READ of a pack,
1 an identity update, 2 a bridge update sequence, 3 a key slot, 4 the acknowledgement of a key transfer, 5 a verdict, 6 the
start of a rejoin. -/
structure MbxWait where
  m : Msg
  here : Bool
  what : Nat
  arg : Nat
deriving DecidableEq, Repr

/-- What R472 keeps of the last message applied on a channel: tag, opcode, status code, detail, response body. -/
structure Reply where
  tag : BitVec 16
  opcode : BitVec 16
  code : Nat
  detail : Nat
  body : Bytes
  more : Bool := false                   -- MORE of FLAGS (R467)
deriving DecidableEq, Repr

/-- A role token (R422): bound to a channel, lapsing after 900 s without use. -/
structure Token where
  val : BitVec 32
  chan : Nat
  role : Nat                             -- 1 operator, 2 crypto officer
  keyid : BitVec 384
  used : Nat                             -- elapsed µs of its last use
deriving DecidableEq, Repr

/-- The mailboxes beyond their registers (chapter 14). -/
structure Mbx where
  cur : Tbl Msg := []                    -- the message a channel holds while BUSY
  last : Tbl Reply := []
  reply : Tbl (Reply × Bool) := []       -- the response to a channel's present message, and REPLAYED
  req : List Host.Cell := []             -- request buffers, key 65536·channel + byte; an unlisted byte reads 0
  rsp : Tbl Bytes := []                  -- what each response buffer holds
  waits : List MbxWait := []
  tokens : List Token := []
  chal : Tbl (Nat × BitVec 384) := []    -- challenge by channel: role and value
  failAt : Tbl (List Nat) := []          -- elapsed µs of authentication failures, per channel
  blockAt : Tbl Nat := []                -- elapsed µs of the start of a block, per channel
deriving DecidableEq, Repr

/-- A cipher job that waits for its slot (R416). -/
structure CphWait where
  ring : Nat
  op : Nat
  d : CphDesc
  run : CphRun
deriving DecidableEq, Repr

/-- What is pending on a key slot until INUSE is 0 (R416): an erase, or a rewrite with new material. -/
inductive SlotOp where
  | erase
  | rewrite (mat : Bytes)
deriving DecidableEq, Repr

/-- A key slot (chapter 12). -/
structure KeySlot where
  alg : Nat := 0
  gen : BitVec 32 := 0
  loaded : Bool := false
  inuse : Nat := 0
  owner : BitVec 128 := 0
  nctr : Nat := 0
  hwm : Nat := 0
  rsv : Nat := 0
  mat : Bytes := []
  pend : Option SlotOp := none
  wrapped : Bool := false                -- its record is in the wrapped key store
deriving DecidableEq, Repr

/-- An enrolled authentication key (R422). -/
structure AuthKey where
  role : Nat
  key : BitVec 768
  keyid : BitVec 384
deriving DecidableEq, Repr

/-- The security core's keys and the wrapped key store (chapter 12). -/
structure Keys where
  slots : Tbl KeySlot := []
  waitJobs : List CphWait := []
  defaults : Tbl Nat := []               -- default key slots: 2 · OWNER bit, plus 1 for sealed (R412)
  dts : Option (BitVec 256) := none
  dtsPart : Tbl (BitVec 256 × BitVec 384) := []   -- components entered, with the key of the session
  auth : List AuthKey := []
  xseq : BitVec 64 := 0                  -- transfers of secret material since pairing (R415)
  need : List (BitVec 64 × Nat × Nat) := []   -- the trail's requests whose material has not come: XSEQ, slot, algorithm
  stallMs : Nat := 0                     -- ticks that a service has waited for the lead's material (R415)
  early : List (BitVec 64 × Nat × BitVec 32 × Nat × Bytes) := []  -- material that came before its request
  genTx : Nat := 0                       -- G of R418
  genRx : Nat := 0
  peerSerial : BitVec 192 := 0           -- SERIAL of the peer of the last pairing (R417)
  srkFirst : Bool := false               -- the SRK was created at the first start (R420)
  pkgNo : Nat := 0                       -- number of the free value that is the export package's nonce
  importBuf : List (Nat × Bytes) := []
  zeroed : Bool := false                 -- the next start follows a zeroization (R427)
  noUnwrap : Bool := false               -- after a debug unlock (R428)
  flagged : List Nat := []               -- then: the slots whose records carry LOADED
  nonceWarned : List Nat := []           -- namespaces refused under R406 so far
deriving DecidableEq, Repr

/-- A rejoin in progress (R378 to R389). -/
structure Rejoin where
  active : Bool := false
  joiner : Bool := false                 -- this controller is the joiner
  was : Nat := 0                         -- STATE that the joiner showed before
  pass : Nat := 0
  passPages : Nat := 0                   -- pages copied in this pass
  throttle : Nat := 1                    -- write-class fetch runs at 1/throttle
  cut : Option (BitVec 64) := none
  live : Option (BitVec 64) := none
  ready : Bool := false                  -- Twin Peer Ready has been posted
  cutNext : Bool := false                -- the cut is taken at the next stage close (R382)
  dirty : List Nat := []                 -- 4 KiB pages written since the pass began
deriving DecidableEq, Repr

/-- Arbitration, fencing and pairing beyond their registers (chapter 11). -/
structure Arb where
  mseqTx : BitVec 32 := 0
  mseqRx : Option (BitVec 32) := none
  good : Nat := 0                        -- valid messages in a row while ARB_LOST
  peer : Nat := 0                        -- PEER of the last ARB_HELLO
  fenceLow : Bool := false               -- FENCE_N is low
  outcast : Bool := false                -- was fenced and has not rejoined
  hb : Bool := false                     -- level of HB
  linkDownAt : Option Nat := none        -- elapsed µs when the twin link went down
  query : Option (BitVec 64) := none     -- QUERY whose verdict is awaited: its stage
  pairId : BitVec 64 := 0
  hello : Option PairHello := none       -- the peer's last PAIR_HELLO
  rj : Rejoin := {}
  single : List Nat := []                -- queue pairs served by the survivor alone (R388)
  swap : Option (BitVec 64) := none      -- the stage at whose close the roles change (R390)
  promote : Option Nat := none           -- a trail on its way to survivor (R368): the CAUSE of the verdict
  waitRejoin : Bool := false             -- refused at step 5: only a rejoin takes it in (R377, R456)
  rearm : List (Nat × Nat × BitVec 32) := []     -- the re-arm list of the last ARM: FUNC, SQID, B (R386)
deriving DecidableEq, Repr


/-- The straps (R624). -/
structure Straps where
  twinId : Bool := false
  linkMode : Bool := false               -- false x16, true 2 x8
  recovN : Bool := true
  testEn : Bool := false
deriving DecidableEq, Repr

/-- What a joiner takes from the survivor at the cut beside the pages of R380 (R382, R29): the twin-visible registers, and the
twin-visible state that this model keeps in records of its own. -/
structure CutImage where
  regs : Tbl (BitVec 64) := []
  level : Nat := 0                       -- running twin behaviour level (R455)
  hif : Hif := {}
  map : MapS := {}
  cmpWait : List CmpWait := []
  conv : Conv := {}
  health : Health := {}
  progress : Option Progress := none
  fab : Fab := {}
  packs : Tbl Pack := []
  samples : Tbl Int := []                -- the captured temperature samples (R584)
deriving DecidableEq, Repr

end Sys2Proof.Machine
end

