-- ==== Sys2Proof/Syntax.lean ====
section
/-! DEFINITION. The commands of the block: one constructor of `Instr` per row of the table of operations and
events, with the operands the row's rule names. -/

namespace Sys2Proof

/-- The commands of the block, one per row of the table, in its order. -/
inductive Instr where
  /-- REGISTER_WRITE (R6). -/
  | registerWrite (who : Initiator) (tgt : RegTarget) (size : Nat) (val : BitVec 64)
  /-- EVENT_LINE_DELIVERY (R26). -/
  | eventLineDelivery (line : Fin 256)
  /-- SQ_TAIL_DOORBELL (R37). -/
  | sqTailDoorbell (f : Fin 66) (qid : Nat) (val : Nat)
  /-- CQ_HEAD_DOORBELL (R37). -/
  | cqHeadDoorbell (f : Fin 66) (qid : Nat) (val : Nat)
  /-- CONTROLLER_ENABLE (R38). -/
  | controllerEnable (f : Fin 66) (cc : BitVec 32)
  /-- CONTROLLER_RESET (R57). -/
  | controllerReset (f : Fin 66) (cc : BitVec 32)
  /-- FUNCTION_LEVEL_RESET (R57). -/
  | functionLevelReset (f : Fin 66)
  /-- NVM_SUBSYSTEM_RESET (R57). -/
  | nvmSubsystemReset (f : Fin 66)
  /-- SHUTDOWN_NOTIFICATION (R59). -/
  | shutdownNotification (f : Fin 66) (abrupt : Bool)
  /-- COMMAND_FETCH (R42). -/
  | commandFetch (f : Fin 66) (qid : Nat) (cid : BitVec 16) (op : SqeHead) (nsid : Nat)
  /-- CREATE_IO_SUBMISSION_QUEUE (R46). -/
  | createIoSubmissionQueue (stamp : BitVec 64) (qid size cqid : Nat) (prio : Fin 4) (contiguous : Bool) (base : BitVec 64)
  /-- DELETE_IO_SUBMISSION_QUEUE (R56). -/
  | deleteIoSubmissionQueue (stamp : BitVec 64) (qid : Nat)
  /-- CREATE_IO_COMPLETION_QUEUE (R74). -/
  | createIoCompletionQueue (stamp : BitVec 64) (qid size : Nat) (vector : Nat) (ien contiguous : Bool) (base0 base1 : BitVec 64)
  /-- DELETE_IO_COMPLETION_QUEUE (R46). -/
  | deleteIoCompletionQueue (stamp : BitVec 64) (qid : Nat)
  /-- GET_LOG_PAGE (R72). -/
  | getLogPage (stamp : BitVec 64) (lid : BitVec 8) (off len : Nat) (rae : Bool)
  /-- IDENTIFY (R46). -/
  | identify (stamp : BitVec 64) (cns : BitVec 8) (nsid : Nat)
  /-- ABORT (R53). -/
  | abort (stamp : BitVec 64) (sqid : Nat) (cid : BitVec 16)
  /-- SET_FEATURES (R48). -/
  | setFeatures (stamp : BitVec 64) (fid : BitVec 8) (dw11 : BitVec 32) (timestamp : BitVec 64)
  /-- GET_FEATURES (R48). -/
  | getFeatures (stamp : BitVec 64) (fid : BitVec 8) (dw11 : BitVec 32)
  /-- ASYNCHRONOUS_EVENT_REQUEST (R71). -/
  | asynchronousEventRequest (stamp : BitVec 64)
  /-- NAMESPACE_CREATE (R49). -/
  | namespaceCreate (stamp : BitVec 64) (c : NsCreate)
  /-- NAMESPACE_DELETE (R132). -/
  | namespaceDelete (stamp : BitVec 64) (nsid : Nat)
  /-- NAMESPACE_ATTACH (R46). -/
  | namespaceAttach (stamp : BitVec 64) (nsid : Nat) (funcs : List (Fin 128))
  /-- NAMESPACE_DETACH (R60). -/
  | namespaceDetach (stamp : BitVec 64) (nsid : Nat) (funcs : List (Fin 128))
  /-- FIRMWARE_IMAGE_DOWNLOAD (R441). -/
  | firmwareImageDownload (stamp : BitVec 64) (off : Nat) (data : Bytes)
  /-- FIRMWARE_COMMIT_REPLACE (R443). -/
  | firmwareCommitReplace (stamp : BitVec 64) (slot : Fin 8)
  /-- FIRMWARE_COMMIT_REPLACE_ACTIVATE (R448). -/
  | firmwareCommitReplaceActivate (stamp : BitVec 64) (slot : Fin 8)
  /-- FIRMWARE_COMMIT_ACTIVATE (R448). -/
  | firmwareCommitActivate (stamp : BitVec 64) (slot : Fin 8)
  /-- FIRMWARE_COMMIT_ACTIVATE_NO_RESET (R61). -/
  | firmwareCommitActivateNoReset (stamp : BitVec 64) (slot : Fin 8)
  /-- ACTIVATION_DRAINED (R61). -/
  | activationDrained (ok : Bool)
  /-- DEVICE_SELF_TEST_SHORT (R46). -/
  | deviceSelfTestShort (stamp : BitVec 64) (nsid : Nat) (pass : Bool)
  /-- DEVICE_SELF_TEST_EXTENDED (R46). -/
  | deviceSelfTestExtended (stamp : BitVec 64) (nsid : Nat) (pass : Bool)
  /-- NVME_MI_SEND (R466). -/
  | nvmeMiSend (stamp : BitVec 64) (opcode : BitVec 8) (m : Msg)
  /-- NVME_MI_RECEIVE (R466). -/
  | nvmeMiReceive (stamp : BitVec 64) (opcode : BitVec 8)
  /-- FORMAT_NVM (R429). -/
  | formatNvm (stamp : BitVec 64) (nsid lbaf ses : Nat) (prot : FormatProt)
  /-- SANITIZE_BLOCK_ERASE (R309). -/
  | sanitizeBlockErase (stamp : BitVec 64)
  /-- SANITIZE_CRYPTO_ERASE (R429). -/
  | sanitizeCryptoErase (stamp : BitVec 64)
  /-- RAW_BALE_READ (R168). -/
  | rawBaleRead (stamp : BitVec 64) (nsid bale len : Nat) (headerOnly dw12Bad : Bool) (fault : Option BlockFault)
  /-- FLUSH (R50). -/
  | flush (stamp : BitVec 64) (nsid : Nat)
  /-- WRITE (R14). -/
  | write (stamp : BitVec 64) (nsid slba : Nat) (io : IoArgs) (blocks : List BlockData)
  /-- READ (R119). -/
  | read (stamp : BitVec 64) (nsid : Nat) (span : LbaSpan) (io : IoArgs) (faults : List (Nat × BlockFault))
  /-- WRITE_ZEROES (R130). -/
  | writeZeroes (stamp : BitVec 64) (nsid : Nat) (span : LbaSpan) (io : IoArgs)
  /-- DATASET_MANAGEMENT (R130). -/
  | datasetManagement (stamp : BitVec 64) (nsid : Nat) (deallocate : Bool) (ranges : List (Nat × Nat))
  /-- VERIFY (R47). -/
  | verify (stamp : BitVec 64) (nsid : Nat) (span : LbaSpan) (io : IoArgs) (faults : List (Nat × BlockFault))
  /-- PCIE_COMPLETION_TIMEOUT (R65). -/
  | pcieCompletionTimeout (stamp : BitVec 64)
  /-- POISONED_COMPLETION (R65). -/
  | poisonedCompletion (stamp : BitVec 64)
  /-- PCIE_LINK_DOWN (R81). -/
  | pcieLinkDown (port : Fin 2)
  /-- PCIE_LINK_UP (R81). -/
  | pcieLinkUp (port : Fin 2)
  /-- NUMVFS_CHANGE (R41). -/
  | numvfsChange (port : Fin 2) (numVfs : Nat) (vfEnable : Bool)
  /-- CAPSULE_RECEIVE (R84). `flags` is byte 1 of the command (FUSE, PSDT); `body` its bytes from Dword 2 on and the in-capsule data. -/
  | capsuleReceive (qpn : Nat) (opcode flags : BitVec 8) (cid : BitVec 16) (nsid : BitVec 32) (body : Bytes)
  /-- CONNECT (R91). -/
  | connect (qpn : Nat) (r : ConnectReq)
  /-- DISCONNECT (R101). -/
  | disconnect (assoc : Nat)
  /-- KEEP_ALIVE_EXPIRY (R101). -/
  | keepAliveExpiry (assoc : Nat)
  /-- RDMA_READ_COMPLETE (R85). -/
  | rdmaReadComplete (stamp : BitVec 64)
  /-- RDMA_READ_FAILED (R96). -/
  | rdmaReadFailed (stamp : BitVec 64)
  /-- QUEUE_PAIR_ERROR (R99). -/
  | queuePairError (qpn : Nat)
  /-- ETHERNET_LINK_DOWN (R99). -/
  | ethernetLinkDown (port : Fin 2)
  /-- ETHERNET_LINK_UP (R99). -/
  | ethernetLinkUp (port : Fin 2)
  /-- CE_PACKET_RECEIVED (R88). -/
  | cePacketReceived (qpn : Nat)
  /-- NOTIFICATION_RECEIVED (R89). -/
  | notificationReceived (qpn : Nat)
  /-- ALPHA_PERIOD_EXPIRY (R89). -/
  | alphaPeriodExpiry (qpn : Nat)
  /-- RECOVERY_PERIOD_EXPIRY (R89). -/
  | recoveryPeriodExpiry (qpn : Nat)
  /-- DISCOVERY_COMMAND (R97). -/
  | discoveryCommand (port : Fin 2)
  /-- MAP_LOOKUP (R119). -/
  | mapLookup (q : Fin 16) (d : MapDesc)
  /-- MAP_ENTRY_COMMIT (R121). -/
  | mapEntryCommit (q : Fin 16) (d : MapDesc)
  /-- MAP_PATCH_COMMIT (R124). -/
  | mapPatchCommit (q : Fin 16) (d : MapDesc)
  /-- MAP_ZERO_SPAN (R130). -/
  | mapZeroSpan (q : Fin 16) (d : MapDesc)
  /-- MAP_CONDITIONAL_COMMIT (R127). -/
  | mapConditionalCommit (q : Fin 16) (d : MapDesc)
  /-- MAP_PAGE_DROP (R130). -/
  | mapPageDrop (q : Fin 16) (d : MapDesc)
  /-- MAP_PAGE_WRITE_BACK (R143). -/
  | mapPageWriteBack (q : Fin 16) (d : MapDesc)
  /-- MAP_PAGE_MISS_FILLED (R117). -/
  | mapPageMissFilled (mpn : Nat) (crcOk : Bool)
  /-- JOURNAL_BLOCK_CLOSE (R141). -/
  | journalBlockClose (shutdown : Bool)
  /-- CHECKPOINT_ROUND (R143). -/
  | checkpointRound (durUs : Nat)
  /-- CODE_BALE (R148). -/
  | codeBale (r : Fin 8) (d : CmpDesc) (eng : Fin 26) (mismatch : Bool)
  /-- DECODE_QUARTER (R175). -/
  | decodeQuarter (r : Fin 8) (d : CmpDesc) (eng : Fin 26)
  /-- ROUND_ONLY (R160). -/
  | roundOnly (r : Fin 8) (d : CmpDesc) (eng : Fin 26)
  /-- CODE_PATCH (R123). -/
  | codePatch (r : Fin 8) (d : CmpDesc) (eng : Fin 26) (mismatch : Bool)
  /-- DECODE_PATCH (R175). -/
  | decodePatch (r : Fin 8) (d : CmpDesc) (eng : Fin 26)
  /-- COMPRESSION_ENGINE_DISABLE (R172). -/
  | compressionEngineDisable (n : Fin 26)
  /-- COMPRESSION_ENGINE_ENABLE (R173). -/
  | compressionEngineEnable (n : Fin 26)
  /-- PACK_LINK_UP (R191). -/
  | packLinkUp (n : Fin 32) (t : Train)
  /-- FLIT_ACK (R181). -/
  | flitAck (l : Link) (seq : BitVec 32)
  /-- FLIT_NAK (R181). -/
  | flitNak (l : Link) (seq : BitVec 32)
  /-- CREDIT (R183). -/
  | credit (l : Link) (n : Nat)
  /-- ACK_TIMEOUT (R182). -/
  | ackTimeout (l : Link) (retrainOk : Bool)
  /-- PACK_RESPONSE (R185). -/
  | packResponse (n : Fin 32) (r : RespHdr) (data : Bytes)
  /-- PACK_ASYNC (R205). -/
  | packAsync (n : Fin 32) (h : AsyncHdr) (die : Nat) (value : BitVec 64)
  /-- PACK_RESPONSE_TIMEOUT (R189). -/
  | packResponseTimeout (n : Fin 32)
  /-- PACK_SIGNAL_LOSS (R215). -/
  | packSignalLoss (n : Fin 32)
  /-- PKP_RETRAIN (R178). -/
  | pkpRetrain (n : Fin 32)
  /-- BRIDGE_HOLD_DRAINED (R217). -/
  | bridgeHoldDrained (n : Fin 32)
  /-- OPEN_CONVOY_AGE_EXPIRY (R233). -/
  | openConvoyAgeExpiry (acc : Fin 256)
  /-- CONVOY_BLOCK_FORM (R221). -/
  | convoyBlockForm (stream : Fin 5)
  /-- RECLAIM_ROUND (R235). -/
  | reclaimRound (durUs : Nat)
  /-- REBUILD_BLOCK_START (R245). -/
  | rebuildBlockStart
  /-- REFRESH_BLOCK_START (R266). -/
  | refreshBlockStart
  /-- ACCUMULATE_PAGE (R229). -/
  | accumulatePage (r : Fin 4) (d : CvyDesc) (items : List PlaceReq)
  /-- EMIT_P_AND_Q (R229). -/
  | emitPAndQ (r : Fin 4) (d : CvyDesc)
  /-- RECONSTRUCT (R228). -/
  | reconstruct (r : Fin 4) (d : CvyDesc)
  /-- CLEAR_ACCUMULATOR (R253). -/
  | clearAccumulator (r : Fin 4) (d : CvyDesc)
  /-- CONVOY_ENGINE_DISABLE (R254). -/
  | convoyEngineDisable
  /-- CODEWORD_DECODE (R262). -/
  | codewordDecode (kind : ReadKind) (cbid page pos cw : Nat) (stage : Fin 12) (iters : Nat)
  /-- SCRUB_ROUND (R268). -/
  | scrubRound (durUs : Nat)
  /-- POWER_FAIL_ASSERT (R286). -/
  | powerFailAssert (ns : Nat)
  /-- DUMP_END (R286). -/
  | dumpEnd
  /-- POWER_ON_RESET (R300). -/
  | powerOnReset (e : BootEnv)
  /-- POWER_RESET (R626). -/
  | powerReset (descs blocks : Nat)
  /-- STAGE_CLOSE (R332). -/
  | stageClose
  /-- TRAIL_HEARTBEAT (R357). -/
  | trailHeartbeat
  /-- RECORD (R331). -/
  | record (entries : List LEntry) (hdr : Option RecHdr) (tagOk : Bool)
  /-- RECORD_APPLY (R319). -/
  | recordApply
  /-- STAGE_ACK (R337). -/
  | stageAck (stage : BitVec 64)
  /-- PEER_REPORT (R321). -/
  | peerReport (e : LEntry)
  /-- FETCH_REQ (R320). -/
  | fetchReq (e : LEntry)
  /-- FETCH_DATA (R320). -/
  | fetchData (e : LEntry) (bytes : Bytes)
  /-- PEER_FETCH_TIMEOUT (R320). -/
  | peerFetchTimeout (e : LEntry)
  /-- KEY_ROTATE (R316). -/
  | keyRotate
  /-- TWIN_LINK_DOWN (R313). -/
  | twinLinkDown (lanes : BitVec 4)
  /-- TWIN_LINK_RETRAIN (R313). -/
  | twinLinkRetrain (lanes : BitVec 4)
  /-- TWIN_FLIT_ACK (R365). -/
  | twinFlitAck (seq : BitVec 32)
  /-- CLAIM_READ (R329). -/
  | claimRead (core : Fin 23) (ring : Fin 512)
  /-- CLAIM_TIMEOUT (R329). -/
  | claimTimeout (core : Fin 23) (ring : Fin 512)
  /-- INPUT_RING_HEAD_WRITE (R345). -/
  | inputRingHeadWrite (i : Fin 23) (head : BitVec 16)
  /-- DIGEST_IN_WRITE (R347). -/
  | digestInWrite (core : Fin 24) (v : BitVec 64)
  /-- STAGE_LENGTH_WRITE (R333). -/
  | stageLengthWrite (us : BitVec 7)
  /-- STAGE_DIGEST_FINAL (R348). -/
  | stageDigestFinal (stage : BitVec 64)
  /-- LAG_LIMIT_EXCEEDED (R335). -/
  | lagLimitExceeded (lagUs : Nat)
  /-- TRAIL_DOORBELL_UNMATCHED (R352). -/
  | trailDoorbellUnmatched (f : Fin 66) (qid : Nat) (val : Nat)
  /-- STATUS_SEND (R356). -/
  | statusSend
  /-- QUERY (R360). -/
  | query (mseq : BitVec 32) (stage : BitVec 64) (cause : Nat)
  /-- QUERY_FREEZE_TIMEOUT (R360). -/
  | queryFreezeTimeout
  /-- VERDICT (R368). -/
  | verdict (mseq : BitVec 32) (loser : BitVec 8) (cause : Nat) (stage : BitVec 64)
  /-- ARB_HELLO (R371). -/
  | arbHello (mseq : BitVec 32) (peer : Nat)
  /-- ARBITER_LOST (R371). -/
  | arbiterLost
  /-- LEAD_CONTINUE_ALONE (R373). -/
  | leadContinueAlone
  /-- FENCE_N_ASSERT (R362). -/
  | fenceNAssert
  /-- FENCE_N_RELEASE (R69). -/
  | fenceNRelease
  /-- PAIR_HELLO (R375). -/
  | pairHello (h : PairHello)
  /-- PAIR_RESULT (R376). -/
  | pairResult (result : Nat) (pairId : BitVec 64) (epoch : BitVec 16) (dtime : BitVec 64)
  /-- RSYNC_DATA (R380). -/
  | rsyncData (addr : Nat) (bytes : Bytes)
  /-- RSYNC_PASS_END (R381). -/
  | rsyncPassEnd (dirtyPages : Nat)
  /-- RSYNC_CUT (R383). -/
  | rsyncCut (stage : BitVec 64) (image : Machine.CutImage)
  /-- RSYNC_LIVE (R385). -/
  | rsyncLive (stage : BitVec 64)
  /-- RSYNC_ABORT (R384). -/
  | rsyncAbort (reason : BitVec 32)
  /-- SEC_XFER (R415). -/
  | secXfer (xseq : BitVec 64) (slot : Fin 65536) (gen : BitVec 32) (alg : Nat) (material : BitVec 512)
  /-- XTS_ENCRYPT (R393). -/
  | xtsEncrypt (r : Fin 32) (d : CphDesc) (run : CphRun)
  /-- XTS_DECRYPT (R393). -/
  | xtsDecrypt (r : Fin 32) (d : CphDesc) (run : CphRun)
  /-- GCM_ENCRYPT (R409). -/
  | gcmEncrypt (r : Fin 32) (d : CphDesc) (run : CphRun)
  /-- GCM_DECRYPT (R402). -/
  | gcmDecrypt (r : Fin 32) (d : CphDesc) (run : CphRun)
  /-- CIPHER_CORE_DISABLE (R395). -/
  | cipherCoreDisable (n : Fin 18)
  /-- CIPHER_CORE_ENABLE (R396). -/
  | cipherCoreEnable (n : Fin 18) (katPass : Bool)
  /-- KEY_SLOT_DRAINED (R416). -/
  | keySlotDrained (slot : Fin 65536)
  /-- SANITIZE_N_ASSERT (R427). -/
  | sanitizeNAssert (ns : Nat)
  /-- CREATE_KEY (R413). -/
  | createKey (m : Msg) (a : Arrival) (alg : Nat) (owner : BitVec 128)
  /-- ROTATE_KEY (R413). -/
  | rotateKey (m : Msg) (a : Arrival) (nsid : Nat)
  /-- UNLOAD_KEY (R413). -/
  | unloadKey (m : Msg) (a : Arrival) (handle : BitVec 32)
  /-- LOAD_KEY (R413). -/
  | loadKey (m : Msg) (a : Arrival) (handle : BitVec 32)
  /-- ERASE_KEY_SLOT (R416). -/
  | eraseKeySlot (m : Msg) (a : Arrival) (handle : BitVec 32)
  /-- REWRITE_KEY_SLOT (R416). -/
  | rewriteKeySlot (m : Msg) (a : Arrival) (handle : BitVec 32)
  /-- CHANGE_OWNER (R413). -/
  | changeOwner (m : Msg) (a : Arrival) (handle : BitVec 32) (owner : BitVec 128)
  /-- ENTER_DTS_COMPONENT (R419). -/
  | enterDtsComponent (m : Msg) (a : Arrival) (index : Nat) (component : BitVec 256)
  /-- EXPORT_KEY_STORE (R420). -/
  | exportKeyStore (m : Msg) (a : Arrival) (off : Nat)
  /-- IMPORT_KEY_STORE (R420). -/
  | importKeyStore (m : Msg) (a : Arrival) (off total : Nat) (data : Bytes)
  /-- ZEROIZE (R427). -/
  | zeroize (m : Msg) (a : Arrival) (confirm : BitVec 32)
  /-- ENROL_AUTHENTICATION_KEY (R423). -/
  | enrolAuthenticationKey (m : Msg) (a : Arrival) (op role : Nat) (key : BitVec 768) (keyid : BitVec 384)
  /-- CLEAR_LOCKOUT (R566). -/
  | clearLockout (m : Msg) (a : Arrival) (region : Nat)
  /-- STAGING_WRITE (R442). -/
  | stagingWrite (m : Msg) (a : Arrival) (off : Nat) (data : Bytes)
  /-- STAGING_ABORT (R442). -/
  | stagingAbort (m : Msg) (a : Arrival)
  /-- COMMIT_STAGING (R443). -/
  | commitStaging (m : Msg) (a : Arrival)
  /-- ACTIVATE_WITH_RESET (R448). -/
  | activateWithReset (m : Msg) (a : Arrival) (slot : Nat) (force : Bool)
  /-- ACTIVATE_WITHOUT_RESET (R451). -/
  | activateWithoutReset (m : Msg) (a : Arrival)
  /-- READ_SLOT_STATUS (R444). -/
  | readSlotStatus (m : Msg) (a : Arrival)
  /-- UPDATE_PACK_BRIDGES (R458). -/
  | updatePackBridges (m : Msg) (a : Arrival) (portMask : BitVec 32)
  /-- COUNTERSIGNING_KEYS (R439). -/
  | countersigningKeys (m : Msg) (a : Arrival) (op : Nat) (key : BitVec 768) (keyid : BitVec 384)
  /-- RAISE_SVN_MIN (R444). -/
  | raiseSvnMin (m : Msg) (a : Arrival)
  /-- RESTART_TEST_MODE (R450). -/
  | restartTestMode (m : Msg) (a : Arrival)
  /-- MIGRATE_SETTINGS (R449). -/
  | migrateSettings (m : Msg) (a : Arrival)
  /-- MAILBOX_GO (R463). -/
  | mailboxGo (m : Msg)
  /-- MAILBOX_DONE (R463). -/
  | mailboxDone (c : Fin 8)
  /-- CHALLENGE (R475). -/
  | challenge (m : Msg) (a : Arrival) (role : Nat)
  /-- PROVE (R422). -/
  | prove (m : Msg) (a : Arrival) (role : Nat) (keyid : BitVec 384) (sig : BitVec 768)
  /-- LOGOUT (R474). -/
  | logout (m : Msg) (a : Arrival)
  /-- TOKEN_LAPSE (R422). -/
  | tokenLapse (token : BitVec 32)
  /-- GET (R476). -/
  | getSetting (m : Msg) (a : Arrival) (id index : Nat)
  /-- SET (R478). -/
  | setSetting (m : Msg) (a : Arrival) (id index : Nat) (value : Bytes)
  /-- DEFAULT (R476). -/
  | defaultSetting (m : Msg) (a : Arrival) (id index : Nat)
  /-- LIST (R476). -/
  | listSettings (m : Msg) (a : Arrival) (off : Nat)
  /-- CATALOGUE (R487). -/
  | catalogue (m : Msg) (off : Nat)
  /-- STATE_READ (R480). -/
  | stateRead (m : Msg) (stateId : BitVec 32) (index off len : Nat)
  /-- SGEN (R480). -/
  | sgen (m : Msg)
  /-- MAILBOX_IDENTIFY (R479). -/
  | mailboxIdentify (m : Msg)
  /-- ATTEST (R426). -/
  | attest (m : Msg) (nonce : BitVec 256)
  /-- CERT_CHAIN (R479). -/
  | certChain (m : Msg) (off : Nat)
  /-- REJOIN (R378). -/
  | rejoin (m : Msg) (a : Arrival) (joiner : Nat)
  /-- ARM (R386). -/
  | arm (m : Msg) (a : Arrival)
  /-- SWAP (R390). -/
  | swap (m : Msg) (a : Arrival)
  /-- FENCE (R391). -/
  | fence (m : Msg) (a : Arrival) (target : Nat)
  /-- RELEASE (R364). -/
  | release (m : Msg) (a : Arrival) (target : Nat)
  /-- TALLY_STATUS (R482). -/
  | tallyStatus (m : Msg) (a : Arrival)
  /-- TALLY_READ (R482). -/
  | tallyRead (m : Msg) (a : Arrival) (index count : Nat)
  /-- TALLY_FREEZE (R603). -/
  | tallyFreeze (m : Msg) (a : Arrival) (on : Bool)
  /-- TALLY_CLEAR (R604). -/
  | tallyClear (m : Msg) (a : Arrival)
  /-- TALLY_CLEAR_COMPLETE (R604). -/
  | tallyClearComplete
  /-- COUNTER_READ (R608). -/
  | counterRead (m : Msg) (unit : Nat)
  /-- COUNTER_CONFIG (R610). -/
  | counterConfig (m : Msg) (a : Arrival) (unit : Nat) (k : Fin 8) (chain : Bool) (event : BitVec 16) (thresh : BitVec 32)
  /-- ACCESS_ERRORS (R485). -/
  | accessErrors (m : Msg)
  /-- MODULE_SELFTEST (R424). -/
  | moduleSelftest (m : Msg) (a : Arrival) (errcode : Nat)
  /-- ADMIT (R214). -/
  | admitPack (m : Msg) (a : Arrival) (port : Nat)
  /-- REMOVE (R216). -/
  | remove (m : Msg) (a : Arrival) (port : Nat)
  /-- PACK_REMOVABLE (R216). -/
  | packRemovable (n : Fin 32)
  /-- ID_READ (R486). -/
  | idRead (m : Msg) (a : Arrival) (port off len : Nat)
  /-- ID_REPLACE (R212). -/
  | idReplace (m : Msg) (a : Arrival) (port : Nat) (rec : Bytes)
  /-- END_READONLY (R283). -/
  | endReadonly (m : Msg) (a : Arrival)
  /-- RETRAIN (R637). -/
  | retrain (m : Msg) (a : Arrival) (port : Nat)
  /-- REMOVE_CANCEL (R486). -/
  | removeCancel (m : Msg) (a : Arrival) (port : Nat)
  /-- CIC_CLAIM (R506). -/
  | cicClaim (t : Fin 22)
  /-- CIC_EOI (R509). -/
  | cicEoi (t : Fin 22) (src : Fin 512)
  /-- CIC_DB_RING (R499). -/
  | cicDbRing (d : Fin 32)
  /-- CORE_RUN (R494). -/
  | coreRun (i : Fin 24) (run : Bool)
  /-- WATCHDOG_KICK (R497). -/
  | watchdogKick (i : Fin 24)
  /-- WATCHDOG_EXPIRY (R497). -/
  | watchdogExpiry (i : Fin 24)
  /-- PORTER_START (R514). -/
  | porterStart (n : Fin 64)
  /-- SHADOW_WRITE (R518). -/
  | shadowWrite (n : Fin 64) (reg : Fin 5) (val : BitVec 64)
  /-- PORTER_COMMIT (R517). -/
  | porterCommit (n : Fin 64)
  /-- SHADOW_TAKE (R517). -/
  | shadowTake (n : Fin 64)
  /-- TRIGGER_PULSE (R519). -/
  | triggerPulse (n : Fin 64)
  /-- PORTER_SET_END (R516). -/
  | porterSetEnd (n : Fin 64) (e : PtrEnv)
  /-- PORTER_PAUSE (R520). -/
  | porterPause (n : Fin 64) (on : Bool)
  /-- PORTER_PAUSE_DRAINED (R520). -/
  | porterPauseDrained (n : Fin 64) (moved : Nat) (e : PtrEnv)
  /-- PORTER_ERR_CLEAR (R527). -/
  | porterErrClear (n : Fin 64)
  /-- PORTER_DISABLE (R529). -/
  | porterDisable (n : Fin 64)
  /-- HBM_READ (R534). -/
  | hbmRead (who : Initiator) (addr : Nat) (upset : BitVec 72)
  /-- HBM_FILL_START (R538). -/
  | hbmFillStart
  /-- HBM_FILL_DONE (R538). -/
  | hbmFillDone (noSpare : List (Fin 256))
  /-- PATROL_SCRUB (R546). -/
  | patrolScrub (page : Nat) (upsets : List (Nat × BitVec 72))
  /-- HBM_TEMPERATURE_POLL (R547). -/
  | hbmTemperaturePoll (stack : Fin 2) (temp : Int)
  /-- TEST_WRITE_WORD (R548). -/
  | testWriteWord (chk : BitVec 8)
  /-- TEST_READ_WORD (R548). -/
  | testReadWord
  /-- TEST_WRITE_SYMBOL (R548). -/
  | testWriteSymbol (sym : Fin 32)
  /-- TEST_READ_SYMBOL (R548). -/
  | testReadSymbol (sym : Fin 32)
  /-- NOR_READ (R557). -/
  | norRead (d : SnfDesc)
  /-- NOR_PROGRAM (R559). -/
  | norProgram (d : SnfDesc)
  /-- NOR_ERASE_SECTOR (R557). -/
  | norEraseSector (d : SnfDesc)
  /-- NOR_ERASE_SPAN (R557). -/
  | norEraseSpan (d : SnfDesc)
  /-- NOR_OPERATION_END (R562). -/
  | norOperationEnd (verifyFailed : Bool)
  /-- NOR_ENGINE_DISABLE (R561). -/
  | norEngineDisable
  /-- OPEN (R565). -/
  | openRegion (core : Fin 24) (region : Fin 16)
  /-- CLOSE (R565). -/
  | closeRegion (core : Fin 24) (region : Fin 16)
  /-- SET_PASSWORD (R565). -/
  | setPassword (core : Fin 24) (region : Fin 16)
  /-- CLRLOCK (R566). -/
  | clrlock (who : Initiator) (mask : BitVec 16)
  /-- HOUSEKEEPING_ROUND (R582). -/
  | housekeepingRound (durUs : Nat) (ts : List Int) (sup : List Nat) (ack : BitVec 32) (lines : HkpLines)
  /-- OSCILLATOR_TRIM (R570). -/
  | oscillatorTrim (ppm : Int)
  /-- DOMAIN_GATE_IDLE (R571). -/
  | domainGateIdle (d : Fin 112)
  /-- DROWSE_ENTRY (R575). -/
  | drowseEntry
  /-- WAKE (R578). -/
  | wake (b : Fin 8)
  /-- DORMANT_ENTRY (R579). -/
  | dormantEntry
  /-- SLEEP_GROUP_LIGHT (R580). -/
  | sleepGroupLight (g : Fin 8)
  /-- SLEEP_GROUP_DEEP (R580). -/
  | sleepGroupDeep (g : Fin 8)
  /-- THERMAL_TRIP (R588). -/
  | thermalTrip (sensor : Fin 16)
  /-- THERMTRIP_TIMEOUT (R590). -/
  | thermtripTimeout
  /-- TALLY_INTERVAL_END (R596). -/
  | tallyIntervalEnd (durUs : Nat)
  /-- PE_DONE (R597). -/
  | peDone
  /-- PE_DONE_TIMEOUT (R597). -/
  | peDoneTimeout
  /-- TALLY_WINDOW_SELECT (R602). -/
  | tallyWindowSelect (val : BitVec 32)
  /-- TALLY_WINDOW_READ (R602). -/
  | tallyWindowRead (k : Fin 64)
  /-- TALLY_FREEZE_LAPSE (R603). -/
  | tallyFreezeLapse
  /-- PMC_COUNTER_READ (R608). -/
  | pmcCounterRead (x : Fin 53) (k : Fin 8)
  /-- EXTEST (R611). -/
  | extest
  /-- SAMPLE (R611). -/
  | sample
  /-- PRELOAD (R611). -/
  | preload
  /-- DBG_STATUS (R611). -/
  | dbgStatus
  /-- DBG_CHAL (R612). -/
  | dbgChal
  /-- DBG_TOKEN (R612). -/
  | dbgToken (t : DbgToken)
  /-- DEBUG_UNLOCK (R613). -/
  | debugUnlock
  /-- SCAN_SEL (R611). -/
  | scanSel (d : Fin 112)
  /-- SCAN_DATA (R616). -/
  | scanData
  /-- MEM_ADDR (R611). -/
  | memAddr (a : BitVec 40)
  /-- MEM_DATA (R616). -/
  | memData
  /-- BYPASS (R611). -/
  | bypass
  /-- FREEZE_N_ASSERT (R614). -/
  | freezeNAssert
  /-- RDMA_WRITE_FAILED (R104). -/
  | rdmaWriteFailed (qpn : Nat)
  /-- CONVENTIONAL_RESET (R465). -/
  | conventionalReset (port : Fin 2)
  /-- FLIT_DISCARD (R181). -/
  | flitDiscard (l : Link)
  /-- OUT_OF_BAND_MI_COMMAND (R466). -/
  | outOfBandMiCommand (m : Msg)
  /-- LDPC_ENCODE (R229). -/
  | ldpcEncode (q : Fin 32) (codewords : Nat) (line : Fin 256)
  /-- ENTROPY_TEST_FAILURE (R424). -/
  | entropyTestFailure
  /-- COUNTER_OVERFLOW (R608). -/
  | counterOverflow (x : Fin 53) (k : Fin 8)
  /-- AUTHENTICATION_BLOCK_EXPIRY (R422). -/
  | authenticationBlockExpiry (c : Fin 8)
  /-- DTIME_MILLISECOND_TICK (R23). -/
  | dtimeMillisecondTick
deriving DecidableEq, Repr

end Sys2Proof
end

