-- ==== Sys2Proof/Config.lean ====
section
/-! DEFINITION. What the manual leaves open: uninterpreted constants, so that no proof can see a value of them. -/

namespace Sys2Proof

/-- A free value: the `n`-th value that the manual does not state (the number is drawn from the state). -/
opaque Config.free : Nat → Nat

/-- Byte `j` of the `n`-th run of bytes that the manual leaves undefined. -/
opaque Config.freeByte : Nat → Nat → Byte

/-- The boot ROM's contents (R17 names the ROM and not its bytes). -/
opaque Config.rom : Nat → Byte

/-- The eight check bits of an HBM word (the (72,64) SEC-DED code of R533; its matrix is not stated). -/
opaque Config.checkBits : BitVec 64 → BitVec 8

/-- What the SEC-DED code makes of an error pattern of three or more bits: 0 nothing noticed, 1 a bit wrongly
corrected, else uncorrectable. -/
opaque Config.eccHeavy : BitVec 72 → Nat

/-- The bit that a wrong correction flips. -/
opaque Config.eccBit : BitVec 72 → Nat

/-- Bank and row of a word: by page within the pseudo-channel and word within the page (R531 fixes the bank group's
page and not its place). -/
opaque Config.hbmPlace : Nat → Nat → Nat × Nat

/-- Check symbol `k` of a page's bytes (R533: a Reed–Solomon code whose generator is not stated). -/
opaque Config.rsSymbol : Bytes → Nat → BitVec 16

/-- Parity byte `j` of a codeword over 4096 user bytes (R183: 512 bytes of the LDPC code, whose matrix is not stated). -/
opaque Config.ldpcByte : Bytes → Nat → Byte

/-- The coded bytes of a quarter or block (R155: they depend on the plaintext, the shuffle width and CODEVER alone; the code
itself is not stated). -/
opaque Config.cmpCode : Nat → Bytes → Bytes

/-- What a coded stream decodes to, if it does. -/
opaque Config.cmpDecode : Bytes → Option Bytes

/-- The 4 KiB pages of HBM in which the data of a command lies, by its fetch stamp (R28, R532 give the regions, and no rule the place of
a command's data in them). -/
opaque Config.dataPages : BitVec 64 → List Nat

/-- The addresses of a fabric port of a twin as the transport gives them: twin, port, and IPv6 (R82 states that each has one IPv4 and one
IPv6 address, not which). -/
opaque Config.ipAddr : Bool → Nat → Bool → Bytes

/-- R411: the device unique key in the fuses. -/
opaque Config.duk : BitVec 256

/-- The controller's serial number, 24 bytes. -/
opaque Config.serial : BitVec 192

/-- Byte `j` of an identity that the manual does not state: of the controller (structure 0) and of namespaces. -/
opaque Config.identByte : Nat → Nat → Byte

/-- The public key of a fused release-key slot, x then y (R438 states its hash's place and not its value). -/
opaque Config.releaseKey : Nat → BitVec 768

/-- The format revision of a setting by the type 6 part of a release (R435: the part's layout is not stated). -/
opaque Config.fmtRev : Bytes → Nat → Nat

/-- Numbers of the state catalogue that the manual does not state, by release: CVER at 0, the SIZE of a setting item at 1, and
the LVER of an item at its STATE_ID (R487). -/
opaque Config.catalogue : BitVec 64 → Nat → Nat

/-- The DER certificates from the DIK up (R426). -/
opaque Config.certChain : Bytes

/-- The SHA-384 digests of the parts of the factory release, by type (R434: no package of it is stated). -/
opaque Config.factoryDigest : Nat → Bytes

/-- The length in bits of a clock domain's scan chain (R611). -/
opaque Config.chainLen : Nat → Nat

/-- Which patch the patch table holds at an entry (R122: the place of a patch is not stated). -/
opaque Config.patchAt : Nat → Nat

end Sys2Proof
end

