-- ==== Sys2Proof/Machine/Tbl.lean ====
section
/-! DEFINITION. Sparse tables: reading, writing and removing an entry by key. Every register file, memory and
per-instance record of the state is read and written through these. -/

namespace Sys2Proof.Machine

/-- The entry of key `k`, if the table lists one. -/
def tget {β : Type} (k : Nat) : Tbl β → Option β
  | [] => none
  | e :: t => if k = e.1 then some e.2 else tget k t

/-- The table with key `k` holding `v`; keys stay in rising order. -/
def tput {β : Type} (k : Nat) (v : β) : Tbl β → Tbl β
  | [] => [(k, v)]
  | e :: t => if k < e.1 then (k, v) :: e :: t else if k = e.1 then (k, v) :: t else e :: tput k v t

/-- The table without key `k`. -/
def tdel {β : Type} (k : Nat) : Tbl β → Tbl β
  | [] => []
  | e :: t => if k = e.1 then tdel k t else e :: tdel k t

/-- The entry of key `k`, or `d` where the table lists none. -/
def tgetD {β : Type} (k : Nat) (d : β) (t : Tbl β) : β := (tget k t).getD d

/-- A table whose unlisted keys hold `d`, with `k` holding `v`: an entry equal to `d` is not listed. -/
def tset {β : Type} [DecidableEq β] (d : β) (k : Nat) (v : β) (t : Tbl β) : Tbl β :=
  if v = d then tdel k t else tput k v t

/-- Keys strictly rising. -/
def tsorted {β : Type} : Tbl β → Bool
  | [] => true
  | [_] => true
  | a :: b :: t => decide (a.1 < b.1) && tsorted (b :: t)

/-- `x` goes into a list in order, before the first entry that it may precede. -/
def insertBy {α : Type} (le : α → α → Bool) (x : α) : List α → List α
  | [] => [x]
  | y :: t => if le x y then x :: y :: t else y :: insertBy le x t

/-- A list in order; entries that may each precede the other keep their places. -/
def sortBy {α : Type} (le : α → α → Bool) (l : List α) : List α := l.foldr (insertBy le) []

end Sys2Proof.Machine
end

