-- ==== Sys2Proof/Machine/Crypto.lean ====
section
/-! DEFINITION. The codes and the cryptographic functions the manual names: CRC-32C (R5), and SHA-384, AES-256, XTS,
GCM and ECDSA P-384 of the standards listed at R4. -/

namespace Sys2Proof.Machine

/-- `n` bytes of a number, least significant first (R10). -/
def leBytes : Nat → Nat → Bytes
  | 0, _ => []
  | n + 1, v => BitVec.ofNat 8 v :: leBytes n (v / 256)

/-- The number that bytes hold, least significant first (R10). -/
def leNat : Bytes → Nat
  | [] => 0
  | b :: t => b.toNat + 256 * leNat t

/-- `n` bytes of a number, most significant first (as the cryptographic standards write). -/
def beBytes (n v : Nat) : Bytes := (leBytes n v).reverse

/-- The number that bytes hold, most significant first. -/
def beNat (l : Bytes) : Nat := leNat l.reverse

/-- One bit of a reflected CRC-32C register. -/
def crcBit (c : BitVec 32) : BitVec 32 :=
  if c.getLsbD 0 then (c >>> 1) ^^^ 0x82F63B78 else c >>> 1

/-- The running CRC-32C after one more byte, before the final XOR (R5). -/
def crcByte (c : BitVec 32) (b : Byte) : BitVec 32 :=
  let x := c ^^^ b.setWidth 32
  crcBit (crcBit (crcBit (crcBit (crcBit (crcBit (crcBit (crcBit x)))))))

/-- The running CRC-32C over bytes, from the running value `c`. -/
def crcRun (c : BitVec 32) (l : Bytes) : BitVec 32 := l.foldl crcByte c

/-- CRC-32C of bytes (R5). -/
def crc32c (l : Bytes) : BitVec 32 := crcRun 0xFFFFFFFF l ^^^ 0xFFFFFFFF

/-- The round constants of SHA-384. -/
def shaK : List (BitVec 64) :=
  [0x428A2F98D728AE22, 0x7137449123EF65CD, 0xB5C0FBCFEC4D3B2F,
   0xE9B5DBA58189DBBC, 0x3956C25BF348B538, 0x59F111F1B605D019,
   0x923F82A4AF194F9B, 0xAB1C5ED5DA6D8118, 0xD807AA98A3030242,
   0x12835B0145706FBE, 0x243185BE4EE4B28C, 0x550C7DC3D5FFB4E2,
   0x72BE5D74F27B896F, 0x80DEB1FE3B1696B1, 0x9BDC06A725C71235,
   0xC19BF174CF692694, 0xE49B69C19EF14AD2, 0xEFBE4786384F25E3,
   0x0FC19DC68B8CD5B5, 0x240CA1CC77AC9C65] ++
  [0x2DE92C6F592B0275, 0x4A7484AA6EA6E483, 0x5CB0A9DCBD41FBD4,
   0x76F988DA831153B5, 0x983E5152EE66DFAB, 0xA831C66D2DB43210,
   0xB00327C898FB213F, 0xBF597FC7BEEF0EE4, 0xC6E00BF33DA88FC2,
   0xD5A79147930AA725, 0x06CA6351E003826F, 0x142929670A0E6E70,
   0x27B70A8546D22FFC, 0x2E1B21385C26C926, 0x4D2C6DFC5AC42AED,
   0x53380D139D95B3DF, 0x650A73548BAF63DE, 0x766A0ABB3C77B2A8,
   0x81C2C92E47EDAEE6, 0x92722C851482353B] ++
  [0xA2BFE8A14CF10364, 0xA81A664BBC423001, 0xC24B8B70D0F89791,
   0xC76C51A30654BE30, 0xD192E819D6EF5218, 0xD69906245565A910,
   0xF40E35855771202A, 0x106AA07032BBD1B8, 0x19A4C116B8D2D0C8,
   0x1E376C085141AB53, 0x2748774CDF8EEB99, 0x34B0BCB5E19B48A8,
   0x391C0CB3C5C95A63, 0x4ED8AA4AE3418ACB, 0x5B9CCA4F7763E373,
   0x682E6FF3D6B2B8A3, 0x748F82EE5DEFB2FC, 0x78A5636F43172F60,
   0x84C87814A1F0AB72, 0x8CC702081A6439EC] ++
  [0x90BEFFFA23631E28, 0xA4506CEBDE82BDE9, 0xBEF9A3F7B2C67915,
   0xC67178F2E372532B, 0xCA273ECEEA26619C, 0xD186B8C721C0C207,
   0xEADA7DD6CDE0EB1E, 0xF57D4F7FEE6ED178, 0x06F067AA72176FBA,
   0x0A637DC5A2C898A6, 0x113F9804BEF90DAE, 0x1B710B35131C471B,
   0x28DB77F523047D84, 0x32CAAB7B40C72493, 0x3C9EBE0A15C9BEBC,
   0x431D67C49C100D4C, 0x4CC5D4BECB3E42B6, 0x597F299CFC657E2A,
   0x5FCB6FAB3AD6FAEC, 0x6C44198C4A475817]

/-- The initial hash value of SHA-384. -/
def shaIV : List (BitVec 64) :=
  [0xCBBB9D5DC1059ED8, 0x629A292A367CD507, 0x9159015A3070DD17,
   0x152FECD8F70E5939, 0x67332667FFC00B31, 0x8EB44A8768581511,
   0xDB0C2E0D64F98FA7, 0x47B5481DBEFA4FA4]

/-- The message schedule of SHA-384, most recent word first, `n` words added. -/
def shaSched : Nat → List (BitVec 64) → List (BitVec 64)
  | 0, w => w
  | n + 1, w =>
    let x1 := w.getD 1 0
    let x14 := w.getD 14 0
    let s1 := x1.rotateRight 19 ^^^ x1.rotateRight 61 ^^^ x1 >>> 6
    let s0 := x14.rotateRight 1 ^^^ x14.rotateRight 8 ^^^ x14 >>> 7
    shaSched n ((s1 + w.getD 6 0 + s0 + w.getD 15 0) :: w)

/-- The eight working variables. -/
structure ShaVars where
  a : BitVec 64
  b : BitVec 64
  c : BitVec 64
  d : BitVec 64
  e : BitVec 64
  f : BitVec 64
  g : BitVec 64
  h : BitVec 64

/-- One round. -/
def shaRound (v : ShaVars) (kw : BitVec 64 × BitVec 64) : ShaVars :=
  let s1 := v.e.rotateRight 14 ^^^ v.e.rotateRight 18 ^^^ v.e.rotateRight 41
  let t1 := v.h + s1 + ((v.e &&& v.f) ^^^ (~~~v.e &&& v.g)) + kw.1 + kw.2
  let s0 := v.a.rotateRight 28 ^^^ v.a.rotateRight 34 ^^^ v.a.rotateRight 39
  let t2 := s0 + ((v.a &&& v.b) ^^^ (v.a &&& v.c) ^^^ (v.b &&& v.c))
  { a := t1 + t2, b := v.a, c := v.b, d := v.c, e := v.d + t1, f := v.e, g := v.f, h := v.g }

/-- One block of 128 bytes. -/
def shaBlock (h : List (BitVec 64)) (blk : Bytes) : List (BitVec 64) :=
  let w16 := (List.range 16).map fun i => BitVec.ofNat 64 (beNat ((blk.drop (8 * i)).take 8))
  let w := (shaSched 64 w16.reverse).reverse
  let g := fun i => h.getD i 0
  let v := (shaK.zip w).foldl shaRound
    { a := g 0, b := g 1, c := g 2, d := g 3, e := g 4, f := g 5, g := g 6, h := g 7 }
  h.zipWith (· + ·) [v.a, v.b, v.c, v.d, v.e, v.f, v.g, v.h]

/-- The blocks of a padded message, `n` of them. -/
def shaBlocks : Nat → List (BitVec 64) → Bytes → List (BitVec 64)
  | 0, h, _ => h
  | n + 1, h, m => shaBlocks n (shaBlock h (m.take 128)) (m.drop 128)

/-- SHA-384 of bytes, 48 bytes (FIPS 180-4). -/
def sha384 (m : Bytes) : Bytes :=
  let n := m.length
  let z := (239 - n % 128) % 128
  let p := m ++ [0x80] ++ List.replicate z 0 ++ beBytes 16 (8 * n)
  ((shaBlocks (p.length / 128) shaIV p).flatMap fun w => beBytes 8 w.toNat).take 48

/-- Multiplication by x in the AES field. -/
def aesX (b : BitVec 8) : BitVec 8 := if b.getLsbD 7 then (b <<< 1) ^^^ 0x1B else b <<< 1

/-- Multiplication in a field of bytes whose multiplication by x is `mx`, `n` bits of the multiplier. -/
def gfMulBy (mx : BitVec 8 → BitVec 8) : Nat → BitVec 8 → BitVec 8 → BitVec 8
  | 0, _, _ => 0
  | n + 1, a, b => (if b.getLsbD 0 then a else 0) ^^^ gfMulBy mx n (mx a) (b >>> 1)

/-- Multiplication in the AES field. -/
def aesMul (a b : BitVec 8) : BitVec 8 := gfMulBy aesX 8 a b

/-- The inverse in the AES field, a^254; 0 for 0. -/
def aesInv (a : BitVec 8) : BitVec 8 :=
  let a2 := aesMul a a
  let a4 := aesMul a2 a2
  let a8 := aesMul a4 a4
  let a16 := aesMul a8 a8
  let a32 := aesMul a16 a16
  let a64 := aesMul a32 a32
  let a128 := aesMul a64 a64
  aesMul a2 (aesMul a4 (aesMul a8 (aesMul a16 (aesMul a32 (aesMul a64 a128)))))

/-- The AES S-box (FIPS 197). -/
def aesSub (a : BitVec 8) : BitVec 8 :=
  let i := aesInv a
  i ^^^ i.rotateLeft 1 ^^^ i.rotateLeft 2 ^^^ i.rotateLeft 3 ^^^ i.rotateLeft 4 ^^^ 0x63

/-- The inverse S-box. -/
def aesSubInv (a : BitVec 8) : BitVec 8 :=
  aesInv (a.rotateLeft 1 ^^^ a.rotateLeft 3 ^^^ a.rotateLeft 6 ^^^ 0x05)

/-- The AES-256 key schedule: `n` more words after `w` (most recent first), `i` the index of the next. -/
def aesExpand : Nat → Nat → BitVec 8 → List Bytes → List Bytes
  | 0, _, _, w => w
  | n + 1, i, rc, w =>
    let t := w.getD 0 []
    let t' :=
      if i % 8 = 0 then
        match t.drop 1 ++ t.take 1 with
        | b :: r => (aesSub b ^^^ rc) :: r.map aesSub
        | [] => []
      else if i % 8 = 4 then t.map aesSub else t
    let rc' := if i % 8 = 0 then aesX rc else rc
    aesExpand n (i + 1) rc' ((w.getD 7 []).zipWith (· ^^^ ·) t' :: w)

/-- The fifteen round keys of AES-256, 16 bytes each. -/
def aesKeys (key : Bytes) : List Bytes :=
  let w0 := (List.range 8).map fun i => (key.drop (4 * i)).take 4
  let w := (aesExpand 52 8 1 w0.reverse).reverse
  (List.range 15).map fun r => ((w.drop (4 * r)).take 4).flatten

/-- XOR of two runs of bytes. -/
def xorBytes (a b : Bytes) : Bytes := a.zipWith (· ^^^ ·) b

/-- ShiftRows: byte r + 4c of the result is byte r + 4((c + r) mod 4); `k` is 1, or 3 for its inverse. -/
def aesShift (k : Nat) (s : Bytes) : Bytes :=
  (List.range 16).map fun i => s.getD (i % 4 + 4 * ((i / 4 + k * (i % 4)) % 4)) 0

/-- MixColumns with the column coefficients `m`. -/
def aesMix (m : Bytes) (s : Bytes) : Bytes :=
  (List.range 16).map fun i =>
    (List.range 4).foldl (fun acc j =>
      acc ^^^ aesMul (m.getD ((j + 4 - i % 4) % 4) 0) (s.getD (4 * (i / 4) + j) 0)) 0

/-- AES-256 encryption of one block. -/
def aesEnc (key blk : Bytes) : Bytes :=
  let ks := aesKeys key
  let s := (ks.drop 1).dropLast.foldl
    (fun s k => xorBytes (aesMix [2, 3, 1, 1] (aesShift 1 (s.map aesSub))) k) (xorBytes blk (ks.getD 0 []))
  xorBytes (aesShift 1 (s.map aesSub)) (ks.getD 14 [])

/-- AES-256 decryption of one block. -/
def aesDec (key blk : Bytes) : Bytes :=
  let ks := aesKeys key
  let s := ((ks.drop 1).dropLast.reverse).foldl
    (fun s k => aesMix [14, 11, 13, 9] (xorBytes ((aesShift 3 s).map aesSubInv) k)) (xorBytes blk (ks.getD 14 []))
  xorBytes ((aesShift 3 s).map aesSubInv) (ks.getD 0 [])

/-- Multiplication of an XTS tweak by x (SP 800-38E). -/
def xtsX (t : Bytes) : Bytes :=
  let v := 2 * leNat t
  leBytes 16 (if v < 2 ^ 128 then v else (v - 2 ^ 128) ^^^ 0x87)

/-- XTS over whole 16-byte blocks: `f` is AES encryption or decryption under the data key. -/
def xtsBlocks (f : Bytes → Bytes) : Nat → Bytes → Bytes → Bytes
  | 0, _, _ => []
  | n + 1, t, d => xorBytes (f (xorBytes (d.take 16) t)) t ++ xtsBlocks f n (xtsX t) (d.drop 16)

/-- XTS-AES-256 of a data unit of whole blocks: `key` is the 64-byte key, data key first. -/
def xts (enc : Bool) (key iv d : Bytes) : Bytes :=
  xtsBlocks (if enc then aesEnc (key.take 32) else aesDec (key.take 32)) (d.length / 16)
    (aesEnc (key.drop 32) iv) d

/-- A tweak multiplied by x `n` times. -/
def xtsSkip : Nat → Bytes → Bytes
  | 0, t => t
  | n + 1, t => xtsSkip n (xtsX t)

/-- XTS encryption of the part of a data unit that begins at its 16-byte block `k`. -/
def xtsFrom (k : Nat) (key iv d : Bytes) : Bytes :=
  xtsBlocks (aesEnc (key.take 32)) (d.length / 16) (xtsSkip k (aesEnc (key.drop 32) iv)) d

/-- Multiplication in GF(2^128) as GCM writes it: `x` bit by bit, most significant first. -/
def ghashMul : Nat → BitVec 128 → BitVec 128 → BitVec 128
  | 0, _, _ => 0
  | n + 1, x, v =>
    (if x.getLsbD n then v else 0) ^^^
      ghashMul n x (if v.getLsbD 0 then (v >>> 1) ^^^ (0xE1 <<< 120) else v >>> 1)

/-- GHASH of `n` blocks. -/
def ghash (h : BitVec 128) : Nat → BitVec 128 → Bytes → BitVec 128
  | 0, y, _ => y
  | n + 1, y, d => ghash h n (ghashMul 128 (y ^^^ BitVec.ofNat 128 (beNat (d.take 16))) h) (d.drop 16)

/-- Padding with zeros to whole 16-byte blocks. -/
def pad16 (d : Bytes) : Bytes := d ++ List.replicate ((16 - d.length % 16) % 16) 0

/-- The GCM key stream from counter `c` on, `n` blocks. -/
def gcmStream (key iv : Bytes) : Nat → Nat → Bytes
  | 0, _ => []
  | n + 1, c => aesEnc key (iv ++ beBytes 4 c) ++ gcmStream key iv n (c + 1)

/-- GCM tag over ciphertext `c` and additional data `a`, 96-bit nonce (SP 800-38D). -/
def gcmTag (key iv a c : Bytes) : Bytes :=
  let h := BitVec.ofNat 128 (beNat (aesEnc key (List.replicate 16 0)))
  let m := pad16 a ++ pad16 c ++ beBytes 8 (8 * a.length) ++ beBytes 8 (8 * c.length)
  xorBytes (beBytes 16 (ghash h (m.length / 16) 0 m).toNat) (aesEnc key (iv ++ [0, 0, 0, 1]))

/-- GCM encryption: ciphertext and tag. -/
def gcmEnc (key iv a d : Bytes) : Bytes × Bytes :=
  let c := xorBytes d (gcmStream key iv ((d.length + 15) / 16) 2)
  (c, gcmTag key iv a c)

/-- GCM decryption: the data, and whether the tag agrees. -/
def gcmDec (key iv a c tag : Bytes) : Bytes × Bool :=
  (xorBytes c (gcmStream key iv ((c.length + 15) / 16) 2), gcmTag key iv a c == tag)

/-- The prime of P-384. -/
def p384P : Nat := 2 ^ 384 - 2 ^ 128 - 2 ^ 96 + 2 ^ 32 - 1

/-- The order of P-384. -/
def p384N : Nat :=
  0xFFFFFFFFFFFFFFFFFFFFFFFFFFFFFFFFFFFFFFFFFFFFFFFFC7634D81F4372DDF581A0DB248B0A77AECEC196ACCC52973

/-- The coefficient b of P-384. -/
def p384B : Nat :=
  0xB3312FA7E23EE7E4988E056BE3F82D19181D9C6EFE8141120314088F5013875AC656398D8A2ED19D2A85C8EDD3EC2AEF

/-- The base point of P-384. -/
def p384G : Nat × Nat :=
  (0xAA87CA22BE8B05378EB1C71EF320AD746E1D3B628BA79B9859F741E082542A385502F25DBF55296C3A545E3872760AB7,
   0x3617DE4A96262C6F5D9E98BF9292DC29F8F41DBD289A147CE9DA3113B5F0B8C00A60B1CE1D7E819D7A431D7C90EA0E5F)

/-- `a ^ e mod m`, `n` bits of the exponent. -/
def powMod (m : Nat) : Nat → Nat → Nat → Nat
  | 0, _, _ => 1 % m
  | n + 1, a, e => (if e % 2 = 1 then a else 1) * powMod m n (a * a % m) (e / 2) % m

/-- The inverse modulo a prime of at most 384 bits. -/
def invMod (m a : Nat) : Nat := powMod m 384 (a % m) (m - 2)

/-- The sum of two points of P-384; none is the point at infinity. -/
def p384Add (a b : Option (Nat × Nat)) : Option (Nat × Nat) :=
  match a, b with
  | none, q => q
  | p, none => p
  | some (x1, y1), some (x2, y2) =>
    if x1 = x2 ∧ (y1 + y2) % p384P = 0 then none
    else
      let l := if x1 = x2 then 3 * (x1 * x1 + p384P - 1) % p384P * invMod p384P (2 * y1) % p384P
        else (y2 + p384P - y1) * invMod p384P (x2 + p384P - x1) % p384P
      let x3 := (l * l + 2 * p384P - x1 - x2) % p384P
      some (x3, (l * (x1 + p384P - x3) + p384P - y1) % p384P)

/-- The multiple `k` of a point, `n` bits of `k`. -/
def p384Mul : Nat → Nat → Option (Nat × Nat) → Option (Nat × Nat)
  | 0, _, _ => none
  | n + 1, k, p =>
    let r := p384Mul n (k / 2) (p384Add p p)
    if k % 2 = 1 then p384Add r p else r

/-- ECDSA P-384 with SHA-384: does (r, s) sign `msg` under the point (x, y) (FIPS 186-5)? -/
def ecdsaVerify (x y r s : Nat) (msg : Bytes) : Bool :=
  let e := beNat (sha384 msg)
  let w := invMod p384N s
  let q := p384Add (p384Mul 384 (e * w % p384N) (some p384G)) (p384Mul 384 (r * w % p384N) (some (x, y)))
  decide (0 < r ∧ r < p384N ∧ 0 < s ∧ s < p384N ∧ x < p384P ∧ y < p384P ∧
    (y * y) % p384P = (x * x * x + (p384P - 3) * x + p384B) % p384P) &&
  match q with
  | some (qx, _) => qx % p384N == r
  | none => false

end Sys2Proof.Machine
end

