-- ==== Sys2Proof/Machine/RegName.lean ====
section
/-! DEFINITION. The names of the registers, as the manual spells them (one constructor per register table; a
per-instance register is one name and an instance number). -/

namespace Sys2Proof.Machine

/-- The registers of the block. `CAP` to `HIF_BOOTSTAT` and the NVMe registers lie in each function's BAR0; the
others in the internal address space (R17). -/
inductive RegName where
  | CAP | HIF_QDB | HIF_XCFG | HIF_TWNSTAT | HIF_CTXFREE | FAB_PSTAT | MAP_CTL | MAP_CACHE_CFG | MAP_PTAB_CFG
  | MAP_PTAB_STAT | MAP_CAP_USABLE | MAP_CAP_LIVE | MAP_CAP_CHARGED | MAP_MISS_CNT | MAP_QBASE | MAP_QCTL
  | MAP_QTAIL | MAP_QHEAD | CMP_CTL | CMP_ENG_CTL | CMP_ENG_STAT | CMP_RING_CFG | CMP_RING_PTR | PKP_CTL
  | PKP_STAT | PKP_CSEQ | PKP_BRH | PKP_LERR | PKP_CRED | CVY_CTL | CVY_ACC_CFG | CVY_STAT | CVY_RING_CFG
  | CVY_RING_PTR | MED_CTL | MED_ITER_CFG | MED_ESC_CNT | HIF_BOOTSTAT | TWN_CTL | TWN_STAT | TWN_STAGE
  | TWN_STIME | TWN_CSTAGE | TWN_DIGEST_IN | TWN_DIG_STG | TWN_DIG | TWN_ROUTE | TWN_RETCFG | TWN_LINK
  | TWN_IRCFG | TWN_IRHEAD | TWN_TVR | TWN_CLAIM | TWN_SPROD | CPH_CTL | CPH_STAT | CPH_CORE_CTL
  | CPH_CORE_STAT | CPH_RING_CFG | CPH_RING_PTR | SEC_MODE | SEC_KSTAT | MBX_CSR | MBX_INT | MBX_RBV
  | MBX_RBS_ITEM | MBX_RBS_OFF | CIC_CTL | CIC_STRAY_EOI | CIC_DB_RING | CIC_SRC_CFG | CIC_SRC_STAT
  | CIC_TGT_CTL | CIC_CLAIM | CIC_EOI | CIC_RPRIO | CIC_STK | CIC_CORE_CTL | CIC_CORE_STAT | CIC_WDT
  | PTR_SRC | PTR_DST | PTR_CNT | PTR_CFG | PTR_XLV | PTR_CTL | PTR_STAT | PTR_CRC | PTR_POS | PTR_DONE
  | HBC_CTL | HBC_INIT | HBC_STAT | HBC_UELOG | HBC_TEST_CTL | HBC_TEST_ADDR | HBC_TEST_DATA | HBC_REPAIR
  | SNF_CTL | SNF_QPTR | SNF_STAT | SNF_INTR | SNF_RGN | SNF_PWD | SNF_PCMD | SNF_SCCTL | CPM_PSTATE
  | CPM_WAKE | CPM_DOM_OFF | CPM_DOM_STAT | CPM_RESID | HKP_TS | HKP_SUP | HKP_I2C | HKP_TASK | HKP_TRIP
  | TLY_CTL | TLY_STAT | TLY_CUR | TLY_WIN | TLY_PE | PMC_GCTL | PMC_CYC | PMC_CTL | PMC_CFG | PMC_CNT
  | PMC_DBG_STAT | PTR_SSRC | PTR_SDST | PTR_SCNT | PTR_SCFG | PTR_SXLV | VS | CC | CSTS | NSSR | AQA | ASQ
  | ACQ
  | INTMS | INTMC | CMBLOC | CMBSZ | BPINFO | BPRSEL | BPMBL | CMBMSC | CMBSTS | CMBEBS
  | CMBSWTP | CRTO | PMRCAP | PMRCTL | PMRSTS | PMREBS | PMRSWTP | PMRMSCL | PMRMSCU
deriving DecidableEq, Repr

end Sys2Proof.Machine
end

