-- ==== Sys2Proof/Machine/RegMap.lean ====
section
/-! DEFINITION. The register map: for every register its place, its width, its fields with their access codes
(R6) and its reset value, from the register tables of the chapters; and the fields by name. -/

namespace Sys2Proof.Machine

/-- The access codes of R6. -/
inductive Acc where
  | ro | rw | wo | w1c | w1s | rc | rwl
deriving DecidableEq, Repr

/-- A field of a register: the register, its most and its least significant bit. -/
structure Fld where
  reg : RegName
  hi : Nat
  lo : Nat
deriving DecidableEq, Repr

/-- A register table's line: the address of instance `i` is `base + s1 * (i / m) + s2 * (i % m)`; `bar0` says the
base is an offset in a function's BAR0 (the instance is then the function) and not an internal address. -/
structure RegInfo where
  base : Nat
  bar0 : Bool := false
  m : Nat := 1
  s1 : Nat := 0
  s2 : Nat := 0
  count : Nat := 1
  width : Nat := 32
  fields : List (Nat × Nat × Acc)
deriving DecidableEq, Repr

/-- The register tables (R6: reserved bits are in no field). INTMS and INTMC, which software with MSI-X does not use (NVMe 2.0c), ignore
writes and read 0 (PRESUMED, log entry 121); so do the registers of R36, whatever their access. -/
def regInfo : RegName → RegInfo
  | .CAP =>
    { base := 0x0, bar0 := true, count := 66, width := 64, fields :=
      [(55, 52, .ro), (51, 48, .ro), (45, 45, .ro), (44, 37, .ro), (36, 36, .ro), (35, 32, .ro), (31, 24, .ro), (18, 17, .ro), (16, 16, .ro), (15, 0, .ro)] }
  | .HIF_QDB =>
    { base := 0x3000, bar0 := true, count := 66, fields :=
      [(31, 31, .wo), (28, 16, .wo), (15, 0, .wo)] }
  | .HIF_XCFG =>
    { base := 0x3004, bar0 := true, count := 66, fields :=
      [(0, 0, .rw)] }
  | .HIF_TWNSTAT =>
    { base := 0x3008, bar0 := true, count := 66, fields :=
      [(31, 24, .ro), (15, 8, .ro), (2, 2, .ro), (1, 1, .ro), (0, 0, .ro)] }
  | .HIF_CTXFREE =>
    { base := 0x3010, bar0 := true, count := 66, fields :=
      [(20, 0, .ro)] }
  | .FAB_PSTAT =>
    { base := 0x100F00100, s1 := 0x10, count := 2, fields :=
      [(31, 16, .ro), (15, 8, .ro), (3, 3, .w1c), (2, 2, .w1c), (1, 1, .w1c), (0, 0, .ro)] }
  | .MAP_CTL =>
    { base := 0x100400000, fields :=
      [(2, 2, .rw), (1, 1, .w1s), (0, 0, .rw)] }
  | .MAP_CACHE_CFG =>
    { base := 0x100400008, fields :=
      [(24, 0, .rwl)] }
  | .MAP_PTAB_CFG =>
    { base := 0x10040000C, fields :=
      [(4, 0, .rwl)] }
  | .MAP_PTAB_STAT =>
    { base := 0x100400010, width := 64, fields :=
      [(32, 32, .ro), (31, 31, .ro), (30, 0, .ro)] }
  | .MAP_CAP_USABLE =>
    { base := 0x100400020, width := 64, fields :=
      [(42, 0, .ro)] }
  | .MAP_CAP_LIVE =>
    { base := 0x100400028, width := 64, fields :=
      [(42, 0, .ro)] }
  | .MAP_CAP_CHARGED =>
    { base := 0x100400030, width := 64, fields :=
      [(42, 0, .ro)] }
  | .MAP_MISS_CNT =>
    { base := 0x100400038, width := 64, fields :=
      [(63, 0, .ro)] }
  | .MAP_QBASE =>
    { base := 0x100401000, s1 := 0x20, count := 16, width := 64, fields :=
      [(39, 6, .rw)] }
  | .MAP_QCTL =>
    { base := 0x100401008, s1 := 0x20, count := 16, fields :=
      [(31, 31, .rw), (30, 30, .w1c), (23, 16, .rw), (3, 0, .rw)] }
  | .MAP_QTAIL =>
    { base := 0x100401010, s1 := 0x20, count := 16, fields :=
      [(15, 0, .rw)] }
  | .MAP_QHEAD =>
    { base := 0x100401014, s1 := 0x20, count := 16, fields :=
      [(15, 0, .ro)] }
  | .CMP_CTL =>
    { base := 0x100300000, fields :=
      [(0, 0, .rw)] }
  | .CMP_ENG_CTL =>
    { base := 0x100300100, s1 := 0x8, count := 26, fields :=
      [(0, 0, .rw)] }
  | .CMP_ENG_STAT =>
    { base := 0x100300104, s1 := 0x8, count := 26, fields :=
      [(31, 24, .ro), (2, 2, .w1c), (1, 1, .ro)] }
  | .CMP_RING_CFG =>
    { base := 0x100301000, s1 := 0x10, count := 8, width := 64, fields :=
      [(63, 63, .rw), (62, 62, .w1c), (55, 48, .rw), (47, 44, .rw), (39, 6, .rw)] }
  | .CMP_RING_PTR =>
    { base := 0x100301008, s1 := 0x10, count := 8, fields :=
      [(31, 16, .ro), (15, 0, .rw)] }
  | .PKP_CTL =>
    { base := 0x100500000, s1 := 0x10000, count := 32, fields :=
      [(10, 8, .rw), (2, 2, .w1s), (1, 1, .rw), (0, 0, .rw)] }
  | .PKP_STAT =>
    { base := 0x100500004, s1 := 0x10000, count := 32, fields :=
      [(31, 16, .ro), (11, 8, .ro), (4, 4, .w1c), (3, 3, .w1c), (2, 2, .w1c), (1, 1, .w1c), (0, 0, .ro)] }
  | .PKP_CSEQ =>
    { base := 0x100500008, s1 := 0x10000, count := 32, fields :=
      [(31, 0, .ro)] }
  | .PKP_BRH =>
    { base := 0x10050000C, s1 := 0x10000, count := 32, fields :=
      [(31, 0, .ro)] }
  | .PKP_LERR =>
    { base := 0x100500010, s1 := 0x10000, count := 32, width := 64, fields :=
      [(63, 48, .rc), (47, 24, .rc), (23, 0, .rc)] }
  | .PKP_CRED =>
    { base := 0x100500018, s1 := 0x10000, count := 32, fields :=
      [(15, 0, .ro)] }
  | .CVY_CTL =>
    { base := 0x101200000, fields :=
      [(1, 1, .w1s), (0, 0, .rw)] }
  | .CVY_ACC_CFG =>
    { base := 0x101200008, width := 64, fields :=
      [(39, 15, .rwl)] }
  | .CVY_STAT =>
    { base := 0x101200010, fields :=
      [(31, 16, .ro), (0, 0, .ro)] }
  | .CVY_RING_CFG =>
    { base := 0x101200100, s1 := 0x10, count := 4, width := 64, fields :=
      [(63, 63, .rw), (62, 62, .w1c), (55, 48, .rw), (47, 44, .rw), (39, 6, .rw)] }
  | .CVY_RING_PTR =>
    { base := 0x101200108, s1 := 0x10, count := 4, fields :=
      [(31, 16, .ro), (15, 0, .rw)] }
  | .MED_CTL =>
    { base := 0x101280000, fields :=
      [(1, 1, .w1s), (0, 0, .rw)] }
  | .MED_ITER_CFG =>
    { base := 0x101280004, fields :=
      [(20, 16, .rwl), (13, 8, .rwl), (4, 0, .rwl)] }
  | .MED_ESC_CNT =>
    { base := 0x101280100, s1 := 0x8, count := 10, width := 64, fields :=
      [(63, 0, .rc)] }
  | .HIF_BOOTSTAT =>
    { base := 0x300C, bar0 := true, count := 66, fields :=
      [(31, 16, .ro), (10, 8, .ro), (3, 0, .ro)] }
  | .TWN_CTL =>
    { base := 0x100700000, fields :=
      [(23, 16, .rw), (14, 8, .rw), (2, 1, .rw), (0, 0, .rw)] }
  | .TWN_STAT =>
    { base := 0x100700008, width := 64, fields :=
      [(47, 40, .ro), (7, 7, .w1c), (6, 6, .w1c), (5, 5, .w1c), (4, 4, .ro), (2, 2, .ro), (1, 1, .ro), (0, 0, .ro)] }
  | .TWN_STAGE =>
    { base := 0x100700010, width := 64, fields :=
      [(63, 0, .ro)] }
  | .TWN_STIME =>
    { base := 0x100700018, count := 24, width := 64, fields :=
      [(63, 0, .ro)] }
  | .TWN_CSTAGE =>
    { base := 0x100700020, count := 24, width := 64, fields :=
      [(63, 0, .ro)] }
  | .TWN_DIGEST_IN =>
    { base := 0x100700028, width := 64, fields :=
      [(63, 0, .wo)] }
  | .TWN_DIG_STG =>
    { base := 0x100700030, width := 64, fields :=
      [(63, 0, .ro)] }
  | .TWN_DIG =>
    { base := 0x100700038, s1 := 0x8, count := 2, width := 64, fields :=
      [(63, 0, .ro)] }
  | .TWN_ROUTE =>
    { base := 0x100700060, width := 64, fields :=
      [(49, 0, .rw)] }
  | .TWN_RETCFG =>
    { base := 0x100700070, width := 64, fields :=
      [(47, 44, .rw), (39, 21, .rw)] }
  | .TWN_LINK =>
    { base := 0x100700080, width := 64, fields :=
      [(63, 48, .rc), (47, 32, .rc), (31, 16, .ro), (3, 0, .ro)] }
  | .TWN_IRCFG =>
    { base := 0x100700100, s1 := 0x10, count := 23, width := 64, fields :=
      [(63, 63, .rw), (47, 44, .rw), (39, 6, .rw)] }
  | .TWN_IRHEAD =>
    { base := 0x100700108, s1 := 0x10, count := 23, fields :=
      [(15, 0, .rw)] }
  | .TWN_TVR =>
    { base := 0x100700400, s1 := 0x8, count := 16, width := 64, fields :=
      [(63, 63, .rw), (50, 32, .rw), (18, 0, .rw)] }
  | .TWN_CLAIM =>
    { base := 0x100701000, s1 := 0x8, count := 512, width := 64, fields :=
      [(63, 63, .ro), (31, 0, .ro)] }
  | .TWN_SPROD =>
    { base := 0x100702000, s1 := 0x4, count := 256, fields :=
      [(31, 0, .rw)] }
  | .CPH_CTL =>
    { base := 0x100200000, fields :=
      [(0, 0, .rw)] }
  | .CPH_STAT =>
    { base := 0x100200004, fields :=
      [(31, 16, .rc), (4, 0, .ro)] }
  | .CPH_CORE_CTL =>
    { base := 0x100200100, s1 := 0x8, count := 18, fields :=
      [(0, 0, .rw)] }
  | .CPH_CORE_STAT =>
    { base := 0x100200104, s1 := 0x8, count := 18, fields :=
      [(31, 24, .ro), (3, 3, .ro), (2, 2, .w1c), (1, 1, .ro)] }
  | .CPH_RING_CFG =>
    { base := 0x100201000, s1 := 0x10, count := 32, width := 64, fields :=
      [(63, 63, .rw), (62, 62, .w1c), (55, 48, .rw), (47, 44, .rw), (39, 6, .rw)] }
  | .CPH_RING_PTR =>
    { base := 0x100201008, s1 := 0x10, count := 32, fields :=
      [(31, 16, .ro), (15, 0, .rw)] }
  | .SEC_MODE =>
    { base := 0x101300000, fields :=
      [(15, 8, .ro), (1, 0, .ro)] }
  | .SEC_KSTAT =>
    { base := 0x101300008, fields :=
      [(31, 31, .ro), (30, 30, .ro), (29, 29, .ro), (16, 0, .ro)] }
  | .MBX_CSR =>
    { base := 0x101000000, s1 := 0x10000, count := 8, fields :=
      [(23, 16, .ro), (8, 8, .w1s), (4, 4, .ro), (3, 3, .w1c), (2, 2, .w1c), (1, 1, .ro), (0, 0, .w1s)] }
  | .MBX_INT =>
    { base := 0x101000008, s1 := 0x10000, count := 8, fields :=
      [(31, 31, .rw), (10, 0, .rw)] }
  | .MBX_RBV =>
    { base := 0x101080000, fields :=
      [(31, 24, .rw), (3, 0, .rw)] }
  | .MBX_RBS_ITEM =>
    { base := 0x101080008, width := 64, fields :=
      [(63, 32, .rw), (31, 0, .rw)] }
  | .MBX_RBS_OFF =>
    { base := 0x101080010, width := 64, fields :=
      [(63, 12, .rw)] }
  | .CIC_CTL =>
    { base := 0x100000000, fields :=
      [(1, 1, .w1s), (0, 0, .rw)] }
  | .CIC_STRAY_EOI =>
    { base := 0x100000008, width := 64, fields :=
      [(56, 48, .ro), (44, 40, .ro), (31, 0, .rc)] }
  | .CIC_DB_RING =>
    { base := 0x100000018, fields :=
      [(4, 0, .wo)] }
  | .CIC_SRC_CFG =>
    { base := 0x100010000, s1 := 0x8, count := 512, fields :=
      [(31, 31, .ro), (25, 4, .rwl), (3, 0, .rwl)] }
  | .CIC_SRC_STAT =>
    { base := 0x100010004, s1 := 0x8, count := 512, fields :=
      [(21, 21, .ro), (20, 16, .ro), (12, 12, .ro), (11, 11, .w1c), (10, 10, .ro), (9, 9, .ro), (8, 8, .ro), (7, 0, .ro)] }
  | .CIC_TGT_CTL =>
    { base := 0x100020000, s1 := 0x100, count := 22, fields :=
      [(0, 0, .rw)] }
  | .CIC_CLAIM =>
    { base := 0x100020008, s1 := 0x100, count := 22, fields :=
      [(31, 31, .ro), (23, 16, .ro), (8, 0, .ro)] }
  | .CIC_EOI =>
    { base := 0x100020010, s1 := 0x100, count := 22, fields :=
      [(8, 0, .wo)] }
  | .CIC_RPRIO =>
    { base := 0x100020018, s1 := 0x100, count := 22, fields :=
      [(19, 16, .ro), (3, 0, .ro)] }
  | .CIC_STK =>
    { base := 0x100030000, s1 := 0x4, count := 352, fields :=
      [(31, 31, .ro), (24, 16, .ro), (3, 0, .ro)] }
  | .CIC_CORE_CTL =>
    { base := 0x100050000, s1 := 0x20, count := 24, fields :=
      [(20, 16, .rw), (0, 0, .rw)] }
  | .CIC_CORE_STAT =>
    { base := 0x100050008, s1 := 0x20, count := 24, fields :=
      [(31, 24, .ro), (2, 2, .w1c), (1, 1, .ro), (0, 0, .ro)] }
  | .CIC_WDT =>
    { base := 0x100050010, s1 := 0x20, count := 24, fields :=
      [(31, 31, .rw), (30, 30, .w1s), (19, 0, .rw)] }
  | .PTR_SRC =>
    { base := 0x100100000, s1 := 0x100, count := 64, width := 64, fields :=
      [(63, 0, .rw)] }
  | .PTR_DST =>
    { base := 0x100100008, s1 := 0x100, count := 64, width := 64, fields :=
      [(63, 0, .rw)] }
  | .PTR_CNT =>
    { base := 0x100100010, s1 := 0x100, count := 64, fields :=
      [(31, 0, .rw)] }
  | .PTR_CFG =>
    { base := 0x100100018, s1 := 0x100, count := 64, width := 64, fields :=
      [(63, 56, .rw), (55, 48, .rw), (47, 41, .rw), (40, 40, .rw), (39, 39, .rw), (38, 38, .rw), (35, 35, .rw), (34, 33, .rw), (32, 32, .rw), (31, 30, .rw), (29, 28, .rw), (27, 27, .rw)] }
  | .PTR_XLV =>
    { base := 0x100100020, s1 := 0x100, count := 64, width := 64, fields :=
      [(63, 32, .rw), (23, 20, .rw), (15, 0, .rw)] }
  | .PTR_CTL =>
    { base := 0x100100080, s1 := 0x100, count := 64, fields :=
      [(31, 24, .rw), (19, 16, .ro), (3, 3, .w1s), (2, 2, .rw), (1, 1, .w1s), (0, 0, .rw)] }
  | .PTR_STAT =>
    { base := 0x100100084, s1 := 0x100, count := 64, fields :=
      [(31, 24, .ro), (23, 16, .ro), (8, 8, .ro), (7, 7, .w1c), (6, 6, .w1c), (5, 5, .w1c), (4, 4, .ro), (2, 2, .ro), (0, 0, .ro)] }
  | .PTR_CRC =>
    { base := 0x100100088, s1 := 0x100, count := 64, fields :=
      [(31, 0, .rw)] }
  | .PTR_POS =>
    { base := 0x10010008C, s1 := 0x100, count := 64, fields :=
      [(31, 0, .ro)] }
  | .PTR_DONE =>
    { base := 0x100100090, s1 := 0x100, count := 64, fields :=
      [(31, 0, .ro)] }
  | .HBC_CTL =>
    { base := 0x100D00000, fields :=
      [(15, 8, .rw), (2, 2, .w1s), (1, 1, .w1s)] }
  | .HBC_INIT =>
    { base := 0x100D00008, fields :=
      [(31, 31, .ro), (22, 16, .ro), (0, 0, .w1s)] }
  | .HBC_STAT =>
    { base := 0x100D00010, width := 64, fields :=
      [(63, 32, .rc), (31, 24, .ro), (23, 16, .rc), (9, 8, .ro), (5, 4, .ro), (0, 0, .ro)] }
  | .HBC_UELOG =>
    { base := 0x100D00018, width := 64, fields :=
      [(63, 63, .w1c), (62, 62, .w1c), (58, 58, .ro), (57, 53, .ro), (52, 47, .ro), (46, 32, .ro), (31, 28, .ro), (27, 0, .ro)] }
  | .HBC_TEST_CTL =>
    { base := 0x100D00040, fields :=
      [(31, 31, .rw), (30, 30, .ro), (26, 24, .rw), (23, 16, .rw), (5, 1, .rw), (0, 0, .w1s)] }
  | .HBC_TEST_ADDR =>
    { base := 0x100D00048, width := 64, fields :=
      [(39, 3, .rw)] }
  | .HBC_TEST_DATA =>
    { base := 0x100D00050, width := 64, fields :=
      [(63, 0, .rw)] }
  | .HBC_REPAIR =>
    { base := 0x100D00100, s1 := 0x8, count := 256, fields :=
      [(31, 31, .rwl), (30, 30, .ro), (29, 29, .ro), (26, 26, .rwl), (25, 21, .rwl), (20, 15, .rwl), (14, 0, .rwl)] }
  | .SNF_CTL =>
    { base := 0x100800000, fields :=
      [(23, 16, .rw), (0, 0, .rw)] }
  | .SNF_QPTR =>
    { base := 0x100800008, fields :=
      [(31, 16, .ro), (15, 0, .rw)] }
  | .SNF_STAT =>
    { base := 0x100800010, fields :=
      [(31, 24, .ro), (23, 16, .rc), (3, 3, .w1c), (2, 2, .ro), (0, 0, .ro)] }
  | .SNF_INTR =>
    { base := 0x100800018, width := 64, fields :=
      [(63, 63, .w1c), (62, 62, .ro), (57, 56, .ro), (55, 48, .ro), (47, 32, .ro), (25, 0, .ro)] }
  | .SNF_RGN =>
    { base := 0x100800100, s1 := 0x8, count := 16, width := 64, fields :=
      [(63, 63, .ro), (62, 62, .ro), (61, 61, .ro), (52, 48, .ro), (44, 40, .ro), (26, 16, .ro), (9, 0, .ro)] }
  | .SNF_PWD =>
    { base := 0x100800200, width := 64, fields :=
      [(63, 0, .wo)] }
  | .SNF_PCMD =>
    { base := 0x100800208, fields :=
      [(31, 30, .wo), (3, 0, .wo)] }
  | .SNF_SCCTL =>
    { base := 0x100800300, fields :=
      [(15, 0, .w1s)] }
  | .CPM_PSTATE =>
    { base := 0x100A00000, fields :=
      [(15, 8, .ro), (1, 0, .ro)] }
  | .CPM_WAKE =>
    { base := 0x100A00008, fields :=
      [(23, 16, .rw), (7, 0, .w1c)] }
  | .CPM_DOM_OFF =>
    { base := 0x100A00100, s1 := 0x8, count := 4, fields :=
      [(31, 0, .rw)] }
  | .CPM_DOM_STAT =>
    { base := 0x100A00104, s1 := 0x8, count := 4, fields :=
      [(31, 0, .ro)] }
  | .CPM_RESID =>
    { base := 0x100A00200, s1 := 0x8, count := 3, width := 64, fields :=
      [(63, 0, .ro)] }
  | .HKP_TS =>
    { base := 0x100900100, s1 := 0x4, count := 16, fields :=
      [(17, 16, .ro), (15, 0, .ro)] }
  | .HKP_SUP =>
    { base := 0x100900140, s1 := 0x4, count := 8, fields :=
      [(31, 31, .w1c), (15, 0, .ro)] }
  | .HKP_I2C =>
    { base := 0x100900200, s1 := 0x4, count := 8, fields :=
      [(31, 24, .rc), (23, 16, .rc), (4, 4, .ro), (3, 0, .ro)] }
  | .HKP_TASK =>
    { base := 0x100900300, s1 := 0x8, count := 5, width := 64, fields :=
      [(63, 32, .rc), (31, 0, .ro)] }
  | .HKP_TRIP =>
    { base := 0x100900400, fields :=
      [(31, 31, .ro), (3, 0, .ro)] }
  | .TLY_CTL =>
    { base := 0x100B00000, fields :=
      [(9, 9, .w1s), (8, 8, .rw), (0, 0, .rw)] }
  | .TLY_STAT =>
    { base := 0x100B00008, width := 64, fields :=
      [(43, 32, .ro), (31, 16, .rc), (2, 2, .ro), (1, 1, .ro), (0, 0, .ro)] }
  | .TLY_CUR =>
    { base := 0x100B00010, fields :=
      [(31, 31, .rw), (14, 4, .rw), (3, 0, .rw)] }
  | .TLY_WIN =>
    { base := 0x100B00100, s1 := 0x4, count := 64, fields :=
      [(31, 0, .ro)] }
  | .TLY_PE =>
    { base := 0x100B00200, s1 := 0x4, count := 11, fields :=
      [(31, 0, .rw)] }
  | .PMC_GCTL =>
    { base := 0x100CF0000, fields :=
      [(1, 1, .rw), (0, 0, .rw)] }
  | .PMC_CYC =>
    { base := 0x100C00000, s1 := 0x400, count := 53, width := 64, fields :=
      [(63, 0, .rw)] }
  | .PMC_CTL =>
    { base := 0x100C00008, s1 := 0x400, count := 53, fields :=
      [(16, 16, .rw), (15, 8, .w1c), (7, 0, .rw)] }
  | .PMC_CFG =>
    { base := 0x100C00040, m := 8, s1 := 0x400, s2 := 0x8, count := 424, width := 64, fields :=
      [(63, 32, .rw), (18, 18, .rw), (17, 16, .rw), (15, 0, .rw)] }
  | .PMC_CNT =>
    { base := 0x100C00100, m := 8, s1 := 0x400, s2 := 0x4, count := 424, fields :=
      [(31, 0, .rw)] }
  | .PMC_DBG_STAT =>
    { base := 0x100CF0008, fields :=
      [(31, 31, .ro), (30, 30, .ro), (29, 29, .ro), (18, 16, .ro), (7, 0, .ro)] }
  | .PTR_SSRC =>
    { base := 0x100100040, s1 := 0x100, count := 64, width := 64, fields :=
      [(63, 0, .rw)] }
  | .PTR_SDST =>
    { base := 0x100100048, s1 := 0x100, count := 64, width := 64, fields :=
      [(63, 0, .rw)] }
  | .PTR_SCNT =>
    { base := 0x100100050, s1 := 0x100, count := 64, fields :=
      [(31, 0, .rw)] }
  | .PTR_SCFG =>
    { base := 0x100100058, s1 := 0x100, count := 64, width := 64, fields :=
      [(63, 56, .rw), (55, 48, .rw), (47, 41, .rw), (40, 40, .rw), (39, 39, .rw), (38, 38, .rw), (35, 35, .rw), (34, 33, .rw), (32, 32, .rw), (31, 30, .rw), (29, 28, .rw), (27, 27, .rw)] }
  | .PTR_SXLV =>
    { base := 0x100100060, s1 := 0x100, count := 64, width := 64, fields :=
      [(63, 32, .rw), (23, 20, .rw), (15, 0, .rw)] }
  | .VS =>
    { base := 0x8, bar0 := true, count := 66, fields :=
      [(31, 0, .ro)] }
  | .CC =>
    { base := 0x14, bar0 := true, count := 66, fields :=
      [(23, 20, .rw), (19, 16, .rw), (15, 14, .rw), (13, 11, .rw), (10, 7, .rw), (6, 4, .rw), (0, 0, .rw)] }
  | .CSTS =>
    { base := 0x1C, bar0 := true, count := 66, fields :=
      [(5, 5, .ro), (4, 4, .w1c), (3, 2, .ro), (1, 1, .ro), (0, 0, .ro)] }
  | .NSSR =>
    { base := 0x20, bar0 := true, count := 66, fields :=
      [(31, 0, .wo)] }
  | .AQA =>
    { base := 0x24, bar0 := true, count := 66, fields :=
      [(27, 16, .rw), (11, 0, .rw)] }
  | .ASQ =>
    { base := 0x28, bar0 := true, count := 66, width := 64, fields :=
      [(63, 12, .rw)] }
  | .ACQ =>
    { base := 0x30, bar0 := true, count := 66, width := 64, fields :=
      [(63, 12, .rw)] }
  | .INTMS =>
    { base := 0xC, bar0 := true, count := 66, fields :=
      [(31, 0, .ro)] }
  | .INTMC =>
    { base := 0x10, bar0 := true, count := 66, fields :=
      [(31, 0, .ro)] }
  | .CMBLOC =>
    { base := 0x38, bar0 := true, count := 66, fields :=
      [(31, 0, .ro)] }
  | .CMBSZ =>
    { base := 0x3C, bar0 := true, count := 66, fields :=
      [(31, 0, .ro)] }
  | .BPINFO =>
    { base := 0x40, bar0 := true, count := 66, fields :=
      [(31, 0, .ro)] }
  | .BPRSEL =>
    { base := 0x44, bar0 := true, count := 66, fields :=
      [(31, 0, .ro)] }
  | .BPMBL =>
    { base := 0x48, bar0 := true, count := 66, width := 64, fields :=
      [(63, 0, .ro)] }
  | .CMBMSC =>
    { base := 0x50, bar0 := true, count := 66, width := 64, fields :=
      [(63, 0, .ro)] }
  | .CMBSTS =>
    { base := 0x58, bar0 := true, count := 66, fields :=
      [(31, 0, .ro)] }
  | .CMBEBS =>
    { base := 0x5C, bar0 := true, count := 66, fields :=
      [(31, 0, .ro)] }
  | .CMBSWTP =>
    { base := 0x60, bar0 := true, count := 66, fields :=
      [(31, 0, .ro)] }
  | .CRTO =>
    { base := 0x68, bar0 := true, count := 66, fields :=
      [(31, 0, .ro)] }
  | .PMRCAP =>
    { base := 0xE00, bar0 := true, count := 66, fields :=
      [(31, 0, .ro)] }
  | .PMRCTL =>
    { base := 0xE04, bar0 := true, count := 66, fields :=
      [(31, 0, .ro)] }
  | .PMRSTS =>
    { base := 0xE08, bar0 := true, count := 66, fields :=
      [(31, 0, .ro)] }
  | .PMREBS =>
    { base := 0xE0C, bar0 := true, count := 66, fields :=
      [(31, 0, .ro)] }
  | .PMRSWTP =>
    { base := 0xE10, bar0 := true, count := 66, fields :=
      [(31, 0, .ro)] }
  | .PMRMSCL =>
    { base := 0xE14, bar0 := true, count := 66, fields :=
      [(31, 0, .ro)] }
  | .PMRMSCU =>
    { base := 0xE18, bar0 := true, count := 66, fields :=
      [(31, 0, .ro)] }

/-- R552: the first sector and the number of sectors of region `r`, in 64 KiB sectors, as (FIRST, NSECT). -/
def snfRegionSpan (r : Nat) : Nat × Nat :=
  match r with
  | 0 => (0, 256)
  | 1 => (256, 256)
  | 2 => (512, 128)
  | 3 => (640, 128)
  | 4 => (768, 32)
  | 5 => (800, 16)
  | 6 => (816, 2)
  | 7 => (818, 1)
  | 8 => (819, 4)
  | 9 => (823, 8)
  | 10 => (831, 193)
  | _ => (0, 0)

/-- SNF_RGN[r] at reset: FIRST and NSECT from R552; the stored items are those of a part that has been given no
wrong password: no lockout, no failed attempts (DESIGN CHOICE); the regions R552 calls protected read PROT 1. -/
def snfRgnReset (r : Nat) : BitVec 64 :=
  BitVec.ofNat 64 ((snfRegionSpan r).1 + (snfRegionSpan r).2 * 65536 +
    (if r = 0 ∨ r = 1 ∨ r = 3 ∨ r = 4 ∨ r = 5 then 2 ^ 63 else 0))

/-- The value a register holds at reset: the "reset" of its table line. -/
def regReset (r : RegName) (i : Nat) : BitVec 64 :=
  match r with
  | .CAP => 0x4000301803FFFF
  | .HIF_CTXFREE => 0x40000
  | .MAP_CACHE_CFG => 0x1000000
  | .MAP_PTAB_CFG => 0x1E
  | .CMP_ENG_CTL => if i < 24 then 1 else 0
  | .CMP_ENG_STAT => 0x2
  | .CVY_STAT => 0x1
  | .MED_ITER_CFG => 0xC2814
  | .TWN_CTL => 0x00201000
  | .TWN_DIG_STG => 0xFFFFFFFFFFFFFFFF
  | .TWN_RETCFG => 0x800000000000
  | .CPH_STAT => 0x10
  | .CPH_CORE_CTL => if i < 16 then 1 else 0
  | .CPH_CORE_STAT => 0x2
  | .CIC_SRC_CFG => if i = 183 ∨ i = 200 ∨ i = 253 ∨ i = 254 ∨ i = 260 then 0x80000000 else 0
  | .CIC_CORE_CTL => if i = 22 then 0x160001 else if i = 23 then 0x170001
    else if i = 16 ∨ i = 17 then 0x1F0000 else BitVec.ofNat 64 (i * 0x10000)
  | .PTR_STAT => 0x1
  | .PTR_CRC => 0xFFFFFFFF
  | .HBC_CTL => 0x1800
  | .SNF_STAT => 0xC1000001
  | .SNF_RGN => snfRgnReset i
  | .CPM_WAKE => 0xFF0000
  | .CPM_DOM_STAT => if i = 0 then 1 else 0
  | .PMC_DBG_STAT => 0
  | .VS => 0x20000
  | _ => 0

/-! The fields by name. -/

abbrev F.CAP.MPSMAX : Fld := ⟨.CAP, 55, 52⟩
abbrev F.CAP.MPSMIN : Fld := ⟨.CAP, 51, 48⟩
abbrev F.CAP.BPS : Fld := ⟨.CAP, 45, 45⟩
abbrev F.CAP.CSS : Fld := ⟨.CAP, 44, 37⟩
abbrev F.CAP.NSSRS : Fld := ⟨.CAP, 36, 36⟩
abbrev F.CAP.DSTRD : Fld := ⟨.CAP, 35, 32⟩
abbrev F.CAP.TO : Fld := ⟨.CAP, 31, 24⟩
abbrev F.CAP.AMS : Fld := ⟨.CAP, 18, 17⟩
abbrev F.CAP.CQR : Fld := ⟨.CAP, 16, 16⟩
abbrev F.CAP.MQES : Fld := ⟨.CAP, 15, 0⟩
abbrev F.HIF_QDB.CQ : Fld := ⟨.HIF_QDB, 31, 31⟩
abbrev F.HIF_QDB.QID : Fld := ⟨.HIF_QDB, 28, 16⟩
abbrev F.HIF_QDB.VALUE : Fld := ⟨.HIF_QDB, 15, 0⟩
abbrev F.HIF_XCFG.XDB_EN : Fld := ⟨.HIF_XCFG, 0, 0⟩
abbrev F.HIF_TWNSTAT.FENCE_CNT : Fld := ⟨.HIF_TWNSTAT, 31, 24⟩
abbrev F.HIF_TWNSTAT.STATE : Fld := ⟨.HIF_TWNSTAT, 15, 8⟩
abbrev F.HIF_TWNSTAT.ARB_LOST : Fld := ⟨.HIF_TWNSTAT, 2, 2⟩
abbrev F.HIF_TWNSTAT.ROLE : Fld := ⟨.HIF_TWNSTAT, 1, 1⟩
abbrev F.HIF_TWNSTAT.TWIN_ID : Fld := ⟨.HIF_TWNSTAT, 0, 0⟩
abbrev F.HIF_CTXFREE.AVAIL : Fld := ⟨.HIF_CTXFREE, 20, 0⟩
abbrev F.FAB_PSTAT.QP_ERR : Fld := ⟨.FAB_PSTAT, 31, 16⟩
abbrev F.FAB_PSTAT.PFC_PRIO : Fld := ⟨.FAB_PSTAT, 15, 8⟩
abbrev F.FAB_PSTAT.CNP_RX : Fld := ⟨.FAB_PSTAT, 3, 3⟩
abbrev F.FAB_PSTAT.FEC_DEG : Fld := ⟨.FAB_PSTAT, 2, 2⟩
abbrev F.FAB_PSTAT.LINK_CHG : Fld := ⟨.FAB_PSTAT, 1, 1⟩
abbrev F.FAB_PSTAT.LINK_UP : Fld := ⟨.FAB_PSTAT, 0, 0⟩
abbrev F.MAP_CTL.MERGE_ALL : Fld := ⟨.MAP_CTL, 2, 2⟩
abbrev F.MAP_CTL.LOCK : Fld := ⟨.MAP_CTL, 1, 1⟩
abbrev F.MAP_CTL.EN : Fld := ⟨.MAP_CTL, 0, 0⟩
abbrev F.MAP_CACHE_CFG.PAGES : Fld := ⟨.MAP_CACHE_CFG, 24, 0⟩
abbrev F.MAP_PTAB_CFG.LOG2N : Fld := ⟨.MAP_PTAB_CFG, 4, 0⟩
abbrev F.MAP_PTAB_STAT.MERGE : Fld := ⟨.MAP_PTAB_STAT, 32, 32⟩
abbrev F.MAP_PTAB_STAT.PRIO : Fld := ⟨.MAP_PTAB_STAT, 31, 31⟩
abbrev F.MAP_PTAB_STAT.OCC : Fld := ⟨.MAP_PTAB_STAT, 30, 0⟩
abbrev F.MAP_CAP_USABLE.U : Fld := ⟨.MAP_CAP_USABLE, 42, 0⟩
abbrev F.MAP_CAP_LIVE.L : Fld := ⟨.MAP_CAP_LIVE, 42, 0⟩
abbrev F.MAP_CAP_CHARGED.C : Fld := ⟨.MAP_CAP_CHARGED, 42, 0⟩
abbrev F.MAP_MISS_CNT.MISSES : Fld := ⟨.MAP_MISS_CNT, 63, 0⟩
abbrev F.MAP_QBASE.BASE : Fld := ⟨.MAP_QBASE, 39, 6⟩
abbrev F.MAP_QCTL.EN : Fld := ⟨.MAP_QCTL, 31, 31⟩
abbrev F.MAP_QCTL.ERR : Fld := ⟨.MAP_QCTL, 30, 30⟩
abbrev F.MAP_QCTL.EVT : Fld := ⟨.MAP_QCTL, 23, 16⟩
abbrev F.MAP_QCTL.SIZE : Fld := ⟨.MAP_QCTL, 3, 0⟩
abbrev F.MAP_QTAIL.TAIL : Fld := ⟨.MAP_QTAIL, 15, 0⟩
abbrev F.MAP_QHEAD.HEAD : Fld := ⟨.MAP_QHEAD, 15, 0⟩
abbrev F.CMP_CTL.EN : Fld := ⟨.CMP_CTL, 0, 0⟩
abbrev F.CMP_ENG_CTL.EN : Fld := ⟨.CMP_ENG_CTL, 0, 0⟩
abbrev F.CMP_ENG_STAT.CHKFAIL : Fld := ⟨.CMP_ENG_STAT, 31, 24⟩
abbrev F.CMP_ENG_STAT.FAULT : Fld := ⟨.CMP_ENG_STAT, 2, 2⟩
abbrev F.CMP_ENG_STAT.IDLE : Fld := ⟨.CMP_ENG_STAT, 1, 1⟩
abbrev F.CMP_RING_CFG.EN : Fld := ⟨.CMP_RING_CFG, 63, 63⟩
abbrev F.CMP_RING_CFG.ERR : Fld := ⟨.CMP_RING_CFG, 62, 62⟩
abbrev F.CMP_RING_CFG.EVT : Fld := ⟨.CMP_RING_CFG, 55, 48⟩
abbrev F.CMP_RING_CFG.SIZE : Fld := ⟨.CMP_RING_CFG, 47, 44⟩
abbrev F.CMP_RING_CFG.BASE : Fld := ⟨.CMP_RING_CFG, 39, 6⟩
abbrev F.CMP_RING_PTR.HEAD : Fld := ⟨.CMP_RING_PTR, 31, 16⟩
abbrev F.CMP_RING_PTR.TAIL : Fld := ⟨.CMP_RING_PTR, 15, 0⟩
abbrev F.PKP_CTL.SGRP : Fld := ⟨.PKP_CTL, 10, 8⟩
abbrev F.PKP_CTL.RETRAIN : Fld := ⟨.PKP_CTL, 2, 2⟩
abbrev F.PKP_CTL.HOLD : Fld := ⟨.PKP_CTL, 1, 1⟩
abbrev F.PKP_CTL.EN : Fld := ⟨.PKP_CTL, 0, 0⟩
abbrev F.PKP_STAT.OUTST : Fld := ⟨.PKP_STAT, 31, 16⟩
abbrev F.PKP_STAT.STATE : Fld := ⟨.PKP_STAT, 11, 8⟩
abbrev F.PKP_STAT.SEQFAULT : Fld := ⟨.PKP_STAT, 4, 4⟩
abbrev F.PKP_STAT.TIMEOUT : Fld := ⟨.PKP_STAT, 3, 3⟩
abbrev F.PKP_STAT.PRES_CHG : Fld := ⟨.PKP_STAT, 2, 2⟩
abbrev F.PKP_STAT.LINK_CHG : Fld := ⟨.PKP_STAT, 1, 1⟩
abbrev F.PKP_STAT.LINK_UP : Fld := ⟨.PKP_STAT, 0, 0⟩
abbrev F.PKP_CSEQ.NEXT : Fld := ⟨.PKP_CSEQ, 31, 0⟩
abbrev F.PKP_BRH.H : Fld := ⟨.PKP_BRH, 31, 0⟩
abbrev F.PKP_LERR.RETRAINS : Fld := ⟨.PKP_LERR, 63, 48⟩
abbrev F.PKP_LERR.REPLAYS : Fld := ⟨.PKP_LERR, 47, 24⟩
abbrev F.PKP_LERR.DISCARDS : Fld := ⟨.PKP_LERR, 23, 0⟩
abbrev F.PKP_CRED.TXCRED : Fld := ⟨.PKP_CRED, 15, 0⟩
abbrev F.CVY_CTL.LOCK : Fld := ⟨.CVY_CTL, 1, 1⟩
abbrev F.CVY_CTL.EN : Fld := ⟨.CVY_CTL, 0, 0⟩
abbrev F.CVY_ACC_CFG.BASE : Fld := ⟨.CVY_ACC_CFG, 39, 15⟩
abbrev F.CVY_STAT.JOBS : Fld := ⟨.CVY_STAT, 31, 16⟩
abbrev F.CVY_STAT.IDLE : Fld := ⟨.CVY_STAT, 0, 0⟩
abbrev F.CVY_RING_CFG.EN : Fld := ⟨.CVY_RING_CFG, 63, 63⟩
abbrev F.CVY_RING_CFG.ERR : Fld := ⟨.CVY_RING_CFG, 62, 62⟩
abbrev F.CVY_RING_CFG.EVT : Fld := ⟨.CVY_RING_CFG, 55, 48⟩
abbrev F.CVY_RING_CFG.SIZE : Fld := ⟨.CVY_RING_CFG, 47, 44⟩
abbrev F.CVY_RING_CFG.BASE : Fld := ⟨.CVY_RING_CFG, 39, 6⟩
abbrev F.CVY_RING_PTR.HEAD : Fld := ⟨.CVY_RING_PTR, 31, 16⟩
abbrev F.CVY_RING_PTR.TAIL : Fld := ⟨.CVY_RING_PTR, 15, 0⟩
abbrev F.MED_CTL.LOCK : Fld := ⟨.MED_CTL, 1, 1⟩
abbrev F.MED_CTL.EN : Fld := ⟨.MED_CTL, 0, 0⟩
abbrev F.MED_ITER_CFG.REFRESH_ITER : Fld := ⟨.MED_ITER_CFG, 20, 16⟩
abbrev F.MED_ITER_CFG.SOFT_MAX : Fld := ⟨.MED_ITER_CFG, 13, 8⟩
abbrev F.MED_ITER_CFG.HARD_MAX : Fld := ⟨.MED_ITER_CFG, 4, 0⟩
abbrev F.MED_ESC_CNT.COUNT : Fld := ⟨.MED_ESC_CNT, 63, 0⟩
abbrev F.HIF_BOOTSTAT.ELAPSED : Fld := ⟨.HIF_BOOTSTAT, 31, 16⟩
abbrev F.HIF_BOOTSTAT.CAUSE : Fld := ⟨.HIF_BOOTSTAT, 10, 8⟩
abbrev F.HIF_BOOTSTAT.STATE : Fld := ⟨.HIF_BOOTSTAT, 3, 0⟩
abbrev F.TWN_CTL.LAG_LIM : Fld := ⟨.TWN_CTL, 23, 16⟩
abbrev F.TWN_CTL.STAGE_US : Fld := ⟨.TWN_CTL, 14, 8⟩
abbrev F.TWN_CTL.MODE : Fld := ⟨.TWN_CTL, 2, 1⟩
abbrev F.TWN_CTL.EN : Fld := ⟨.TWN_CTL, 0, 0⟩
abbrev F.TWN_STAT.BACKLOG : Fld := ⟨.TWN_STAT, 47, 40⟩
abbrev F.TWN_STAT.CLTO : Fld := ⟨.TWN_STAT, 7, 7⟩
abbrev F.TWN_STAT.DMIS : Fld := ⟨.TWN_STAT, 6, 6⟩
abbrev F.TWN_STAT.LAGX : Fld := ⟨.TWN_STAT, 5, 5⟩
abbrev F.TWN_STAT.HELD : Fld := ⟨.TWN_STAT, 4, 4⟩
abbrev F.TWN_STAT.LINK_UP : Fld := ⟨.TWN_STAT, 2, 2⟩
abbrev F.TWN_STAT.ROLE : Fld := ⟨.TWN_STAT, 1, 1⟩
abbrev F.TWN_STAT.PAIRED : Fld := ⟨.TWN_STAT, 0, 0⟩
abbrev F.TWN_STAGE.STAGE : Fld := ⟨.TWN_STAGE, 63, 0⟩
abbrev F.TWN_STIME.DTIME : Fld := ⟨.TWN_STIME, 63, 0⟩
abbrev F.TWN_CSTAGE.STAGE : Fld := ⟨.TWN_CSTAGE, 63, 0⟩
abbrev F.TWN_DIGEST_IN.VALUE : Fld := ⟨.TWN_DIGEST_IN, 63, 0⟩
abbrev F.TWN_DIG_STG.STAGE : Fld := ⟨.TWN_DIG_STG, 63, 0⟩
abbrev F.TWN_DIG.DIGEST : Fld := ⟨.TWN_DIG, 63, 0⟩
abbrev F.TWN_ROUTE.RING : Fld := ⟨.TWN_ROUTE, 49, 0⟩
abbrev F.TWN_RETCFG.SIZE : Fld := ⟨.TWN_RETCFG, 47, 44⟩
abbrev F.TWN_RETCFG.BASE : Fld := ⟨.TWN_RETCFG, 39, 21⟩
abbrev F.TWN_LINK.RETRAINS : Fld := ⟨.TWN_LINK, 63, 48⟩
abbrev F.TWN_LINK.AUTHFAIL : Fld := ⟨.TWN_LINK, 47, 32⟩
abbrev F.TWN_LINK.KGEN : Fld := ⟨.TWN_LINK, 31, 16⟩
abbrev F.TWN_LINK.LANES : Fld := ⟨.TWN_LINK, 3, 0⟩
abbrev F.TWN_IRCFG.EN : Fld := ⟨.TWN_IRCFG, 63, 63⟩
abbrev F.TWN_IRCFG.SIZE : Fld := ⟨.TWN_IRCFG, 47, 44⟩
abbrev F.TWN_IRCFG.BASE : Fld := ⟨.TWN_IRCFG, 39, 6⟩
abbrev F.TWN_IRHEAD.HEAD : Fld := ⟨.TWN_IRHEAD, 15, 0⟩
abbrev F.TWN_TVR.EN : Fld := ⟨.TWN_TVR, 63, 63⟩
abbrev F.TWN_TVR.LIMIT : Fld := ⟨.TWN_TVR, 50, 32⟩
abbrev F.TWN_TVR.BASE : Fld := ⟨.TWN_TVR, 18, 0⟩
abbrev F.TWN_CLAIM.TIMEOUT : Fld := ⟨.TWN_CLAIM, 63, 63⟩
abbrev F.TWN_CLAIM.CURSOR : Fld := ⟨.TWN_CLAIM, 31, 0⟩
abbrev F.TWN_SPROD.PROD : Fld := ⟨.TWN_SPROD, 31, 0⟩
abbrev F.CPH_CTL.EN : Fld := ⟨.CPH_CTL, 0, 0⟩
abbrev F.CPH_STAT.INVFAIL : Fld := ⟨.CPH_STAT, 31, 16⟩
abbrev F.CPH_STAT.CORES : Fld := ⟨.CPH_STAT, 4, 0⟩
abbrev F.CPH_CORE_CTL.EN : Fld := ⟨.CPH_CORE_CTL, 0, 0⟩
abbrev F.CPH_CORE_STAT.INVFAIL : Fld := ⟨.CPH_CORE_STAT, 31, 24⟩
abbrev F.CPH_CORE_STAT.KATFAIL : Fld := ⟨.CPH_CORE_STAT, 3, 3⟩
abbrev F.CPH_CORE_STAT.FAULT : Fld := ⟨.CPH_CORE_STAT, 2, 2⟩
abbrev F.CPH_CORE_STAT.IDLE : Fld := ⟨.CPH_CORE_STAT, 1, 1⟩
abbrev F.CPH_RING_CFG.EN : Fld := ⟨.CPH_RING_CFG, 63, 63⟩
abbrev F.CPH_RING_CFG.ERR : Fld := ⟨.CPH_RING_CFG, 62, 62⟩
abbrev F.CPH_RING_CFG.EVT : Fld := ⟨.CPH_RING_CFG, 55, 48⟩
abbrev F.CPH_RING_CFG.SIZE : Fld := ⟨.CPH_RING_CFG, 47, 44⟩
abbrev F.CPH_RING_CFG.BASE : Fld := ⟨.CPH_RING_CFG, 39, 6⟩
abbrev F.CPH_RING_PTR.HEAD : Fld := ⟨.CPH_RING_PTR, 31, 16⟩
abbrev F.CPH_RING_PTR.TAIL : Fld := ⟨.CPH_RING_PTR, 15, 0⟩
abbrev F.SEC_MODE.ERRCODE : Fld := ⟨.SEC_MODE, 15, 8⟩
abbrev F.SEC_MODE.MODE : Fld := ⟨.SEC_MODE, 1, 0⟩
abbrev F.SEC_KSTAT.SRK : Fld := ⟨.SEC_KSTAT, 31, 31⟩
abbrev F.SEC_KSTAT.DTS : Fld := ⟨.SEC_KSTAT, 30, 30⟩
abbrev F.SEC_KSTAT.CO : Fld := ⟨.SEC_KSTAT, 29, 29⟩
abbrev F.SEC_KSTAT.LOADED : Fld := ⟨.SEC_KSTAT, 16, 0⟩
abbrev F.MBX_CSR.FAILS : Fld := ⟨.MBX_CSR, 23, 16⟩
abbrev F.MBX_CSR.DONE : Fld := ⟨.MBX_CSR, 8, 8⟩
abbrev F.MBX_CSR.BLOCKED : Fld := ⟨.MBX_CSR, 4, 4⟩
abbrev F.MBX_CSR.OVERRUN : Fld := ⟨.MBX_CSR, 3, 3⟩
abbrev F.MBX_CSR.RDY : Fld := ⟨.MBX_CSR, 2, 2⟩
abbrev F.MBX_CSR.BUSY : Fld := ⟨.MBX_CSR, 1, 1⟩
abbrev F.MBX_CSR.GO : Fld := ⟨.MBX_CSR, 0, 0⟩
abbrev F.MBX_INT.EN : Fld := ⟨.MBX_INT, 31, 31⟩
abbrev F.MBX_INT.VECTOR : Fld := ⟨.MBX_INT, 10, 0⟩
abbrev F.MBX_RBV.BLOCK : Fld := ⟨.MBX_RBV, 31, 24⟩
abbrev F.MBX_RBV.BASE : Fld := ⟨.MBX_RBV, 3, 0⟩
abbrev F.MBX_RBS_ITEM.INDEX : Fld := ⟨.MBX_RBS_ITEM, 63, 32⟩
abbrev F.MBX_RBS_ITEM.STATE_ID : Fld := ⟨.MBX_RBS_ITEM, 31, 0⟩
abbrev F.MBX_RBS_OFF.OFFSET : Fld := ⟨.MBX_RBS_OFF, 63, 12⟩
abbrev F.CIC_CTL.PLOCK : Fld := ⟨.CIC_CTL, 1, 1⟩
abbrev F.CIC_CTL.EN : Fld := ⟨.CIC_CTL, 0, 0⟩
abbrev F.CIC_STRAY_EOI.SRC : Fld := ⟨.CIC_STRAY_EOI, 56, 48⟩
abbrev F.CIC_STRAY_EOI.TGT : Fld := ⟨.CIC_STRAY_EOI, 44, 40⟩
abbrev F.CIC_STRAY_EOI.COUNT : Fld := ⟨.CIC_STRAY_EOI, 31, 0⟩
abbrev F.CIC_DB_RING.D : Fld := ⟨.CIC_DB_RING, 4, 0⟩
abbrev F.CIC_SRC_CFG.MODE : Fld := ⟨.CIC_SRC_CFG, 31, 31⟩
abbrev F.CIC_SRC_CFG.TMASK : Fld := ⟨.CIC_SRC_CFG, 25, 4⟩
abbrev F.CIC_SRC_CFG.PRIO : Fld := ⟨.CIC_SRC_CFG, 3, 0⟩
abbrev F.CIC_SRC_STAT.PRES : Fld := ⟨.CIC_SRC_STAT, 21, 21⟩
abbrev F.CIC_SRC_STAT.TGT : Fld := ⟨.CIC_SRC_STAT, 20, 16⟩
abbrev F.CIC_SRC_STAT.LVL : Fld := ⟨.CIC_SRC_STAT, 12, 12⟩
abbrev F.CIC_SRC_STAT.SAT : Fld := ⟨.CIC_SRC_STAT, 11, 11⟩
abbrev F.CIC_SRC_STAT.INSVC : Fld := ⟨.CIC_SRC_STAT, 10, 10⟩
abbrev F.CIC_SRC_STAT.ACTIVE : Fld := ⟨.CIC_SRC_STAT, 9, 9⟩
abbrev F.CIC_SRC_STAT.PEND : Fld := ⟨.CIC_SRC_STAT, 8, 8⟩
abbrev F.CIC_SRC_STAT.COUNT : Fld := ⟨.CIC_SRC_STAT, 7, 0⟩
abbrev F.CIC_TGT_CTL.EN : Fld := ⟨.CIC_TGT_CTL, 0, 0⟩
abbrev F.CIC_CLAIM.VALID : Fld := ⟨.CIC_CLAIM, 31, 31⟩
abbrev F.CIC_CLAIM.COUNT : Fld := ⟨.CIC_CLAIM, 23, 16⟩
abbrev F.CIC_CLAIM.SRC : Fld := ⟨.CIC_CLAIM, 8, 0⟩
abbrev F.CIC_EOI.SRC : Fld := ⟨.CIC_EOI, 8, 0⟩
abbrev F.CIC_RPRIO.DEPTH : Fld := ⟨.CIC_RPRIO, 19, 16⟩
abbrev F.CIC_RPRIO.RPRIO : Fld := ⟨.CIC_RPRIO, 3, 0⟩
abbrev F.CIC_STK.VALID : Fld := ⟨.CIC_STK, 31, 31⟩
abbrev F.CIC_STK.SRC : Fld := ⟨.CIC_STK, 24, 16⟩
abbrev F.CIC_STK.PRIO : Fld := ⟨.CIC_STK, 3, 0⟩
abbrev F.CIC_CORE_CTL.LID : Fld := ⟨.CIC_CORE_CTL, 20, 16⟩
abbrev F.CIC_CORE_CTL.RUN : Fld := ⟨.CIC_CORE_CTL, 0, 0⟩
abbrev F.CIC_CORE_STAT.WDEXP : Fld := ⟨.CIC_CORE_STAT, 31, 24⟩
abbrev F.CIC_CORE_STAT.FAULT : Fld := ⟨.CIC_CORE_STAT, 2, 2⟩
abbrev F.CIC_CORE_STAT.WFI : Fld := ⟨.CIC_CORE_STAT, 1, 1⟩
abbrev F.CIC_CORE_STAT.RUNNING : Fld := ⟨.CIC_CORE_STAT, 0, 0⟩
abbrev F.CIC_WDT.EN : Fld := ⟨.CIC_WDT, 31, 31⟩
abbrev F.CIC_WDT.KICK : Fld := ⟨.CIC_WDT, 30, 30⟩
abbrev F.CIC_WDT.PERIOD : Fld := ⟨.CIC_WDT, 19, 0⟩
abbrev F.PTR_SRC.ADDR : Fld := ⟨.PTR_SRC, 63, 0⟩
abbrev F.PTR_DST.ADDR : Fld := ⟨.PTR_DST, 63, 0⟩
abbrev F.PTR_CNT.COUNT : Fld := ⟨.PTR_CNT, 31, 0⟩
abbrev F.PTR_CFG.EVT : Fld := ⟨.PTR_CFG, 63, 56⟩
abbrev F.PTR_CFG.EEVT : Fld := ⟨.PTR_CFG, 55, 48⟩
abbrev F.PTR_CFG.FUNC : Fld := ⟨.PTR_CFG, 47, 41⟩
abbrev F.PTR_CFG.ZLR : Fld := ⟨.PTR_CFG, 40, 40⟩
abbrev F.PTR_CFG.DSPACE : Fld := ⟨.PTR_CFG, 39, 39⟩
abbrev F.PTR_CFG.SSPACE : Fld := ⟨.PTR_CFG, 38, 38⟩
abbrev F.PTR_CFG.CRCCONT : Fld := ⟨.PTR_CFG, 35, 35⟩
abbrev F.PTR_CFG.CRCMODE : Fld := ⟨.PTR_CFG, 34, 33⟩
abbrev F.PTR_CFG.DIR : Fld := ⟨.PTR_CFG, 32, 32⟩
abbrev F.PTR_CFG.CLASS : Fld := ⟨.PTR_CFG, 31, 30⟩
abbrev F.PTR_CFG.W : Fld := ⟨.PTR_CFG, 29, 28⟩
abbrev F.PTR_CFG.QU : Fld := ⟨.PTR_CFG, 27, 27⟩
abbrev F.PTR_XLV.STRIDE : Fld := ⟨.PTR_XLV, 63, 32⟩
abbrev F.PTR_XLV.NM1 : Fld := ⟨.PTR_XLV, 23, 20⟩
abbrev F.PTR_XLV.UNIT : Fld := ⟨.PTR_XLV, 15, 0⟩
abbrev F.PTR_CTL.TEVT : Fld := ⟨.PTR_CTL, 31, 24⟩
abbrev F.PTR_CTL.TCRED : Fld := ⟨.PTR_CTL, 19, 16⟩
abbrev F.PTR_CTL.COMMIT : Fld := ⟨.PTR_CTL, 3, 3⟩
abbrev F.PTR_CTL.PAUSE : Fld := ⟨.PTR_CTL, 2, 2⟩
abbrev F.PTR_CTL.START : Fld := ⟨.PTR_CTL, 1, 1⟩
abbrev F.PTR_CTL.EN : Fld := ⟨.PTR_CTL, 0, 0⟩
abbrev F.PTR_STAT.ERRCODE : Fld := ⟨.PTR_STAT, 31, 24⟩
abbrev F.PTR_STAT.TAKES : Fld := ⟨.PTR_STAT, 23, 16⟩
abbrev F.PTR_STAT.LASTW : Fld := ⟨.PTR_STAT, 8, 8⟩
abbrev F.PTR_STAT.LATE : Fld := ⟨.PTR_STAT, 7, 7⟩
abbrev F.PTR_STAT.ERR : Fld := ⟨.PTR_STAT, 6, 6⟩
abbrev F.PTR_STAT.TOVF : Fld := ⟨.PTR_STAT, 5, 5⟩
abbrev F.PTR_STAT.PAUSED : Fld := ⟨.PTR_STAT, 4, 4⟩
abbrev F.PTR_STAT.PEND : Fld := ⟨.PTR_STAT, 2, 2⟩
abbrev F.PTR_STAT.IDLE : Fld := ⟨.PTR_STAT, 0, 0⟩
abbrev F.PTR_CRC.CRC : Fld := ⟨.PTR_CRC, 31, 0⟩
abbrev F.PTR_POS.POS : Fld := ⟨.PTR_POS, 31, 0⟩
abbrev F.PTR_DONE.CURSOR : Fld := ⟨.PTR_DONE, 31, 0⟩
abbrev F.HBC_CTL.PATROL_H : Fld := ⟨.HBC_CTL, 15, 8⟩
abbrev F.HBC_CTL.TLOCK : Fld := ⟨.HBC_CTL, 2, 2⟩
abbrev F.HBC_CTL.RLOCK : Fld := ⟨.HBC_CTL, 1, 1⟩
abbrev F.HBC_INIT.DONE : Fld := ⟨.HBC_INIT, 31, 31⟩
abbrev F.HBC_INIT.PROG : Fld := ⟨.HBC_INIT, 22, 16⟩
abbrev F.HBC_INIT.START : Fld := ⟨.HBC_INIT, 0, 0⟩
abbrev F.HBC_STAT.CECOUNT : Fld := ⟨.HBC_STAT, 63, 32⟩
abbrev F.HBC_STAT.HARDROWS : Fld := ⟨.HBC_STAT, 31, 24⟩
abbrev F.HBC_STAT.RSCOUNT : Fld := ⟨.HBC_STAT, 23, 16⟩
abbrev F.HBC_STAT.BAND1 : Fld := ⟨.HBC_STAT, 9, 8⟩
abbrev F.HBC_STAT.BAND0 : Fld := ⟨.HBC_STAT, 5, 4⟩
abbrev F.HBC_STAT.PATROL : Fld := ⟨.HBC_STAT, 0, 0⟩
abbrev F.HBC_UELOG.VALID : Fld := ⟨.HBC_UELOG, 63, 63⟩
abbrev F.HBC_UELOG.OVER : Fld := ⟨.HBC_UELOG, 62, 62⟩
abbrev F.HBC_UELOG.STACK : Fld := ⟨.HBC_UELOG, 58, 58⟩
abbrev F.HBC_UELOG.PC : Fld := ⟨.HBC_UELOG, 57, 53⟩
abbrev F.HBC_UELOG.BANK : Fld := ⟨.HBC_UELOG, 52, 47⟩
abbrev F.HBC_UELOG.ROW : Fld := ⟨.HBC_UELOG, 46, 32⟩
abbrev F.HBC_UELOG.WORDS : Fld := ⟨.HBC_UELOG, 31, 28⟩
abbrev F.HBC_UELOG.PAGE : Fld := ⟨.HBC_UELOG, 27, 0⟩
abbrev F.HBC_TEST_CTL.EN : Fld := ⟨.HBC_TEST_CTL, 31, 31⟩
abbrev F.HBC_TEST_CTL.DONE : Fld := ⟨.HBC_TEST_CTL, 30, 30⟩
abbrev F.HBC_TEST_CTL.OP : Fld := ⟨.HBC_TEST_CTL, 26, 24⟩
abbrev F.HBC_TEST_CTL.CHK : Fld := ⟨.HBC_TEST_CTL, 23, 16⟩
abbrev F.HBC_TEST_CTL.SYM : Fld := ⟨.HBC_TEST_CTL, 5, 1⟩
abbrev F.HBC_TEST_CTL.GO : Fld := ⟨.HBC_TEST_CTL, 0, 0⟩
abbrev F.HBC_TEST_ADDR.ADDR : Fld := ⟨.HBC_TEST_ADDR, 39, 3⟩
abbrev F.HBC_TEST_DATA.DATA : Fld := ⟨.HBC_TEST_DATA, 63, 0⟩
abbrev F.HBC_REPAIR.VALID : Fld := ⟨.HBC_REPAIR, 31, 31⟩
abbrev F.HBC_REPAIR.APPLIED : Fld := ⟨.HBC_REPAIR, 30, 30⟩
abbrev F.HBC_REPAIR.NOSPARE : Fld := ⟨.HBC_REPAIR, 29, 29⟩
abbrev F.HBC_REPAIR.STACK : Fld := ⟨.HBC_REPAIR, 26, 26⟩
abbrev F.HBC_REPAIR.PC : Fld := ⟨.HBC_REPAIR, 25, 21⟩
abbrev F.HBC_REPAIR.BANK : Fld := ⟨.HBC_REPAIR, 20, 15⟩
abbrev F.HBC_REPAIR.ROW : Fld := ⟨.HBC_REPAIR, 14, 0⟩
abbrev F.SNF_CTL.EVT : Fld := ⟨.SNF_CTL, 23, 16⟩
abbrev F.SNF_CTL.EN : Fld := ⟨.SNF_CTL, 0, 0⟩
abbrev F.SNF_QPTR.HEAD : Fld := ⟨.SNF_QPTR, 31, 16⟩
abbrev F.SNF_QPTR.TAIL : Fld := ⟨.SNF_QPTR, 15, 0⟩
abbrev F.SNF_STAT.SPARES : Fld := ⟨.SNF_STAT, 31, 24⟩
abbrev F.SNF_STAT.REMAPS : Fld := ⟨.SNF_STAT, 23, 16⟩
abbrev F.SNF_STAT.CFGERR : Fld := ⟨.SNF_STAT, 3, 3⟩
abbrev F.SNF_STAT.SUSP : Fld := ⟨.SNF_STAT, 2, 2⟩
abbrev F.SNF_STAT.IDLE : Fld := ⟨.SNF_STAT, 0, 0⟩
abbrev F.SNF_INTR.VALID : Fld := ⟨.SNF_INTR, 63, 63⟩
abbrev F.SNF_INTR.ABANDONED : Fld := ⟨.SNF_INTR, 62, 62⟩
abbrev F.SNF_INTR.KIND : Fld := ⟨.SNF_INTR, 57, 56⟩
abbrev F.SNF_INTR.COUNT : Fld := ⟨.SNF_INTR, 55, 48⟩
abbrev F.SNF_INTR.LEN : Fld := ⟨.SNF_INTR, 47, 32⟩
abbrev F.SNF_INTR.NOR : Fld := ⟨.SNF_INTR, 25, 0⟩
abbrev F.SNF_RGN.PROT : Fld := ⟨.SNF_RGN, 63, 63⟩
abbrev F.SNF_RGN.OPEN : Fld := ⟨.SNF_RGN, 62, 62⟩
abbrev F.SNF_RGN.LOCKOUT : Fld := ⟨.SNF_RGN, 61, 61⟩
abbrev F.SNF_RGN.ATTEMPTS : Fld := ⟨.SNF_RGN, 52, 48⟩
abbrev F.SNF_RGN.OPENER : Fld := ⟨.SNF_RGN, 44, 40⟩
abbrev F.SNF_RGN.NSECT : Fld := ⟨.SNF_RGN, 26, 16⟩
abbrev F.SNF_RGN.FIRST : Fld := ⟨.SNF_RGN, 9, 0⟩
abbrev F.SNF_PWD.PWD : Fld := ⟨.SNF_PWD, 63, 0⟩
abbrev F.SNF_PCMD.CMD : Fld := ⟨.SNF_PCMD, 31, 30⟩
abbrev F.SNF_PCMD.REGION : Fld := ⟨.SNF_PCMD, 3, 0⟩
abbrev F.SNF_SCCTL.CLRLOCK : Fld := ⟨.SNF_SCCTL, 15, 0⟩
abbrev F.CPM_PSTATE.LASTWAKE : Fld := ⟨.CPM_PSTATE, 15, 8⟩
abbrev F.CPM_PSTATE.STATE : Fld := ⟨.CPM_PSTATE, 1, 0⟩
abbrev F.CPM_WAKE.EN : Fld := ⟨.CPM_WAKE, 23, 16⟩
abbrev F.CPM_WAKE.LATCH : Fld := ⟨.CPM_WAKE, 7, 0⟩
abbrev F.CPM_DOM_OFF.OFF : Fld := ⟨.CPM_DOM_OFF, 31, 0⟩
abbrev F.CPM_DOM_STAT.OPEN : Fld := ⟨.CPM_DOM_STAT, 31, 0⟩
abbrev F.CPM_RESID.US : Fld := ⟨.CPM_RESID, 63, 0⟩
abbrev F.HKP_TS.BAND : Fld := ⟨.HKP_TS, 17, 16⟩
abbrev F.HKP_TS.TEMP : Fld := ⟨.HKP_TS, 15, 0⟩
abbrev F.HKP_SUP.OOR : Fld := ⟨.HKP_SUP, 31, 31⟩
abbrev F.HKP_SUP.MV : Fld := ⟨.HKP_SUP, 15, 0⟩
abbrev F.HKP_I2C.NAKS : Fld := ⟨.HKP_I2C, 31, 24⟩
abbrev F.HKP_I2C.RESETS : Fld := ⟨.HKP_I2C, 23, 16⟩
abbrev F.HKP_I2C.STUCK : Fld := ⟨.HKP_I2C, 4, 4⟩
abbrev F.HKP_I2C.PRESENT : Fld := ⟨.HKP_I2C, 3, 0⟩
abbrev F.HKP_TASK.OVR : Fld := ⟨.HKP_TASK, 63, 32⟩
abbrev F.HKP_TASK.LAG : Fld := ⟨.HKP_TASK, 31, 0⟩
abbrev F.HKP_TRIP.TRIPPED : Fld := ⟨.HKP_TRIP, 31, 31⟩
abbrev F.HKP_TRIP.SENSOR : Fld := ⟨.HKP_TRIP, 3, 0⟩
abbrev F.TLY_CTL.PE_DONE : Fld := ⟨.TLY_CTL, 9, 9⟩
abbrev F.TLY_CTL.FREEZE : Fld := ⟨.TLY_CTL, 8, 8⟩
abbrev F.TLY_CTL.EN : Fld := ⟨.TLY_CTL, 0, 0⟩
abbrev F.TLY_STAT.NREC : Fld := ⟨.TLY_STAT, 43, 32⟩
abbrev F.TLY_STAT.WFAIL : Fld := ⟨.TLY_STAT, 31, 16⟩
abbrev F.TLY_STAT.CLEARING : Fld := ⟨.TLY_STAT, 2, 2⟩
abbrev F.TLY_STAT.FULL : Fld := ⟨.TLY_STAT, 1, 1⟩
abbrev F.TLY_STAT.WINRDY : Fld := ⟨.TLY_STAT, 0, 0⟩
abbrev F.TLY_CUR.AINC : Fld := ⟨.TLY_CUR, 31, 31⟩
abbrev F.TLY_CUR.RECORD : Fld := ⟨.TLY_CUR, 14, 4⟩
abbrev F.TLY_CUR.CHUNK : Fld := ⟨.TLY_CUR, 3, 0⟩
abbrev F.TLY_WIN.DATA : Fld := ⟨.TLY_WIN, 31, 0⟩
abbrev F.TLY_PE.COUNT : Fld := ⟨.TLY_PE, 31, 0⟩
abbrev F.PMC_GCTL.FRZ : Fld := ⟨.PMC_GCTL, 1, 1⟩
abbrev F.PMC_GCTL.USER_EN : Fld := ⟨.PMC_GCTL, 0, 0⟩
abbrev F.PMC_CYC.CYCLES : Fld := ⟨.PMC_CYC, 63, 0⟩
abbrev F.PMC_CTL.INTEN : Fld := ⟨.PMC_CTL, 16, 16⟩
abbrev F.PMC_CTL.OVF : Fld := ⟨.PMC_CTL, 15, 8⟩
abbrev F.PMC_CTL.EN : Fld := ⟨.PMC_CTL, 7, 0⟩
abbrev F.PMC_CFG.THRESH : Fld := ⟨.PMC_CFG, 63, 32⟩
abbrev F.PMC_CFG.CHAIN : Fld := ⟨.PMC_CFG, 18, 18⟩
abbrev F.PMC_CFG.MODE : Fld := ⟨.PMC_CFG, 17, 16⟩
abbrev F.PMC_CFG.EVENT : Fld := ⟨.PMC_CFG, 15, 0⟩
abbrev F.PMC_CNT.COUNT : Fld := ⟨.PMC_CNT, 31, 0⟩
abbrev F.PMC_DBG_STAT.UNLOCKED : Fld := ⟨.PMC_DBG_STAT, 31, 31⟩
abbrev F.PMC_DBG_STAT.FROZEN : Fld := ⟨.PMC_DBG_STAT, 30, 30⟩
abbrev F.PMC_DBG_STAT.BUSY : Fld := ⟨.PMC_DBG_STAT, 29, 29⟩
abbrev F.PMC_DBG_STAT.FAILS : Fld := ⟨.PMC_DBG_STAT, 18, 16⟩
abbrev F.PMC_DBG_STAT.RESULT : Fld := ⟨.PMC_DBG_STAT, 7, 0⟩
abbrev F.PTR_SSRC.ADDR : Fld := ⟨.PTR_SSRC, 63, 0⟩
abbrev F.PTR_SDST.ADDR : Fld := ⟨.PTR_SDST, 63, 0⟩
abbrev F.PTR_SCNT.COUNT : Fld := ⟨.PTR_SCNT, 31, 0⟩
abbrev F.PTR_SCFG.EVT : Fld := ⟨.PTR_SCFG, 63, 56⟩
abbrev F.PTR_SCFG.EEVT : Fld := ⟨.PTR_SCFG, 55, 48⟩
abbrev F.PTR_SCFG.FUNC : Fld := ⟨.PTR_SCFG, 47, 41⟩
abbrev F.PTR_SCFG.ZLR : Fld := ⟨.PTR_SCFG, 40, 40⟩
abbrev F.PTR_SCFG.DSPACE : Fld := ⟨.PTR_SCFG, 39, 39⟩
abbrev F.PTR_SCFG.SSPACE : Fld := ⟨.PTR_SCFG, 38, 38⟩
abbrev F.PTR_SCFG.CRCCONT : Fld := ⟨.PTR_SCFG, 35, 35⟩
abbrev F.PTR_SCFG.CRCMODE : Fld := ⟨.PTR_SCFG, 34, 33⟩
abbrev F.PTR_SCFG.DIR : Fld := ⟨.PTR_SCFG, 32, 32⟩
abbrev F.PTR_SCFG.CLASS : Fld := ⟨.PTR_SCFG, 31, 30⟩
abbrev F.PTR_SCFG.W : Fld := ⟨.PTR_SCFG, 29, 28⟩
abbrev F.PTR_SCFG.QU : Fld := ⟨.PTR_SCFG, 27, 27⟩
abbrev F.PTR_SXLV.STRIDE : Fld := ⟨.PTR_SXLV, 63, 32⟩
abbrev F.PTR_SXLV.NM1 : Fld := ⟨.PTR_SXLV, 23, 20⟩
abbrev F.PTR_SXLV.UNIT : Fld := ⟨.PTR_SXLV, 15, 0⟩
abbrev F.VS.VER : Fld := ⟨.VS, 31, 0⟩
abbrev F.CC.IOCQES : Fld := ⟨.CC, 23, 20⟩
abbrev F.CC.IOSQES : Fld := ⟨.CC, 19, 16⟩
abbrev F.CC.SHN : Fld := ⟨.CC, 15, 14⟩
abbrev F.CC.AMS : Fld := ⟨.CC, 13, 11⟩
abbrev F.CC.MPS : Fld := ⟨.CC, 10, 7⟩
abbrev F.CC.CSS : Fld := ⟨.CC, 6, 4⟩
abbrev F.CC.EN : Fld := ⟨.CC, 0, 0⟩
abbrev F.CSTS.PP : Fld := ⟨.CSTS, 5, 5⟩
abbrev F.CSTS.NSSRO : Fld := ⟨.CSTS, 4, 4⟩
abbrev F.CSTS.SHST : Fld := ⟨.CSTS, 3, 2⟩
abbrev F.CSTS.CFS : Fld := ⟨.CSTS, 1, 1⟩
abbrev F.CSTS.RDY : Fld := ⟨.CSTS, 0, 0⟩
abbrev F.NSSR.NSSRC : Fld := ⟨.NSSR, 31, 0⟩
abbrev F.AQA.ACQS : Fld := ⟨.AQA, 27, 16⟩
abbrev F.AQA.ASQS : Fld := ⟨.AQA, 11, 0⟩
abbrev F.ASQ.ASQB : Fld := ⟨.ASQ, 63, 12⟩
abbrev F.ACQ.ACQB : Fld := ⟨.ACQ, 63, 12⟩

end Sys2Proof.Machine
end

