-- ==== Sys2Proof/Machine/State.lean ====
section
/-! DEFINITION. The state of the block as plain data: its parts, its memories and the commands that
wait; the faults and refusals of a step; and the state right after reset. -/

namespace Sys2Proof.Machine

/-- No command of this model ends in a fault: every row of the table has an effect the spec gives. -/
inductive Fault where
deriving DecidableEq, Repr

/-- Why a command has no meaning. -/
inductive Refusal where
  /-- Raised by `exec` for a command that has no meaning yet. Safe: the block stops where the hardware goes on. -/
  | notModelled (mnemonic : String)
deriving DecidableEq, Repr

/-- The state of the block. -/
structure State where
  regs : Tbl (BitVec 64) := []           -- registers that do not hold their reset value, by `regKey`
  mem : List Host.Cell := []             -- SRAM windows and HBM; an unlisted byte reads 0
  snor : List Host.Cell := []            -- secure NOR; an unlisted byte reads 0xFF (erased)
  straps : Straps := {}
  dtime : BitVec 64 := 0
  epoch : BitVec 16 := 0
  elapsed : Nat := 0                     -- elapsed µs since power-on, advanced by the millisecond tick
  accErr : Tbl Nat := []                 -- access errors per block (R8)
  debugErrs : Nat := 0                   -- undecoded accesses of the debug port (R18)
  freeNo : Nat := 0                      -- number of the next free value (the model's own)
  inReset : Bool := false                -- the controller holds itself in reset (R286, R590)
  evt : Evt := {}
  cic : Cic := {}
  hbm : Hbm := {}
  nor : Nor := {}
  hkp : Hkp := {}
  tly : Tly := {}
  packs : Tbl Pack := []
  hif : Hif := {}
  twn : Twn := {}
  map : MapS := {}
  cmpWait : List CmpWait := []           -- jobs taken into a ring while no engine is in service, oldest first
  gateWait : List GateWait := []         -- requests to held clock domains, oldest first (R572)
  conv : Conv := {}
  health : Health := {}
  pow : Pow := {}
  setv : Settings := {}
  sgen : BitVec 64 := 0
  fab : Fab := {}
  fw : Fw := {}
  mbx : Mbx := {}
  keys : Keys := {}
  arb : Arb := {}
  out : List Out := []                   -- what the block has sent, oldest first (the model's own)
  pending : List Instr := []             -- the commands that wait, first in, first out
deriving DecidableEq, Repr

/-- What a meaning answers. -/
abbrev Res := Host.Outcome State Fault Refusal

/-- The machine right after reset: every register at its reset value, every memory with nothing listed, every
queue empty. -/
def State.reset : State := {}

end Sys2Proof.Machine
end

