-- ==== Sys2Proof/Machine/Unit.lean ====
section
/-! DEFINITION. Stored units: the tweak and the authenticated data of each (R399, R400), their enciphering (R398), and the keys that
derive from the domain transport secret (R417). -/

namespace Sys2Proof.Machine

/-- Key slot `n` (chapter 12). -/
def State.kslot (s : State) (n : Nat) : KeySlot := tgetD n {} s.keys.slots

/-- CODEVER of this release (R152). -/
def codever : Nat := 1

/-! ### Tweaks and authenticated data (R399, R400) -/

/-- R399: a tweak from its parts, lowest byte first. -/
def tweak (lo hi code gen inst : Nat) : Bytes := leBytes 8 lo ++ leBytes 2 hi ++ leBytes 1 code ++ leBytes 1 gen ++ leBytes 4 inst

/-- The unit code of quarter `q` of a bale. -/
def quarterCode (q : Nat) : Nat := q

/-- The unit code of the patch of block `b`. -/
def patchCode (b : Nat) : Nat := 0x10 + b

/-- The tweak of a map page. -/
def mapPageTweak (mpn : Nat) : Bytes := tweak mpn 0 0xF1 0 0

/-- The tweak of a journal block, by FIRST_JSEQ. -/
def journalTweak (first : Nat) : Bytes := tweak first 0 0xF2 0 0

/-- The tweak of a patch page. -/
def patchPageTweak (round page : Nat) : Bytes := tweak (round * 2 ^ 24 + page) 0 0xF3 0 0

/-- The tweak of a snapshot of a table: 0 convoy blocks, 1 erase counts. -/
def tableTweak (round table : Nat) : Bytes := tweak (round * 2 ^ 8 + table) 0 0xF4 0 0

/-- The tweak of a system-log block, by the LSEQ of its first record. -/
def sysLogTweak (lseq : Nat) : Bytes := tweak lseq 0 0xF5 0 0

/-- The tweak of a landing page. -/
def landingTweak (seq page : Nat) : Bytes := tweak seq (page % 2 ^ 16) 0xF6 (page / 2 ^ 16 % 256) 0

/-- Which unit of a namespace's data: bale, slot, unit code, generation, instance. -/
structure UnitId where
  bale : Nat
  nsidx : Nat
  code : Nat
  gen : Nat
  inst : BitVec 32
deriving DecidableEq, Repr

/-- R399: the tweak of a quarter or a patch. -/
def UnitId.tweak (u : UnitId) : Bytes := Machine.tweak u.bale u.nsidx u.code u.gen u.inst.toNat

/-- R400: the 24 bytes of authenticated data of a sealed quarter or patch of `len` stored bytes. -/
def UnitId.aad (u : UnitId) (len : Nat) : Bytes :=
  leBytes 8 u.bale ++ leBytes 4 u.inst.toNat ++ leBytes 2 u.nsidx ++ leBytes 1 u.code ++ leBytes 1 u.gen ++ leBytes 4 len ++
    leBytes 2 codever ++ [0, 0]

/-! ### Enciphering (R398) -/

/-- A unit of a namespace's data under key material: the stored bytes, and the tag where the namespace is sealed. -/
def UnitId.encipher (u : UnitId) (sealed : Bool) (mat : Bytes) (nonce : BitVec 96) (d : Bytes) : Bytes × Bytes :=
  if sealed then gcmEnc mat (leBytes 12 nonce.toNat) (u.aad d.length) d else (xts true mat u.tweak d, [])

/-- A unit of the device's own under the system key, slot 1. -/
def State.systemUnit (s : State) (tweak d : Bytes) : Bytes := xts true (s.kslot 1).mat tweak d

/-- A landing page under the landing key, slot 2: its first `clear` bytes, the header, stay in clear. -/
def State.landingPage (s : State) (seq page clear : Nat) (d : Bytes) : Bytes :=
  d.take clear ++ xts true (s.kslot 2).mat (landingTweak seq page) (d.drop clear)

/-! ### Keys derived from the domain transport secret (R417) -/

/-- R417: a derived key: the ciphertext of 32 zero bytes by GCM under the secret, its nonce from the hash of label and context. -/
def deriveKey (dts : BitVec 256) (label context : Bytes) : Bytes :=
  (gcmEnc (leBytes 32 dts.toNat) ((sha384 (label ++ context)).take 12) [] (List.replicate 32 0)).1

/-- The twin-link key of sender `t` in generation `g`; `serial` is the sender's. -/
def twinLinkKey (dts : BitVec 256) (serial : Bytes) (t g : Nat) : Bytes :=
  deriveKey dts [0x54, 0x57, 0x4C, 0x4B] (serial ++ leBytes 1 t ++ leBytes 4 g)

/-- The export key of a package. -/
def exportKey (dts : BitVec 256) (nonce : Bytes) : Bytes := deriveKey dts [0x4B, 0x45, 0x58, 0x50] nonce

/-- Derived material is written to a device slot: its generation goes up (R410, R417). -/
def Keys.derive (k : Keys) (n : Nat) (mat : Bytes) : Keys :=
  let x : KeySlot := tgetD n {} k.slots
  { k with slots := tput n { alg := 2, gen := x.gen + 1, loaded := true, mat := mat } k.slots }

/-- R417, R418: the send key, slot 3, is that of this controller's generation. -/
def State.sendKey (s : State) : State :=
  match s.keys.dts with
  | some d =>
    { s with keys := s.keys.derive 3 (twinLinkKey d (leBytes 24 Config.serial.toNat) s.straps.twinId.toNat s.keys.genTx) }
  | none => s

/-- R417, R418: the receive key, slot 4, is that of the peer's generation. -/
def State.recvKey (s : State) : State :=
  match s.keys.dts with
  | some d =>
    let mat := twinLinkKey d (leBytes 24 s.keys.peerSerial.toNat) (1 - s.straps.twinId.toNat) s.keys.genRx
    { s with keys := s.keys.derive 4 mat }
  | none => s

end Sys2Proof.Machine
end

