-- ==== Sys2Proof/Machine/Ops.lean ====
section
/-! DEFINITION. The named operations every chapter shares: reading and writing registers and their fields, memory,
event-line pulses and claim cursors, raising a source of the interrupt controller, sending an output, and entering
an input in the ledger. -/

namespace Sys2Proof.Machine

/-! ### Registers -/

/-- The key of instance `i` of a register in the register file. -/
def regKey (r : RegName) (i : Nat) : Nat := i * 256 + r.ctorIdx

/-- Is `k` the key of an instance of register `r`? -/
def keyOf (r : RegName) (k : Nat) : Bool := k % 256 == r.ctorIdx

/-- The instance that a key names. -/
def keyInst (k : Nat) : Nat := k / 256

/-- What register `r[i]` holds. -/
def State.reg (s : State) (r : RegName) (i : Nat) : BitVec 64 := tgetD (regKey r i) (regReset r i) s.regs

/-- Register `r[i]` now holds `v`. -/
def State.setReg (s : State) (r : RegName) (i : Nat) (v : BitVec 64) : State :=
  { s with regs := tset (regReset r i) (regKey r i) v s.regs }

/-- Bits [hi:lo] of a number. -/
def bitsOf (hi lo v : Nat) : Nat := v / 2 ^ lo % 2 ^ (hi + 1 - lo)

/-- A number with bits [hi:lo] replaced by `x`. -/
def insBits (hi lo v x : Nat) : Nat :=
  v / 2 ^ (hi + 1) * 2 ^ (hi + 1) + x % 2 ^ (hi + 1 - lo) * 2 ^ lo + v % 2 ^ lo

/-- A field of instance `i` of its register. -/
def State.get (s : State) (f : Fld) (i : Nat := 0) : Nat := bitsOf f.hi f.lo (s.reg f.reg i).toNat

/-- A field of instance `i` of its register now holds `x` (its low bits). -/
def State.put (s : State) (f : Fld) (i : Nat) (x : Nat) : State :=
  s.setReg f.reg i (BitVec.ofNat 64 (insBits f.hi f.lo (s.reg f.reg i).toNat x))

/-- A one-bit field as a truth value. -/
def State.on (s : State) (f : Fld) (i : Nat := 0) : Bool := s.get f i == 1

/-- The largest value of a field. -/
def Fld.max (f : Fld) : Nat := 2 ^ (f.hi + 1 - f.lo) - 1

/-- A counting field goes up by `n` and saturates. -/
def State.bump (s : State) (f : Fld) (i : Nat) (n : Nat := 1) : State := s.put f i (min f.max (s.get f i + n))

/-- A value outside a range is taken as the nearer limit. -/
def clampTo (lo hi v : Nat) : Nat := if v < lo then lo else if hi < v then hi else v

/-- R8: block `b` (the block code of R488) counts an access error. The manual gives the counter no width here: the model counts without
a limit, and ACCESS_ERRORS returns the count modulo 2^32 (DESIGN CHOICE, log entry 103). -/
def State.accessErr (s : State) (b : Nat) : State := { s with accErr := tput b (tgetD b 0 s.accErr + 1) s.accErr }

/-- R286, R614: a controller that is in reset, or frozen, does nothing; any other goes on with `r`. -/
def State.awake (s : State) (r : Res) : Res := if s.inReset || s.on F.PMC_DBG_STAT.FROZEN then .next s else r

/-- R572: does firmware hold clock domain `d` closed? -/
def State.domHeld (s : State) (d : Nat) : Bool := (s.reg .CPM_DOM_OFF (d / 32)).getLsbD (d % 32)

/-- The next free value's number is drawn. -/
def State.drawn (s : State) : State := { s with freeNo := s.freeNo + 1 }

/-! ### Memory -/

/-- What an internal memory byte that nothing has written reads as. HBM: the fill of R538 writes zero to every word
before anything can reach it. SRAM: DESIGN CHOICE 0. -/
def memDefault : Byte := 0

/-- An erased NOR byte (R551). -/
def norDefault : Byte := 0xFF

/-- The canonical form of a memory with default `d`: addresses rising, no entry equal to `d`. -/
def Memory.wf (d : Byte) (m : List Host.Cell) : Bool := tsorted m && m.all fun e => e.2 != d

/-- The byte at an internal address. -/
def State.rdByte (s : State) (a : Nat) : Byte := tgetD a memDefault s.mem

/-- `n` bytes from an internal address on. -/
def State.rdBytes (s : State) (a : Nat) : Nat → Bytes
  | 0 => []
  | n + 1 => s.rdByte a :: State.rdBytes s (a + 1) n

/-- Is the address in the HBM range of R17? -/
def inHbm (a : Nat) : Bool := decide (0x1000000000 ≤ a ∧ a < 0x2800000000)

/-- Is the address in a core's SRAM window (R17; AC has 256 KiB)? Answers the core. -/
def sramCore (a : Nat) : Option Nat :=
  if 0x10000000 ≤ a ∧ a < 0x13000000 then
    let i := (a - 0x10000000) / 0x200000
    if i = 23 ∧ 0x40000 ≤ (a - 0x10000000) % 0x200000 then none else some i
  else none

/-- Is there memory at the address: HBM, or SRAM of a core? -/
def isRam (a : Nat) : Bool := inHbm a || (sramCore a).isSome

/-- R380: a page that is written while a rejoin copies is dirty. -/
def State.dirtied (s : State) (a : Nat) : State :=
  if s.arb.rj.active && !s.arb.rj.joiner && !s.arb.rj.dirty.contains (a / 4096) then
    { s with arb := { s.arb with rj := { s.arb.rj with dirty := s.arb.rj.dirty ++ [a / 4096] } } }
  else s

/-- A byte is written; the word that holds it is stored with valid check bits again (R536). A write elsewhere reaches no
memory. -/
def State.wrByte (s : State) (a : Nat) (b : Byte) : State :=
  if isRam a then
    { s with mem := tset memDefault a b s.mem, hbm := { s.hbm with err := tdel (a / 8) s.hbm.err } }.dirtied a
  else s

/-- Bytes are written from an internal address on. -/
def State.wrBytes (s : State) (a : Nat) : Bytes → State
  | [] => s
  | b :: t => (s.wrByte a b).wrBytes (a + 1) t

/-- A byte of secure NOR. -/
def State.norByte (s : State) (a : Nat) : Byte := tgetD a norDefault s.snor

/-- `n` bytes of secure NOR. -/
def State.norBytes (s : State) (a : Nat) : Nat → Bytes
  | 0 => []
  | n + 1 => s.norByte a :: State.norBytes s (a + 1) n

/-- A byte of secure NOR is set. -/
def State.setNorByte (s : State) (a : Nat) (b : Byte) : State := { s with snor := tset norDefault a b s.snor }

/-- Bytes of secure NOR are set. -/
def State.setNorBytes (s : State) (a : Nat) : Bytes → State
  | [] => s
  | b :: t => (s.setNorByte a b).setNorBytes (a + 1) t

/-- Firmware programs bytes of secure NOR; a word that changes counts as programmed once more (R559). -/
def State.norPut (s : State) (a : Nat) (b : Bytes) : State :=
  let t := s.setNorBytes a b
  let new := (List.range ((b.length + 7) / 8)).filter fun k => s.norBytes (a + 8 * k) 8 != t.norBytes (a + 8 * k) 8
  { t with nor := { t.nor with progs := new.foldl (fun p k => tput (a / 8 + k) (tgetD (a / 8 + k) 0 p + 1) p) t.nor.progs } }

/-- R552: a record of 64 bytes takes the sector at `a`: it is erased, then programmed. -/
def State.norSlot (s : State) (a : Nat) (b : Bytes) : State :=
  { s with
    snor := s.snor.filter fun e => decide (e.1 / 65536 ≠ a / 65536)
    nor := { s.nor with progs := s.nor.progs.filter fun e => decide (e.1 / 8192 ≠ a / 65536) } }.norPut a b

/-- Is the address in a register block of R17 (bases and ends of its table)? -/
def inRegBlock (a : Nat) : Bool :=
  decide ((0x100000000 ≤ a ∧ a < 0x100104000) ∨ (0x100200000 ≤ a ∧ a < 0x101400000))

/-- R17 to R19, R533, R538: does some block decode an access to this address by an initiator? -/
def State.decoded (s : State) (who : Initiator) (a : Nat) : Bool :=
  if a < 0x40000 then true
  else match sramCore a with
    | some i => i != 22 || who == .core 22 || who == .user 22
    | none =>
      if inHbm a then s.on F.HBC_INIT.DONE && decide (a < 0x27A0000000)
      else inRegBlock a

/-- R18, R19, R533, R538: does an engine reach the byte at an address: memory, but not SC's window, the page check region, or HBM before
its fill? -/
def State.engineSees (s : State) (a : Nat) : Bool :=
  isRam a && sramCore a != some 22 && (!inHbm a || (s.on F.HBC_INIT.DONE && decide (a < 0x27A0000000)))

/-- Bytes that an engine writes; those for which it reaches no memory are ignored (R18, R19). -/
def State.engWrite (s : State) (a : Nat) : Bytes → State
  | [] => s
  | b :: t => (if s.engineSees a then s.wrByte a b else s).engWrite (a + 1) t

/-- The transmitter that an output leaves by: 1 PCIe, 2 Ethernet, 3 pack lanes, 4 the twin link, 0 any other. -/
def Out.port : Out → Nat
  | .cqe .. => 1
  | .hostData .. => 1
  | .hostWrite .. => 1
  | .hostRead .. => 1
  | .zeroRead .. => 1
  | .msix .. => 1
  | .capsule .. => 2
  | .rdmaWrite .. => 2
  | .rdmaRead .. => 2
  | .cnp .. => 2
  | .discovery .. => 2
  | .pack .. => 3
  | .flit (.pack _) _ => 3
  | .twin .. => 4
  | .flit .twin _ => 4
  | _ => 0

/-- A completion entry, or a response capsule. -/
def Out.isCompletion : Out → Bool
  | .cqe .. => true
  | .capsule .. => true
  | _ => false

/-- R286, R588: no completion is posted during a dump. R362: every transmitter but those of the arbiter link and HB idles while FENCE_N is low; R364: those of the packs and of
Ethernet idle on until a rejoin. -/
def State.txIdle (s : State) (o : Out) : Bool :=
  (s.arb.fenceLow && o.port != 0) || (s.arb.outcast && (o.port == 2 || o.port == 3)) || (s.pow.dumping && o.isCompletion)

/-- Something leaves that is no output for the digest and is never held; an idle transmitter sends nothing. -/
def State.send (s : State) (o : Out) : State := if s.txIdle o then s else { s with out := s.out ++ [o] }

/-- R18: an undecoded access is reported according to its initiator. A porter's error ending is its own. -/
def State.undecoded (s : State) (who : Initiator) : State :=
  match who with
  | .core i => s.send (.busError i)
  | .user i => s.send (.busError i)
  | .porter _ => s
  | .debug => { s with debugErrs := s.debugErrs + 1 }
  | .host _ => s

/-! ### The interrupt controller: raising a source (R500 to R504) -/

/-- Sources that never fire (R22 and the chapters' source tables). -/
def reservedSrc (n : Nat) : Bool :=
  decide ((10 ≤ n ∧ n ≤ 15) ∨ n = 187 ∨ n = 202 ∨ n = 203 ∨ n = 219 ∨ n = 230 ∨ n = 231 ∨ (278 ≤ n ∧ n ≤ 299) ∨ (233 ≤ n ∧ n ≤ 235) ∨ (246 ≤ n ∧ n ≤ 251) ∨
    n = 266 ∨ n = 267 ∨ 332 ≤ n)

/-- R501, R502: has the source something to deliver? -/
def State.deliverable (s : State) (n : Nat) : Bool :=
  if n < 16 then s.on F.CIC_SRC_STAT.PEND n
  else if s.on F.CIC_SRC_CFG.MODE n then s.on F.CIC_SRC_STAT.LVL n
  else decide (0 < s.get F.CIC_SRC_STAT.COUNT n)

/-- The running priority of a target: that of the top of its stack, 0 for none (R506, R509). -/
def State.runPrio (s : State) (t : Nat) : Nat :=
  match tgetD t [] s.cic.stk with
  | [] => 0
  | e :: _ => e.1

/-- R500: is source `n` eligible for target `t`? -/
def State.eligible (s : State) (n t : Nat) : Bool :=
  decide (0 < s.get F.CIC_SRC_CFG.PRIO n) && (s.get F.CIC_SRC_CFG.TMASK n).testBit t &&
    s.on F.CIC_TGT_CTL.EN t && s.on F.CIC_CTL.EN &&
    decide (s.runPrio t < s.get F.CIC_SRC_CFG.PRIO n) && s.deliverable n

/-- R504: the next eligible target after `from`, in ascending order with wrap; `k` targets are tried. -/
def State.nextTarget (s : State) (n : Nat) : Nat → Nat → Option Nat
  | 0, _ => none
  | k + 1, last =>
    let t := (last + 1) % 22
    if s.eligible n t then some t else s.nextTarget n k t

/-- R504, R507: source `n` is presented anew: a standing presentation stays while it is eligible; otherwise the next
eligible target takes it, or none. -/
def State.present (s : State) (n : Nat) : State :=
  if s.on F.CIC_SRC_STAT.INSVC n then s
  else if s.on F.CIC_SRC_STAT.PRES n && s.eligible n (s.get F.CIC_SRC_STAT.TGT n) then s
  else match s.nextTarget n 22 (tgetD n 21 s.cic.last) with
    | some t =>
      let s := (s.put F.CIC_SRC_STAT.PRES n 1).put F.CIC_SRC_STAT.TGT n t
      { s with cic := { s.cic with last := tput n t s.cic.last } }
    | none => s.put F.CIC_SRC_STAT.PRES n 0

/-- The sources that firmware has configured (all others have PRIO 0 and are never presented). -/
def State.cfgSources (s : State) : List Nat :=
  (s.regs.filter fun e => keyOf .CIC_SRC_CFG e.1).map fun e => keyInst e.1

/-- Every source is presented anew, in ascending order, after a change of eligibility. -/
def State.settle (s : State) : State := s.cfgSources.foldl State.present s

/-! ### Event lines and claim cursors (R23 to R26, R327) -/

/-- The cursor of a source of R327 goes up by one. -/
def State.advance (s : State) (ring : Nat) : State :=
  if ring < 0x40 then s.put F.PTR_DONE.CURSOR ring (s.get F.PTR_DONE.CURSOR ring + 1)
  else { s with evt := { s.evt with cursor := tput ring (tgetD ring 0 s.evt.cursor + 1) s.evt.cursor } }

/-- Pulses on a line that have not been delivered. -/
def State.lineCount (s : State) (l : Nat) : Nat := tgetD l 0 s.evt.q

/-- Does a completion pulse on this line have to wait (R25)? Lines 0–15 are no producer's (R23). -/
def State.lineFull (s : State) (l : Nat) : Bool := decide (16 ≤ l ∧ 32 ≤ s.lineCount l)

/-- A pulse enters a line. -/
def State.enqPulse (s : State) (l : Nat) : State :=
  { s with evt := { s.evt with q := tput l (s.lineCount l + 1) s.evt.q } }

/-- A hardware source pulses its line of R23; at the depth of R25 the pulse is held. -/
def State.hwPulse (s : State) (l : Nat) : State :=
  if 32 ≤ s.lineCount l then
    { s with evt := { s.evt with held := s.evt.held ++ [{ line := l, hw := true }] } }
  else s.enqPulse l

/-- R23: the event line that mirrors a privileged source. -/
def mirrorLine (n : Nat) : Option Nat :=
  if n = 0 then some 3 else if n = 1 then some 4 else if n = 2 then some 5 else none

/-- R501, R502: an event of source `n` is counted or pends, and the source is presented. Reserved sources never
fire. -/
def State.raise (s : State) (n : Nat) : State :=
  if reservedSrc n then s
  else
    let s := match mirrorLine n with
      | some l => s.hwPulse l
      | none => s
    if n < 16 then ((s.put F.CIC_SRC_STAT.PEND n 1).put F.CIC_SRC_STAT.COUNT n 1).present n
    else if s.on F.CIC_SRC_CFG.MODE n then
      ((s.put F.CIC_SRC_STAT.LVL n 1).put F.CIC_SRC_STAT.COUNT n 1).present n
    else if s.get F.CIC_SRC_STAT.COUNT n = 255 then (s.put F.CIC_SRC_STAT.SAT n 1).present n
    else (s.bump F.CIC_SRC_STAT.COUNT n).present n

/-- R501: the condition of a level source ends. -/
def State.lower (s : State) (n : Nat) : State :=
  ((s.put F.CIC_SRC_STAT.LVL n 0).put F.CIC_SRC_STAT.COUNT n 0).present n

/-- Cursor `r` goes up by `n`. -/
def State.advanceBy (s : State) (r : Nat) : Nat → State
  | 0 => s
  | n + 1 => (s.advance r).advanceBy r n

/-- The ERR bit of a unit's rings: the map engine's queues, or the rings of compression, cipher and convoy engines. -/
def errField (unit : Nat) : Fld :=
  if unit = 4 then F.MAP_QCTL.ERR else if unit = 5 then F.CMP_RING_CFG.ERR else if unit = 6 then F.CPH_RING_CFG.ERR
  else F.CVY_RING_CFG.ERR

/-- The sources of a completion: those that it names, and, where it sets an ERR bit that was clear, that of the bit. One that is both is raised
once (DESIGN CHOICE, log entry 115). -/
def State.pulseSrcs (s : State) (h : HeldPulse) : List Nat :=
  match h.err, h.errSrc with
  | some (u, r), some n => if s.on (errField u) r || h.srcs.contains n then h.srcs else h.srcs ++ [n]
  | _, _ => h.srcs

/-- A completion takes effect: what it writes, its ERR bit, its pulse, its cursor, its channel's end and its sources together (R25, R516). -/
def State.accept (s : State) (h : HeldPulse) : State :=
  let srcs := s.pulseSrcs h
  let s := h.wr.foldl (fun s x => s.engWrite x.1 x.2) s
  let s := match h.err with
    | some (u, r) => s.put (errField u) r 1
    | none => s
  let s := if 16 ≤ h.line ∨ h.hw = true then s.enqPulse h.line else s
  let s := match h.ring with
    | some r => s.advanceBy r h.steps
    | none => s
  let s := match h.chan with
    | some n => (s.put F.PTR_STAT.PEND n 0).put F.PTR_STAT.IDLE n 1
    | none => s
  srcs.foldl State.raise s

/-- R25: a producer completes, or holds its completion whole while its line is full. -/
def State.complete (s : State) (h : HeldPulse) : State :=
  if s.lineFull h.line then { s with evt := { s.evt with held := s.evt.held ++ [h] } } else s.accept h

/-! ### Performance counters (R606 to R608) -/

/-- R608: counter `k` of set `x` wraps: a chained next counter goes up by one (and may wrap in turn), else OVF. -/
def State.pmcWrap (s : State) (x : Nat) : Nat → Nat → State
  | 0, _ => s
  | fuel + 1, k =>
    if k < 7 ∧ s.on F.PMC_CFG.CHAIN (8 * x + k + 1) then
      let v := s.get F.PMC_CNT.COUNT (8 * x + k + 1) + 1
      let s := s.put F.PMC_CNT.COUNT (8 * x + k + 1) v
      if v = 2 ^ 32 then s.pmcWrap x fuel (k + 1) else s
    else
      let s := s.put F.PMC_CTL.OVF x (s.get F.PMC_CTL.OVF x ||| 2 ^ k)
      if s.on F.PMC_CTL.INTEN x then s.raise (if x < 24 then 242 else 243) else s

/-- R607: event `ev` of unit `x` occurs `n` times in a cycle, seen by counter `k`. -/
def State.pmcCount (x ev n : Nat) (s : State) (k : Nat) : State :=
  let i := 8 * x + k
  if s.on F.PMC_GCTL.FRZ || !(s.get F.PMC_CTL.EN x).testBit k || s.get F.PMC_CFG.EVENT i != ev ||
      (decide (0 < k) && s.on F.PMC_CFG.CHAIN i) then s
  else
    let add := match s.get F.PMC_CFG.MODE i with
      | 0 => n
      | 1 => if s.get F.PMC_CFG.THRESH i < n then 1 else 0
      | _ => 0
    let v := s.get F.PMC_CNT.COUNT i + add
    let s := s.put F.PMC_CNT.COUNT i v
    if 2 ^ 32 ≤ v then s.pmcWrap x 8 k else s

/-- R607: event `ev` of the block with code `b` occurs `n` times in a cycle. -/
def State.pmc (s : State) (b ev : Nat) (n : Nat := 1) : State :=
  if s.get F.PMC_CTL.EN (32 + b) = 0 then s
  else (List.range 8).foldl (State.pmcCount (32 + b) ev n) s

/-- R8, R607: an access that block `b` counts as an error, and as an event of its counters. -/
def State.accessBad (s : State) (b : Nat) : State := (s.accessErr b).pmc b 0x18

/-- R572: a request to a held domain is counted. -/
def State.gateShut (s : State) : State := s.accessBad 0x11

/-- R572: a request to a held domain waits, and is counted. -/
def State.gateKeep (s : State) (w : GateWait) : State := { s.gateShut with gateWait := s.gateWait ++ [w] }

/-! ### Flit links (R181 to R183) -/

/-- HIF_TWNSTAT.STATE: 0 solo, 1 pairing, 2 paired, 3 survivor, 4 fenced, 5 rejoining. -/
def State.twState (s : State) : Nat := s.get F.HIF_TWNSTAT.STATE

/-- Is this twin in twin mode: paired, a survivor, or rejoining (R91)? -/
def State.twinMode (s : State) : Bool := s.twState == 2 || s.twState == 3 || s.twState == 5

/-- The lane of pack port `n`. -/
def packLane (n : Nat) : Link := .pack ⟨n % 32, Nat.mod_lt _ (by decide)⟩

/-- R178, R179, R314: the PORT byte of the flits that this controller sends on a link: the port number and its side. -/
def State.portByte (s : State) : Link → Nat
  | .pack n => 2 * n + s.straps.twinId.toNat
  | .twin => s.straps.twinId.toNat

/-- The 256 bytes of a flit (R179). -/
def Flit.bytes (x : Flit) : Bytes :=
  let b := leBytes 4 x.seq.toNat ++ leBytes 1 x.typ ++ leBytes 1 x.port ++ leBytes 2 x.len ++
    (x.payload ++ List.replicate (244 - x.payload.length) 0)
  b ++ leBytes 4 (crc32c b).toNat

/-- Flits that a message of `n` bytes takes: 244 payload bytes each (R179, R180). -/
def flitsOf (n : Nat) : Nat := if n = 0 then 1 else (n + 243) / 244

/-- R180: the flits of a message: COMMAND, then DATA, all but the last with 244 bytes. SEQ is given as each leaves. -/
def messageFlits (port : Nat) (b : Bytes) : List Flit :=
  (List.range (flitsOf b.length)).map fun k =>
    let p := (b.drop (244 * k)).take 244
    { seq := 0, typ := if k = 0 then 1 else 2, port := port, len := p.length, payload := p }

/-- New flits take the next numbers (R181). -/
def numbered (tx : BitVec 32) : List Flit → List Flit
  | [] => []
  | x :: t => { x with seq := tx } :: numbered (tx + 1) t

/-- Messages that may leave with room for `avail` flits: what stays waiting, the flits sent, and what goes out: the flits, and
each message after its last flit. -/
def Lnk.pumpList (l : Link) : Nat → BitVec 32 → List (List Flit × Out) → List (List Flit × Out) × List Flit × List Out
  | _, _, [] => ([], [], [])
  | avail, tx, m :: t =>
    let go := numbered tx (m.1.take avail)
    if m.1.length ≤ avail then
      let r := Lnk.pumpList l (avail - m.1.length) (tx + BitVec.ofNat 32 m.1.length) t
      (r.1, go ++ r.2.1, go.map (.flit l) ++ m.2 :: r.2.2)
    else ((m.1.drop avail, m.2) :: t, go, go.map (.flit l))

/-- Flits sent and not yet acknowledged. -/
def Lnk.unacked (l : Lnk) : Nat := l.buf.length

/-- A new flit leaves only against a credit and while the retry buffer of `cap` flits has room (R182, R183, R314). -/
def Lnk.pump (l : Link) (cap : Nat) (x : Lnk) : Lnk × List Out :=
  let r := Lnk.pumpList l (min x.credit (cap - x.unacked)) x.tx x.wait
  let k := r.2.1.length
  ({ x with wait := r.1, buf := x.buf ++ r.2.1, credit := x.credit - k, tx := x.tx + BitVec.ofNat 32 k }, r.2.2)

/-- A link-control flit (R180): it carries the last SEQ accepted. -/
def State.control (s : State) (l : Link) (rx : BitVec 32) (typ len : Nat) (payload : Bytes := []) : State :=
  s.send (.flit l { seq := rx - 1, typ := typ, port := s.portByte l, len := len, payload := payload })

/-- R183, R314: the TRAIN flit of this controller: its grant of 1024 credits where R195 has the bridge's. -/
def trainPayload : Bytes := List.replicate 12 0 ++ leBytes 2 1024

/-- Pack `n`'s record. -/
def State.pk (s : State) (n : Nat) : Pack := tgetD n {} s.packs

/-- Pack `n`'s record is replaced. -/
def State.setPk (s : State) (n : Nat) (p : Pack) : State := { s with packs := tset {} n p s.packs }

/-- Messages waiting on pack lane `n` leave as far as credits and the retry buffer of 512 flits allow, while the link
is up. -/
def State.pumpPack (s : State) (n : Nat) : State :=
  if !s.on F.PKP_STAT.LINK_UP n || s.arb.fenceLow || s.arb.outcast then s else
  let r := Lnk.pump (packLane n) 512 (s.pk n).link
  let s := (s.setPk n { s.pk n with link := r.1 }).pmc 0x08 0x30 ((s.pk n).link.credit - r.1.credit)
  let s := s.put F.PKP_CRED.TXCRED n r.1.credit
  { s with out := s.out ++ r.2 }

/-- R583, R585: the sensor beside a lane group: pack port 0 to 31, 32 the twin link, 33 and 34 the Ethernet ports, 35 and 36 the PCIe
lanes 0 to 7 and 8 to 15. -/
def laneSensor (k : Nat) : Nat := if k < 32 then k / 8 else if k = 32 then 8 else if k < 35 then k - 27 else k - 31

/-- R585, R586: a lane group trains: it takes the preset of its sensor's band. -/
def State.presetAt (s : State) (k : Nat) : State :=
  { s with hkp := { s.hkp with preset := tput k (s.get F.HKP_TS.BAND (laneSensor k)) s.hkp.preset } }

/-- Lane `n` trains: TRAIN flits leave (R178, R183), under the preset of the lane's temperature band (R586). -/
def State.train (s : State) (n : Nat) : State :=
  (s.presetAt n).control (packLane n) (s.pk n).link.rx 0x14 trainPayload.length trainPayload

/-- Messages waiting on the twin link leave (retry buffer 1024, R314), while it is up. -/
def State.pumpTwin (s : State) : State :=
  if !s.on F.TWN_STAT.LINK_UP || s.arb.fenceLow then s else
  let r := Lnk.pump .twin 1024 s.twn.link
  { s with twn := { s.twn with link := r.1 }, out := s.out ++ r.2 }

/-! ### Outputs (R345 to R348, R360, R365) -/

/-- Bytes of a Pack Link command header (R184). -/
def PackCmd.header (c : PackCmd) : Bytes :=
  leBytes 1 c.opc ++ leBytes 1 c.flags ++ leBytes 2 c.die ++ leBytes 4 c.cseq.toNat ++ leBytes 4 c.block ++
    leBytes 2 c.page ++ leBytes 1 c.cwmask ++ [0] ++ leBytes 4 c.data.length ++ leBytes 4 0 ++ leBytes 8 c.param.toNat

/-- `n` bytes of a record, little-endian. -/
def le (d : Bytes) (a n : Nat) : Nat := leNat ((d.drop a).take n)

/-- A capsule as it arrives: Dwords 0 and 1 of its command, and the rest of the command with its in-capsule data. -/
def capsuleBytes (opcode flags : BitVec 8) (cid : BitVec 16) (nsid : BitVec 32) (body : Bytes) : Bytes :=
  [opcode, flags] ++ leBytes 2 cid.toNat ++ leBytes 4 nsid.toNat ++ body

/-- A capsule's opcode, command identifier, NSID, length and CRC (R323). -/
def Capsule.opcode (k : Capsule) : BitVec 8 := k.bytes.getD 0 0
def Capsule.cid (k : Capsule) : BitVec 16 := BitVec.ofNat 16 (le k.bytes 2 2)
def Capsule.nsid (k : Capsule) : Nat := le k.bytes 4 4
def Capsule.clen (k : Capsule) : Nat := k.bytes.length
def Capsule.ccrc (k : Capsule) : BitVec 32 := crc32c k.bytes

/-- R82: the status code for a capsule whose data the target does not take, by its SGL descriptor: what is in the capsule is at most
16 KiB at offset 0; the rest are keyed blocks, one in the command or up to 16 in a segment. The codes are NVMe 2.0c's. -/
def Capsule.refusal (k : Capsule) : Option Nat :=
  let room := k.clen - 64
  let dataless := k.opcode &&& 3 = 0 ∨ k.opcode = 0x7F
  let addr := le k.bytes 24 8
  let len := le k.bytes 32 4
  let id := (k.bytes.getD 39 0).toNat
  if 16384 < room then some 0x0F
  else if dataless then none
  else if (k.bytes.getD 1 0).toNat / 64 ≠ 1 then some 0x02
  else if id / 16 = 4 then none
  else if id = 0x01 then if addr ≠ 0 then some 0x16 else if room < len then some 0x0F else none
  else if id = 0x31 then
    if addr ≠ 0 then some 0x16
    else if len % 16 ≠ 0 ∨ len = 0 ∨ 256 < len ∨ room < len then some 0x0E
    else if (List.range (len / 16)).all fun i => (k.bytes.getD (64 + 16 * i + 15) 0).toNat / 16 == 4 then none else some 0x11
  else some 0x11

/-- R82: the remote key that a capsule's keyed block asks to invalidate. -/
def Capsule.inv (k : Capsule) : Option (BitVec 32) :=
  if (k.bytes.getD 39 0) = 0x4F then some (BitVec.ofNat 32 (le k.bytes 35 4)) else none

/-- The bytes of data that a capsule itself carries (R82). -/
def Capsule.inCap (k : Capsule) : Nat := if (k.bytes.getD 39 0) = 0x01 then k.clen - 64 else 0

/-- The 16 bytes of a completion entry, phase tag cleared. -/
def cqeBytes (sqid sqhd : Nat) (cid : BitVec 16) (dw0 dw1 : BitVec 32) (sct sc : Nat) : Bytes :=
  leBytes 4 dw0.toNat ++ leBytes 4 dw1.toNat ++ leBytes 2 sqhd ++ leBytes 2 sqid ++ leBytes 2 cid.toNat ++
    leBytes 2 (sc * 2 + sct * 512)

/-- R346: the class of an output, 0 for what is no output for the digest. -/
def Out.oclass : Out → Nat
  | .cqe .. => 1
  | .hostData .. => 2
  | .hostWrite .. => 2
  | .hostRead .. => 3
  | .rdmaWrite .. => 4
  | .rdmaRead .. => 5
  | .capsule .. => 6
  | .pack .. => 7
  | .nor .. => 8
  | .mbx .. => 9
  | .digestIn .. => 10
  | _ => 0

/-- The 64-byte output descriptor from its fields (R346). -/
def descOf (oclass unit chan addr len : Nat) (crc : BitVec 32) (body : Bytes) : Bytes :=
  leBytes 1 oclass ++ [0] ++ leBytes 2 unit ++ leBytes 4 chan ++ leBytes 8 addr ++ leBytes 4 len ++
    leBytes 4 crc.toNat ++ (body ++ List.replicate (32 - body.length) 0) ++ List.replicate 8 0

/-- R346: the output descriptor of an output. Bus and remote addresses are the host's and no operand of the model;
they stand as 0 where the output does not carry them. -/
def Out.desc : Out → Bytes
  | .cqe f sqid sqhd _ _ _ _ cid dw0 dw1 sct sc => descOf 1 f sqid 0 0 0 (cqeBytes sqid sqhd cid dw0 dw1 sct sc)
  | .hostData f cid b => descOf 2 f cid.toNat 0 b.length (crc32c b) []
  | .hostWrite f a b => descOf 2 f 0 a b.length (crc32c b) []
  | .hostRead f a n => descOf 3 f 0 a n 0 []
  | .rdmaWrite p q _ b => descOf 4 p q 0 b.length (crc32c b) []
  | .rdmaRead p q _ n => descOf 5 p q 0 n 0 []
  | .capsule p q sqhd cid dw0 dw1 sct sc _ => descOf 6 p q 0 0 0 (cqeBytes q sqhd cid dw0 dw1 sct sc)
  | .pack n c => descOf 7 n c.cseq.toNat 0 c.data.length (crc32c c.data) c.header
  | .nor idx _ a n crc => descOf 8 0 idx a n crc []
  | .mbx c tag _ b => descOf 9 c tag.toNat 0 (16 + b.length) (crc32c b) []
  | .digestIn c v => descOf 10 c 0 0 0 0 (leBytes 8 v.toNat)
  | _ => []

/-- A 256-bit sum and a count with one more output (R347). -/
def accAdd (x : BitVec 256) (e : BitVec 256 × Nat) : BitVec 256 × Nat := (e.1 + x, e.2 + 1)

/-- R347: an output of stage `n` is added to the stage's sums. -/
def StageAcc.add (c : Nat) (x : BitVec 256) (a : StageAcc) : StageAcc :=
  { a := a.a + x, n := a.n + 1, cls := tput c (accAdd x (tgetD c (0, 0) a.cls)) a.cls }

/-- The list of stage sums with stage `n` changed by `f`; stages in ascending order. -/
def accUpd (n : BitVec 64) (f : StageAcc → StageAcc) : List (BitVec 64 × StageAcc) → List (BitVec 64 × StageAcc)
  | [] => [(n, f {})]
  | e :: t => if e.1 = n then (n, f e.2) :: t else if n.toNat < e.1.toNat then (n, f {}) :: e :: t
    else e :: accUpd n f t

/-- Does the twin ledger unit close stages and keep digests (R322: a solo controller does not)? -/
def State.staged (s : State) : Bool := s.on F.TWN_CTL.EN && decide (s.get F.TWN_CTL.MODE ≠ 0)

/-- R345 to R347: an output issued by core `c` enters the digest of that core's stage. -/
def State.digest (s : State) (c : Nat) (o : Out) : State :=
  if s.staged && decide (0 < o.oclass) then
    let x := BitVec.ofNat 256 (leNat ((sha384 o.desc).take 32))
    { s with twn := { s.twn with accs := accUpd (s.reg .TWN_CSTAGE c) (StageAcc.add o.oclass x) s.twn.accs } }
  else s

/-- Is this controller paired as lead? -/
def State.pairedLead (s : State) : Bool := s.on F.TWN_STAT.PAIRED && !s.on F.TWN_STAT.ROLE

/-- Is this controller the joiner of a rejoin (R378)? -/
def State.joining (s : State) : Bool := s.arb.rj.active && s.arb.rj.joiner

/-- Does this controller follow a peer's ledger: paired as trail, or the joiner of a rejoin (R383)? -/
def State.isTrail (s : State) : Bool := (s.on F.TWN_STAT.PAIRED || s.joining) && s.on F.TWN_STAT.ROLE

/-- R360, R365: the classes of output that are held. -/
def heldClass (c : Nat) : Bool := c == 1 || c == 2 || c == 4 || c == 6 || c == 7 || c == 8 || c == 9

/-- Must an output of class `c` wait now: frozen by QUERY (R360), or, on the paired lead, flits of captured entries
unacknowledged (R365) or the twin link down (R367)? -/
def State.mustHold (s : State) (c : Nat) : Bool :=
  heldClass c && (s.twn.frozen || (s.pairedLead &&
    (decide (s.twn.link.tx ≠ s.twn.link.acked) || !s.twn.link.wait.isEmpty || !s.on F.TWN_STAT.LINK_UP)))

/-- An output leaves: a pack command by its lane, everything else at once. -/
def State.issue (s : State) (o : Out) : State :=
  match o with
  | .pack n c =>
    let p := s.pk n
    (s.setPk n { p with link := { p.link with wait := p.link.wait ++ [(messageFlits (s.portByte (packLane n)) (c.header ++ c.data), o)] } }).pumpPack n
  | o => s.send o

/-- R383, R388: outputs that are computed and digested and not issued: those of a joiner, but for secure-NOR outputs, and pack
commands from the stage in which it is live; and those of associations that the survivor serves alone. -/
def State.muted (s : State) (o : Out) : Bool :=
  (s.joining && o.oclass != 8 && !(o.oclass == 7 && s.arb.rj.live.isSome)) ||
    match o with
    | .capsule _ q .. => s.arb.single.contains q
    | .rdmaWrite _ q _ _ => s.arb.single.contains q
    | .rdmaRead _ q _ _ => s.arb.single.contains q
    | _ => false

/-- The twin-link SEQ below which every flit queued so far lies. -/
def Lnk.lastSeq (l : Lnk) : BitVec 32 := l.tx + BitVec.ofNat 32 (l.wait.foldl (fun n m => n + m.1.length) 0)

/-- An output that the digest has leaves, unless it is held (R360, R365). -/
def State.emitQuiet (s : State) (o : Out) : State :=
  if s.muted o then s
  else if s.mustHold o.oclass then
    { s with twn := { s.twn with held := s.twn.held ++ [{ need := s.twn.link.lastSeq, oclass := o.oclass, o := o }] } }
  else s.issue o

/-- What follows an output of class `c` and is itself none leaves after it: it is held where that one would be, and not sent where that one
would not be (R64). -/
def State.follow (s : State) (c : Nat) (o : Out) : State :=
  if s.joining then s
  else if s.mustHold c then
    { s with twn := { s.twn with held := s.twn.held ++ [{ need := s.twn.link.lastSeq, oclass := c, o := o }] } }
  else s.send o

/-- An output is sent: it enters the digest, and leaves unless it is held. Control firmware's outputs belong to the stage of logical
core 0 (DESIGN CHOICE: the model does not say which core ran it). -/
def State.emit (s : State) (o : Out) : State := (s.digest 0 o).emitQuiet o

/-- R354, R355: a message to the arbiter, with this controller's next MSEQ: header, body, CRC-32C. -/
def State.arbFrame (s : State) (mtype : Nat) (body : Bytes) : Bytes :=
  let b := leBytes 1 mtype ++ leBytes 1 s.straps.twinId.toNat ++ leBytes 2 body.length ++ leBytes 4 s.arb.mseqTx.toNat ++ body
  b ++ leBytes 4 (crc32c b).toNat

/-- A message leaves for the arbiter. -/
def State.arbSend (s : State) (mtype : Nat) (body : Bytes) : State :=
  { s with arb := { s.arb with mseqTx := s.arb.mseqTx + 1 } }.send (.arb (s.arbFrame mtype body))

/-- R356: an ALERT to the arbiter. -/
def State.alert (s : State) (code : Nat) : State :=
  s.arbSend 3 (leBytes 2 code ++ [0, 0] ++ leBytes 8 (s.reg .TWN_STAGE 0).toNat)

/-- R356: the faults that are critical. -/
def criticalFault (b : Nat) : Bool := b == 0 || b == 1 || b == 5 || b == 6 || b == 9 || b == 10

/-- R356: bit `b` of FAULTS is set for REPORT; a critical one is an ALERT of a twin. -/
def State.setFault (s : State) (b : Nat) : State :=
  let s := { s with twn := { s.twn with faults := s.twn.faults ||| BitVec.ofNat 64 (2 ^ b) } }
  if criticalFault b && s.staged then s.alert 3 else s

/-- R344: is an internal address in a range that firmware declared twin-visible? -/
def State.twinVisible (s : State) (a : Nat) : Bool :=
  (List.range 16).any fun i =>
    s.on F.TWN_TVR.EN i && decide (s.get F.TWN_TVR.BASE i ≤ a / 2 ^ 21 ∧ a / 2 ^ 21 ≤ s.get F.TWN_TVR.LIMIT i)

/-- Several things leave. -/
def State.emitAll (s : State) (l : List Out) : State := l.foldl State.emit s

/-! ### Twin-link messages and the ledger (R315 to R327) -/

/-- R315, R316: the bytes of a sealed message under the send key, slot 3: header, enciphered body, tag. `last` is MFLAGS bit 0. -/
def State.sealedMsg (s : State) (mtype : Nat) (last : Bool) (mseq : Nat) (body : Bytes) : Bytes :=
  let kgen := s.keys.genTx % 65536
  let h := leBytes 1 mtype ++ leBytes 1 last.toNat ++ leBytes 2 kgen ++ leBytes 4 body.length ++ leBytes 8 mseq
  let c := gcmEnc (s.kslot 3).mat (leBytes 12 (s.straps.twinId.toNat * 2 ^ 95 + kgen * 2 ^ 64 + mseq)) h body
  h ++ c.1 ++ c.2

/-- R316: a message of the twin link is sealed with the next MSEQ and queued; the last MSEQ of a generation carries
KEY_ROTATE, and the next generation starts at 0. -/
def State.twinSend (s : State) (mtype : Nat) (body : Bytes) (last : Bool := false) : State :=
  if !s.on F.TWN_STAT.LINK_UP then s
  else
    let q := fun (l : Lnk) (t : Nat) (last : Bool) (mseq : Nat) (b : Bytes) =>
      { l with wait := l.wait ++ [(messageFlits (s.portByte .twin) (s.sealedMsg t last mseq b), Out.twin t b)] }
    let l := q s.twn.link mtype last s.twn.mseqTx.toNat body
    if s.twn.mseqTx + 2 = 0x100000000 then
      let l := q l 6 false (s.twn.mseqTx.toNat + 1) []
      let s := { s with twn := { s.twn with link := l, mseqTx := 0 } }
      let s := State.sendKey { s with keys := { s.keys with genTx := s.keys.genTx + 1 } }
      ((s.put F.TWN_LINK.KGEN 0 (s.keys.genTx % 65536)).raise 261).pumpTwin
    else { s with twn := { s.twn with link := l, mseqTx := s.twn.mseqTx + 1 } }.pumpTwin

/-- The widths of the payload fields of an entry class (R323). -/
def entryWidths : Nat → List Nat
  | 1 => [2, 2, 2]
  | 2 => [4, 4, 4, 4, 1, 3]
  | 3 => [4, 1, 1, 2]
  | 4 => [1, 1, 1, 1, 4, 4, 4]
  | 5 => [4, 4] ++ List.replicate 24 2
  | 6 => [1, 1, 2, 4]
  | 7 => [1, 1, 1, 5]
  | 8 => [1, 1, 2, 4, 4, 4]
  | 9 => [1, 3, 4]
  | 10 => [1, 3, 4]
  | _ => [8]

/-- Values at given widths; values beyond the widths are single bytes. -/
def packFields : List Nat → List Nat → Bytes
  | _, [] => []
  | [], v :: vs => leBytes 1 v ++ packFields [] vs
  | w :: ws, v :: vs => leBytes w v ++ packFields ws vs

/-- Zero bytes up to a multiple of `k`. -/
def padTo (k : Nat) (b : Bytes) : Bytes := b ++ List.replicate ((k - b.length % k) % k) 0

end Sys2Proof.Machine

namespace Sys2Proof

open Sys2Proof.Machine

/-- The payload of an entry, padded with zero to a multiple of 8 (R323). -/
def LEntry.payloadBytes (e : LEntry) : Bytes := padTo 8 (packFields (entryWidths e.cls) e.payload)

/-- The length of an entry, header included. -/
def LEntry.len (e : LEntry) : Nat := 8 + e.payloadBytes.length

/-- The bytes of an entry (R324). -/
def LEntry.bytes (e : LEntry) : Bytes :=
  leBytes 1 e.cls ++ leBytes 1 e.origin.toNat ++ leBytes 2 e.len ++ leBytes 4 e.toff ++ e.payloadBytes

end Sys2Proof

namespace Sys2Proof.Machine

/-- The size of input ring `i`, in slots (TWN_IRCFG: values outside 8–15 are taken as the nearer limit). -/
def State.ringSize (s : State) (i : Nat) : Nat := 2 ^ clampTo 8 15 (s.get F.TWN_IRCFG.SIZE i)

/-- The input ring that TWN_ROUTE names for a class (values 23–31 are taken as 0). -/
def State.routeOf (s : State) (cls : Nat) : Nat :=
  let r := s.get F.TWN_ROUTE.RING / 2 ^ (5 * (cls - 1)) % 32
  if 23 ≤ r then 0 else r

/-- The slots that bytes take on ring `i`: pad slots up to the end of the ring first when they would wrap (R325). -/
def State.ringNeed (s : State) (i : Nat) (n : Nat) : Nat × Nat :=
  let size := s.ringSize i
  let k := (n + 63) / 64
  let pos := (tgetD i 0 s.twn.irTail).toNat % size
  if size < pos + k then (size - pos, k) else (0, k)

/-- Has ring `i` room for `n` bytes? -/
def State.ringRoom (s : State) (i : Nat) (n : Nat) : Bool :=
  let k := s.ringNeed i n
  decide (tgetD i 0 s.twn.irUsed + k.1 + k.2 ≤ s.ringSize i)

/-- R325: bytes are written to ring `i` in consecutive slots, after a pad entry where they would wrap. -/
def State.ringWrite (s : State) (i : Nat) (b : Bytes) : State :=
  let k := s.ringNeed i b.length
  let tail := (tgetD i 0 s.twn.irTail) + BitVec.ofNat 32 k.1
  let base := s.get F.TWN_IRCFG.BASE i * 64
  let s := if 0 < k.1 then s.engWrite (base + 64 * ((tgetD i 0 s.twn.irTail).toNat % s.ringSize i)) (leBytes 8 0) else s
  let s := s.engWrite (base + 64 * (tail.toNat % s.ringSize i)) (padTo 64 b)
  { s with twn := { s.twn with
      irTail := tput i (tail + BitVec.ofNat 32 k.2) s.twn.irTail
      irUsed := tput i (tgetD i 0 s.twn.irUsed + k.1 + k.2) s.twn.irUsed } }

/-- R325: an entry is delivered to the input ring of its class; claims go to no ring, a disabled ring gets
nothing. -/
def State.ringDeliver (s : State) (e : LEntry) : State :=
  let i := s.routeOf e.cls
  if e.cls = 8 ∨ !s.on F.TWN_IRCFG.EN i then s else s.ringWrite i e.bytes

/-- R324: TOFF, the ns since the stage opened. -/
def State.toff (s : State) : Nat := (s.elapsed - s.twn.openAt) * 1000

/-- R326: has the open record and the ring of its class room for an entry? -/
def State.hasRoom (s : State) (e : LEntry) : Bool :=
  decide (s.twn.openLen + e.len ≤ 262144) &&
    (decide (e.cls = 8) || !s.on F.TWN_IRCFG.EN (s.routeOf e.cls) || s.ringRoom (s.routeOf e.cls) e.len)

/-- Are stage records sent as they are made: by a paired lead, or by a survivor to a joiner after the cut (R366, R383)? -/
def State.sendsRecords (s : State) : Bool :=
  s.pairedLead || (s.arb.rj.active && !s.arb.rj.joiner && s.arb.rj.cut.isSome)

/-- An entry enters the record of the open stage and is sent as a RECORD segment (R318, R331, R366). -/
def State.recordPut (s : State) (e : LEntry) : State :=
  let s := { s with twn := { s.twn with openRec := s.twn.openRec ++ [e], openLen := s.twn.openLen + e.len } }
  let s := if s.sendsRecords then s.twinSend 1 e.bytes else s
  s.pmc 0x0D 0x50

/-- R318, R322: an entry that the controller itself makes is recorded on a lead or a survivor, and delivered to its
input ring; a trail records nothing. -/
def State.record (s : State) (e : LEntry) : State :=
  if s.isTrail then s
  else
    let s := if s.staged then s.recordPut { e with toff := s.toff } else s
    s.ringDeliver e

/-- A control entry, class 0x0A (R323). -/
def State.recordCtl (s : State) (ckind arg : Nat) : State :=
  (s.record { cls := 10, origin := false, toff := 0, payload := [ckind, 0, arg] }).raise 259

end Sys2Proof.Machine
end

