-- ==== Sys2Proof/Machine/Hbm.lean ====
section
/-! DEFINITION. HBM and its protection: reads under both codes, row correction and soft repair, the fill, the patrol,
refresh bands and the check-bit test mode (chapter 17). What an uncorrectable error does to the commands of the
block is in HbmRead.lean. -/

namespace Sys2Proof.Machine

/-- What the SEC-DED code makes of an error pattern (R533, R534). -/
inductive EccClass where
  | clean | corrected | flagged
deriving DecidableEq, Repr

/-- Bits set in an error pattern. -/
def weight72 (e : BitVec 72) : Nat := (List.range 72).foldl (fun n i => n + (e.getLsbD i).toNat) 0

/-- R533: one bit is corrected, two are detected; of three or more the manual states nothing. -/
def eccClass (e : BitVec 72) : EccClass :=
  match weight72 e with
  | 0 => .clean
  | 1 => .corrected
  | 2 => .flagged
  | _ => match Config.eccHeavy e with
    | 0 => .clean
    | 1 => .corrected
    | _ => .flagged

/-- The error pattern of the word with address `8·w`. -/
def State.errOf (s : State) (w : Nat) : BitVec 72 := tgetD w 0 s.hbm.err

/-- The word with address `8·w` now differs from what was written by `e`. -/
def State.setErr (s : State) (w : Nat) (e : BitVec 72) : State :=
  { s with hbm := { s.hbm with err := tset 0 w e s.hbm.err } }

/-- The 64 data bits that were written to the word with address `8·w`. -/
def State.wordAt (s : State) (w : Nat) : BitVec 64 := BitVec.ofNat 64 (leNat (s.rdBytes (8 * w) 8))

/-- The data a read of a word returns once SEC-DED has acted: patterns of one bit are put right, a longer pattern that
was taken for one bit has one more bit wrong. -/
def State.seenWord (s : State) (w : Nat) : BitVec 64 :=
  let e := s.errOf w
  match eccClass e with
  | .corrected =>
    if weight72 e = 1 then s.wordAt w
    else s.wordAt w ^^^ (e.setWidth 64) ^^^ BitVec.ofNat 64 (2 ^ (Config.eccBit e % 72))
  | _ => s.wordAt w ^^^ e.setWidth 64

/-- A byte as a read sees it once SEC-DED has acted on its word (R534). -/
def State.seenByte (s : State) (a : Nat) : Byte :=
  match tget (a / 8) s.hbm.err with
  | none => s.rdByte a
  | some _ => (s.seenWord (a / 8) >>> (8 * (a % 8))).setWidth 8

/-- `n` bytes as an engine reads them: 0 where it reaches no memory (R18, R19). -/
def State.engRead (s : State) (a n : Nat) : Bytes := (List.range n).map fun k => if s.engineSees (a + k) then s.seenByte (a + k) else 0

/-- R531: the page of an HBM address, as address bits [39:12]. -/
def pageOf (a : Nat) : Nat := a / 4096

/-- R531: stack and pseudo-channel of a page, and the page within the pseudo-channel. -/
def pagePlace (p : Nat) : Nat × Nat × Nat :=
  let a := p - 0x1000000
  (a % 2, a / 2 % 32, a / 64)

/-- The row of a word in the layout of LOC (R542). -/
def rowOf (w : Nat) : Nat :=
  let p := pagePlace (w / 512)
  let br := Config.hbmPlace p.2.2 (w % 512)
  p.1 * 0x4000000 + p.2.1 * 0x200000 + br.1 % 64 * 0x8000 + br.2 % 0x8000

/-- R543, R545: entries of the soft repair list that a reset would load. -/
def softLoaded (l : List SoftRow) : Nat := (l.filter fun e => e.state == 0x7F || e.state == 0x3F).length

/-- An entry of the soft repair list as secure NOR holds it (R542). -/
def SoftRow.bytes (e : SoftRow) : Bytes :=
  leBytes 4 e.loc ++ leBytes 1 e.state ++ [0xFF] ++ leBytes 2 e.epoch.toNat ++ leBytes 8 e.dtime.toNat

/-- Entry `i` of the list is programmed into its sector. -/
def State.softPut (s : State) (i : Nat) (e : SoftRow) : State := s.norPut (0x3320000 + 16 * i) e.bytes

/-- R541, R545: firmware appends a row marked hard to the soft repair list. -/
def State.appendSoft (s : State) (row : Nat) : State :=
  if 4096 ≤ s.hbm.soft.length then s
  else
    let st := if 256 ≤ softLoaded s.hbm.soft then 0x1F else 0x7F
    let e : SoftRow := { loc := row, state := st, epoch := s.epoch, dtime := s.dtime }
    { s with hbm := { s.hbm with soft := s.hbm.soft ++ [e] } }.softPut s.hbm.soft.length e

/-- R541: a rewritten row that reached 2 further corrections is marked hard. -/
def State.markHard (s : State) (row : Nat) : State :=
  if s.hbm.hard.contains row then s
  else
    let s := { s with hbm := { s.hbm with hard := s.hbm.hard ++ [row] } }
    ((s.bump F.HBC_STAT.HARDROWS 0).raise 271).appendSoft row

/-- R540: every word of a row is rewritten from its corrected value. -/
def State.rewriteRow (s : State) (row : Nat) : State :=
  { s with hbm := { s.hbm with err := s.hbm.err.filter fun e => rowOf e.1 != row || eccClass e.2 != .corrected } }

/-- The entry that a new row takes from a full table: the lowest count, the oldest among equals (R540). -/
def rowVictim : List HbmRow → Option HbmRow
  | [] => none
  | r :: t =>
    match rowVictim t with
    | none => some r
    | some v => if v.count < r.count ∨ (v.count = r.count ∧ v.age < r.age) then some v else some r

/-- The row table with an entry for `row` (R540: 1024 entries); one that takes the place of another raises source 277 (R550). -/
def State.rowEntry (s : State) (row : Nat) : State :=
  if s.hbm.rows.any fun r => r.row == row then s
  else
    let new : HbmRow := { row := row, count := 0, rewritten := false, age := s.hbm.rowAge }
    let kept := if s.hbm.rows.length < 1024 then s.hbm.rows
      else match rowVictim s.hbm.rows with
        | some v => s.hbm.rows.filter fun r => r.row != v.row
        | none => s.hbm.rows
    let full := decide (1024 ≤ s.hbm.rows.length)
    let s := { s with hbm := { s.hbm with rows := kept ++ [new], rowAge := s.hbm.rowAge + 1 } }
    if full then s.raise 277 else s

/-- The row table with the entry of `row` changed by `f`. -/
def State.updRow (s : State) (row : Nat) (f : HbmRow → HbmRow) : State :=
  { s with hbm := { s.hbm with rows := s.hbm.rows.map fun r => if r.row = row then f r else r } }

/-- The count of a row and whether it was rewritten. -/
def State.rowState (s : State) (row : Nat) : Nat × Bool :=
  match s.hbm.rows.find? fun r => r.row == row with
  | some r => (r.count, r.rewritten)
  | none => (0, false)

/-- R534, R540, R541, R550: a correction in a row is counted and raises its stack's source; at 16 the row is rewritten, and a rewritten row is marked hard
at 2 further corrections. -/
def State.countRow (s : State) (row : Nat) : State :=
  let s := (s.bump F.HBC_STAT.CECOUNT 0).raise (268 + row / 0x4000000 % 2)
  let s := (s.rowEntry row).updRow row fun r => { r with count := r.count + 1 }
  let c := s.rowState row
  if c.2 then (if 2 ≤ c.1 then s.markHard row else s)
  else if 16 ≤ c.1 then
    ((s.rewriteRow row).updRow row fun r => { r with count := 0, rewritten := true }).raise 270
  else s

/-- The listed error patterns of a page. -/
def State.pageErrs (s : State) (p : Nat) : List (Nat × BitVec 72) := s.hbm.err.filter fun e => e.1 / 512 == p

/-- Words of a page that SEC-DED flags. -/
def State.flagged (s : State) (p : Nat) : Nat :=
  ((s.pageErrs p).filter fun e => eccClass e.2 == .flagged).length

/-- Words of a page that are wrong and pass SEC-DED. -/
def State.silent (s : State) (p : Nat) : Nat :=
  ((s.pageErrs p).filter fun e => eccClass e.2 != .flagged && decide (1 < weight72 e.2)).length

/-- Check symbols of a page that were overridden. -/
def State.badSyms (s : State) (p : Nat) : Nat := (s.hbm.symErr.filter fun e => e.1 / 32 == p).length

/-- R535: can the Reed–Solomon code recover the page? Every flagged word is four erasures, every other wrong word up to
four symbols at unknown positions: 32 check symbols hold erasures and twice the errors. -/
def State.rsRecovers (s : State) (p : Nat) : Bool :=
  decide (4 * s.flagged p + 2 * (4 * s.silent p + s.badSyms p) ≤ 32)

/-- R535, R550: the corrected page is written back; source 272. -/
def State.pageWriteBack (s : State) (p : Nat) : State :=
  { (s.bump F.HBC_STAT.RSCOUNT 0) with
    hbm := { s.hbm with
      err := s.hbm.err.filter fun e => e.1 / 512 != p
      symErr := s.hbm.symErr.filter fun e => e.1 / 32 != p } }.raise 272

/-- R537: a page that cannot be recovered is recorded in HBC_UELOG, the first one staying, and raises source 5; one in a twin-visible
range of a paired twin is a critical fault (R31, R356). -/
def State.logUE (s : State) (w : Nat) : State :=
  let p := w / 512
  let s :=
    if s.on F.HBC_UELOG.VALID then s.put F.HBC_UELOG.OVER 0 1
    else
      let row := rowOf w
      let s := (s.put F.HBC_UELOG.VALID 0 1).put F.HBC_UELOG.STACK 0 (pagePlace p).1
      let s := (s.put F.HBC_UELOG.PC 0 (pagePlace p).2.1).put F.HBC_UELOG.BANK 0 (row / 0x8000)
      let s := (s.put F.HBC_UELOG.ROW 0 row).put F.HBC_UELOG.WORDS 0 (min 15 (s.flagged p))
      s.put F.HBC_UELOG.PAGE 0 p
  let s := if s.on F.TWN_STAT.PAIRED && s.twinVisible (4096 * p) then s.setFault 0 else s
  s.raise 5

/-- What a checked read of a word answers: the data, and whether they are poisoned (R537). -/
structure HbmAns where
  data : BitVec 64
  poisoned : Bool
deriving DecidableEq, Repr

/-- R534 to R537: a checked read of the word with address `8·w`. -/
def State.hbcRead (s : State) (w : Nat) : State × HbmAns :=
  match eccClass (s.errOf w) with
  | .clean => (s, { data := s.seenWord w, poisoned := false })
  | .corrected => (s.countRow (rowOf w), { data := s.seenWord w, poisoned := false })
  | .flagged =>
    if s.rsRecovers (w / 512) then
      (s.pageWriteBack (w / 512), { data := s.wordAt w, poisoned := false })
    else (s.logUE w, { data := s.seenWord w, poisoned := true })

/-- R534: every word of a run of `n` bytes from `a` on that carries an error is read under the codes; answers the first
poisoned word. -/
def State.hbcReadRun (s : State) (a n : Nat) : State × Option Nat :=
  let ws := (s.hbm.err.filter fun e => decide (a / 8 ≤ e.1 ∧ e.1 * 8 < a + n)).map fun e => e.1
  ws.foldl (fun (acc : State × Option Nat) w =>
    match acc.2 with
    | some _ => acc
    | none =>
      let r := acc.1.hbcRead w
      (r.1, if r.2.poisoned then some w else none)) (s, none)

/-! ### The fill (R538, R539, R543) -/

/-- HBM_FILL_START: HBC_INIT.START; ignored while a fill runs. Nothing reaches HBM until DONE. -/
def hbmFillStart (s : State) : State :=
  if s.hbm.fillBusy then s
  else
    let s := (s.put F.HBC_INIT.DONE 0 0).put F.HBC_INIT.PROG 0 0
    { s with hbm := { s.hbm with fillBusy := true } }

/-- HBM_FILL_START (R538). -/
def execHbmFillStart (s : State) : Res := s.awake <| .next (hbmFillStart s)

/-- R539: repair entry `i` is applied, or finds no spare row. -/
def applyRepair (noSpare : List (Fin 256)) (s : State) (i : Nat) : State :=
  if s.on F.HBC_REPAIR.VALID i then
    if noSpare.any fun j => j.val == i then s.put F.HBC_REPAIR.NOSPARE i 1 else s.put F.HBC_REPAIR.APPLIED i 1
  else s

/-- R543: a pending entry of the soft repair list after DONE. -/
def State.softAfter (s : State) (e : SoftRow) : SoftRow :=
  if e.state = 0x7F then
    match (List.range 256).find? fun i =>
        s.on F.HBC_REPAIR.VALID i && decide (s.get ⟨.HBC_REPAIR, 26, 0⟩ i = e.loc) with
    | some i =>
      if s.on F.HBC_REPAIR.APPLIED i then { e with state := 0x3F }
      else if s.on F.HBC_REPAIR.NOSPARE i then { e with state := 0x1F } else e
    | none => e
  else e

/-- R538, R539, R543: the fill ends: every word is zero with valid check bits, every page's symbols are right, the
repairs are applied, DONE is set and source 275 raised. -/
def hbmFillDone (noSpare : List (Fin 256)) (s : State) : State :=
  let s := (List.range 256).foldl (applyRepair noSpare) s
  let l := s.hbm.soft.map s.softAfter
  let s := { s with
    mem := s.mem.filter fun e => !inHbm e.1
    hbm := { s.hbm with err := [], symErr := [], fillBusy := false, soft := l } }
  let s := l.zipIdx.foldl (fun (s : State) (e : SoftRow × Nat) => s.softPut e.2 e.1) s
  ((s.put F.HBC_INIT.DONE 0 1).put F.HBC_INIT.PROG 0 100).raise 275

/-- HBM_FILL_DONE: ends the fill that runs (R538). -/
def execHbmFillDone (noSpare : List (Fin 256)) (s : State) : Res := s.awake <|
  .next (if s.hbm.fillBusy then hbmFillDone noSpare s else s)

/-! ### Patrol scrub (R546) -/

/-- A patrol read of one page: every word is checked; corrections count; a non-zero syndrome in a page whose words all
passed is corrected (R535, R546). The pass ends with the last page: source 273 (R550). -/
def patrolPage (page : Nat) (s : State) : State :=
  let last := decide (page = 0x27A0000000 / 4096 - 1)
  let s := s.put F.HBC_STAT.PATROL 0 (if last then 0 else 1)
  let s := (s.hbcReadRun (4096 * page) 4096).1
  let s := if s.flagged page = 0 ∧ 0 < s.silent page + s.badSyms page ∧ s.rsRecovers page then s.pageWriteBack page else s
  if last then s.raise 273 else s

/-- New error patterns appear in words of a page. -/
def State.upsetPage (s : State) (page : Nat) (l : List (Nat × BitVec 72)) : State :=
  l.foldl (fun s u => if u.1 < 512 then s.setErr (512 * page + u.1) (s.errOf (512 * page + u.1) ^^^ u.2) else s) s

/-! ### Refresh by temperature (R547) -/

/-- The refresh band of a temperature in 1/16 °C. -/
def hbmBand (t : Int) : Nat := if t < 85 * 16 then 0 else if t < 95 * 16 then 1 else 2

/-- The higher of a stack's readout and its captured sensor (R547). -/
def State.stackHot (s : State) (k : Nat) : Int :=
  max (tgetD k (-2048) s.hbm.stackTemp) (tgetD (14 + k) (-2048) s.hkp.sample)

/-- The band field of a stack. -/
def bandFld (k : Nat) : Fld := if k = 0 then F.HBC_STAT.BAND0 else F.HBC_STAT.BAND1

/-- A stack's refresh band changes, and source 274 is raised. -/
def State.setBand (s : State) (k b : Nat) : State :=
  if s.get (bandFld k) = b then s else (s.put (bandFld k) 0 b).raise 274

/-- R547: a higher band takes effect at once. -/
def State.bandUp (s : State) (k : Nat) : State :=
  if s.get (bandFld k) < hbmBand (s.stackHot k) then s.setBand k (hbmBand (s.stackHot k)) else s

/-- The lower threshold of a refresh band, 1/16 °C. -/
def bandFloor (b : Nat) : Int := if b = 1 then 85 * 16 else 95 * 16

/-- R547: at a housekeeping round, a lower band takes effect after two consecutive rounds at least 3 °C below its
threshold. -/
def State.bandRound (s : State) (k : Nat) : State :=
  let s := s.bandUp k
  let b := s.get (bandFld k)
  if 0 < b ∧ s.stackHot k ≤ bandFloor b - 48 then
    let c := tgetD k 0 s.hbm.coolRounds + 1
    if 2 ≤ c then
      ({ s with hbm := { s.hbm with coolRounds := tput k 0 s.hbm.coolRounds } }).setBand k (hbmBand (s.stackHot k + 47))
    else { s with hbm := { s.hbm with coolRounds := tput k c s.hbm.coolRounds } }
  else { s with hbm := { s.hbm with coolRounds := tput k 0 s.hbm.coolRounds } }

/-- HBM_TEMPERATURE_POLL: a stack's readout, 1/16 °C (R547). -/
def execHbmTemperaturePoll (stack : Fin 2) (temp : Int) (s : State) : Res := s.awake <|
  .next (({ s with hbm := { s.hbm with stackTemp := tput stack temp s.hbm.stackTemp } }).bandUp stack)

/-! ### Check-bit test mode (R548, R549) -/

/-- The word that HBC_TEST_ADDR names. -/
def State.testWord (s : State) : Nat := s.get F.HBC_TEST_ADDR.ADDR

/-- A test operation: only while EN is 1 (and the mode is not locked off); `f` acts when the address lies in HBM; DONE
is set at the end and source 276 raised. -/
def testOp (op : Nat) (f : State → State) (s : State) : State :=
  if s.on F.HBC_TEST_CTL.EN && !s.on F.HBC_CTL.TLOCK then
    let s := (s.put F.HBC_TEST_CTL.OP 0 op).put F.HBC_TEST_CTL.DONE 0 0
    let s := if inHbm (8 * s.testWord) then f s else s
    (s.put F.HBC_TEST_CTL.DONE 0 1).raise 276
  else s

/-- OP 1: DATA and CHK are stored in the word; the page's check symbols are left as they are. -/
def testStore (chk : BitVec 8) (s : State) : State :=
  let w := s.testWord
  let old := s.wordAt w
  let d := s.reg .HBC_TEST_DATA 0 ^^^ old
  s.setErr w ((chk ^^^ Config.checkBits old) ++ d)

/-- TEST_WRITE_WORD (R548, OP 1). -/
def execTestWriteWord (chk : BitVec 8) (s : State) : Res := s.awake <|
  .next (testOp 1 (testStore chk) (s.put F.HBC_TEST_CTL.CHK 0 chk.toNat))

/-- OP 2: the word as stored, and its check bits. -/
def testLoad (s : State) : State :=
  let w := s.testWord
  let e := s.errOf w
  let chk := Config.checkBits (s.wordAt w) ^^^ (e >>> 64).setWidth 8
  (s.setReg .HBC_TEST_DATA 0 (s.wordAt w ^^^ e.setWidth 64)).put F.HBC_TEST_CTL.CHK 0 chk.toNat

/-- TEST_READ_WORD (R548, OP 2). -/
def execTestReadWord (s : State) : Res := s.awake <| .next (testOp 2 testLoad s)

/-- The check symbol of a page as computed from what was written to it. -/
def State.rightSym (s : State) (page k : Nat) : BitVec 16 := Config.rsSymbol (s.rdBytes (4096 * page) 4096) k

/-- OP 3: DATA[15:0] becomes check symbol `k` of the word's page. -/
def testStoreSym (k : Nat) (s : State) : State :=
  let p := s.testWord / 512
  let d := (s.reg .HBC_TEST_DATA 0).setWidth 16 ^^^ s.rightSym p k
  { s with hbm := { s.hbm with symErr := tset 0 (32 * p + k) d s.hbm.symErr } }

/-- TEST_WRITE_SYMBOL (R548, OP 3). -/
def execTestWriteSymbol (sym : Fin 32) (s : State) : Res := s.awake <|
  .next (testOp 3 (testStoreSym sym) (s.put F.HBC_TEST_CTL.SYM 0 sym))

/-- OP 4: check symbol `k` of the word's page into DATA[15:0]. -/
def testLoadSym (k : Nat) (s : State) : State :=
  let p := s.testWord / 512
  let v := s.rightSym p k ^^^ tgetD (32 * p + k) 0 s.hbm.symErr
  s.setReg .HBC_TEST_DATA 0 (((s.reg .HBC_TEST_DATA 0) >>> 16 <<< 16) ||| v.setWidth 64)

/-- TEST_READ_SYMBOL (R548, OP 4). -/
def execTestReadSymbol (sym : Fin 32) (s : State) : Res := s.awake <|
  .next (testOp 4 (testLoadSym sym) (s.put F.HBC_TEST_CTL.SYM 0 sym))

end Sys2Proof.Machine
end

