-- ==== Sys2Proof/Machine/RegCat.lean ====
section
/-! DEFINITION. The state catalogue's view of the registers: the block code, the offset in the block and the name of each
(R488). -/

namespace Sys2Proof.Machine

/-- Block code and offset of instance 0, and the name's ASCII text. -/
def regCat : RegName → Nat × Nat × String
  | .CAP => (1, 0x0, "CAP")
  | .HIF_QDB => (1, 0x3000, "HIF_QDB")
  | .HIF_XCFG => (1, 0x3004, "HIF_XCFG")
  | .HIF_TWNSTAT => (1, 0x3008, "HIF_TWNSTAT")
  | .HIF_CTXFREE => (1, 0x3010, "HIF_CTXFREE")
  | .FAB_PSTAT => (2, 0x100, "FAB_PSTAT")
  | .MAP_CTL => (4, 0x0, "MAP_CTL")
  | .MAP_CACHE_CFG => (4, 0x8, "MAP_CACHE_CFG")
  | .MAP_PTAB_CFG => (4, 0xC, "MAP_PTAB_CFG")
  | .MAP_PTAB_STAT => (4, 0x10, "MAP_PTAB_STAT")
  | .MAP_CAP_USABLE => (4, 0x20, "MAP_CAP_USABLE")
  | .MAP_CAP_LIVE => (4, 0x28, "MAP_CAP_LIVE")
  | .MAP_CAP_CHARGED => (4, 0x30, "MAP_CAP_CHARGED")
  | .MAP_MISS_CNT => (4, 0x38, "MAP_MISS_CNT")
  | .MAP_QBASE => (4, 0x1000, "MAP_QBASE")
  | .MAP_QCTL => (4, 0x1008, "MAP_QCTL")
  | .MAP_QTAIL => (4, 0x1010, "MAP_QTAIL")
  | .MAP_QHEAD => (4, 0x1014, "MAP_QHEAD")
  | .CMP_CTL => (5, 0x0, "CMP_CTL")
  | .CMP_ENG_CTL => (5, 0x100, "CMP_ENG_CTL")
  | .CMP_ENG_STAT => (5, 0x104, "CMP_ENG_STAT")
  | .CMP_RING_CFG => (5, 0x1000, "CMP_RING_CFG")
  | .CMP_RING_PTR => (5, 0x1008, "CMP_RING_PTR")
  | .PKP_CTL => (8, 0x0, "PKP_CTL")
  | .PKP_STAT => (8, 0x4, "PKP_STAT")
  | .PKP_CSEQ => (8, 0x8, "PKP_CSEQ")
  | .PKP_BRH => (8, 0xC, "PKP_BRH")
  | .PKP_LERR => (8, 0x10, "PKP_LERR")
  | .PKP_CRED => (8, 0x18, "PKP_CRED")
  | .CVY_CTL => (9, 0x0, "CVY_CTL")
  | .CVY_ACC_CFG => (9, 0x8, "CVY_ACC_CFG")
  | .CVY_STAT => (9, 0x10, "CVY_STAT")
  | .CVY_RING_CFG => (9, 0x100, "CVY_RING_CFG")
  | .CVY_RING_PTR => (9, 0x108, "CVY_RING_PTR")
  | .MED_CTL => (7, 0x0, "MED_CTL")
  | .MED_ITER_CFG => (7, 0x4, "MED_ITER_CFG")
  | .MED_ESC_CNT => (7, 0x100, "MED_ESC_CNT")
  | .HIF_BOOTSTAT => (1, 0x300C, "HIF_BOOTSTAT")
  | .TWN_CTL => (13, 0x0, "TWN_CTL")
  | .TWN_STAT => (13, 0x8, "TWN_STAT")
  | .TWN_STAGE => (13, 0x10, "TWN_STAGE")
  | .TWN_STIME => (13, 0x18, "TWN_STIME")
  | .TWN_CSTAGE => (13, 0x20, "TWN_CSTAGE")
  | .TWN_DIGEST_IN => (13, 0x28, "TWN_DIGEST_IN")
  | .TWN_DIG_STG => (13, 0x30, "TWN_DIG_STG")
  | .TWN_DIG => (13, 0x38, "TWN_DIG")
  | .TWN_ROUTE => (13, 0x60, "TWN_ROUTE")
  | .TWN_RETCFG => (13, 0x70, "TWN_RETCFG")
  | .TWN_LINK => (13, 0x80, "TWN_LINK")
  | .TWN_IRCFG => (13, 0x100, "TWN_IRCFG")
  | .TWN_IRHEAD => (13, 0x108, "TWN_IRHEAD")
  | .TWN_TVR => (13, 0x400, "TWN_TVR")
  | .TWN_CLAIM => (13, 0x1000, "TWN_CLAIM")
  | .TWN_SPROD => (13, 0x2000, "TWN_SPROD")
  | .CPH_CTL => (6, 0x0, "CPH_CTL")
  | .CPH_STAT => (6, 0x4, "CPH_STAT")
  | .CPH_CORE_CTL => (6, 0x100, "CPH_CORE_CTL")
  | .CPH_CORE_STAT => (6, 0x104, "CPH_CORE_STAT")
  | .CPH_RING_CFG => (6, 0x1000, "CPH_RING_CFG")
  | .CPH_RING_PTR => (6, 0x1008, "CPH_RING_PTR")
  | .SEC_MODE => (14, 0x0, "SEC_MODE")
  | .SEC_KSTAT => (14, 0x8, "SEC_KSTAT")
  | .MBX_CSR => (20, 0x0, "MBX_CSR")
  | .MBX_INT => (20, 0x8, "MBX_INT")
  | .MBX_RBV => (20, 0x80000, "MBX_RBV")
  | .MBX_RBS_ITEM => (20, 0x80008, "MBX_RBS_ITEM")
  | .MBX_RBS_OFF => (20, 0x80010, "MBX_RBS_OFF")
  | .CIC_CTL => (11, 0x0, "CIC_CTL")
  | .CIC_STRAY_EOI => (11, 0x8, "CIC_STRAY_EOI")
  | .CIC_DB_RING => (11, 0x18, "CIC_DB_RING")
  | .CIC_SRC_CFG => (11, 0x10000, "CIC_SRC_CFG")
  | .CIC_SRC_STAT => (11, 0x10004, "CIC_SRC_STAT")
  | .CIC_TGT_CTL => (11, 0x20000, "CIC_TGT_CTL")
  | .CIC_CLAIM => (11, 0x20008, "CIC_CLAIM")
  | .CIC_EOI => (11, 0x20010, "CIC_EOI")
  | .CIC_RPRIO => (11, 0x20018, "CIC_RPRIO")
  | .CIC_STK => (11, 0x30000, "CIC_STK")
  | .CIC_CORE_CTL => (11, 0x50000, "CIC_CORE_CTL")
  | .CIC_CORE_STAT => (11, 0x50008, "CIC_CORE_STAT")
  | .CIC_WDT => (11, 0x50010, "CIC_WDT")
  | .PTR_SRC => (12, 0x0, "PTR_SRC")
  | .PTR_DST => (12, 0x8, "PTR_DST")
  | .PTR_CNT => (12, 0x10, "PTR_CNT")
  | .PTR_CFG => (12, 0x18, "PTR_CFG")
  | .PTR_XLV => (12, 0x20, "PTR_XLV")
  | .PTR_CTL => (12, 0x80, "PTR_CTL")
  | .PTR_STAT => (12, 0x84, "PTR_STAT")
  | .PTR_CRC => (12, 0x88, "PTR_CRC")
  | .PTR_POS => (12, 0x8C, "PTR_POS")
  | .PTR_DONE => (12, 0x90, "PTR_DONE")
  | .HBC_CTL => (10, 0x0, "HBC_CTL")
  | .HBC_INIT => (10, 0x8, "HBC_INIT")
  | .HBC_STAT => (10, 0x10, "HBC_STAT")
  | .HBC_UELOG => (10, 0x18, "HBC_UELOG")
  | .HBC_TEST_CTL => (10, 0x40, "HBC_TEST_CTL")
  | .HBC_TEST_ADDR => (10, 0x48, "HBC_TEST_ADDR")
  | .HBC_TEST_DATA => (10, 0x50, "HBC_TEST_DATA")
  | .HBC_REPAIR => (10, 0x100, "HBC_REPAIR")
  | .SNF_CTL => (15, 0x0, "SNF_CTL")
  | .SNF_QPTR => (15, 0x8, "SNF_QPTR")
  | .SNF_STAT => (15, 0x10, "SNF_STAT")
  | .SNF_INTR => (15, 0x18, "SNF_INTR")
  | .SNF_RGN => (15, 0x100, "SNF_RGN")
  | .SNF_PWD => (15, 0x200, "SNF_PWD")
  | .SNF_PCMD => (15, 0x208, "SNF_PCMD")
  | .SNF_SCCTL => (15, 0x300, "SNF_SCCTL")
  | .CPM_PSTATE => (17, 0x0, "CPM_PSTATE")
  | .CPM_WAKE => (17, 0x8, "CPM_WAKE")
  | .CPM_DOM_OFF => (17, 0x100, "CPM_DOM_OFF")
  | .CPM_DOM_STAT => (17, 0x104, "CPM_DOM_STAT")
  | .CPM_RESID => (17, 0x200, "CPM_RESID")
  | .HKP_TS => (16, 0x100, "HKP_TS")
  | .HKP_SUP => (16, 0x140, "HKP_SUP")
  | .HKP_I2C => (16, 0x200, "HKP_I2C")
  | .HKP_TASK => (16, 0x300, "HKP_TASK")
  | .HKP_TRIP => (16, 0x400, "HKP_TRIP")
  | .TLY_CTL => (18, 0x0, "TLY_CTL")
  | .TLY_STAT => (18, 0x8, "TLY_STAT")
  | .TLY_CUR => (18, 0x10, "TLY_CUR")
  | .TLY_WIN => (18, 0x100, "TLY_WIN")
  | .TLY_PE => (18, 0x200, "TLY_PE")
  | .PMC_GCTL => (19, 0xF0000, "PMC_GCTL")
  | .PMC_CYC => (19, 0x0, "PMC_CYC")
  | .PMC_CTL => (19, 0x8, "PMC_CTL")
  | .PMC_CFG => (19, 0x40, "PMC_CFG")
  | .PMC_CNT => (19, 0x100, "PMC_CNT")
  | .PMC_DBG_STAT => (19, 0xF0008, "PMC_DBG_STAT")
  | .PTR_SSRC => (12, 0x40, "PTR_SSRC")
  | .PTR_SDST => (12, 0x48, "PTR_SDST")
  | .PTR_SCNT => (12, 0x50, "PTR_SCNT")
  | .PTR_SCFG => (12, 0x58, "PTR_SCFG")
  | .PTR_SXLV => (12, 0x60, "PTR_SXLV")
  | .VS => (1, 0x8, "VS")
  | .CC => (1, 0x14, "CC")
  | .CSTS => (1, 0x1C, "CSTS")
  | .NSSR => (1, 0x20, "NSSR")
  | .AQA => (1, 0x24, "AQA")
  | .ASQ => (1, 0x28, "ASQ")
  | .ACQ => (1, 0x30, "ACQ")
  | .INTMS => (1, 0xC, "INTMS")
  | .INTMC => (1, 0x10, "INTMC")
  | .CMBLOC => (1, 0x38, "CMBLOC")
  | .CMBSZ => (1, 0x3C, "CMBSZ")
  | .BPINFO => (1, 0x40, "BPINFO")
  | .BPRSEL => (1, 0x44, "BPRSEL")
  | .BPMBL => (1, 0x48, "BPMBL")
  | .CMBMSC => (1, 0x50, "CMBMSC")
  | .CMBSTS => (1, 0x58, "CMBSTS")
  | .CMBEBS => (1, 0x5C, "CMBEBS")
  | .CMBSWTP => (1, 0x60, "CMBSWTP")
  | .CRTO => (1, 0x68, "CRTO")
  | .PMRCAP => (1, 0xE00, "PMRCAP")
  | .PMRCTL => (1, 0xE04, "PMRCTL")
  | .PMRSTS => (1, 0xE08, "PMRSTS")
  | .PMREBS => (1, 0xE0C, "PMREBS")
  | .PMRSWTP => (1, 0xE10, "PMRSWTP")
  | .PMRMSCL => (1, 0xE14, "PMRMSCL")
  | .PMRMSCU => (1, 0xE18, "PMRMSCU")

/-- The registers in the order of the catalogue. -/
def allRegs : List RegName :=
  [.CAP, .HIF_QDB, .HIF_XCFG, .HIF_TWNSTAT, .HIF_CTXFREE, .FAB_PSTAT, .MAP_CTL, .MAP_CACHE_CFG, .MAP_PTAB_CFG,
   .MAP_PTAB_STAT, .MAP_CAP_USABLE, .MAP_CAP_LIVE, .MAP_CAP_CHARGED, .MAP_MISS_CNT, .MAP_QBASE, .MAP_QCTL, .MAP_QTAIL,
   .MAP_QHEAD, .CMP_CTL, .CMP_ENG_CTL, .CMP_ENG_STAT, .CMP_RING_CFG, .CMP_RING_PTR, .PKP_CTL, .PKP_STAT, .PKP_CSEQ,
   .PKP_BRH, .PKP_LERR, .PKP_CRED, .CVY_CTL, .CVY_ACC_CFG, .CVY_STAT, .CVY_RING_CFG, .CVY_RING_PTR, .MED_CTL,
   .MED_ITER_CFG, .MED_ESC_CNT, .HIF_BOOTSTAT, .TWN_CTL, .TWN_STAT, .TWN_STAGE, .TWN_STIME, .TWN_CSTAGE,
   .TWN_DIGEST_IN, .TWN_DIG_STG, .TWN_DIG, .TWN_ROUTE, .TWN_RETCFG, .TWN_LINK, .TWN_IRCFG, .TWN_IRHEAD, .TWN_TVR,
   .TWN_CLAIM, .TWN_SPROD, .CPH_CTL, .CPH_STAT, .CPH_CORE_CTL, .CPH_CORE_STAT, .CPH_RING_CFG, .CPH_RING_PTR, .SEC_MODE,
   .SEC_KSTAT, .MBX_CSR, .MBX_INT, .MBX_RBV, .MBX_RBS_ITEM, .MBX_RBS_OFF, .CIC_CTL, .CIC_STRAY_EOI, .CIC_DB_RING,
   .CIC_SRC_CFG, .CIC_SRC_STAT, .CIC_TGT_CTL, .CIC_CLAIM, .CIC_EOI, .CIC_RPRIO, .CIC_STK, .CIC_CORE_CTL,
   .CIC_CORE_STAT, .CIC_WDT, .PTR_SRC, .PTR_DST, .PTR_CNT, .PTR_CFG, .PTR_XLV, .PTR_CTL, .PTR_STAT, .PTR_CRC, .PTR_POS,
   .PTR_DONE, .HBC_CTL, .HBC_INIT, .HBC_STAT, .HBC_UELOG, .HBC_TEST_CTL, .HBC_TEST_ADDR, .HBC_TEST_DATA, .HBC_REPAIR,
   .SNF_CTL, .SNF_QPTR, .SNF_STAT, .SNF_INTR, .SNF_RGN, .SNF_PWD, .SNF_PCMD, .SNF_SCCTL, .CPM_PSTATE, .CPM_WAKE,
   .CPM_DOM_OFF, .CPM_DOM_STAT, .CPM_RESID, .HKP_TS, .HKP_SUP, .HKP_I2C, .HKP_TASK, .HKP_TRIP, .TLY_CTL, .TLY_STAT,
   .TLY_CUR, .TLY_WIN, .TLY_PE, .PMC_GCTL, .PMC_CYC, .PMC_CTL, .PMC_CFG, .PMC_CNT, .PMC_DBG_STAT, .PTR_SSRC, .PTR_SDST,
   .PTR_SCNT, .PTR_SCFG, .PTR_SXLV, .VS, .CC, .CSTS, .NSSR, .AQA, .ASQ, .ACQ,
   .INTMS, .INTMC, .CMBLOC, .CMBSZ, .BPINFO, .BPRSEL, .BPMBL, .CMBMSC, .CMBSTS, .CMBEBS, .CMBSWTP,
   .CRTO, .PMRCAP, .PMRCTL, .PMRSTS, .PMREBS, .PMRSWTP, .PMRMSCL, .PMRMSCU]

/-- The STATE_ID of a register (R488). -/
def regId (r : RegName) : Nat := (regCat r).1 * 2 ^ 24 + (regCat r).2.1

/-- The register that a STATE_ID names. -/
def regOfId (id : Nat) : Option RegName := allRegs.find? fun r => regId r == id

/-- The instance of an internal register that lies at an address, and the byte of it that the address names. -/
def RegInfo.hit (x : RegInfo) (a : Nat) : Option (Nat × Nat) :=
  if x.bar0 || decide (a < x.base) then none
  else
    let d := a - x.base
    let r := if x.m = 1 then if x.s1 = 0 then (0, d) else (d / x.s1, d % x.s1)
      else (d / x.s1 * x.m + d % x.s1 / x.s2, d % x.s1 % x.s2)
    let fits := x.m = 1 ∨ d % x.s1 / x.s2 < x.m
    if r.1 < x.count ∧ r.2 < x.width / 8 ∧ fits then some r else none

/-- The internal register at an address: its name, its instance, the byte. -/
def regAt (a : Nat) : Option (RegName × Nat × Nat) :=
  allRegs.findSome? fun r => ((regInfo r).hit a).map fun h => (r, h)

/-- The register at an offset of a function's BAR0. -/
def regAtBar0 (off : Nat) : Option (RegName × Nat) :=
  allRegs.findSome? fun r =>
    let x := regInfo r
    if x.bar0 && decide (x.base ≤ off ∧ off < x.base + x.width / 8) then some (r, off - x.base) else none

end Sys2Proof.Machine
end

