-- ==== Sys2Proof/Machine/Porter.lean ====
section
/-! DEFINITION. The porter: transfer sets, shadow sets and their hand-over, trigger credits, pause, the four
transforms and the errors (chapter 16); and the delivery of event-line pulses to their consumers (R26). -/

namespace Sys2Proof.Machine

/-! ### Functions a set may name (R41, R513) -/

/-- R41: the functions of a port: x16 has one port with functions 0–64, 2 × x8 two ports with 33 functions each. -/
def State.funcPort (s : State) (f : Nat) : Option (Nat × Nat) :=
  if s.straps.linkMode then
    if f < 33 then some (0, f) else if f < 66 then some (1, f - 33) else none
  else if f < 65 then some (0, f) else none

/-- R41, R513: does the number (of R410's OWNER bits) name an enabled function? -/
def State.funcEnabled (s : State) (f : Nat) : Bool :=
  match s.funcPort f with
  | none => false
  | some (p, v) => decide (v = 0) || (tgetD p false s.hif.vfEnable && decide (v ≤ tgetD p 0 s.hif.numVfs))

/-! ### The parameters of a set (R512, R513, R521) -/

/-- The unit of class 2 in bytes (R523). -/
def State.shufUnit (s : State) (n : Nat) : Nat := if s.on F.PTR_CFG.QU n then 16384 else 4096

/-- The element width of class 2 (R523). -/
def State.shufWidth (s : State) (n : Nat) : Nat := 2 ^ s.get F.PTR_CFG.W n

/-- R513, R521: is the active set malformed? -/
def State.malformed (s : State) (n : Nat) : Bool :=
  let sp := s.on F.PTR_CFG.SSPACE n
  let dp := s.on F.PTR_CFG.DSPACE n
  let cls := s.get F.PTR_CFG.CLASS n
  let unit := s.get F.PTR_XLV.UNIT n
  let stride := s.get F.PTR_XLV.STRIDE n
  let cnt := s.get F.PTR_CNT.COUNT n
  (sp && dp) || (!sp && decide (2 ^ 40 ≤ s.get F.PTR_SRC.ADDR n)) || (!dp && decide (2 ^ 40 ≤ s.get F.PTR_DST.ADDR n)) ||
    ((sp || dp) && !s.funcEnabled (s.get F.PTR_CFG.FUNC n)) ||
    (decide (cls = 1) && decide (s.get F.PTR_CFG.CRCMODE n = 3)) ||
    (decide (cls = 2) && (decide (s.get F.PTR_CFG.W n = 0) || decide (cnt % s.shufUnit n ≠ 0))) ||
    (decide (cls = 3) && (decide (unit = 0) || decide (unit % 64 ≠ 0) || decide (stride = 0) ||
      decide (stride % 64 ≠ 0) || decide (cnt % unit ≠ 0)))

/-- R524: the offset on the strided side of byte `j` counted from the set's first byte. -/
def strideOff (ways unit stride j : Nat) : Nat :=
  let i := j / unit
  i % ways * stride + i / ways * unit + j % unit

/-- The source address of the `j`-th byte still to move (R515, R524). -/
def State.srcAddr (s : State) (n j : Nat) : Nat :=
  let b := s.get F.PTR_SRC.ADDR n
  if s.get F.PTR_CFG.CLASS n = 3 ∧ s.on F.PTR_CFG.DIR n then
    b + strideOff (s.get F.PTR_XLV.NM1 n + 1) (s.get F.PTR_XLV.UNIT n) (s.get F.PTR_XLV.STRIDE n) (s.get F.PTR_POS.POS n + j)
  else b + j

/-- The destination address of the `j`-th byte still to move (R515, R524). -/
def State.dstAddr (s : State) (n j : Nat) : Nat :=
  let b := s.get F.PTR_DST.ADDR n
  if s.get F.PTR_CFG.CLASS n = 3 ∧ !s.on F.PTR_CFG.DIR n then
    b + strideOff (s.get F.PTR_XLV.NM1 n + 1) (s.get F.PTR_XLV.UNIT n) (s.get F.PTR_XLV.STRIDE n) (s.get F.PTR_POS.POS n + j)
  else b + j

/-! ### Transforms (R167, R522, R523) -/

/-- R167: one unit shuffled into byte planes: out[j·n + i] = in[i·w + j]. -/
def shuffleUnit (w : Nat) (u : Bytes) : Bytes :=
  let n := u.length / w
  (List.range u.length).map fun k => u.getD (k % n * w + k / n) 0

/-- R167: the inverse of the shuffle: out[i·w + j] = in[j·n + i]. -/
def unshuffleUnit (w : Nat) (u : Bytes) : Bytes :=
  let n := u.length / w
  (List.range u.length).map fun k => u.getD (k % w * n + k / w) 0

/-- Each unit of `len` bytes transformed on its own, `k` units (R523). -/
def eachUnit (f : Bytes → Bytes) (len : Nat) : Nat → Bytes → Bytes
  | 0, _ => []
  | k + 1, d => f (d.take len) ++ eachUnit f len k (d.drop len)

/-- The bytes as they are written: class 2 shuffles them, every other class leaves them as they are. -/
def State.transform (s : State) (n : Nat) (d : Bytes) : Bytes :=
  if s.get F.PTR_CFG.CLASS n = 2 then
    eachUnit (if s.on F.PTR_CFG.DIR n then unshuffleUnit (s.shufWidth n) else shuffleUnit (s.shufWidth n))
      (s.shufUnit n) (d.length / s.shufUnit n) d
  else d

/-! ### Moving bytes (R515) -/

/-- The block code (R488) of the register block that an address lies in, for R8. -/
def blockCode (a : Nat) : Nat :=
  if a < 0x100100000 then 0x0B else if a < 0x100200000 then 0x0C else if a < 0x100300000 then 0x06
  else if a < 0x100400000 then 0x05 else if a < 0x100500000 then 0x04 else if a < 0x100700000 then 0x08
  else if a < 0x100800000 then 0x0D else if a < 0x100900000 then 0x0F else if a < 0x100A00000 then 0x10
  else if a < 0x100B00000 then 0x11 else if a < 0x100C00000 then 0x12 else if a < 0x100D00000 then 0x13
  else if a < 0x100E00000 then 0x0A else if a < 0x100F00000 then 0x01 else if a < 0x101000000 then 0x02
  else if a < 0x101100000 then 0x14 else if a < 0x101200000 then 0x03 else if a < 0x101280000 then 0x09
  else if a < 0x101300000 then 0x07 else 0x0E

/-- A byte as an engine's internal read sees it: the ROM, the memory it reaches (R18, R19), and 0 from registers, which no burst may read
(R8). -/
def State.intByte (s : State) (a : Nat) : Byte :=
  if a < 0x40000 then Config.rom a else if s.engineSees a then s.seenByte a else 0

/-- A byte of a burst is written where it reaches memory (R18, R19); the ROM and the register blocks ignore it (R8). -/
def State.intWrite (s : State) (a : Nat) (b : Byte) : State := if s.engineSees a then s.wrByte a b else s

/-- R7, R8: bursts of `k` bytes reach registers; each of up to 256 bytes (R515) counts once, in the block of the first register that it
touches; at reserved offsets alone it raises no error. That a burst is one access is the model's reading (DEDUCED, log entry 105). -/
def State.burstErrs (s : State) (addr : Nat → Nat) (k : Nat) : State :=
  (List.range ((k + 255) / 256)).foldl (fun s i =>
    match (List.range (min 256 (k - 256 * i))).find? fun j => inRegBlock (addr (256 * i + j)) && (regAt (addr (256 * i + j))).isSome with
    | some j => s.accessBad (blockCode (addr (256 * i + j)))
    | none => s) s

/-- The bytes the channel reads: `k` of them, from memory or from what PCIe answers. -/
def State.srcBytes (s : State) (n k : Nat) (input : Bytes) : Bytes :=
  if s.on F.PTR_CFG.SSPACE n then (input ++ List.replicate k 0).take k
  else (List.range k).map fun j => s.intByte (s.srcAddr n j)

/-- Bytes go to their internal destinations; `j` is the place of the first. -/
def State.scatterFrom (s : State) (addr : Nat → Nat) (j : Nat) : Bytes → State
  | [] => s
  | b :: t => (s.intWrite (addr j) b).scatterFrom addr (j + 1) t

/-- PCIe writes of class 3 go out unit by unit, those of the other classes as one run (R515). -/
def State.pcieWrites (s : State) (n : Nat) (d : Bytes) : List Out :=
  let f := s.get F.PTR_CFG.FUNC n
  let u := s.get F.PTR_XLV.UNIT n
  if s.get F.PTR_CFG.CLASS n = 3 ∧ 0 < u then
    (List.range ((d.length + u - 1) / u)).map fun i => .hostWrite f (s.dstAddr n (i * u)) ((d.drop (i * u)).take u)
  else if d = [] then [] else [.hostWrite f (s.dstAddr n 0) d]

/-- The registers after `k` bytes were moved (R515, R524): the contiguous addresses, CNT and POS. -/
def State.ptrStep (s : State) (n k : Nat) : State :=
  let c3 := s.get F.PTR_CFG.CLASS n == 3
  let dir := s.on F.PTR_CFG.DIR n
  let src := if c3 && dir then s.get F.PTR_SRC.ADDR n else s.get F.PTR_SRC.ADDR n + k
  let dst := if c3 && !dir then s.get F.PTR_DST.ADDR n else s.get F.PTR_DST.ADDR n + k
  let s := (s.put F.PTR_SRC.ADDR n src).put F.PTR_DST.ADDR n dst
  (s.put F.PTR_CNT.COUNT n (s.get F.PTR_CNT.COUNT n - k)).put F.PTR_POS.POS n (s.get F.PTR_POS.POS n + k)

/-- Does the set store its bytes? Class 1 mode 2 stores nothing (R522). -/
def State.storesBytes (s : State) (n : Nat) : Bool :=
  !(s.get F.PTR_CFG.CLASS n == 1 && s.get F.PTR_CFG.CRCMODE n == 2)

/-- R524: do regions of a class 3 set overlap: the ways one another, or an internal source and destination? The
destination is then undefined. -/
def State.overlaps (s : State) (n k : Nat) : Bool :=
  let u := s.get F.PTR_XLV.UNIT n
  let ways := s.get F.PTR_XLV.NM1 n + 1
  let stride := s.get F.PTR_XLV.STRIDE n
  let dir := s.on F.PTR_CFG.DIR n
  let contig := if dir then s.get F.PTR_DST.ADDR n else s.get F.PTR_SRC.ADDR n
  let strided := if dir then s.srcAddr n else s.dstAddr n
  s.get F.PTR_CFG.CLASS n == 3 && decide (0 < u) &&
    (decide (1 < ways ∧ stride < (s.get F.PTR_POS.POS n + k + ways * u - 1) / (ways * u) * u) ||
      (!s.on F.PTR_CFG.SSPACE n && !s.on F.PTR_CFG.DSPACE n &&
        (List.range ((k + u - 1) / u)).any fun i =>
          decide (strided (i * u) < contig + k ∧ contig < strided (i * u) + u)))

/-- `k` bytes the manual leaves undefined. -/
def State.freeBytes (s : State) (k : Nat) : Bytes := (List.range k).map (Config.freeByte s.freeNo)

/-- What is stored for the bytes read: the transform of the class, undefined bytes where regions overlap. -/
def State.outBytes (s : State) (n : Nat) (d : Bytes) : Bytes :=
  if s.overlaps n d.length then s.freeBytes d.length else s.transform n d

/-- Undefined bytes stand in memory at `k` places from the `j`-th on. -/
def State.undefAt (s : State) (addr : Nat → Nat) (j k : Nat) : State :=
  ((List.range k).foldl (fun t i =>
    let a := addr (j + i)
    if s.engineSees a then t.wrByte a (Config.freeByte s.freeNo i) else t) s).drawn

/-- `k` bytes are moved under the transform of the active set (R515, R522). In classes 0 to 2 every byte is read before any is written, also
where an internal source and destination overlap, of which the manual says nothing (DESIGN CHOICE, log entry 148). -/
def State.moveBytes (s : State) (n k : Nat) (input : Bytes) : State :=
  let d := s.srcBytes n k input
  let out := s.outBytes n d
  let s := if s.on F.PTR_CFG.SSPACE n then s.drawn else s.drawn.burstErrs (s.srcAddr n) k
  let s' :=
    if s.storesBytes n then
      if s.on F.PTR_CFG.DSPACE n then s.emitAll (s.pcieWrites n out)
      else (s.scatterFrom (s.dstAddr n) 0 out).burstErrs (s.dstAddr n) k
    else s
  let s' := if s.get F.PTR_CFG.CLASS n = 1 then
    s'.setReg .PTR_CRC n ((crcRun ((s.reg .PTR_CRC n).setWidth 32) d).setWidth 64) else s'
  (s'.ptrStep n k).pmc 0x0C 0x13 ((k + 63) / 64)

/-! ### The end of a set (R516, R526 to R528) -/

/-- R516, R526: the completion of channel `n` on line `l`: the pulse and PTR_DONE's advance together, with the sources
an error raises; while the line is full all are held and PEND is set. -/
def State.ptrPulse (s : State) (n l : Nat) (srcs : List Nat) : State :=
  let s := (s.pmc 0x0C 0x11).pmc 0x0C 0x12 (if srcs.isEmpty then 0 else 1)
  (if s.lineFull l then s.put F.PTR_STAT.PEND n 1 else s).complete { line := l, ring := some n, chan := some n, srcs := srcs }

/-- A set ends in error (R526): the code, ERR, the pulse on EEVT, the cursor, source 48 + n. -/
def State.ptrError (s : State) (n code : Nat) : State :=
  let s := (s.put F.PTR_STAT.ERRCODE n code).put F.PTR_STAT.ERR n 1
  s.ptrPulse n (s.get F.PTR_CFG.EEVT n) [48 + n]

/-- A late error (R528): LATE as well as ERR. -/
def State.ptrLate (s : State) (n code : Nat) : State := (s.put F.PTR_STAT.LATE n 1).ptrError n code

/-- The final CRC of class 1 (R522). -/
def State.finalCrc (s : State) (n : Nat) : BitVec 32 := (s.reg .PTR_CRC n).setWidth 32 ^^^ 0xFFFFFFFF

/-- The four bytes that follow the data in the source (R522, mode 1). -/
def State.checkBytes (s : State) (n : Nat) (input : Bytes) (moved : Nat) : Bytes :=
  if s.on F.PTR_CFG.SSPACE n then (input.drop moved ++ [0, 0, 0, 0]).take 4
  else (List.range 4).map fun j => s.intByte (s.srcAddr n j)

/-- R8: the four bytes of a CRC on the side with addresses `addr`: unless they are one aligned word they count as a burst. -/
def State.crcErrs (s : State) (addr : Nat → Nat) : State := if addr 0 % 4 = 0 then s else s.burstErrs addr 4

/-- The CRC is stored after the data (R522, mode 0). -/
def State.appendCrc (s : State) (n : Nat) : State :=
  let b := leBytes 4 (s.finalCrc n).toNat
  if s.on F.PTR_CFG.DSPACE n then s.emit (.hostWrite (s.get F.PTR_CFG.FUNC n) (s.dstAddr n 0) b)
  else (s.scatterFrom (s.dstAddr n) 0 b).crcErrs (s.dstAddr n)

/-- Does the porter reach no block at one of the four bytes of a CRC on the side with addresses `addr` (R18, R19)? -/
def State.crcLost (s : State) (n : Nat) (addr : Nat → Nat) : Bool :=
  (List.range 4).any fun j => !s.decoded (.porter (Fin.ofNat 64 n)) (addr j)

/-- What the set does once CNT is 0 (R516, R522, R525, R528): the CRC stored or checked, the zero-length read, the end.
`moved` 0: nothing was moved (CNT was 0 at its start, R514). `read`: the four bytes to check, where a register holds them. A CRC at an address that no block decodes ends the set with code 1, late
where it is to be stored (R18, R526, R528). -/
def State.ptrFinish (s : State) (n : Nat) (input : Bytes) (moved : Nat) (late : Option Nat) (read : Option Bytes := none) : State :=
  let c1 := s.get F.PTR_CFG.CLASS n == 1
  let mode := s.get F.PTR_CFG.CRCMODE n
  let check := c1 && mode == 1 && decide (0 < moved)
  let append := c1 && mode == 0 && decide (0 < moved)
  if check && !s.on F.PTR_CFG.SSPACE n && s.crcLost n (s.srcAddr n) then s.ptrError n 1
  else if check && read.getD (s.checkBytes n input moved) != leBytes 4 (s.finalCrc n).toNat then
    (if s.on F.PTR_CFG.SSPACE n then s else s.crcErrs (s.srcAddr n)).ptrError n 5
  else if append && !s.on F.PTR_CFG.DSPACE n && s.crcLost n (s.dstAddr n) then s.ptrLate n 1
  else
    let s := if append then s.appendCrc n else if check && !s.on F.PTR_CFG.SSPACE n then s.crcErrs (s.srcAddr n) else s
    let zlr := s.on F.PTR_CFG.ZLR n && s.on F.PTR_CFG.DSPACE n && decide (0 < moved)
    let s := if zlr then s.send (.zeroRead (s.get F.PTR_CFG.FUNC n) (s.dstAddr n 0 - 1)) else s
    match late with
    | some code =>
      let s := if s.on F.PTR_CFG.DSPACE n || !s.storesBytes n then s
        else s.undefAt (fun j => s.dstAddr n 0 - 1 - j) 0 (min 256 moved)
      let s := s.ptrLate n code
      if zlr then s.raise 186 else s
    | none => s.ptrPulse n (s.get F.PTR_CFG.EVT n) []

/-! ### Starting and taking sets (R514, R517) -/

/-- A set starts on channel `n` (R514, R517): POS counts anew; a malformed set ends with code 6 and moves nothing; a set
with CNT 0 ends at once; any other runs. -/
def State.startSet (s : State) (n : Nat) : State :=
  let s := ((s.put F.PTR_POS.POS n 0).put F.PTR_STAT.IDLE n 0).pmc 0x0C 0x10
  if s.malformed n then s.ptrError n 6
  else
    let s := if s.get F.PTR_CFG.CLASS n = 1 ∧ !s.on F.PTR_CFG.CRCCONT n then s.setReg .PTR_CRC n 0xFFFFFFFF else s
    if s.get F.PTR_CNT.COUNT n = 0 then s.ptrFinish n [] 0 none else s

/-- May the channel take up a set: idle, EN 1, ERR 0, PAUSE 0 (R514, R517)? -/
def State.ptrReady (s : State) (n : Nat) : Bool :=
  s.on F.PTR_STAT.IDLE n && s.on F.PTR_CTL.EN n && !s.on F.PTR_STAT.ERR n && !s.on F.PTR_CTL.PAUSE n

/-- PORTER_START: the active set runs, or the write is ignored (R514). -/
def execPorterStart (n : Fin 64) (s : State) : Res := s.awake <|
  .next (if s.domHeld 109 then s.gateKeep (.porter n) else if s.ptrReady n then s.startSet n else s)

/-- R517: may channel `n` take its shadow set? -/
def State.canTake (s : State) (n : Nat) : Bool :=
  s.ptrReady n && s.on F.PTR_CTL.COMMIT n &&
    (decide (s.get F.PTR_CTL.TEVT n < 16) || decide (0 < s.get F.PTR_CTL.TCRED n))

/-- R517, R519: the take: the shadow set becomes the active set, COMMIT clears, POS is 0, TAKES goes up, a trigger credit
is spent where a line is named, and the set starts. The shadow registers keep their values. -/
def State.takeSet (s : State) (n : Nat) : State :=
  let s := (s.setReg .PTR_SRC n (s.reg .PTR_SSRC n)).setReg .PTR_DST n (s.reg .PTR_SDST n)
  let s := (s.setReg .PTR_CNT n (s.reg .PTR_SCNT n)).setReg .PTR_CFG n (s.reg .PTR_SCFG n)
  let s := s.setReg .PTR_XLV n (s.reg .PTR_SXLV n)
  let s := (s.put F.PTR_CTL.COMMIT n 0).put F.PTR_STAT.TAKES n (s.get F.PTR_STAT.TAKES n + 1)
  let s := if s.get F.PTR_CTL.TEVT n < 16 then s else s.put F.PTR_CTL.TCRED n (s.get F.PTR_CTL.TCRED n - 1)
  s.startSet n

/-- SHADOW_TAKE: the channel takes its committed shadow set when it can (R517). -/
def execShadowTake (n : Fin 64) (s : State) : Res := s.awake <| .next (if s.domHeld 109 then s.gateShut else if s.canTake n then s.takeSet n else s)

/-- The shadow register with index `k`, in the order of the offsets 0x40 to 0x60. -/
def shadowReg (k : Nat) : RegName :=
  match k with
  | 0 => .PTR_SSRC
  | 1 => .PTR_SDST
  | 2 => .PTR_SCNT
  | 3 => .PTR_SCFG
  | _ => .PTR_SXLV

/-- The bits of a register that its fields cover (R7: writes to the rest are ignored). -/
def fieldMask (r : RegName) : Nat :=
  (regInfo r).fields.foldl (fun m f => m ||| (2 ^ (f.1 + 1) - 2 ^ f.2.1)) 0

/-- A whole register is written, its reserved bits staying 0 (R7). -/
def State.writeReg (s : State) (r : RegName) (i : Nat) (v : BitVec 64) : State :=
  s.setReg r i (BitVec.ofNat 64 (v.toNat &&& fieldMask r))

/-- SHADOW_WRITE: the value lands in the shadow; LASTW says whether that set is committed (R518). -/
def execShadowWrite (n : Fin 64) (reg : Fin 5) (val : BitVec 64) (s : State) : Res := s.awake <|
  .next ((s.writeReg (shadowReg reg) n val).put F.PTR_STAT.LASTW n (s.get F.PTR_CTL.COMMIT n))

/-- PORTER_COMMIT: the shadow set is committed (R517). -/
def execPorterCommit (n : Fin 64) (s : State) : Res := s.awake <| .next (s.put F.PTR_CTL.COMMIT n 1)

/-- R519: a pulse on the channel's trigger line adds a credit, or sets TOVF at 15. -/
def State.trigger (s : State) (n : Nat) : State :=
  if s.get F.PTR_CTL.TEVT n < 16 then s
  else if s.get F.PTR_CTL.TCRED n = 15 then s.put F.PTR_STAT.TOVF n 1
  else s.put F.PTR_CTL.TCRED n (s.get F.PTR_CTL.TCRED n + 1)

/-- TRIGGER_PULSE (R519). -/
def execTriggerPulse (n : Fin 64) (s : State) : Res := s.awake <| .next (s.trigger n)

/-! ### A running set ends (R516, R526 to R528) -/

/-- Does a set run on the channel: not idle, its end pulse not held? -/
def State.ptrRuns (s : State) (n : Nat) : Bool := !s.on F.PTR_STAT.IDLE n && !s.on F.PTR_STAT.PEND n

/-- The first byte of the `k` still to move whose source or destination no block decodes (R526, code 1). -/
def State.firstUndecoded (s : State) (n k : Nat) (who : Initiator) : Option Nat :=
  (List.range k).find? fun j =>
    (!s.on F.PTR_CFG.SSPACE n && !s.decoded who (s.srcAddr n j)) ||
    (!s.on F.PTR_CFG.DSPACE n && s.storesBytes n && !s.decoded who (s.dstAddr n j))

/-- The first byte of the `k` still to move that lies in HBM word `w` (R526, code 4). -/
def State.firstInWord (s : State) (n k w : Nat) : Nat :=
  ((List.range k).find? fun j => s.srcAddr n j / 8 == w).getD 0

/-- The source words that carry errors are read under the codes (R534, R537). -/
def State.readSource (s : State) (n k : Nat) : State × Option Nat :=
  if s.on F.PTR_CFG.SSPACE n then (s, none)
  else
    let ws := (s.hbm.err.filter fun e => (List.range k).any fun j => s.srcAddr n j / 8 == e.1).map fun e => e.1
    ws.foldl (fun (acc : State × Option Nat) w =>
      match acc.2 with
      | some _ => acc
      | none =>
        let r := acc.1.hbcRead w
        (r.1, if r.2.poisoned then some w else none)) (s, none)

/-- A failing access: the bytes before it were moved, the registers stand at it, the bytes from there on are undefined
at an internal destination, and the set ends with `code` (R527). -/
def State.ptrFailAt (s : State) (n at_ code : Nat) (input : Bytes) : State :=
  let s := s.moveBytes n at_ input
  let s := if s.on F.PTR_CFG.DSPACE n || !s.storesBytes n then s
    else s.undefAt (s.dstAddr n) 0 (s.get F.PTR_CNT.COUNT n)
  s.ptrError n code

/-! ### Pause, error clearing, disabling (R520, R527, R529) -/

/-- PORTER_PAUSE: PAUSE is written; clearing it resumes the set from the registers (R520). -/
def execPorterPause (n : Fin 64) (on : Bool) (s : State) : Res := s.awake <|
  .next (if on then s.put F.PTR_CTL.PAUSE n 1 else (s.put F.PTR_CTL.PAUSE n 0).put F.PTR_STAT.PAUSED n 0)

/-- Bytes that a pause leaves moved: whole units in class 2 (R520). -/
def State.pausedCount (s : State) (n moved : Nat) : Nat :=
  let k := min moved (s.get F.PTR_CNT.COUNT n)
  if s.get F.PTR_CFG.CLASS n = 2 then k / s.shufUnit n * s.shufUnit n else k

/-- PORTER_ERR_CLEAR: ERR is cleared and the channel is idle again; the failed set is not retried (R527). -/
def execPorterErrClear (n : Fin 64) (s : State) : Res := s.awake <| .next (s.put F.PTR_STAT.ERR n 0)

/-- PORTER_DISABLE: EN is cleared; a running set still ends by PORTER_SET_END, and nothing is taken or started
(R529). -/
def execPorterDisable (n : Fin 64) (s : State) : Res := s.awake <| .next (s.put F.PTR_CTL.EN n 0)

/-! ### Event-line delivery (R25, R26, R519) -/

/-- Every porter channel that watches line `l` gets a trigger credit. -/
def State.triggerLine (s : State) (l : Nat) : State :=
  (List.range 64).foldl (fun s n => if s.get F.PTR_CTL.TEVT n = l then s.trigger n else s) s

/-- The first held pulse of line `l` leaves the list of held ones. -/
def dropHeld (l : Nat) : List HeldPulse → List HeldPulse
  | [] => []
  | h :: t => if h.line = l then t else h :: dropHeld l t

/-- R25: space on line `l` lets its first held producer complete. -/
def State.acceptHeld (s : State) (l : Nat) : State :=
  match s.evt.held.find? fun h => h.line == l with
  | none => s
  | some h =>
    if 32 ≤ s.lineCount l then s
    else ({ s with evt := { s.evt with held := dropHeld l s.evt.held } }).accept h

/-- A pulse of line `l` is delivered: one fewer waits, the consumers see it, a held producer completes. -/
def deliverLine (l : Nat) (s : State) : State :=
  if s.lineCount l = 0 then s
  else
    let s := { s with evt := { s.evt with q := tput l (s.lineCount l - 1) s.evt.q } }
    ((if 16 ≤ l then s.triggerLine l else s).acceptHeld l)

/-- EVENT_LINE_DELIVERY (R26). -/
def execEventLineDelivery (line : Fin 256) (s : State) : Res := s.awake <| .next (deliverLine line s)

end Sys2Proof.Machine
end

