-- ==== Sys2Proof/Machine/Snor.lean ====
section
/-! DEFINITION. Secure NOR: the descriptor queue, the order of operations and their suspension, programs and erases with
remapping, protected regions and their passwords (chapter 18). -/

namespace Sys2Proof.Machine

/-! ### Regions (R552, R553, R565) -/

/-- The region that holds a NOR offset. -/
def norRegion (a : Nat) : Option Nat :=
  (List.range 11).find? fun r =>
    let sp := snfRegionSpan r
    decide (sp.1 * 65536 ≤ a ∧ a < (sp.1 + sp.2) * 65536)

/-- R552: is the region classed twin-visible? -/
def regionTwin (r : Nat) : Bool := r == 0 || r == 1 || r == 3 || r == 4 || r == 5 || r == 6 || r == 8

/-- R565, R552: does region `r` refuse a program or erase written by core `c`? Regions 9 and 10 are the engine's. -/
def State.norRefuses (s : State) (r c : Nat) : Bool :=
  r == 9 || r == 10 || s.on F.SNF_STAT.CFGERR ||
    (s.on F.SNF_RGN.PROT r && !(s.on F.SNF_RGN.OPEN r && s.get F.SNF_RGN.OPENER r == c))

/-! ### Descriptors (R554, R555) -/

/-- The bytes of NOR that a descriptor names. -/
def NorDesc.span (d : NorDesc) : Nat × Nat :=
  match d.op with
  | 3 => (d.d.nor, 65536)
  | 4 => (d.d.nor, d.d.count * 65536)
  | _ => (d.d.nor, d.d.len)

/-- Do two spans of NOR bytes meet? -/
def spansMeet (a b : Nat × Nat) : Bool := decide (a.1 < b.1 + b.2 ∧ b.1 < a.1 + a.2)

/-- R555: is the descriptor malformed? -/
def NorDesc.malformed (x : NorDesc) : Bool :=
  let d := x.d
  decide (8 ≤ d.flags.toNat) || !d.mbz || decide (2 ^ 40 ≤ d.addr) || decide (0x4000000 < d.nor + x.span.2) ||
  match x.op with
  | 1 => decide (d.len = 0 ∨ 16777216 < d.len ∨ d.count ≠ 0)
  | 2 => decide (d.nor % 8 ≠ 0 ∨ d.len < 8 ∨ 256 < d.len ∨ d.len % 8 ≠ 0 ∨ d.nor % 256 + d.len > 256 ∨ d.count ≠ 0)
  | 3 => decide (d.nor % 65536 ≠ 0 ∨ d.len ≠ 0 ∨ d.count ≠ 0)
  | 4 => decide (d.nor % 65536 ≠ 0 ∨ d.len ≠ 0 ∨ d.count = 0 ∨ 128 < d.count) ||
      (norRegion d.nor).isNone || norRegion d.nor != norRegion (d.nor + d.count * 65536 - 1)
  | _ => true

/-- A read or program with PRI set (R557). -/
def NorDesc.urgent (x : NorDesc) : Bool := (x.op == 1 || x.op == 2) && x.d.flags.getLsbD 0

/-- An ended descriptor (R556). -/
def NorDesc.ended (x : NorDesc) : Bool := x.status == 2 || decide (4 ≤ x.status)

/-- The running descriptor. -/
def State.norRunning (s : State) : Option NorDesc := s.nor.descs.find? fun x => x.status == 1

/-- The suspended erase. -/
def State.norSuspended (s : State) : Option NorDesc := s.nor.descs.find? fun x => x.status == 3

/-- The erase that a descriptor taken now finds suspended: one that is suspended, or a running one that it suspends. -/
def State.norParked (s : State) : Option NorDesc :=
  s.nor.descs.find? fun x => x.status == 3 || (x.status == 1 && decide (3 ≤ x.op))

/-- The first queued descriptor with PRI that may be taken ahead. -/
def State.norUrgent (s : State) : Option NorDesc := s.nor.descs.find? fun x => x.status == 0 && x.urgent

/-- The first queued descriptor. -/
def State.norNext (s : State) : Option NorDesc := s.nor.descs.find? fun x => x.status == 0

/-- The descriptor with index `i` is replaced. -/
def State.norSet (s : State) (i : Nat) (f : NorDesc → NorDesc) : State :=
  { s with nor := { s.nor with descs := s.nor.descs.map fun x => if x.idx = i then f x else x } }

/-- How many descriptors at the front of the queue have ended. -/
def endedFront : List NorDesc → Nat
  | [] => 0
  | x :: t => if x.ended then endedFront t + 1 else 0

/-- R554, R555: a descriptor ends with a status: its slot shows it, the cursor of claim 0x0A0 counts the descriptors
ended in queue order, its line is pulsed under FLAGS bit 1, and sources 212 and 213 are raised. -/
def State.norEnd (s : State) (x : NorDesc) (status wdone : Nat) : State :=
  let x := { x with status := status, wdone := wdone }
  let s := s.norSet x.idx fun _ => x
  let k := endedFront s.nor.descs
  let s := { s with nor := { s.nor with descs := s.nor.descs.drop k, slots := tput (x.idx % 64) x s.nor.slots } }
  let line := if x.d.flags.getLsbD 1 then s.get F.SNF_CTL.EVT else 0
  let srcs := (if x.d.flags.getLsbD 2 then [212] else []) ++ (if 4 ≤ status ∧ status ≤ 7 then [213] else [])
  let s := (s.pmc 0x0F 0x11).pmc 0x0F 0x12 (if 4 ≤ status then 1 else 0)
  s.complete { line := line, ring := (if 0 < k then some 0xA0 else none), steps := k, srcs := srcs }

/-- The status with which a descriptor ends before it starts: 7 malformed, or names the sector of a suspended erase; 5
protected and not open to the writing core (R556, R560, R565). -/
def State.norReject (s : State) (x : NorDesc) : Option Nat :=
  if x.malformed then some 7
  else if (match s.norParked with | some e => spansMeet x.span e.span | none => false) then some 7
  else if x.op = 1 then none
  else match norRegion x.d.nor with
    | some r => if s.norRefuses r x.d.core then some 5 else none
    | none => some 5

/-- R346, R553: the output that a program or erase of a twin-visible region is. -/
def State.norOut (s : State) (x : NorDesc) : Option Out :=
  match norRegion x.d.nor with
  | some r =>
    if x.op ≠ 1 ∧ regionTwin r then
      some (.nor x.idx x.op x.d.nor x.span.2 (if x.op = 2 then crc32c (s.rdBytes x.d.addr x.d.len) else 0))
    else none
  | none => none

/-- R557: the descriptor that the engine takes up now, if any. -/
def State.norChoice (s : State) : Option NorDesc :=
  match s.norRunning with
  | some r => if r.op = 1 ∨ r.op = 2 then none else s.norUrgent
  | none =>
    match s.norSuspended with
    | some e => match s.norUrgent with
      | some u => some u
      | none => some e
    | none =>
      if s.on F.SNF_CTL.EN then
        match s.norUrgent with
        | some u => some u
        | none => s.norNext
      else none

/-- A chosen descriptor starts: a running erase is suspended for it, a suspended one resumes. -/
def State.norStart (s : State) (x : NorDesc) : State :=
  let s := match s.norRunning with
    | some r => (s.norSet r.idx fun d => { d with status := 3 }).put F.SNF_STAT.SUSP 0 1
    | none => s
  let s := if x.status = 3 then s.put F.SNF_STAT.SUSP 0 0 else s.pmc 0x0F 0x10
  let s := (s.norSet x.idx fun d => { d with status := 1 }).put F.SNF_STAT.IDLE 0 0
  match if x.status = 3 then none else s.norOut x with
  | some o => s.emit o
  | none => s

/-- The engine takes up what it can (R557, R561): descriptors that end before they start are passed over, `n` of them at
most; an output that must be held (R360, R365) does not start. -/
def State.norKickN (s : State) : Nat → State
  | 0 => s
  | n + 1 =>
    match s.norChoice with
    | none => s
    | some x =>
      if x.status = 3 then s.norStart x
      else
        match s.norReject x with
        | some st =>
          (s.norEnd x st 0).norKickN n
        | none => if (s.norOut x).isSome && s.mustHold 8 then s else s.norStart x

/-- HEAD: the index of the next descriptor taken in queue order (SNF_QPTR). -/
def State.norHead (s : State) : State :=
  match s.norNext with
  | some x => s.put F.SNF_QPTR.HEAD 0 x.idx
  | none => s.put F.SNF_QPTR.HEAD 0 (s.get F.SNF_QPTR.TAIL)

/-- The engine takes up what it can, and goes idle when nothing runs. -/
def State.norKick (s : State) : State :=
  let s := (s.norKickN (s.nor.descs.length + 1)).norHead
  if s.norRunning.isNone && s.norSuspended.isNone then s.put F.SNF_STAT.IDLE 0 1 else s

/-- R554: firmware writes a descriptor and advances TAIL; a write to a slot between HEAD and TAIL is ignored and
counted. -/
def norQueue (op : Nat) (d : SnfDesc) (s : State) : State :=
  let tail := s.get F.SNF_QPTR.TAIL
  if 64 ≤ (tail + 65536 - s.get F.SNF_QPTR.HEAD) % 65536 then s.accessBad 0x0F
  else
    let x : NorDesc := { idx := tail, op := op, d := d }
    let s := { s with nor := { s.nor with descs := s.nor.descs ++ [x] } }
    (s.put F.SNF_QPTR.TAIL 0 (tail + 1)).norKick

/-- NOR_READ (R557). -/
def execNorRead (d : SnfDesc) (s : State) : Res := s.awake <| .next (norQueue 1 d s)

/-- NOR_PROGRAM (R559). -/
def execNorProgram (d : SnfDesc) (s : State) : Res := s.awake <| .next (norQueue 2 d s)

/-- NOR_ERASE_SECTOR (R557). -/
def execNorEraseSector (d : SnfDesc) (s : State) : Res := s.awake <| .next (norQueue 3 d s)

/-- NOR_ERASE_SPAN (R557). -/
def execNorEraseSpan (d : SnfDesc) (s : State) : Res := s.awake <| .next (norQueue 4 d s)

/-! ### Operations (R559, R560) -/

/-- A byte as a read returns it: undefined where an interruption left it so (R562). -/
def State.norSeen (s : State) (a : Nat) : Byte :=
  if s.nor.undef.any fun r => decide (r.1 ≤ a ∧ a < r.1 + r.2) then Config.freeByte s.freeNo a else s.norByte a

/-- May the engine's transfer for this descriptor reach its buffer (R551: SC's window for a descriptor of SC)? -/
def State.norBuffer (s : State) (x : NorDesc) : Bool :=
  (List.range x.d.len).all fun j => s.decoded (.core x.d.core) (x.d.addr + j)

/-- A read ends: the bytes go to the buffer; a buffer that no block decodes is malformed. -/
def State.norReadEnd (s : State) (x : NorDesc) : State :=
  if s.norBuffer x then
    let b := (List.range x.d.len).map fun j => s.norSeen (x.d.nor + j)
    ((s.wrBytes x.d.addr b).drawn).norEnd x 2 0
  else s.norEnd x 7 0

/-- R559: the words of a program, one after another; answers the state, the words programmed, and whether it was
refused. A word equal to the stored one is skipped. -/
def State.norWords (s : State) (a : Nat) : Nat → Bytes → Nat → State × Nat × Bool
  | 0, _, k => (s, k, false)
  | n + 1, d, k =>
    let new := d.take 8
    let old := s.norBytes a 8
    if new = old then s.norWords (a + 8) n (d.drop 8) k
    else if BitVec.ofNat 64 (leNat new) &&& ~~~BitVec.ofNat 64 (leNat old) ≠ 0 ∨ 2 ≤ tgetD (a / 8) 0 s.nor.progs then (s, k, true)
    else
      let s := s.setNorBytes a new
      let s := { s with nor := { s.nor with progs := tput (a / 8) (tgetD (a / 8) 0 s.nor.progs + 1) s.nor.progs } }
      s.norWords (a + 8) n (d.drop 8) (k + 1)

/-- R560: a failed verify remaps the sector to a spare; with none left the operation ends with STATUS 6. -/
def State.norRemap (s : State) (sector : Nat) : Option State :=
  let left := s.get F.SNF_STAT.SPARES
  if left = 0 then none
  else
    let s := (s.put F.SNF_STAT.SPARES 0 (left - 1)).bump F.SNF_STAT.REMAPS 0
    some ({ s with nor := { s.nor with remap := tput sector (831 + 193 - left) s.nor.remap } }.raise 214)

/-- A program ends. -/
def State.norProgramEnd (s : State) (x : NorDesc) (verifyFailed : Bool) : State :=
  if !s.norBuffer x then s.norEnd x 7 0
  else
    let src := s.hbcReadRun x.d.addr x.d.len
    if src.2.isSome then src.1.norEnd x 7 0
    else
      let s := src.1
      match (if verifyFailed then s.norRemap (x.d.nor / 65536) else some s) with
      | none =>
        ({ s with nor := { s.nor with undef := s.nor.undef ++ [x.span] } }).norEnd x 6 0
      | some s =>
        let r := s.norWords x.d.nor (x.d.len / 8) ((List.range x.d.len).map fun k => s.seenByte (x.d.addr + k)) 0
        r.1.norEnd x (if r.2.2 then 4 else 2) r.2.1

/-- A span of NOR is erased: its words read all ones and may be programmed anew. -/
def State.norErase (s : State) (sp : Nat × Nat) : State :=
  let inside := fun a => decide (sp.1 ≤ a ∧ a < sp.1 + sp.2)
  { s with
    snor := s.snor.filter fun e => !inside e.1
    nor := { s.nor with
      progs := s.nor.progs.filter fun e => !inside (8 * e.1)
      undef := s.nor.undef.filter fun r => !(inside r.1 && decide (r.1 + r.2 ≤ sp.1 + sp.2)) } }

/-- An erase ends. -/
def State.norEraseEnd (s : State) (x : NorDesc) (verifyFailed : Bool) : State :=
  match (if verifyFailed then s.norRemap (x.d.nor / 65536) else some s) with
  | none => ({ s with nor := { s.nor with undef := s.nor.undef ++ [x.span] } }).norEnd x 6 0
  | some s => (s.norErase x.span).norEnd x 2 0

/-- The running operation ends. -/
def State.norOpEnd (s : State) (x : NorDesc) (verifyFailed : Bool) : State :=
  match x.op with
  | 1 => s.norReadEnd x
  | 2 => s.norProgramEnd x verifyFailed
  | _ => s.norEraseEnd x verifyFailed

/-- NOR_OPERATION_END: the running operation ends and the engine takes the next by R557. -/
def execNorOperationEnd (verifyFailed : Bool) (s : State) : Res := s.awake <|
  .next (match s.norRunning with
    | some x => (s.norOpEnd x verifyFailed).norKick
    | none => s)

/-- NOR_ENGINE_DISABLE: EN is cleared; what runs, or is suspended, still ends (R561). -/
def execNorEngineDisable (s : State) : Res := s.awake <| .next ((s.put F.SNF_CTL.EN 0 0).norKick)

/-- R564: on thermal shutdown a running program goes on; an erase is abandoned, and every queued descriptor ends with
STATUS 9. -/
def State.norThermal (s : State) : State :=
  let er := s.nor.descs.filter fun x => (x.status == 1 || x.status == 3) && decide (3 ≤ x.op)
  let s := er.foldl (fun s x =>
    ({ s with nor := { s.nor with undef := s.nor.undef ++ [x.span], abandoned := some x } }).norEnd x 8 0) s
  let q := s.nor.descs.filter fun x => x.status == 0
  let s := q.foldl (fun s x => s.norEnd x 9 0) s
  let s := s.put F.SNF_STAT.SUSP 0 0
  if er.isEmpty && q.isEmpty then s else s.raise 218

/-! ### Protected regions (R565, R566) -/

/-- R566: the password that the resident security firmware derives for a region: the first 8 bytes of SHA-384("NORP" ‖ DUK ‖ region).
The region is hashed as one byte (DESIGN CHOICE, log entry 142). -/
def regionPassword (r : Nat) : BitVec 64 :=
  BitVec.ofNat 64 (leNat ((sha384 ([0x4E, 0x4F, 0x52, 0x50] ++ leBytes 32 Config.duk.toNat ++ leBytes 1 r)).take 8))

/-- The password stored for a region: the last one set, or the one the controller was made with. -/
def State.passwordOf (s : State) (r : Nat) : BitVec 64 := tgetD r (regionPassword r) s.nor.pwd

/-- The open command: the password in SNF_PWD against the stored one; a region in LOCKOUT ignores it. -/
def openRegion (core region : Nat) (s : State) : State :=
  if s.on F.SNF_RGN.LOCKOUT region || s.on F.SNF_STAT.CFGERR then s
  else if s.reg .SNF_PWD 0 = s.passwordOf region then
    ((s.put F.SNF_RGN.ATTEMPTS region 0).put F.SNF_RGN.OPEN region 1).put F.SNF_RGN.OPENER region core
  else
    let n := s.get F.SNF_RGN.ATTEMPTS region + 1
    let s := (s.put F.SNF_RGN.ATTEMPTS region n).raise 215
    if 16 ≤ n then (s.put F.SNF_RGN.LOCKOUT region 1).raise 216 else s

/-- OPEN (R565). -/
def execOpenRegion (core : Fin 24) (region : Fin 16) (s : State) : Res := s.awake <| .next (openRegion core region s)

/-- CLOSE (R565). -/
def execCloseRegion (_core : Fin 24) (region : Fin 16) (s : State) : Res := s.awake <|
  .next ((s.put F.SNF_RGN.OPEN region 0).put F.SNF_RGN.OPENER region 0)

/-- SET_PASSWORD: while the region is open, SNF_PWD is stored as its password and PROT is set (R565). -/
def execSetPassword (_core : Fin 24) (region : Fin 16) (s : State) : Res := s.awake <|
  .next (if s.on F.SNF_RGN.OPEN region then
    ({ s with nor := { s.nor with pwd := tput region (s.reg .SNF_PWD 0) s.nor.pwd } }).put F.SNF_RGN.PROT region 1
  else s)

/-- LOCKOUT and ATTEMPTS of region `r` are cleared. -/
def State.unlock (s : State) (r : Nat) : State := (s.put F.SNF_RGN.LOCKOUT r 0).put F.SNF_RGN.ATTEMPTS r 0

/-- CLRLOCK: a write of SNF_SCCTL; an access by any initiator other than SC is undecoded (R18). -/
def execClrlock (who : Initiator) (mask : BitVec 16) (s : State) : Res := s.awake <|
  .next (if who = .core 22 then
    (List.range 16).foldl (fun s r => if mask.getLsbD r then s.unlock r else s) s
  else s.undecoded who)

end Sys2Proof.Machine
end

