-- ==== Sys2Proof/Machine/Setting.lean ====
section
/-! DEFINITION. The settings (R477, R593): their defaults, ranges and values. -/

namespace Sys2Proof.Machine

/-- What a setting accepts and how it is kept. -/
structure SetInfo where
  id : Nat
  nindex : Nat := 1
  vlen : Nat := 4
  local_ : Bool := false
  atReset : Bool := false
  lo : Nat
  hi : Nat
  step : Nat := 1
deriving DecidableEq, Repr

/-- The settings of R477 and R593. CTX_FLOOR and CTX_CAP have the indices 0–65 and 0x100. -/
def settingTable : List SetInfo :=
  [ { id := 0x0001, nindex := 67, lo := 0, hi := 1048576 },
    { id := 0x0002, nindex := 67, lo := 0, hi := 1048576 },
    { id := 0x0003, atReset := true, lo := 256, hi := 4096, step := 256 },
    { id := 0x0004, atReset := true, lo := 1048576, hi := 16777216 },
    { id := 0x0005, atReset := true, lo := 24, hi := 30 },
    { id := 0x0006, lo := 10, hi := 600 },
    { id := 0x0007, lo := 7, hi := 180 },
    { id := 0x0008, lo := 500, hi := 6000 },
    { id := 0x0009, lo := 1500, hi := 13000 },
    { id := 0x000A, lo := 1500, hi := 13000 },
    { id := 0x000B, lo := 0, hi := 0xFFFFFFFF },
    { id := 0x000C, lo := 0, hi := 1 },
    { id := 0x000D, nindex := 32, lo := 0, hi := 7 },
    { id := 0x000E, lo := 4, hi := 64 },
    { id := 0x000F, lo := 8, hi := 64 },
    { id := 0x0010, lo := 256, hi := 4096 },
    { id := 0x0011, nindex := 62, vlen := 223, lo := 0, hi := 0 },
    { id := 0x0020, nindex := 2, local_ := true, lo := 256, hi := 32768 },
    { id := 0x0021, nindex := 2, local_ := true, lo := 10, hi := 1000 },
    { id := 0x0022, nindex := 2, local_ := true, lo := 50, hi := 5000 },
    { id := 0x0023, nindex := 2, local_ := true, lo := 100, hi := 40000 },
    { id := 0x0024, nindex := 2, local_ := true, lo := 100, hi := 10000 },
    { id := 0x0025, nindex := 2, local_ := true, lo := 4, hi := 1000 },
    { id := 0x0026, nindex := 2, local_ := true, lo := 0, hi := 0xFF },
    { id := 0x0030, local_ := true, lo := 60, hi := 86400 },
    { id := 0x0040, lo := 0, hi := 1 },
    { id := 0x0041, lo := 100, hi := 1000000 },
    { id := 0x0042, lo := 0, hi := 1 },
    { id := 0x0043, lo := 10, hi := 86400 },
    { id := 0x0044, nindex := 8, lo := 1, hi := 10000 },
    { id := 0x0045, nindex := 8, lo := 1, hi := 86400 },
    { id := 0x0046, nindex := 8, lo := 0, hi := 1 } ]

/-- The table's line for an identifier. -/
def settingInfo (id : Nat) : Option SetInfo := settingTable.find? fun x => x.id == id

/-- The default of a setting (R477, R593). -/
def settingDefault (id index : Nat) : Nat :=
  match id with
  | 0x0001 => if index = 0x100 then 262144 else 4096
  | 0x0002 => 262144
  | 0x0003 => 1024
  | 0x0004 => 16777216
  | 0x0005 => 30
  | 0x0006 => 120
  | 0x0007 => 30
  | 0x0008 => 2000
  | 0x0009 => 6000
  | 0x000A => 1500
  | 0x000C => 1
  | 0x000E => 16
  | 0x000F => 32
  | 0x0010 => 2048
  | 0x0020 => 4096
  | 0x0021 => 55
  | 0x0022 => 300
  | 0x0023 => 4000
  | 0x0024 => 100
  | 0x0025 => 50
  | 0x0026 => 0xFF
  | 0x0030 => 3600
  | 0x0040 => 1
  | 0x0041 => 2000
  | 0x0042 => 1
  | 0x0043 => 300
  | 0x0044 => 50
  | 0x0045 => 60
  | 0x0046 => 1
  | _ => 0

/-- The key of a setting. -/
def settingKey (id index : Nat) : Nat := id * 65536 + index

/-- The value of a setting in force. -/
def State.setting (s : State) (id : Nat) (index : Nat := 0) : Nat :=
  tgetD (settingKey id index) (settingDefault id index) s.setv.val

/-- R480: an item that counts in SGEN has changed. -/
def State.sgenUp (s : State) : State := { s with sgen := s.sgen + 1 }

/-- Bytes padded with zeros, or cut, to a length. -/
def fitTo (n : Nat) (b : Bytes) : Bytes := (b ++ List.replicate (n - b.length) 0).take n

/-- The RELVER of a slot, 0 if it is empty. -/
def State.slotVer (s : State) (k : Nat) : Nat :=
  match tget k s.fw.slots with
  | some x => x.man.relver.toNat
  | none => 0

/-- The boot selector record (R445). -/
def State.selector (s : State) : Bytes :=
  let b := fitTo 60 (leBytes 4 0x4C455342 ++ leBytes 4 s.fw.selSeq ++ leBytes 1 s.fw.active ++
    leBytes 1 (if s.fw.pendingSel then 2 else 1) ++ leBytes 1 s.fw.tries ++ leBytes 1 s.fw.lastfb ++ leBytes 4 s.fw.svnMin ++
    leBytes 8 (s.slotVer 0) ++ leBytes 8 (s.slotVer 1) ++ leBytes 8 s.fw.selDtime.toNat ++ leBytes 2 s.fw.selEpoch.toNat)
  b ++ leBytes 4 (crc32c b).toNat

/-- R445, R552: the boot selector record is written with a change: SEQ, DTIME and the epoch go with it, the copies take turns in their
sectors of the manifest store, and the selector is an item that counts in SGEN. -/
def State.selWrite (s : State) (f : Fw → Fw) : State :=
  let w := f s.fw
  let s := { s with fw := { w with selSeq := w.selSeq + 1, selDtime := s.dtime, selEpoch := s.epoch } }
  (s.norSlot (0x3200000 + 65536 * (s.fw.selSeq % 2)) s.selector).sgenUp

/-- The manifest of the running slot. -/
def State.man (s : State) : Manifest :=
  match tget s.fw.running s.fw.slots with
  | some x => x.man
  | none => {}

end Sys2Proof.Machine
end

