-- ==== Sys2Proof/Machine/Post.lean ====
section
/-! DEFINITION. What reaches hosts and initiators: asynchronous events, notices, completion entries and response
capsules, and the end of a command (chapter 2, and R86 for the fabric). -/

namespace Sys2Proof.Machine

/-! ### Functions and associations -/

/-- Function `f`'s record. -/
def State.func (s : State) (f : Nat) : Func := tgetD f {} s.hif.funcs

/-- Function `f`'s record is replaced. -/
def State.setFunc (s : State) (f : Nat) (v : Func) : State := { s with hif := { s.hif with funcs := tput f v s.hif.funcs } }

/-- Association `a`'s record. -/
def State.assoc (s : State) (a : Nat) : Assoc := tgetD a {} s.fab.assocs

/-- Association `a`'s record is replaced. -/
def State.setAssoc (s : State) (a : Nat) (v : Assoc) : State := { s with fab := { s.fab with assocs := tput a v s.fab.assocs } }

/-- The controller record of a tenant: features, events and masks. -/
def State.ctl (s : State) : Tenant → Func
  | .func f => s.func f
  | .assoc a => (s.assoc a).ctl

/-- A tenant's controller record is replaced. -/
def State.setCtl (s : State) (t : Tenant) (v : Func) : State :=
  match t with
  | .func f => s.setFunc f v
  | .assoc a => s.setAssoc a { s.assoc a with ctl := v }

/-- The tenants that have a controller record: functions, and associations that have not ended. -/
def State.tenants (s : State) : List Tenant :=
  (s.hif.funcs.map fun e => Tenant.func e.1) ++
    s.fab.assocs.filterMap fun e => if e.2.discovery then none else some (.assoc e.1)

/-! ### The tally recorder's latencies (R595, R601) -/

/-- Does the tally recorder accumulate (TLY_CTL.EN, and R598: not once the region is full)? -/
def State.tallyOn (s : State) : Bool := s.on F.TLY_CTL.EN && !s.on F.TLY_STAT.FULL

/-- A 32-bit tally bin goes up and saturates. -/
def satBin (k n : Nat) (t : Tbl Nat) : Tbl Nat := tput k (min 0xFFFFFFFF (tgetD k 0 t + n)) t

/-- R601: the class of a command. -/
def latClass (admin : Bool) (opcode : BitVec 8) : Option Nat :=
  if admin then some 4
  else if opcode = 0x02 then some 0
  else if opcode = 0x01 ∨ opcode = 0x08 then some 1
  else if opcode = 0x00 then some 2
  else if opcode = 0x09 ∨ opcode = 0x0C then some 3 else none

/-- R601: the bin of a latency in µs. -/
def latBin (us : Nat) : Nat := if us < 2 then 0 else min 23 us.log2

/-- A latency is entered in the interval's histogram. -/
def State.tallyLat (s : State) (c : Ctx) : State :=
  match latClass c.admin c.opcode with
  | none => s
  | some k =>
    if s.tallyOn then
      let us := s.elapsed - c.t0
      let cur := s.tly.cur
      let cur := { cur with
        lat := satBin (32 * k + latBin us) 1 cur.lat
        latMax := tput k (max (tgetD k 0 cur.latMax) (min 0xFFFFFFFF us)) cur.latMax }
      { s with tly := { s.tly with cur := cur } }
    else s

/-! ### Completion entries (R43, R75 to R77) -/

/-- Is a completion queue full? -/
def Cq.full (q : Cq) : Bool := decide ((q.tail + 1) % q.size = q.head)

/-- The queue after one more entry. -/
def Cq.adv (q : Cq) : Cq :=
  { q with tail := (q.tail + 1) % q.size, phase := if q.tail + 1 = q.size then !q.phase else q.phase }

/-- The reset value of dword `w` of an MSI-X table entry (R2, PCIe 6.0): a vector is masked until software clears its mask bit. -/
def msixReset (w : Nat) : BitVec 32 := if w % 4 = 3 then 1 else 0

/-- Dword `w` of entry `v` of function `f`'s MSI-X table (R35): 0 and 1 the address, 2 the data, 3 the vector control. -/
def State.msixDword (s : State) (f v w : Nat) : BitVec 32 := tgetD (16384 * f + 4 * v + w) (msixReset w) s.hif.msixTab

/-- The port that a function belongs to. -/
def State.fnPort (s : State) (f : Nat) : Nat := if s.straps.linkMode && decide (33 ≤ f) then 1 else 0

/-- An MSI-X message is sent, or pends while its vector is masked. Its write fails, with source 185 (R81), while the function's PCIe link is
down (DEDUCED, log entry 155). -/
def State.sendMsix (s : State) (f v : Nat) : State :=
  if (s.msixDword f v 3).getLsbD 0 then
    if s.hif.msixPend.contains (f, v) then s
    else { s with hif := { s.hif with msixPend := s.hif.msixPend ++ [(f, v)] } }
  else if !tgetD (s.fnPort f) true s.hif.linkUp then s.raise 185
  else s.send (.msix f v (s.msixDword f v 1 ++ s.msixDword f v 0) (s.msixDword f v 2))

/-- Interrupts of a function's vector that coalesce are sent as one. -/
def State.coalSend (s : State) (f v : Nat) : State :=
  { s with hif := { s.hif with coal := s.hif.coal.filter fun e => !(e.1 == f && e.2.1 == v) } }.sendMsix f v

/-- Features 0x08 and 0x09 (R48, NVMe 2.0c): an entry of an I/O queue counts towards its vector's interrupt, which is sent once more than the
threshold wait, where a time and a threshold are set and the vector does not disable coalescing; the time is that of the millisecond tick. -/
def State.interrupt (s : State) (f cqid v : Nat) : State :=
  let ic := (tgetD 8 0 (s.func f).feat).toNat
  let thr := ic % 256
  let n := match s.hif.coal.find? fun e => e.1 == f && e.2.1 == v with
    | some e => e.2.2
    | none => (0, s.elapsed)
  if cqid = 0 ∨ thr = 0 ∨ ic / 256 % 256 = 0 ∨ (tgetD (9 + 65536 * v) 0 (s.func f).feat).getLsbD 16 = true ∨ thr < n.1 + 1 then s.coalSend f v
  else { s with hif := { s.hif with coal := (s.hif.coal.filter fun e => !(e.1 == f && e.2.1 == v)) ++ [(f, v, n.1 + 1, n.2)] } }

/-- The aggregation time of feature 0x08, in units of 100 µs, is over for a vector: its interrupt is sent. -/
def State.coalTick (s : State) : State :=
  s.hif.coal.foldl (fun s e =>
    if e.2.2.2 + 100 * ((tgetD 8 0 (s.func e.1).feat).toNat / 256 % 256) ≤ s.elapsed then s.coalSend e.1 e.2.1 else s) s

/-- A completion entry as it leaves: to slot `slot` of queue `q`, whose base is that of this twin (R74). -/
def State.cqeOut (s : State) (f cqid : Nat) (q : Cq) (e : CqEntry) : Out :=
  let base := if s.staged && s.straps.twinId then q.base1 else q.base0
  .cqe f e.sqid e.sqhd cqid q.tail (base + BitVec.ofNat 64 (16 * q.tail)) q.phase e.cid e.dw0 e.dw1 e.sct e.sc

/-- A completion entry, which the digest has, goes to its slot in completion queue `q` of function `f`, with the queue's phase; the
interrupt follows where the queue has one. -/
def State.putCqe (s : State) (f cqid : Nat) (q : Cq) (e : CqEntry) : State :=
  let s := s.setFunc f { s.func f with cqs := tput cqid q.adv (s.func f).cqs }
  let s := s.emitQuiet (s.cqeOut f cqid q e)
  if q.ien then s.interrupt f cqid q.vector else s

/-- R75: a completion entry is posted, or held while its queue is full. Either way it enters the digest now, so that a full queue
affects no twin-visible state; the digest's descriptor has neither slot nor phase (R77). -/
def State.postEntry (s : State) (f cqid : Nat) (e : CqEntry) : State :=
  match tget cqid (s.func f).cqs with
  | none => s
  | some q =>
    let s := s.digest 0 (s.cqeOut f cqid q e)
    if q.full || !q.held.isEmpty then
      s.setFunc f { s.func f with cqs := tput cqid { q with held := q.held ++ [e] } (s.func f).cqs }
    else s.putCqe f cqid q e

/-- Held entries are posted while the queue has room (R75). -/
def State.drainCq (s : State) (f cqid : Nat) : Nat → State
  | 0 => s
  | n + 1 =>
    match tget cqid (s.func f).cqs with
    | none => s
    | some q =>
      match q.held with
      | [] => s
      | e :: t =>
        if q.full then s else (s.putCqe f cqid { q with held := t } e).drainCq f cqid n

/-- R76: the twin sequence of the next completion of an I/O queue of a controller; 0 in solo mode, for admin entries, and on a controller
reset since a fence. -/
def State.dw1Of (s : State) (t : Tenant) (sqid : Nat) (next : BitVec 32) (fixed : Option (BitVec 32)) : BitVec 32 :=
  match fixed with
  | some v => v
  | none => if s.hif.twinSeqOn && sqid != 0 && !s.hif.seqEnded.contains t then next else 0

/-- A function's completion entry (R77). -/
def State.postCqe (s : State) (f : Nat) (c : Ctx) (r : Cpl) : State :=
  match tget c.sqid (s.func f).sqs with
  | none => s
  | some q =>
    let e : CqEntry :=
      { sqid := c.sqid, sqhd := q.head, cid := c.cid, dw0 := r.dw0, dw1 := s.dw1Of c.tenant c.sqid q.next r.dw1
        sct := r.sct, sc := r.sc }
    let s := s.setFunc f { s.func f with sqs := tput c.sqid { q with next := q.next + 1 } (s.func f).sqs }
    s.postEntry f q.cqid e

/-- A response capsule on the queue pair of its command (R86), by Send with Invalidate where asked in solo mode (R82); a queue pair in the error state discards it (R100), though it enters the
digest like the other twin's (R102). -/
def State.postCapsule (s : State) (c : Ctx) (r : Cpl) : State :=
  match tget c.sqid s.fab.qps with
  | none => s
  | some q =>
    let s := { s with fab := { s.fab with qps := tput c.sqid { q with next := q.next + 1 } s.fab.qps } }
    let inv := if s.twinMode then none else c.inv
    let o : Out := .capsule q.port c.sqid q.head c.cid r.dw0 (s.dw1Of c.tenant q.qid q.next r.dw1) r.sct r.sc inv
    if q.err then s.digest 0 o else s.emit o

/-! ### The end of a command -/

/-- The number by which an entry of the Error Information log names its controller. -/
def ctlKey : Tenant → Nat
  | .func f => f
  | .assoc a => 2 ^ 16 + a

/-- R641, R2: an error that a controller reports is recorded in that controller's log, newest first, its 64 newest kept. -/
def State.errPut (s : State) (e : ErrEntry) : State :=
  let no := match s.hif.err.find? fun x => x.func == e.func with
    | some x => x.no + 1
    | none => 1
  let l := s.hif.err.filter fun x => x.func != e.func || decide (no < x.no + 64)
  { s with hif := { s.hif with err := { e with no := no } :: l, errCount := s.hif.errCount + 1 } }

/-- R641: a command that ends with an error is recorded. -/
def State.logError (s : State) (c : Ctx) (r : Cpl) : State :=
  if r.sct = 0 ∧ r.sc = 0 then s
  else
    s.errPut { func := ctlKey c.tenant, sqid := c.sqid, cid := c.cid, sct := r.sct, sc := r.sc, nsid := c.nsid }

/-- R43: the context is released. -/
def State.release (s : State) (stamp : BitVec 64) : State :=
  { s with hif := { s.hif with ctxs := s.hif.ctxs.filter fun c => c.stamp != stamp } }

/-- The context of a fetch stamp. -/
def State.ctx (s : State) (stamp : BitVec 64) : Option Ctx := s.hif.ctxs.find? fun c => c.stamp == stamp

/-- What a context waits for is replaced. -/
def State.setWait (s : State) (stamp : BitVec 64) (w : Wait) : State :=
  { s with hif := { s.hif with ctxs := s.hif.ctxs.map fun c => if c.stamp = stamp then { c with wait := w } else c } }

/-- A command ends: its completion is posted and its context released (R43). During a dump nothing is posted (R286). -/
def State.finish (s : State) (c : Ctx) (r : Cpl) : State :=
  if s.pow.dumping then s
  else
    let s := ((s.release c.stamp).tallyLat c).logError c r
    match c.tenant with
    | .func f => s.postCqe f c r
    | .assoc _ => s.postCapsule c r

/-! ### Capacity charge of a command (R136) -/

/-- R136: all of a command's remaining charge leaves C. -/
def State.unchargeAll (s : State) (stamp : BitVec 64) : State :=
  let n := (s.map.charges.filter fun c => c.stamp == stamp).foldl (fun n c => n + c.grains) 0
  let s := s.put F.MAP_CAP_CHARGED.C 0 (s.get F.MAP_CAP_CHARGED.C - n)
  { s with map := { s.map with charges := s.map.charges.filter fun c => c.stamp != stamp } }

/-! ### Asynchronous events (R70, R71) -/

/-- The log page that an event names (R70). -/
def evPage (typ info : Nat) : Nat :=
  match typ, info with
  | 0, _ => 0x01
  | 1, _ => 0x02
  | 2, 0 => 0x04
  | 2, _ => 0x03
  | _, 0 => 0xC0
  | _, 1 => 0xC1
  | _, 2 => 0xC1
  | _, 3 => 0xC2
  | _, 4 => 0xC3
  | _, 5 => 0xC4
  | _, _ => 0xC1

/-- Is the event enabled by bit `bit` of Asynchronous Event Configuration (0x0B)? Error events have no bit. -/
def Func.evOn (c : Func) (bit : Option Nat) : Bool :=
  match bit with
  | none => true
  | some b => c.aecOn.getLsbD b

/-- The oldest outstanding Asynchronous Event Request of a tenant. -/
def State.aerOf (s : State) (t : Tenant) : Option Ctx := s.hif.ctxs.find? fun c => c.tenant == t && c.wait == .aer

/-- R70, R71: an event reaches one tenant: posted to an outstanding request and masked until its page is read, or held,
one per type and information. -/
def State.postTo (typ info : Nat) (s : State) (t : Tenant) : State :=
  let c := s.ctl t
  if c.evMasked.contains (typ, info) then s
  else match s.aerOf t with
    | some x =>
      (s.setCtl t { c with evMasked := c.evMasked ++ [(typ, info)] }).finish x
        { dw0 := BitVec.ofNat 32 (typ + 256 * info + 65536 * evPage typ info) }
    | none =>
      if c.evHeld.contains (typ, info) then s else s.setCtl t { c with evHeld := c.evHeld ++ [(typ, info)] }

/-- An event occurs: it is posted to every tenant that has enabled it. -/
def State.event (s : State) (typ info : Nat) (bit : Option Nat) : State :=
  s.tenants.foldl (fun s t => if (s.ctl t).evOn bit then s.postTo typ info t else s) s

/-- Namespace Attribute Changed (R70): the namespaces go on every controller's list of log page 0x04. -/
def State.nsChanged (s : State) (l : List Nat) : State :=
  let s := s.tenants.foldl (fun s t =>
    let c := s.ctl t
    s.setCtl t { c with changed := c.changed ++ l.filter fun n => !c.changed.contains n }) s
  s.event 2 0 (some 8)

/-- Vendor event `i` (type 0x7), enabled by bit 24 + i. -/
def State.vendor (s : State) (i : Nat) : State := s.event 7 i (some (24 + i))

/-- A new request takes the oldest held event, if there is one (R71). -/
def State.giveHeld (s : State) (t : Tenant) : State :=
  match (s.ctl t).evHeld with
  | [] => s
  | e :: rest => (s.setCtl t { s.ctl t with evHeld := rest }).postTo e.1 e.2 t

/-- Critical Warning bit `n` of log page 0x02 becomes set; its SMART event follows (R70). -/
def State.critSet (s : State) (n : Nat) : State :=
  if s.hif.crit.getLsbD n then s
  else
    let s := { s with hif := { s.hif with crit := s.hif.crit ||| BitVec.ofNat 8 (2 ^ n) } }
    s.event 1 (if n = 0 then 2 else if n = 1 then 1 else 0) (some n)

/-- Critical Warning bit `n` clears. -/
def State.critClear (s : State) (n : Nat) : State :=
  { s with hif := { s.hif with crit := s.hif.crit &&& ~~~ BitVec.ofNat 8 (2 ^ n) } }

/-- A new entry of log page 0xC4, the 64 most recent kept; vendor event 0x05. -/
def State.notice (s : State) (code param detail : Nat) : State :=
  let n : Notice := { code := code, epoch := s.epoch, param := param, dtime := s.dtime, detail := detail }
  let l := s.hif.notices ++ [n]
  let lost := if 64 < l.length then 1 else 0
  { s with hif := { s.hif with notices := l.drop lost, nlost := s.hif.nlost + lost } }.vendor 5

/-- A read of a log page without Retain Asynchronous Event unmasks the events that name it (R70). -/
def State.unmask (s : State) (t : Tenant) (page : Nat) : State :=
  let c := s.ctl t
  s.setCtl t { c with evMasked := c.evMasked.filter fun e => evPage e.1 e.2 != page }

/-- The end of a command with a status and a zero Dword 0; a failed command gives back its charge (R136). -/
def State.fail (s : State) (c : Ctx) (sct sc : Nat) : State := (s.unchargeAll c.stamp).finish c { sct := sct, sc := sc }

/-- The end of a command with success. -/
def State.succeed (s : State) (c : Ctx) (dw0 : BitVec 32 := 0) : State := s.finish c { dw0 := dw0 }

/-- Runs `f` on the context of a fetch stamp; a stamp that names no command, or one already acted on, does nothing. -/
def withCtx (stamp : BitVec 64) (f : Ctx → State → State) (s : State) : State :=
  match s.ctx stamp with
  | some c => if c.wait == .dispatch then f c s else s
  | none => s

end Sys2Proof.Machine
end

