-- ==== Sys2Proof/Machine/Task.lean ====
section
/-! DEFINITION. Periodic tasks: overrun and catch-up (R591, R592). -/

namespace Sys2Proof.Machine

/-- R591: when the next run of task `t` with nominal period `p` starts, and its nominal start; the first run defines
t_0. -/
def State.nextRun (s : State) (t p : Nat) : Nat × Nat :=
  match tget t s.hkp.taskStart with
  | none => (s.elapsed, s.elapsed)
  | some prev =>
    let nom := tgetD t 0 s.hkp.taskNom + p
    (max (tgetD t 0 s.hkp.taskEnd) (max (prev + p / 2) nom), nom)

/-- R591, R592: task `t` runs for `dur` µs. LAG is s_k − t_k; a run that ends after the nominal start of the next one is
an overrun. -/
def State.runTask (s : State) (t p dur : Nat) : State :=
  let r := s.nextRun t p
  let e := r.1 + dur
  let s := { s with hkp := { s.hkp with
    taskStart := tput t r.1 s.hkp.taskStart
    taskEnd := tput t e s.hkp.taskEnd
    taskNom := tput t r.2 s.hkp.taskNom } }
  let s := s.put F.HKP_TASK.LAG t (min 0xFFFFFFFF (r.1 - r.2))
  if r.2 + p < e then (s.bump F.HKP_TASK.OVR t).raise 232 else s

/-- The task numbers of R592. -/
def taskHousekeeping : Nat := 0
def taskReclaim : Nat := 1
def taskScrub : Nat := 2
def taskCheckpoint : Nat := 3
def taskTally : Nat := 4

end Sys2Proof.Machine
end

