-- ==== Sys2Proof/Machine/Tally.lean ====
section
/-! DEFINITION. The tally recorder: intervals, records in secure NOR, and the window (R595 to R604); and reads and overflows
of performance counters (R608). -/

namespace Sys2Proof.Machine

/-- Bytes with those from an offset on replaced. -/
def patchBytes (b : Bytes) (at_ : Nat) (x : Bytes) : Bytes := b.take at_ ++ x ++ b.drop (at_ + x.length)

/-- A signed number in `n` bytes, two's complement. -/
def intBytes (n : Nat) (v : Int) : Bytes := leBytes n (v % 2 ^ (8 * n)).toNat

/-! ### Intervals (R595 to R597) -/

/-- CPM_RESID[0..2]. -/
def State.resid (s : State) : List Nat := (List.range 3).map fun i => s.get F.CPM_RESID.US i

/-- A new interval begins. -/
def State.tallyBegin (s : State) : State :=
  let c : Span := { startDtime := s.dtime, startEpoch := s.epoch, startUs := s.elapsed, resid := s.resid }
  { s with tly := { s.tly with cur := c } }

/-- The highest and lowest samples of an interval (R600). -/
def State.tallySample (s : State) (ts : List Int) : State :=
  if s.tallyOn then
    let f := fun (c : Span) (e : Int × Nat) => { c with
      tmin := tput e.2 (min (tgetD e.2 e.1 c.tmin) e.1) c.tmin
      tmax := tput e.2 (max (tgetD e.2 e.1 c.tmax) e.1) c.tmax }
    { s with tly := { s.tly with cur := ts.zipIdx.foldl f s.tly.cur } }
  else s

/-- A record applied with a LAG in µs (R600). -/
def State.tallyLag (s : State) (us : Nat) : State :=
  if s.tallyOn then
    let c := s.tly.cur
    { s with tly := { s.tly with cur := { c with lag := satBin (min 16 (us / 4)) 1 c.lag } } }
  else s

/-! ### Records (R598 to R600) -/

/-- A signed 16-bit extreme, or its mark for none. -/
def extreme (i : Nat) (t : Tbl Int) (none_ : Nat) : Bytes :=
  match tget i t with
  | some v => intBytes 2 v
  | none => leBytes 2 none_

/-- The 4096 bytes of record `i` (R600). -/
def State.tallyBytes (s : State) (r : TallyRec) (i : Nat) (flags : Nat) (pe : List Nat) : Bytes :=
  let c := r.span
  let w := fun (l : List Nat) => l.flatMap (leBytes 4)
  let lat := (List.range 5).flatMap fun k =>
    w ((List.range 24).map fun b => tgetD (32 * k + b) 0 c.lat) ++ leBytes 4 (tgetD k 0 c.latMax)
  let retry := (List.range 32).flatMap fun p => w ((List.range 10).map fun st => tgetD (16 * p + st) 0 c.retry)
  let ts := (List.range 16).flatMap fun k => extreme k c.tmin 0x7FFF ++ extreme k c.tmax 0x8000
  let pk := (List.range 32).flatMap fun p => match tget p c.pkmax with
    | some v => intBytes 1 v
    | none => [0x80]
  let head := leBytes 4 0x594C4154 ++ leBytes 2 1 ++ [if s.straps.twinId then 1 else 0] ++ leBytes 1 flags ++ leBytes 4 i ++
    leBytes 4 0 ++ leBytes 8 c.startDtime.toNat ++ leBytes 2 c.startEpoch.toNat ++ leBytes 2 r.endEpoch.toNat ++ leBytes 4 0 ++
    leBytes 8 r.endDtime.toNat ++ leBytes 8 r.elapsedUs
  let z := List.replicate 4096 (0 : Byte)
  let b := patchBytes (patchBytes (patchBytes z 0 head) 0x40 lat) 0x240 retry
  let b := patchBytes (patchBytes (patchBytes b 0x740 (w pe)) 0x770 ts) 0x7B0 pk
  let b := patchBytes b 0x7D0 (w ((List.range 17).map fun k => tgetD k 0 c.lag))
  let b := patchBytes b 0x818 (r.resid.flatMap (leBytes 8))
  patchBytes b 0xFFC (leBytes 4 (crc32c (b.take 0xFFC)).toNat)

/-- The place of record `i` (R598). -/
def tallyAt (i : Nat) : Nat := 0x2000000 + 4096 * i

/-- R603, R604: does the recorder write no record now: while FREEZE is set, and during a clear? -/
def State.tallyHeld (s : State) : Bool := s.on F.TLY_CTL.FREEZE || s.on F.TLY_STAT.CLEARING

/-- R597, R598: the closing interval's record is written, with its P/E bins or without, unless records are held. Its programs are the
recorder's own and pass no descriptor. -/
def State.tallyWrite (s : State) : State :=
  match s.tly.closing with
  | none => s
  | some r =>
    if s.tallyHeld then s
    else
    let i := s.get F.TLY_STAT.NREC
    let known := s.on F.TLY_CTL.PE_DONE
    let pe := (List.range 11).map fun j => if known then s.get F.TLY_PE.COUNT j else 0xFFFFFFFF
    let flags := r.flags + if known then 0 else 8
    let s := { s with tly := { s.tly with closing := none, peLate := false } }.put F.TLY_CTL.PE_DONE 0 0
    if 2048 ≤ i then s
    else
      let x := s.norWords (tallyAt i) 512 (s.tallyBytes r i flags pe) 0
      let s := x.1.put F.TLY_STAT.NREC 0 (i + 1)
      let s := if x.2.2 then (s.bump F.TLY_STAT.WFAIL 0).raise 238 else s.raise 236
      if i = 2047 then (s.put F.TLY_STAT.FULL 0 1).raise 237 else s

/-- R597: the interval closes with given FLAGS, and its P/E bins are asked for; the next one begins. -/
def State.tallyClose (s : State) (flags : Nat) : State :=
  let s := s.tallyWrite
  let c := s.tly.cur
  let r : TallyRec :=
    { flags := flags + if c.startEpoch.toNat < s.epoch.toNat then 4 else 0
      span := c
      endDtime := s.dtime
      endEpoch := s.epoch
      elapsedUs := s.elapsed - c.startUs
      resid := s.resid.zipWith (· - ·) c.resid }
  ({ s with tly := { s.tly with closing := some r } }.tallyBegin).raise 241

/-- R598, R603, R604: an interval that ends under FREEZE or during a clear is held. -/
def State.tallyEnd (s : State) (flags : Nat) : State :=
  if !s.tallyOn then s
  else if s.tallyHeld then { s with tly := { s.tly with due := true } }
  else s.tallyClose flags

/-- R603, R604: records are held no more: one whose P/E bins are settled is written, and an interval that fell due meanwhile closes. -/
def State.tallyRelease (s : State) (flags : Nat) : State :=
  if s.tallyHeld then s
  else
    let s := if s.on F.TLY_CTL.PE_DONE || s.tly.peLate then s.tallyWrite else s
    if s.tly.due then { s with tly := { s.tly with due := false } }.tallyClose flags else s

/-- R603: FREEZE clears: the held span is written as one record. -/
def State.tallyThaw (s : State) : State := (s.put F.TLY_CTL.FREEZE 0 0).tallyRelease 2

/-- TALLY_INTERVAL_END (R591, R592, R596). -/
def execTallyIntervalEnd (durUs : Nat) (s : State) : Res := s.awake <|
  .next (if !s.tallyOn then s
    else
      let s := s.runTask taskTally (s.setting 0x30 * 1000000) durUs
      s.tallyEnd (if 0 < s.get F.HKP_TASK.LAG taskTally then 16 else 0))

/-- PE_DONE (R597): firmware has written the P/E bins. -/
def execPeDone (s : State) : Res := s.awake <| .next (s.put F.TLY_CTL.PE_DONE 0 1).tallyWrite

/-- PE_DONE_TIMEOUT (R597): 100 ms have passed; a record that is held then is written without its bins later. -/
def execPeDoneTimeout (s : State) : Res := s.awake <|
  .next (if s.on F.TLY_CTL.PE_DONE || s.tly.closing.isNone then s else { s with tly := { s.tly with peLate := true } }.tallyWrite)

/-- TALLY_FREEZE_LAPSE (R603): 900 s have passed. -/
def execTallyFreezeLapse (s : State) : Res := s.awake <|
  .next (if s.on F.TLY_CTL.FREEZE then s.tallyThaw.raise 239 else s)

/-- TALLY_CLEAR_COMPLETE (R604): region 2 is erased, and a new interval begins; one that fell due meanwhile is written. -/
def execTallyClearComplete (s : State) : Res := s.awake <|
  .next (if !s.on F.TLY_STAT.CLEARING then s
    else
      let s := s.norErase (0x2000000, 0x800000)
      let s := ((s.put F.TLY_STAT.CLEARING 0 0).put F.TLY_STAT.NREC 0 0).put F.TLY_STAT.FULL 0 0
      let s := if s.tly.due then s else s.tallyBegin
      (s.tallyRelease 0).raise 240)

/-! ### The window (R602) -/

/-- Bytes of NOR as a read shows them. -/
def State.norRead (s : State) (a n : Nat) : Bytes := (List.range n).map fun j => s.norSeen (a + j)

/-- The record that TLY_CUR names is loaded into the window buffer, unless it is there. -/
def State.winLoad (s : State) : State :=
  let r := s.get F.TLY_CUR.RECORD
  if s.tly.winRec = some r then s
  else
    let b := if r < s.get F.TLY_STAT.NREC then s.norRead (tallyAt r) 4096 else List.replicate 4096 0
    { s with tly := { s.tly with win := b, winRec := some r } }.put F.TLY_STAT.WINRDY 0 1

/-- TALLY_WINDOW_SELECT (R602): a write to TLY_CUR. -/
def execTallyWindowSelect (val : BitVec 32) (s : State) : Res := s.awake <|
  .next (((s.put F.TLY_CUR.AINC 0 (bitsOf 31 31 val.toNat)).put F.TLY_CUR.RECORD 0 (bitsOf 14 4 val.toNat)).put
    F.TLY_CUR.CHUNK 0 (val.toNat % 16)).winLoad

/-- TALLY_WINDOW_READ (R602): a read of TLY_WIN[k]; with AINC a read of the last word moves on. -/
def execTallyWindowRead (k : Fin 64) (s : State) : Res := s.awake <|
  let c := s.get F.TLY_CUR.CHUNK
  let v := if s.on F.TLY_STAT.WINRDY then leNat ((s.tly.win.drop (256 * c + 4 * k)).take 4) else 0
  let s := s.send (.value (BitVec.ofNat 64 v))
  .next (if k = 63 ∧ s.on F.TLY_CUR.AINC then
      if c = 15 then ((s.put F.TLY_CUR.CHUNK 0 0).put F.TLY_CUR.RECORD 0 (s.get F.TLY_CUR.RECORD + 1)).winLoad
      else s.put F.TLY_CUR.CHUNK 0 (c + 1)
    else s)

/-! ### Performance counters (R608) -/

/-- R608: a read of counter `k` of set `x`: a latched value is returned once; a read latches a chained next counter. -/
def State.pmcRead (s : State) (x k : Nat) : State × BitVec 32 :=
  let i := 8 * x + k
  let v : BitVec 32 := match tget i s.tly.latch with
    | some v => v
    | none => BitVec.ofNat 32 (s.get F.PMC_CNT.COUNT i)
  let l := tdel i s.tly.latch
  let l := if k < 7 ∧ s.on F.PMC_CFG.CHAIN (i + 1) then tput (i + 1) (BitVec.ofNat 32 (s.get F.PMC_CNT.COUNT (i + 1))) l else l
  ({ s with tly := { s.tly with latch := l } }, v)

/-- PMC_COUNTER_READ (R608). -/
def execPmcCounterRead (x : Fin 53) (k : Fin 8) (s : State) : Res := s.awake <|
  let r := s.pmcRead x k
  .next (r.1.send (.value (r.2.setWidth 64)))

/-- COUNTER_OVERFLOW (R608): counter `k` of set `x` wraps from its largest value to 0, counting what this model has no command
for (cycles, and the events of a core). -/
def execCounterOverflow (x : Fin 53) (k : Fin 8) (s : State) : Res := s.awake <|
  .next (if s.on F.PMC_GCTL.FRZ || !(s.get F.PMC_CTL.EN x).testBit k then s
    else (s.put F.PMC_CNT.COUNT (8 * x + k) 0).pmcWrap x 8 k)

end Sys2Proof.Machine
end

