-- ==== Sys2Proof/Machine/Map.lean ====
section
/-! DEFINITION. The bale map: the formats of entries and patches, commits in fetch-stamp order, zero bales and page
drops, the cache and its misses, the journal and the checkpoint, and capacity (chapter 4). -/

namespace Sys2Proof.Machine

/-! ### Formats (R105, R108, R109, R122, R123) -/

/-- Blocks per bale (R105). -/
def blocksPerBale (lbaf : Nat) : Nat := if lbaf = 0 then 16 else 4

/-- Bytes of a logical block. -/
def blockBytes (lbaf : Nat) : Nat := if lbaf = 0 then 4096 else 16384

/-- R105: the key of a bale's entry: map page and index. -/
def baleKey (nsid bale : Nat) : Nat := (nsid - 1) * 2 ^ 37 + bale

/-- R105: the map page number of a bale. -/
def mpnOf (nsid bale : Nat) : Nat := (nsid - 1) * 2 ^ 28 + bale / 512

/-- The key of a block. -/
def blockKey (nsid bale blk : Nat) : Nat := 16 * baleKey nsid bale + blk

/-- Fields of a map entry (R108). -/
def ent (hi lo : Nat) (e : BitVec 64) : Nat := bitsOf hi lo e.toNat

/-- A map entry from its fields (R108). -/
def mkEntry (gen phint sealed poison raw zr len gaddr : Nat) : BitVec 64 :=
  BitVec.ofNat 64 (gen % 256 * 2 ^ 56 + phint % 8 * 2 ^ 53 + sealed % 2 * 2 ^ 52 + poison % 2 * 2 ^ 51 +
    raw % 2 * 2 ^ 50 + zr % 2 * 2 ^ 49 + len % 128 * 2 ^ 42 + gaddr % 2 ^ 42)

/-- An entry with another PHINT. -/
def withPhint (e : BitVec 64) (p : Nat) : BitVec 64 := BitVec.ofNat 64 (insBits 55 53 e.toNat p)

/-- An entry with another GEN. -/
def withGen (e : BitVec 64) (g : Nat) : BitVec 64 := BitVec.ofNat 64 (insBits 63 56 e.toNat g)

/-- R109: has the entry one of the forms of the table, in a namespace that is sealed or not? -/
def entryOk (sealed : Bool) (e : BitVec 64) : Bool :=
  let zr := ent 49 49 e
  let raw := ent 50 50 e
  let len := ent 48 42 e
  let gaddr := ent 41 0 e
  let poison := ent 51 51 e
  let sl := ent 52 52 e
  e == 0 ||
  decide (zr = 1 ∧ raw = 0 ∧ len = 0 ∧ gaddr = 0 ∧ poison = 0 ∧ sl = 0) ||
  (decide (zr = 0 ∧ ((raw = 0 ∧ 2 ≤ len ∧ len ≤ 64) ∨ (raw = 1 ∧ len = 65))) && sl == sealed.toNat)

/-- A patch VALUE from its fields (R122). -/
def mkPatch (gen sealed poison raw zr len gaddr : Nat) : BitVec 64 :=
  BitVec.ofNat 64 (gen % 256 * 2 ^ 56 + sealed % 2 * 2 ^ 50 + poison % 2 * 2 ^ 49 + raw % 2 * 2 ^ 48 +
    zr % 2 * 2 ^ 47 + len % 32 * 2 ^ 42 + gaddr % 2 ^ 42)

/-- LEN of a patch VALUE in grains. -/
def patchLen (v : BitVec 64) : Nat := bitsOf 46 42 v.toNat

/-- R123: the largest patch of a namespace, in grains. -/
def maxPatch (lbaf : Nat) (sealed : Bool) : Nat := (if lbaf = 0 then 4 else 16) + sealed.toNat

/-- R122, R123: has a patch VALUE one of the three forms, in a namespace of this LBA format, sealed or not? -/
def patchOk (lbaf : Nat) (sealed : Bool) (v : BitVec 64) : Bool :=
  let zr := bitsOf 47 47 v.toNat
  let raw := bitsOf 48 48 v.toNat
  let poison := bitsOf 49 49 v.toNat
  let sl := bitsOf 50 50 v.toNat
  let len := patchLen v
  let bare := decide (raw = 0 ∧ len = 0 ∧ bitsOf 41 0 v.toNat = 0 ∧ sl = 0)
  decide (bitsOf 55 51 v.toNat = 0) && ((zr == 1 && poison == 0 && bare) || (zr == 0 && poison == 1 && bare) ||
    (zr == 0 && sl == sealed.toNat && decide (sl < len ∧ len ≤ maxPatch lbaf sealed) &&
      (raw == 0 || len == maxPatch lbaf sealed)))

/-- R113: an extent does not cross the end of a convoy block. -/
def extentOk (gaddr len : Nat) : Bool := len == 0 || gaddr / 16 / 65536 == (gaddr + len - 1) / 16 / 65536

/-- R123: a poisoned placeholder. -/
def isPlaceholder (v : BitVec 64) : Bool :=
  decide (bitsOf 49 49 v.toNat = 1 ∧ bitsOf 47 47 v.toNat = 0 ∧ patchLen v = 0)

/-- R225: the convoy block that a grain address lies in. -/
def cbidOf (gaddr : Nat) : Nat := gaddr / 16 / 65536

/-! ### Reading the map -/

/-- The namespace with an identifier. -/
def State.nsOf (s : State) (nsid : Nat) : Option Ns := tget nsid s.hif.ns

/-- A namespace's record is replaced. -/
def State.setNs (s : State) (nsid : Nat) (n : Ns) : State := { s with hif := { s.hif with ns := tput nsid n s.hif.ns } }

/-- The entry of a bale. -/
def State.entry (s : State) (nsid bale : Nat) : BitVec 64 := tgetD (baleKey nsid bale) 0 s.map.entries

/-- The patch of a block. -/
def State.patch (s : State) (nsid bale blk : Nat) : Option (BitVec 64) := tget (blockKey nsid bale blk) s.map.patches

/-- R106: is the bale the last of a namespace whose size is no multiple of 65,536 bytes? -/
def State.lastPartial (s : State) (nsid bale : Nat) : Bool :=
  match s.nsOf nsid with
  | some n => decide (bale * blocksPerBale n.lbaf < n.nsze ∧ n.nsze < (bale + 1) * blocksPerBale n.lbaf)
  | none => false

/-- The patches of a bale, by block. -/
def State.balePatches (s : State) (nsid bale : Nat) : List (Nat × BitVec 64) :=
  (List.range 16).filterMap fun b => (s.patch nsid bale b).map fun v => (b, v)

/-- R120: the block's data in staging with the largest fetch stamp. -/
def bestStaged (nsid bale blk : Nat) : List Staged → Option Staged
  | [] => none
  | x :: t =>
    let r := bestStaged nsid bale blk t
    if x.nsid = nsid ∧ x.bale = bale ∧ x.blk = blk then
      match r with
      | some y => if y.stamp.toNat < x.stamp.toNat then some x else some y
      | none => some x
    else r

/-- R121: has a commit with a larger fetch stamp already taken place for the block? -/
def State.outdated (s : State) (nsid bale blk : Nat) (stamp : BitVec 64) : Bool :=
  decide (stamp.toNat < (tgetD (blockKey nsid bale blk) 0 s.map.lastCommit).toNat) ||
    decide (stamp.toNat < (tgetD (mpnOf nsid bale) 0 s.map.dropCommit).toNat)

/-- Where a block is resolved (R119). -/
inductive Source where
  | overlay (x : Staged)
  | patch (v : BitVec 64)
  | entry (e : BitVec 64)
deriving DecidableEq, Repr

/-- The source below the overlay: patch table, map entry. -/
def State.resolveMap (s : State) (nsid bale blk : Nat) : Source :=
  match s.patch nsid bale blk with
  | some v => .patch v
  | none => .entry (s.entry nsid bale)

/-- R119: the first source that holds the block: overlay, patch table, map entry. A staged block whose commit R121 will
discard is passed over, so that a read after a Write Zeroes or Deallocate returns zeros (R131; DEDUCED). -/
def State.resolve (s : State) (nsid bale blk : Nat) : Source :=
  match bestStaged nsid bale blk s.map.overlay with
  | some x => if s.outdated nsid bale blk x.stamp then s.resolveMap nsid bale blk else .overlay x
  | none => s.resolveMap nsid bale blk

/-! ### Capacity (R133 to R139) -/

/-- U, L and C. -/
def State.capU (s : State) : Nat := s.get F.MAP_CAP_USABLE.U
def State.capL (s : State) : Nat := s.get F.MAP_CAP_LIVE.L
def State.capC (s : State) : Nat := s.get F.MAP_CAP_CHARGED.C

/-- R138: the sum of the sizes of all namespaces, in bytes. -/
def State.logProv (s : State) : Nat :=
  s.hif.ns.foldl (fun n e => n + e.2.nsze * blockBytes e.2.lbaf) 0

/-- R295: a record enters the system log. Its three PROGRAMs, to the packs of the anchor, follow by State.logGo. -/
def State.logAdd (s : State) (r : SysRec) : State :=
  let r := { r with lseq := s.conv.nextLseq, dtime := s.dtime, epoch := s.epoch }
  let w := if s.conv.anchor.isEmpty then s.conv.logWait else s.conv.logWait ++ [{ lseq := r.lseq, ports := s.conv.anchor }]
  { s with conv := { s.conv with syslog := s.conv.syslog ++ [r], nextLseq := s.conv.nextLseq + 1, logWait := w } }

/-- R640: the health state as ARG of a type 10 record. -/
def State.healthArg (s : State) : BitVec 64 :=
  BitVec.ofNat 64 ((List.range 8).foldl (fun a k => a + tgetD k 0 s.health.crossed % 16 * 2 ^ (4 * k)) 0 +
    (if s.hif.physWarn then 2 ^ 32 else 0) + (if s.health.latched then 2 ^ 33 else 0))

/-- R640: a change of the health state enters the system log; its PROGRAMs leave with the next work on the log. -/
def State.healthNote (s : State) : State :=
  let a := s.healthArg
  if a = s.health.saved then s
  else { s with health := { s.health with saved := a } }.logAdd { typ := 10, arg := a.toNat }

/-- R137: Physical Use Warning when L reaches 90 % of U, judged from ready onwards (R640); the warning clears below
85 %. -/
def State.physCheck (s : State) : State :=
  let l := s.capL
  let u := s.capU
  if !s.health.ready then s
  else if s.hif.physWarn then
    if 100 * l < 85 * u then { s with hif := { s.hif with physWarn := false } }.healthNote else s
  else if 0 < u ∧ 90 * u ≤ 100 * l then ({ s with hif := { s.hif with physWarn := true } }.vendor 4).healthNote else s

/-- L changes by new and freed grains, and the namespace's use with it (R134, R136). -/
def State.liveAdd (s : State) (nsid : Nat) (add sub : Nat) : State :=
  let s := s.put F.MAP_CAP_LIVE.L 0 (s.capL + add - sub)
  let s := match s.nsOf nsid with
    | some n => s.setNs nsid { n with physUsed := n.physUsed + add * 1024 - sub * 1024 }
    | none => s
  s.physCheck

/-- R136: a command's charge for a bale leaves C. -/
def State.uncharge (s : State) (stamp : BitVec 64) (nsid bale : Nat) : State :=
  let mine := s.map.charges.filter fun c => c.stamp == stamp && c.nsid == nsid && c.bale == bale
  let n := mine.foldl (fun n c => n + c.grains) 0
  let s := s.put F.MAP_CAP_CHARGED.C 0 (s.capC - n)
  { s with map := { s.map with charges := s.map.charges.filter fun c => !(c.stamp == stamp && c.nsid == nsid && c.bale == bale) } }

/-- R135: the charge of a write for one bale: 65 for a whole bale, else max(65, n·p). -/
def baleCharge (ns : Ns) (whole : Bool) (n : Nat) : Nat :=
  if whole then 65 else max 65 (n * maxPatch ns.lbaf ns.sealed)

/-! ### The convoy block table's live counts (R227) -/

/-- The entry of a convoy block. -/
def State.cb (s : State) (id : Nat) : Cb := tgetD id {} s.conv.cbt

/-- The entry of a convoy block is replaced. -/
def State.setCb (s : State) (id : Nat) (c : Cb) : State := { s with conv := { s.conv with cbt := tset {} id c s.conv.cbt } }

/-- Grains at a grain address come alive. -/
def State.grainsLive (s : State) (gaddr len : Nat) : State :=
  if len = 0 then s
  else s.setCb (cbidOf gaddr) { s.cb (cbidOf gaddr) with live := (s.cb (cbidOf gaddr)).live + len }

/-- Grains at a grain address die; they are eligible for erase once the record that freed them is programmed in packs
(R142, rule 2). -/
def State.grainsFree (s : State) (gaddr len : Nat) : State :=
  if len = 0 then s
  else
    let id := cbidOf gaddr
    let s := s.setCb id { s.cb id with live := (s.cb id).live - len }
    { s with map := { s.map with freedAt := tput id s.map.nextJseq s.map.freedAt } }

/-! ### The journal (R140 to R142) -/

/-- R140: the 32 bytes of a record. -/
def JRec.bytes (r : JRec) : Bytes :=
  leBytes 1 r.typ ++ leBytes 1 r.blk ++ leBytes 2 r.nsidx ++ leBytes 4 r.inst.toNat ++ leBytes 8 r.key ++
    leBytes 8 r.value.toNat ++ leBytes 8 r.jseq

/-- The JSEQ of the first of some records. -/
def firstJseq (l : List JRec) : Nat :=
  match l with
  | r :: _ => r.jseq
  | [] => 0

/-- R141: the 4 KiB of a journal block: up to 127 records, unused slots zero, and the trailer with its CRC-32C. -/
def journalBytes (l : List JRec) (epoch : BitVec 16) (dtime : BitVec 64) : Bytes :=
  let b := (l.flatMap JRec.bytes ++ List.replicate (0xFE0 - 32 * l.length) 0) ++ leBytes 8 (firstJseq l) ++ leBytes 2 l.length ++
    leBytes 2 epoch.toNat ++ [0, 0, 0, 0] ++ leBytes 8 dtime.toNat ++ [0, 0, 0, 0]
  b ++ leBytes 4 (crc32c b).toNat

/-- R141, R398: a journal block of records, with its bytes as they are stored. -/
def State.jblockOf (s : State) (l : List JRec) : JBlock :=
  { recs := l
    epoch := s.epoch
    dtime := s.dtime
    image := s.systemUnit (journalTweak (firstJseq l)) (journalBytes l s.epoch s.dtime) }

/-- R141: the open journal block is closed, and a type 6 record keeps L (R304). -/
def State.closeJournal (s : State) : State :=
  if s.map.openJ.isEmpty then s
  else { s with map := { s.map with openJ := [], jblocks := s.map.jblocks ++ [s.jblockOf s.map.openJ] } }.logAdd
    { typ := 6, arg := s.capL }

/-- R140: a record enters the journal; at 127 records the block is closed. -/
def State.journal (s : State) (typ blk nsidx : Nat) (inst : BitVec 32) (key : Nat) (value : BitVec 64) : State :=
  let r : JRec := { typ := typ, blk := blk, nsidx := nsidx, inst := inst, key := key, value := value, jseq := s.map.nextJseq }
  let s := { s with map := { s.map with
    openJ := s.map.openJ ++ [r]
    openJAt := if s.map.openJ.isEmpty then s.elapsed else s.map.openJAt
    nextJseq := s.map.nextJseq + 1 } }
  if 127 ≤ s.map.openJ.length then s.closeJournal else s

/-- The instance number of a namespace slot (R107). -/
def State.instOf (s : State) (nsid : Nat) : BitVec 32 := tgetD nsid 0 s.hif.nsGen

/-- The map page that a record of types 1 to 4 concerns. -/
def JRec.mpn (r : JRec) : Nat := r.nsidx * 2 ^ 28 + (if r.typ = 4 then r.key else r.key / 512)

/-- What a journal record makes of the entries of its page (R140). -/
def MapS.applyEntry (m : MapS) (r : JRec) : MapS :=
  match r.typ with
  | 1 => { m with entries := tset 0 (baleKey (r.nsidx + 1) r.key) r.value m.entries }
  | 4 => { m with entries := m.entries.filter fun e => e.1 / 512 != r.mpn, dropped := tput r.mpn r.jseq m.dropped }
  | _ => m

/-- What it makes of the patch table. -/
def MapS.applyPatch (m : MapS) (r : JRec) : MapS :=
  let k := 16 * baleKey (r.nsidx + 1) r.key + r.blk
  match r.typ with
  | 2 => { m with patches := tput k r.value m.patches }
  | 3 => { m with patches := tdel k m.patches }
  | 4 => { m with patches := m.patches.filter fun e => e.1 / 16 / 512 != r.mpn }
  | _ => m

/-- The JSEQ that the checkpoint stored with a map page; 0 where it stored none. -/
def State.pageJseq (s : State) (mpn : Nat) : Nat :=
  match tget mpn s.map.ckpt with
  | some c => c.jseq
  | none => 0

/-- R144, R303: a record is applied at a start, to the map page unless the page as stored already includes it, to the patch table unless the
round that stored that does; one of another instance of its slot is skipped. -/
def State.replayRec (s : State) (r : JRec) : State :=
  if r.inst ≠ s.instOf (r.nsidx + 1) then s
  else
    let m := if r.jseq ≤ s.pageJseq r.mpn then s.map else s.map.applyEntry r
    { s with map := if r.jseq ≤ m.durAt then m else m.applyPatch r }

/-- The journal block that begins with record `first` is programmed in packs (R142). -/
def State.jblockDone (s : State) (first : Nat) : State :=
  let hit := fun (b : JBlock) => (b.recs.head?.map fun r => r.jseq) == some first
  { s with map := { s.map with jblocks := s.map.jblocks.map fun b => if hit b then { b with programmed := true } else b } }

/-- Is every journal record up to `j` programmed in packs (R142, rule 2)? -/
def State.journalled (s : State) (j : Nat) : Bool :=
  (s.map.openJ.all fun r => decide (j < r.jseq)) &&
    s.map.jblocks.all fun b => b.programmed || b.recs.all fun r => decide (j < r.jseq)

/-! ### The cache (R115 to R117) -/

/-- The number of cache frames (values outside the limits are taken as the nearer one). -/
def State.cacheFrames (s : State) : Nat := clampTo 0x100000 0x1000000 (s.get F.MAP_CACHE_CFG.PAGES)

/-- Is the page in the cache? -/
def State.cached (s : State) (mpn : Nat) : Bool := s.map.frames.any fun f => f.mpn == mpn

/-- Has the page been stored by the checkpoint under the slot's current instance, and not been dropped since (R107, R114, R143)? -/
def State.stored (s : State) (mpn : Nat) : Bool :=
  match tget mpn s.map.ckpt with
  | some c => c.inst == s.instOf (mpn / 2 ^ 28 + 1) && decide (tgetD mpn 0 s.map.dropped ≤ c.jseq)
  | none => false

/-- R115: the clock: reference bits are cleared until a frame is found that is unreferenced, clean and not pinned; the
new page takes it. The list begins at the hand. Where two passes find none, the request is served and the page is installed in no
frame (DESIGN CHOICE, log entry 109). -/
def clockTake (new : Frame) : Nat → List Frame → List Frame
  | 0, l => l
  | _ + 1, [] => [new]
  | n + 1, f :: t =>
    if f.ref || f.dirty || f.pin then clockTake new n (t ++ [{ f with ref := false }]) else t ++ [new]

/-- Items placed and not committed: in a convoy that is assembled or programmed, waiting for their map page, or for the check of R239. -/
def State.placedNow (s : State) : List Placed :=
  (s.conv.acc.flatMap fun e => e.2.items) ++ (s.conv.flights.flatMap fun f => f.items) ++ (s.map.itemWait.map fun x => x.2.2) ++
    s.conv.relocs.map fun r => r.item

/-- The map requests that wait: for their page or for their grains. -/
def State.mapWaiting (s : State) : List MapReq := (s.map.misses.flatMap fun e => e.2) ++ s.map.held

/-- R115: is an update to the page pending: data of it in staging, a request that waits, or an item that is placed, and its commit has not
taken place? -/
def State.pending_ (s : State) (mpn : Nat) : Bool :=
  (s.map.overlay.any fun x => mpnOf x.nsid x.bale == mpn) ||
    (s.mapWaiting.any fun r => decide (2 ≤ r.op ∧ r.op ≤ 5) && mpnOf (r.d.nsidx + 1) r.d.bale == mpn) ||
    s.placedNow.any fun p => mpnOf (p.nsidx + 1) p.bale == mpn

/-- R115: the pin bits follow the pending updates. -/
def State.repin (s : State) : State :=
  { s with map := { s.map with frames := s.map.frames.map fun f => { f with pin := s.pending_ f.mpn } } }

/-- A page is installed in a frame. -/
def State.install (s : State) (mpn : Nat) : State :=
  let s := s.repin
  let new : Frame := { mpn := mpn, ref := true, dirty := false, pin := s.pending_ mpn }
  let l := s.map.frames
  { s with map := { s.map with
    frames := if l.length < s.cacheFrames then l ++ [new] else clockTake new (2 * l.length + 1) l } }

/-- R115: a lookup sets the page's reference bit; an update sets its dirty bit too. -/
def State.touch (s : State) (mpn : Nat) (dirty : Bool) : State :=
  { s with map := { s.map with frames := s.map.frames.map fun f =>
      if f.mpn = mpn then { f with ref := true, dirty := f.dirty || dirty } else f } }

/-- Can a request for this page be served now? A page never stored reads as never written and needs no read (R114). -/
def State.pageReady (s : State) (mpn : Nat) : Bool := s.cached mpn || !s.stored mpn

/-- A page is brought under the hand of a request that can be served. -/
def State.usePage (s : State) (mpn : Nat) (dirty : Bool) : State :=
  (if s.cached mpn then s else s.install mpn).touch mpn dirty

/-- A map-page miss counts. -/
def State.missCount (s : State) : State := (s.setReg .MAP_MISS_CNT 0 (s.reg .MAP_MISS_CNT 0 + 1)).pmc 0x04 0x20

/-- R117: a page is missed, once: it is being read, or, with 4096 misses in progress, will be when one of them has ended. -/
def State.startMiss (s : State) (mpn : Nat) : State :=
  if s.map.missOrder.contains mpn then s
  else { s.missCount with map := { s.missCount.map with missOrder := s.map.missOrder ++ [mpn] } }

/-- Is a map page being read? -/
def State.wantsPage (s : State) (mpn : Nat) : Bool := (s.map.missOrder.take 4096).contains mpn

/-- R117: a request waits for its page. -/
def State.missPage (s : State) (mpn : Nat) (r : MapReq) : State :=
  let s := s.startMiss mpn
  { s with map := { s.map with misses := tput mpn (tgetD mpn [] s.map.misses ++ [r]) s.map.misses } }

/-- R115: a page is updated: its frame is referenced and dirty; one that is not in the cache is read for it (R131). -/
def State.updPage (s : State) (mpn : Nat) : State := if s.pageReady mpn then s.usePage mpn true else s.startMiss mpn

/-! ### Patch table occupancy (R124, R125) -/

/-- R125: OCC, PRIO and MERGE follow the number of valid patches. -/
def State.occUpdate (s : State) : State :=
  let n := s.map.patches.length
  let cap := 2 ^ clampTo 24 30 (s.get F.MAP_PTAB_CFG.LOG2N)
  let s := (s.put F.MAP_PTAB_STAT.OCC 0 n).put F.MAP_PTAB_STAT.PRIO 0 (if 75 * cap ≤ 100 * n then 1 else 0)
  if 875 * cap ≤ 1000 * n then s.put F.MAP_PTAB_STAT.MERGE 0 1
  else if 100 * n < 75 * cap then s.put F.MAP_PTAB_STAT.MERGE 0 0 else s

/-- Must partial-bale writes be merged (R125, MERGE_ALL)? -/
def State.merging (s : State) : Bool := s.on F.MAP_PTAB_STAT.MERGE || s.on F.MAP_CTL.MERGE_ALL

/-- Do some patches hold every block of a bale within its namespace? -/
def State.allPatched (s : State) (nsid bale : Nat) (ps : List (Nat × BitVec 64)) : Bool :=
  match s.nsOf nsid with
  | some n => (List.range (blocksPerBale n.lbaf)).all fun b =>
      decide (n.nsze ≤ bale * blocksPerBale n.lbaf + b) || ps.any fun p => p.1 == b
  | none => false

/-- R129: may a bale with these patches be repacked: not poisoned unless every block has a patch, and no placeholder? -/
def State.repackable (s : State) (nsid bale : Nat) (ps : List (Nat × BitVec 64)) : Bool :=
  (ent 51 51 (s.entry nsid bale) == 0 || s.allPatched nsid bale ps) && !ps.any fun p => isPlaceholder p.2

/-- R129: has the bale a poisoned placeholder? -/
def State.holdsPlace (s : State) (nsid bale : Nat) : Bool := (s.balePatches nsid bale).any fun p => isPlaceholder p.2

/-- R125, R129, R106: is a partial write of the bale a merge? Not while it has a placeholder, nor in a partial last bale. -/
def State.mergeDue (s : State) (nsid bale : Nat) : Bool :=
  s.merging && !s.holdsPlace nsid bale && !s.lastPartial nsid bale

/-- Must data in staging be merged into its bale? Not where the entry or a patch has been poisoned since, and so cannot be read: acknowledged
data then takes the patch path (DESIGN CHOICE, log entry 147). -/
def State.mustMerge (s : State) (nsid bale : Nat) : Bool :=
  s.mergeDue nsid bale && ent 51 51 (s.entry nsid bale) == 0 && (s.balePatches nsid bale).all fun p => bitsOf 49 49 p.2.toNat == 0

/-- R126: a bale is queued for repack, subject to R129. -/
def State.queueRepack (s : State) (nsid bale : Nat) : State :=
  if s.map.repack.contains (nsid, bale) || !s.repackable nsid bale (s.balePatches nsid bale) then s
  else { s with map := { s.map with repack := s.map.repack ++ [(nsid, bale)] } }

/-- R129: a bale that may no longer be repacked leaves the queue. -/
def State.unqueueRepack (s : State) (nsid bale : Nat) : State :=
  if s.repackable nsid bale (s.balePatches nsid bale) then s
  else { s with map := { s.map with repack := s.map.repack.filter fun r => r != (nsid, bale) } }

/-- R126: repack is due when PHINT reaches 4, and when PRIO is set for every bale that has a patch. -/
def State.repackCheck (s : State) (nsid bale : Nat) : State :=
  if s.on F.MAP_PTAB_STAT.PRIO then
    (s.map.patches.map fun e => e.1 / 16).eraseDups.foldl (fun s k => s.queueRepack (k / 2 ^ 37 + 1) (k % 2 ^ 37)) s
  else if 4 ≤ (s.balePatches nsid bale).length then s.queueRepack nsid bale else s

/-! ### Commits (R110, R121, R124, R127, R128, R130, R136) -/

/-- The commit order record of a block (R121). -/
def State.noteCommit (s : State) (nsid bale blk : Nat) (stamp : BitVec 64) : State :=
  let k := blockKey nsid bale blk
  if (tgetD k 0 s.map.lastCommit).toNat < stamp.toNat then
    { s with map := { s.map with lastCommit := tput k stamp s.map.lastCommit } }
  else s

/-- R120: the overlay entry of a committed write of a block is removed. -/
def State.unstage (s : State) (nsid bale blk : Nat) (stamp : BitVec 64) : State :=
  { s with map := { s.map with overlay := s.map.overlay.filter fun x =>
      !(x.nsid == nsid && x.bale == bale && x.blk == blk && x.stamp == stamp) } }.repin

/-- Grains that an entry in map page `mpn` named are freed: at once, or, where the page is not in the cache, once it is (R131). -/
def State.freeEntry (s : State) (nsid mpn gaddr len : Nat) : State :=
  if len = 0 then s
  else if s.pageReady mpn then (s.liveAdd nsid 0 len).grainsFree gaddr len
  else
    let s := s.startMiss mpn
    { s with map := { s.map with freeLater := s.map.freeLater ++ [(mpn, gaddr, len)] } }

/-- A patch is removed and its grains freed. -/
def State.dropPatch (s : State) (nsid bale blk : Nat) : State :=
  match s.patch nsid bale blk with
  | none => s
  | some v =>
    let s := { s with map := { s.map with patches := tdel (blockKey nsid bale blk) s.map.patches } }
    (s.liveAdd nsid 0 (patchLen v)).grainsFree (bitsOf 41 0 v.toNat) (patchLen v)

/-- A patch is removed, with its record (R140, type 3). -/
def State.removePatch (s : State) (nsid bale blk : Nat) : State :=
  match s.patch nsid bale blk with
  | none => s
  | some v => (s.journal 3 blk (nsid - 1) (s.instOf nsid) bale v).dropPatch nsid bale blk

/-- The bale's entry is replaced, PHINT as the patches then are; live grains, the journal and the page's frame follow (R115, R124,
R136, R140). -/
def State.putEntry (s : State) (nsid bale : Nat) (e : BitVec 64) : State :=
  let old := s.entry nsid bale
  let e := withPhint e (min 7 (s.balePatches nsid bale).length)
  let s := { s with map := { s.map with entries := tset 0 (baleKey nsid bale) e s.map.entries } }
  let s := if ent 41 0 old = ent 41 0 e ∧ ent 48 42 old = ent 48 42 e then s
    else
      ((s.freeEntry nsid (mpnOf nsid bale) (ent 41 0 old) (ent 48 42 old)).liveAdd nsid (ent 48 42 e) 0).grainsLive
        (ent 41 0 e) (ent 48 42 e)
  (s.journal 1 0 (nsid - 1) (s.instOf nsid) bale e).updPage (mpnOf nsid bale)

/-- R109, R124, R140: a patch takes the place of the block's old one; a never-written bale becomes a zero bale. VALUE takes the GEN of
the bale's entry: for a never-written bale 0, that of the old entry, not the 1 of the zero bale that takes its place (DESIGN CHOICE,
log entry 108). -/
def State.putPatch (s : State) (nsid bale blk : Nat) (v : BitVec 64) : State :=
  let old := s.entry nsid bale
  let s := s.dropPatch nsid bale blk
  let v := BitVec.ofNat 64 (insBits 63 56 v.toNat (ent 63 56 old))
  let s := { s with map := { s.map with patches := tput (blockKey nsid bale blk) v s.map.patches } }
  let s := (s.liveAdd nsid (patchLen v) 0).grainsLive (bitsOf 41 0 v.toNat) (patchLen v)
  let s := s.journal 2 blk (nsid - 1) (s.instOf nsid) bale v
  s.putEntry nsid bale (if old = 0 then mkEntry 1 0 0 0 0 1 0 0 else old)

/-- The block indices of a bale in the namespace. -/
def State.baleBlocks (s : State) (nsid : Nat) : List Nat :=
  match s.nsOf nsid with
  | some n => List.range (blocksPerBale n.lbaf)
  | none => List.range 16

/-- R110, R121, R128: a commit to the whole bale with a fetch stamp: discarded when every block has a newer commit; otherwise the new
entry is written with the next GEN, and every patch goes but those of blocks committed later. Where a repack has folded a later commit
of some block into the entry, the whole bale cannot take its place: nothing is written, the outdated blocks leave staging, and the others
stay there to be placed again (DESIGN CHOICE, log entry 123). -/
def State.wholeCommit (s : State) (nsid bale : Nat) (e : BitVec 64) (stamp : BitVec 64) : State × Bool :=
  let blks := s.baleBlocks nsid
  let stale := blks.filter fun b => s.outdated nsid bale b stamp
  let fresh := blks.filter fun b => !s.outdated nsid bale b stamp
  if fresh.isEmpty then (blks.foldl (fun s b => s.unstage nsid bale b stamp) (s.uncharge stamp nsid bale), false)
  else if stale.any fun b => (s.patch nsid bale b).isNone then (stale.foldl (fun s b => s.unstage nsid bale b stamp) s, false)
  else
    let s := blks.foldl (fun s b => s.unstage nsid bale b stamp) (s.uncharge stamp nsid bale)
    let gen := ent 63 56 (s.entry nsid bale) + 1
    let s := fresh.foldl (fun s b => (s.removePatch nsid bale b).noteCommit nsid bale b stamp) s
    ((s.putEntry nsid bale (withGen e gen)).occUpdate, true)

/-- R121, R125: a merged bale commits: its write's blocks `mine`, and the others as they were when it was placed. Where the entry or a patch
of the others has changed since, nothing is written, and what is not outdated stays in staging to be placed again (DESIGN CHOICE, log
entry 123); only the write's own blocks count as committed by it. -/
def State.mergeCommit (s : State) (nsid bale : Nat) (e expect : BitVec 64) (snap : List (Nat × BitVec 64)) (mine : List Nat)
    (stamp : BitVec 64) : State × Bool :=
  let stale := mine.filter fun b => s.outdated nsid bale b stamp
  let fresh := mine.filter fun b => !s.outdated nsid bale b stamp
  let others := (s.baleBlocks nsid).filter fun b => !mine.contains b
  let same := withPhint (s.entry nsid bale) 0 == withPhint expect 0 && others.all fun b => s.patch nsid bale b == tget b snap
  if fresh.isEmpty then (mine.foldl (fun s b => s.unstage nsid bale b stamp) (s.uncharge stamp nsid bale), false)
  else if !same || stale.any fun b => (s.patch nsid bale b).isNone then (stale.foldl (fun s b => s.unstage nsid bale b stamp) s, false)
  else
    let s := mine.foldl (fun s b => s.unstage nsid bale b stamp) (s.uncharge stamp nsid bale)
    let gen := ent 63 56 (s.entry nsid bale) + 1
    let s := fresh.foldl (fun s b => (s.removePatch nsid bale b).noteCommit nsid bale b stamp) s
    let s := others.foldl (fun s b => s.removePatch nsid bale b) s
    ((s.putEntry nsid bale (withGen e gen)).occUpdate, true)

/-- R121, R124: a patch commit: discarded when the block has a newer commit; otherwise it replaces the block's patch. -/
def State.patchCommit (s : State) (nsid bale blk : Nat) (v : BitVec 64) (stamp : BitVec 64) : State × Bool :=
  let s := (s.uncharge stamp nsid bale).unstage nsid bale blk stamp
  if s.outdated nsid bale blk stamp then (s, false)
  else
    let s := (s.noteCommit nsid bale blk stamp).putPatch nsid bale blk v
    ((s.occUpdate.pmc 0x04 0x22).repackCheck nsid bale, true)

/-- An entry with another POISON bit. -/
def withPoison (e : BitVec 64) (p : Nat) : BitVec 64 := BitVec.ofNat 64 (insBits 51 51 e.toNat p)

/-- R127: a conditional commit: only if the entry still equals the snapshot but for PHINT; the patches whose VALUE still equals the
snapshot's go, the others stay. A repack takes the next GEN (R110), clears POISON and needs what R129 asks; a relocation keeps GEN
and POISON (R272). -/
def State.condCommit (s : State) (repack : Bool) (nsid bale : Nat) (e expect : BitVec 64) (snap : List (Nat × BitVec 64)) :
    State × Bool :=
  let cur := s.entry nsid bale
  if withPhint cur 0 ≠ withPhint expect 0 || (repack && !s.repackable nsid bale snap) then (s, false)
  else
    let same := snap.filter fun p => s.patch nsid bale p.1 == some p.2
    let s := same.foldl (fun s p => s.removePatch nsid bale p.1) s
    let e := if repack then withPoison (withGen e (ent 63 56 cur + 1)) 0
      else withPoison (withGen e (ent 63 56 cur)) (ent 51 51 cur)
    let s := if repack then { s with map := { s.map with repack := s.map.repack.filter fun r => r != (nsid, bale) } } else s
    ((s.putEntry nsid bale e).occUpdate, true)

/-- The zero bale entry. -/
def zeroEntry : BitVec 64 := mkEntry 0 0 0 0 0 1 0 0

/-- R130: one bale of a zero span: whole bales become zero bales, blocks of a partly covered one get zero patches; so do those of a
whole bale where a later commit of some block stands in its way (R121). -/
def State.zeroBale (s : State) (nsid bale first n : Nat) (stamp : BitVec 64) : State :=
  match s.nsOf nsid with
  | none => s
  | some ns =>
    let whole := s.wholeCommit nsid bale zeroEntry stamp
    if first = 0 ∧ n = blocksPerBale ns.lbaf ∧ whole.2 = true then whole.1
    else (List.range n).foldl (fun s i =>
      (s.patchCommit nsid bale (first + i) (mkPatch 0 0 0 0 1 0 0) stamp).1) s

/-- Is the key of an entry in map page `mpn`? -/
def inPage (mpn k : Nat) : Bool := k / 512 == mpn

/-- The keys of a table that satisfy `p`. -/
def keysWhere {β : Type} (p : Nat → Bool) (t : Tbl β) : List Nat := t.filterMap fun e => if p e.1 then some e.1 else none

/-- The bales of a map page that hold something: those with an entry or a patch. -/
def State.pageBales (s : State) (mpn : Nat) : List Nat :=
  let a := (keysWhere (inPage mpn) s.map.entries).map fun k => k % 2 ^ 37
  let b := (keysWhere (fun k => inPage mpn (k / 16)) s.map.patches).map fun k => k / 16 % 2 ^ 37
  (a ++ b).eraseDups

/-- The patches that a bale keeps are journalled again, after the record that dropped their page. -/
def State.rejournal (s : State) (nsid bale : Nat) : State :=
  (s.balePatches nsid bale).foldl (fun s p => s.journal 2 p.1 (nsid - 1) (s.instOf nsid) bale p.2) s

/-- R130: one bale of a dropped page: never written again, unless blocks of it have newer commits, which keep what they
have while the others read as zeros. -/
def State.dropBale (nsid : Nat) (stamp : BitVec 64) (s : State) (bale : Nat) : State :=
  let fresh := (s.baleBlocks nsid).filter fun k => !s.outdated nsid bale k stamp
  if fresh.length = (s.baleBlocks nsid).length then
    let old := s.entry nsid bale
    let s := fresh.foldl (fun s k => s.dropPatch nsid bale k) s
    let s := s.freeEntry nsid (mpnOf nsid bale) (ent 41 0 old) (ent 48 42 old)
    { s with map := { s.map with entries := tdel (baleKey nsid bale) s.map.entries } }
  else
    let s := fresh.foldl (fun s k => (s.patchCommit nsid bale k (mkPatch 0 0 0 0 1 0 0) stamp).1) s
    (s.putEntry nsid bale (s.entry nsid bale)).rejournal nsid bale

/-- R130: a map page is dropped: a commit with the fetch stamp to every block of it. -/
def State.dropPage (s : State) (nsid page : Nat) (stamp : BitVec 64) : State :=
  let mpn := (nsid - 1) * 2 ^ 28 + page
  let bales := s.pageBales mpn
  let dc := if (tgetD mpn 0 s.map.dropCommit).toNat < stamp.toNat then tput mpn stamp s.map.dropCommit else s.map.dropCommit
  let at_ := s.map.nextJseq
  let s := s.journal 4 0 (nsid - 1) (s.instOf nsid) page 0
  let s := { s with map := { s.map with
    frames := s.map.frames.map fun f => if f.mpn = mpn then { f with dirty := false } else f } }
  let s := bales.foldl (State.dropBale nsid stamp) s
  { s with map := { s.map with dropCommit := dc, dropped := tput mpn at_ s.map.dropped } }.occUpdate

/-- R130: the bales of a span of `n` blocks from block `lba` on, bale by bale (`fuel` of them). -/
def State.zeroSpan (s : State) (nsid bpb : Nat) (stamp : BitVec 64) : Nat → Nat → Nat → State
  | 0, _, _ => s
  | fuel + 1, lba, n =>
    if n = 0 then s
    else
      let first := lba % bpb
      let k := min n (bpb - first)
      (s.zeroBale nsid (lba / bpb) first k stamp).zeroSpan nsid bpb stamp fuel (lba + k) (n - k)

/-- R130: whole map pages that a span covers, aligned to 32 MiB, are dropped; the rest becomes zero bales and zero
patches. -/
def State.zeroRange (s : State) (nsid lba n : Nat) (stamp : BitVec 64) : State :=
  match s.nsOf nsid with
  | none => s
  | some ns =>
    let bpb := blocksPerBale ns.lbaf
    let per := 512 * bpb
    let p0 := (lba + per - 1) / per
    let p1 := (lba + n) / per
    if p0 < p1 then
      let s := s.zeroSpan nsid bpb stamp (p0 * per - lba + 1) lba (p0 * per - lba)
      let s := (List.range (p1 - p0)).foldl (fun s i => s.dropPage nsid (p0 + i) stamp) s
      s.zeroSpan nsid bpb stamp (lba + n - p1 * per + 1) (p1 * per) (lba + n - p1 * per)
    else s.zeroSpan nsid bpb stamp (n + 1) lba n

/-! ### Request queues (R145, R146) -/

/-- The descriptors a ring holds. -/
def ringDescs (size : Nat) : Nat := 2 ^ clampTo 6 15 size

/-- R145: a request is completed: RESULT and STATUS in its descriptor, its line; its source under FLAGS bit 1 and when ERR becomes set
(R146), or always under R112 (`force`). While the line is full all of it waits (R25). -/
def State.mapEnd (s : State) (r : MapReq) (status : Nat) (result : BitVec 64) (force : Bool := false) : State :=
  let at_ := s.get F.MAP_QBASE.BASE r.q * 64 + 64 * r.slot
  let bad := decide (status = 3 ∨ status = 5)
  let s := (s.pmc 0x04 0x11).pmc 0x04 0x12 (if bad then 1 else 0)
  let line := if r.d.flags.getLsbD 0 then s.get F.MAP_QCTL.EVT r.q else 0
  s.complete
    { line := line, ring := some (0x50 + r.q)
      wr := [(at_ + 0x28, leBytes 8 result.toNat), (at_ + 0x30, leBytes 4 status)]
      err := if bad then some (4, r.q) else none
      errSrc := some (156 + r.q)
      srcs := if r.d.flags.getLsbD 1 || force then [156 + r.q] else [] }

/-- R145: is the descriptor malformed for its OP? The manual does not list what is: besides the fields that must be 0, the model takes
an NSIDX of 4096 or more and a BALE of 2^37 or more (DESIGN CHOICE, log entry 112) and a lookup whose BLK plus COUNT runs past its bale (DESIGN CHOICE, log entry
110). -/
def State.mapMalformed (s : State) (op : Nat) (d : MapDesc) : Bool :=
  let bpb := match s.nsOf (d.nsidx + 1) with
    | some n => blocksPerBale n.lbaf
    | none => 16
  !d.mbz || decide (4 ≤ d.flags.toNat ∨ 4096 ≤ d.nsidx ∨ 2 ^ 37 ≤ d.bale) ||
  match op with
  | 1 => decide (d.count = 0 ∨ 16 < d.count ∨ bpb < d.blk + d.count ∨ d.value ≠ 0 ∨ d.expect ≠ 0)
  | 2 => decide (d.count ≠ 0 ∨ d.blk ≠ 0 ∨ d.expect ≠ 0)
  | 3 => decide (d.count ≠ 0 ∨ bpb ≤ d.blk ∨ d.expect ≠ 0)
  | 4 => decide (bpb ≤ d.blk ∨ d.value ≠ 0 ∨ d.expect ≠ 0)
  | 5 => decide (d.count ≠ 0 ∨ d.blk ≠ 0)
  | _ => decide (d.count ≠ 0 ∨ d.blk ≠ 0 ∨ d.value ≠ 0 ∨ d.expect ≠ 0 ∨ 2 ^ 28 ≤ d.bale)

/-- The resolution list of a lookup of blocks of one bale (BLK and COUNT stay in it, log entry 110): block, source (0 overlay, 1 patch, 2 entry), value. -/
def State.resolution (s : State) (d : MapDesc) : List (Nat × Nat × BitVec 64) :=
  (List.range d.count).map fun i =>
    let b := d.blk + i
    match s.resolve (d.nsidx + 1) d.bale b with
    | .overlay x => (b, 0, x.stamp)
    | .patch v => (b, 1, v)
    | .entry e => (b, 2, e)

/-- Is the namespace sealed? -/
def State.nsSealed (s : State) (nsid : Nat) : Bool :=
  match s.nsOf nsid with
  | some n => n.sealed
  | none => false

/-- The LBA format of a namespace. -/
def State.nsLbaf (s : State) (nsid : Nat) : Nat :=
  match s.nsOf nsid with
  | some n => n.lbaf
  | none => 0

/-- OP 1: a lookup (R112, R119). RESULT is an address in HBM, the engine's own choice (a free value); of an entry in no form it is the entry, of a
malformed lookup 0 (DESIGN CHOICE, log entry 154). -/
def mapLookup (r : MapReq) (s : State) : State :=
  let d := r.d
  let nsid := d.nsidx + 1
  let s := (s.usePage (mpnOf nsid d.bale) false).pmc 0x04 0x21
  if entryOk (s.nsSealed nsid) (s.entry nsid d.bale) then
    let l := s.resolution d
    let s := { s with map := { s.map with resol := tput r.q l s.map.resol } }
    s.drawn.mapEnd r 1 (BitVec.ofNat 64 (0x1000000000 + Config.free s.freeNo % 0x1800000000))
  else s.mapEnd r 3 (s.entry nsid d.bale) true

/-- The status of a commit: done, or discarded under R121 or R127. -/
def commitStatus (ok : Bool) : Nat := if ok then 1 else 2

/-- R109, R113: may a VALUE become the entry of a bale that a commit writes? It has a form of its own other than the never-written one,
which no commit writes (R110 gives the entry a GEN), and its extent stays in its convoy block. -/
def State.newEntryOk (s : State) (nsid : Nat) (e : BitVec 64) : Bool :=
  entryOk (s.nsSealed nsid) e && withPhint (withGen e 0) 0 != 0 && extentOk (ent 41 0 e) (ent 48 42 e)

/-- R113, R123: may a VALUE become the patch of a block? -/
def State.newPatchOk (s : State) (nsid : Nat) (v : BitVec 64) : Bool :=
  patchOk (s.nsLbaf nsid) (s.nsSealed nsid) v && extentOk (bitsOf 41 0 v.toNat) (patchLen v)

/-- A commit of a request ends: done or discarded, with the entry after it. -/
def endCommit (r : MapReq) (x : State × Bool) : State :=
  x.1.mapEnd r (commitStatus x.2) (x.1.entry (r.d.nsidx + 1) r.d.bale)

/-- OP 2: an entry commit (R121); a VALUE in none of the forms of R109 ends with status 3. -/
def mapEntryCommit (r : MapReq) (s : State) : State :=
  let nsid := r.d.nsidx + 1
  if s.newEntryOk nsid r.d.value then
    endCommit r ((s.usePage (mpnOf nsid r.d.bale) true).wholeCommit nsid r.d.bale r.d.value r.d.fstamp)
  else s.mapEnd r 3 (s.entry nsid r.d.bale)

/-- OP 3: a patch commit (R124); where the write must be merged instead it ends with status 4 (R125), and a VALUE in none of the
forms of R123 with status 3. Where several apply, 3 goes before 4 and 4 before 2 (DESIGN CHOICE, log entry 154). -/
def mapPatchCommit (r : MapReq) (s : State) : State :=
  let d := r.d
  let nsid := d.nsidx + 1
  if !s.newPatchOk nsid d.value then
    s.mapEnd r 3 (s.entry nsid d.bale)
  else if s.mustMerge nsid d.bale then s.mapEnd r 4 (s.entry nsid d.bale)
  else endCommit r ((s.usePage (mpnOf nsid d.bale) true).patchCommit nsid d.bale d.blk d.value d.fstamp)

/-- R121: has every block of a span of `n` blocks from `lba` on a newer commit? -/
def State.spanStale (s : State) (nsid bpb lba n : Nat) (stamp : BitVec 64) : Bool :=
  (List.range n).all fun i => s.outdated nsid ((lba + i) / bpb) ((lba + i) % bpb) stamp

/-- OP 4: a zero span (R130): discarded only where every block of it is, and done with no block (DESIGN CHOICE, log entry 154). -/
def mapZeroSpan (r : MapReq) (s : State) : State :=
  let d := r.d
  let nsid := d.nsidx + 1
  let bpb := blocksPerBale (s.nsLbaf nsid)
  let lba := d.bale * bpb + d.blk
  let s := s.usePage (mpnOf nsid d.bale) true
  endCommit r (s.zeroSpan nsid bpb d.fstamp (d.count + 1) lba d.count, d.count == 0 || !s.spanStale nsid bpb lba d.count d.fstamp)

/-- OP 5: a conditional commit (R127). VALUE's GEN says which it is: that of the snapshot a relocation, which keeps it (R110), any other
a repack (DESIGN CHOICE, log entry 124). -/
def mapCondCommit (r : MapReq) (s : State) : State :=
  let d := r.d
  let nsid := d.nsidx + 1
  if s.newEntryOk nsid d.value then
    let repack := ent 63 56 d.value != ent 63 56 d.expect
    endCommit r ((s.usePage (mpnOf nsid d.bale) true).condCommit repack nsid d.bale d.value d.expect d.snapshot)
  else s.mapEnd r 3 (s.entry nsid d.bale)

/-- R121: has every block of a map page a newer commit than a drop? -/
def State.dropStale (s : State) (nsid page : Nat) (stamp : BitVec 64) : Bool :=
  let mpn := (nsid - 1) * 2 ^ 28 + page
  let newer := s.map.lastCommit.filter fun e => inPage mpn (e.1 / 16) && decide (stamp.toNat < e.2.toNat)
  decide (stamp.toNat < (tgetD mpn 0 s.map.dropCommit).toNat) ||
    decide (newer.length = 512 * blocksPerBale (s.nsLbaf nsid))

/-- OP 6: a page drop (R130); discarded where every block has a newer commit (R121). -/
def mapPageDrop (r : MapReq) (s : State) : State :=
  let nsid := r.d.nsidx + 1
  if s.dropStale nsid r.d.bale r.d.fstamp then s.mapEnd r 2 0
  else (s.dropPage nsid r.d.bale r.d.fstamp).mapEnd r 1 0

/-- R114: the 4096 bytes of a map page. -/
def State.pageBytes (s : State) (mpn : Nat) : Bytes :=
  (List.range 512).flatMap fun i => leBytes 8 (tgetD (mpn * 512 + i) 0 s.map.entries).toNat

/-- A unit joins what the checkpoint has made; one of the same kind and key that has not been placed yet gives way to it. -/
def State.ckptAdd (s : State) (u : CkUnit) : State :=
  let same := fun (x : CkUnit) => x.kind == u.kind && x.key == u.key && x.place.isNone
  let u := { u with round := u.round || s.map.ckptQ.any fun x => same x && x.round }
  { s with map := { s.map with ckptQ := (s.map.ckptQ.filter fun x => !same x) ++ [u] } }

/-- A unit of 4 KiB under a tweak, with the last record that it includes. -/
def State.ckptOf (s : State) (inst : BitVec 32) (jseq : Nat) (tweak b : Bytes) (es : List (Nat × BitVec 64) := []) : Ckpt :=
  { inst := inst, jseq := jseq, loc := 0, crc := crc32c b, es := es, image := s.systemUnit tweak b }

/-- R143: a map page as it is now is to be stored; a system convoy takes it (R232). -/
def State.storePage (round : Bool) (s : State) (mpn : Nat) : State :=
  s.ckptAdd
    { kind := 0, key := mpn, round := round
      c := s.ckptOf (s.instOf (mpn / 2 ^ 28 + 1)) (s.map.nextJseq - 1) (mapPageTweak mpn) (s.pageBytes mpn)
        (s.map.entries.filter fun e => inPage mpn e.1) }

/-- OP 7: a page write-back (R143) ends when a page that is dirty has been stored, at once for any other. RESULT of OP 6 and 7, which
concern a page and no entry, is 0 (DESIGN CHOICE, log entry 111). -/
def mapPageWriteBack (r : MapReq) (s : State) : State :=
  let mpn := r.d.nsidx * 2 ^ 28 + r.d.bale
  if s.map.frames.any fun f => f.mpn == mpn && f.dirty then
    let s := s.storePage false mpn
    { s with map := { s.map with backs := s.map.backs ++ [r] } }
  else s.mapEnd r 1 0

/-- The meaning of a well-formed request. -/
def mapServe (r : MapReq) (s : State) : State :=
  match r.op with
  | 1 => mapLookup r s
  | 2 => mapEntryCommit r s
  | 3 => mapPatchCommit r s
  | 4 => mapZeroSpan r s
  | 5 => mapCondCommit r s
  | 6 => mapPageDrop r s
  | _ => mapPageWriteBack r s

/-- Has Pack Link acknowledged the program of every grain of an extent (R142, rule 1)? -/
def State.grainsAcked (s : State) (gaddr len : Nat) : Bool :=
  let c := s.cb (cbidOf gaddr)
  len == 0 || decide (c.state ≠ 0 ∧ 1 + (gaddr + len - 1) / 16 % 65536 / (c.w - 2) < c.acked)

/-- Do the grains that a commit names still wait for their programs? -/
def State.awaitsGrains (s : State) (r : MapReq) : Bool :=
  let v := r.d.value
  if r.op = 2 ∨ r.op = 5 then s.newEntryOk (r.d.nsidx + 1) v && !s.grainsAcked (ent 41 0 v) (ent 48 42 v)
  else r.op == 3 && s.newPatchOk (r.d.nsidx + 1) v && !s.grainsAcked (bitsOf 41 0 v.toNat) (patchLen v)

/-- A request that has been taken is served, or waits for its map page (R117) or, a commit, for its grains (R142). `here`: the page it
waited for has just been read. -/
def State.mapRun (s : State) (r : MapReq) (here : Bool := false) : State :=
  let nsid := r.d.nsidx + 1
  if s.mapMalformed r.op r.d then s.mapEnd r 5 (if 2 ≤ r.op ∧ r.op ≤ 5 then s.entry nsid r.d.bale else 0)
  else if r.op ≤ 5 ∧ !here ∧ !s.pageReady (mpnOf nsid r.d.bale) then s.missPage (mpnOf nsid r.d.bale) r
  else if s.awaitsGrains r then { s with map := { s.map with held := s.map.held ++ [r] } }
  else mapServe r s

/-- Commits that waited for grains are looked at again. -/
def State.mapHeld (s : State) : State := s.map.held.foldl (fun s r => s.mapRun r) { s with map := { s.map with held := [] } }

/-- A request is taken from queue `q`: firmware has posted it and moved TAIL, the engine moves HEAD past it and runs it. Requests on a
disabled engine or queue are refused: nothing happens (MAP_CTL.EN). -/
def mapTake (op q : Nat) (d : MapDesc) (s : State) : State :=
  if s.domHeld 108 then s.gateKeep (.map op q d)
  else if s.on F.MAP_CTL.EN && s.on F.MAP_QCTL.EN q then
    let n := ringDescs (s.get F.MAP_QCTL.SIZE q)
    let slot := s.get F.MAP_QHEAD.HEAD q % n
    let s := (s.put F.MAP_QTAIL.TAIL q ((s.get F.MAP_QTAIL.TAIL q + 1) % n)).pmc 0x04 0x10
    (s.put F.MAP_QHEAD.HEAD q ((slot + 1) % n)).mapRun { q := q, op := op, slot := slot, d := d }
  else s

/-- The grains that waited for map page `mpn` are freed (R131). -/
def State.freeWaiting (s : State) (mpn : Nat) : State :=
  let mine := s.map.freeLater.filter fun f => f.1 == mpn
  let s := { s with map := { s.map with freeLater := s.map.freeLater.filter fun f => f.1 != mpn } }
  mine.foldl (fun s f => (s.liveAdd (mpn / 2 ^ 28 + 1) 0 f.2.2).grainsFree f.2.1 f.2.2) s

/-- The pages with entries that a record still in the journal has changed since the checkpoint stored them. -/
def State.changedPages (s : State) : List Nat :=
  ((s.map.jblocks.flatMap fun b => b.recs) ++ s.map.openJ).filterMap fun r =>
    if r.typ = 1 ∧ r.inst = s.instOf (r.nsidx + 1) ∧ s.pageJseq r.mpn < r.jseq then some r.mpn else none

/-- R117, R131: a page has come: it takes a frame, dirty if updates went before, grains that waited for it are freed, and the requests that
waited are served. -/
def mapPageFilled (mpn : Nat) (s : State) : State :=
  let w := tgetD mpn [] s.map.misses
  let s := { s with map := { s.map with misses := tdel mpn s.map.misses, missOrder := s.map.missOrder.filter fun k => k != mpn } }
  let s := if s.stored mpn && !s.cached mpn then (s.install mpn).touch mpn (s.changedPages.contains mpn) else s
  w.foldl (fun s r => s.mapRun r true) (s.freeWaiting mpn)

/-- The dirty pages, in ascending MPN order (R143): those of dirty frames, and those that a record changed. -/
def State.dirtyPages (s : State) : List Nat :=
  sortBy (fun a b => decide (a ≤ b))
    (((s.map.frames.filter fun f => f.dirty).map fun f => f.mpn) ++ s.changedPages).eraseDups

/-- R142, rule 3: journal blocks whose records are all stored by the checkpoint and programmed are released. -/
def State.releaseJournal (s : State) (oldest : Nat) : State :=
  let done := fun (b : JBlock) => b.programmed && b.recs.all fun r => decide (r.jseq < oldest)
  let last := ((s.map.jblocks.filter done).flatMap fun b => b.recs).foldl (fun n r => max n r.jseq) s.map.relJseq
  let dead := (s.map.jblocks.filter done).filterMap fun b => b.place
  let s := dead.foldl (fun s p => s.setCb p.1 { s.cb p.1 with live := (s.cb p.1).live - 4 }) s
  { s with map := { s.map with relJseq := last, jblocks := s.map.jblocks.filter fun b => !done b } }

/-- The pages that have been dropped leave the index once their drops are in packs, and their grains die. -/
def State.dropStored (s : State) (mark : Nat) : State :=
  let gone := s.map.dropped.filter fun d => decide (d.2 ≤ mark) && s.journalled d.2
  let dead := s.map.ckpt.filter fun c => gone.any fun d => d.1 == c.1 && decide (c.2.jseq < d.2)
  let s := dead.foldl (fun s c => s.grainsFree c.2.loc 4) s
  { s with map := { s.map with
    ckpt := s.map.ckpt.filter fun c => !dead.any fun d => d.1 == c.1
    dropped := s.map.dropped.filter fun d => !gone.any fun g => g.1 == d.1 } }

/-- R143, R303: a round ends when all that it made is in packs: its patch table is that of a start, those before it die, and a type 7 record
names the oldest record still needed. -/
def State.roundGo (s : State) : State :=
  match s.map.ckptOpen with
  | none => s
  | some r =>
    if s.map.ckptQ.any fun u => u.round then s
    else
      let s := s.map.ckptLocs.foldl (fun s l => s.grainsFree l 4) s
      let s := { s with map := { s.map with ckptOpen := none, durP := r.ps, durAt := r.mark, ckptLocs := r.locs } }
      let s := s.journal 7 0 0 0 (r.mark + 1) (BitVec.ofNat 64 s.map.ckptRound)
      (s.dropStored r.mark).releaseJournal (r.mark + 1)

/-- A map page is in packs: the index names it, unless its slot has another instance by then or it has been dropped; the one stored before
dies, a frame without later updates is clean (R115), and write-backs of it end. -/
def State.pageStored (s : State) (mpn : Nat) (c : Ckpt) : State :=
  if c.inst ≠ s.instOf (mpn / 2 ^ 28 + 1) ∨ c.jseq < tgetD mpn 0 s.map.dropped then s.grainsFree c.loc 4
  else
    let s := match tget mpn s.map.ckpt with
      | some o => s.grainsFree o.loc 4
      | none => s
    let s := { s with map := { s.map with ckpt := tput mpn c s.map.ckpt } }
    let dirty := s.changedPages.contains mpn
    let mine := fun (r : MapReq) => r.d.nsidx * 2 ^ 28 + r.d.bale == mpn
    let done := s.map.backs.filter mine
    let s := { s with map := { s.map with
      frames := s.map.frames.map fun f => if f.mpn = mpn then { f with dirty := f.dirty && dirty } else f
      backs := s.map.backs.filter fun r => !mine r } }
    done.foldl (fun s r => s.mapEnd r 1 0) s

/-- A unit of the checkpoint is in packs. -/
def State.unitStored (s : State) (u : CkUnit) : State :=
  if u.kind = 0 then s.pageStored u.key u.c
  else match s.map.ckptOpen with
    | some r => { s with map := { s.map with ckptOpen := some { r with locs := r.locs ++ [u.c.loc] } } }
    | none => s.grainsFree u.c.loc 4

/-- The units placed in page `page` of convoy block `cbid` are in packs. -/
def State.unitsDone (s : State) (cbid page : Nat) : State :=
  let mine := fun (u : CkUnit) => u.place == some (cbid, page)
  let done := s.map.ckptQ.filter mine
  let s := { s with map := { s.map with ckptQ := s.map.ckptQ.filter fun u => !mine u } }
  (done.foldl State.unitStored s).roundGo

/-! ### What a command has reserved, and what a lost page of HBM ends (R31, R406, R537) -/

/-- SEC_KSTAT shows what is loaded. -/
def State.kstat (s : State) : State :=
  let s := s.put F.SEC_KSTAT.SRK 0 (if (s.kslot 0).loaded then 1 else 0)
  let s := s.put F.SEC_KSTAT.DTS 0 (if s.keys.dts.isSome && !s.keys.noUnwrap then 1 else 0)
  let s := s.put F.SEC_KSTAT.CO 0 (if s.keys.auth.any fun k => k.role == 2 then 1 else 0)
  s.put F.SEC_KSTAT.LOADED 0 (s.keys.slots.filter fun e => e.2.loaded).length

/-- Key slot `n` is replaced. -/
def State.setKslot (s : State) (n : Nat) (k : KeySlot) : State :=
  { s with keys := { s.keys with slots := tset {} n k s.keys.slots } }.kstat

/-- R406: nonces that a write reserves: 4 for each bale it may store whole, 1 for each patch. -/
def State.nonceNeed (s : State) (ns : Ns) (slba n : Nat) : Nat :=
  let bpb := blocksPerBale ns.lbaf
  if n = 0 then 0
  else
    let b0 := slba / bpb
    let b1 := (slba + n - 1) / bpb
    (List.range (b1 + 1 - b0)).foldl (fun a i =>
      let lo := max slba ((b0 + i) * bpb)
      let hi := min (slba + n) ((b0 + i + 1) * bpb)
      a + if hi - lo = bpb ∨ s.merging = true then 4 else hi - lo) 0

/-- R406: a reservation of nonces on the key of a namespace changes. -/
def State.rsvAdd (s : State) (ns : Ns) (add sub : Nat) : State :=
  if ns.sealed then
    let k := ns.keyref.toNat % 65536
    s.setKslot k { s.kslot k with rsv := (s.kslot k).rsv + add - sub }
  else s

/-- What a command in flight has reserved is given back: its charge and, for data still to come, its nonces. -/
def State.giveBack (s : State) (c : Ctx) : State :=
  let s := s.unchargeAll c.stamp
  match c.wait with
  | .rdma x => match s.nsOf x.nsid with
    | some ns => s.rsvAdd ns 0 (s.nonceNeed ns x.slba x.blocks.length)
    | none => s
  | _ => s

/-- Does data of a command that has not completed lie in HBM: that of a fabric write whose data is still to come? -/
def Ctx.hasData (c : Ctx) : Bool :=
  match c.wait with
  | .rdma _ => true
  | _ => false

/-- R31: on a solo controller, every command whose context or data lies in a page that cannot be recovered ends with Unrecovered Read
Error (contexts lie in HBM as R532 says, 256 bytes each; where a command's data lies is free). -/
def State.pageLost (s : State) (page : Nat) : State :=
  if s.staged then s
  else
    let hit := fun (c : Ctx) => (0x2500000000 + 256 * c.slot) / 4096 == page || (c.hasData && (Config.dataPages c.stamp).contains page)
    (s.hif.ctxs.filter hit).foldl (fun s c => (s.giveBack c).fail c 2 0x81) s

/-- R534, R537: an engine reads some spans of bytes under the codes; is a word of them poisoned? What that costs follows (R31). -/
def State.engFetch (s : State) : List (Nat × Nat) → State × Bool
  | [] => (s, false)
  | sp :: t =>
    if !s.on F.HBC_INIT.DONE then (s, false)
    else
      let r := s.hbcReadRun sp.1 sp.2
      match r.2 with
      | some w => (r.1.pageLost (w / 512), true)
      | none => r.1.engFetch t

end Sys2Proof.Machine
end

