-- ==== Sys2Proof/Machine/Bale.lean ====
section
/-! DEFINITION. Stored bales and patches: the coding of units, the header grain, the entry or VALUE that what is stored gives, and
what a write, a repack or a relocation stores (chapters 4, 5 and 12). -/

namespace Sys2Proof.Machine

/-! ### Coding (R148, R149, R155, R166) -/

/-- The width of an element in bytes (R158). -/
def elWidth (eltype : Nat) : Nat := if eltype = 0 ∨ eltype = 4 then 4 else 2

/-- R148, R123: a unit coded: its padded coded bytes, or the unshuffled plaintext where they would be no shorter. What is coded decodes
again (R156): the code is not stated, and coded bytes that do not give the unit back are none (DEDUCED, log entry 166). -/
def codeUnit (w : Nat) (u : Bytes) : Bytes × Bool :=
  let c := padTo 16 (Config.cmpCode w u)
  if c.length < u.length ∧ Config.cmpDecode c = some u then (c, true) else (if w = 0 then u else unshuffleUnit w u, false)

/-- What a job writes and how it ends. -/
structure CmpEnd where
  status : Nat
  out : Bytes := []
  qlen : List Nat := [0, 0, 0, 0]
deriving DecidableEq, Repr

/-- OP 1: a bale coded as four quarters, or stored raw (R148, R149). -/
def codeBaleEnd (w : Nat) (b : Bytes) : CmpEnd :=
  let q := (List.range 4).map fun i => codeUnit w ((b.drop (16384 * i)).take 16384)
  let s := q.foldl (fun (a : Nat) x => a + x.1.length) 0
  if s ≤ 64512 then { status := 1, out := q.flatMap fun x => x.1, qlen := q.map fun x => x.1.length }
  else
    { status := 2
      out := (List.range 4).flatMap fun i =>
        let u := (b.drop (16384 * i)).take 16384
        if w = 0 then u else unshuffleUnit w u
      qlen := [16384, 16384, 16384, 16384] }

/-- R166: the shuffle width of a write with this ELSIZE; a repack has ELSIZE 0. -/
def elShuffle (ns : Ns) (elsize : Nat) : Nat :=
  if !ns.tolerance then 0 else if elsize = 2 ∨ elsize = 4 ∨ elsize = 8 then elsize else elWidth ns.eltype

/-- A unit of plaintext shuffled (R167) and coded: the stored bytes, and whether they are coded. -/
def codePlain (w : Nat) (u : Bytes) : Bytes × Bool := codeUnit w (if w = 0 then u else shuffleUnit w u)

/-- A bale as it is coded (R147 to R150): its stored quarters in order, each with whether it is coded, and its length in grains. -/
structure CodedBale where
  raw : Bool
  quarters : List (Bytes × Bool)
  grains : Nat
deriving DecidableEq, Repr

/-- The four quarters of a bale's 65,536 bytes. -/
def quartersOf (d : Bytes) : List Bytes := (List.range 4).map fun i => (d.drop (16384 * i)).take 16384

/-- R147 to R150: a bale's bytes coded; `off` is compression off for the namespace. -/
def codeBale (off : Bool) (w : Nat) (d : Bytes) : CodedBale :=
  let plain := (quartersOf d).map fun q => (q, false)
  if off then { raw := true, quarters := plain, grains := 65 }
  else
    let q := (quartersOf d).map (codePlain w)
    let s := q.foldl (fun (a : Nat) x => a + x.1.length) 0
    if s ≤ 64512 then { raw := false, quarters := q, grains := 1 + (s + 1023) / 1024 }
    else { raw := true, quarters := plain, grains := 65 }

/-- Bytes with zeros up to `n`. -/
def fillTo (n : Nat) (b : Bytes) : Bytes := b ++ List.replicate (n - b.length) 0

/-- The quarter area of a coded bale, filled to its grains (R147). -/
def CodedBale.area (c : CodedBale) (q : List Bytes) : Bytes := fillTo (1024 * (c.grains - 1)) (q.flatMap id)

/-! ### The header grain (R152) -/

/-- What a header grain says of the bale's writing. -/
structure HdrOf where
  flags : Nat                            -- BFLAGS
  epoch : BitVec 16
  dtime : BitVec 64
  w : Nat
  tags : List Bytes
  nonces : List (BitVec 96)
deriving DecidableEq, Repr

/-- QOFF of quarter `q`. -/
def CodedBale.off (c : CodedBale) (q : Nat) : Nat := (c.quarters.take q).foldl (fun (a : Nat) x => a + x.1.length) 0

/-- R152: the fields of quarter `q` at their places in the header. -/
def quarterFields (c : CodedBale) (h : HdrOf) (plain : List Bytes) (b : Bytes) (q : Nat) : Bytes :=
  let x := c.quarters.getD q ([], false)
  let b := patchBytes b (0x40 + 16 * q) (leBytes 4 (c.off q) ++ leBytes 4 x.1.length ++ [if x.2 then 0 else 1] ++
    leBytes 1 (if x.2 then h.w else 0) ++ [0, 0] ++ leBytes 4 (crc32c (plain.getD q [])).toNat)
  let b := patchBytes b (0x80 + 16 * q) (h.tags.getD q [])
  patchBytes b (0x0C0 + 12 * q) (leBytes 12 (h.nonces.getD q 0).toNat)

/-- R152: the header grain of a bale, in clear (R151). -/
def headerGrain (ns : Ns) (u : UnitId) (c : CodedBale) (h : HdrOf) (plain : List Bytes) : Bytes :=
  let b := leBytes 4 0x454C4142 ++ [1, if c.raw then 1 else 0, BitVec.ofNat 8 u.gen, if ns.tolerance then 1 else 0,
    if ns.tolerance then BitVec.ofNat 8 ns.eltype else 0xFF, if ns.tolerance then BitVec.ofInt 8 ns.boundk else 0,
    BitVec.ofNat 8 ns.lbaf, BitVec.ofNat 8 h.flags] ++ leBytes 4 u.inst.toNat ++ leBytes 8 u.bale ++ leBytes 2 u.nsidx ++
    leBytes 2 h.epoch.toNat ++ leBytes 2 codever ++ [0, 0] ++ leBytes 8 h.dtime.toNat
  let b := (List.range 4).foldl (quarterFields c h plain) (fillTo 0x3FC b)
  b ++ leBytes 4 (crc32c b).toNat

/-! ### What is stored (R123, R130, R150, R164, R398) -/

/-- The key material of a namespace. -/
def State.nsMat (s : State) (ns : Ns) : Bytes := (s.kslot (ns.keyref.toNat % 65536)).mat

/-- R130, R164: are the blocks' bytes and metadata all zero? -/
def allZero (l : List BlockData) : Bool := l.all fun b => (b.data ++ b.md).all fun x => x == 0

/-- A whole bale of `blocks` at a grain address: its entry and what the packs hold. Its bytes all zero it is a zero bale, unless
compression is off (R130, R164); so is a repack or a merge (DESIGN CHOICE, log entry 160). `nonces` are those of its quarters, `flags` the BFLAGS beside bit 0. -/
def State.makeBale (s : State) (ns : Ns) (nsidx bale gen w flags : Nat) (nonces : List (BitVec 96)) (blocks : List BlockData)
    (gaddr : Nat) : BitVec 64 × Stored :=
  if !ns.raw && allZero blocks then (mkEntry gen 0 0 0 0 1 0 0, {})
  else
    let d := fillTo 65536 (blocks.flatMap fun b => b.data)
    let plain := quartersOf d
    let c := codeBale ns.raw w d
    let u := fun (q : Nat) => ({ bale := bale, nsidx := nsidx, code := quarterCode q, gen := gen % 256, inst := ns.inst } : UnitId)
    let x := c.quarters.zipIdx.map fun e => (u e.2).encipher ns.sealed (s.nsMat ns) (nonces.getD e.2 0) e.1.1
    let h : HdrOf :=
      { flags := flags + ns.sealed.toNat, epoch := s.epoch, dtime := s.dtime, w := w
        tags := x.map fun e => e.2, nonces := if ns.sealed then nonces else [] }
    (mkEntry gen 0 ns.sealed.toNat 0 c.raw.toNat 0 c.grains gaddr,
      { blocks := blocks
        header := headerGrain ns (u 0) c h plain
        coded := c.area (c.quarters.map fun e => e.1)
        image := c.area (x.map fun e => e.1) })

/-- R123: a block as a patch at a grain address: VALUE and what the packs hold; a sealed one ends with its tag grain. -/
def State.makePatch (s : State) (ns : Ns) (nsidx bale blk gen w : Nat) (nonce : BitVec 96) (b : BlockData) (gaddr : Nat) :
    BitVec 64 × Stored :=
  let c := if ns.raw then (b.data, false) else codePlain w b.data
  let u : UnitId := { bale := bale, nsidx := nsidx, code := patchCode blk, gen := gen % 256, inst := ns.inst }
  let x := u.encipher ns.sealed (s.nsMat ns) nonce c.1
  let n := (c.1.length + 1023) / 1024
  let tagGrain := if ns.sealed then fillTo 1024 (x.2 ++ leBytes 12 nonce.toNat) else []
  (mkPatch gen ns.sealed.toNat 0 (!c.2).toNat 0 (n + ns.sealed.toNat) gaddr,
    { blocks := [b], coded := c.1, image := fillTo (1024 * n) x.1 ++ tagGrain })

/-! ### Reading a block (R119, R157) -/

/-- Where the tuple lies in the metadata. -/
def piAt (ns : Ns) : Nat := if ns.piFirst then 0 else 56

/-- A block of zeros, metadata included (R131, R157). -/
def zeroBlock (ns : Ns) : BlockData :=
  { data := List.replicate (blockBytes ns.lbaf) 0, md := if ns.meta64 then List.replicate 64 0 else [] }

/-- What lies at a grain address. -/
def State.storedAt (s : State) (gaddr : Nat) : Stored := tgetD gaddr {} s.map.store

/-- The `j`-th block stored at a grain address. -/
def State.stored_ (s : State) (ns : Ns) (gaddr j : Nat) : BlockData := ((s.storedAt gaddr).blocks[j]?).getD (zeroBlock ns)

/-- The content of block `k` of a bale at the source that holds it; none where it cannot be read: a poisoned source, or an entry in no
form. -/
def State.content (s : State) (ns : Ns) (k : Nat) : Source → Option BlockData
  | .overlay x => some x.data
  | .patch v =>
    if bitsOf 49 49 v.toNat = 1 then none
    else if patchLen v = 0 then some (zeroBlock ns) else some (s.stored_ ns (bitsOf 41 0 v.toNat) 0)
  | .entry e =>
    if !entryOk ns.sealed e || ent 51 51 e == 1 then none
    else if ent 48 42 e = 0 then some (zeroBlock ns) else some (s.stored_ ns (ent 41 0 e) k)

/-- Every element of a list, if all are there. -/
def allSome {α : Type} : List (Option α) → Option (List α)
  | [] => some []
  | x :: t => match x, allSome t with
    | some a, some l => some (a :: l)
    | _, _ => none

/-! ### Placing (R106, R125 to R127, R156, R231) -/

/-- The staged block of a write. -/
def State.stagedOf (s : State) (nsid bale blk : Nat) (stamp : BitVec 64) : Option Staged :=
  s.map.overlay.find? fun x => x.nsid == nsid && x.bale == bale && x.blk == blk && x.stamp == stamp

/-- The GEN that the next whole bale is written with: one for every whole bale of a write that is placed and not committed follows the
entry's (R110, R111). -/
def State.nextGen (s : State) (nsid bale : Nat) : Nat :=
  ent 63 56 (s.entry nsid bale) + 1 +
    (s.placedNow.filter fun p => p.nsidx + 1 == nsid && p.bale == bale && p.blk.isNone && p.kind == .host).length

/-- A placed item from what it stores. -/
def itemOf (r : PlaceReq) (ns : Ns) (x : BitVec 64 × Stored) (expect : BitVec 64 := 0) (snap : List (Nat × BitVec 64) := []) :
    Placed :=
  { nsidx := r.nsidx, inst := ns.inst, bale := r.bale, blk := r.blk, value := x.1, fstamp := r.fstamp, kind := r.kind, unit := x.2
    expect := expect, snapshot := snap }

/-- A write's bale: whole under R15, or merged with what the map holds where it must be (R125), which is then its snapshot; no block of it is
read that the write gives. -/
def State.placeWhole (s : State) (ns : Ns) (r : PlaceReq) : Option Placed :=
  let nsid := r.nsidx + 1
  let st := (s.baleBlocks nsid).map fun b => s.stagedOf nsid r.bale b r.fstamp
  match st.filterMap id with
  | [] => none
  | x :: rest =>
    if rest.length + 1 < blocksPerBale ns.lbaf ∧ !s.mustMerge nsid r.bale then none
    else
      let one := fun (e : Option Staged × Nat) => match e.1 with
        | some y => some y.data
        | none => s.content ns e.2 (s.resolveMap nsid r.bale e.2)
      (allSome (st.zipIdx.map one)).map fun l =>
        itemOf r ns (s.makeBale ns r.nsidx r.bale (s.nextGen nsid r.bale) x.w 0 r.nonces l r.gaddr) (s.entry nsid r.bale)
          (s.balePatches nsid r.bale)

/-- A write's block as a patch, unless it must be merged (R125). -/
def State.placePatch (s : State) (ns : Ns) (r : PlaceReq) (b : Nat) : Option Placed :=
  let nsid := r.nsidx + 1
  if s.mustMerge nsid r.bale then none
  else (s.stagedOf nsid r.bale b r.fstamp).map fun x =>
    itemOf r ns (s.makePatch ns r.nsidx r.bale b (ent 63 56 (s.entry nsid r.bale)) x.w (r.nonces.getD 0 0) x.data r.gaddr)

/-- R126, R129, R106: a repack: the bale from its entry and patches as they now are, which are its snapshot; zeros beyond the end of
the namespace. -/
def State.placeRepack (s : State) (ns : Ns) (r : PlaceReq) : Option Placed :=
  let nsid := r.nsidx + 1
  let e := s.entry nsid r.bale
  let ps := s.balePatches nsid r.bale
  if !s.repackable nsid r.bale ps then none
  else
    let one := fun (b : Nat) =>
      if ns.nsze ≤ r.bale * blocksPerBale ns.lbaf + b then some { data := List.replicate (blockBytes ns.lbaf) 0 }
      else s.content ns b (s.resolveMap nsid r.bale b)
    (allSome ((s.baleBlocks nsid).map one)).map fun l =>
      itemOf r ns (s.makeBale ns r.nsidx r.bale (ent 63 56 e + 1) (elShuffle ns 0) (if ent 51 51 e = 1 then 6 else 2) r.nonces l r.gaddr)
        e ps

/-- R156, R239: a relocation: stored bytes unchanged at a new address, the entry or VALUE otherwise as it was (R110, R272). -/
def State.placeReloc (s : State) (ns : Ns) (r : PlaceReq) : Option Placed :=
  let at_ := fun (v : BitVec 64) => BitVec.ofNat 64 (insBits 41 0 v.toNat r.gaddr)
  match r.blk with
  | none =>
    let e := s.entry (r.nsidx + 1) r.bale
    if ent 48 42 e = 0 then none else some (itemOf r ns (at_ e, s.storedAt (ent 41 0 e)) e)
  | some b => match s.patch (r.nsidx + 1) r.bale b with
    | none => none
    | some v => if patchLen v = 0 then none else some (itemOf r ns (at_ v, s.storedAt (bitsOf 41 0 v.toNat)) v)

/-- Grain address and length of a placed item. -/
def placedSpan (p : Placed) : Nat × Nat :=
  match p.blk with
  | none => (ent 41 0 p.value, ent 48 42 p.value)
  | some _ => (bitsOf 41 0 p.value.toNat, patchLen p.value)

/-- What firmware places (R231), if there is such a unit to place. -/
def State.placed (s : State) (r : PlaceReq) : Option Placed :=
  match s.nsOf (r.nsidx + 1) with
  | none => none
  | some ns => match r.kind, r.blk with
    | .host, none => s.placeWhole ns r
    | .host, some b => s.placePatch ns r b
    | .repack, none => s.placeRepack ns r
    | .repack, some _ => none
    | .reloc, _ => s.placeReloc ns r

/-- R113: does the item end in data-page slot `slot` of block `cbid`, and lie in that block? An item without grains lies anywhere. -/
def placedIn (cbid slot : Nat) (p : Placed) : Bool :=
  let x := placedSpan p
  x.2 == 0 || (cbidOf x.1 == cbid && (x.1 + x.2 - 1) / 16 == cbid * 65536 + slot)

end Sys2Proof.Machine
end

