-- ==== Sys2Proof/Machine/PackCmd.lean ====
section
/-! DEFINITION. Sending commands to packs under the command sequence of each pack (R190), and the geometry, capacity,
reserves and read-only state that follow from the packs in service (R133, R219, R251, R252, R276 to R283, R639). -/

namespace Sys2Proof.Machine

/-! ### The identity record -/

/-- A signed byte of a record. -/
def sb (d : Bytes) (a : Nat) : Int := (d.getD a 0).toInt

/-- The identity record in 4096 bytes (R208, R209), valid as R210 says. -/
def parseId (d : Bytes) : PackId :=
  let dies := le d 0x80 2
  let bpc := le d 0x82 1
  let valid := d.length == 4096 && le d 0 4 == 0x44494B50 && le d 4 2 == 1 && le d 0xFFC 4 == (crc32c (d.take 0xFFC)).toNat &&
    decide (32 ≤ dies ∧ dies ≤ 256 ∧ dies % 32 = 0 ∧ 3 ≤ bpc ∧ bpc ≤ 4 ∧ 1 ≤ le d 0x83 1 ∧ le d 0x83 1 ≤ 8 ∧
      le d 0x8A 2 = 16384 ∧ le d 0x8C 2 = 2048 ∧ le d 0x8E 2 ≤ 512 ∧ 64 ≤ le d 0x68 2 ∧ le d 0x68 2 ≤ 4096)
  let cell := fun k => (sb d (0x300 + 4 * k), sb d (0x301 + 4 * k), sb d (0x302 + 4 * k))
  { valid := valid
    copyseq := BitVec.ofNat 32 (le d 8 4)
    serial := BitVec.ofNat 192 (le d 0x40 24)
    bridgeType := BitVec.ofNat 32 (le d 0xC 4)
    bridgeFwMin := BitVec.ofNat 64 (le d 0x60 8)
    qdepth := le d 0x68 2
    dies := dies
    bpc := bpc
    planes := le d 0x83 1
    blocks := le d 0x84 4
    pages := le d 0x88 2
    dieGib := le d 0x8E 2
    peRated := le d 0x98 4
    peRatedSlc := le d 0x9C 4
    spareBlk := le d 0xA0 4
    lzBlk := le d 0xA4 2
    dieTempMax := sb d 0xA6
    pairId := BitVec.ofNat 64 (le d 0xC0 8)
    svcDtime := BitVec.ofNat 64 (le d 0xC8 8)
    svcEpoch := BitVec.ofNat 16 (le d 0xD0 2)
    inserts := le d 0xD2 2
    retired := (List.range dies).filter fun k => (le d 0xD8 32).testBit k
    ageBounds := (List.range 7).map fun k => le d (0x100 + 4 * k) 4
    wtBounds := (List.range 3).map fun k => sb d (0x11C + k)
    rtBounds := (List.range 3).map fun k => sb d (0x11F + k)
    peBounds := (List.range 5).map fun k => le d (0x124 + 4 * k) 4
    nthr := le d 0x13A 1
    ladder := (List.range 7).map fun k => (sb d (0x140 + 2 * k), sb d (0x141 + 2 * k))
    softDelta := le d 0x14E 1
    rmodel := (List.range 768).map fun k => (k, cell k) }

/-! ### Commands to packs -/

/-- Pack `n`'s state, the same at both twins; PKP_STAT.STATE shows the own lane's instead where that is not up. -/
def State.pkState (s : State) (n : Nat) : Nat := (s.pk n).phase

/-- STATE of port `n` shows what its lane and its pack are in (DEDUCED, log entry 172). -/
def State.showPack (s : State) (n : Nat) : State :=
  let p := s.pk n
  s.put F.PKP_STAT.STATE n (if p.side ≠ 0 then p.side else if p.phase = 0 ∧ s.on F.PKP_STAT.LINK_UP n then 4 else p.phase)

/-- OUTST follows the commands outstanding. -/
def State.outstUpdate (s : State) (n : Nat) : State := s.put F.PKP_STAT.OUTST n (s.pk n).outst.length

/-- Does pack `n` take commands, and their CSEQ (R190): it is brought up and not lost? That the own lane trains again, is refused or is down
does not matter: a command waits for it, and the peer's lane has it too. -/
def State.reachable (s : State) (n : Nat) : Bool := decide (4 ≤ s.pkState n ∧ s.pkState n ≤ 10)

/-- The time sample that pack responses are awaited by: in twin mode the captured one of the newest stage (R189). -/
def State.packClock (s : State) : BitVec 64 :=
  match s.twn.stageTimes with
  | x :: _ => if s.on F.TWN_STAT.PAIRED then x.2 else s.dtime
  | [] => s.dtime

/-- R204: commands that wait for the pack's first captured TEMP. -/
def needsTemp (opc : Nat) : Bool := decide (1 ≤ opc ∧ opc ≤ 4)

/-- R190: a command takes the next CSEQ and leaves. -/
def State.packIssue (s : State) (n : Nat) (use : PkUse) (c : PackCmd) : State :=
  let c := { c with cseq := BitVec.ofNat 32 (s.get F.PKP_CSEQ.NEXT n) }
  let s := s.put F.PKP_CSEQ.NEXT n (s.get F.PKP_CSEQ.NEXT n + 1)
  let p := s.pk n
  let s := (s.setPk n { p with outst := p.outst ++ [{ cmd := c, use := use, since := s.packClock }] }).outstUpdate n
  ((s.pmc 0x08 0x10).pmc 0x08 0x33 (p.outst.length + 1)).emit (.pack n c)

/-- The packs of a sleep group (R200). -/
def State.groupPacks (s : State) (g : Nat) : List Nat := (List.range 32).filter fun k => s.get F.PKP_CTL.SGRP k == g

/-- A sleeping pack is woken once: WAKE from light sleep; from deep sleep the controller leaves electrical idle and its link
trains (R201). -/
def State.wakePack (s : State) (k : Nat) : State :=
  if s.pkState k = 8 ∧ !((s.pk k).outst.any fun o => o.use == .wake) then s.packIssue k .wake { cseq := 0, opc := 0x0C }
  else if s.pkState k = 9 then (s.put F.PKP_CTL.RETRAIN k 1).train k else s

/-- R200, R581: a command for a pack in a sleeping group wakes the whole group, in ascending port order (source 225). -/
def State.wakeGroup (s : State) (g : Nat) : State :=
  let s := (s.groupPacks g).foldl State.wakePack s
  if tgetD g 0 s.hkp.sleep = 0 then s
  else { s with hkp := { s.hkp with sleep := tput g 0 s.hkp.sleep } }.raise 225

/-- Does pack `n` sleep? -/
def State.asleep (s : State) (n : Nat) : Bool := s.pkState n == 8 || s.pkState n == 9

/-- Is pack `n` ready and not in service, awake or asleep (R200, R250)? -/
def State.packReady (s : State) (n : Nat) : Bool := s.pkState n == 5 || (s.asleep n && (s.pk n).slept == 5)

/-- Is it a command of the sleep levels itself? -/
def PkUse.isSleep : PkUse → Bool
  | .sleep _ => true
  | _ => false

/-- A command for pack `n`: sent, or kept while HOLD is set (PKP_CTL, R217), TEMP is awaited (R204) or the pack's group
wakes (R581); for a pack that cannot be reached it is not sent. -/
def State.packSend (s : State) (n : Nat) (use : PkUse) (c : PackCmd) : State :=
  if !s.reachable n then s
  else
    let sleeps := s.asleep n && !use.isSleep
    let s := if sleeps then s.wakeGroup (s.get F.PKP_CTL.SGRP n) else s
    if sleeps || s.on F.PKP_CTL.HOLD n || (needsTemp c.opc && !(s.pk n).tempOk) then
      s.setPk n { s.pk n with heldCmds := (s.pk n).heldCmds ++ [(use, c)] }
    else s.packIssue n use c

/-- The commands kept for pack `n` are sent, those that may go. -/
def State.packRelease (s : State) (n : Nat) : State :=
  let l := (s.pk n).heldCmds
  l.foldl (fun s x => s.packSend n x.1 x.2) (s.setPk n { s.pk n with heldCmds := [] })

/-! ### Geometry (R219, R251, R639) -/

/-- The mask of reserve pack ports (setting 0x000B). -/
def State.isReserve (s : State) (n : Nat) : Bool := (s.setting 0x0B).testBit n

/-- The packs in service, packs in reserve ports not counted (R219). -/
def State.inService (s : State) : List Nat := (List.range 32).filter fun n => (s.pk n).svc && !s.isReserve n

/-- R219: the width that a number of packs gives, 0 for none. -/
def widthOf (n : Nat) : Nat := if n < 4 then 0 else min 16 (n / 2 * 2)

/-- R219: the width by the packs in service. -/
def State.width (s : State) : Nat := widthOf s.inService.length

/-- The width at which convoy blocks are formed: a pack whose removal is planned takes no members, and does not count (DESIGN CHOICE, log entry
168). -/
def State.formWidth (s : State) : Nat := widthOf (s.inService.filter fun n => !(s.pk n).removing).length

/-- Is die `d` of pack `n` retired? -/
def State.dieRetired (s : State) (n : Nat) (i : PackId) (d : Nat) : Bool := i.retired.contains d || s.conv.dieOut.contains (n, d)

/-- R251: the spare dies in the place of the retired ones of an identity record, the lowest-numbered first. -/
def PackId.spareIn (i : PackId) : List Nat :=
  let lo := i.dies - i.dies / 32
  let spare := ((List.range i.dies).filter fun d => decide (lo ≤ d)).filter fun d => !i.retired.contains d
  spare.take (i.retired.filter fun d => decide (d < lo)).length

/-- R251: the dies of pack `n` in service. -/
def State.diesIn (s : State) (n : Nat) : List Nat :=
  match (s.pk n).id with
  | none => []
  | some i => (List.range i.dies).filter fun d =>
      (decide (d < i.dies - i.dies / 32) || s.conv.dieIn.contains (n, d)) && !s.dieRetired n i d

/-- R251: spare dies of pack `n` not yet in service. -/
def State.spareDies (s : State) (n : Nat) : List Nat :=
  match (s.pk n).id with
  | none => []
  | some i => (List.range i.dies).filter fun d =>
      decide (i.dies - i.dies / 32 ≤ d) && !s.conv.dieIn.contains (n, d) && !s.dieRetired n i d

/-- The roles of R639 that another block than their own has: by the role's own block, the spare that has it now, or none where no spare was
left; and the spares used so far. -/
structure Roles where
  role : Tbl (Option Nat) := []
  used : List Nat := []
deriving DecidableEq, Repr

/-- The spare erase blocks of a die (R639). -/
def spareRange (i : PackId) : List Nat := (List.range i.spareBlk).map fun k => i.blocks - i.lzBlk - i.spareBlk + k

/-- The role that block `b` has: its own, unless it is a spare that has taken over another's. -/
def Roles.roleOf (i : PackId) (r : Roles) (b : Nat) : Option Nat :=
  if (spareRange i).contains b then (r.role.find? fun e => e.2 == some b).map Prod.fst else some b

/-- R639: the lowest-numbered unused spare takes over the role of the retired block `b`; the block is no spare from then on. -/
def Roles.take (i : PackId) (r : Roles) (b : Nat) : Roles :=
  let used := if r.used.contains b then r.used else if (spareRange i).contains b then r.used ++ [b] else r.used
  match r.roleOf i b with
  | none => { r with used := used }
  | some a => match (spareRange i).find? fun k => !used.contains k with
    | none => { role := tput a none r.role, used := used }
    | some k => { role := tput a (some k) r.role, used := used ++ [k] }

/-- The retired blocks of a die, in the order of their retirement. -/
def State.retiredIn (s : State) (n d : Nat) : List Nat :=
  s.conv.retired.filterMap fun x => if x.1 = n ∧ x.2.1 = d then some x.2.2 else none

/-- The roles in a die, from the retirements in their order. -/
def State.roles (s : State) (n d : Nat) (i : PackId) : Roles := (s.retiredIn n d).foldl (Roles.take i) {}

/-- The spares that have a data block's role. -/
def Roles.data (i : PackId) (r : Roles) : List Nat :=
  r.role.filterMap fun e => if e.1 < i.blocks - i.lzBlk - i.spareBlk then e.2 else none

/-- The block that has the role of landing-zone block `k` of a die, if one has (R639). -/
def State.lzBlock (s : State) (n d : Nat) (i : PackId) (k : Nat) : Option Nat :=
  let b := i.blocks - i.lzBlk + k
  match tget b (s.roles n d i).role with
  | some x => x
  | none => some b

/-- The number of data erase blocks of a die that are in service. -/
def State.dataBlocks (s : State) (n d : Nat) (i : PackId) : Nat :=
  let lo := i.blocks - i.lzBlk - i.spareBlk
  lo - ((s.roles n d i).role.filter fun e => decide (e.1 < lo) && e.2.isNone).length

/-- Unused spare erase blocks of a die. -/
def State.spareBlocks (s : State) (n d : Nat) (i : PackId) : Nat := i.spareBlk - (s.roles n d i).used.length

/-- A sum over the packs in service and their dies in service. -/
def State.sumDies (s : State) (f : Nat → Nat → PackId → Nat) : Nat :=
  s.inService.foldl (fun a n => match (s.pk n).id with
    | none => a
    | some i => (s.diesIn n).foldl (fun a d => a + f n d i) a) 0

/-- R133: the data grains of every erase block in service at width `w`; page 0 of a block holds its header (R224). -/
def State.gData (s : State) (w : Nat) : Nat :=
  s.sumDies (fun n d i => s.dataBlocks n d i * (i.pages - 1)) * (w - 2) * 16 / w

/-! ### Reserves (R276, R277) -/

/-- LEFT of reserve kind `k` (R276). -/
def State.resLeft (s : State) (k : Nat) : Nat :=
  match k with
  | 0 => s.sumDies fun n d i => s.spareBlocks n d i
  | 1 => s.inService.foldl (fun a n => a + (s.spareDies n).length) 0
  | 2 => ((List.range 32).filter fun n => s.isReserve n && s.packReady n).length
  | 3 => ([16, 17].filter fun i => !s.on F.CIC_CORE_CTL.RUN i).length
  | 4 => ([16, 17].filter fun i => !s.on F.CPH_CORE_CTL.EN i && !s.on F.CPH_CORE_STAT.FAULT i).length
  | 5 => ([24, 25].filter fun i => !s.on F.CMP_ENG_CTL.EN i && !s.on F.CMP_ENG_STAT.FAULT i).length
  | 6 => if 256 ≤ softLoaded s.hbm.soft then 0
    else s.hbm.spareTotal - (s.hbm.soft.filter fun e => e.state == 0x3F).length
  | _ => s.get F.SNF_STAT.SPARES

/-- What TOTAL of kind `k` is when it is fixed (R276). -/
def State.resUnits (s : State) (k : Nat) : Nat :=
  match k with
  | 0 => s.sumDies fun _ _ i => i.spareBlk
  | 1 => s.inService.foldl (fun a n => match (s.pk n).id with
      | none => a
      | some i => a + i.dies / 32) 0
  | 2 => ((List.range 32).filter s.isReserve).length
  | 6 => s.hbm.spareTotal
  | 7 => s.get F.SNF_STAT.SPARES
  | _ => 2

/-- TOTAL of kind `k`, 0 until it is fixed. -/
def State.resTotal (s : State) (k : Nat) : Nat := if k = 6 then s.hbm.spareTotal else tgetD k 0 s.health.total

/-- LEFT as it is reported: 0 until TOTAL is fixed, which for kind 6 is at the first training (R276). -/
def State.resShown (s : State) (k : Nat) : Nat := if s.health.started || k == 6 then s.resLeft k else 0

/-- R277: LEVEL of kind `k`. -/
def State.resLevel (s : State) (k : Nat) : Nat :=
  if s.resTotal k = 0 then 0 else min 100 (100 * s.resLeft k / s.resTotal k)

/-- R277: the CROSSED bits of a level. -/
def crossBits (level : Nat) : Nat :=
  (if level ≤ 50 then 1 else 0) + (if level ≤ 25 then 2 else 0) + (if level ≤ 10 then 4 else 0) + (if level = 0 then 8 else 0)

/-! ### The system log (R295) -/

/-- The four codewords of a page: 4096 user bytes, passed through unchanged (R229), and 512 parity bytes each. -/
def ldpcPage (user : Bytes) : Bytes :=
  (List.range 4).flatMap fun c =>
    let u := (user.drop (4096 * c)).take 4096
    u ++ (List.range 512).map (Config.ldpcByte u)

/-- R295: the 64 bytes of a record. -/
def SysRec.bytes (r : SysRec) : Bytes :=
  let b := leBytes 1 r.typ ++ leBytes 1 r.port ++ leBytes 2 r.die ++ leBytes 4 r.block ++ leBytes 8 r.arg ++ leBytes 8 r.lseq ++
    leBytes 8 r.dtime.toNat ++ leBytes 2 r.epoch.toNat ++ List.replicate 26 0
  b ++ leBytes 4 (crc32c b).toNat

/-- Records are programmed, enciphered (R399), to one page in SLC mode of pack `n`; the page is one of those that the anchor names:
the manual does not say which, and it is a free value. -/
def State.logPage (s : State) (use : PkUse) (n : Nat) (l : List SysRec) : State :=
  match l, (s.pk n).id with
  | r :: _, some i =>
    let b := l.flatMap SysRec.bytes
    let at_ := fun (k m : Nat) => Config.free (s.freeNo + k) % m
    { s with freeNo := s.freeNo + 3 }.packSend n use
      { cseq := 0, opc := 3, flags := 1, die := at_ 0 i.dies, block := at_ 1 i.blocks, page := at_ 2 i.pages
        data := ldpcPage (s.systemUnit (sysLogTweak r.lseq) (b ++ List.replicate (16384 - b.length) 0)) }
  | _, _ => s

/-- A copy of the record with this LSEQ goes to pack `n`. -/
def State.logCopy (s : State) (lseq n : Nat) : State := s.logPage (.syslog lseq) n (s.conv.syslog.filter fun r => r.lseq == lseq)

/-- The records whose PROGRAMs have not been sent are sent, to each pack of the anchor (R295). -/
def State.logGo (s : State) : State :=
  let todo := s.conv.logWait.filter fun w => !w.sent
  if todo.isEmpty then s
  else
    let sent := s.conv.logWait.map fun w => { w with sent := true }
    todo.foldl (fun s w => w.ports.foldl (fun s n => s.logCopy w.lseq n) s) { s with conv := { s.conv with logWait := sent } }

/-- A record enters the system log and its PROGRAMs are sent. -/
def State.logSys (s : State) (r : SysRec) : State := (s.logAdd r).logGo

/-- R296: the erases whose type 1 records are written are sent. -/
def State.eraseGo (s : State) : State :=
  let wait := fun (e : EraseHold) => s.conv.logWait.any fun w => w.lseq == e.lseq
  let go := s.conv.eraseHold.filter fun e => !wait e
  if go.isEmpty then s
  else go.foldl (fun s e => s.packSend e.port e.use e.cmd) { s with conv := { s.conv with eraseHold := s.conv.eraseHold.filter wait } }

/-- R295: pack `n` has acknowledged its copy of a record, which is written once all copies are. A failed PROGRAM is sent again. -/
def State.logAck (s : State) (lseq n : Nat) (ok : Bool) : State :=
  if !ok then s.logCopy lseq n
  else
    let left := (s.conv.logWait.map fun w => if w.lseq = lseq then { w with ports := w.ports.filter fun k => k != n } else w).filter
      fun w => !w.ports.isEmpty
    { s with conv := { s.conv with logWait := left } }.eraseGo

/-- R295: pack `n` takes a copy of the log as it is, 256 records to a page. -/
def State.logJoin (s : State) (n : Nat) : State :=
  if s.conv.anchor.contains n || decide (3 ≤ s.conv.anchor.length) then s
  else
    let old := s.conv.syslog.filter fun r => !s.conv.logWait.any fun w => w.lseq == r.lseq
    let s := { s with conv := { s.conv with anchor := s.conv.anchor ++ [n] } }
    (List.range ((old.length + 255) / 256)).foldl (fun s k => s.logPage .landing n ((old.drop (256 * k)).take 256)) s

/-- R295: a copy lost with its pack is written anew in another pack in service, and the anchor follows. -/
def State.logLost (s : State) (n : Nat) : State :=
  if !s.conv.anchor.contains n then s
  else
    let mine := s.conv.logWait.filter fun w => w.ports.contains n
    let s := { s with conv := { s.conv with anchor := s.conv.anchor.filter fun k => k != n } }
    let s := match s.inService.find? fun k => k != n && !s.conv.anchor.contains k with
      | none => s
      | some k =>
        let s := s.logJoin k
        let ls := mine.map LogWait.lseq
        let more := s.conv.logWait.map fun (w : LogWait) => if ls.contains w.lseq then { w with ports := w.ports ++ [k] } else w
        ls.foldl (fun s i => s.logCopy i k) { s with conv := { s.conv with logWait := more } }
    let cut := fun (w : LogWait) => { w with ports := w.ports.filter fun k => k != n }
    let left := (s.conv.logWait.map cut).filter fun w => !w.ports.isEmpty
    { s with conv := { s.conv with logWait := left } }.eraseGo

/-- R640: the health state is recorded at each change. -/
def State.healthSave (s : State) : State := s.healthNote.logGo

/-! ### The read-only state (R279 to R283) -/

/-- R279: does a 0xC2 cause hold? -/
def State.wornOut (s : State) : Bool :=
  decide (0 < s.resTotal 0 ∧ s.resLevel 0 = 0) || decide (s.capU < s.capL)

/-- R220, R279: fewer than 4 packs in service. -/
def State.fewPacks (s : State) : Bool := decide (s.inService.length < 4)

/-- R281: read-only is entered with Namespace Attribute Changed and Critical Warning bit 3, and left when no cause and no
latch holds (R220, R283). -/
def State.roJudge (s : State) : State :=
  if !s.health.ready then s
  else
    let s := if s.wornOut then { s with health := { s.health with latched := true } } else s
    let ro := s.health.latched || s.fewPacks
    let s :=
      if ro && !s.health.readOnly then
        (({ s with health := { s.health with readOnly := true, roFrom := s.hif.nextStamp } }.nsChanged (s.hif.ns.map Prod.fst)).critSet 3)
      else if !ro && s.health.readOnly then { s with health := { s.health with readOnly := false } }.critClear 3
      else s
    s.healthSave

/-- R281: is a write-class command of this fetch stamp refused: read-only since before its fetch? -/
def State.roFor (s : State) (stamp : BitVec 64) : Bool := s.health.readOnly && decide (s.health.roFrom.toNat ≤ stamp.toNat)

/-- The status that write-class commands get in the read-only state: type and code (R279). -/
def State.roStatus (s : State) : Nat × Nat := if s.health.latched then (7, 0xC2) else (0, 0x20)

/-- R277, R278: a level is judged: its CROSSED bits, one Reserve Early Warning for a change that crosses, and Critical
Warning bit 0 for kind 0. -/
def State.resJudge (s : State) (k : Nat) : State :=
  if !s.health.ready || decide (s.resTotal k = 0) then s
  else
    let old := tgetD k 0 s.health.crossed
    let new := crossBits (s.resLevel k)
    let s := { s with health := { s.health with crossed := tput k new s.health.crossed } }
    let s := if new &&& old = new then s else s.vendor 3
    if k = 0 then if s.resLevel 0 < 10 then s.critSet 0 else s.critClear 0 else s

/-- Levels, thresholds and causes are judged after a change (R277, R640). -/
def State.judge (s : State) : State := (((List.range 8).foldl State.resJudge s).physCheck).roJudge

/-- R133: U is recomputed, unless fewer than 4 packs are in service; everything that depends on it is judged. -/
def State.recomputeU (s : State) : State :=
  let w := s.width
  let s := if w = 0 then s
    else
      let g := s.gData w
      s.put F.MAP_CAP_USABLE.U 0 (g - (g + 15) / 16)
  s.judge

end Sys2Proof.Machine
end

