-- ==== Sys2Proof/Machine/Place.lean ====
section
/-! DEFINITION. Placement: Galois-field parity, the forming of convoy blocks, thresholds of reads, the programming and
commit of convoys, lost members, and the release and erase of blocks (chapters 7 and 8). -/

namespace Sys2Proof.Machine

/-! ### Arithmetic of GF(2^8) with 0x11D (R228) -/

/-- Multiplication by x. -/
def gfX (b : BitVec 8) : BitVec 8 := if b.getLsbD 7 then (b <<< 1) ^^^ 0x1D else b <<< 1

/-- The product of two elements. -/
def gfMul (a b : BitVec 8) : BitVec 8 := gfMulBy gfX 8 a b

/-- g to a power, g = 0x02. -/
def gfPow : Nat → BitVec 8
  | 0 => 1
  | n + 1 => gfX (gfPow n)

/-- The inverse of an element: its 254th power. -/
def gfInv (a : BitVec 8) : BitVec 8 :=
  let a2 := gfMul a a
  let a4 := gfMul a2 a2
  let a8 := gfMul a4 a4
  let a16 := gfMul a8 a8
  let a32 := gfMul a16 a16
  let a64 := gfMul a32 a32
  let a128 := gfMul a64 a64
  gfMul a128 (gfMul a64 (gfMul a32 (gfMul a16 (gfMul a8 (gfMul a4 a2)))))

/-- Bytes multiplied by an element. -/
def gfScale (c : BitVec 8) (b : Bytes) : Bytes := b.map (gfMul c)

/-- A page of zeros. -/
def zeroPage : Bytes := List.replicate 16384 0

/-- P of data pages, by data index (R228). -/
def pOf (d : List (Nat × Bytes)) : Bytes := d.foldl (fun a e => xorBytes a e.2) zeroPage

/-- Q of data pages, by data index (R228). -/
def qOf (d : List (Nat × Bytes)) : Bytes := d.foldl (fun a e => xorBytes a (gfScale (gfPow e.1) e.2)) zeroPage

/-- R228: one missing page of a convoy of width `w` from the others; `pages` lists the pages at hand by position (data 0
to w − 3, P at w − 2, Q at w − 1), `other` a second page that is missing too. -/
def solvePage (w x : Nat) (other : Option Nat) (pages : List (Nat × Bytes)) : Bytes :=
  let at_ := fun k => (tget k pages).getD zeroPage
  let data := pages.filter fun e => decide (e.1 < w - 2)
  let pr := xorBytes (at_ (w - 2)) (pOf data)
  let qr := xorBytes (at_ (w - 1)) (qOf data)
  let viaQ := gfScale (gfInv (gfPow x)) qr
  if x < w - 2 then
    match other with
    | some y =>
      if y < w - 2 then
        gfScale (gfInv (gfPow x ^^^ gfPow y)) (xorBytes (gfScale (gfPow y) pr) qr)
      else if y = w - 2 then viaQ else pr
    | none => if (tget (w - 2) pages).isSome then pr else viaQ
  else
    -- a parity page from the data, a missing data page solved first from the other parity
    let full := match other with
      | some y =>
        if y < w - 2 then
          (y, if x = w - 2 then gfScale (gfInv (gfPow y)) qr else pr) :: data
        else data
      | none => data
    if x = w - 2 then pOf full else qOf full

/-! ### Pages -/

/-- R225: the position of data index `k` at page `p`, of P and of Q. -/
def dataPos (w p k : Nat) : Nat := (2 * p + 2 + k) % w
def pPos (w p : Nat) : Nat := 2 * p % w
def qPos (w p : Nat) : Nat := (2 * p + 1) % w

/-- R225: page and data index of a data-page index. -/
def dpiPlace (w dpi : Nat) : Nat × Nat := (1 + dpi / (w - 2), dpi % (w - 2))

/-- Where a data page lies: position, page (R225). -/
def Cb.place (c : Cb) (dpi : Nat) : Nat × Nat :=
  let p := dpiPlace c.w dpi
  (dataPos c.w p.1 p.2, p.1)

/-- CAP of R227. -/
def Cb.cap (c : Cb) : Nat := (c.nextPage - 1) * (c.w - 2) * 16

/-- PAGES of the packs in service (R222: all alike); 0 while none is. -/
def State.pagesNow (s : State) : Nat :=
  match s.inService.filterMap fun n => (s.pk n).id with
  | [] => 0
  | i :: _ => i.pages

/-- The key of an erase block. -/
def ebKey (n d b : Nat) : Nat := (n * 256 + d) * 2 ^ 32 + b

/-- The P/E count of an erase block (R257). -/
def State.peCount (s : State) (n d b : Nat) : Nat := tgetD (ebKey n d b) 0 s.conv.erase

/-! ### Bands and thresholds (R209, R255 to R260) -/

/-- The smallest band whose bound is at or above the value. -/
def bandOf (v : Int) (bounds : List Int) : Nat := (bounds.takeWhile fun b => decide (b < v)).length

/-- R256: the temperature of a die by the last captured TEMP. -/
def State.dieTemp (s : State) (n d : Nat) : Int :=
  match (s.pk n).temp with
  | none => 0
  | some t =>
    let x := t.dies.getD d (-128)
    if x ≠ -128 then x else if t.hi ≠ -128 then t.hi else t.bridge

/-- R258: the age of a convoy block in minutes. -/
def State.ageMin (s : State) (c : Cb) : Nat :=
  let back := s.conv.back.foldl (fun a e => if c.progEpoch.toNat < e.1 ∧ e.1 ≤ s.epoch.toNat then a + e.2 else a) 0
  s.dtime.toNat / 60000000 + back - c.progMin

/-- A division rounded half away from zero. -/
def rdiv (a b : Int) : Int := if 0 ≤ a then (2 * a + b) / (2 * b) else -((-2 * a + b) / (2 * b))

/-- An offset clamped to a signed byte (R260). -/
def clampOff (x : Int) : Int := max (-128) (min 127 x)

/-- R209: the offset of threshold `t` of a model cell. -/
def cellOffset (nthr : Nat) (cell : Int × Int × Int) (t : Nat) : Int :=
  let m : Int := (nthr + 1) / 2
  let t : Int := t
  let n : Int := nthr
  if t ≤ m then rdiv (cell.1 * (m - 1) + (cell.2.1 - cell.1) * (t - 1)) (m - 1)
  else rdiv (cell.2.1 * (n - m) + (cell.2.2 - cell.2.1) * (t - m)) (n - m)

/-- R259: the model cell for a read of member `m` of a block. -/
def State.modelCell (s : State) (c : Cb) (m : Nat) (n d : Nat) (i : PackId) : Int × Int × Int :=
  let a := bandOf (s.ageMin c) (i.ageBounds.map Int.ofNat)
  let w := c.wtb.getD m 0
  let r := bandOf (s.dieTemp n d) i.rtBounds
  let p := c.peb.getD m 0
  tgetD (((a * 4 + w) * 4 + r) * 6 + p) (0, 0, 0) i.rmodel

/-- R262: ladder step `st` (1–7) adds to the offset of threshold `t`; stage 0 and the soft read add nothing. -/
def ladderAdd (i : PackId) (st t : Nat) : Int :=
  if 1 ≤ st ∧ st ≤ 7 then
    let l := i.ladder.getD (st - 1) (0, 0)
    l.1 + rdiv ((l.2 - l.1) * (t - 1 : Int)) ((i.nthr : Int) - 1)
  else 0

/-- R260: PARAM of a READ: thresholds 1–7, and byte 7 for thresholds 8–15. -/
def thresholds (i : PackId) (cell : Int × Int × Int) (st : Nat) : BitVec 64 :=
  let off := fun t => clampOff (clampOff (cellOffset i.nthr cell t) + ladderAdd i st t)
  let b7 := if i.bpc = 4 then rdiv ((List.range 8).foldl (fun a k => a + off (8 + k)) 0) 8 else 0
  let byte := fun (x : Int) => (x % 256).toNat
  BitVec.ofNat 64 ((List.range 7).foldl (fun a k => a + byte (off (k + 1)) * 2 ^ (8 * k)) (byte b7 * 2 ^ 56))

/-- A read of codewords of a page of member `m` (R260, R262); stage 8 is READ_SOFT. -/
def State.readCmd (s : State) (c : Cb) (m page mask stage : Nat) : Option (Nat × PackCmd) :=
  match c.members[m]? with
  | none => none
  | some x =>
    let param := match (s.pk x.port).id with
      | some i => thresholds i (s.modelCell c m x.port x.die i) stage
      | none => 0
    some (x.port, { cseq := 0, opc := if stage = 8 then 2 else 1, die := x.die, block := x.block, page := page
                    cwmask := mask, param := param })

/-- Sends a read of member `m`. -/
def State.sendRead (s : State) (use : PkUse) (c : Cb) (m page mask : Nat) : State :=
  match s.readCmd c m page mask 0 with
  | some (n, cmd) => s.packSend n use cmd
  | none => s

/-- The members that can help to reconstruct page `p` of member `m`, as R263 and R638 prefer them: data members, then P, then Q. -/
def Cb.helpers (c : Cb) (p m : Nat) : List Nat :=
  let l := (List.range c.w).filter fun k => k != m && match c.members[k]? with
    | some x => !x.lost
    | none => false
  let par := fun (k : Nat) => k == pPos c.w p || k == qPos c.w p
  (l.filter fun k => !par k) ++ (l.filter fun k => k == pPos c.w p) ++ l.filter fun k => k == qPos c.w p

/-- R263: the W − 2 survivors that are read first to reconstruct page `p` of member `m`. -/
def Cb.survivors (c : Cb) (p m : Nat) : List Nat := (c.helpers p m).take (c.w - 2)

/-- R217: a block as reads see it: a member on a pack under HOLD counts as lost, so that reads are served by reconstruction. -/
def State.seen (s : State) (cbid : Nat) : Cb :=
  let c := s.cb cbid
  { c with members := c.members.map fun x => if s.on F.PKP_CTL.HOLD x.port then { x with lost := true } else x }

/-- R243, R217: a page of a member that is lost, or whose pack is under HOLD, is read from the survivors of its convoy instead; page 0 belongs
to none. -/
def State.readPage (s : State) (use : PkUse) (cbid page m mask : Nat) : State :=
  let c := s.seen cbid
  match c.members[m]? with
  | none => s
  | some x =>
    if !x.lost then s.sendRead use c m page mask
    else if page = 0 then s
    else (c.survivors page m).foldl (fun s k => s.sendRead use c k page mask) s

/-! ### Forming a convoy block (R219 to R224, R232, R255, R298) -/

/-- The convoy blocks that are not free. -/
def State.blocksUsed (s : State) : List (Nat × Cb) := s.conv.cbt.filter fun e => e.2.state != 0

/-- The erase blocks of a die that a convoy block uses or that are not erased. -/
def State.busyBlocks (s : State) (n d : Nat) : List Nat :=
  (s.blocksUsed.flatMap fun e => e.2.members.filterMap fun x => if x.port = n ∧ x.die = d then some x.block else none) ++
    ((s.conv.erasing ++ s.conv.spoilt).filterMap fun x => if x.1 = n ∧ x.2.1 = d then some x.2.2 else none) ++
    (match s.conv.rebuild with
     | some r => if r.new.port = n ∧ r.new.die = d then [r.new.block] else []
     | none => [])

/-- R221: the free erase blocks of a die. -/
def State.freeBlocks (s : State) (n d : Nat) : List Nat :=
  match (s.pk n).id with
  | none => []
  | some i =>
    let busy := s.busyBlocks n d
    let out := s.retiredIn n d
    let lo := i.blocks - i.lzBlk - i.spareBlk
    (List.range lo ++ (s.roles n d i).data i).filter fun b => !busy.contains b && !out.contains b

/-- The block with the lowest P/E count, the lowest number on a tie. -/
def State.leastWorn (s : State) (n d : Nat) : List Nat → Option Nat
  | [] => none
  | b :: t =>
    match s.leastWorn n d t with
    | none => some b
    | some c => if s.peCount n d c < s.peCount n d b ∨ (s.peCount n d c = s.peCount n d b ∧ c < b) then some c else some b

/-- The dies of pack `n` in service, those after its die pointer first (R221). -/
def State.dieOrder (s : State) (n : Nat) : List Nat :=
  let l := s.diesIn n
  let ptr := tgetD n 0 s.conv.diePtr
  (l.filter fun d => decide (ptr ≤ d)) ++ l.filter fun d => decide (d < ptr)

/-- The next die and block that a member on pack `n` would take. -/
def State.nextBlock (s : State) (n : Nat) : Option (Nat × Nat) :=
  (s.dieOrder n).findSome? fun d => (s.leastWorn n d (s.freeBlocks n d)).map fun b => (d, b)

/-- Free erase blocks of a pack. -/
def State.freeCount (s : State) (n : Nat) : Nat := (s.diesIn n).foldl (fun a d => a + (s.freeBlocks n d).length) 0

/-- Members of open convoy blocks on a pack. -/
def State.openMembers (s : State) (n : Nat) : Nat :=
  s.conv.cbt.foldl (fun a e => if e.2.state = 1 then a + (e.2.members.filter fun x => x.port == n).length else a) 0

/-- May pack `n` take a member: in service, its TEMP captured (R204), not being removed. -/
def State.takesMember (s : State) (n : Nat) : Bool := (s.pk n).tempOk && !(s.pk n).removing && (s.nextBlock n).isSome

/-- R221: the preference of packs: fewest members of open blocks, more free erase blocks, lower port. -/
def State.packBefore (s : State) (a b : Nat) : Bool :=
  let x := (s.openMembers a, s.freeCount a)
  let y := (s.openMembers b, s.freeCount b)
  decide (x.1 < y.1 ∨ (x.1 = y.1 ∧ (y.2 < x.2 ∨ (x.2 = y.2 ∧ a ≤ b))))

/-- The packs that can take a member, best first. -/
def State.packOrder (s : State) (l : List Nat) : List Nat := sortBy s.packBefore (l.filter s.takesMember)

/-- R221: pack `n` gives its next erase block, and its die pointer advances. -/
def State.takeBlock (s : State) (n : Nat) : State × Member :=
  match s.nextBlock n with
  | none => (s, { port := n, die := 0, block := 0 })
  | some (d, b) =>
    ({ s with conv := { s.conv with diePtr := tput n (d + 1) s.conv.diePtr } }, { port := n, die := d, block := b })

/-- Several packs give a block each. -/
def State.takeBlocks (s : State) : List Nat → State × List Member
  | [] => (s, [])
  | n :: t =>
    let r := s.takeBlock n
    let q := State.takeBlocks r.1 t
    (q.1, r.2 :: q.2)

/-- The most open convoy blocks of a stream (R232). -/
def streamMax (stream : Nat) : Nat :=
  match stream with
  | 0 => 128
  | 1 => 32
  | 2 => 64
  | 3 => 8
  | _ => 24

/-- The lowest number below `n` that satisfies `p`. -/
def lowest (p : Nat → Bool) : Nat → Nat → Option Nat
  | 0, _ => none
  | n + 1, k => if p k then some k else lowest p n (k + 1)

/-- The lowest free convoy block identifier. -/
def State.freeCbid (s : State) : Option Nat :=
  lowest (fun k => (s.cb k).state == 0) (min (2 ^ 22) (s.conv.cbt.length + 1)) 0

/-- The lowest accumulator without a convoy. -/
def State.freeAcc (s : State) : Option Nat := lowest (fun k => (tget k s.conv.acc).isNone) 256 0

/-- R257: the P/E band of an erase block; in SLC mode its count is first multiplied by PE_RATED ÷ PE_RATED_SLC. -/
def State.peBand (s : State) (slc : Bool) (n d b : Nat) (i : PackId) : Nat :=
  let c := s.peCount n d b
  bandOf (if slc ∧ i.peRatedSlc ≠ 0 then c * i.peRated / i.peRatedSlc else c : Nat) (i.peBounds.map Int.ofNat)

/-- R255 to R257: the stamp of a block with these members. -/
def State.stampOf (s : State) (l : List Member) : List Nat × List Nat :=
  (l.map fun x => match (s.pk x.port).id with
      | some i => bandOf (s.dieTemp x.port x.die) i.wtBounds
      | none => 0,
   l.map fun x => match (s.pk x.port).id with
      | some i => s.peBand false x.port x.die x.block i
      | none => 0)

/-- The header of R224 for the member at `pos`, as a page of user bytes. -/
def State.header (c : Cb) (cbid pos : Nat) : Bytes :=
  let two := fun (l : List Nat) (k : Nat) => (l.zipIdx).foldl (fun a e => a + e.1 % 2 ^ k * 2 ^ (k * e.2)) 0
  let mem := fun (x : Member) => leBytes 1 x.port ++ leBytes 1 x.die ++
    leBytes 1 (x.lost.toNat + 2 * x.replaced.toNat) ++ [0] ++ leBytes 4 x.block
  let b := leBytes 4 0x4B425643 ++ leBytes 2 1 ++ leBytes 1 c.w ++ leBytes 1 c.kind ++ leBytes 4 cbid ++ leBytes 1 pos ++
    [0, 0, 0] ++ leBytes 8 (c.eraseEpochs.getD pos 0) ++ leBytes 4 c.progMin ++ leBytes 2 c.progEpoch.toNat ++
    leBytes 4 (two c.wtb 2) ++ leBytes 6 (two c.peb 3) ++ leBytes 8 c.openDtime.toNat ++ leBytes 2 c.progEpoch.toNat ++
    List.replicate 14 0 ++ c.members.flatMap mem
  let b := b ++ List.replicate (508 - b.length) 0
  b ++ leBytes 4 (crc32c b).toNat ++ List.replicate 15872 0

/-- A PROGRAM of a page. -/
def programCmd (x : Member) (page : Nat) (user : Bytes) : PackCmd :=
  { cseq := 0, opc := 3, die := x.die, block := x.block, page := page, data := ldpcPage user }

/-- R298: the read of page 0, or of page PAGES − 1, that shows whether member `m` is erased. -/
def State.checkMember (s : State) (cbid m : Nat) (last : Bool) : State :=
  s.sendRead (.check cbid m last) (s.cb cbid) m (if last then s.pagesNow - 1 else 0) 15

/-- R221, R224, R255, R298: a convoy block is formed for a stream, on an accumulator. -/
def State.formBlock (s : State) (stream acc cbid : Nat) (ports : List Nat) : State :=
  let r := s.takeBlocks ports
  let s := r.1
  let st := s.stampOf r.2
  let c : Cb :=
    { state := 1, w := ports.length, kind := stream, nextPage := 1, members := r.2
      progMin := s.dtime.toNat / 60000000 % 2 ^ 32, progEpoch := s.epoch, wtb := st.1, peb := st.2
      openDtime := s.dtime, hdr := List.range ports.length
      eraseEpochs := r.2.map fun x => tgetD (ebKey x.port x.die x.block) 0 s.conv.erased }
  let s := (s.setCb cbid c).logSys { typ := 3, block := cbid, arg := 1 }
  let s := { s with conv := { s.conv with acc := tput acc { cbid := cbid, stream := stream } s.conv.acc } }
  (List.range ports.length).foldl (fun s m => s.checkMember cbid m false) s

/-- R221: while free erase blocks are short, the reclaim and system streams form their blocks before the others: a block of another
stream waits where one of these two has none open and too few packs would be left for it (DESIGN CHOICE, log entry 132). -/
def State.mustWait (s : State) (stream : Nat) (ports : List Nat) : Bool :=
  let none_ := fun (k : Nat) => !(s.conv.cbt.any fun e => e.2.state == 1 && e.2.kind == k)
  stream != 2 && stream != 3 && (none_ 2 || none_ 3) &&
    decide ((s.inService.filter fun n => s.takesMember n && decide (2 ≤ s.freeCount n || !ports.contains n)).length < s.formWidth)

/-! ### Programming a convoy (R229, R230, R233) -/

/-- Where accumulator `a` lies in HBM: P, then Q (R229). -/
def State.accBase (s : State) (a : Nat) : Nat := s.get F.CVY_ACC_CFG.BASE * 32768 + 32768 * a

/-- The commands of a flight that have not been sent are sent once every header of the block is (R224). -/
def State.flightGo (s : State) (cbid : Nat) : State :=
  if !(s.cb cbid).hdr.isEmpty then s
  else
    let mine := s.conv.flights.filter fun f => f.cbid == cbid && !f.cmds.isEmpty
    let s := { s with conv := { s.conv with flights := s.conv.flights.map fun f =>
      if f.cbid = cbid then { f with cmds := [] } else f } }
    mine.foldl (fun s f => f.cmds.foldl (fun s c => s.packSend c.1 (.program cbid f.page c.2.2) c.2.1) s) s

/-- The PROGRAMs of a convoy: position, member and command; lost members are passed over. -/
def Cb.programs (c : Cb) (page : Nat) (pages : List (Nat × Bytes)) : List (Nat × PackCmd × Nat) :=
  pages.filterMap fun e => match c.members[e.1]? with
    | some x => if x.lost then none else some (x.port, programCmd x page e.2, e.1)
    | none => none

/-- R233: the convoy on accumulator `a` is closed: unfilled grains are zero, and its pages, P and Q included, are
programmed. The accumulator is cleared for the next convoy of the block, if the block has one. -/
def State.closeConvoy (s : State) (a : Nat) : State :=
  match tget a s.conv.acc with
  | none => s
  | some o =>
    let c := s.cb o.cbid
    let page := c.nextPage
    let data := (List.range (c.w - 2)).map fun k =>
      (dataPos c.w page k, match tget k o.got with
        | some src => s.engRead src 16384
        | none => zeroPage)
    let par := [(pPos c.w page, s.engRead (s.accBase a) 16384), (qPos c.w page, s.engRead (s.accBase a + 16384) 16384)]
    let cmds := c.programs page (data ++ par)
    let f : Flight :=
      { cbid := o.cbid, page := page, stream := o.stream, wait := cmds.map fun x => x.2.2, items := o.items
        jblks := o.jblks, cmds := cmds }
    let last := decide (s.pagesNow ≤ page + 1)
    let s := s.setCb o.cbid { c with nextPage := page + 1 }
    let s := s.engWrite (s.accBase a) (zeroPage ++ zeroPage)
    let s := { s with conv := { s.conv with
      flights := s.conv.flights ++ [f]
      acc := if last then tdel a s.conv.acc else tput a { cbid := o.cbid, stream := o.stream } s.conv.acc
      hNow := if o.stream < 2 then s.conv.hNow + (c.w - 2) else s.conv.hNow } }
    s.flightGo o.cbid

/-- R234: the rest of the convoy block on accumulator `a` is filled with zero and programmed, which closes the block. -/
def State.fillBlock (a : Nat) : Nat → State → State
  | 0, s => s
  | n + 1, s => if (tget a s.conv.acc).isSome then State.fillBlock a n (s.closeConvoy a) else s

/-- Has the convoy on accumulator `a` any data? -/
def OpenCv.filled (o : OpenCv) : Bool := !o.got.isEmpty

/-- OPEN_CONVOY_AGE_EXPIRY (R233): a convoy with data is closed. -/
def execOpenConvoyAgeExpiry (acc : Fin 256) (s : State) : Res := s.awake <|
  .next (match tget acc.val s.conv.acc with
    | some o => if o.filled then s.closeConvoy acc else s
    | none => s)

/-! ### Release and erase (R239, R240, R273, R296) -/

/-- May the erase block be erased: its pack is in service and the block is not retired? -/
def State.erasable (s : State) (x : Member) : Bool :=
  (s.pk x.port).svc && !s.conv.retired.contains (x.port, x.die, x.block) && (s.diesIn x.port).contains x.die

/-- R296: the erase epoch goes up, the intent is recorded, and ERASE is sent once that record is written. -/
def State.eraseOne (s : State) (use : PkUse) (n d b : Nat) : State :=
  let e := s.conv.eraseEpoch + 1
  let s := { s with conv := { s.conv with
    eraseEpoch := e
    erasing := if s.conv.erasing.contains (n, d, b) then s.conv.erasing else s.conv.erasing ++ [(n, d, b)] } }
  let h : EraseHold := { lseq := s.conv.nextLseq, port := n, use := use, cmd := { cseq := 0, opc := 4, die := d, block := b } }
  let s := s.logSys { typ := 1, port := n, die := d, block := b, arg := e }
  { s with conv := { s.conv with eraseHold := s.conv.eraseHold ++ [h] } }.eraseGo

/-- What a convoy block stored leaves the medium with its erase. -/
def State.forget (s : State) (cbid : Nat) : State :=
  { s with
    map := { s.map with store := s.map.store.filter fun e => cbidOf e.1 != cbid }
    conv := { s.conv with
      recons := s.conv.recons.filter fun r => r.cbid != cbid
      escAt := s.conv.escAt.filter fun e => e.1 / 2 ^ 22 != cbid } }

/-- A block whose members are all erased is free again. -/
def State.freeIfErased (s : State) (cbid : Nat) : State :=
  let c := s.cb cbid
  if (c.state = 4 ∨ c.state = 5) ∧ !(c.members.any fun x => s.conv.erasing.contains (x.port, x.die, x.block)) then
    let s := { s with conv := { s.conv with freed := s.conv.freed + c.members.length } }
    ((s.setCb cbid {}).forget cbid).logSys { typ := 3, block := cbid, arg := 0 }
  else s

/-- The rebuild of a block ends with the block; what it has written is to be erased. -/
def State.endRebuild (s : State) (cbid : Nat) : State :=
  match s.conv.rebuild with
  | none => s
  | some r =>
    if r.cbid ≠ cbid then s
    else
      let x := r.new
      let s := { s with conv := { s.conv with rebuild := none, spoilt := s.conv.spoilt ++ [(x.port, x.die, x.block)] } }
      if s.erasable x then s.eraseOne (.erase x.die x.block) x.port x.die x.block else s

/-- The members of a block are erased (R296); `st` is 4, or 5 for an abandoned block. -/
def State.eraseMembers (s : State) (cbid st : Nat) : State :=
  let c := s.cb cbid
  let s := (s.endRebuild cbid).setCb cbid { c with state := st, rbclass := 0, empty := 0 }
  let s := s.logSys { typ := 3, block := cbid, arg := st }
  let s := c.members.foldl (fun s x =>
    if s.erasable x then s.eraseOne (.erase x.die x.block) x.port x.die x.block else s) s
  s.freeIfErased cbid

/-- Does the block hold grains of an item that has not committed: one that waits for its map page, or for the check of R239? -/
def State.pendingIn (s : State) (cbid : Nat) : Bool :=
  (s.map.itemWait.any fun x => x.2.1 == cbid) || s.conv.relocs.any fun r => r.cbid == cbid

/-- R239: a block being emptied is erased once nothing in it is live and the records that freed its grains are
programmed in packs. -/
def State.releaseOne (s : State) (cbid : Nat) : State :=
  let c := s.cb cbid
  if c.state = 3 ∧ c.live = 0 ∧ !s.pendingIn cbid ∧ s.journalled (tgetD cbid 0 s.map.freedAt) then
    let s := { s with conv := { s.conv with
      victim := if s.conv.victim = some cbid then none else s.conv.victim
      refreshing := s.conv.refreshing.filter fun k => k != cbid
      refreshQ := s.conv.refreshQ.filter fun k => k != cbid
      removeBlk := s.conv.removeBlk.filter fun k => k != cbid
      copied := s.conv.copied.filter fun k => k.1 != cbid } }
    s.eraseMembers cbid 4
  else s

/-- Every block that may be released is. -/
def State.releaseAll (s : State) : State :=
  (keysWhere (fun _ => true) (s.conv.cbt.filter fun e => e.2.state == 3)).foldl State.releaseOne s

/-- A block enters state 3. -/
def State.emptyBlock (s : State) (cbid why : Nat) : State :=
  (s.setCb cbid { s.cb cbid with state := 3, empty := why }).logSys { typ := 3, block := cbid, arg := 3 }

/-- R265: a closed block is marked for refresh, once. -/
def State.markRefresh (s : State) (cbid : Nat) : State :=
  if (s.cb cbid).state = 2 then
    let s := s.emptyBlock cbid 2
    { s with conv := { s.conv with refreshQ := s.conv.refreshQ ++ [cbid] } }
  else s

/-! ### Poisoning (R270, R643) -/

/-- R643: a new range of log page 0xC0; the oldest listed one leaves the list when there would be 128. -/
def State.addPoisoned (s : State) (nsid slba nblk cause : Nat) (left : List Nat) : State :=
  let p : Poisoned := { nsid := nsid, slba := slba, nblk := nblk, cause := cause, epoch := s.epoch
                        dtime := s.dtime, listed := true, left := left }
  let l := s.hif.poisoned ++ [p]
  let full := 127 < (l.filter fun x => x.listed).length
  let first := l.findIdx? fun x => x.listed
  let l := if full then match first with
    | some i => l.modify i fun x => { x with listed := false }
    | none => l
    else l
  { s with hif := { s.hif with poisoned := l } }

/-- Contiguous runs of rising numbers: start and length. -/
def runsOf : List Nat → List (Nat × Nat)
  | [] => []
  | a :: t =>
    match runsOf t with
    | r :: rs => if r.1 = a + 1 then (a, r.2 + 1) :: rs else (a, 1) :: r :: rs
    | [] => [(a, 1)]

/-- Each namespace's blocks are recorded as runs of LBAs, and Media Poisoned is posted (R270). -/
def State.recordPoisoned (s : State) (blocks : List (Nat × Nat)) (cause : Nat) : State :=
  let ns := (blocks.map fun b => b.1).eraseDups
  let s := ns.foldl (fun s n =>
    let lbas := sortBy (fun a b => decide (a ≤ b)) (blocks.filterMap fun b => if b.1 = n then some b.2 else none).eraseDups
    (runsOf lbas).foldl (fun s r =>
      s.addPoisoned n r.1 r.2 cause ((List.range r.2).map fun k => r.1 + k)) s) s
  if blocks.isEmpty then s else s.vendor 0

/-- Blocks of a namespace have been overwritten or deallocated: ranges with nothing left leave log page 0xC0. -/
def State.overwritten (s : State) (nsid slba n : Nat) : State :=
  let cut := fun (p : Poisoned) =>
    if p.nsid = nsid ∧ p.cause ≠ 5 then
      { p with left := p.left.filter fun b => !(decide (slba ≤ b) && decide (b < slba + n)) }
    else p
  let l := (s.hif.poisoned.map cut).filter fun p => decide (p.cause = 5) || !p.left.isEmpty
  { s with hif := { s.hif with poisoned := l } }

/-- The blocks of a bale within its namespace that no patch holds: NSID and LBA. -/
def State.unpatched (s : State) (nsid bale : Nat) : List (Nat × Nat) :=
  match s.nsOf nsid with
  | none => []
  | some n => (List.range (blocksPerBale n.lbaf)).filterMap fun b =>
      let lba := bale * blocksPerBale n.lbaf + b
      if (s.patch nsid bale b).isSome ∨ n.nsze ≤ lba then none else some (nsid, lba)

/-- R270: POISON is set in an entry; GEN, LEN and GADDR stay, and the change is journalled. R129 may then end a repack. -/
def State.poisonEntry (s : State) (nsid bale : Nat) : State :=
  let e := BitVec.ofNat 64 (insBits 51 51 (s.entry nsid bale).toNat 1)
  let s := { s with map := { s.map with entries := tset 0 (baleKey nsid bale) e s.map.entries } }
  ((s.journal 1 0 (nsid - 1) (s.instOf nsid) bale e).updPage (mpnOf nsid bale)).unqueueRepack nsid bale

/-- R270: POISON is set in a patch. -/
def State.poisonPatch (s : State) (nsid bale blk : Nat) : State :=
  match s.patch nsid bale blk with
  | none => s
  | some v =>
    let v := BitVec.ofNat 64 (insBits 49 49 v.toNat 1)
    let s := { s with map := { s.map with patches := tput (blockKey nsid bale blk) v s.map.patches } }
    (s.journal 2 blk (nsid - 1) (s.instOf nsid) bale v).updPage (mpnOf nsid bale)

/-- The LBA of a block of a bale. -/
def State.lbaOf (s : State) (nsid bale blk : Nat) : Nat :=
  match s.nsOf nsid with
  | some n => bale * blocksPerBale n.lbaf + blk
  | none => bale * 16 + blk

/-- R264: only the entry being read is poisoned (a generation or QCRC mismatch). -/
def State.poisonBale (s : State) (nsid bale cause : Nat) : State :=
  if ent 51 51 (s.entry nsid bale) = 1 then s
  else (s.poisonEntry nsid bale).recordPoisoned (s.unpatched nsid bale) cause

/-- R264: only the patch being read is poisoned. -/
def State.poisonBlock (s : State) (nsid bale blk cause : Nat) : State :=
  (s.poisonPatch nsid bale blk).recordPoisoned [(nsid, s.lbaOf nsid bale blk)] cause

/-- Every entry and patch with a grain that satisfies `hit` (grain address and length of an extent) is poisoned, and the blocks
recorded (R270). -/
def State.poisonWhere (s : State) (hit : Nat → Nat → Bool) (cause : Nat) : State :=
  let es := s.map.entries.filterMap fun e =>
    if ent 51 51 e.2 = 0 ∧ ent 48 42 e.2 ≠ 0 ∧ hit (ent 41 0 e.2) (ent 48 42 e.2) = true then some e.1 else none
  let ps := s.map.patches.filterMap fun e =>
    if bitsOf 49 49 e.2.toNat = 0 ∧ patchLen e.2 ≠ 0 ∧ hit (bitsOf 41 0 e.2.toNat) (patchLen e.2) = true then some e.1 else none
  let blocks := (es.flatMap fun k => s.unpatched (k / 2 ^ 37 + 1) (k % 2 ^ 37)) ++
    ps.map fun k => (k / 16 / 2 ^ 37 + 1, s.lbaOf (k / 16 / 2 ^ 37 + 1) (k / 16 % 2 ^ 37) (k % 16))
  let s := es.foldl (fun s k => s.poisonEntry (k / 2 ^ 37 + 1) (k % 2 ^ 37)) s
  let s := ps.foldl (fun s k => s.poisonPatch (k / 16 / 2 ^ 37 + 1) (k / 16 % 2 ^ 37) (k % 16)) s
  s.recordPoisoned blocks cause

/-- R226: where grain `g` of a data page lies: its codeword, and the offset of its user bytes there. -/
def grainPlace (g : Nat) : Nat × Nat := (g / 4, 1024 * (g % 4))

/-- The codewords of page, position and number that `len` grains from a grain address on occupy (R225, R226). -/
def State.codewordsOf (s : State) (gaddr len : Nat) : List (Nat × Nat × Nat) :=
  let c := s.cb (cbidOf gaddr)
  ((List.range len).map fun k =>
    let g := gaddr + k
    let pl := c.place (g / 16 % 65536)
    (pl.2, pl.1, (grainPlace (g % 16)).1)).eraseDups

/-- Does an extent of `len` grains from `g` on touch codeword `hit` of block `cbid`? -/
def State.touches (s : State) (cbid : Nat) (hit : Nat × Nat × Nat) (g len : Nat) : Bool :=
  decide (cbidOf g = cbid) && (s.codewordsOf g len).contains hit

/-- The data codewords that cannot be solved for once codeword `cw` of member `pos` at a page is unrecoverable: its own, and where two
members are lost those of the same number on them (R249, R263; DEDUCED, log entry 167). -/
def Cb.unsolved (c : Cb) (page pos cw : Nat) : List (Nat × Nat × Nat) :=
  let gone := (List.range c.w).filter fun k => match c.members[k]? with
    | some x => x.lost
    | none => false
  let l := (pos :: if 2 ≤ c.lost then gone else []).eraseDups
  (l.filter fun k => k != pPos c.w page && k != qPos c.w page).map fun k => (page, k, cw)

/-- R249, R270: an unrecoverable codeword poisons what it holds, and what cannot be solved for without it. -/
def State.poisonCodeword (s : State) (cbid page pos cw cause : Nat) : State :=
  let l := (s.cb cbid).unsolved page pos cw
  if l.isEmpty then s
  else { s with hif := { s.hif with mediaErrs := s.hif.mediaErrs + 1 } }.poisonWhere
    (fun g len => l.any fun hit => s.touches cbid hit g len) cause

/-- R249: with three members of a block lost, the data pages on them cannot be solved for. The manual names no CAUSE for it: the model
takes that of reclaim, 3. -/
def State.poisonLost (s : State) (cbid : Nat) : State :=
  let c := s.cb cbid
  if c.lost < 3 then s
  else s.poisonWhere (fun g len => decide (cbidOf g = cbid) && (s.codewordsOf g len).any fun x =>
    match c.members[x.2.1]? with
    | some m => m.lost
    | none => false) 3

/-! ### Copying live data (R239, R247) -/

/-- Free and all erase blocks in service other than landing zones. -/
def State.freeTotal (s : State) : Nat × Nat :=
  (s.sumDies fun n d _ => (s.freeBlocks n d).length, s.sumDies fun n d i => s.dataBlocks n d i)

/-- R282: with no free erase block the read-only controller stops relocating. -/
def State.mayCopy (s : State) : Bool := !(s.health.readOnly && decide (s.freeTotal.1 = 0))

/-- Some codewords of a block are read, those of a page together. -/
def State.readCws (s : State) (cbid : Nat) (cws : List (Nat × Nat × Nat)) : State :=
  let pages := (cws.map fun x => (x.1, x.2.1)).eraseDups
  pages.foldl (fun s pg =>
    let mask := (cws.filter fun x => x.1 == pg.1 && x.2.1 == pg.2).foldl (fun a x => a ||| 2 ^ x.2.2) 0
    s.readPage .read cbid pg.1 pg.2 mask) s

/-- The live data pages of a block with their codewords: data-page index and mask. -/
def State.livePages (s : State) (cbid : Nat) : List (Nat × Nat) :=
  let grains := fun (g len : Nat) => if cbidOf g = cbid then (List.range len).map fun k => g + k else []
  let gs := (s.map.entries.flatMap fun e => grains (ent 41 0 e.2) (ent 48 42 e.2)) ++
    s.map.patches.flatMap fun e => grains (bitsOf 41 0 e.2.toNat) (patchLen e.2)
  let dpis := sortBy (fun a b => decide (a ≤ b)) (gs.map fun g => g / 16 % 65536).eraseDups
  dpis.map fun dpi =>
    (dpi, (gs.filter fun g => g / 16 % 65536 == dpi).foldl (fun a g => a ||| 2 ^ (g % 16 / 4)) 0)

/-- R125: do repacks go before other reclaim work? -/
def State.repackFirst (s : State) : Bool := s.on F.MAP_PTAB_STAT.PRIO && !s.map.repack.isEmpty

/-- Up to `n` live pages of a block that have not been read yet are read for copying (R239, R247). -/
def State.copyPages (s : State) (cbid n : Nat) : State :=
  let c := s.cb cbid
  let todo := ((s.livePages cbid).filter fun p => !s.conv.copied.contains (cbid, p.1)).take n
  todo.foldl (fun s p =>
    let pl := c.place p.1
    let s := s.readPage (.copy cbid p.1) cbid pl.2 pl.1 p.2
    { s with conv := { s.conv with copied := s.conv.copied ++ [(cbid, p.1)] } }) s

/-- All live pages of a block are read for copying, unless the controller may not copy now (R282) or repacks go first (R125). -/
def State.copyAll (s : State) (cbid : Nat) : State := if s.mayCopy && !s.repackFirst then s.copyPages cbid (2 ^ 22) else s

/-- What a repack or relocation stores was read from: the extents of its source. -/
def Placed.source (p : Placed) : List (Nat × Nat) :=
  match p.kind, p.blk with
  | .host, _ => []
  | _, none => (ent 41 0 p.expect, ent 48 42 p.expect) :: p.snapshot.map fun x => (bitsOf 41 0 x.2.toNat, patchLen x.2)
  | _, some _ => [(bitsOf 41 0 p.expect.toNat, patchLen p.expect)]

/-- R239, R240, R247: what was copied and is discarded uncommitted is copied again from its source: a victim's pages in the next rounds,
those of any other block being emptied at once, and a repack is read again. -/
def State.copyAgain (s : State) (l : List Placed) : State :=
  let pages := (l.flatMap fun p => p.source.flatMap fun x => (List.range x.2).map fun k =>
    (cbidOf x.1, (x.1 + k) / 16 % 65536)).eraseDups
  let bales := l.filterMap fun p => if p.kind = .repack then some (p.nsidx + 1, p.bale) else none
  let s := { s with conv := { s.conv with
    copied := s.conv.copied.filter fun x => !pages.contains x
    repackRead := s.conv.repackRead.filter fun x => !bales.contains x } }
  let now := (pages.map Prod.fst).eraseDups.filter fun k => (s.cb k).state == 3 && (s.cb k).empty != 1
  now.foldl State.copyAll s

/-! ### Losing members (R241, R242, R244, R247) -/

/-- R244: the rebuild class of a block. -/
def Cb.classOf (c : Cb) : Nat :=
  if c.lost = 0 then 0 else if c.kind = 3 then 1 else if 2 ≤ c.lost then 2 else if c.cap ≤ 2 * c.live then 3 else 4

/-- Is this one of the journal blocks whose first records have these JSEQs? -/
def JBlock.among (b : JBlock) (l : List Nat) : Bool :=
  match b.recs.head? with
  | some r => l.contains r.jseq
  | none => false

/-- Journal blocks and units of the checkpoint that were placed in convoys that are given up are placed again; their grains in the block
are dead (R237). -/
def State.unplace (s : State) (cbid : Nat) (l : List Nat) : State :=
  let c := s.cb cbid
  let here := fun (u : CkUnit) => (u.place.map Prod.fst) == some cbid
  let n := l.length + (s.map.ckptQ.filter here).length
  let bs := s.map.jblocks.map fun b => if b.among l then { b with place := none } else b
  let us := s.map.ckptQ.map fun u => if here u then { u with place := none } else u
  { s with map := { s.map with jblocks := bs, ckptQ := us } }.setCb cbid { c with live := c.live - 4 * n }

/-- R241: convoys of a block that are not acknowledged are given up; their data is placed again from protected staging,
and uncommitted relocations into the block are discarded (R240, R247). -/
def State.dropFlights (s : State) (cbid : Nat) : State :=
  let gone := s.conv.flights.filter fun f => f.cbid == cbid
  let accs := keysWhere (fun _ => true) (s.conv.acc.filter fun e => e.2.cbid == cbid)
  let jb := (gone.flatMap fun f => f.jblks) ++ ((s.conv.acc.filter fun e => e.2.cbid == cbid).flatMap fun e => e.2.jblks)
  let again := (gone.flatMap fun f => f.items) ++ ((s.conv.acc.filter fun e => e.2.cbid == cbid).flatMap fun e => e.2.items) ++
    (s.conv.relocs.filter fun r => r.cbid == cbid).map fun r => r.item
  let s := accs.foldl (fun s a => s.engWrite (s.accBase a) (zeroPage ++ zeroPage)) s
  ({ s with conv := { s.conv with
      flights := s.conv.flights.filter fun f => f.cbid != cbid
      acc := s.conv.acc.filter fun e => e.2.cbid != cbid
      relocs := s.conv.relocs.filter fun r => r.cbid != cbid } }.unplace cbid jb).copyAgain again

/-- A block closes at page `page` (R234, R241). -/
def State.closeBlock (s : State) (cbid page : Nat) : State :=
  let c := s.cb cbid
  (s.setCb cbid { c with state := 2, nextPage := page, closeDtime := s.dtime, closeEpoch := s.epoch }).logSys
    { typ := 3, block := cbid, arg := 2 }

/-- A member is marked lost: LOST goes up, the block takes its rebuild class, and the system log says so. An open block
closes (R241, R242). -/
def State.loseMember (s : State) (cbid m : Nat) : State :=
  let c := s.cb cbid
  match c.members[m]? with
  | none => s
  | some x =>
    if x.lost then s
    else
      let c := { c with lost := c.lost + 1, members := c.members.set m { x with lost := true } }
      let s := (s.setCb cbid { c with rbclass := c.classOf }).logSys
        { typ := 4, port := x.port, die := x.die, block := cbid, arg := m + 256 }
      let s := if c.state = 1 then (s.dropFlights cbid).closeBlock cbid (max 1 c.acked) else s
      let again := (s.conv.relocs.filter fun r => r.cbid == cbid).map fun r => r.item
      let s := { s with conv := { s.conv with relocs := s.conv.relocs.filter fun r => r.cbid != cbid } }.copyAgain again
      let c := s.cb cbid
      (s.setCb cbid { c with rbclass := c.classOf }).poisonLost cbid

/-- The members that satisfy a predicate: block and position. -/
def State.membersWhere (s : State) (p : Member → Bool) : List (Nat × Nat) :=
  s.blocksUsed.flatMap fun e => (e.2.members.zipIdx).filterMap fun x => if p x.1 && !x.1.lost then some (e.1, x.2) else none

/-- Every member that satisfies a predicate is lost. -/
def State.loseWhere (s : State) (p : Member → Bool) : State :=
  (s.membersWhere p).foldl (fun s e => s.loseMember e.1 e.2) s

/-- R273, R252: an erase block is retired; a spare takes its role, or U falls. -/
def State.retireBlock (s : State) (n d b : Nat) : State :=
  if s.conv.retired.contains (n, d, b) then s
  else { s with conv := { s.conv with retired := s.conv.retired ++ [(n, d, b)] } }.recomputeU

/-! ### Commits of a convoy (R231, R239) -/

/-- The medium now holds bytes at a grain address. -/
def State.keep (s : State) (gaddr len : Nat) (u : Stored) : State :=
  if len = 0 then s else { s with map := { s.map with store := tput gaddr u s.map.store } }

/-- R111, R121, R125: a write's bale commits, whole or merged. Where the GEN that its header carries is no longer the entry's next, since
another commit came between, nothing is written and the data stays in staging to be placed again (DESIGN CHOICE, log entry 123). -/
def State.hostCommit (s : State) (p : Placed) : State × Bool :=
  let nsid := p.nsidx + 1
  let mine := (s.baleBlocks nsid).filter fun b => (s.stagedOf nsid p.bale b p.fstamp).isSome
  if !p.unit.header.isEmpty && decide (ent 63 56 p.value ≠ (ent 63 56 (s.entry nsid p.bale) + 1) % 256) then (s, false)
  else if mine.length = (s.baleBlocks nsid).length then s.wholeCommit nsid p.bale p.value p.fstamp
  else s.mergeCommit nsid p.bale p.value p.expect p.snapshot mine p.fstamp

/-- An item commits in its map page: a write's, or a repack under R127. -/
def State.commitHere (s : State) (p : Placed) : State :=
  let nsid := p.nsidx + 1
  let s := s.usePage (mpnOf nsid p.bale) true
  match p.kind, p.blk with
  | .reloc, _ => s
  | .repack, _ => (s.condCommit true nsid p.bale p.value p.expect p.snapshot).1
  | .host, none => (s.hostCommit p).1
  | .host, some b => (s.patchCommit nsid p.bale b p.value p.fstamp).1

/-- R231: an item of an acknowledged convoy commits, or waits for its map page (R117); a relocation waits for the check of R239, and so does a
repack in a block of the reclaim stream, for what is given up there holds nothing committed (R240; DEDUCED, log entry 165). An item whose slot has another instance by then is absent (R107). -/
def State.commitItem (cbid : Nat) (s : State) (p : Placed) : State :=
  let sp := placedSpan p
  let mpn := mpnOf (p.nsidx + 1) p.bale
  if p.inst ≠ s.instOf (p.nsidx + 1) then s
  else
    let s := s.keep sp.1 sp.2 p.unit
    if p.kind = .reloc ∨ (p.kind = .repack ∧ (s.cb cbid).kind = 2) then { s with conv := { s.conv with
      relocs := s.conv.relocs ++ [{ item := p, cbid := cbid, left := s.codewordsOf sp.1 sp.2 }] } }
    else if s.health.ready && !s.pageReady mpn then
      let s := s.startMiss mpn
      { s with map := { s.map with itemWait := s.map.itemWait ++ [(mpn, cbid, p)] } }
    else s.commitHere p

/-- R117: the items that waited for a map page commit, now that it has come. -/
def State.itemsGo (s : State) (mpn : Nat) : State :=
  let mine := s.map.itemWait.filter fun x => x.1 == mpn
  let s := { s with map := { s.map with itemWait := s.map.itemWait.filter fun x => x.1 != mpn } }
  mine.foldl (fun s x => if x.2.2.inst ≠ s.instOf (x.2.2.nsidx + 1) then s else s.commitHere x.2.2) s

/-- R127 for a relocated patch: it commits only if the patch still equals its snapshot. -/
def State.relocPatch (s : State) (nsid bale blk : Nat) (v expect : BitVec 64) : State :=
  if s.patch nsid bale blk = some expect then
    let s := s.dropPatch nsid bale blk
    let s := { s with map := { s.map with patches := tput (blockKey nsid bale blk) v s.map.patches } }
    let s := (s.liveAdd nsid (patchLen v) 0).grainsLive (bitsOf 41 0 v.toNat) (patchLen v)
    (s.journal 2 blk (nsid - 1) (s.instOf nsid) bale v).updPage (mpnOf nsid bale)
  else s

/-- R127, R239: a relocation commits. -/
def State.commitReloc (s : State) (r : Reloc) : State :=
  if r.item.inst ≠ s.instOf (r.item.nsidx + 1) then s
  else r.item.blk.elim (s.condCommit (r.item.kind == .repack) (r.item.nsidx + 1) r.item.bale r.item.value r.item.expect r.item.snapshot).1
    fun b => s.relocPatch (r.item.nsidx + 1) r.item.bale b r.item.value r.item.expect

/-- The map page of a relocation. -/
def Reloc.mpn (r : Reloc) : Nat := mpnOf (r.item.nsidx + 1) r.item.bale

/-- R239: relocations whose destination block has closed and whose codewords have all decoded at the model offsets
commit, once their map page is in the cache (R117). -/
def State.relocReady (s : State) : State :=
  let done := fun (r : Reloc) => r.left.isEmpty && ((s.cb r.cbid).state == 2 || (s.cb r.cbid).state == 3)
  let s := (s.conv.relocs.filter done).foldl (fun s r => if s.pageReady r.mpn then s else s.startMiss r.mpn) s
  let ok := fun (r : Reloc) => done r && s.pageReady r.mpn
  let go := s.conv.relocs.filter ok
  let s := { s with conv := { s.conv with relocs := s.conv.relocs.filter fun r => !ok r } }
  go.foldl State.commitReloc s

/-- R239: when a destination block has closed, the pages that hold relocated data are read. -/
def State.verifyRelocs (s : State) (cbid : Nat) : State :=
  s.readCws cbid ((s.conv.relocs.filter fun r => r.cbid == cbid).flatMap fun r => r.left).eraseDups

/-- R231, R234: a convoy is acknowledged whole: what it carries commits, and with page PAGES − 1 its block closes. -/
def State.flightDone (s : State) (f : Flight) : State :=
  let s := { s with conv := { s.conv with flights := s.conv.flights.filter fun g => !(g.cbid == f.cbid && g.page == f.page) } }
  let c := s.cb f.cbid
  let s := s.setCb f.cbid { c with acked := max c.acked (f.page + 1) }
  let s := f.items.foldl (State.commitItem f.cbid) s
  let s := (f.jblks.foldl State.jblockDone s).unitsDone f.cbid f.page
  let s := if s.pagesNow ≤ f.page + 1 ∧ c.state = 1 then (s.closeBlock f.cbid (f.page + 1)).verifyRelocs f.cbid else s
  s.relocReady.mapHeld.releaseAll

/-- R142, rule 1: the convoys of a block are done in the order of their pages, so that an item that reaches over several commits once
all of them are acknowledged. -/
def State.flightsDone (cbid : Nat) : Nat → State → State
  | 0, s => s
  | n + 1, s => match s.conv.flights.find? fun f => f.cbid == cbid with
    | none => s
    | some f => if f.wait.isEmpty then State.flightsDone cbid n (s.flightDone f) else s

/-- A page of a flight is acknowledged (R231). -/
def State.flightAck (s : State) (cbid page m : Nat) : State :=
  match s.conv.flights.find? fun f => f.cbid == cbid && f.page == page with
  | none => s
  | some f =>
    let f' := { f with wait := f.wait.filter fun k => k != m }
    let s : State := { s with conv := { s.conv with flights := s.conv.flights.map fun g =>
      if g.cbid = cbid ∧ g.page = page then f' else g } }
    s.flightsDone cbid s.conv.flights.length

/-! ### Failed programs (R230, R240, R241) -/

/-- R240: a destination block of the reclaim stream is abandoned and its members erased at once. -/
def State.abandon (s : State) (cbid : Nat) : State := (s.dropFlights cbid).eraseMembers cbid 5

/-- R240, R241: a program to member `m` at page `page` fails. -/
def State.programFail (s : State) (cbid page m : Nat) : State :=
  let c := s.cb cbid
  if c.state ≠ 1 then s.loseMember cbid m
  else if c.kind = 2 then s.abandon cbid
  else ((s.dropFlights cbid).closeBlock cbid (max 1 page)).loseMember cbid m

end Sys2Proof.Machine
end

