-- ==== Sys2Proof/Machine/Convoy.lean ====
section
/-! DEFINITION. The convoy parity engine's jobs, reclaim, in-place rebuild and refresh (chapters 7 and 8). -/

namespace Sys2Proof.Machine

/-! ### The convoy parity engine (R229, R253, R254) -/

/-- R253: is the descriptor malformed for its OP? The manual gives the fields' ranges and no list: the model takes an ACC above 255 on any OP, a W
that is odd or not 4 to 16 on OP 1 to 3, a K that is no data index, and MISS positions beyond W or equal (DESIGN CHOICE, log entry 161). -/
def CvyDescBad (op : Nat) (d : CvyDesc) : Bool :=
  !d.mbz || decide (2 ≤ d.flags.toNat) || decide (256 ≤ d.acc) ||
  match op with
  | 1 => decide (d.w < 4 ∨ 16 < d.w ∨ d.w % 2 = 1 ∨ d.w < d.k + 3)
  | 2 => decide (d.w < 4 ∨ 16 < d.w ∨ d.w % 2 = 1)
  | 3 => decide (d.w < 4 ∨ 16 < d.w ∨ d.w % 2 = 1 ∨ d.w ≤ d.miss0 ∨ (d.miss1 ≠ 0xFF ∧ (d.w ≤ d.miss1 ∨ d.miss1 = d.miss0)))
  | _ => false

/-- Up to `n` journal blocks that are closed and not placed yet, by the JSEQ of their first record. -/
def State.unplaced (s : State) (n : Nat) : List Nat :=
  ((s.map.jblocks.filter fun b => b.place.isNone && !b.programmed).filterMap fun b => b.recs.head?.map fun r => r.jseq).take n

/-- Journal blocks are placed in a convoy; each is four live grains of it until it is released (R237). -/
def State.placeJblocks (s : State) (l : List Nat) (cbid page : Nat) : State :=
  let bs := s.map.jblocks.map fun b => if b.among l then { b with place := some (cbid, page) } else b
  { s with map := { s.map with jblocks := bs } }.setCb cbid { s.cb cbid with live := (s.cb cbid).live + 4 * l.length }

/-- R143, R232: units of the checkpoint are placed, four grains each, in data page `dpi` of a block, from its 4 KiB `at_` on; they are live
until they are superseded (R237). -/
def State.placeUnits (s : State) (cbid page dpi at_ : Nat) : State :=
  let us := (s.map.ckptQ.filter fun u => u.place.isNone).take (4 - at_)
  let put := fun (u : CkUnit) => match us.findIdx? fun x => x.kind == u.kind && x.key == u.key && u.place.isNone with
    | some i => { u with place := some (cbid, page), c := { u.c with loc := cbid * 2 ^ 20 + dpi * 16 + 4 * (at_ + i) } }
    | none => u
  { s with map := { s.map with ckptQ := s.map.ckptQ.map put } }.setCb cbid
    { s.cb cbid with live := (s.cb cbid).live + 4 * us.length }

/-- R234: would a unit that begins in block `o`'s convoys cross the end of the block? -/
def State.crosses (s : State) (o : OpenCv) (p : Placed) : Bool :=
  let x := placedSpan p
  let c := s.cb o.cbid
  x.2 != 0 && cbidOf x.1 == o.cbid && decide ((s.pagesNow - 1) * (c.w - 2) * 16 < x.1 % 1048576 + x.2)

/-- R113, R231: what firmware places in data page `k` of an accumulator's convoy joins its items; a request for a unit that does not
exist, or whose extent does not end in the page, places nothing; one that would cross the end of the block has the block filled and
closed first (R234). -/
def State.placeOne (a k : Nat) (s : State) (r : PlaceReq) : State :=
  match tget a s.conv.acc, s.placed r with
  | some o, some p =>
    let c := s.cb o.cbid
    if placedIn o.cbid ((c.nextPage - 1) * (c.w - 2) + k) p then
      { s with conv := { s.conv with acc := tput a { o with items := o.items ++ [p] } s.conv.acc } }
    else if s.crosses o p then s.fillBlock a s.pagesNow
    else s
  | _, _ => s

/-- A data page enters the convoy that its accumulator assembles: what it carries commits with it (R231). A page of the
system stream carries the four oldest journal blocks not placed yet, and in the room they leave what the checkpoint has to store (R232). -/
def State.convoyAdd (s : State) (d : CvyDesc) (items : List PlaceReq) : State :=
  match tget d.acc s.conv.acc with
  | none => s
  | some o =>
    let jb := if o.stream = 3 then s.unplaced 4 else []
    let o' := { o with
      got := o.got ++ [(d.k, d.src)]
      since := if o.got.isEmpty then s.elapsed else o.since
      jblks := o.jblks ++ jb }
    let c := s.cb o.cbid
    let s := { s with conv := { s.conv with acc := tput d.acc o' s.conv.acc } }.placeJblocks jb o.cbid c.nextPage
    let s := if o.stream = 3 then s.placeUnits o.cbid c.nextPage ((c.nextPage - 1) * (c.w - 2) + d.k) jb.length else s
    items.foldl (State.placeOne d.acc d.k) s

/-- R228, R229: P and Q of an accumulator take in data page `k`. -/
def State.accumulate (s : State) (d : CvyDesc) : State :=
  let page := s.engRead d.src 16384
  let p := s.accBase d.acc
  let s := s.engWrite p (xorBytes (s.engRead p 16384) page)
  s.engWrite (p + 16384) (xorBytes (s.engRead (p + 16384) 16384) (gfScale (gfPow d.k) page))

/-- Does NSID `want` of a Flush cover namespace `nsid` (R50: 0xFFFF_FFFF is every one attached on any function or association)? -/
def State.nsCovers (s : State) (want nsid : Nat) : Bool :=
  if want = 0xFFFFFFFF then
    match s.nsOf nsid with
    | some n => !n.funcs.isEmpty
    | none => false
  else decide (want = nsid)

/-- R52, R59: the open convoys that hold data a waiting Flush or a shutdown covers are closed. -/
def State.closeCovered (s : State) : State :=
  let shut := s.hif.shutdown.any fun e => s.get F.CSTS.SHST e.1 == 1
  let waits := s.hif.ctxs.filterMap fun c => match c.wait with
    | .flush stamp nsid => some (stamp, nsid)
    | _ => none
  let hit := fun (p : Placed) => p.kind == .host && waits.any fun w =>
    decide (p.fstamp.toNat < w.1.toNat) && s.nsCovers w.2 (p.nsidx + 1)
  let accs := keysWhere (fun _ => true) (s.conv.acc.filter fun e => e.2.filled && (shut || e.2.items.any hit))
  accs.foldl State.closeConvoy s

/-- The accumulator is cleared (R253). -/
def State.accClear (s : State) (a : Nat) : State := s.engWrite (s.accBase a) (zeroPage ++ zeroPage)

/-- R229: P and Q are written to DST, the accumulator is cleared, and the convoy it assembled is programmed. -/
def State.emitPQ (s : State) (d : CvyDesc) : State :=
  let s := s.engWrite d.dst (s.rdBytes (s.accBase d.acc) 32768)
  if (tget d.acc s.conv.acc).isSome then s.closeConvoy d.acc else s.accClear d.acc

/-- The pages at hand for a reconstruction, by position, from the table of page addresses at SRC (R253). -/
def State.reconPages (s : State) (d : CvyDesc) : List (Nat × Bytes) :=
  (List.range d.w).filterMap fun i =>
    let a := leNat (s.engRead (d.src + 8 * i) 8)
    if a = 0 ∨ i = d.miss0 ∨ i = d.miss1 then none else some (i, s.engRead a 16384)

/-- R228: the missing pages are solved for and written to DST in MISS order. -/
def State.reconstruct (s : State) (d : CvyDesc) : State :=
  let pages := s.reconPages d
  let second := if d.miss1 = 0xFF then none else some d.miss1
  let s' := s.engWrite d.dst (solvePage d.w d.miss0 second pages)
  match second with
  | some y => s'.engWrite (d.dst + 16384) (solvePage d.w y (some d.miss0) pages)
  | none => s'

/-- What a well-formed job does (R253). -/
def State.cvyEffect (s : State) (op : Nat) (d : CvyDesc) (items : List PlaceReq) : State :=
  match op with
  | 1 => ((s.accumulate d).convoyAdd d items).closeCovered
  | 2 => s.emitPQ d
  | 3 => s.reconstruct d
  | _ => s.accClear d.acc

/-- Where the descriptor at the head of ring `r` lies (R253). -/
def State.cvySlot (s : State) (r : Nat) : Nat :=
  s.get F.CVY_RING_CFG.BASE r * 64 + 64 * (s.get F.CVY_RING_PTR.HEAD r % 2 ^ clampTo 6 15 (s.get F.CVY_RING_CFG.SIZE r))

/-- The bytes that a job reads: its descriptor, and its input page, accumulator, or table of pages with the pages at hand. -/
def State.cvySpans (s : State) (op r : Nat) (d : CvyDesc) : List (Nat × Nat) :=
  (s.cvySlot r, 64) :: match op with
    | 1 => [(d.src, 16384), (s.accBase d.acc, 32768)]
    | 2 => [(s.accBase d.acc, 32768)]
    | 3 => (d.src, 8 * d.w) :: (List.range d.w).filterMap fun i =>
        let a := leNat (s.engRead (d.src + 8 * i) 8)
        if a = 0 ∨ i = d.miss0 ∨ i = d.miss1 then none else some (a, 16384)
    | _ => []

/-- What a job reads is read under HBM's codes (R534); is it malformed, or its input poisoned (R537)? -/
def State.cvyFetch (s : State) (op r : Nat) (d : CvyDesc) : State × Bool :=
  if CvyDescBad op d then (s, true) else s.engFetch (s.cvySpans op r d)

/-- The engine takes the job at the head of ring `r`, runs it unless it is malformed, writes STATUS into its descriptor and pulses
the ring's line under FLAGS bit 0. During a dump it refuses accumulate jobs (R286). -/
def cvyRun (op r : Nat) (d : CvyDesc) (items : List PlaceReq) (s : State) : State :=
  if op = 1 ∧ s.pow.dumping = true then s
  else
    let slot := s.cvySlot r
    let f := s.cvyFetch op r d
    let bad := f.2
    let s := (f.1.put F.CVY_RING_PTR.HEAD r (s.get F.CVY_RING_PTR.HEAD r + 1)).pmc 0x09 0x10
    let s := (if bad then s.pmc 0x09 0x12 else s.cvyEffect op d items).pmc 0x09 0x11
    let s := s.put F.CVY_STAT.JOBS 0 (s.get F.CVY_STAT.JOBS + 1)
    s.complete
      { line := if d.flags.getLsbD 0 then s.get F.CVY_RING_CFG.EVT r else 0, ring := some (0x48 + r)
        wr := [(slot + 0x18, leBytes 4 (if bad then 4 else 1))], err := if bad then some (9, r) else none }

/-- A job comes to ring `r`: it waits there while the engine is disabled (R254); a ring that is not enabled takes nothing. -/
def cvyJob (op r : Nat) (d : CvyDesc) (items : List PlaceReq) (s : State) : State :=
  if s.domHeld 110 then s.gateKeep (.convoy op r d items)
  else if !s.on F.CVY_RING_CFG.EN r then s
  else
    let s := s.put F.CVY_RING_PTR.TAIL r (s.get F.CVY_RING_PTR.TAIL r + 1)
    if s.on F.CVY_CTL.EN then cvyRun op r d items s
    else { s with conv := { s.conv with wait := s.conv.wait ++ [{ ring := r, op := op, d := d, items := items }] } }

/-- R254: an engine that is enabled again takes the jobs that wait in its rings, in order. -/
def State.cvyResume (s : State) : State :=
  if !s.on F.CVY_CTL.EN then s
  else s.conv.wait.foldl (fun s w => cvyRun w.op w.ring w.d w.items s) { s with conv := { s.conv with wait := [] } }

/-- ACCUMULATE_PAGE (R229, R52): data that a waiting Flush covers closes its convoy at once. During a dump the engine refuses
the command (R286). -/
def execAccumulatePage (r : Fin 4) (d : CvyDesc) (items : List PlaceReq) (s : State) : Res := s.awake <|
  .next (if s.pow.dumping then s else cvyJob 1 r d items s)

/-- EMIT_P_AND_Q (R229). -/
def execEmitPAndQ (r : Fin 4) (d : CvyDesc) (s : State) : Res := s.awake <| .next (cvyJob 2 r d [] s)

/-- RECONSTRUCT (R228). -/
def execReconstruct (r : Fin 4) (d : CvyDesc) (s : State) : Res := s.awake <| .next (cvyJob 3 r d [] s)

/-- CLEAR_ACCUMULATOR (R253). -/
def execClearAccumulator (r : Fin 4) (d : CvyDesc) (s : State) : Res := s.awake <| .next (cvyJob 4 r d [] s)

/-- CONVOY_ENGINE_DISABLE (R254). -/
def execConvoyEngineDisable (s : State) : Res := s.awake <| .next ((s.put F.CVY_CTL.EN 0 0).put F.CVY_STAT.IDLE 0 1)

/-! ### Reclaim (R235 to R239) -/

/-- The modes of R235. -/
inductive ReclaimMode where
  | idle | balanced | urgent | critical | held
deriving DecidableEq, Repr

/-- R235: the mode that F selects. -/
def reclaimMode (free all : Nat) : ReclaimMode :=
  if 10 * all ≤ 100 * free then .idle
  else if 5 * all ≤ 100 * free then .balanced
  else if 2 * all ≤ 100 * free then .urgent
  else if all ≤ 100 * free then .critical else .held

/-- The reclaim mode now. -/
def State.mode (s : State) : ReclaimMode := reclaimMode s.freeTotal.1 s.freeTotal.2

/-- R235: write-class fetch is held below 1 % free until F reaches 2 %. -/
def State.holdJudge (s : State) : State :=
  let f := s.freeTotal
  let hold := if 2 * f.2 ≤ 100 * f.1 then false else if 100 * f.1 < f.2 then true else s.conv.writeHold
  { s with conv := { s.conv with writeHold := hold } }

/-- R235: must a host block wait? In the critical modes one is formed only from as many erase blocks as reclaim has freed since the mode was
entered (DEDUCED, log entry 169). -/
def State.hostWaits (s : State) (stream w : Nat) : Bool :=
  stream == 0 && (s.mode == .critical || s.mode == .held) && decide (s.conv.freed < w)

/-- CONVOY_BLOCK_FORM's effect: a block is formed at the full width, or not at all (R219, R221, R232). -/
def convoyBlockForm (stream : Nat) (s : State) : State :=
  let w := s.formWidth
  let n := (s.conv.cbt.filter fun e => e.2.state == 1 && e.2.kind == stream).length
  let ports := (s.packOrder s.inService).take w
  if w = 0 ∨ streamMax stream ≤ n ∨ ports.length < w ∨ s.mustWait stream ports ∨ s.hostWaits stream w then s
  else match s.freeAcc, s.freeCbid with
    | some a, some c =>
      { s with conv := { s.conv with freed := if stream = 0 then s.conv.freed - w else s.conv.freed } }.formBlock stream a c ports
    | _, _ => s

/-- CONVOY_BLOCK_FORM (R221). -/
def execConvoyBlockForm (stream : Fin 5) (s : State) : Res := s.awake <| .next (convoyBlockForm stream s)

/-- R237: AGE of a closed block in whole hours, 168 at most. -/
def State.ageHours (s : State) (c : Cb) : Nat := min 168 ((s.dtime.toNat - c.closeDtime.toNat) / 3600000000)

/-- R237: the score of a block. -/
def State.score (s : State) (c : Cb) : Nat := (c.cap - c.live) * (s.ageHours c + 1) / (c.live + 1)

/-- The block with the highest score, the lower CBID on a tie. -/
def State.bestScore (s : State) : List (Nat × Cb) → Option Nat
  | [] => none
  | e :: t =>
    match s.bestScore t with
    | none => some e.1
    | some k => if s.score e.2 < s.score (s.cb k) then some k else some e.1

/-- The lowest number of a list. -/
def minOf : List Nat → Option Nat
  | [] => none
  | a :: t => match minOf t with
    | none => some a
    | some b => some (min a b)

/-- P/E counts of the members of closed blocks on pack `n`. -/
def State.closedWear (s : State) (n : Nat) : List Nat :=
  (s.conv.cbt.filter fun e => e.2.state == 2).flatMap fun e =>
    e.2.members.filterMap fun x => if x.port = n then some (s.peCount n x.die x.block) else none

/-- The highest P/E count among the free and open erase blocks of pack `n`. -/
def State.freshWear (s : State) (n : Nat) : Nat :=
  let free := (s.diesIn n).flatMap fun d => (s.freeBlocks n d).map fun b => s.peCount n d b
  let open_ := (s.conv.cbt.filter fun e => e.2.state == 1).flatMap fun e =>
    e.2.members.filterMap fun x => if x.port = n then some (s.peCount n x.die x.block) else none
  (free ++ open_).foldl max 0

/-- R238: the packs where static wear levelling applies, with the lowest P/E count of their closed blocks. -/
def State.staticWear (s : State) : List (Nat × Nat) :=
  s.inService.filterMap fun n => match (s.pk n).id, minOf (s.closedWear n) with
    | some i, some lo => if lo + max 200 (i.peRated / 20) < s.freshWear n then some (n, lo) else none
    | _, _ => none

/-- The closed blocks that hold a member with the lowest P/E count of a pack where R238 applies. -/
def State.coldBlocks (s : State) (l : List (Nat × Cb)) : List (Nat × Cb) :=
  let w := s.staticWear
  l.filter fun e => e.2.members.any fun x => w.any fun p => p.1 == x.port && s.peCount x.port x.die x.block == p.2

/-- R237: the next victim, and whether its score chose it. -/
def State.victimChoice (s : State) (idle : Bool) : Option (Nat × Bool) :=
  let closed := s.conv.cbt.filter fun e => e.2.state == 2 && e.2.lost == 0 && !s.pendingIn e.1
  match closed.find? fun e => e.2.live == 0 with
  | some e => some (e.1, false)
  | none =>
    let cand := closed.filter fun e => e.2.kind != 3
    let cold := if idle || s.conv.chosen % 64 == 63 then s.bestScore (s.coldBlocks cand) else none
    match cold with
    | some k => some (k, false)
    | none =>
      if idle then none
      else
        let narrow := if s.conv.chosen % 16 = 15 then s.bestScore (cand.filter fun e => decide (e.2.w < s.width)) else none
        match narrow with
        | some k => some (k, false)
        | none => (s.bestScore (cand.filter fun e => decide (e.2.live < e.2.cap))).map fun k => (k, true)

/-- R126: bales with patches that lie in a block chosen as a victim or marked for refresh are queued for repack. -/
def State.queueRepacks (s : State) (cbid : Nat) : State :=
  let keys := (s.map.entries.filterMap fun e => if ent 48 42 e.2 ≠ 0 ∧ cbidOf (ent 41 0 e.2) = cbid then some e.1 else none) ++
    s.map.patches.filterMap fun e => if patchLen e.2 ≠ 0 ∧ cbidOf (bitsOf 41 0 e.2.toNat) = cbid then some (e.1 / 16) else none
  keys.eraseDups.foldl (fun s k =>
    let nsid := k / 2 ^ 37 + 1
    let bale := k % 2 ^ 37
    if (s.balePatches nsid bale).isEmpty then s else s.queueRepack nsid bale) s

/-- A victim is chosen: v goes up, the block enters state 3 with EMPTY = 1. -/
def State.takeVictim (s : State) (k : Nat) (byScore : Bool := false) : State :=
  let s := (s.emptyBlock k 1).queueRepacks k
  { s with conv := { s.conv with victim := some k, byScore := byScore, chosen := s.conv.chosen + 1 } }.releaseOne k

/-- Victims with nothing live are chosen and erased, `n` of them at most. -/
def State.takeDead (s : State) : Nat → State
  | 0 => s
  | n + 1 =>
    match (s.conv.cbt.filter fun e => e.2.state == 2 && e.2.lost == 0 && e.2.live == 0 && !s.pendingIn e.1).head? with
    | some e =>
      let v := s.conv
      let s := s.takeVictim e.1
      ({ s with conv := { s.conv with victim := v.victim, byScore := v.byScore } }).takeDead n
    | none => s

/-- R235: the pages copied in this round; `used` are those that repacks take. In idle mode a victim chosen by score gets none. -/
def State.quota (s : State) (m : ReclaimMode) (used : Nat) : Nat :=
  let h := s.conv.hPrev
  let c := match s.conv.victim with
    | some k => s.cb k
    | none => {}
  let q := fun (k : Nat) =>
    if 15 * c.cap ≤ 16 * c.live then 15 * k * h else (k * h * c.live + (c.cap - c.live) - 1) / (c.cap - c.live)
  match m with
  | .idle => if s.conv.byScore then 0 else 512 - used
  | .balanced => q 1
  | .urgent => q 2
  | _ => 2 ^ 22

/-- R216: the closed convoy blocks that use a pack whose removal is planned are relocated; open ones follow once they are
closed, and system blocks once nothing in them is live. -/
def State.relocateRemoved (s : State) : State :=
  let due := fun (e : Nat × Cb) => e.2.state == 2 && e.2.lost == 0 && e.2.kind != 3 &&
    e.2.members.any fun x => (s.pk x.port).removing
  (keysWhere (fun _ => true) (s.conv.cbt.filter due)).foldl (fun s k =>
    let s := (s.emptyBlock k 0).queueRepacks k
    ({ s with conv := { s.conv with removeBlk := s.conv.removeBlk ++ [k] } }.copyAll k).releaseOne k) s

/-- Blocks being emptied whose live pages have not all been read, since the controller could not copy then or a read failed: those of refresh,
removal and rebuild, and victims other than the present one (R216, R235, R266). -/
def State.copyLate (s : State) : State :=
  ((keysWhere (fun _ => true) (s.conv.cbt.filter fun e => e.2.state == 3)).filter fun k =>
    decide (s.conv.victim ≠ some k) && !s.conv.refreshQ.contains k).foldl State.copyAll s

/-- R235, critical mode: victim after victim is copied, as many as there are. -/
def State.copyVictims : Nat → State → State
  | 0, s => s
  | n + 1, s => match s.victimChoice false with
    | none => s
    | some (k, b) => State.copyVictims n ((s.takeVictim k b).copyAll k)

/-- R407: has the key of a sealed namespace no nonces left for a repack? -/
def State.noNonces (s : State) (nsid : Nat) : Bool :=
  match s.nsOf nsid with
  | some n => n.sealed && decide (2 ^ 95 ≤ (s.kslot (n.keyref.toNat % 65536)).nctr)
  | none => true

/-- The extents that a repack reads: the bale and its patches (R126). -/
def State.repackExtents (s : State) (r : Nat × Nat) : List (Nat × Nat) :=
  let e := s.entry r.1 r.2
  ((ent 41 0 e, ent 48 42 e) :: (s.balePatches r.1 r.2).map fun p => (bitsOf 41 0 p.2.toNat, patchLen p.2)).filter fun x => x.2 != 0

/-- The pages that a repack reads. -/
def State.repackPages (s : State) (r : Nat × Nat) : Nat :=
  ((s.repackExtents r).flatMap fun x => (List.range x.2).map fun k => (x.1 + k) / 16).eraseDups.length

/-- R126: a repack reads the bale and its patches. -/
def State.repackRead (s : State) (r : Nat × Nat) : State :=
  (s.repackExtents r).foldl (fun s x => s.readCws (cbidOf x.1) (s.codewordsOf x.1 x.2)) s

/-- The repacks, of those that wait, that a round of at most `n` pages takes, with the pages they read. -/
def State.repackTake (s : State) : Nat → List (Nat × Nat) → List (Nat × Nat) × Nat
  | _, [] => ([], 0)
  | n, r :: t =>
    let k := s.repackPages r
    if n < k then ([], 0)
    else
      let x := s.repackTake (n - k) t
      (r :: x.1, k + x.2)

/-- R126, R407: the bales queued for repack that have not been read are, up to `n` pages of them; what they store is placed from then on.
The pages that were read. -/
def State.repackReads (s : State) (n : Nat) : State × Nat :=
  let now := s.conv.repackRead.filter s.map.repack.contains
  let todo := s.repackTake n (s.map.repack.filter fun r => !now.contains r && !s.noNonces r.1)
  (todo.1.foldl State.repackRead { s with conv := { s.conv with repackRead := now ++ todo.1 } }, todo.2)

/-- A reclaim round (R235 to R239), repacks among its work (R125, R126). -/
def reclaimRound (dur : Nat) (s : State) : State :=
  let s := s.runTask taskReclaim 4000 dur
  let m := s.mode
  let critical := m == .critical || m == .held
  let s := { s with conv := { s.conv with
    hPrev := s.conv.hNow, hNow := 0, freed := if critical then s.conv.freed else 0 } }
  let s := (s.releaseAll.takeDead s.conv.cbt.length).relocateRemoved
  let s := match s.conv.victim with
    | some _ => s
    | none => match s.victimChoice (m == ReclaimMode.idle) with
      | some (k, b) => s.takeVictim k b
      | none => s
  let r := s.repackReads (if m = .idle then 512 else 2 ^ 22)
  let s := r.1
  let s := match s.conv.victim with
    | some k => if s.mayCopy && !s.repackFirst then s.copyPages k (s.quota m r.2) else s
    | none => s
  let s := if critical && s.mayCopy && !s.repackFirst then State.copyVictims s.conv.cbt.length s else s
  s.copyLate.holdJudge

/-- RECLAIM_ROUND (R235). -/
def execReclaimRound (durUs : Nat) (s : State) : Res := s.awake <| .next (reclaimRound durUs s)

/-! ### Rebuild (R244, R245) -/

/-- R244: the queued block that is rebuilt next: lowest class, more LIVE, lower CBID. -/
def rebuildNext : List (Nat × Cb) → Option (Nat × Cb)
  | [] => none
  | e :: t =>
    match rebuildNext t with
    | none => some e
    | some f =>
      if f.2.rbclass < e.2.rbclass ∨ (f.2.rbclass = e.2.rbclass ∧ (e.2.live < f.2.live ∨ (e.2.live = f.2.live ∧ f.1 < e.1)))
      then some f else some e

/-- The position of the page at member `m` of page `p`: data index, w − 2 for P, w − 1 for Q (R225). -/
def posIndex (w p m : Nat) : Nat :=
  if m = pPos w p then w - 2 else if m = qPos w p then w - 1 else (m + 16 * w - (2 * p + 2) % w) % w

/-- R245: the packs that may give the replacement: those with no surviving member; for the loss of a die, its own
pack. -/
def State.replacePacks (s : State) (c : Cb) (x : Member) : List Nat :=
  if (s.pk x.port).svc && !(s.diesIn x.port).contains x.die then [x.port]
  else s.inService.filter fun n => !c.members.any fun y => y.port == n && !y.lost

/-- R245: the replacement for a lost member; in its own pack spare dies come first. -/
def State.replacement (s : State) (c : Cb) (x : Member) : Option (State × Member) :=
  match s.packOrder (s.replacePacks c x) with
  | [] => none
  | n :: _ =>
    let spare := ((s.diesIn n).filter fun d => s.conv.dieIn.contains (n, d)).findSome? fun d =>
      (s.leastWorn n d (s.freeBlocks n d)).map fun b => (d, b)
    match if n = x.port then spare else none with
    | some (d, b) => some (s, { port := n, die := d, block := b, replaced := true })
    | none =>
      let r := s.takeBlock n
      some (r.1, { r.2 with replaced := true })

/-- The survivors of a page are read for the rebuild. -/
def State.rebuildReads (s : State) (r : Rebuild) : State :=
  let c := s.seen r.cbid
  let ms := c.survivors r.page r.pos
  let s := { s with conv := { s.conv with rebuild := some { r with want := ms.map fun m => (0, m), have_ := [] } } }
  ms.foldl (fun s m => s.sendRead (.rebuildRead m) c m r.page 15) s

/-- A block is rebuilt by relocation (R245); one that is being emptied already goes on. -/
def State.rebuildMove (s : State) (k : Nat) : State :=
  let c := { s.cb k with rbclass := 0 }
  let s := if c.state = 3 then s.setCb k c else ((s.setCb k c).emptyBlock k 0).queueRepacks k
  (if s.mayCopy then s.copyPages k (2 ^ 22) else s).releaseOne k

/-- The erase epochs of a block with its member at `pos` replaced by another erase block: that of its own last erase (R298). -/
def State.epochsWith (s : State) (c : Cb) (pos : Nat) (y : Member) : List Nat :=
  c.eraseEpochs.set pos (tgetD (ebKey y.port y.die y.block) 0 s.conv.erased)

/-- R244, R245: the rebuild of the first lost position of a block: in place with a replacement, or by relocation. -/
def State.rebuildBlock (s : State) (k : Nat) : State :=
  let c := s.cb k
  if c.rbclass = 4 then s.rebuildMove k
  else match c.members.findIdx? fun x => x.lost with
    | none => s
    | some pos => match c.members[pos]? with
      | none => s
      | some x => match s.replacement c x with
        | none => s.rebuildMove k
        | some (s, y) =>
          let c' := { c with members := c.members.set pos y, eraseEpochs := s.epochsWith c pos y }
          let s := s.packSend y.port (.rebuild k 0 pos) (programCmd y 0 (State.header c' k pos))
          let r : Rebuild := { cbid := k, pos := pos, new := y, page := 1, want := [], have_ := [], toAck := [0] }
          if c.nextPage ≤ 1 then { s with conv := { s.conv with rebuild := some r } } else s.rebuildReads r

/-- R245: the rebuilt member counts: it is recorded as replaced, and LOST goes down. The next lost position of the block follows. -/
def State.rebuildEnd (s : State) (r : Rebuild) : State :=
  let c := s.cb r.cbid
  let c := { c with lost := c.lost - 1, members := c.members.set r.pos r.new, eraseEpochs := s.epochsWith c r.pos r.new }
  let s := (s.setCb r.cbid { c with rbclass := c.classOf }).logSys
    { typ := 4, port := r.new.port, die := r.new.die, block := r.cbid, arg := r.pos + 512 }
  let s := { s with conv := { s.conv with rebuild := none } }
  if c.lost = 0 then s else s.rebuildBlock r.cbid

/-- A rebuild goes on: the next page's survivors are read, or it ends once every page is acknowledged. -/
def State.rebuildOn (s : State) (r : Rebuild) : State :=
  if (s.cb r.cbid).nextPage ≤ r.page then
    if r.toAck.isEmpty then s.rebuildEnd r else { s with conv := { s.conv with rebuild := some r } }
  else s.rebuildReads r

/-- R247: a rebuild that writes to a member that is lost now, or reads one, is given up; the block stays queued. -/
def State.dropRebuild (s : State) (p : Member → Bool) : State :=
  match s.conv.rebuild with
  | none => s
  | some r =>
    if p r.new then { s with conv := { s.conv with rebuild := none } }
    else if (s.cb r.cbid).members.zipIdx.any fun e => p e.1 && e.2 != r.pos then s.endRebuild r.cbid
    else s

/-- R244, R245: the rebuild of the queued block that comes first starts; a block being emptied is rebuilt too. -/
def rebuildStart (s : State) : State :=
  if s.conv.rebuild.isSome then s
  else match rebuildNext (s.conv.cbt.filter fun e => e.2.rbclass != 0 && (e.2.state == 2 || e.2.state == 3)) with
    | none => s
    | some (k, _) => s.rebuildBlock k

/-- REBUILD_BLOCK_START (R245). -/
def execRebuildBlockStart (s : State) : Res := s.awake <| .next (rebuildStart s)

/-- The user bytes of a page as a read of its four codewords returned it. -/
def userBytes (d : Bytes) : Bytes := (List.range 4).flatMap fun c => (d.drop (4608 * c)).take 4096

/-- A page read for the rebuild has come: once all have, the page is reconstructed and programmed (R228, R245). -/
def State.rebuildGot (s : State) (m : Nat) (data : Bytes) : State :=
  match s.conv.rebuild with
  | none => s
  | some r =>
    let w := (s.cb r.cbid).w
    let r := { r with want := r.want.filter fun x => x.2 != m, have_ := r.have_ ++ [(posIndex w r.page m, userBytes data)] }
    if !r.want.isEmpty then { s with conv := { s.conv with rebuild := some r } }
    else
      let c := s.cb r.cbid
      let miss := ((List.range w).filter fun q => match c.members[q]? with
        | some y => y.lost && q != r.pos
        | none => false).map fun q => posIndex w r.page q
      let user := solvePage w (posIndex w r.page r.pos) miss.head? r.have_
      let s := s.packSend r.new.port (.rebuild r.cbid r.page r.pos) (programCmd r.new r.page user)
      s.rebuildOn { r with page := r.page + 1, toAck := r.toAck ++ [r.page], have_ := [] }

/-- A page of the replacement is acknowledged. -/
def State.rebuildAck (s : State) (page : Nat) : State :=
  match s.conv.rebuild with
  | none => s
  | some r =>
    let r := { r with toAck := r.toAck.filter fun p => p != page }
    if r.want.isEmpty then s.rebuildOn r else { s with conv := { s.conv with rebuild := some r } }

/-! ### Refresh (R266) -/

/-- R266: the next marked block is refreshed, at most four at once. -/
def refreshStart (s : State) : State :=
  match s.conv.refreshQ.filter fun k => !s.conv.refreshing.contains k with
  | [] => s
  | k :: _ =>
    if 4 ≤ s.conv.refreshing.length then s
    else
      let s := { s with conv := { s.conv with
        refreshQ := s.conv.refreshQ.filter fun x => x != k, refreshing := s.conv.refreshing ++ [k] } }
      ((s.queueRepacks k).copyAll k).releaseOne k

/-- REFRESH_BLOCK_START (R266). -/
def execRefreshBlockStart (s : State) : Res := s.awake <| .next (refreshStart s)

/-! ### LDPC_ENCODE (R229) -/

/-- LDPC_ENCODE: the encoder passes user bytes through and adds the code's parity; that it has ended shows on its event
line. No register of the media engines names the line; the command does. -/
def execLdpcEncode (_q : Fin 32) (codewords : Nat) (line : Fin 256) (s : State) : Res := s.awake <|
  .next (if s.domHeld 107 then s.gateKeep (.encode codewords line) else if s.on F.MED_CTL.EN then (s.pmc 0x07 0x11 codewords).complete { line := line } else s)

end Sys2Proof.Machine
end

