-- ==== Sys2Proof/Machine/Round.lean ====
section
/-! DEFINITION. The checkpoint round: the patch pages and the snapshots of the convoy block table and the erase count table that it stores
beside the map pages (R143, R303, R579). -/

namespace Sys2Proof.Machine

/-! ### The tables as bytes (R122, R227, R257) -/

/-- R122: the 16 bytes of a valid patch entry. -/
def patchRecord (key : Nat) (v : BitVec 64) : Bytes :=
  leBytes 8 (2 ^ 63 + key / 16 / 2 ^ 37 * 2 ^ 51 + key / 16 % 2 ^ 37 * 2 ^ 14 + key % 16 * 2 ^ 10) ++ leBytes 8 v.toNat

/-- Entry of the convoy block table (R227). -/
def State.cbRecord (s : State) (id : Nat) : Bytes :=
  let c := s.cb id
  let mem := fun (x : Member) => leBytes 1 x.port ++ leBytes 1 x.die ++
    leBytes 1 (x.lost.toNat + 2 * x.replaced.toNat) ++ [0] ++ leBytes 4 x.block
  fitTo 256 (leBytes 1 c.state ++ leBytes 1 c.w ++ leBytes 1 c.kind ++ leBytes 1 c.lost ++ leBytes 2 c.nextPage ++ leBytes 2 0 ++
    leBytes 4 c.live ++ leBytes 4 ((c.nextPage - 1) * (c.w - 2) * 16) ++ leBytes 8 c.closeDtime.toNat ++
    leBytes 2 c.closeEpoch.toNat ++ leBytes 1 c.rbclass ++ leBytes 1 c.empty ++ leBytes 4 0 ++ c.members.flatMap mem)

/-- Entry of the erase count table: port × 2^21 + die × BLOCKS + block (R489). -/
def State.peRecord (s : State) (i : Nat) : Bytes :=
  let n := i / 2 ^ 21
  match (s.pk n).id with
  | none => leBytes 4 0
  | some d => if d.blocks = 0 then leBytes 4 0
    else leBytes 4 (s.peCount n (i % 2 ^ 21 / d.blocks) (i % 2 ^ 21 % d.blocks))

/-! ### The round (R143, R303) -/

/-- R303: patch page `k`: 256 valid entries, in the order of their keys (DESIGN CHOICE, log entry 156). -/
def patchPage (ps : Tbl (BitVec 64)) (k : Nat) : Bytes :=
  fitTo 4096 (((ps.drop (256 * k)).take 256).flatMap fun p => patchRecord p.1 p.2)

/-- The patch pages of a round are to be stored. -/
def State.storePatches (s : State) (r : CkRound) : State :=
  (List.range ((r.ps.length + 255) / 256)).foldl (fun s k =>
    s.ckptAdd { kind := 1, key := k, c := s.ckptOf 0 r.mark (patchPageTweak s.map.ckptRound k) (patchPage r.ps k) }) s

/-- Page `k` of the snapshot of a table, enciphered as that part of the unit that the snapshot is (R399). -/
def State.tableUnit (s : State) (mark table k : Nat) (b : Bytes) : CkUnit :=
  { kind := 2 + table, key := k
    c := { inst := 0, jseq := mark, loc := 0, crc := crc32c b
           image := xtsFrom (256 * k) (s.kslot 1).mat (tableTweak s.map.ckptRound table) b } }

/-- The snapshots of a round are to be stored: the 4 KiB pages of each table that hold something (DESIGN CHOICE, log entry 156). -/
def State.storeTables (s : State) (mark : Nat) : State :=
  let cbs := (s.conv.cbt.map fun e => e.1 / 16).eraseDups
  let pes := (s.conv.erase.filterMap fun e => (s.pk (e.1 / 2 ^ 40)).id.map fun i =>
    (e.1 / 2 ^ 40 * 2 ^ 21 + e.1 / 2 ^ 32 % 256 * i.blocks + e.1 % 2 ^ 32) / 1024).eraseDups
  let s := cbs.foldl (fun s k => s.ckptAdd (s.tableUnit mark 0 k ((List.range 16).flatMap fun i => s.cbRecord (16 * k + i)))) s
  pes.foldl (fun s k => s.ckptAdd (s.tableUnit mark 1 k ((List.range 1024).flatMap fun i => s.peRecord (1024 * k + i)))) s

/-- R143, R303: a round begins, unless one is in progress: every dirty map page, in ascending order, the patch table and the snapshots are to be
stored; system convoys take them. -/
def checkpointAll (s : State) : State :=
  if s.map.ckptOpen.isSome then s
  else
    let r : CkRound := { mark := s.map.nextJseq - 1, ps := s.map.patches }
    let s := { s with map := { s.map with ckptRound := s.map.ckptRound + 1, ckptOpen := some r } }
    (((s.dirtyPages.foldl (State.storePage true) s).storePatches r).storeTables r.mark).roundGo

end Sys2Proof.Machine
end

