-- ==== Sys2Proof/Machine/Media.lean ====
section
/-! DEFINITION. Media health: the outcome of a codeword's decode, poisoning, scrubbing, and the retirement of dies
(chapter 8). -/

namespace Sys2Proof.Machine

/-! ### Decoding a codeword (R262 to R270, R638) -/

/-- The CAUSE of a poisoning (R264, R270). -/
def causeOf : ReadKind → Nat
  | .scrub => 1
  | .host => 2
  | _ => 3

/-- Sends a read of one codeword at an escalation stage (R262). -/
def State.escRead (s : State) (c : Cb) (m page cw stage : Nat) : State :=
  match s.readCmd c m page (2 ^ cw) stage with
  | some (n, cmd) => s.packSend n .read cmd
  | none => s

/-- The read of one codeword that an escalation stage makes: the ladder 1 to 7 and the soft read 8 re-read it, unless its member is lost
(R243); reconstruction, 9, reads it of W − 2 survivors, for page 0 belongs to no convoy (R262, R638). -/
def State.escStage (s : State) (cbid page pos cw k : Nat) : State :=
  let c := s.seen cbid
  let lost := match c.members[pos]? with
    | some x => x.lost
    | none => true
  if k ≤ 8 then if lost then s else s.escRead c pos page cw k
  else if page = 0 then s else (c.survivors page pos).foldl (fun s m => s.escRead c m page cw 0) s

/-- R154: the codewords of some extents escalate together, stage by stage, up to `stop`. -/
def State.escalateAll (s : State) (ext : List (Nat × Nat)) (stop : Nat) : State :=
  let cws := (ext.flatMap fun x => (s.codewordsOf x.1 x.2).map fun w => (cbidOf x.1, w)).eraseDups
  (List.range (min stop 9)).foldl (fun s k => cws.foldl (fun s w => s.escStage w.1 w.2.1 w.2.2.1 w.2.2.2 (k + 1)) s) s

/-- The number of a codeword. -/
def cwKey (cbid page pos cw : Nat) : Nat := cbid * 2 ^ 22 + page * 64 + pos * 4 + cw

/-- R262: the escalation of a codeword goes on to ladder step or soft read `stage`; the stages it has been through are not repeated. -/
def State.escTo (s : State) (cbid page pos cw stage : Nat) : State :=
  let k := cwKey cbid page pos cw
  let done := tgetD k 0 s.conv.escAt
  let n := min stage 8
  let s := (List.range n).foldl (fun s i => if done ≤ i then s.escStage cbid page pos cw (i + 1) else s) s
  { s with conv := { s.conv with escAt := tput k (max done n) s.conv.escAt } }

/-- The decode limit of a stage (R262): SOFT_MAX for the soft read, HARD_MAX before it. -/
def State.iterLimit (s : State) (stage : Nat) : Nat :=
  if stage = 8 then clampTo 20 63 (s.get F.MED_ITER_CFG.SOFT_MAX) else clampTo 8 31 (s.get F.MED_ITER_CFG.HARD_MAX)

/-- R239: a codeword of a destination page has decoded: at the model offsets it is good; deeper, every uncommitted
relocation with a grain in the page is discarded and copied again from its source. -/
def State.relocDecode (s : State) (cbid page pos cw stage : Nat) : State :=
  if stage = 0 then
    let seen := fun (r : Reloc) =>
      if r.cbid = cbid then { r with left := r.left.filter fun x => x != (page, pos, cw) } else r
    { s with conv := { s.conv with relocs := s.conv.relocs.map seen } }.relocReady
  else
    let bad := fun (r : Reloc) =>
      r.cbid == cbid && (s.codewordsOf (placedSpan r.item).1 (placedSpan r.item).2).any fun x => x.1 == page && x.2.1 == pos
    let gone := s.conv.relocs.filter bad
    { s with conv := { s.conv with relocs := s.conv.relocs.filter fun r => !bad r } }.copyAgain (gone.map Reloc.item)

/-- The codewords of a block that a scrub pass reads. -/
def Cb.passSize (c : Cb) : Nat := 4 * c.nextPage * (c.members.filter fun x => !x.lost).length

/-- R265: a scrub read's iteration count at stage 0; more than 1 % of the pass at REFRESH_ITER or above marks the
block. -/
def State.scrubCount (s : State) (cbid stage iters : Nat) : State :=
  let o := tgetD cbid (0, 0) s.conv.scrubSeen
  let lim := clampTo 4 20 (s.get F.MED_ITER_CFG.REFRESH_ITER)
  let n := (o.1 + 1, o.2 + if stage = 0 ∧ lim ≤ iters then 1 else 0)
  let s := { s with conv := { s.conv with scrubSeen := tput cbid n s.conv.scrubSeen } }
  if (s.cb cbid).passSize < 100 * n.2 then s.markRefresh cbid else s

/-- MED_ESC_CNT and the tally's retry depth of the pack (R600). -/
def State.escCount (s : State) (port stage : Nat) : State :=
  let k := min 9 stage
  let s := s.setReg .MED_ESC_CNT k (s.reg .MED_ESC_CNT k + 1)
  if s.tallyOn then
    { s with tly := { s.tly with cur := { s.tly.cur with retry := satBin (16 * port + k) 1 s.tly.cur.retry } } }
  else s

/-- R264, R270, R638: an unrecoverable codeword: page 0 holds no host data, and parity none of its own. -/
def State.unrecoverable (s : State) (kind : ReadKind) (cbid page pos cw : Nat) : State :=
  if page = 0 then s else s.poisonCodeword cbid page pos cw (causeOf kind)

/-- R269: what a scrub read found only by reconstruction is relocated at once: the other codewords of every bale and patch with a
grain in it are read. -/
def State.relocateHit (s : State) (cbid page pos cw : Nat) : State :=
  let hit := (page, pos, cw)
  let ext := (s.map.entries.map fun e => (ent 41 0 e.2, ent 48 42 e.2)) ++ s.map.patches.map fun e => (bitsOf 41 0 e.2.toNat, patchLen e.2)
  (ext.filter fun x => x.2 != 0 && s.touches cbid hit x.1 x.2).foldl (fun s x =>
    s.readCws cbid ((s.codewordsOf x.1 x.2).filter fun y => y != hit)) s

/-- R638: a header that fails after the soft decode is taken from page 0 of another member; the controller holds all it says but POS in the
convoy block table too. -/
def State.headerRead (s : State) (cbid pos cw : Nat) : State :=
  let c := s.cb cbid
  match c.helpers 0 pos with
  | m :: _ => s.escRead c m 0 cw 0
  | [] => s

/-- R262, R263: a codeword has failed its soft decode, or lies on a lost member: the same codeword is read of W − 2 survivors; with fewer it is
unrecoverable. -/
def State.reconStart (s : State) (kind : ReadKind) (cbid page pos cw : Nat) : State :=
  let ms := (s.seen cbid).survivors page pos
  if page = 0 then s.headerRead cbid pos cw
  else if s.conv.recons.any fun r => r.cbid == cbid && r.page == page && r.pos == pos && r.cw == cw then s
  else if ms.length < (s.cb cbid).w - 2 then s.unrecoverable kind cbid page pos cw
  else
    let s := s.escStage cbid page pos cw 9
    { s with conv := { s.conv with
      recons := s.conv.recons ++ [{ kind := kind, cbid := cbid, page := page, pos := pos, cw := cw, asked := ms }] } }

/-- A reconstruction that has codeword `cw` of member `m`, or has failed to get it: once it has W − 2 of them its codeword is rebuilt; another
member that remains takes the place of one that failed, and with none left the codeword is unrecoverable (R263). -/
def State.reconGot (s : State) (m : Nat) (good : Bool) (r : Recon) : State :=
  let others := s.conv.recons.filter fun x => x != r
  let put := fun (s : State) (x : Recon) => { s with conv := { s.conv with recons := others ++ [x] } }
  let gone := { s with conv := { s.conv with recons := others } }
  let c := s.seen r.cbid
  if good then
    let x := { r with ok := r.ok ++ [m] }
    if x.ok.length < c.w - 2 then put s x
    else if r.kind = .scrub then gone.relocateHit r.cbid r.page r.pos r.cw else gone
  else match (c.helpers r.page r.pos).find? fun k => !r.asked.contains k with
    | some k => put (s.escRead c k r.page r.cw 0) { r with asked := r.asked ++ [k] }
    | none => gone.unrecoverable r.kind r.cbid r.page r.pos r.cw

/-- The reconstructions that wait for a codeword hear how its decode has ended. -/
def State.reconHear (s : State) (cbid page m cw : Nat) (good : Bool) : State :=
  (s.conv.recons.filter fun r => r.cbid == cbid && r.page == page && r.cw == cw && r.asked.contains m && !r.ok.contains m).foldl
    (fun s r => s.reconGot m good r) s

/-- The reconstruction of a codeword has failed (R263). -/
def State.reconFail (s : State) (cbid page pos cw : Nat) : State :=
  let mine := fun (r : Recon) => r.cbid == cbid && r.page == page && r.pos == pos && r.cw == cw
  let s' := { s with conv := { s.conv with recons := s.conv.recons.filter fun r => !mine r } }
  match s.conv.recons.find? mine with
  | some r => s'.unrecoverable r.kind cbid page pos cw
  | none => s'

/-- The units with a grain in a codeword: the bale or patch they belong to and their extent. -/
def State.unitsIn (s : State) (cbid : Nat) (hit : Nat × Nat × Nat) : List (Nat × Option Nat × Nat × Nat) :=
  let es := s.map.entries.map fun e => (e.1, (none : Option Nat), ent 41 0 e.2, ent 48 42 e.2)
  let ps := s.map.patches.map fun e => (e.1 / 16, some (e.1 % 16), bitsOf 41 0 e.2.toNat, patchLen e.2)
  (es ++ ps).filter fun u => u.2.2.2 != 0 && s.touches cbid hit u.2.2.1 u.2.2.2

/-- R154, R264: the codewords of a unit decode, and its generation or QCRC still mismatches after all of them have been through every stage: its
entry or patch is poisoned. Which of the units with a grain in the codeword it is, the medium says. -/
def State.mismatched (s : State) (kind : ReadKind) (cbid page pos cw n : Nat) : State :=
  let l := s.unitsIn cbid (page, pos, cw)
  match l[n % l.length]? with
  | none => s
  | some u =>
    let s := s.escalateAll [(u.2.2.1, u.2.2.2)] 9
    match u.2.1 with
    | none => s.poisonBale (u.1 / 2 ^ 37 + 1) (u.1 % 2 ^ 37) (causeOf kind)
    | some b => s.poisonBlock (u.1 / 2 ^ 37 + 1) (u.1 % 2 ^ 37) b (causeOf kind)

/-- What the end of a codeword's escalation does beyond its reads: a reconstruction read stops after the soft decode (R262). -/
def State.decodeEnd (s : State) (kind : ReadKind) (cbid page pos cw stage iters : Nat) : State :=
  if kind = .recon then s.reconHear cbid page pos cw (decide (stage ≤ 8))
  else if stage = 9 then s.reconStart kind cbid page pos cw
  else if stage = 10 then (s.reconStart kind cbid page pos cw).reconFail cbid page pos cw
  else if stage = 11 then s.mismatched kind cbid page pos cw iters else s

/-- A codeword's decode ends at a stage: 0 model, 1–7 ladder, 8 soft, 9 reconstruction is needed, 10 unrecoverable, 11 a unit in it
mismatches to the end. A decode over the limit of its stage has failed, and the next stage follows (R262). -/
def codewordDecode (kind : ReadKind) (cbid page pos cw stage iters : Nat) (s : State) : State :=
  let c := s.cb cbid
  match c.members[pos]? with
  | none => s
  | some x =>
    let s := s.escTo cbid page pos cw stage
    if stage < 8 ∧ s.iterLimit stage < iters then s.escTo cbid page pos cw (stage + 1)
    else
      let stage := if stage = 8 ∧ s.iterLimit 8 < iters then 9 else stage
      let s := { s with conv := { s.conv with escAt := tdel (cwKey cbid page pos cw) s.conv.escAt } }
      let s := s.escCount x.port stage
      let s := s.relocDecode cbid page pos cw stage
      let s := if kind = .scrub then s.scrubCount cbid stage iters else s
      let s := s.decodeEnd kind cbid page pos cw stage iters
      if 3 ≤ stage ∧ !x.lost then s.markRefresh cbid else s

/-- CODEWORD_DECODE (R262). Disabled decoders take no work (MED_CTL.EN). -/
def execCodewordDecode (kind : ReadKind) (cbid page pos cw : Nat) (stage : Fin 12) (iters : Nat) (s : State) : Res := s.awake <|
  .next (if s.domHeld 107 then s.gateKeep (.decode kind cbid page pos cw stage iters) else if s.on F.MED_CTL.EN then codewordDecode kind cbid page pos cw stage iters s else s)

/-! ### Scrubbing (R267, R268, R581) -/

/-- The pages of a block that the scrubber covers, lost members apart. -/
def Cb.scrubPages (c : Cb) : Nat := c.nextPage * (c.members.filter fun x => !x.lost).length

/-- The blocks the scrubber covers (states 1 to 3). -/
def State.scrubBlocks (s : State) : List (Nat × Cb) := s.conv.cbt.filter fun e => decide (1 ≤ e.2.state ∧ e.2.state ≤ 3)

/-- The CBID that parts the blocks not of the system stream into two halves of equally many pages, as they now are. -/
def State.scrubMidOf (s : State) : Nat :=
  let l := s.scrubBlocks.filter fun e => e.2.kind != 3
  let total := l.foldl (fun a e => a + e.2.scrubPages) 0
  let r := l.foldl (fun (a : Nat × Nat) e => if 2 * a.1 < total then (a.1 + e.2.scrubPages, e.1 + 1) else a) (0, 0)
  r.2

/-- R267: a period is two half passes of equally many pages: system blocks are in both, the others below `scrubMid` in the first and the rest in
the second (DESIGN CHOICE, log entry 131). -/
def State.scrubHalf (s : State) (half : Nat) : List (Nat × Cb) :=
  s.scrubBlocks.filter fun e => e.2.kind == 3 || decide (e.1 < s.conv.scrubMid) == (half == 0)

/-- R267, R268: the quota of a round; system blocks count twice, because they are scrubbed twice a period. -/
def State.scrubQuota (s : State) : Nat :=
  let p := s.scrubBlocks.foldl (fun a e => a + e.2.scrubPages * if e.2.kind = 3 then 2 else 1) 0
  let period := s.setting 0x07 * 86400
  (p + 10 * period - 1) / (10 * period)

/-- The next half pass begins; with the first one the blocks are parted anew. -/
def State.scrubTurn (s : State) : State :=
  let h := 1 - s.conv.scrubHalf
  let mid := if h = 0 then s.scrubMidOf else s.conv.scrubMid
  { s with conv := { s.conv with scrubHalf := h, scrubMid := mid, scrubCb := 0, scrubAt := 0 } }

/-- The block of the half pass at or after the position. -/
def State.scrubNext (s : State) : Option (Nat × Cb) := (s.scrubHalf s.conv.scrubHalf).find? fun e => decide (s.conv.scrubCb ≤ e.1)

/-- R268: the position of the scrubber goes to the system log. -/
def State.scrubLog (s : State) : State := s.logSys { typ := 9, block := s.conv.scrubCb, arg := s.conv.scrubHalf }

/-- The scrubber reads `n` pages from its position on; what a sleeping pack holds back is carried forward (R581), but for a burst (R268). The
codewords of a block are counted from its first read on, so that decodes that come late count in the pass that read them (R265). -/
def State.scrubRun (burst : Bool) (s : State) : Nat → Nat → State
  | 0, n => { s with conv := { s.conv with scrubCarry := n } }
  | _, 0 => { s with conv := { s.conv with scrubCarry := 0 } }
  | fuel + 1, n + 1 =>
    match s.scrubNext with
    | none => if s.scrubBlocks.isEmpty then { s with conv := { s.conv with scrubCarry := 0 } } else s.scrubTurn.scrubRun burst fuel (n + 1)
    | some (k, c) =>
      let at_ := if k = s.conv.scrubCb then s.conv.scrubAt else 0
      if c.nextPage * c.w ≤ at_ then
        { s with conv := { s.conv with scrubCb := k + 1, scrubAt := 0 } }.scrubRun burst fuel (n + 1)
      else
        let m := at_ % c.w
        let seen := fun (t : Tbl (Nat × Nat)) => if at_ = 0 then tdel k t else t
        let step := fun (s : State) => { s with conv := { s.conv with
          scrubCb := k, scrubAt := at_ + 1, scrubSeen := seen s.conv.scrubSeen } }
        match c.members[m]? with
        | none => (step s).scrubRun burst fuel (n + 1)
        | some x =>
          if x.lost then (step s).scrubRun burst fuel (n + 1)
          else if !burst && s.asleep x.port then { s with conv := { s.conv with scrubCarry := n + 1 } }
          else (step (s.sendRead (.scrub k (at_ / c.w)) c m (at_ / c.w) 15)).scrubRun burst fuel n

/-- A scrub round: its quota and what was carried, unless it yields to reclaim or every pack sleeps: then it accumulates and is read in one burst
every 15 minutes, which wakes the packs (R200). The position goes to the system log. -/
def scrubRound (dur : Nat) (s : State) : State :=
  let s := s.runTask taskScrub 100000 dur
  let n := s.scrubQuota + s.conv.scrubCarry
  let m := s.mode
  let sleep := s.inService.all s.asleep && !s.inService.isEmpty
  if m ≠ .idle ∧ m ≠ .balanced then { s with conv := { s.conv with scrubCarry := n } }
  else if sleep ∧ s.conv.scrubIdle < 9000 then
    { s with conv := { s.conv with scrubCarry := n, scrubIdle := s.conv.scrubIdle + 1 } }
  else
    let total := s.scrubBlocks.foldl (fun a e => a + e.2.nextPage * e.2.w + 1) 0
    let s := { s with conv := { s.conv with scrubIdle := 0 } }
    let s := if s.conv.scrubHalf = 0 ∧ s.conv.scrubCb = 0 ∧ s.conv.scrubAt = 0 then
        { s with conv := { s.conv with scrubMid := s.scrubMidOf } } else s
    (s.scrubRun sleep (2 * total + n + 2) n).scrubLog

/-- SCRUB_ROUND (R268). -/
def execScrubRound (durUs : Nat) (s : State) : Res := s.awake <| .next (scrubRound durUs s)

/-! ### The identity record and the retirement of dies (R212, R251, R275) -/

/-- The RETIRED bit mask of an identity record. -/
def retiredMask (l : List Nat) : Bytes :=
  (List.range 32).map fun k => BitVec.ofNat 8 ((List.range 8).foldl (fun a b => if l.contains (8 * k + b) then a + 2 ^ b else a) 0)

/-- R212: the record as it is to be written: COPYSEQ one greater, the service fields, and the CRC. -/
def recordBytes (raw : Bytes) (i : PackId) : Bytes :=
  let b := patchBytes raw 8 (leBytes 4 i.copyseq.toNat)
  let b := patchBytes b 0xC0 (leBytes 8 i.pairId.toNat ++ leBytes 8 i.svcDtime.toNat ++ leBytes 2 i.svcEpoch.toNat ++
    leBytes 2 i.inserts)
  let b := patchBytes b 0xD8 (retiredMask i.retired)
  b.take 0xFFC ++ leBytes 4 (crc32c (b.take 0xFFC)).toNat

/-- R212: the record is written to the copy that R210 did not select. -/
def State.idWriteStart (s : State) (n : Nat) : State :=
  let p := s.pk n
  if !s.reachable n then s.setPk n { p with idOut := [], idAgain := false }
  else (s.setPk n { p with idOut := p.raw, idAgain := false }).packSend n (.idWrite 1)
    { cseq := 0, opc := 9, param := BitVec.ofNat 64 (4096 * (1 - p.sel)), data := p.raw }

/-- R212: an update of the record begins, at once or after the one in progress. -/
def State.idUpdate (s : State) (n : Nat) (i : PackId) : State :=
  let i := { i with copyseq := i.copyseq + 1 }
  let p := s.pk n
  let s := s.setPk n { p with id := some i, raw := recordBytes p.raw i }
  if p.idOut.isEmpty then s.idWriteStart n else s.setPk n { s.pk n with idAgain := true }

/-- R275: die `d` of pack `n` is retired: its members are lost and rebuilt, the lowest-numbered spare die takes its place,
and RETIRED is updated in the identity record. -/
def State.retireDie (s : State) (n d : Nat) : State :=
  if s.conv.dieOut.contains (n, d) then s
  else
    let spare := (s.spareDies n).filter fun x => x != d
    let s := { s with conv := { s.conv with
      dieOut := s.conv.dieOut ++ [(n, d)]
      dieIn := match spare with
        | [] => s.conv.dieIn
        | x :: _ => s.conv.dieIn ++ [(n, x)] } }
    let s := (s.loseWhere fun x => x.port == n && x.die == d).dropRebuild fun x => x.port == n && x.die == d
    let s := match (s.pk n).id with
      | some i => s.idUpdate n { i with retired := if i.retired.contains d then i.retired else i.retired ++ [d] }
      | none => s
    s.recomputeU

/-- R275: a command to die `d` has returned status 3; two within 1 s retire the die. -/
def State.dieFailed (s : State) (n d : Nat) : State :=
  let recent := s.conv.dieFail.filter fun x => x.1 == n && x.2.1 == d && decide (s.elapsed < x.2.2 + 1000000)
  let s := { s with conv := { s.conv with dieFail := s.conv.dieFail ++ [(n, d, s.elapsed)] } }
  if recent.isEmpty then s else s.retireDie n d

/-- R273 to R275: an erase block is retired, and with BLOCKS ÷ 8 of them its die. -/
def State.retire (s : State) (n d b : Nat) : State :=
  let s := s.retireBlock n d b
  match (s.pk n).id with
  | some i => if i.blocks ≤ 8 * (s.retiredIn n d).length then s.retireDie n d else s
  | none => s

end Sys2Proof.Machine
end

