-- ==== Sys2Proof/Machine/Flow.lean ====
section
/-! DEFINITION. Protected staging, and what waits for it: Flush (R50), shutdown (R59), detach (R60), and the limit that
the landing zones set (R293). -/

namespace Sys2Proof.Machine

/-! ### Tenants and namespaces (R410, R60) -/

/-- R410: the bit of a tenant in an OWNER mask and in ATTACH: functions 0 to 65, host groups from 66 on. An association
outside every host group has none. -/
def State.ownerBit (s : State) : Tenant → Option Nat
  | .func f => some f
  | .assoc a => (s.assoc a).group.map fun g => 66 + g

/-- Is the namespace attached to the tenant? -/
def State.attached (s : State) (t : Tenant) (nsid : Nat) : Bool :=
  match s.nsOf nsid, s.ownerBit t with
  | some n, some b => n.funcs.contains b
  | _, _ => false

/-! ### Protected staging (R14, R120, R293) -/

/-- A write lands in protected staging: the overlay gains its blocks (R120), with their shuffle width (R166). -/
def State.land (s : State) (stamp : BitVec 64) (nsid slba w : Nat) (blocks : List BlockData) : State :=
  match s.nsOf nsid with
  | none => s
  | some n =>
    let bpb := blocksPerBale n.lbaf
    let l := (blocks.zipIdx).map fun b =>
      ({ nsid := nsid, bale := (slba + b.2) / bpb, blk := (slba + b.2) % bpb, stamp := stamp, data := b.1, w := w } : Staged)
    { s with map := { s.map with overlay := s.map.overlay ++ l } }.repin

/-- Bytes in protected staging: blocks with their metadata. -/
def State.stagingUsed (s : State) : Nat :=
  s.map.overlay.foldl (fun a x => a + x.data.data.length + x.data.md.length) 0

/-- R293: Z, the data capacity of one landing half. -/
def State.zBytes (s : State) : Nat :=
  let w := s.width
  if w = 0 then 0
  else s.sumDies (fun _ _ i => i.lzBlk / 2 * (i.pages / i.bpc) * 16384) * (w - 2) / w

/-- R293: staging in use is limited to the setting and to 0.8 × Z. -/
def State.stagingLimit (s : State) : Nat := min (s.setting 0x03 * 2 ^ 20) (8 * s.zBytes / 10)

/-- R293: is a Write left unfetched? -/
def State.stagingFull (s : State) : Bool := decide (s.stagingLimit ≤ s.stagingUsed)

/-! ### Flush (R50, R52) -/

/-- The opcodes that Flush waits for: Write, Write Zeroes, Dataset Management. -/
def isWriteOp (o : BitVec 8) : Bool := o == 0x01 || o == 0x08 || o == 0x09

/-- R50: nothing that the Flush covers remains: no fetched write without its data landed, none in staging, none whose map
request waits. Journal records are in protected staging from the moment they are made. -/
def State.flushReady (s : State) (stamp : BitVec 64) (nsid : Nat) : Bool :=
  (s.map.overlay.all fun x => decide (stamp.toNat ≤ x.stamp.toNat) || !s.nsCovers nsid x.nsid) &&
  (s.hif.ctxs.all fun c => c.admin || !isWriteOp c.opcode || decide (stamp.toNat ≤ c.stamp.toNat) || !s.nsCovers nsid c.nsid) &&
  (s.mapWaiting.all fun r =>
    r.op == 1 || decide (stamp.toNat ≤ r.d.fstamp.toNat) || !s.nsCovers nsid (r.d.nsidx + 1))

/-- A waiting Flush completes once its set is in packs. -/
def State.flushOne (s : State) (c : Ctx) : State :=
  match c.wait with
  | .flush stamp nsid => if s.flushReady stamp nsid then s.succeed c else s
  | _ => s

/-- R60: a waiting detach completes once nothing of it is outstanding: the namespace is detached. Commands on the namespace are those that
name it, admin commands among them, and a Flush or a Format of every namespace. -/
def State.detachOne (s : State) (c : Ctx) : State :=
  match c.wait with
  | .detach nsid fs =>
    let busy := s.hif.ctxs.any fun x => x.wait != .aer && (x.nsid == nsid || ((!x.admin || x.opcode == 0x80) && x.nsid == 0xFFFFFFFF)) &&
      decide (x.stamp.toNat < c.stamp.toNat) && match s.ownerBit x.tenant with
      | some b => fs.contains b
      | none => false
    if busy then s
    else match s.nsOf nsid with
      | none => s.succeed c
      | some n => (s.setNs nsid { n with
          funcs := n.funcs.filter fun f => !fs.contains f }).succeed c
  | _ => s

/-- R56: does a full completion queue of function `f` hold an entry of submission queue `qid`? -/
def State.cqHolds (s : State) (f qid : Nat) : Bool := (s.func f).cqs.any fun q => q.2.held.any fun e => e.sqid == qid

/-- R56: a Delete that waits completes once the last entry of its queue is posted. -/
def State.deleteOne (s : State) (c : Ctx) : State :=
  match c.wait, c.tenant with
  | .sqDrain qid, .func f => if s.cqHolds f qid then s else s.succeed c
  | _, _ => s

/-- Every Delete that waits is looked at again. -/
def State.deletes (s : State) : State := s.hif.ctxs.foldl State.deleteOne s

/-- Are protected staging and the journal in packs (R59)? -/
def State.stagingInPacks (s : State) : Bool :=
  s.map.overlay.isEmpty && s.map.openJ.isEmpty && (s.map.jblocks.all fun b => b.programmed) &&
    (s.mapWaiting.all fun r => r.op == 1)

/-- R59: function `f`'s shutdown is complete: its fetched commands have completed and staging and journal are in
packs. The tally recorder writes its current interval (R596). -/
def State.shutdownOne (s : State) (f : Nat) : State :=
  let busy := s.hif.ctxs.any fun c => c.tenant == .func f && c.wait != .aer
  if busy || !s.stagingInPacks || s.get F.CSTS.SHST f != 1 then s
  else
    let s := (s.put F.CSTS.SHST f 2).tallyEnd 1
    { s with pow := { s.pow with shutDone := true, savedDtime := s.dtime, savedEpoch := s.epoch } }

/-- R413: a rotation ends when no bale of the namespace is left to repack and none is poisoned: the previous key's slot is
erased under R416. -/
def State.rotateOne (s : State) (nsid : Nat) : State :=
  match s.nsOf nsid with
  | none => s
  | some n => match n.prevKey with
    | none => s
    | some h =>
      let k := h.toNat % 65536
      let left := s.map.repack.any (fun r => r.1 == nsid) ||
        s.map.entries.any (fun e => e.1 / 2 ^ 37 + 1 == nsid && ent 51 51 e.2 == 1) ||
        s.map.patches.any fun e => e.1 / 2 ^ 41 + 1 == nsid && isPlaceholder e.2
      if left then s
      else
        let s := s.setNs nsid { n with prevKey := none }
        let v : KeySlot := { tgetD k {} s.keys.slots with pend := some .erase }
        { s with keys := { s.keys with slots := tput k v s.keys.slots } }

/-- R292, R296: the erase blocks of a landing half are erased, spares in their roles among them (R639). -/
def State.eraseHalf (s : State) (h : Nat) : State :=
  s.inService.foldl (fun s n => match (s.pk n).id with
    | none => s
    | some i => (s.diesIn n).foldl (fun s d => (List.range (i.lzBlk / 2)).foldl (fun s k =>
        match s.lzBlock n d i (h * (i.lzBlk / 2) + k) with
        | some b => s.eraseOne (.erase d b) n d b
        | none => s) s) s) s

/-- R292: the half of a replayed dump is released by a system-log record once every block replayed from it has committed and
the journal records of those commits are in packs; the half is then erased. -/
def State.releaseHalf (s : State) : State :=
  match s.pow.dump with
  | none => s
  | some d =>
    if !s.health.ready || s.pow.dumping then s
    else
      let left := s.map.overlay.any fun x => decide (x.stamp.toNat ≤ d.fstampMax.toNat)
      let s := if s.pow.relJseq.isNone && !left then
          { s with pow := { s.pow with relJseq := some (s.map.nextJseq - 1) } } else s
      match s.pow.relJseq with
      | none => s
      | some j =>
        if !s.journalled j then s
        else
          let ds := d :: s.pow.older.toList
          let s := { s with pow := { s.pow with dump := none, older := none, relJseq := none } }
          ds.foldl (fun s d => (s.logSys { typ := 8, arg := d.seq * 2 + d.half }).eraseHalf d.half) s

/-- R303: a checkpoint round starts when the journal that a start would replay exceeds 4 GiB. -/
def State.journalDue (s : State) : State := if 2 ^ 20 < s.map.jblocks.length then checkpointAll s else s

/-- R579: once the round of its entry is in packs the controller goes dormant: the tally interval, HBM off, then the PLLs. What HBM held is
lost: the fill of the wake replaces it. -/
def State.dormantGo (s : State) : State :=
  if !s.pow.entering || s.map.ckptOpen.isSome then s
  else
    let s := (s.tallyEnd 1).put F.CPM_PSTATE.STATE 0 2
    { s.put F.HBC_INIT.DONE 0 0 with
      hkp := { s.hkp with pll := 0, hbmOn := false }
      pow := { s.pow with entering := false } }

/-- Everything that waits for other work is looked at again: flushes, detaches, rotations, shutdowns, the release of a landing half, and the
entry into dormant, in that order. Before it, system-log records leave that have not (R295). -/
def State.flow (s : State) : State :=
  let s := s.logGo.journalDue
  let s := s.hif.ctxs.foldl State.flushOne s
  let s := s.hif.ctxs.foldl State.detachOne s
  let s := (keysWhere (fun _ => true) s.hif.ns).foldl State.rotateOne s
  let s := (keysWhere (fun _ => true) s.hif.shutdown).foldl State.shutdownOne s
  s.releaseHalf.dormantGo

end Sys2Proof.Machine
end

