-- ==== Sys2Proof/Machine/Mbx.lean ====
section
/-! DEFINITION. Mailbox messages: the checks that every request passes (R464, R469, R472, R473), roles and tokens (R421,
R422), responses (R467, R468); and the states a controller shows as a twin and while it starts. -/

namespace Sys2Proof.Machine

/-! ### States shown in every function's BAR0 -/

/-- A register that every function shows is written: instance 0 holds it, the others follow. -/
def State.putAll (s : State) (f : Fld) (x : Nat) : State := (List.range 66).foldl (fun s i => s.put f i x) s

/-- HIF_BOOTSTAT.STATE. -/
def State.bootState (s : State) : Nat := s.get F.HIF_BOOTSTAT.STATE

/-! ### Roles and tokens -/

/-- R421: the role that an opcode requires: 0 observer, 1 operator, 2 crypto officer. -/
def roleOf (op : Nat) : Nat :=
  match op / 256 with
  | 0 => 0
  | 2 => 0
  | 5 => if op = 0x0501 ∨ op = 0x0502 ∨ op = 0x0505 then 1 else 2
  | 6 => 2
  | 7 => if op = 0x0701 ∨ op = 0x0703 then 0 else 1
  | _ => 1

/-- R351: is the opcode served where it arrives, outside the ledger? -/
def servedLocally (op : Nat) : Bool := op / 256 == 2 || op == 0x0701 || op == 0x0703

/-- R422: a token lapses after 900 s without use. -/
def Token.valid (now : Nat) (t : Token) : Bool := decide (now ≤ t.used + 900000000)

/-- The valid token that a request names, on its channel (R475). -/
def State.tokenOf (s : State) (m : Msg) : Option Token :=
  s.mbx.tokens.find? fun t => t.val == m.token && t.chan == m.chan.val && t.valid s.elapsed

/-- A token has been used. -/
def State.useToken (s : State) (m : Msg) : State :=
  { s with mbx := { s.mbx with tokens := s.mbx.tokens.map fun t =>
      if t.val = m.token ∧ t.chan = m.chan.val then { t with used := s.elapsed } else t } }

/-- R423: the first crypto-officer key may be enrolled without authentication, through BAR2. -/
def State.firstCo (s : State) (m : Msg) : Bool :=
  !(s.keys.auth.any fun k => k.role == 2) && s.hif.ns.isEmpty && decide (m.chan.val ≤ 5)

/-! ### Responses -/

/-- The response to the message that a channel holds. -/
def State.setReply (s : State) (c : Nat) (r : Reply) (replayed : Bool) : State :=
  { s with mbx := { s.mbx with reply := tput c (r, replayed) s.mbx.reply } }

/-- R351, R472: a message has been applied on a channel: its response is kept for replay and enters the digest; it is sent
where the message arrived. A response of group 0x04xx tells of one twin only (R605), and enters no digest. -/
def State.answer (s : State) (op : Nat) (m : Msg) (here : Bool) (code detail : Nat) (body : Bytes) (more : Bool := false) :
    State :=
  let r : Reply :=
    { tag := m.tag, opcode := BitVec.ofNat 16 op, code := code, detail := detail, body := body, more := more }
  let o := Out.mbx m.chan m.tag (code + 65536 * detail) body
  let s := { s with mbx := { s.mbx with last := tput m.chan r s.mbx.last } }
  let s := if here then s.setReply m.chan r false else s
  if servedLocally op || op / 256 == 4 then if here then s.send o else s
  else if here then s.emit o else s.digest 0 o

/-- Did the message arrive here? -/
def isHere (a : Arrival) : Bool := a == .here

/-- A message succeeds. -/
def State.done (s : State) (op : Nat) (m : Msg) (a : Arrival) (body : Bytes := []) (more : Bool := false) : State :=
  s.answer op m (isHere a) 0 0 body more

/-- A message ends with a status of R468. -/
def State.refuse (s : State) (op : Nat) (m : Msg) (a : Arrival) (code : Nat) (detail : Nat := 0) : State :=
  s.answer op m (isHere a) code detail []

/-- DETAIL of status 7: the twin state and the start-up state. -/
def State.stateDetail (s : State) : Nat := 256 * s.twState + s.bootState

/-- R473, R424, R425: is the opcode served in the present state? 0 if so, else the status. -/
def State.stateCheck (s : State) (op : Nat) : Nat :=
  let g := op / 256
  let core := g == 0 || g == 2 || g == 5 || g == 7
  if s.bootState = 7 ∧ !core then 7
  else if s.fw.testMode ∧ g = 3 then 7
  else if s.arb.outcast ∧ !s.arb.fenceLow ∧ !core then 7
  else if g = 6 ∧ s.get F.SEC_MODE.MODE = 3 then 10
  else if g = 6 ∧ s.get F.SEC_MODE.MODE ≠ 1 then 7
  else 0

/-- R472: a request with REPLAY gets the stored response again, or status 9, and executes nothing. -/
def State.replay (s : State) (op : Nat) (m : Msg) (a : Arrival) : State :=
  let none_ : Reply := { tag := m.tag, opcode := BitVec.ofNat 16 op, code := 9, detail := 0, body := [] }
  let r := match tget m.chan s.mbx.last with
    | some r => if r.tag = m.tag ∧ r.opcode.toNat = op then r else none_
    | none => none_
  if isHere a then (s.setReply m.chan r (r.code != 9)).send (.mbx m.chan m.tag (r.code + 65536 * r.detail) r.body) else s

/-- R469, R473: a message is applied: LENGTH, role, state, and then what its opcode does. `free` lets it pass without a
role (R423, R474). Messages wait while an activation without reset has stopped fetching. -/
def msgApply (op len : Nat) (m : Msg) (a : Arrival) (f : State → State) (s : State) (free : Bool := false) : State :=
  if s.hif.activating.isSome then s
  else if m.replay then s.replay op m a
  else if m.len ≠ len ∨ m.len < 16 ∨ 28672 < m.len then s.refuse op m a 3
  else
    let need := if free then 0 else roleOf op
    let tok := s.tokenOf m
    let sess := op / 256 == 0
    if !sess && m.token != 0 && tok.isNone then s.refuse op m a 5
    else if (match tok with
        | some t => t.role
        | none => 0) < need then s.refuse op m a 4 need
    else
      let s := s.useToken m
      let c := s.stateCheck op
      if c ≠ 0 then s.refuse op m a c (if c = 7 then s.stateDetail else s.get F.SEC_MODE.ERRCODE)
      else f s

/-- The opcodes of the mailbox groups (R474, R476, R479, R481 to R486). -/
def mailOps : List Nat :=
  [0x0001, 0x0002, 0x0003, 0x0101, 0x0102, 0x0103, 0x0104, 0x0201, 0x0202, 0x0203, 0x0210, 0x0280, 0x0281, 0x0301, 0x0302, 0x0303,
   0x0304, 0x0305, 0x0401, 0x0402, 0x0403, 0x0404, 0x0501, 0x0502, 0x0503, 0x0504, 0x0505, 0x0506, 0x0507, 0x0508, 0x0509, 0x050A,
   0x0601, 0x0602, 0x0603, 0x0604, 0x0605, 0x0606, 0x0607, 0x0608, 0x0609, 0x060A, 0x060B, 0x060C, 0x060D, 0x0701, 0x0702, 0x0703,
   0x0710, 0x0801, 0x0802, 0x0803, 0x0804, 0x0805, 0x0806, 0x0807]

/-- R468, R469: a message whose opcode is none of these ends with status 1, unless its LENGTH is wrong. -/
def State.mailUnknown (s : State) (m : Msg) (a : Arrival) : State :=
  let op := m.opcode.toNat
  if mailOps.contains op then s
  else if m.replay then s.replay op m a
  else if m.len < 16 ∨ 28672 < m.len then s.refuse op m a 3
  else s.refuse op m a 1

/-- A message waits for the end of something before it is answered. -/
def State.await (s : State) (m : Msg) (a : Arrival) (what arg : Nat) : State :=
  { s with mbx := { s.mbx with waits := s.mbx.waits ++ [{ m := m, here := isHere a, what := what, arg := arg }] } }

/-- What a message waited for has ended: it is answered. -/
def State.answerWaits (s : State) (op what arg code detail : Nat) (body : Bytes) : State :=
  let hit := fun (w : MbxWait) => w.what == what && w.arg == arg
  let l := s.mbx.waits.filter hit
  let s := { s with mbx := { s.mbx with waits := s.mbx.waits.filter fun w => !hit w } }
  l.foldl (fun s w => s.answer op w.m w.here code detail body) s

end Sys2Proof.Machine
end

