-- ==== Sys2Proof/Machine/Link.lean ====
section
/-! DEFINITION. Flit links: acknowledgement, replay, credits and retraining, of pack lanes and of the twin link (R181 to
R183, R313, R314); outputs held until the twin link acknowledges (R365); and the capture of inputs (R318, R320 to R322,
R326). -/

namespace Sys2Proof.Machine

/-! ### The two kinds of link -/

/-- The record of a link. -/
def State.lnk (s : State) : Link → Lnk
  | .pack n => (s.pk n).link
  | .twin => s.twn.link

/-- A link's record is replaced. -/
def State.setLnk (s : State) (l : Link) (x : Lnk) : State :=
  match l with
  | .pack n => s.setPk n { s.pk n with link := x }
  | .twin => { s with twn := { s.twn with link := x } }

/-- Is the link trained? -/
def State.lnkUp (s : State) : Link → Bool
  | .pack n => s.on F.PKP_STAT.LINK_UP n
  | .twin => s.on F.TWN_STAT.LINK_UP

/-- Messages that wait on a link leave. -/
def State.pump (s : State) : Link → State
  | .pack n => s.pumpPack n
  | .twin => s.pumpTwin

/-- R365: held outputs leave, oldest first, while FENCE_N is high and the first of them may: the flits it waited for are acknowledged and no
QUERY freezes it. -/
def State.releaseHeld (s : State) : State :=
  if s.arb.fenceLow then s else
  let free := fun (h : HeldOut) =>
    !s.twn.frozen && (!s.pairedLead || (s.on F.TWN_STAT.LINK_UP && (s.twn.link.acked - h.need).toNat < 2 ^ 31))
  let go := s.twn.held.takeWhile free
  let s := { s with twn := { s.twn with held := s.twn.held.dropWhile free } }
  go.foldl (fun s h => s.issue h.o) s

/-- What follows an acknowledgement: new flits leave, and on the twin link held outputs and finished key transfers. -/
def State.afterAck (s : State) (l : Link) : State :=
  match l with
  | .pack n => s.pumpPack n
  | .twin => s.pumpTwin.releaseHeld

/-- R181: flits up to `seq` are acknowledged; a number outside those outstanding is ignored. -/
def State.ackTo (s : State) (l : Link) (seq : BitVec 32) : State :=
  let x := s.lnk l
  let k := (seq + 1 - x.acked).toNat
  if 0 < k ∧ k ≤ x.unacked then s.setLnk l { x with acked := seq + 1, buf := x.buf.drop k, replays := 0 } else s

/-- FLIT_ACK (R181). -/
def execFlitAck (l : Link) (seq : BitVec 32) (s : State) : Res := s.awake <| .next (((s.ackTo l seq).afterAck l).flow)

/-- TWIN_FLIT_ACK (R365): an acknowledgement on the twin link. -/
def execTwinFlitAck (seq : BitVec 32) (s : State) : Res := s.awake <| .next (((s.ackTo .twin seq).afterAck .twin).flow)

/-- CREDIT (R183). -/
def execCredit (l : Link) (n : Nat) (s : State) : Res := s.awake <|
  .next ((s.setLnk l { s.lnk l with credit := min 65535 ((s.lnk l).credit + n) }).pump l)

/-- R181: every flit that is not acknowledged goes out again, in order; a replay spends no credit (R183). -/
def State.replayFlits (s : State) (l : Link) : State :=
  let x := s.lnk l
  let s := x.buf.foldl (fun s f => s.send (.flit l f)) s
  match l with
  | .pack n => (s.bump F.PKP_LERR.REPLAYS n x.unacked).pmc 0x08 0x32 x.unacked
  | .twin => s

/-- R218: port `n`'s source. -/
def State.pkRaise (s : State) (n : Nat) : State := s.raise (16 + n)

/-- R218: a bit of PKP_STAT[n] that becomes set raises the port's source. -/
def State.pkBit (s : State) (f : Fld) (n : Nat) : State := if s.on f n then s else (s.put f n 1).pkRaise n

/-- R218: the link state of port `n` has changed. -/
def State.linkChg (s : State) (n : Nat) : State := s.pkBit F.PKP_STAT.LINK_CHG n

/-- Pack `n`'s state changes; a pack that is absent or lost shows that whatever its lane was in. -/
def State.setPkState (s : State) (n st : Nat) : State :=
  let p := s.pk n
  (s.setPk n { p with phase := st, side := if st = 0 ∨ st = 11 then 0 else p.side }).showPack n

/-- What the own lane of port `n` shows changes: 0 for a lane that is up. -/
def State.setSide (s : State) (n x : Nat) : State := (s.setPk n { s.pk n with side := x }).showPack n

/-- R313: the twin link goes down: source 3, LINK_UP, and ALERT with CODE 1 of a paired twin. -/
def State.twinDown (s : State) : State :=
  if !s.on F.TWN_STAT.LINK_UP then s
  else
    let s := (s.put F.TWN_STAT.LINK_UP 0 0).raise 3
    let s := { s with arb := { s.arb with linkDownAt := some s.elapsed } }
    if s.on F.TWN_STAT.PAIRED then s.alert 1 else s

/-- R182: a link starts to retrain: SEQ and the retry buffer are kept. -/
def State.retrainStart (s : State) (l : Link) : State :=
  match l with
  | .pack n =>
    let s := (s.bump F.PKP_LERR.RETRAINS n).put F.PKP_CTL.RETRAIN n 1
    let s := (if s.on F.PKP_STAT.LINK_UP n then (s.put F.PKP_STAT.LINK_UP n 0).linkChg n else s).train n
    if 4 ≤ s.pkState n ∧ s.pkState n ≤ 10 ∧ (s.pk n).side = 0 then s else s.setSide n 2
  | .twin => ((s.bump F.TWN_LINK.RETRAINS 0).presetAt 32).raise 252

/-! ### Capture (R318, R320 to R322, R326) -/

/-- R326: capture is held: HELD, source 253, and FLAGS bit 0 of the record that takes the input. -/
def State.captureHeld (s : State) : State :=
  if s.on F.TWN_STAT.HELD then s else (s.put F.TWN_STAT.HELD 0 1).raise 253

/-- An input is accepted as ledger entry `e`: it waits in its source while capture is held (R326); otherwise it enters the
record and its input ring, and `f` is what it does. A trail captures nothing (R319), and keeps its own pin edges (R368). -/
def State.capture (s : State) (e : LEntry) (f : State → State) : State :=
  if s.isTrail then
    if e.cls = 7 then { s with twn := { s.twn with stock := s.twn.stock ++ [e] } } else s
  else
    let e := { e with toff := s.toff }
    if !s.twn.heldIn.isEmpty || !s.hasRoom e then
      let s := { s with twn := { s.twn with heldIn := s.twn.heldIn ++ [e], openHeld := true } }
      (s.put F.TWN_STAT.HELD 0 1).raise 253
    else f ((if s.staged then s.recordPut e else s).ringDeliver e)

/-- Will an input be needed again after it has arrived: by a paired trail's fetch, or because capture is held? -/
def State.keeps (s : State) (e : LEntry) : Bool := s.staged || !s.twn.heldIn.isEmpty || !s.hasRoom e

/-- A Pack Link message that has arrived is kept as the bytes that its ledger entry names (R319, R320). -/
def State.keepMsg (s : State) (e : LEntry) (m : PkMsg) : State :=
  if s.keeps e then { s with twn := { s.twn with packMsgs := s.twn.packMsgs ++ [m] } } else s

/-- A capsule that has arrived is kept likewise. -/
def State.keepCapsule (s : State) (e : LEntry) (c : Capsule) : State :=
  if s.keeps e then { s with twn := { s.twn with capsules := s.twn.capsules ++ [c] } } else s

/-- R321: the trail reports an input to the lead. -/
def State.peerTell (s : State) (e : LEntry) : State :=
  if s.isTrail then s.twinSend 3 { e with origin := true }.bytes else s

/-- R181, R183: at most 64 accepted flits on a link are acknowledged, and their credits return. -/
def State.ackSome (s : State) (l : Link) (k : Nat) : State :=
  let x := s.lnk l
  let rx := x.rx + BitVec.ofNat 32 k
  ((s.setLnk l { x with rx := rx }).control l rx 0x10 0).control l rx 0x12 k

/-- R181: `k` flits have been accepted on a link: an acknowledgement and the credits go back after every 64, and at the end. -/
def State.accepted (s : State) (l : Link) (k : Nat) : State :=
  let s := (List.range ((k + 63) / 64)).foldl (fun s j => s.ackSome l (min 64 (k - 64 * j))) s
  match l with
  | .pack _ => s.pmc 0x08 0x31 k
  | .twin => s

/-- A message with a body of `n` bytes has arrived on the twin link: its flits are accepted and its MSEQ is the last one
(R316). -/
def State.twinIn (s : State) (n : Nat) : State :=
  { s with twn := { s.twn with mseqRx := s.twn.mseqRx + 1 } }.accepted .twin (flitsOf (32 + n))

end Sys2Proof.Machine
end

