-- ==== Sys2Proof/Machine/Chan.lean ====
section
/-! DEFINITION. The mailbox channels: submission, completion and reset of a channel, and the paths over NVMe-MI (R461 to
R466). -/

namespace Sys2Proof.Machine

/-- R462: the physical function whose BAR2 carries channel `c`, in the strapped link mode; none for channels 6 and 7. -/
def State.chanFunc (s : State) (c : Nat) : Option Nat :=
  if 6 ≤ c then none else if s.straps.linkMode && decide (3 ≤ c) then some 33 else some 0

/-- The physical function of a port, and whether a function is a physical one. -/
def portPf (port : Nat) : Nat := 33 * port

/-- Is `f` a physical function in the strapped link mode? -/
def State.isPf (s : State) (f : Nat) : Bool := f == 0 || (s.straps.linkMode && f == 33)

/-- The 16 header bytes of a request (R467). -/
def msgHeader (m : Msg) : Bytes :=
  leBytes 2 m.opcode.toNat ++ leBytes 2 m.tag.toNat ++ leBytes 4 m.len ++ leBytes 4 (if m.replay then 1 else 0) ++
    leBytes 4 m.token.toNat

/-- The bytes of the message in a channel: its header, and what the request buffer holds behind it. -/
def State.msgBytes (s : State) (m : Msg) : Bytes :=
  (msgHeader m ++ (List.range (m.len - 16)).map fun j => tgetD (65536 * m.chan.val + 16 + j) 0 s.mbx.req).take m.len

/-- The class 0x06 entry of a message that arrived on a channel (R323). -/
def State.msgEntry (s : State) (m : Msg) : LEntry :=
  { cls := 6, origin := false, toff := 0
    payload := [m.chan.val, if m.chan.val < 6 then 0 else 1, 0, m.len] ++ (s.msgBytes m).map BitVec.toNat }

/-- R463: GO: the request is submitted; while BUSY it is an overrun. Messages not served locally are captured, or reported by
a trail (R321, R351). -/
def State.mailGo (s : State) (m : Msg) : State :=
  let c := m.chan.val
  if s.on F.MBX_CSR.BUSY c then s.put F.MBX_CSR.OVERRUN c 1
  else
    let s := ((s.put F.MBX_CSR.BUSY c 1).put F.MBX_CSR.RDY c 0).raise (204 + c)
    let s := { s with mbx := { s.mbx with cur := tput c m s.mbx.cur } }.pmc 0x14 0x10
    if servedLocally m.opcode.toNat then s.mailUnknown m .here
    else if s.isTrail then s.peerTell (s.msgEntry m)
    else s.capture (s.msgEntry m) fun s => s.mailUnknown m .here

/-- MAILBOX_GO (R463). -/
def execMailboxGo (m : Msg) (s : State) : Res := s.awake <| .next (s.mailGo m)

/-- OUT_OF_BAND_MI_COMMAND (R466): the message arrives on channel 6. -/
def execOutOfBandMiCommand (m : Msg) (s : State) : Res := s.awake <| .next (s.mailGo { m with chan := 6 })

/-- The bytes of the response to the message of channel `c` (R467). -/
def State.rspBytes (s : State) (c : Nat) : Bytes :=
  match tget c s.mbx.reply with
  | none => []
  | some (r, again) =>
    let bits := r.more.toNat + 2 * again.toNat
    let twin := (if s.straps.twinId then 2 ^ 24 else 0) + (if s.isTrail then 2 ^ 25 else 0)
    let loc := if servedLocally r.opcode.toNat then 4 else 0
    leBytes 2 r.opcode.toNat ++ leBytes 2 r.tag.toNat ++ leBytes 4 (20 + r.body.length) ++ leBytes 4 (bits + twin + loc) ++
      leBytes 4 (match tget c s.mbx.cur with
        | some m => m.token.toNat
        | none => 0) ++ leBytes 4 (r.code + 65536 * r.detail) ++ r.body

/-- A waiting NVMe-MI Receive gets the response (R466). -/
def State.giveMi (s : State) : State :=
  match s.hif.miPending with
  | [] => s
  | stamp :: rest =>
    let s := { s with hif := { s.hif with miPending := rest } }
    match s.ctx stamp with
    | none => s
    | some c => match c.tenant with
      | .func f => (s.emit (.hostData f c.cid (s.rspBytes 7))).succeed c
      | .assoc _ => s.succeed c

/-- MAILBOX_DONE (R463): the response is in the buffer; an MSI-X message follows where MBX_INT asks for one. -/
def execMailboxDone (c : Fin 8) (s : State) : Res := s.awake <|
  let s := (s.put F.MBX_CSR.BUSY c 0).put F.MBX_CSR.RDY c 1
  let s := { s with mbx := { s.mbx with rsp := tput c.val (s.rspBytes c) s.mbx.rsp } }
  let s := (s.pmc 0x14 0x11).pmc 0x14 0x12 (match tget c.val s.mbx.reply with | some (r, _) => if r.code = 0 then 0 else 1 | none => 0)
  let s := match s.chanFunc c with
    | some f => if s.on F.MBX_INT.EN c then s.sendMsix f (s.get F.MBX_INT.VECTOR c) else s
    | none => s
  .next (if c = 7 then s.giveMi else s)

/-- R465: the registers of the channels that physical function `f` carries are cleared, and their tokens end; responses stay
for replay. -/
def State.resetChans (s : State) (f : Nat) : State :=
  let cs := (List.range 6).filter fun c => s.chanFunc c == some f
  let s := cs.foldl (fun s c => (s.setReg .MBX_CSR c 0).setReg .MBX_INT c 0) s
  { s with mbx := { s.mbx with
    tokens := s.mbx.tokens.filter fun t => !cs.contains t.chan
    cur := s.mbx.cur.filter fun e => !cs.contains e.1 } }

end Sys2Proof.Machine
end

