-- ==== Sys2Proof/Machine/Cph.lean ====
section
/-! DEFINITION. The cipher cluster: key slots, cipher jobs and their check by inversion, nonces, cores leaving and
entering service, and the module's error state (chapter 12). -/

namespace Sys2Proof.Machine

/-! ### Key slots -/

/-- The fingerprint of a slot: SHA-384 over "KFP1", slot, GEN and material. -/
def keyFp (n : Nat) (k : KeySlot) : Bytes :=
  sha384 ([0x4B, 0x46, 0x50, 0x31] ++ leBytes 2 n ++ leBytes 4 k.gen.toNat ++ k.mat)

/-! ### The module's error state (R425) -/

/-- R425, R430: the module enters the error state: source 9 is raised, fetching stops, every command held ends with Internal Error. -/
def State.secStop (s : State) (code : Nat) : State :=
  let s := (s.put F.SEC_MODE.MODE 0 3).put F.SEC_MODE.ERRCODE 0 code
  let s := { s with hif := { s.hif with fetchStop := true } }
  let s := s.hif.ctxs.foldl (fun s c => s.fail c 0 0x06) s
  ((s.setFault 6).setFault 1).raise 9

/-! ### Cores (R394 to R396) -/

/-- CPH_STAT.CORES: the cores in dispatch. -/
def State.cphCores (s : State) : State :=
  s.put F.CPH_STAT.CORES 0 ((List.range 18).filter fun n => s.on F.CPH_CORE_CTL.EN n).length

/-- R394: core `n` is faulted: it leaves dispatch and raises its source. -/
def State.cphFault (s : State) (n : Nat) : State :=
  let s := ((s.put F.CPH_CORE_STAT.FAULT n 1).bump F.CPH_CORE_STAT.INVFAIL n).put F.CPH_CORE_CTL.EN n 0
  (s.cphCores.raise (112 + n)).judge

/-! ### Jobs (R393 to R397, R404, R405, R409) -/

/-- R397: is a descriptor malformed for its OP? -/
def cphBad (op : Nat) (d : CphDesc) : Bool :=
  !d.mbz || decide (3 < d.flags.toNat ∨ d.len = 0 ∨ 16384 < d.len ∨ d.len % 16 ≠ 0) ||
    (decide (3 ≤ op) && decide (32 < d.aadlen ∨ 2 ^ 96 ≤ d.iv.toNat))

/-- The ALG that an OP needs. -/
def algOf (op : Nat) : Nat := if op ≤ 2 then 1 else 2

/-- What a job writes and how it ends. -/
structure CphEnd where
  status : Nat
  out : Bytes := []
  tag : Bytes := []
  iv : Option (BitVec 128) := none
deriving DecidableEq, Repr

/-- What the ciphers give on a well-formed job. -/
def cphRun (op : Nat) (d : CphDesc) (mat src aux tag : Bytes) : CphEnd :=
  let iv := leBytes 16 d.iv.toNat
  match op with
  | 1 => { status := 1, out := xts true mat iv src }
  | 2 => { status := 1, out := xts false mat iv src }
  | 3 =>
    let r := gcmEnc mat (iv.take 12) aux src
    { status := 1, out := r.1, tag := r.2 }
  | _ =>
    let r := gcmDec mat (iv.take 12) aux src tag
    { status := if r.2 then 1 else 2, out := r.1 }

/-- Nonces of one raise of the high-water mark (R405). -/
def hwmStep : Nat := 2 ^ 24

/-- R404, R405: the nonce counter of slot `n` moves on; at HWM − 2^22 the mark goes up. -/
def State.takeNonce (s : State) (n : Nat) : State :=
  let k := s.kslot n
  let next := k.nctr + 1
  s.setKslot n { k with
    nctr := next
    hwm := if k.hwm ≤ next + 2 ^ 22 then k.hwm + hwmStep else k.hwm
    rsv := k.rsv - 1 }

/-- R394: what a failed inversion check leaves: the faulted core and its mismatches, or the module's error state. -/
def State.invFail (s : State) (run : CphRun) : State :=
  if run.ok then s
  else
    let s := s.bump F.CPH_STAT.INVFAIL 0 (if run.rerunOk then 1 else 2)
    if run.rerunOk then s.cphFault (if run.producerWrong then run.producer else run.checker) else s

/-- How a job that has been taken ends, before its cores are judged: `none` is a job the ciphers run. -/
def State.cphStop (s : State) (op : Nat) (d : CphDesc) : Option Nat :=
  let k := s.kslot d.slot
  if s.get F.SEC_MODE.MODE = 3 ∨ cphBad op d then some 4
  else if !k.loaded || k.gen != d.kgen then some 5
  else if k.alg ≠ algOf op then some 4
  else if op = 3 ∧ d.flags.getLsbD 1 ∧ 2 ^ 96 ≤ k.nctr then some 6
  else none

/-- Does a job that runs take a nonce from its slot (R409)? -/
def cphAlloc (op : Nat) (d : CphDesc) : Bool := op == 3 && d.flags.getLsbD 1

/-- What a taken job gives, with `iv` as its IV. -/
def State.cphEnd (s : State) (op : Nat) (d : CphDesc) (run : CphRun) : CphEnd :=
  match s.cphStop op d with
  | some st => { status := st }
  | none =>
    if !run.ok && !run.rerunOk then { status := 3 }
    else
      let iv := if cphAlloc op d then BitVec.ofNat 128 (s.kslot d.slot).nctr else d.iv
      let e := cphRun op { d with iv := iv } (s.kslot d.slot).mat (s.engRead d.src d.len) (s.engRead d.aux d.aadlen)
        (s.engRead (d.aux + 0x20) 16)
      { e with iv := if cphAlloc op d then some iv else none }

/-- The address of the descriptor at the head of ring `r`. -/
def State.cphSlot (s : State) (r : Nat) : Nat :=
  s.get F.CPH_RING_CFG.BASE r * 64 +
    64 * (s.get F.CPH_RING_PTR.HEAD r % 2 ^ clampTo 6 15 (s.get F.CPH_RING_CFG.SIZE r))

/-- The descriptor of a job that runs, its input, its authenticated data and its tag are read under HBM's codes (R534). -/
def State.cphFetch (s : State) (op r : Nat) (d : CphDesc) : State × Bool :=
  if (s.cphStop op d).isSome then (s, false)
  else
    let gcm := if 3 ≤ op then [(d.aux, d.aadlen)] else []
    let tag := if op = 4 then [(d.aux + 0x20, 16)] else []
    s.engFetch ([(s.cphSlot r, 64), (d.src, d.len)] ++ gcm ++ tag)

/-- What the job at the head of ring `r` gives; one whose input is poisoned ends as a malformed one (R537). -/
def State.cphOutcome (s : State) (op r : Nat) (d : CphDesc) (run : CphRun) : CphEnd :=
  let f := s.cphFetch op r d
  if f.2 then { status := 4 } else f.1.cphEnd op d run

/-- What a job wrote: output and tag. -/
def State.cphWrite (s : State) (op : Nat) (d : CphDesc) (e : CphEnd) : State :=
  let s := s.engWrite d.dst e.out
  if op = 3 ∧ e.status = 1 then s.engWrite (d.aux + 0x20) e.tag else s

/-- R397: what its completion writes in the descriptor at `slot`: an allocated IV, and STATUS. -/
def CphEnd.fields (e : CphEnd) (slot : Nat) : List (Nat × Bytes) :=
  (match e.iv with
    | some v => [(slot + 0x20, leBytes 16 v.toNat)]
    | none => []) ++ [(slot + 0x1C, leBytes 4 e.status)]

/-- A job of ring `r` that the scheduler takes: it runs, is checked, and its descriptor completes. A job whose inversion
fails twice has still taken its nonce. -/
def State.cphTake (s : State) (op r : Nat) (d : CphDesc) (run : CphRun) : State :=
  let slot := s.cphSlot r
  let f := s.cphFetch op r d
  let e := s.cphOutcome op r d run
  let ran := (s.cphStop op d).isNone && !f.2
  let s := (f.1.put F.CPH_RING_PTR.HEAD r (s.get F.CPH_RING_PTR.HEAD r + 1)).pmc 0x06 0x10
  let s := if ran && cphAlloc op d then s.takeNonce d.slot else s
  let s := s.cphWrite op d e
  let s := if ran then s.invFail run else s
  let bad := decide (e.status = 3 ∨ e.status = 4 ∨ e.status = 6)
  let s := if bad then s.pmc 0x06 0x12 else s
  (s.pmc 0x06 0x11).complete
    { line := if d.flags.getLsbD 0 then s.get F.CPH_RING_CFG.EVT r else 0, ring := some (0x80 + r)
      wr := e.fields slot, err := if bad then some (6, r) else none }

/-- R425: the module enters the error state, and every job that waits is refused with status 4. -/
def State.secError (s : State) (code : Nat) : State :=
  let t := s.secStop code
  s.keys.waitJobs.foldl (fun s w => s.cphTake w.op w.ring w.d w.run) { t with keys := { t.keys with waitJobs := [] } }

/-- Are both cores in dispatch, and different (R393)? -/
def State.cphPair (s : State) (run : CphRun) : Bool :=
  s.on F.CPH_CORE_CTL.EN run.producer && s.on F.CPH_CORE_CTL.EN run.checker && run.producer != run.checker

/-- The cores that a job gets: those named, else the first two in dispatch; none while no two are in service (R395). -/
def State.cphCast (s : State) (run : CphRun) : Option CphRun :=
  if s.cphPair run then some run
  else match (List.finRange 18).filter fun (n : Fin 18) => s.on F.CPH_CORE_CTL.EN n.val with
    | a :: b :: _ => some { run with producer := a, checker := b }
    | _ => none

/-- The run that the job at the head of a ring gets now: none while the scheduler is off, the power-up tests have not passed (R424),
its slot has an operation pending (R416), no two cores are in service (R395) or the domain of one of them is held (R572). In the error
state no core is needed: the job is refused (R425). -/
def State.cphStart (s : State) (d : CphDesc) (run : CphRun) : Option CphRun :=
  if !s.on F.CPH_CTL.EN || s.get F.SEC_MODE.MODE == 0 then none
  else if s.get F.SEC_MODE.MODE = 3 then some run
  else if (s.kslot d.slot).pend.isSome then none
  else match s.cphCast run with
    | some c => if s.domHeld (89 + c.producer) || s.domHeld (89 + c.checker) then none else some c
    | none => none

/-- A job that is next in its ring, or behind jobs that wait there: it runs, or it waits in its ring. -/
def State.cphNext (s : State) (w : CphWait) : State :=
  let wait := { s with keys := { s.keys with waitJobs := s.keys.waitJobs ++ [w] } }
  if s.keys.waitJobs.any fun x => x.ring == w.ring then wait
  else match s.cphStart w.d w.run with
    | none => wait
    | some c => if (s.cphOutcome w.op w.ring w.d c).status = 3 then (s.cphTake w.op w.ring w.d c).secError 3 else s.cphTake w.op w.ring w.d c

/-- The jobs that wait start again, in their order; those that still have to wait are queued again. -/
def State.startWaiting (s : State) : State :=
  s.keys.waitJobs.foldl State.cphNext { s with keys := { s.keys with waitJobs := [] } }

/-- A job is posted to ring `r`, whose TAIL moves on (R397); a ring that is not enabled takes nothing. A job whose cores' domain is held
waits, and is counted (R572). -/
def cphJob (op r : Nat) (d : CphDesc) (run : CphRun) (s : State) : State :=
  if !s.on F.CPH_RING_CFG.EN r then s
  else
    let t := s.put F.CPH_RING_PTR.TAIL r (s.get F.CPH_RING_PTR.TAIL r + 1)
    let t := if s.domHeld (89 + run.producer) || s.domHeld (89 + run.checker) then t.gateShut else t
    t.cphNext { ring := r, op := op, d := d, run := run }

/-- XTS_ENCRYPT (R393). -/
def execXtsEncrypt (r : Fin 32) (d : CphDesc) (run : CphRun) (s : State) : Res := s.awake <| .next (cphJob 1 r d run s)

/-- XTS_DECRYPT (R393). -/
def execXtsDecrypt (r : Fin 32) (d : CphDesc) (run : CphRun) (s : State) : Res := s.awake <| .next (cphJob 2 r d run s)

/-- GCM_ENCRYPT (R409). -/
def execGcmEncrypt (r : Fin 32) (d : CphDesc) (run : CphRun) (s : State) : Res := s.awake <| .next (cphJob 3 r d run s)

/-- GCM_DECRYPT (R402). -/
def execGcmDecrypt (r : Fin 32) (d : CphDesc) (run : CphRun) (s : State) : Res := s.awake <| .next (cphJob 4 r d run s)

/-- CIPHER_CORE_DISABLE (R395). -/
def execCipherCoreDisable (n : Fin 18) (s : State) : Res := s.awake <|
  .next (((s.put F.CPH_CORE_CTL.EN n 0).put F.CPH_CORE_STAT.IDLE n 1).cphCores.judge)

/-- CIPHER_CORE_ENABLE (R396): ignored while FAULT is set; the core enters dispatch only if its known-answer test passes, and
a failing self-test is also the module's (R425). -/
def execCipherCoreEnable (n : Fin 18) (katPass : Bool) (s : State) : Res := s.awake <|
  .next (if s.on F.CPH_CORE_STAT.FAULT n then s
    else if katPass then (s.put F.CPH_CORE_CTL.EN n 1).cphCores.judge.startWaiting
    else
      let s := (s.put F.CPH_CORE_STAT.KATFAIL n 1).put F.CPH_CORE_STAT.FAULT n 1
      (((s.put F.CPH_CORE_CTL.EN n 0).cphCores.raise (112 + n)).judge).secError 1)

/-! ### Rewriting or erasing a slot in use (R416) -/

/-- New material is in slot `n`: its generation goes up and its nonces start again. -/
def State.installKey (s : State) (n : Nat) (mat : Bytes) : State :=
  let k := s.kslot n
  s.setKslot n { k with
    gen := k.gen + 1
    loaded := true
    nctr := 0
    hwm := if k.alg = 2 then hwmStep else 0
    mat := mat
    pend := none
    wrapped := true }

/-- Slot `n` is zeroized. -/
def State.wipeKey (s : State) (n : Nat) : State := s.setKslot n { gen := (s.kslot n).gen + 1 }

/-- KEY_SLOT_DRAINED (R416): INUSE is 0, so what is pending on the slot takes place, and waiting jobs start. A rewrite whose
material has not come from the lead waits on. -/
def execKeySlotDrained (slot : Fin 65536) (s : State) : Res := s.awake <|
  .next (match (s.kslot slot).pend with
    | none => s
    | some (.rewrite []) => s
    | some .erase =>
      let s := s.wipeKey slot
      (s.answerWaits 0x0605 3 slot 0 0 (leBytes 4 (s.kslot slot).gen.toNat)).startWaiting
    | some (.rewrite mat) =>
      let s := s.installKey slot mat
      let k := s.kslot slot
      (s.answerWaits 0x0606 3 slot 0 0
        (leBytes 2 slot ++ leBytes 2 (k.gen.toNat % 65536) ++ keyFp slot k)).startWaiting)

end Sys2Proof.Machine
end

