-- ==== Sys2Proof/Machine/Key.lean ====
section
/-! DEFINITION. Keys: the key services of mailbox group 0x06xx, transfers of secret material between twins, zeroization,
self-tests, and the authentication of roles (R410 to R425, R427). -/

namespace Sys2Proof.Machine

/-! ### Drawing material -/

/-- Bytes of key material of an ALG: two 256-bit keys for XTS, else one. -/
def keyLen (alg : Nat) : Nat := if alg = 1 then 64 else 32

/-- Bytes of the `n`-th free run. -/
def freeRun (n len : Nat) : Bytes := (List.range len).map fun i => Config.freeByte n i

/-- R414: DRBG output for a key; an XTS key whose halves are equal is refused and drawn again. -/
def drawMat (alg : Nat) : Nat → Nat → Bytes × Nat
  | 0, n => (freeRun n (keyLen alg), n + 1)
  | k + 1, n =>
    let b := freeRun n (keyLen alg)
    if alg = 1 ∧ b.take 32 = b.drop 32 then drawMat alg k (n + 1) else (b, n + 1)

/-- R415: secret material goes to the peer's security core. -/
def State.xferSend (s : State) (slot : Nat) (gen : BitVec 32) (alg : Nat) (mat : Bytes) : State :=
  let x := s.keys.xseq + 1
  { s with keys := { s.keys with xseq := x } }.twinSend 0x16
    (leBytes 8 x.toNat ++ leBytes 2 slot ++ leBytes 4 gen.toNat ++ leBytes 1 alg ++ [0] ++ mat)

/-- New material for slot `n`, whose ALG is set: drawn here and sent to a paired trail; a trail takes what the lead sends,
which may have come already. -/
def State.makeKey (s : State) (n : Nat) : State :=
  let alg := (s.kslot n).alg
  if s.isTrail then
    let x := s.keys.xseq + 1
    let s := { s with keys := { s.keys with xseq := x } }
    match s.keys.early.find? fun e => e.1 == x with
    | some e =>
      let s := { s with keys := { s.keys with early := s.keys.early.filter fun e => e.1 != x } }
      let s := s.installKey n e.2.2.2.2
      s.setKslot n { s.kslot n with gen := e.2.2.1 }
    | none => { s with keys := { s.keys with need := s.keys.need ++ [(x, n, alg)] } }
  else
    let r := drawMat alg 8 s.freeNo
    let s := { s with freeNo := r.2 }.installKey n r.1
    if s.pairedLead then s.xferSend n (s.kslot n).gen alg r.1 else s

/-- The lowest empty slot for tenant and namespace keys from `n` on, `k` slots looked at. -/
def State.emptySlotFrom (s : State) : Nat → Nat → Option Nat
  | 0, _ => none
  | k + 1, n =>
    if 65536 ≤ n then none
    else if (s.kslot n).alg = 0 ∧ (s.kslot n).pend = none then some n else s.emptySlotFrom k (n + 1)

/-- The lowest empty slot from 16 on. -/
def State.emptySlot (s : State) : Option Nat := s.emptySlotFrom (s.keys.slots.length + 1) 16

/-- The handle of a slot (R410). -/
def State.handleOf (s : State) (n : Nat) : BitVec 32 := BitVec.ofNat 32 (n % 65536 + (s.kslot n).gen.toNat % 65536 * 65536)

/-- The slot that a handle names: not a device slot, of the handle's generation, and not empty. -/
def State.slotOf (s : State) (h : BitVec 32) : Option Nat :=
  let n := h.toNat % 65536
  let k := s.kslot n
  if 16 ≤ n ∧ k.alg ≠ 0 ∧ k.gen.toNat % 65536 = h.toNat / 65536 then some n else none

/-- A new key of an ALG and OWNER: its slot, if one is empty. -/
def State.newKey (s : State) (alg : Nat) (owner : BitVec 128) : Option (Nat × State) :=
  match s.emptySlot with
  | none => none
  | some n => some (n, (s.setKslot n { s.kslot n with alg := alg, owner := owner }).makeKey n)

/-- Does slot `n` still wait for the lead's material (R415)? -/
def State.keyNeeded (s : State) (n : Nat) : Bool := s.keys.need.any fun e => e.2.1 == n

/-! ### Key services (R413, R416, R484) -/

/-- The answer of a service that made slot `n`'s key: on the trail it waits for the material. -/
def State.keyMade (s : State) (op : Nat) (m : Msg) (a : Arrival) (n : Nat) (fp : Bool) : State :=
  if s.keyNeeded n then s.await m a 4 (n * 2 + (if fp then 1 else 0))
  else s.done op m a (leBytes 4 (s.handleOf n).toNat ++ if fp then keyFp n (s.kslot n) else [])

/-- CREATE_KEY (R413, R484): ALG 1 to 3; the lowest empty slot takes the key. -/
def execCreateKey (m : Msg) (a : Arrival) (alg : Nat) (owner : BitVec 128) (s : State) : Res := s.awake <|
  .next (msgApply 0x0601 36 m a (fun s =>
    if alg = 0 ∨ 3 < alg then s.refuse 0x0601 m a 2 16
    else match s.newKey alg owner with
      | none => s.refuse 0x0601 m a 11
      | some (n, t) => (t.sgenUp).keyMade 0x0601 m a n true) s)

/-- Every bale of a namespace that holds stored data, and every bale with a patch (R413). -/
def State.storedBales (s : State) (nsid : Nat) : List Nat :=
  let e := s.map.entries.filterMap fun e =>
    if e.1 / 2 ^ 37 + 1 = nsid ∧ ent 40 0 e.2 ≠ 0 then some (e.1 % 2 ^ 37) else none
  let p := s.map.patches.filterMap fun e => if e.1 / 16 / 2 ^ 37 + 1 = nsid then some (e.1 / 16 % 2 ^ 37) else none
  (e ++ p).dedup

/-- ROTATE_KEY (R413): a new GCM key for a sealed namespace; the old one is its previous key until every bale is
repacked. -/
def execRotateKey (m : Msg) (a : Arrival) (nsid : Nat) (s : State) : Res := s.awake <|
  .next (msgApply 0x0602 20 m a (fun s =>
    match s.nsOf nsid with
    | none => s.refuse 0x0602 m a 2 16
    | some ns =>
      if !ns.sealed then s.refuse 0x0602 m a 2 16
      else if ns.prevKey.isSome then s.refuse 0x0602 m a 12
      else match s.newKey 2 (s.kslot (ns.keyref.toNat % 65536)).owner with
        | none => s.refuse 0x0602 m a 11
        | some (n, t) =>
          let t := t.setNs nsid { ns with keyref := t.handleOf n, prevKey := some ns.keyref }
          let t := (s.storedBales nsid).foldl (fun t b => t.queueRepack nsid b) t
          (t.sgenUp.flow).keyMade 0x0602 m a n false) s)

/-- Runs a service on the slot that a handle names; a handle that names none is an invalid field. -/
def State.withSlot (s : State) (op : Nat) (m : Msg) (a : Arrival) (h : BitVec 32) (f : Nat → State → State) : State :=
  match s.slotOf h with
  | none => s.refuse op m a 2 16
  | some n => f n s

/-- The GEN of a slot as a response body. -/
def State.genBody (s : State) (n : Nat) : Bytes := leBytes 4 (s.kslot n).gen.toNat

/-- UNLOAD_KEY (R413): LOADED falls, the wrapped record is kept. -/
def execUnloadKey (m : Msg) (a : Arrival) (handle : BitVec 32) (s : State) : Res := s.awake <|
  .next (msgApply 0x0603 20 m a (fun s => s.withSlot 0x0603 m a handle fun n s =>
    let s := (s.setKslot n { s.kslot n with loaded := false }).sgenUp
    s.done 0x0603 m a (s.genBody n)) s)

/-- LOAD_KEY (R413): the wrapped record is unwrapped again. -/
def execLoadKey (m : Msg) (a : Arrival) (handle : BitVec 32) (s : State) : Res := s.awake <|
  .next (msgApply 0x0604 20 m a (fun s => s.withSlot 0x0604 m a handle fun n s =>
    if !(s.kslot 0).loaded || !(s.kslot n).wrapped || s.keys.noUnwrap then s.refuse 0x0604 m a 7 s.stateDetail
    else
      let s := (s.setKslot n { s.kslot n with loaded := true }).sgenUp
      s.done 0x0604 m a (s.genBody n)) s)

/-- ERASE_KEY_SLOT (R416): pending until INUSE is 0; the response follows the erase. -/
def execEraseKeySlot (m : Msg) (a : Arrival) (handle : BitVec 32) (s : State) : Res := s.awake <|
  .next (msgApply 0x0605 20 m a (fun s => s.withSlot 0x0605 m a handle fun n s =>
    if (s.kslot n).pend.isSome then s.refuse 0x0605 m a 12
    else ((s.setKslot n { s.kslot n with pend := some .erase }).sgenUp).await m a 3 n) s)

/-- REWRITE_KEY_SLOT (R416): new material, installed when INUSE is 0. -/
def execRewriteKeySlot (m : Msg) (a : Arrival) (handle : BitVec 32) (s : State) : Res := s.awake <|
  .next (msgApply 0x0606 20 m a (fun s => s.withSlot 0x0606 m a handle fun n s =>
    let k := s.kslot n
    if k.pend.isSome then s.refuse 0x0606 m a 12
    else if s.isTrail then
      let x := s.keys.xseq + 1
      let mat := match s.keys.early.find? fun e => e.1 == x with
        | some e => e.2.2.2.2
        | none => []
      let need := if mat.isEmpty then [(x, n, k.alg)] else []
      let s := { s with keys := { s.keys with
        xseq := x
        early := s.keys.early.filter fun e => e.1 != x
        need := s.keys.need ++ need } }
      ((s.setKslot n { k with pend := some (.rewrite mat) }).sgenUp).await m a 3 n
    else
      let r := drawMat k.alg 8 s.freeNo
      let s := ({ s with freeNo := r.2 }.setKslot n { k with pend := some (.rewrite r.1) }).sgenUp
      let s := if s.pairedLead then s.xferSend n (k.gen + 1) k.alg r.1 else s
      s.await m a 3 n) s)

/-- CHANGE_OWNER (R413). -/
def execChangeOwner (m : Msg) (a : Arrival) (handle : BitVec 32) (owner : BitVec 128) (s : State) : Res := s.awake <|
  .next (msgApply 0x0607 36 m a (fun s => s.withSlot 0x0607 m a handle fun n s =>
    ((s.setKslot n { s.kslot n with owner := owner }).sgenUp).done 0x0607 m a) s)

/-! ### The domain transport secret and the key store (R419, R420) -/

/-- The first 4 bytes of the SHA-384 of 32 bytes. -/
def chk4 (v : BitVec 256) : Bytes := (sha384 (leBytes 32 v.toNat)).take 4

/-- ENTER_DTS_COMPONENT (R419): two components, each in its own crypto-officer session with a different key; only while not
paired. -/
def execEnterDtsComponent (m : Msg) (a : Arrival) (index : Nat) (component : BitVec 256) (s : State) : Res := s.awake <|
  .next (msgApply 0x0608 52 m a (fun s =>
    let key := match s.tokenOf m with
      | some t => t.keyid
      | none => 0
    if index ≠ 1 ∧ index ≠ 2 then s.refuse 0x0608 m a 2 16
    else if s.on F.TWN_STAT.PAIRED then s.refuse 0x0608 m a 7 s.stateDetail
    else match tget (3 - index) s.keys.dtsPart with
      | none =>
        let s := { s with keys := { s.keys with dtsPart := [(index, component, key)] } }
        s.done 0x0608 m a (chk4 component ++ [0, 0, 0, 0])
      | some other =>
        if other.2 = key then s.refuse 0x0608 m a 7 s.stateDetail
        else
          let dts := other.1 ^^^ component
          let s := { s with keys := { s.keys with dts := some dts, dtsPart := [] } }.kstat
          s.done 0x0608 m a (chk4 component ++ chk4 dts)) s)

/-- A DRBG output for non-secret use enters the ledger (class 0x09 of R323), so that the twin uses the same one. -/
def State.leadValue (s : State) (b : Bytes) : State :=
  s.record { cls := 9, origin := false, toff := 0, payload := [1, 0, b.length] ++ b.map BitVec.toNat }

/-- A DRBG output of `len` bytes for non-secret use: drawn here, and recorded for the trail; a trail uses the lead's, and what needs
it waits until the value has come (R338). -/
def State.leadDraw (s : State) (len : Nat) (f : Bytes → State → State) : State :=
  if s.isTrail then
    match s.twn.leadVals with
    | b :: l => f b { s with twn := { s.twn with leadVals := l } }
    | [] => s
  else
    let b := freeRun s.freeNo len
    f b (s.drawn.leadValue b)

/-- R420: bytes `off` on of the export package, at most 32,736 in one message. -/
def State.exportPart (s : State) (m : Msg) (a : Arrival) (off : Nat) : State :=
  let no := s.keys.pkgNo - 1
  let total := Config.free no
  if total < off then s.refuse 0x0609 m a 2 16
  else
    let l := List.range (min 32736 (total - off))
    s.done 0x0609 m a (leBytes 8 total ++ l.map fun i => Config.freeByte no (off + i)) (decide (off + 32736 < total))

/-- EXPORT_KEY_STORE (R420, R484): OFFSET 0 builds a new package under the export key of its nonce (R417, slot 5); the layout of its
records is not stated, so its bytes are free. -/
def execExportKeyStore (m : Msg) (a : Arrival) (off : Nat) (s : State) : Res := s.awake <|
  .next (msgApply 0x0609 24 m a (fun s =>
    if s.keys.dts.isNone || (decide (0 < off) && s.keys.pkgNo == 0) then s.refuse 0x0609 m a 7 s.stateDetail
    else if 0 < off then s.exportPart m a off
    else s.leadDraw 12 fun nonce s =>
      let k := match s.keys.dts with
        | some d => s.keys.derive 5 (exportKey d nonce)
        | none => s.keys
      ({ s.drawn with keys := { k with pkgNo := s.freeNo + 1 } }.kstat).exportPart m a 0) s)

/-- A record of an imported package, whose bytes the manual does not state: its slot's attributes and material are free. -/
def State.importRec (s : State) (no i : Nat) : State :=
  let v := fun k => Config.free (no + 8 * i + k)
  let n := v 1 % 65536
  let alg := v 2 % 4
  s.setKslot n { alg := alg
                 gen := BitVec.ofNat 32 (v 3)
                 loaded := v 4 % 2 == 1
                 owner := BitVec.ofNat 128 (v 5)
                 hwm := v 6
                 nctr := v 6
                 mat := freeRun (no + 8 * i + 7) (keyLen alg)
                 wrapped := true }

/-- R420: a complete package takes the place of the SRK and the records, if its check passes; the controller then resets. -/
def State.importDone (s : State) (m : Msg) (a : Arrival) : State :=
  let no := s.freeNo
  let s := s.drawn
  if Config.free no = 0 then { s with keys := { s.keys with importBuf := [] } }.refuse 0x060A m a 8
  else
    let n := Config.free (no + 1) % 65536
    let s := { s with
      freeNo := no + 2 + 8 * (n + 1)
      keys := { s.keys with slots := [], importBuf := [], srkFirst := false } }
    let s := s.setKslot 0 { alg := 2, gen := 1, loaded := true, mat := freeRun (no + 2) 32, wrapped := true }
    let s := (List.range n).foldl (fun s i => s.importRec (no + 2) i) s
    { s.done 0x060A m a with inReset := true }

/-- IMPORT_KEY_STORE (R420, R484): only with a DTS, no namespace, and an SRK of the first start. -/
def execImportKeyStore (m : Msg) (a : Arrival) (off total : Nat) (data : Bytes) (s : State) : Res := s.awake <|
  .next (msgApply 0x060A (32 + data.length) m a (fun s =>
    if s.keys.dts.isNone || !s.hif.ns.isEmpty || !s.keys.srkFirst then s.refuse 0x060A m a 7 s.stateDetail
    else if 28640 < data.length then s.refuse 0x060A m a 3
    else if total < off + data.length then s.refuse 0x060A m a 2 16
    else
      let s := { s with keys := { s.keys with importBuf := s.keys.importBuf ++ [(off, data)] } }
      if off + data.length = total then s.importDone m a else s.done 0x060A m a) s)

/-! ### Zeroization (R427) -/

/-- R427: fetching stops, commands end as under a controller reset, every slot, the DTS and the wrapped key store are
cleared, its region of secure NOR is erased, and the controller resets itself. -/
def State.zeroizeNow (s : State) : State :=
  let s := s.norErase (0x2800000, 0x800000)
  let s := s.hif.ctxs.foldl (fun s c => s.unchargeAll c.stamp) s
  let s := { s with
    hif := { s.hif with fetchStop := true, ctxs := [] }
    keys := { zeroed := true }
    mbx := { s.mbx with tokens := [], chal := [] }
    inReset := true }
  s.kstat

/-- ZEROIZE (R427): the response is sent at step 1. -/
def execZeroize (m : Msg) (a : Arrival) (confirm : BitVec 32) (s : State) : Res := s.awake <|
  .next (msgApply 0x060B 20 m a (fun s =>
    if confirm ≠ 0x4F52455A then s.refuse 0x060B m a 2 16 else (s.done 0x060B m a).zeroizeNow) s)

/-- SANITIZE_N_ASSERT (R427): the pin, held low for at least 10 µs; in twin mode it acts through its ledger entry. -/
def execSanitizeNAssert (ns : Nat) (s : State) : Res := s.awake <|
  .next (if ns < 10000 then s
    else s.capture { cls := 7, origin := false, toff := 0, payload := [2, 0, 0, 0] } State.zeroizeNow)

/-! ### Transfers of secret material (R415) -/

/-- SEC_XFER (R415): the material of the request with the same XSEQ, or of a slot that a rejoin brings; material that comes
before its request is kept. -/
def execSecXfer (xseq : BitVec 64) (slot : Fin 65536) (gen : BitVec 32) (alg : Nat) (material : BitVec 512) (s : State) :
    Res := s.awake <|
  let mat := leBytes (keyLen alg) material.toNat
  .next (if !s.on F.TWN_STAT.LINK_UP then s
    else
      let s := s.twinIn (16 + mat.length)
      if s.arb.rj.active && s.arb.rj.joiner then
        let s := { s with keys := { s.keys with xseq := xseq } }
        s.setKslot slot { s.kslot slot with alg := alg, gen := gen, loaded := true, mat := mat, wrapped := true }
      else if !s.isTrail then s
      else match s.keys.need.find? fun e => e.1 == xseq with
        | none => { s with keys := { s.keys with early := s.keys.early ++ [(xseq, slot.val, gen, alg, mat)] } }
        | some e =>
          let s := { s with keys := { s.keys with need := s.keys.need.filter fun e => e.1 != xseq } }
          let n := e.2.1
          match (s.kslot n).pend with
          | some (.rewrite _) => s.setKslot n { s.kslot n with pend := some (.rewrite mat) }
          | _ =>
            let s := s.installKey n mat
            let s := s.setKslot n { s.kslot n with gen := gen }
            let h := leBytes 4 (s.handleOf n).toNat
            (s.answerWaits 0x0601 4 (n * 2 + 1) 0 0 (h ++ keyFp n (s.kslot n))).answerWaits 0x0602 4 (n * 2) 0 0 h)

/-! ### Authentication keys, sessions and tokens (R422, R423, R474, R475) -/

/-- The key identifier of a P-384 key, x then y: SHA-384 of the uncompressed point. -/
def keyIdOf (key : BitVec 768) : BitVec 384 :=
  BitVec.ofNat 384 (leNat (sha384 (4 :: (beBytes 48 (key.toNat % 2 ^ 384) ++ beBytes 48 (key.toNat / 2 ^ 384)))))

/-- Does `sig` (r then s) sign `msg` under `key`? -/
def sigOk (key sig : BitVec 768) (msg : Bytes) : Bool :=
  ecdsaVerify (key.toNat % 2 ^ 384) (key.toNat / 2 ^ 384) (sig.toNat % 2 ^ 384) (sig.toNat / 2 ^ 384) msg

/-- ENROL_AUTHENTICATION_KEY (R422, R423): at most 8 keys per role. -/
def execEnrolAuthenticationKey (m : Msg) (a : Arrival) (op role : Nat) (key : BitVec 768) (keyid : BitVec 384) (s : State) :
    Res := s.awake <|
  let len := if op = 1 then 116 else if op = 2 then 68 else m.len
  .next (msgApply 0x060C len m a (fun s =>
    if op ≠ 1 ∧ op ≠ 2 then s.refuse 0x060C m a 2 16
    else if role ≠ 1 ∧ role ≠ 2 then s.refuse 0x060C m a 2 17
    else if op = 1 then
      let id := keyIdOf key
      let rest := s.keys.auth.filter fun k => !(k.role == role && k.keyid == id)
      if 8 ≤ (rest.filter fun k => k.role == role).length then s.refuse 0x060C m a 11
      else
        let new : AuthKey := { role := role, key := key, keyid := id }
        let s := { s with keys := { s.keys with auth := rest ++ [new] } }.kstat
        s.sgenUp.done 0x060C m a (leBytes 48 id.toNat)
    else if !(s.keys.auth.any fun k => k.role == role && k.keyid == keyid) then s.refuse 0x060C m a 2 20
    else
      let s := { s with keys := { s.keys with auth := s.keys.auth.filter fun k => !(k.role == role && k.keyid == keyid) } }
      s.kstat.sgenUp.done 0x060C m a (leBytes 48 keyid.toNat)) s (s.firstCo m && decide (op = 1 ∧ role = 2)))

/-- CLEAR_LOCKOUT (R566). -/
def execClearLockout (m : Msg) (a : Arrival) (region : Nat) (s : State) : Res := s.awake <|
  .next (msgApply 0x060D 20 m a (fun s =>
    if 16 ≤ region then s.refuse 0x060D m a 2 16 else (s.unlock region).done 0x060D m a) s)

/-- Seconds that a channel stays blocked. -/
def State.blockLeft (s : State) (c : Nat) : Nat := (tgetD c 0 s.mbx.blockAt + 60000000 - s.elapsed + 999999) / 1000000

/-- R422: a failed authentication; the fifth within 60 s blocks the channel. -/
def State.authFail (s : State) (c : Nat) : State :=
  let l := ((tgetD c [] s.mbx.failAt).filter fun t => decide (s.elapsed < t + 60000000)) ++ [s.elapsed]
  let s := { s with mbx := { s.mbx with failAt := tput c l s.mbx.failAt } }.put F.MBX_CSR.FAILS c (min 255 l.length)
  if 5 ≤ l.length then
    { s with mbx := { s.mbx with blockAt := tput c s.elapsed s.mbx.blockAt } }.put F.MBX_CSR.BLOCKED c 1
  else s

/-- CHALLENGE (R422, R474, R475): 48 bytes from the DRBG. -/
def execChallenge (m : Msg) (a : Arrival) (role : Nat) (s : State) : Res := s.awake <|
  .next (msgApply 0x0001 20 m a (fun s =>
    if role ≠ 1 ∧ role ≠ 2 then s.refuse 0x0001 m a 2 16
    else if (tget m.chan.val s.mbx.blockAt).isSome then s.refuse 0x0001 m a 6 (s.blockLeft m.chan)
    else
      s.leadDraw 48 fun b s =>
        let v := BitVec.ofNat 384 (leNat b)
        { s with mbx := { s.mbx with chal := tput m.chan (role, v) s.mbx.chal } }.done 0x0001 m a b) s)

/-- The bytes that a PROVE signs. -/
def proveMsg (chal : BitVec 384) (role : Nat) : Bytes :=
  [0x44, 0x52, 0x5A, 0x2D, 0x41, 0x55, 0x54, 0x48] ++ leBytes 48 chal.toNat ++ leBytes 24 Config.serial.toNat ++ leBytes 1 role

/-- PROVE (R422, R474, R475): consumes the challenge; success gives a token bound to the channel. -/
def execProve (m : Msg) (a : Arrival) (role : Nat) (keyid : BitVec 384) (sig : BitVec 768) (s : State) : Res := s.awake <|
  .next (msgApply 0x0002 164 m a (fun s =>
    if role ≠ 1 ∧ role ≠ 2 then s.refuse 0x0002 m a 2 16
    else if (tget m.chan.val s.mbx.blockAt).isSome then s.refuse 0x0002 m a 6 (s.blockLeft m.chan)
    else
      let c := tget m.chan s.mbx.chal
      let spend := fun (s : State) => { s with mbx := { s.mbx with chal := tdel m.chan s.mbx.chal } }
      let ok := match c, s.keys.auth.find? fun k => k.role == role && k.keyid == keyid with
        | some c, some k => c.1 == role && sigOk k.key sig (proveMsg c.2 role)
        | _, _ => false
      if !ok then ((spend s).authFail m.chan).refuse 0x0002 m a 8
      else s.leadDraw 4 fun b s =>
        let s := spend s
        let v := BitVec.ofNat 32 (leNat b)
        let t : Token := { val := v, chan := m.chan, role := role, keyid := keyid, used := s.elapsed }
        { s with mbx := { s.mbx with tokens := s.mbx.tokens ++ [t] } }.done 0x0002 m a
          (leBytes 4 v.toNat ++ leBytes 4 900)) s)

/-- LOGOUT (R474): the token of the message ends. -/
def execLogout (m : Msg) (a : Arrival) (s : State) : Res := s.awake <|
  .next (msgApply 0x0003 16 m a (fun s =>
    { s with mbx := { s.mbx with tokens := s.mbx.tokens.filter fun t => !(t.val == m.token && t.chan == m.chan.val) } }.done
      0x0003 m a) s)

/-- TOKEN_LAPSE (R422): 900 s without use. -/
def execTokenLapse (token : BitVec 32) (s : State) : Res := s.awake <|
  .next { s with mbx := { s.mbx with tokens := s.mbx.tokens.filter fun t => t.val != token } }

/-- AUTHENTICATION_BLOCK_EXPIRY (R422): the block of a channel ends after 60 s. -/
def execAuthenticationBlockExpiry (c : Fin 8) (s : State) : Res := s.awake <|
  let s := (s.put F.MBX_CSR.BLOCKED c 0).put F.MBX_CSR.FAILS c 0
  .next { s with mbx := { s.mbx with blockAt := tdel c s.mbx.blockAt, failAt := tdel c s.mbx.failAt } }

/-! ### Self-tests (R424, R425, R485) -/

/-- MODULE_SELFTEST (R424, R485): all power-up tests again; a failure is the error state. -/
def execModuleSelftest (m : Msg) (a : Arrival) (errcode : Nat) (s : State) : Res := s.awake <|
  .next (msgApply 0x0710 16 m a (fun s =>
    let s := if errcode = 0 then s else s.secError errcode
    s.done 0x0710 m a (leBytes 4 (errcode % 256))) s)

/-- ENTROPY_TEST_FAILURE (R424, R425). -/
def execEntropyTestFailure (s : State) : Res := s.awake <| .next (s.secError 2)

end Sys2Proof.Machine
end

