-- ==== Sys2Proof/Machine/Admin.lean ====
section
/-! DEFINITION. Functions, doorbells, the context pool and fetching; controller enable, resets and shutdown; queues, features,
Abort and asynchronous event requests (chapter 2). Status codes that the manual does not name are those of NVMe 2.0c (R2). -/

namespace Sys2Proof.Machine

/-! ### Functions (R41) -/

/-- Is function `f` enabled: a physical function of the strapped link mode, or one of its virtual functions under NumVFs and
VF Enable? -/
def State.funcUp (s : State) (f : Nat) : Bool :=
  let vf := fun port (k : Nat) => tgetD port false s.hif.vfEnable && decide (k ≤ tgetD port 0 s.hif.numVfs)
  if s.straps.linkMode then
    if f < 33 then f == 0 || vf 0 f else f == 33 || vf 1 (f - 33)
  else f == 0 || (decide (f ≤ 64) && vf 0 f)

/-- Is the controller of function `f` enabled and ready? -/
def State.ready (s : State) (f : Nat) : Bool := s.on F.CSTS.RDY f

/-! ### Doorbells (R37, R39, R75) -/

/-- R39, R70, R641: an invalid doorbell write is ignored, raises source 182, is recorded, and posts an Error event with information 0x00 to
its controller. The entry names no queue and no command (0xFFFF, NVMe 2.0c). -/
def State.badDoorbell (s : State) (f : Nat) : State :=
  ((s.raise 182).errPut { func := f, sqid := 0xFFFF, cid := 0xFFFF, sct := 0, sc := 0, nsid := 0 }).postTo 0 0 (.func f)

/-- A captured tail doorbell takes effect. -/
def State.setTail (f qid val : Nat) (s : State) : State :=
  match tget qid (s.func f).sqs with
  | none => s
  | some q =>
    (s.setFunc f { s.func f with sqs := tput qid { q with tail := val } (s.func f).sqs }).raise (if qid = 0 then 172 else 173)

/-- The class 0x01 entry of a doorbell (R323). -/
def doorbellEntry (f qid val : Nat) : LEntry := { cls := 1, origin := false, toff := 0, payload := [f, qid, val] }

/-- A tail doorbell write: captured by the lead; a trail keeps the value and waits for the ledger (R318, R352). -/
def State.tailDoorbell (s : State) (f qid val : Nat) : State :=
  if !s.ready f then s
  else match tget qid (s.func f).sqs with
    | none => s.badDoorbell f
    | some q =>
      if q.size ≤ val then s.badDoorbell f
      else if s.isTrail then { s with twn := { s.twn with ringDoorbells := s.twn.ringDoorbells ++ [(f, qid, val)] } }
      else s.capture (doorbellEntry f qid val) (State.setTail f qid val)

/-- A head doorbell write: local; held completion entries follow (R75). -/
def State.headDoorbell (s : State) (f qid val : Nat) : State :=
  if !s.ready f then s
  else match tget qid (s.func f).cqs with
    | none => s.badDoorbell f
    | some q =>
      if q.size ≤ val then s.badDoorbell f
      else (s.setFunc f { s.func f with cqs := tput qid { q with head := val } (s.func f).cqs }).drainCq f qid q.held.length |>.deletes

/-- SQ_TAIL_DOORBELL (R37). -/
def execSqTailDoorbell (f : Fin 66) (qid val : Nat) (s : State) : Res := s.awake <| .next (s.tailDoorbell f qid val)

/-- CQ_HEAD_DOORBELL (R37). -/
def execCqHeadDoorbell (f : Fin 66) (qid val : Nat) (s : State) : Res := s.awake <| .next (s.headDoorbell f qid val)

/-! ### Contexts (R41, R42, R646) -/

/-- The number of contexts in the pool. -/
def poolSize : Nat := 1048576

/-- Whose completion is an output? -/
def Out.cqeOf (s : State) : Out → Option Tenant
  | .cqe f .. => some (.func f)
  | .capsule _ q .. => (tget q s.fab.qps).map fun x => .assoc x.assoc
  | _ => none

/-- R43: completions of a tenant that are made and not yet posted: in a full completion queue's hold, or held for the twin. Their
contexts are not free yet. -/
def State.unposted (s : State) (t : Tenant) : Nat :=
  (match t with
    | .func f => (s.func f).cqs.foldl (fun n q => n + q.2.held.length) 0
    | .assoc _ => 0) + (s.twn.held.filter fun h => h.o.cqeOf s == some t).length

/-- Contexts that a tenant holds (R43). -/
def State.held (s : State) (t : Tenant) : Nat := (s.hif.ctxs.filter fun c => c.tenant == t).length + s.unposted t

/-- Is the tenant an association? -/
def Tenant.isAssoc : Tenant → Bool
  | .assoc _ => true
  | .func _ => false

/-- Contexts that the associations hold together. -/
def State.heldFabric (s : State) : Nat :=
  (s.hif.ctxs.filter fun c => c.tenant.isAssoc).length +
    (s.twn.held.filter fun h => match h.o.cqeOf s with
      | some t => t.isAssoc
      | none => false).length

/-- The index of a tenant's floor and cap (R477). -/
def ctxIndex : Tenant → Nat
  | .func f => f
  | .assoc _ => 0x100

/-- The function indices whose floors count in the strapped link mode (R646). -/
def State.floorFuncs (s : State) : Nat := if s.straps.linkMode then 66 else 65

/-- The sum of the counted floors. -/
def State.floorSum (s : State) : Nat :=
  (List.range s.floorFuncs).foldl (fun n f => n + s.setting 0x01 f) (s.setting 0x01 0x100)

/-- Free contexts of the shared pool: what no floor reserves, less what is held beyond floors. -/
def State.sharedFree (s : State) : Nat :=
  let beyond := (List.range s.floorFuncs).foldl (fun n f => n + (s.held (.func f) - s.setting 0x01 f))
    (s.heldFabric - s.setting 0x01 0x100)
  poolSize - s.floorSum - beyond

/-- The contexts a tenant could take now (HIF_CTXFREE): its unused floor plus free shared ones, within its cap. -/
def State.ctxAvail (s : State) (t : Tenant) : Nat :=
  let group := if t.isAssoc then s.heldFabric else s.held t
  min (s.setting 0x01 (ctxIndex t) - group + s.sharedFree) (s.setting 0x02 (ctxIndex t) - s.held t)

/-- The lowest context number that no command holds. -/
def State.freeSlot (s : State) : Nat → Nat → Nat
  | 0, k => k
  | n + 1, k => if s.hif.ctxs.any fun c => c.slot == k then s.freeSlot n (k + 1) else k

/-- R42, R45: a command gets a context and the next fetch stamp. Sources 183 and 200 report a pool that runs low (R81,
R104). -/
def State.takeCtx (s : State) (t : Tenant) (sqid : Nat) (admin : Bool) (cid : BitVec 16) (opcode : BitVec 8) (nsid : Nat) : State :=
  let c : Ctx := { stamp := s.hif.nextStamp, slot := s.freeSlot s.hif.ctxs.length 0, tenant := t, sqid := sqid, cid := cid
                   opcode := opcode, admin := admin, nsid := nsid, t0 := s.elapsed, wait := .dispatch }
  let s := { s with hif := { s.hif with ctxs := s.hif.ctxs ++ [c], nextStamp := s.hif.nextStamp + 1 } }
  let s := s.pmc (if t.isAssoc then 0x02 else 0x01) 0x40
  let s := s.pmc 0x03 0x41 s.hif.ctxs.length
  let s := if s.sharedFree < (poolSize - s.floorSum) / 16 then s.raise 183 else s
  let floor := s.setting 0x01 0x100
  if t.isAssoc && decide (floor - s.heldFabric < floor / 16) then s.raise 200 else s

/-- The commands of R46 and R47. -/
def opcodeKnown (admin : Bool) (o : BitVec 8) : Bool :=
  if admin then [0x00, 0x01, 0x02, 0x04, 0x05, 0x06, 0x08, 0x09, 0x0A, 0x0C, 0x0D, 0x10, 0x11, 0x14, 0x15, 0x1D, 0x1E, 0x80,
    0x84, 0xC6].contains o
  else [0x00, 0x01, 0x02, 0x08, 0x09, 0x0C].contains o

/-- R305: the admin commands of recovery mode. -/
def recoveryOpcode (o : BitVec 8) : Bool := o == 0x02 || o == 0x06 || o == 0x10 || o == 0x11

/-- R46: may an admin command have this Command Dword 10: the action of Sanitize (Block Erase or Crypto Erase), the code of Device
Self-test (short or extended), the selection of Namespace Management and Attachment (the last two are NVMe 2.0c's)? -/
def actionOk (o : BitVec 8) (cdw10 : Nat) : Bool :=
  if o = 0x84 then cdw10 % 8 == 2 || cdw10 % 8 == 4
  else if o = 0x14 then cdw10 % 16 == 1 || cdw10 % 16 == 2
  else if o = 0x0D ∨ o = 0x15 then decide (cdw10 % 16 ≤ 1) else true

/-- What ends a command at once after its fetch: an opcode that is not supported (R46, R47, R305), I/O on a controller that
was fenced and has not rejoined (R69), or an action that is not supported (R46). -/
def State.fetchCheck (s : State) (c : Ctx) (cdw10 : Nat) : State :=
  if !opcodeKnown c.admin c.opcode || (s.bootState == 7 && !(c.admin && recoveryOpcode c.opcode)) then s.fail c 0 0x01
  else if !c.admin && s.arb.outcast then s.fail c 7 0xC6
  else if c.admin && !actionOk c.opcode cdw10 then s.fail c 0 0x02
  else s

/-! ### Fetching (R42, R44, R293) -/

/-- Has function `f` a submission queue with entries waiting? -/
def Func.waiting (v : Func) : Bool := v.sqs.any fun e => e.2.head != e.2.tail

/-- May commands of function `f` be fetched at all now? -/
def State.fetching (s : State) (f : Nat) : Bool :=
  s.ready f && !s.hif.fetchStop && s.hif.activating.isNone && !s.inReset && s.get F.CSTS.SHST f == 0 && !s.arb.fenceLow

/-- Is function `f` waiting for service: entries, and a context it can take? -/
def State.wantsTurn (s : State) (f : Nat) : Bool := s.fetching f && (s.func f).waiting && decide (0 < s.ctxAvail (.func f))

/-- R584: the composite temperature, the highest of TS[0..15] in the last captured sample, in 1/16 °C. -/
def State.composite (s : State) : Int :=
  (List.range 16).foldl (fun m i => max m (tgetD i 0 s.hkp.sample)) (tgetD 0 0 s.hkp.sample)

/-- A temperature in 1/16 °C as whole kelvin, rounded up. -/
def kelvin (t : Int) : Nat := ((100 * t + 437040 + 1599) / 1600).toNat

/-- The arbitration burst of a tenant (R44, feature 0x01): 2^AB, 7 for no limit; half of it in band 3 (R585). -/
def State.burst (s : State) (t : Tenant) : Nat :=
  let ab := (tgetD 1 0 (s.ctl t).feat).toNat % 8
  let n := if ab = 7 then 2 ^ 32 else 2 ^ ab
  if 105 * 16 ≤ s.composite then max 1 (n / 2) else n

/-- R381: while a rejoin throttles, write-class commands are fetched in one millisecond of each `throttle` (DESIGN CHOICE, log
entry 139). -/
def State.throttled (s : State) : Bool := s.arb.rj.active && decide (s.elapsed / 1000 % s.arb.rj.throttle ≠ 0)

/-- Does an I/O opcode stay unfetched now: a Write while staging is at its limit (R293), a write-class command while reclaim
holds writes back (R235)? -/
def State.writesHeld (s : State) (o : BitVec 8) : Bool :=
  (o == 0x01 && s.stagingFull) || (isWriteOp o && (s.conv.writeHold || s.throttled))

/-- May a capsule of a queue pair be taken (R42, R84, R293)? -/
def State.mayTake (s : State) (q : Qp) (opcode : BitVec 8) : Bool :=
  !s.hif.fetchStop && s.hif.activating.isNone && !s.inReset && !s.arb.fenceLow &&
    decide (0 < s.ctxAvail (.assoc q.assoc)) && (q.qid == 0 || !s.writesHeld opcode)

/-- The queue pair of association `a`, and its first untaken capsule, that is served next: the lowest queue pair number whose first capsule
may be taken (DESIGN CHOICE, log entry 146: R87 gives no order within an association). -/
def State.nextCapsule (s : State) (a : Nat) : Option (Nat × Qp × Capsule) :=
  s.fab.qps.findSome? fun e => match e.2.buf with
    | k :: _ => if e.2.assoc = a ∧ s.mayTake e.2 k.opcode = true then some (e.1, e.2, k) else none
    | [] => none

/-- The tenants in rotation order (R44, R87): functions 0 to 65, then associations, `a` at 66 + `a`. -/
def turnTenant (i : Nat) : Tenant := if i < 66 then .func i else .assoc (i - 66)

/-- Is the tenant at place `i` waiting for service? -/
def State.wants (s : State) (i : Nat) : Bool := if i < 66 then s.wantsTurn i else (s.nextCapsule (i - 66)).isSome

/-- R44, R87: the tenant that is served next: the one whose turn lasts, else the next one waiting in the rotation. -/
def State.nextTurn (s : State) : Option Nat :=
  if 0 < s.hif.turnLeft ∧ s.wants s.hif.turn = true then some s.hif.turn
  else
    let all := List.range 66 ++ s.fab.assocs.map fun e => 66 + e.1
    ((all.filter fun i => decide (s.hif.turn < i)) ++ all.filter fun i => decide (i ≤ s.hif.turn)).find? s.wants

/-- A command of the tenant at place `i` is fetched in its turn. -/
def State.takeTurn (s : State) (i : Nat) : State :=
  if 0 < s.hif.turnLeft ∧ s.hif.turn = i then { s with hif := { s.hif with turnLeft := s.hif.turnLeft - 1 } }
  else { s with hif := { s.hif with turn := i, turnLeft := s.burst (turnTenant i) - 1 } }

/-- The turn of the tenant at place `i` passes on. -/
def State.passTurn (s : State) (i : Nat) : State := { s with hif := { s.hif with turn := i, turnLeft := 0 } }

/-! ### The queues of a function (R44) -/

/-- The first of rising numbers beyond `last`, else the first. -/
def nextAfter (last : Nat) (l : List Nat) : Option Nat :=
  match l.find? fun q => decide (last < q) with
  | some q => some q
  | none => l.head?

/-- The queues with entries waiting whose priority satisfies `p`. -/
def Func.waitingQs (v : Func) (p : Nat → Bool) : List Nat :=
  v.sqs.filterMap fun e => if e.2.head != e.2.tail && p e.2.prio then some e.1 else none

/-- Weighted round robin: the class (1 high, 2 medium, 3 low) served next: the first with entries and commands left in this round, else
the first with entries. -/
def Func.wrrClass (v : Func) : Option Nat :=
  let have_ := fun k => !(v.waitingQs fun p => p == k).isEmpty
  match [1, 2, 3].find? fun k => have_ k && decide (0 < v.wrr.getD (k - 1) 0) with
  | some k => some k
  | none => [1, 2, 3].find? have_

/-- R44: the queue that CC.AMS selects: round robin over every queue, one command each; or the admin queue, then the urgent class, then
the others by weight (the order is NVMe 2.0c's; that a queue gives one command at a time is a DESIGN CHOICE, log entry 116). -/
def Func.nextQueue (v : Func) (wrr : Bool) : Option Nat :=
  if !wrr then nextAfter v.lastQ (v.waitingQs fun _ => true)
  else match tget 0 v.sqs with
    | some q =>
      if q.head != q.tail then some 0
      else match nextAfter v.lastQ ((v.waitingQs fun p => p == 0).filter fun k => k != 0) with
        | some k => some k
        | none => match v.wrrClass with
          | some k => nextAfter v.lastQ (v.waitingQs fun p => p == k)
          | none => none
    | none => none

/-- R44: a command of queue `qid` is taken: the rotation moves on, and a weighted class has one command fewer left; a class with none
left begins a new round, of a weight and one more for each class (feature 0x01). -/
def Func.servedQ (v : Func) (wrr : Bool) (qid prio : Nat) : Func :=
  let v := { v with lastQ := qid }
  if !wrr ∨ qid = 0 ∨ prio = 0 then v
  else
    let ab := (tgetD 1 0 v.feat).toNat
    let left := if v.wrr.getD (prio - 1) 0 = 0 then [ab / 2 ^ 24 % 256 + 1, ab / 2 ^ 16 % 256 + 1, ab / 2 ^ 8 % 256 + 1] else v.wrr
    { v with wrr := left.modify (prio - 1) fun n => n - 1 }

/-- Does function `f` arbitrate by weight (CC.AMS)? -/
def State.wrrOn (s : State) (f : Nat) : Bool := s.get F.CC.AMS f == 1

/-! ### Capsules that are taken (R84, R87, R318 to R320) -/

/-- A capsule that is taken: it has its context, and SQHD moves on. One with data the target does not take is refused (R82). -/
def State.capsuleTake (k : Capsule) (s : State) : State :=
  match tget k.qpn s.fab.qps with
  | none => s
  | some q =>
    let s := { s with fab := { s.fab with qps := tput k.qpn { q with head := (q.head + 1) % q.size } s.fab.qps } }
    let stamp := s.hif.nextStamp
    let s := s.takeCtx (.assoc q.assoc) k.qpn (q.qid == 0) k.cid k.opcode k.nsid
    let s := { s with hif := { s.hif with ctxs := s.hif.ctxs.map fun (c : Ctx) =>
      if c.stamp = stamp then { c with rseq := k.rseq, inCap := k.inCap, inv := k.inv } else c } }
    match s.ctx stamp with
    | some c => match k.refusal with
      | some sc => s.fail c 0 sc
      | none => s.fetchCheck c (le k.bytes 40 4)
    | none => s

/-- The class 0x02 entry of a receive completion (R323). -/
def capsuleEntry (k : Capsule) (port : Nat) : LEntry :=
  { cls := 2, origin := false, toff := 0, payload := [k.qpn, k.rseq, k.clen, k.ccrc.toNat, port, 0] }

/-- R84: the next capsule of the association at place `i` leaves its receive buffer: its receive completion is captured. While capture is
held it waits in its buffer (R326). -/
def State.serveAssoc (s : State) (i : Nat) : State :=
  match s.nextCapsule (i - 66) with
  | none => s
  | some (qpn, q, k) =>
    let e := capsuleEntry k q.port
    if !s.twn.heldIn.isEmpty || !s.hasRoom e then s.captureHeld else
    let s := { s with fab := { s.fab with qps := tput qpn { q with buf := q.buf.drop 1 } s.fab.qps } }
    (((s.takeTurn i).raise 192).keepCapsule e k).capture e (State.capsuleTake k)

/-- R87: capsules are taken while it is an association's turn. -/
def State.serveFabric (s : State) : Nat → State
  | 0 => s
  | n + 1 => match s.nextTurn with
    | some i => if 66 ≤ i then (s.serveAssoc i).serveFabric n else s
    | none => s

/-- Every capsule whose turn it is. -/
def State.fabricTurns (s : State) : State := s.serveFabric (s.fab.qps.foldl (fun n q => n + q.2.buf.length) 0)

/-- COMMAND_FETCH (R42, R44): the entry at the head of the queue whose turn it is, of the tenant whose turn it is. A queue whose entry is
held back is passed over, and so is its tenant. -/
def execCommandFetch (f : Fin 66) (qid : Nat) (cid : BitVec 16) (op : SqeHead) (nsid : Nat) (s : State) : Res := s.awake <|
  .next (match tget qid (s.func f).sqs with
    | none => s
    | some q =>
      if q.head = q.tail ∨ s.nextTurn ≠ some f.val ∨ (s.func f).nextQueue (s.wrrOn f) ≠ some qid then s
      else if qid ≠ 0 ∧ s.writesHeld op.opcode = true then
        ((s.setFunc f { s.func f with lastQ := qid }).passTurn f).fabricTurns
      else
        let s := (s.takeTurn f).emit (.hostRead f (q.base.toNat + 64 * q.head) 64)
        let v := (s.func f).servedQ (s.wrrOn f) qid q.prio
        let s := s.setFunc f { v with sqs := tput qid { q with head := (q.head + 1) % q.size } v.sqs }
        let stamp := s.hif.nextStamp
        let s := s.takeCtx (.func f) qid (qid == 0) cid op.opcode nsid
        (match s.ctx stamp with
        | some c => s.fetchCheck c op.cdw10.toNat
        | none => s).fabricTurns)

/-! ### Ends of commands without completion (R57, R58) -/

/-- R57: the commands of a tenant end without a completion. -/
def State.dropTenant (s : State) (t : Tenant) : State :=
  (s.hif.ctxs.filter fun c => c.tenant == t).foldl (fun s c => (s.giveBack c).release c.stamp) s

/-! ### Enable, resets, shutdown (R38, R57, R59) -/

/-- The admin queues as AQA, ASQ and ACQ give them. -/
def State.makeAdmin (s : State) (f : Nat) : State :=
  let sq : Sq := { base := s.reg .ASQ f, size := s.get F.AQA.ASQS f + 1, cqid := 0, prio := 0 }
  let cq : Cq := { base0 := s.reg .ACQ f, base1 := s.reg .ACQ f, size := s.get F.AQA.ACQS f + 1, vector := 0, ien := true }
  s.setFunc f { s.func f with sqs := [(0, sq)], cqs := [(0, cq)] }

/-- R445: a pending slot that runs is confirmed; the revocation fuses that its package names are blown, of release-key slots below the one
that signed it (R438). -/
def State.confirmSlot (s : State) : State :=
  if !s.fw.pendingSel || s.fw.running != s.fw.active then s
  else
    let m := s.man
    let gone := (List.range 4).filter fun i => m.revoke.testBit i && decide (i < m.signer) && !s.fw.revoked.contains i
    s.selWrite fun w => { w with pendingSel := false, tries := 0, revoked := w.revoked ++ gone }

/-- CSTS.RDY follows CC.EN once the controller is ready, or in recovery mode (R300, R305). -/
def State.readyNow (s : State) (f : Nat) : State :=
  if s.on F.CC.EN f && !s.straps.testEn && (s.bootState == 6 || s.bootState == 7) then
    let s := s.put F.CSTS.RDY f 1
    if s.bootState = 6 then s.confirmSlot else s
  else s

/-- CC takes a value, EN apart (the shutdown field acts through its own command). -/
def State.writeCc (s : State) (f : Nat) (cc : BitVec 32) (en : Nat) : State :=
  (s.setReg .CC f (BitVec.ofNat 64 (cc.toNat &&& fieldMask .CC))).put F.CC.EN f en

/-- CONTROLLER_ENABLE (R38): CC.EN from 0 to 1. -/
def execControllerEnable (f : Fin 66) (cc : BitVec 32) (s : State) : Res := s.awake <|
  .next (if !s.funcUp f || s.on F.CC.EN f then s
    else ((((s.writeCc f cc 1).makeAdmin f).readyNow f).raise 175))

/-- Is an output a completion or data of a command of function `f`? -/
def Out.ofFunc (f : Nat) : Out → Bool
  | .cqe g .. => g == f
  | .hostData g .. => g == f
  | _ => false

/-- R57: the controller of function `f` is reset: its commands, queues, features and events end; that of a physical function
releases the staging buffer (R442). What waits for the twin is not posted, and after a fence its twin sequences end (R76). -/
def State.resetFunc (s : State) (f : Nat) : State :=
  let s := s.dropTenant (.func f)
  let s := { s with hif := { s.hif with
    funcs := tdel f s.hif.funcs
    shutdown := tdel f s.hif.shutdown
    coal := s.hif.coal.filter fun e => e.1 != f
    seqEnded := if s.on F.TWN_STAT.PAIRED then s.hif.seqEnded else s.hif.seqEnded ++ [Tenant.func f] } }
  let s := { s with twn := { s.twn with held := s.twn.held.filter fun h => !h.o.ofFunc f } }
  let s := s.setReg .CSTS f 0
  let s := if s.isPf f then { s with fw := { s.fw with stage := [], owner := none } } else s
  ((s.put F.CC.EN f 0).put F.CC.SHN f 0).put F.HIF_TWNSTAT.FENCE_CNT f 0

/-- CONTROLLER_RESET (R57): CC.EN from 1 to 0. -/
def execControllerReset (f : Fin 66) (cc : BitVec 32) (s : State) : Res := s.awake <|
  .next (if s.on F.CC.EN f then (((s.writeCc f cc 1).resetFunc f).raise 175).flow else s)

/-- The registers that a reset below the controller level clears as well. -/
def State.clearFunc (s : State) (f : Nat) : State :=
  let s := s.resetFunc f
  let s := (((s.setReg .CC f 0).setReg .AQA f 0).setReg .ASQ f 0).setReg .ACQ f 0
  let s := s.setReg .HIF_XCFG f 0
  let mine := fun (k : Nat) => k / 16384 == f
  let s := { s with hif := { s.hif with
    msixTab := s.hif.msixTab.filter fun e => !mine e.1
    msixPend := s.hif.msixPend.filter fun e => e.1 != f } }
  if s.isPf f then ((s.setReg .MBX_RBV f 0).setReg .MBX_RBS_ITEM f 0 |>.setReg .MBX_RBS_OFF f 0).resetChans f else s

/-- FUNCTION_LEVEL_RESET (R57, R465); CC.EN that was 1 changes (R81). -/
def execFunctionLevelReset (f : Fin 66) (s : State) : Res := s.awake <|
  .next (if s.funcUp f then
      let en := s.on F.CC.EN f
      let s := (s.clearFunc f).raise 174
      (if en then s.raise 175 else s).flow
    else s)

/-- NVM_SUBSYSTEM_RESET (R57): every function's controller, which then shows CSTS.NSSRO; mailboxes are not named by R465 and stay. -/
def execNvmSubsystemReset (f : Fin 66) (s : State) : Res := s.awake <|
  .next (if s.funcUp f then
      let en := (List.range 66).any fun k => s.funcUp k && s.on F.CC.EN k
      let s := ((List.range 66).foldl (fun s k => if s.funcUp k then (s.resetFunc k).put F.CSTS.NSSRO k 1 else s) s).raise 177
      (if en then s.raise 175 else s).flow
    else s)

/-- CONVENTIONAL_RESET (R465) of a port: its functions' registers and channels; the virtual functions are disabled, as PCIe
provides. -/
def execConventionalReset (port : Fin 2) (s : State) : Res := s.awake <|
  let mine := (List.range 66).filter fun k => s.funcUp k && s.fnPort k == port.val
  let vfs := !mine.isEmpty && (tgetD port false s.hif.vfEnable || decide (tgetD port 0 s.hif.numVfs ≠ 0))
  let en := mine.any fun k => s.on F.CC.EN k
  let s := mine.foldl State.clearFunc s
  let s := { s with hif := { s.hif with
    numVfs := if mine.isEmpty then s.hif.numVfs else tput port 0 s.hif.numVfs
    vfEnable := if mine.isEmpty then s.hif.vfEnable else tput port false s.hif.vfEnable } }
  let s := if vfs then s.raise 184 else s
  .next (if en then s.raise 175 else s).flow

/-- SHUTDOWN_NOTIFICATION (R59): normal and abrupt alike; fetching stops on the function. -/
def execShutdownNotification (f : Fin 66) (abrupt : Bool) (s : State) : Res := s.awake <|
  .next (if !s.on F.CC.EN f then s
    else
      let s := ((s.put F.CC.SHN f (if abrupt then 2 else 1)).put F.CSTS.SHST f 1).raise 176
      let s := { s with hif := { s.hif with shutdown := tput f s.elapsed s.hif.shutdown } }
      (s.closeJournal.closeCovered).flow)

/-! ### Ports (R41, R81) -/

/-- PCIE_LINK_DOWN (R81). -/
def execPcieLinkDown (port : Fin 2) (s : State) : Res := s.awake <|
  .next ({ s with hif := { s.hif with linkUp := tput port false s.hif.linkUp } }.raise 178)

/-- PCIE_LINK_UP (R81). -/
def execPcieLinkUp (port : Fin 2) (s : State) : Res := s.awake <|
  .next (
    let s := (if s.straps.linkMode then [35 + port.val] else [35, 36]).foldl State.presetAt s
    { s with hif := { s.hif with linkUp := tput port true s.hif.linkUp } }.raise 179)

/-- NUMVFS_CHANGE (R41, R81): up to 64 virtual functions in x16 mode, 32 a port in 2 × x8 mode; functions that are no longer
enabled are reset. -/
def execNumvfsChange (port : Fin 2) (numVfs : Nat) (vfEnable : Bool) (s : State) : Res := s.awake <|
  let most := if s.straps.linkMode then 32 else if port = 0 then 64 else 0
  .next (if most < numVfs then s
    else
      let old := (List.range 66).filter s.funcUp
      let s := { s with hif := { s.hif with
        numVfs := tput port numVfs s.hif.numVfs
        vfEnable := tput port vfEnable s.hif.vfEnable } }
      let gone := old.filter fun f => !s.funcUp f
      let s := if (gone.any fun f => s.on F.CC.EN f) then s.raise 175 else s
      ((gone.foldl State.clearFunc s).raise 184).flow)

/-- PCIE_COMPLETION_TIMEOUT (R65): the command ends with Data Transfer Error. -/
def execPcieCompletionTimeout (stamp : BitVec 64) (s : State) : Res := s.awake <|
  .next (match s.ctx stamp with
    | none => s
    | some c => ((s.giveBack c).fail c 0 0x04 |>.raise 180).flow)

/-- POISONED_COMPLETION (R65, R81): likewise, with source 181; so does a completion with Unsupported Request. -/
def execPoisonedCompletion (stamp : BitVec 64) (s : State) : Res := s.awake <|
  .next (match s.ctx stamp with
    | none => s
    | some c => ((s.giveBack c).fail c 0 0x04 |>.raise 181).flow)

/-! ### Queues (R38, R40, R46, R56, R74) -/

/-- R38: the I/O queues that function `f` may create: what Set Features granted, else the limit. -/
def State.queueLimit (s : State) (t : Tenant) : Nat :=
  match t with
  | .func f => if s.on F.HIF_XCFG.XDB_EN f then 4096 else 1023
  | .assoc _ => 128

/-- Queues granted: submission (`sq`) or completion. -/
def State.granted (s : State) (t : Tenant) (sq : Bool) : Nat :=
  match (s.ctl t).granted with
  | none => s.queueLimit t
  | some v => (if sq then v % 65536 else v / 65536) + 1

/-- MSI-X vectors of a function (R40). -/
def State.vectors (s : State) (f : Nat) : Nat := if s.isPf f then 2048 else 64

/-- A command that only functions take; an association has no such queues (R83). -/
def State.onFunc (s : State) (c : Ctx) (g : Nat → State) : State :=
  match c.tenant with
  | .func f => g f
  | .assoc _ => s.fail c 0 0x01

/-- CREATE_IO_SUBMISSION_QUEUE (R38, R40, R46). -/
def execCreateIoSubmissionQueue (stamp : BitVec 64) (qid size cqid : Nat) (prio : Fin 4) (contiguous : Bool)
    (base : BitVec 64) (s : State) : Res := s.awake <|
  .next (withCtx stamp (fun c s => s.onFunc c fun f =>
    if !contiguous then s.fail c 0 0x02
    else if qid = 0 ∨ s.granted c.tenant true < qid ∨ (tget qid (s.func f).sqs).isSome then s.fail c 1 0x01
    else if size < 2 ∨ 65536 < size ∨ s.get F.CC.IOSQES f ≠ 6 then s.fail c 1 0x02
    else if cqid = 0 ∨ (tget cqid (s.func f).cqs).isNone then s.fail c 1 0x00
    else
      let q : Sq := { base := base, size := size, cqid := cqid, prio := prio }
      (s.setFunc f { s.func f with sqs := tput qid q (s.func f).sqs }).succeed c) s)

/-- CREATE_IO_COMPLETION_QUEUE (R40, R46, R74): each twin posts to its own base. -/
def execCreateIoCompletionQueue (stamp : BitVec 64) (qid size vector : Nat) (ien contiguous : Bool) (base0 base1 : BitVec 64)
    (s : State) : Res := s.awake <|
  .next (withCtx stamp (fun c s => s.onFunc c fun f =>
    if !contiguous then s.fail c 0 0x02
    else if qid = 0 ∨ s.granted c.tenant false < qid ∨ (tget qid (s.func f).cqs).isSome then s.fail c 1 0x01
    else if size < 2 ∨ 65536 < size ∨ s.get F.CC.IOCQES f ≠ 4 then s.fail c 1 0x02
    else if ien ∧ s.vectors f ≤ vector then s.fail c 1 0x08
    else
      let q : Cq := { base0 := base0, base1 := base1, size := size, vector := vector, ien := ien }
      (s.setFunc f { s.func f with cqs := tput qid q (s.func f).cqs }).succeed c) s)

/-- R101: an association ends: its queues go, its commands end, with nothing posted. -/
def State.endAssoc (s : State) (a : Nat) : State :=
  let s := s.dropTenant (.assoc a)
  { s with fab := { s.fab with
    assocs := tdel a s.fab.assocs
    qps := s.fab.qps.filter fun e => e.2.assoc != a } }

/-- R56: the commands fetched from a queue and not yet posted end with Command Aborted due to SQ Deletion, also those whose entries a
full completion queue holds; in twin mode these keep the status that the twin has posted (R75, R77). -/
def State.abortQueue (s : State) (f qid : Nat) : State :=
  let aborted := fun (e : CqEntry) => if e.sqid = qid then { e with dw0 := 0, sct := 0, sc := 0x08 } else e
  let s := if s.staged then s
    else s.setFunc f { s.func f with cqs := (s.func f).cqs.map fun q => (q.1, { q.2 with held := q.2.held.map aborted }) }
  (s.hif.ctxs.filter fun c => c.tenant == .func f && c.sqid == qid).foldl (fun s c => (s.giveBack c).fail c 0 0x08) s

/-- DELETE_IO_SUBMISSION_QUEUE (R56): it completes once every aborted entry has been posted; on an association, that of its admin queue ends the association (R101). -/
def execDeleteIoSubmissionQueue (stamp : BitVec 64) (qid : Nat) (s : State) : Res := s.awake <|
  .next (withCtx stamp (fun c s => match c.tenant with
    | .assoc a => if qid = 0 then (s.endAssoc a).flow else s.fail c 0 0x01
    | .func f =>
      if qid = 0 ∨ (tget qid (s.func f).sqs).isNone then s.fail c 1 0x01
      else
        let s := s.abortQueue f qid
        let s := s.setFunc f { s.func f with sqs := tdel qid (s.func f).sqs }
        if s.cqHolds f qid && !s.staged then s.setWait c.stamp (.sqDrain qid) else (s.succeed c).flow) s)

/-- DELETE_IO_COMPLETION_QUEUE (R46): refused while a submission queue uses it. -/
def execDeleteIoCompletionQueue (stamp : BitVec 64) (qid : Nat) (s : State) : Res := s.awake <|
  .next (withCtx stamp (fun c s => s.onFunc c fun f =>
    if qid = 0 ∨ (tget qid (s.func f).cqs).isNone then s.fail c 1 0x01
    else if (s.func f).sqs.any fun e => e.2.cqid == qid then s.fail c 1 0x0C
    else (s.setFunc f { s.func f with cqs := tdel qid (s.func f).cqs }).succeed c) s)

/-! ### Abort, asynchronous event requests (R40, R53 to R55, R71) -/

/-- ABORT (R53, R55): never aborts; the fifth outstanding one is refused. -/
def execAbort (stamp : BitVec 64) (_sqid : Nat) (_cid : BitVec 16) (s : State) : Res := s.awake <|
  .next (withCtx stamp (fun c s =>
    let before := s.hif.ctxs.filter fun x => x.tenant == c.tenant && x.admin && x.opcode == 0x08 &&
      decide (x.stamp.toNat < c.stamp.toNat)
    if 4 ≤ before.length then s.fail c 1 0x03 else s.succeed c 1) s)

/-- ASYNCHRONOUS_EVENT_REQUEST (R40, R71): at most 16 outstanding; a held event is posted at once. -/
def execAsynchronousEventRequest (stamp : BitVec 64) (s : State) : Res := s.awake <|
  .next (withCtx stamp (fun c s =>
    let n := (s.hif.ctxs.filter fun x => x.tenant == c.tenant && x.wait == .aer).length
    if 16 ≤ n then s.fail c 1 0x05 else (s.setWait c.stamp .aer).giveHeld c.tenant) s)

/-! ### Features (R38, R48, R258) -/

/-- The features of R48. -/
def featureKnown (fid : BitVec 8) : Bool := [0x01, 0x02, 0x04, 0x05, 0x07, 0x08, 0x09, 0x0A, 0x0B, 0x0E].contains fid

/-- The key a feature's value is kept under: thresholds by their select bits, vectors by their number. -/
def featKey (fid : BitVec 8) (dw11 : BitVec 32) : Nat :=
  if fid = 0x04 then 4 + 65536 * bitsOf 21 16 dw11.toNat
  else if fid = 0x09 then 9 + 65536 * (dw11.toNat % 65536) else fid.toNat

/-- R48, R258: the host sets DTIME (milliseconds, NVMe 2.0c); an earlier value raises the epoch and is logged as a step
back. -/
def State.setClock (s : State) (ms : Nat) : State :=
  let t := ms % 2 ^ 48 * 1000
  let old := s.dtime.toNat
  let s := { s with dtime := BitVec.ofNat 64 t, pow := { s.pow with synch := false } }
  if t < old then
    let e := s.epoch + 1
    let step := (old - t + 59999999) / 60000000
    let s := { s with epoch := e, conv := { s.conv with back := tput e.toNat step s.conv.back } }
    s.logSys { typ := 5, arg := step }
  else s

/-- Number of Queues: both counts, 0's based, limited by R38. -/
def State.grantQueues (s : State) (c : Ctx) (dw11 : BitVec 32) : State :=
  let nsq := dw11.toNat % 65536
  let ncq := dw11.toNat / 65536
  let lim := s.queueLimit c.tenant - 1
  let have_ := match c.tenant with
    | .func f => decide (1 < (s.func f).sqs.length ∨ 1 < (s.func f).cqs.length)
    | .assoc a => s.fab.qps.any fun e => e.2.assoc == a && e.2.qid != 0
  if have_ then s.fail c 0 0x0C
  else if nsq = 65535 ∨ ncq = 65535 then s.fail c 0 0x02
  else
    let v := min nsq lim + 65536 * min ncq lim
    (s.setCtl c.tenant { s.ctl c.tenant with granted := some v }).succeed c (BitVec.ofNat 32 v)

/-- SET_FEATURES (R38, R48, R258). -/
def execSetFeatures (stamp : BitVec 64) (fid : BitVec 8) (dw11 : BitVec 32) (timestamp : BitVec 64) (s : State) : Res := s.awake <|
  .next (withCtx stamp (fun c s =>
    let v := s.ctl c.tenant
    let keep := fun (x : BitVec 32) => (s.setCtl c.tenant { v with feat := tput (featKey fid dw11) x v.feat }).succeed c
    if !featureKnown fid then s.fail c 0 0x02
    else if fid = 0x07 then s.grantQueues c dw11
    else if fid = 0x0B then (s.setCtl c.tenant { v with aecOn := dw11 }).succeed c
    else if fid = 0x0E then (s.setClock timestamp.toNat).succeed c
    else if fid = 0x02 ∧ dw11.toNat % 32 ≠ 0 then s.fail c 0 0x02      -- one power state, PS0
    else if fid = 0x04 ∧ (2 ≤ bitsOf 21 20 dw11.toNat ∨ bitsOf 19 16 dw11.toNat ≠ 0) then s.fail c 0 0x02
    else if fid = 0x05 then
      if dw11.toNat / 65536 ≠ 0 then s.fail c 0 0x02 else keep dw11    -- no DULBE
    else keep dw11) s)

/-- The value that Get Features returns where nothing was set: the limits of R38; no over threshold (0xFFFF; PRESUMED, log entry 164); a vector that coalesces
(its number); 0 elsewhere, as
AWUN = AWUPF = 0 leaves Write Atomicity Normal. -/
def State.featValue (s : State) (c : Ctx) (fid : BitVec 8) (dw11 : BitVec 32) : BitVec 32 :=
  let v := s.ctl c.tenant
  if fid = 0x07 then
    BitVec.ofNat 32 (match v.granted with
      | some g => g
      | none => (s.queueLimit c.tenant - 1) * 65537)
  else if fid = 0x0B then v.aecOn
  else tgetD (featKey fid dw11) (if fid = 0x04 ∧ bitsOf 21 20 dw11.toNat = 0 then 0xFFFF
    else if fid = 0x09 then dw11 &&& 0xFFFF else 0) v.feat

/-- Data of a command goes to its buffer: by PCIe write or by RDMA Write (R86); a queue pair in the error state moves
nothing (R100), and the digest has it all the same (R102). -/
def State.dataTo (s : State) (c : Ctx) (b : Bytes) : State :=
  match c.tenant with
  | .func f => s.emit (.hostData f c.cid b)
  | .assoc _ => match tget c.sqid s.fab.qps with
    | some q => if q.err then s.digest 0 (.rdmaWrite q.port c.sqid c.cid b) else s.emit (.rdmaWrite q.port c.sqid c.cid b)
    | none => s

/-- GET_FEATURES (R38, R48, R311): Timestamp returns its 8 bytes, with Synch until the host sets it. -/
def execGetFeatures (stamp : BitVec 64) (fid : BitVec 8) (dw11 : BitVec 32) (s : State) : Res := s.awake <|
  .next (withCtx stamp (fun c s =>
    if !featureKnown fid then s.fail c 0 0x02
    else if fid = 0x0E then
      (s.dataTo c (leBytes 6 (s.dtime.toNat / 1000) ++ [if s.pow.synch then 1 else 0, 0])).succeed c
    else s.succeed c (s.featValue c fid dw11)) s)

/-! ### NVMe-MI (R466) -/

/-- The function that may carry NVMe-MI: a physical one. -/
def State.miOk (s : State) (c : Ctx) (opcode : BitVec 8) : Bool :=
  opcode == 0xC0 && match c.tenant with
    | .func f => s.isPf f
    | .assoc _ => false

/-- NVME_MI_SEND (R466): the request goes to channel 7. -/
def execNvmeMiSend (stamp : BitVec 64) (opcode : BitVec 8) (m : Msg) (s : State) : Res := s.awake <|
  .next (withCtx stamp (fun c s =>
    if s.miOk c opcode then (s.mailGo { m with chan := 7 }).succeed c else s.fail c 0 0x01) s)

/-- NVME_MI_RECEIVE (R466): completes once RDY of channel 7 is set. -/
def execNvmeMiReceive (stamp : BitVec 64) (opcode : BitVec 8) (s : State) : Res := s.awake <|
  .next (withCtx stamp (fun c s =>
    if !s.miOk c opcode then s.fail c 0 0x01
    else
      let s := { s with hif := { s.hif with miPending := s.hif.miPending ++ [c.stamp] } }.setWait c.stamp .mi
      if s.on F.MBX_CSR.RDY 7 then s.giveMi else s) s)

end Sys2Proof.Machine
end

