-- ==== Sys2Proof/Machine/Cmp.lean ====
section
/-! DEFINITION. The compression engines: the rounding of tolerance namespaces, coding and decoding jobs, and engines
leaving and entering service (chapter 5). -/

namespace Sys2Proof.Machine

/-! ### Rounding (R160) -/

/-- a ÷ b to the nearest integer, a tie to the even one. -/
def rheNat (a b : Nat) : Nat :=
  let q := a / b
  let r := a % b
  if 2 * r < b then q else if b < 2 * r then q + 1 else if q % 2 = 0 then q else q + 1

/-- The same for a signed number. -/
def rheInt (a : Int) (b : Nat) : Int :=
  let q := a / b
  let r := a % b
  if 2 * r < b then q else if (b : Int) < 2 * r then q + 1 else if q % 2 = 0 then q else q + 1

/-- Rounds the bits of a float with `e` exponent and `m` mantissa bits to a multiple of 2^k (R160). -/
def roundFloat (e m : Nat) (k : Int) (x : Nat) : Nat :=
  let sign := x / 2 ^ (e + m) % 2 * 2 ^ (e + m)
  let ex := x / 2 ^ m % 2 ^ e
  let man := x % 2 ^ m
  if ex = 2 ^ e - 1 then
    if man = 0 then x else sign + (2 ^ e - 1) * 2 ^ m + 2 ^ (m - 1)
  else if ex = 0 ∧ man = 0 then x
  else
    let sig := if ex = 0 then man else man + 2 ^ m
    let bias : Int := 2 ^ (e - 1) - 1
    let lsb : Int := (max ex 1 : Nat) - bias - m         -- exponent of the significand's last bit
    if k ≤ lsb then x
    else
      let n := rheNat sig (2 ^ (k - lsb).toNat)
      if n = 0 then sign
      else
        let top := n.log2
        sign + ((top : Int) + k + bias).toNat * 2 ^ m + (n * 2 ^ (m - top)) % 2 ^ m

/-- Rounds a two's-complement integer of `w` bits (R160). -/
def roundInt (w : Nat) (k : Nat) (x : Nat) : Nat :=
  let v : Int := if x < 2 ^ (w - 1) then x else (x : Int) - 2 ^ w
  let lim : Int := 2 ^ (w - 1) - 1
  let n := rheInt v (2 ^ k)
  let n := if lim < n * 2 ^ k then lim / 2 ^ k else n
  (n * 2 ^ k % 2 ^ w).toNat

/-- q of an element (R160). -/
def roundElem (eltype : Nat) (k : Int) (x : Nat) : Nat :=
  match eltype with
  | 0 => roundFloat 8 23 k x
  | 1 => roundFloat 5 10 k x
  | 2 => roundFloat 8 7 k x
  | 3 => roundInt 16 k.toNat x
  | _ => roundInt 32 k.toNat x

/-- q of every element of a run of `n` elements. -/
def roundRun (eltype : Nat) (k : Int) : Nat → Bytes → Bytes
  | 0, b => b
  | n + 1, b =>
    let w := elWidth eltype
    leBytes w (roundElem eltype k (leNat (b.take w))) ++ roundRun eltype k n (b.drop w)

/-- q of every element of bytes whose elements are `eltype` (R159). -/
def roundBytes (eltype : Nat) (k : Int) (b : Bytes) : Bytes := roundRun eltype k (b.length / elWidth eltype) b

/-- The range of k for an element type (R158). -/
def boundOk (eltype : Nat) (k : Int) : Bool :=
  match eltype with
  | 0 => decide (-24 ≤ k ∧ k ≤ 8)
  | 1 => decide (-14 ≤ k ∧ k ≤ 4)
  | 2 => decide (-14 ≤ k ∧ k ≤ 8)
  | 3 => decide (0 ≤ k ∧ k ≤ 8)
  | 4 => decide (0 ≤ k ∧ k ≤ 16)
  | _ => false

/-! ### Jobs (R148, R149, R171, R175) -/

/-- R175: is the descriptor malformed for its OP? The manual says only "Input bytes" of SRCLEN. The lengths that the model takes: OP 1
65,536; OP 2 a multiple of 16 up to 16,384; OP 3 a multiple of 4096; OP 4 the block size; OP 5 a multiple of 16 up to the block size; none
0 (DESIGN CHOICE, log entry 113). -/
def cmpBad (op : Nat) (d : CmpDesc) : Bool :=
  let sh := d.shuf.toNat
  !d.mbz || decide (2 ≤ d.flags.toNat ∨ 2 ≤ d.lbaf.toNat) || !(sh == 0 || sh == 2 || sh == 4 || sh == 8) ||
    (if op = 3 then !boundOk d.eltype.toNat d.boundk.toInt else d.eltype != 0xFF) ||
    match op with
    | 1 => d.srclen != 65536
    | 2 => decide (d.srclen = 0 ∨ 16384 < d.srclen ∨ d.srclen % 16 ≠ 0)
    | 3 => decide (d.srclen = 0 ∨ d.srclen % 4096 ≠ 0)
    | 4 => d.srclen != if d.lbaf = 0 then 4096 else 16384
    | _ => decide (d.srclen = 0 ∨ (if d.lbaf = 0 then 4096 else 16384) < d.srclen ∨ d.srclen % 16 ≠ 0)

/-- What a well-formed job gives. -/
def cmpRun (op : Nat) (d : CmpDesc) (b : Bytes) : CmpEnd :=
  match op with
  | 1 => codeBaleEnd d.shuf.toNat b
  | 3 => { status := 1, out := roundBytes d.eltype.toNat d.boundk.toInt b }
  | 4 =>
    let r := codeUnit d.shuf.toNat b
    { status := if r.2 then 1 else 2, out := r.1 }
  | _ => match Config.cmpDecode b with
    | some x => { status := 1, out := x }
    | none => { status := 5 }

/-- R171: a check failure takes the engine out of dispatch. -/
def State.cmpFault (s : State) (n : Nat) : State :=
  let s := ((s.put F.CMP_ENG_STAT.FAULT n 1).bump F.CMP_ENG_STAT.CHKFAIL n).put F.CMP_ENG_CTL.EN n 0
  (s.setFault 2).raise (130 + n)

/-- R172: the engine that takes a job dispatched to engine `n`: itself in service, else the first that is; an engine whose domain is held is out
of service (R572). None, and the job waits, while none is or the dispatcher is off. -/
def State.cmpEngine (s : State) (n : Nat) : Option Nat :=
  if s.on F.CMP_CTL.EN then (n :: List.range 26).find? fun k => s.on F.CMP_ENG_CTL.EN k && !s.domHeld (63 + k) else none

/-- Where the descriptor at the head of ring `r` lies (R175). HEAD and TAIL count on modulo 65,536, and the descriptor is that of HEAD modulo
the ring's size (DESIGN CHOICE, log entry 158). -/
def State.cmpSlot (s : State) (r : Nat) : Nat :=
  s.get F.CMP_RING_CFG.BASE r * 64 + 64 * (s.get F.CMP_RING_PTR.HEAD r % 2 ^ clampTo 6 15 (s.get F.CMP_RING_CFG.SIZE r))

/-- How a job ends: malformed, or its input poisoned (R537); a check failure; or what the engine gives on its input. -/
def State.cmpEnd (s : State) (op : Nat) (d : CmpDesc) (mismatch poisoned : Bool) : CmpEnd :=
  if cmpBad op d || poisoned then { status := 4 } else if mismatch then { status := 3 } else cmpRun op d (s.engRead d.src d.srclen)

/-- The descriptor and the input of a job are read under HBM's codes (R534). -/
def State.cmpFetch (s : State) (op r : Nat) (d : CmpDesc) : State × Bool :=
  if cmpBad op d then (s, false) else s.engFetch [(s.cmpSlot r, 64), (d.src, d.srclen)]

/-- The job at the head of ring `r` is run by engine `n` and its descriptor completed (R175). DSTLEN and QLEN are written as 0 and the
destination stays untouched where the job ends with status 3, 4 or 5, and a malformed descriptor is found before a check can fail: the
manual says neither (DESIGN CHOICE, log entry 114). -/
def cmpRunJob (op r n : Nat) (d : CmpDesc) (mismatch : Bool) (s : State) : State :=
    let slot := s.cmpSlot r
    let f := s.cmpFetch op r d
    let e := f.1.cmpEnd op d mismatch f.2
    let s := (f.1.put F.CMP_RING_PTR.HEAD r (s.get F.CMP_RING_PTR.HEAD r + 1)).pmc 0x05 0x10
    let bad := decide (e.status = 4 ∨ e.status = 5)
    let s := if e.status = 1 ∨ e.status = 2 then s.engWrite d.dst e.out else s
    let s := if e.status = 3 then s.cmpFault n else s
    let s := if bad then s.pmc 0x05 0x12 else s
    (s.pmc 0x05 0x11).complete
      { line := if d.flags.getLsbD 0 then s.get F.CMP_RING_CFG.EVT r else 0, ring := some (0x40 + r)
        wr := [(slot + 0x1C, leBytes 4 e.out.length ++ e.qlen.flatMap (leBytes 4) ++ leBytes 4 e.status)]
        err := if bad then some (5, r) else none
        srcs := if bad then [130 + n] else [] }

/-- A job that is next in its ring, or behind jobs that wait there: an engine in service takes it, `n` first, or it waits in its
ring. -/
def State.cmpNext (n : Nat) (s : State) (w : CmpWait) : State :=
  let wait := { s with cmpWait := s.cmpWait ++ [w] }
  if s.cmpWait.any fun x => x.ring == w.ring then wait
  else match s.cmpEngine n with
    | none => wait
    | some k => cmpRunJob w.op w.ring k w.d w.mismatch s

/-- The jobs that wait go to the engines that are in service, in their order. -/
def State.cmpResume (s : State) : State := s.cmpWait.foldl (State.cmpNext 0) { s with cmpWait := [] }

/-- A job comes to ring `r` for engine `n` (R172): TAIL moves on. A ring that is not enabled takes nothing; a request to an engine whose
domain is held is counted (R572). -/
def cmpJob (op r n : Nat) (d : CmpDesc) (mismatch : Bool) (s : State) : State :=
  if !s.on F.CMP_RING_CFG.EN r then s
  else
    let t := s.put F.CMP_RING_PTR.TAIL r (s.get F.CMP_RING_PTR.TAIL r + 1)
    let t := if s.domHeld (63 + n) then t.gateShut else t
    t.cmpNext n { ring := r, op := op, d := d, mismatch := mismatch }

/-- CODE_BALE (R148). -/
def execCodeBale (r : Fin 8) (d : CmpDesc) (eng : Fin 26) (mismatch : Bool) (s : State) : Res := s.awake <|
  .next (cmpJob 1 r eng d mismatch s)

/-- DECODE_QUARTER (R175). -/
def execDecodeQuarter (r : Fin 8) (d : CmpDesc) (eng : Fin 26) (s : State) : Res := s.awake <| .next (cmpJob 2 r eng d false s)

/-- ROUND_ONLY (R160). -/
def execRoundOnly (r : Fin 8) (d : CmpDesc) (eng : Fin 26) (s : State) : Res := s.awake <| .next (cmpJob 3 r eng d false s)

/-- CODE_PATCH (R123). -/
def execCodePatch (r : Fin 8) (d : CmpDesc) (eng : Fin 26) (mismatch : Bool) (s : State) : Res := s.awake <|
  .next (cmpJob 4 r eng d mismatch s)

/-- DECODE_PATCH (R175). -/
def execDecodePatch (r : Fin 8) (d : CmpDesc) (eng : Fin 26) (s : State) : Res := s.awake <| .next (cmpJob 5 r eng d false s)

/-! ### Engines leaving and entering service (R172, R173) -/

/-- COMPRESSION_ENGINE_DISABLE (R172): the jobs that wait go to other engines. -/
def execCompressionEngineDisable (n : Fin 26) (s : State) : Res := s.awake <|
  .next ((s.put F.CMP_ENG_CTL.EN n 0).put F.CMP_ENG_STAT.IDLE n 1).judge.cmpResume

/-- COMPRESSION_ENGINE_ENABLE (R173): ignored while FAULT is set; a spare that enters service lowers its reserve.
It takes the jobs that wait (R172). -/
def execCompressionEngineEnable (n : Fin 26) (s : State) : Res := s.awake <|
  .next (if s.on F.CMP_ENG_STAT.FAULT n then s
    else (s.put F.CMP_ENG_CTL.EN n 1).judge.cmpResume)

end Sys2Proof.Machine
end

