-- ==== Sys2Proof/Machine/Pack.lean ====
section
/-! DEFINITION. Packs: bring-up, admission, loss, responses and events (chapter 6, R242, R250), and the update of bridge
firmware (R217, R457 to R459). -/

namespace Sys2Proof.Machine

/-! ### Commands of bring-up -/

/-- HELLO, the first command of a bring-up (R190); it is sent under HOLD too (R217, step 5). -/
def State.sendHello (s : State) (n : Nat) : State := s.packIssue n .hello { cseq := 0, opc := 0x12 }

/-- The PARAM of ID_READ (R186). -/
def idReadParam (off len : Nat) : BitVec 64 := BitVec.ofNat 64 (off % 65536 + 65536 * (len % 65536))

/-- ID_READ of copy `k` of the record (R207, R210): a read takes at most 4096 bytes (R186), so each copy has its own. -/
def State.sendIdRead (s : State) (n k : Nat) : State :=
  s.packSend n (.idRead k) { cseq := 0, opc := 8, param := idReadParam (4096 * k) 4096 }

/-- TEMP (R203, R204). -/
def State.sendTemp (s : State) (n : Nat) : State := s.packSend n .temp { cseq := 0, opc := 0x0A }

/-! ### Compatibility (R214, R222) -/

/-- R214: is the bridge's version one that the running release admits for its type, and not below the pack's minimum? -/
def State.bridgeOk (s : State) (n : Nat) (i : PackId) : Bool :=
  let v := (s.pk n).ver.toNat
  decide (i.bridgeFwMin.toNat ≤ v) &&
    (s.man.anyBridge || s.man.bridges.any fun c => c.typ == i.bridgeType && decide (c.vmin.toNat ≤ v ∧ v ≤ c.vmax.toNat))

/-- R222: may the pack's geometry join those in service? -/
def State.geometryOk (s : State) (n : Nat) (i : PackId) : Bool :=
  decide (i.pages ≤ 4096 ∧ i.dies * i.blocks ≤ 2097152) &&
    (List.range 32).all fun k => k == n || !(s.pk k).svc ||
      match (s.pk k).id with
      | some j => j.bpc == i.bpc && j.pages == i.pages
      | none => true

/-! ### Entry into service (R212, R214, R215, R250) -/

/-- The PAIR_ID or serial that names this controller in a pack's service fields (R208). -/
def State.ownerId (s : State) : BitVec 64 :=
  if s.on F.TWN_STAT.PAIRED then s.arb.pairId else BitVec.ofNat 64 (Config.serial.toNat % 2 ^ 64)

/-- A pack enters service: state 7, its service fields are written, and U is recomputed. -/
def State.enterService (s : State) (n : Nat) : State :=
  match (s.pk n).id with
  | none => s
  | some i =>
    let s := { s with conv := { s.conv with gone := s.conv.gone.filter fun x => x != i.serial } }
    let p := { s.pk n with svc := true, inUse := true, admitting := false, removable := false, removing := false, slept := 7 }
    let s := if s.asleep n then s.setPk n p else (s.setPk n p).setPkState n 7
    let i := { i with
      pairId := s.ownerId
      svcDtime := if i.inserts = 0 then s.dtime else i.svcDtime
      svcEpoch := if i.inserts = 0 then s.epoch else i.svcEpoch
      inserts := min 65535 (i.inserts + 1) }
    ((s.idUpdate n i).logJoin n).recomputeU

/-- R215: every block of a returned pack is erased before it re-enters service. -/
def State.eraseAllBlocks (s : State) (n : Nat) (i : PackId) : State :=
  ((List.range i.dies).filter fun d => !i.retired.contains d).foldl (fun s d => (List.range i.blocks).foldl (fun s b =>
    if s.conv.retired.contains (n, d, b) then s else s.eraseOne (.erase d b) n d b) s) s

/-- R215: was the pack with this record declared lost, here or at another port? Before ready one that was in service at another port counts. -/
def State.mustErase (s : State) (n : Nat) (i : PackId) : Bool :=
  s.conv.gone.contains i.serial || (List.range 32).any fun k => k != n && (s.pk k).home && (s.pk k).sn == some i.serial

/-- A pack is about to serve at port `n`: the counts and retirements of another pack that was there go, and its spare dies take the place of the
dies its record gives as retired (R251). -/
def State.adopt (s : State) (n : Nat) (i : PackId) : State :=
  let c := s.conv
  let mine := fun (k : Nat) => decide (n * 256 * 2 ^ 32 ≤ k ∧ k < (n + 1) * 256 * 2 ^ 32)
  let c := if (s.pk n).sn = some i.serial then c
    else { c with
      retired := c.retired.filter fun x => x.1 != n
      erase := c.erase.filter fun e => !mine e.1
      erased := c.erased.filter fun e => !mine e.1 }
  let c := { c with
    dieOut := c.dieOut.filter fun x => x.1 != n
    dieIn := (c.dieIn.filter fun x => x.1 != n) ++ i.spareIn.map fun d => (n, d) }
  { s with conv := c }.setPk n { s.pk n with sn := some i.serial }

/-- A ready pack is admitted, or held when its geometry does not fit (R222). -/
def State.admitPack (s : State) (n : Nat) : State :=
  match (s.pk n).id with
  | none => s
  | some i =>
    if !s.packReady n then s
    else if !s.geometryOk n i then s.setPkState n 6
    else if s.mustErase n i then
      if (s.pk n).admitting then s
      else ((s.adopt n i).setPk n { (s.adopt n i).pk n with admitting := true }).eraseAllBlocks n i
    else (s.adopt n i).enterService n

/-- R214, R250: a pack that has become ready enters service by itself where its setting says so, unless its port is a
reserve port. -/
def State.autoAdmit (s : State) (n : Nat) : State :=
  if s.setting 0x0C = 1 ∧ !s.isReserve n then s.admitPack n else s.judge

/-! ### Loss (R199, R215, R242, R250) -/

/-- The records of a lost pack's blocks go: it is erased wholly before it returns. -/
def State.forgetErases (s : State) (n : Nat) : State :=
  let s := { s with conv := { s.conv with
    erasing := s.conv.erasing.filter fun x => x.1 != n
    eraseHold := s.conv.eraseHold.filter fun x => x.port != n
    spoilt := s.conv.spoilt.filter fun x => x.1 != n } }
  (keysWhere (fun _ => true) (s.conv.cbt.filter fun e => e.2.state == 4 || e.2.state == 5)).foldl State.freeIfErased s

/-- A pack that was in service at the stop serves again after a start. -/
def State.resume (s : State) (n : Nat) : State :=
  ((s.setPk n { s.pk n with svc := true, inUse := true, home := false }).setPkState n 7).packRelease n |>.recomputeU

/-- R250: the lowest reserve port with a ready pack enters service, and the lost pack's port becomes a reserve port. -/
def State.useReserve (s : State) (lost : Nat) : State :=
  match (List.range 32).find? fun k => s.isReserve k && s.packReady k with
  | none => s
  | some k =>
    let mask := (s.setting 0x0B &&& (0xFFFFFFFF - 2 ^ k)) ||| 2 ^ lost
    ({ s with setv := { s.setv with val := tput (settingKey 0x0B 0) mask s.setv.val } }.sgenUp).admitPack k

/-- R215: the pack that served at port `n` is to be erased wholly before it serves again. -/
def State.markGone (s : State) (n : Nat) : State :=
  match (s.pk n).sn with
  | some x => if s.conv.gone.contains x then s else { s with conv := { s.conv with gone := s.conv.gone ++ [x] } }
  | none => s

/-- R250: a pack that was in service at the stop is not there any more, or another one is in its port. -/
def State.loseHome (s : State) (n : Nat) : State :=
  ((((s.setPk n { s.pk n with home := false }).markGone n).loseWhere fun x => x.port == n).dropRebuild fun x => x.port == n).logLost n

/-- R242: pack `n` is lost: no block of it is used again, its convoy blocks are degraded, U is recomputed, and a reserve
pack takes its place. -/
def State.packLost (s : State) (n : Nat) : State :=
  if s.pkState n = 11 ∨ s.pkState n = 0 then s
  else
    let p := s.pk n
    let was := p.svc
    let s := s.setPk n { p with
      outst := []
      heldCmds := []
      svc := false
      tempOk := false
      removable := false
      admitting := false
      inUse := false
      updStep := 0
      removing := false
      copy0 := []
      idOut := []
      idAgain := false
      link := { p.link with wait := [] } }
    let s := ((if p.inUse then s.markGone n else s).setPkState n 11).outstUpdate n
    let s := if s.on F.PKP_CTL.HOLD n then s.put F.PKP_CTL.HOLD n 0 else s
    let cut := fun (u : BridgeUpd) => { u with stop := true, now := if u.now = some n then none else u.now }
    let s := { s with fw := { s.fw with upd := s.fw.upd.map cut } }
    let s := ((s.loseWhere fun x => x.port == n).dropRebuild fun x => x.port == n).forgetErases n
    let s := (s.recomputeU).logLost n
    if was then (s.useReserve n).flow else s

/-- R242: the pack is lost on one side; in twin mode it is lost once both sides have lost it. -/
def State.sideDown (s : State) (n : Nat) (trail : Bool) : State :=
  if !s.on F.TWN_STAT.PAIRED then s.packLost n
  else
    let p := s.pk n
    let p := if trail then { p with peerLost := true } else { p with sideLost := true }
    let s := s.setPk n p
    if p.sideLost && p.peerLost then s.packLost n else s

/-- The payload of a class 0x04 entry (R323). -/
def pkEntry (n kind status : Nat) (seq : BitVec 32) (dlen : Nat) (crc : BitVec 32) : LEntry :=
  { cls := 4, origin := false, toff := 0, payload := [n, kind, status, 0, seq.toNat, dlen, crc.toNat] }

/-- R182: port `n` is down: its transmitter idles, and a later link up counts from 0 (R181). -/
def State.portDown (s : State) (n : Nat) : State :=
  let s := ((s.put F.PKP_STAT.LINK_UP n 0).put F.PKP_CTL.RETRAIN n 0)
  let s := s.setPk n { s.pk n with fresh := true }
  let s := (if s.pkState n = 11 then s else s.setSide n 12).pkRaise n
  let e := pkEntry n 4 0 0 0 0
  (s.peerTell e).capture e fun s => s.sideDown n false

/-- R182, R313: a retrain of a link ends: with success the link resumes by replay; the third failure within 1 s takes the
port, or the link, down. -/
def State.retrainEnd (s : State) (l : Link) (ok : Bool) : State :=
  if ok then
    let s := match l with
      | .pack n => if s.on F.PKP_STAT.LINK_UP n then s
        else (((s.put F.PKP_STAT.LINK_UP n 1).put F.PKP_CTL.RETRAIN n 0).setSide n 0).linkChg n
      | .twin => s
    (s.replayFlits l).pump l
  else
    let x := s.lnk l
    let recent := (x.fails.filter fun t => decide (s.elapsed < t + 1000000)) ++ [s.elapsed]
    let s := s.setLnk l { x with fails := recent }
    if 3 ≤ recent.length then
      match l with
      | .pack n => s.portDown n
      | .twin => s.twinDown
    else s

/-- Is the link retraining? -/
def State.retraining (s : State) : Link → Bool
  | .pack n => s.on F.PKP_CTL.RETRAIN n && !s.on F.PKP_STAT.LINK_UP n
  | .twin => false

/-- ACK_TIMEOUT (R182): no acknowledgement for 50 µs while flits are outstanding: the link retrains. Of a link that retrains already, whatever
for, it is the end of that retrain, and a failed one counts. -/
def execAckTimeout (l : Link) (retrainOk : Bool) (s : State) : Res := s.awake <|
  .next (if s.retraining l then s.retrainEnd l retrainOk
    else if (s.lnk l).unacked = 0 then s else (s.retrainStart l).retrainEnd l retrainOk)

/-- FLIT_NAK (R181, R182): what lies before the named flit is acknowledged and everything after it is replayed; the eighth
replay of one SEQ without progress retrains the link. -/
def flitNak (l : Link) (seq : BitVec 32) (s : State) : State :=
  let s := s.ackTo l seq
  let x := s.lnk l
  if x.unacked = 0 then s.afterAck l
  else
    let s := (s.setLnk l { x with replays := x.replays + 1 }).replayFlits l
    if 8 ≤ x.replays + 1 then (s.setLnk l { s.lnk l with replays := 0 }).retrainStart l else s.afterAck l

/-- FLIT_NAK (R181). -/
def execFlitNak (l : Link) (seq : BitVec 32) (s : State) : Res := s.awake <| .next (flitNak l seq s)

/-- FLIT_DISCARD (R180, R181): a flit that is not accepted is counted, and NAK names the last one that was. -/
def execFlitDiscard (l : Link) (s : State) : Res := s.awake <|
  .next (match l with
    | .pack n => (s.bump F.PKP_LERR.DISCARDS n).control l (s.lnk l).rx 0x11 0
    | .twin => s.control l (s.lnk l).rx 0x11 0)

/-! ### Bridge firmware (R217, R457 to R459) -/

/-- The running package's image for a bridge type: its part entry and its bytes. -/
def State.bridgeImage (s : State) (typ : BitVec 32) : Option (Part × Bytes) :=
  match tget s.fw.running s.fw.slots with
  | none => none
  | some x => (x.man.parts.find? fun p => p.typ == 5 && p.btype == typ).map fun p => (p, (x.pkg.drop p.off).take p.len)

/-- R457: may this image be loaded into pack `n`? R440: its digest is verified again. -/
def State.mayLoad (s : State) (n : Nat) (i : PackId) (p : Part) (img : Bytes) : Bool :=
  decide (p.fromMin.toNat ≤ (s.pk n).ver.toNat) && decide (i.bridgeFwMin.toNat ≤ p.pver.toNat) &&
    (s.man.anyBridge || s.man.bridges.any fun c => c.typ == i.bridgeType &&
      decide (c.vmin.toNat ≤ p.pver.toNat ∧ p.pver.toNat ≤ c.vmax.toNat)) && sha384 img == p.digest

/-- The ports that an update still has to take: a version other than the image's, and an image that may be loaded. -/
def State.wantsUpdate (s : State) (n : Nat) : Bool :=
  match (s.pk n).id with
  | none => false
  | some i => match s.bridgeImage i.bridgeType with
    | none => false
    | some (p, img) => s.reachable n && (s.pk n).ver != p.pver && s.mayLoad n i p img

/-- R217, step 1: the next piece of the image is sent, or FW_COMMIT once all of it is loaded. -/
def State.fwChunk (s : State) (n : Nat) : State :=
  let p := s.pk n
  if p.updOff < p.updImage.length then
    s.packSend n .fwLoad { cseq := 0, opc := 0x18, param := BitVec.ofNat 64 p.updOff, data := (p.updImage.drop p.updOff).take 16384 }
  else
    (s.setPk n { p with updStep := 2 }).packSend n .fwCommit
      { cseq := 0, opc := 0x19, param := BitVec.ofNat 64 p.updImage.length, data := p.updDigest }

/-- The update sequence ends: opcode 0x0506 is answered with the ports done and not reached, or with a bridge STATUS. -/
def State.updFinish (s : State) (u : BridgeUpd) (status : Nat) : State :=
  let mask := u.left.foldl (fun a n => a ||| 2 ^ n) 0
  let s := { s with fw := { s.fw with upd := none } }
  if status = 0 then s.answerWaits 0x0506 2 0 0 0 (leBytes 4 u.done ++ leBytes 4 mask) else s.answerWaits 0x0506 2 0 8 status []

/-- R458: the next pack is updated, once no convoy block is degraded, no rebuild is queued and no pack has HOLD set. -/
def State.updNext (s : State) : State :=
  match s.fw.upd with
  | none => s
  | some u =>
    if u.now.isSome then s
    else if u.stop then s.updFinish u 0
    else
      let quiet := (s.conv.cbt.all fun e => e.2.lost == 0 && e.2.rbclass == 0) &&
        (List.range 32).all fun n => !s.on F.PKP_CTL.HOLD n
      match u.left.dropWhile fun n => !s.wantsUpdate n with
      | [] => s.updFinish { u with left := [] } 0
      | n :: rest =>
        if !quiet then s
        else match (s.pk n).id with
          | none => s
          | some i => match s.bridgeImage i.bridgeType with
            | none => s
            | some (p, img) =>
              let s := { s with fw := { s.fw with upd := some { u with left := rest, now := some n } } }
              (s.setPk n { s.pk n with updStep := 1, updImage := img, updDigest := p.digest, updOff := 0 }).fwChunk n

/-- The update of pack `n` has ended; the next one follows. A failed one ends the sequence. -/
def State.updEnd (s : State) (n status : Nat) : State :=
  let s := s.setPk n { s.pk n with updStep := 0, updImage := [], updDigest := [], updOff := 0 }
  match s.fw.upd with
  | none => s
  | some u =>
    if u.now ≠ some n then s
    else if status ≠ 0 then s.updFinish u status
    else { s with fw := { s.fw with upd := some { u with now := none, done := u.done ||| 2 ^ n } } }.updNext

/-- BRIDGE_HOLD_DRAINED (R217, step 4): with nothing outstanding under HOLD, FW_ACTIVATE is sent. -/
def execBridgeHoldDrained (n : Fin 32) (s : State) : Res := s.awake <|
  .next (let p := s.pk n
    if s.on F.PKP_CTL.HOLD n ∧ p.outst.isEmpty ∧ p.updStep = 3 then
      ((s.setPk n { p with updStep := 4 }).setPkState n 10).packIssue n .fwActivate { cseq := 0, opc := 0x1A }
    else s)

/-- R214: a pack whose bridge the running release does not admit, or below its own minimum, enters state 6; one in service leaves it as a lost pack
does (DESIGN CHOICE, log entry 170). -/
def State.judgeBridge (s : State) (n : Nat) : State :=
  match (s.pk n).id with
  | none => s
  | some i =>
    if s.bridgeOk n i then s
    else if (s.pk n).svc then (s.packLost n).setPkState n 6
    else if s.packReady n then s.setPkState n 6 else s

/-- R217, step 5: HELLO after an activation: HOLD is cleared, notice code 4 is posted, and the pack serves again; one that
was held for its version is brought up if the new one fits (R459). -/
def State.activated (s : State) (n : Nat) : State :=
  let p := s.pk n
  let s := (s.put F.PKP_CTL.HOLD n 0).notice 4 n p.ver.toNat
  let s :=
    if p.svc then (s.setPkState n 7).packRelease n |>.judgeBridge n
    else match p.id with
      | some i => if s.bridgeOk n i then ((s.setPkState n 4).packRelease n).sendTemp n else (s.setPkState n 6).packRelease n
      | none => s.setPkState n 6
  s.updEnd n 0

/-! ### Responses to commands of bring-up -/

/-- R194: STALE or SEQERR: a determinism fault while paired, else the pack is lost. -/
def State.seqFault (s : State) (n : Nat) : State :=
  let s := (s.put F.PKP_STAT.SEQFAULT n 1).pkRaise n
  if s.on F.TWN_STAT.PAIRED then s.setFault 10 else s.packLost n

/-- R189: a timeout on pack `n`, or a failed HELLO in service (R637): the port retrains and HELLO is sent; the second within
1 s loses the pack. -/
def State.timedOut (s : State) (n : Nat) : State :=
  let p := s.pk n
  let now := if s.on F.TWN_STAT.PAIRED then s.packClock.toNat else s.elapsed
  let recent := p.timeouts.any fun t => decide (now < t + 1000000)
  let s := s.setPk n { p with timeouts := [now] }
  if recent then s.packLost n else (s.retrainStart (packLane n)).sendHello n

/-- HELLO's response (R186, R637, R217). What comes up later than a fence is fenced after HELLO, as R301 has it at a start (R198). -/
def State.helloDone (s : State) (n : Nat) (r : PackResp) : State :=
  if r.status ≠ 0 then
    if (s.pk n).svc then (s.pkRaise n).timedOut n else (s.setPkState n 6).pkRaise n
  else
    let s := s.setPk n { s.pk n with ver := r.param.setWidth 64, qdepth := (r.param >>> 64).setWidth 16 }
    if s.pkState n = 10 then s.activated n
    else if (s.pk n).svc then s.judgeBridge n
    else
      let s := if s.pow.fenceA then s.packSend n (.fence 0) { cseq := 0, opc := 0x10, param := 0 }
        else if s.get F.TWN_CTL.MODE = 3 then
          let peer := 1 - s.straps.twinId.toNat
          s.packSend n (.fence peer) { cseq := 0, opc := 0x10, param := BitVec.ofNat 64 peer }
        else s
      s.sendIdRead n 0

/-- R210: of the two copies of a record the valid one with the larger COPYSEQ, copy 0 when both are equal. -/
def selectCopy (a b : PackId) : Option Nat :=
  if a.valid && (!b.valid || decide (b.copyseq.toNat ≤ a.copyseq.toNat)) then some 0 else if b.valid then some 1 else none

/-- ID_READ's response at bring-up (R210, R214): once both copies are read, a pack without a valid one or with an incompatible
bridge is held; otherwise TEMP follows (R204). A copy that cannot be read is not valid. -/
def State.idReadDone (s : State) (n copy : Nat) (r : PackResp) : State :=
  let d := if r.status = 0 then r.data else []
  let p := s.pk n
  if copy = 0 then (s.setPk n { p with copy0 := d }).sendIdRead n 1
  else
    let use := fun (k : Nat) (raw : Bytes) =>
      let i := parseId raw
      let s := s.setPk n { p with id := some i, raw := raw, sel := k, copy0 := [] }
      if s.bridgeOk n i then s.sendTemp n else s.setPkState n 6
    match selectCopy (parseId p.copy0) (parseId d) with
    | some 0 => use 0 p.copy0
    | some k => use k d
    | none => (s.setPk n { p with copy0 := [] }).setPkState n 6

/-- A signed byte. -/
def sbyte (b : Byte) : Int := b.toInt

/-- A TEMP block (R203). -/
def tempOf (d : Bytes) : TempBlk :=
  { bridge := sbyte (d.getD 0 0x80), hi := sbyte (d.getD 1 0x80), lo := sbyte (d.getD 2 0x80), dies := (d.drop 4).map sbyte }

/-- TEMP's response: the values are kept, the tally takes the highest (R600), and a pack being brought up is ready, or held where its geometry does
not fit (R222). -/
def State.tempDone (s : State) (n : Nat) (r : PackResp) : State :=
  if r.status ≠ 0 ∨ r.data.length < 4 then s
  else
    let t := tempOf r.data
    let s := s.setPk n { s.pk n with temp := some t, tempOk := true }
    let s := if s.tallyOn then
        { s with tly := { s.tly with cur := { s.tly.cur with pkmax := tput n (max (tgetD n t.hi s.tly.cur.pkmax) t.hi) s.tly.cur.pkmax } } }
      else s
    if s.pkState n ≠ 4 then s.packRelease n
    else match (s.pk n).id with
      | none => s
      | some i =>
        if !s.geometryOk n i then s.setPkState n 6
        else if (s.pk n).home && !s.health.ready then
          if (s.pk n).sn = some i.serial then s.resume n
          else (((s.loseHome n).setPkState n 5).packRelease n).autoAdmit n
        else ((s.setPkState n 5).packRelease n).autoAdmit n

/-! ### Responses to erases and programs -/

/-- Zero bits of a byte. -/
def zeroBits (b : Byte) : Nat := ((List.range 8).filter fun k => !b.getLsbD k).length

/-- R298: a page reads as erased when each codeword has at most 64 zero bits. -/
def readsErased (d : Bytes) : Bool :=
  (List.range 4).all fun c => decide (((d.drop (4608 * c)).take 4608).foldl (fun a b => a + zeroBits b) 0 ≤ 64)

/-- A member's header is programmed on page 0; data follow once every header has been sent (R224). -/
def State.programHeader (s : State) (cbid m : Nat) : State :=
  let c := s.cb cbid
  match c.members[m]? with
  | none => s
  | some x =>
    let s := s.packSend x.port (.program cbid 0 m) (programCmd x 0 (State.header c cbid m))
    (s.setCb cbid { s.cb cbid with hdr := (s.cb cbid).hdr.filter fun k => k != m }).flightGo cbid

/-- A block of a pack is erased again before its use (R298). -/
def State.eraseAgain (s : State) (cbid m : Nat) : State :=
  match (s.cb cbid).members[m]? with
  | some x => s.eraseOne (.eraseAgain cbid m) x.port x.die x.block
  | none => s

/-- A read of R298 has come back. -/
def State.checkDone (s : State) (cbid m : Nat) (last : Bool) (r : PackResp) : State :=
  if (s.cb cbid).state ≠ 1 ∨ !(s.cb cbid).hdr.contains m then s
  else if r.status ≠ 0 then
    match (s.cb cbid).members[m]? with
    | some x => (if r.status = 3 then s.dieFailed x.port x.die else s).programFail cbid 0 m
    | none => s
  else if readsErased r.data then if last then s.programHeader cbid m else s.checkMember cbid m true
  else s.eraseAgain cbid m

/-- An acknowledged erase: the type 2 record with its epoch, and one more P/E cycle (R257, R296). -/
def State.erasedOk (s : State) (n d b : Nat) : State :=
  let e := match (s.conv.syslog.filter fun x => x.typ == 1 && x.port == n && x.die == d && x.block == b).getLast? with
    | some x => x.arg
    | none => s.conv.eraseEpoch
  let k := ebKey n d b
  let s := { s with conv := { s.conv with
    erasing := s.conv.erasing.filter fun x => x != (n, d, b)
    spoilt := s.conv.spoilt.filter fun x => x != (n, d, b)
    erased := tput k e s.conv.erased
    erase := tput k (tgetD k 0 s.conv.erase + 1) s.conv.erase } }
  s.logSys { typ := 2, port := n, die := d, block := b, arg := e }

/-- R273: an erase acknowledged with status 1. -/
def State.eraseFailed (s : State) (n d b : Nat) : State :=
  let s := { s with conv := { s.conv with
    erasing := s.conv.erasing.filter fun x => x != (n, d, b)
    spoilt := s.conv.spoilt.filter fun x => x != (n, d, b) } }
  s.retire n d b

/-- Blocks that await erase are free once their members are; a returned pack enters service once it is erased wholly. -/
def State.afterErase (s : State) (n : Nat) : State :=
  let s := (keysWhere (fun _ => true) (s.conv.cbt.filter fun e => e.2.state == 4 || e.2.state == 5)).foldl State.freeIfErased s
  if (s.pk n).admitting && !(s.conv.erasing.any fun x => x.1 == n) then s.enterService n else s.recomputeU

/-- A response to an erase. -/
def State.eraseDone (s : State) (n d b : Nat) (r : PackResp) : State :=
  if r.status = 0 then (s.erasedOk n d b).afterErase n
  else if r.status = 1 then (s.eraseFailed n d b).afterErase n
  else if r.status = 3 then s.dieFailed n d else s

/-- A response to the second erase of R298: the header takes the new epoch, and the block is read again. -/
def State.eraseAgainDone (s : State) (n cbid m : Nat) (c : PackCmd) (r : PackResp) : State :=
  if r.status = 0 then
    let s := s.erasedOk n c.die c.block
    let b := s.cb cbid
    let e := tgetD (ebKey n c.die c.block) 0 s.conv.erased
    (s.setCb cbid { b with eraseEpochs := b.eraseEpochs.set m e }).checkMember cbid m false
  else if r.status = 1 then (s.eraseFailed n c.die c.block).programFail cbid 0 m
  else if r.status = 3 then (s.dieFailed n c.die).programFail cbid 0 m
  else s.programFail cbid 0 m

/-- What a PROGRAM that failed says of its medium: status 1 retires the erase block (R274), 3 counts for the die (R275), and 2 raises the port's
source (R230). -/
def State.programStatus (s : State) (n : Nat) (c : PackCmd) (r : PackResp) : State :=
  if r.status = 1 then s.retire n c.die c.block else if r.status = 3 then s.dieFailed n c.die
  else if r.status = 2 then s.pkRaise n else s

/-- A response to a program (R230, R231, R240, R241, R274, R275). -/
def State.programDone (s : State) (n cbid page m : Nat) (c : PackCmd) (r : PackResp) : State :=
  let live := 1 ≤ (s.cb cbid).state ∧ (s.cb cbid).state ≤ 3
  if r.status = 0 then if page = 0 then s else s.flightAck cbid page m
  else
    let s := s.programStatus n c r
    if live then s.programFail cbid page m else s

/-- A response to a program of a rebuild: a failed one drops the replacement (R245, R274). -/
def State.rebuildDone (s : State) (n page : Nat) (c : PackCmd) (r : PackResp) : State :=
  if r.status = 0 then s.rebuildAck page
  else
    let s := s.programStatus n c r
    let spoilt := if r.status = 1 then [] else [(n, c.die, c.block)]
    { s with conv := { s.conv with rebuild := none, spoilt := s.conv.spoilt ++ spoilt } }

/-! ### Responses to identity updates and bridge updates -/

/-- R212: an update of the record has ended, with the copy `sel` that R210 now selects and a status; one that became due in the
meantime begins. -/
def State.idWriteEnd (s : State) (n sel status : Nat) : State :=
  let p := s.pk n
  let s := (s.setPk n { p with sel := sel, idOut := [] }).answerWaits 0x0804 1 n (if status = 0 then 0 else 8) status []
  if p.idAgain then s.idWriteStart n else s

/-- R212: the steps of an identity update: write the copy not selected, read it back, then the other copy the same way. A new
model table applies from the read that loads it (R261). -/
def State.idWriteDone (s : State) (n step : Nat) (r : PackResp) : State :=
  let p := s.pk n
  let first := 1 - p.sel
  if r.status ≠ 0 then s.idWriteEnd n (if step ≤ 2 then p.sel else first) r.status.toNat
  else
    match step with
    | 1 => s.packSend n (.idWrite 2) { cseq := 0, opc := 8, param := idReadParam (4096 * first) 4096 }
    | 2 =>
      if r.data = p.idOut then
        let model := fun (i : PackId) => { i with rmodel := p.newModel.getD i.rmodel }
        (s.setPk n { p with id := p.id.map model, newModel := none }).packSend n (.idWrite 3)
          { cseq := 0, opc := 9, param := BitVec.ofNat 64 (4096 * p.sel), data := p.idOut }
      else s.idWriteEnd n p.sel 6
    | 3 => s.packSend n (.idWrite 4) { cseq := 0, opc := 8, param := idReadParam (4096 * p.sel) 4096 }
    | _ => if r.data = p.idOut then s.idWriteEnd n 0 0 else s.idWriteEnd n first 6

/-- R217: the steps of a bridge update. -/
def State.fwDone (s : State) (n : Nat) (use : PkUse) (r : PackResp) : State :=
  let p := s.pk n
  if r.status ≠ 0 then (s.put F.PKP_CTL.HOLD n 0).updEnd n r.status.toNat
  else match use with
    | .fwLoad => (s.setPk n { p with updOff := p.updOff + 16384 }).fwChunk n
    | .fwCommit => (s.setPk n { p with updStep := 3 }).put F.PKP_CTL.HOLD n 1
    | _ => s.setPk n { p with updStep := 5 }

/-! ### Sleep and the fence -/

/-- SLEEP's response (R201, R202): state 8, or 9 with the link down, which is expected. -/
def State.sleepDone (s : State) (n level : Nat) (r : PackResp) : State :=
  if r.status ≠ 0 then s
  else
    let s := if s.asleep n then s else s.setPk n { s.pk n with slept := s.pkState n }
    if level = 2 then (s.setPkState n 9).put F.PKP_STAT.LINK_UP n 0 else s.setPkState n 8

/-- WAKE's response. -/
def State.wakeDone (s : State) (n : Nat) (r : PackResp) : State :=
  if r.status ≠ 0 then s else (s.setPkState n (s.pk n).slept).packRelease n

/-- A response to a read: only a die that cannot be read shows here; the codewords' outcome is the decoders'. -/
def State.readFail (s : State) (n : Nat) (c : PackCmd) (r : PackResp) : State :=
  if r.status = 3 then s.dieFailed n c.die else s

/-- What a response to an outstanding command does. -/
def State.packUse (s : State) (n : Nat) (o : PkOut) (r : PackResp) : State :=
  match o.use with
  | .hello => s.helloDone n r
  | .idRead copy => s.idReadDone n copy r
  | .temp => s.tempDone n r
  | .sleep level => s.sleepDone n level r
  | .wake => s.wakeDone n r
  | .fence side => if r.status = 0 then s.setPk n { s.pk n with fenced := (s.pk n).fenced ++ [side] } else s
  | .unfence side => if r.status = 0 then s.setPk n { s.pk n with fenced := (s.pk n).fenced.filter fun x => x != side } else s
  | .check cbid m last => s.checkDone cbid m last r
  | .eraseAgain cbid m => s.eraseAgainDone n cbid m o.cmd r
  | .program cbid page m => s.programDone n cbid page m o.cmd r
  | .rebuild _ page _ => s.rebuildDone n page o.cmd r
  | .rebuildRead m => if r.status = 0 then s.rebuildGot m r.data else s.readFail n o.cmd r
  | .copy cbid dpi =>
    let s := s.readFail n o.cmd r
    if r.status = 0 then s else { s with conv := { s.conv with copied := s.conv.copied.filter fun x => x != (cbid, dpi) } }
  | .scrub .. => s.readFail n o.cmd r
  | .landing => s.programStatus n o.cmd r
  | .syslog lseq => (s.programStatus n o.cmd r).logAck lseq n (r.status == 0)
  | .read => s.readFail n o.cmd r
  | .erase d b => s.eraseDone n d b r
  | .idWrite step => s.idWriteDone n step r
  | .mbxRead =>
    let k := n * 2 ^ 32 + o.cmd.param.toNat
    if r.status = 0 then s.answerWaits 0x0803 0 k 0 0 r.data else s.answerWaits 0x0803 0 k 8 r.status.toNat []
  | .fwLoad => s.fwDone n .fwLoad r
  | .fwCommit => s.fwDone n .fwCommit r
  | .fwActivate => s.fwDone n .fwActivate r

/-- A response is applied: the command it answers is no longer outstanding (R185, R194). STALE or SEQERR is the fault of the twin that received it: a
trail has judged its own when it came. -/
def State.applyResp (s : State) (n : Nat) (r : PackResp) : State :=
  let p := s.pk n
  match p.outst.find? fun o => o.cmd.cseq == r.cseq with
  | none => s
  | some o =>
    let s := (s.setPk n { p with outst := p.outst.filter fun x => x.cmd.cseq != r.cseq }).outstUpdate n
    let s := (s.pmc 0x08 0x11).pmc 0x08 0x12 (if r.status = 0 then 0 else 1)
    let s := if r.status = 4 ∨ r.status = 5 then if s.isTrail then s else s.seqFault n else s.packUse n o r
    let s := s.relocReady.releaseAll
    s.flow

/-- The bytes of a response: its header (R185) and its data. -/
def respBytes (r : PackResp) : Bytes :=
  leBytes 1 r.opc.toNat ++ leBytes 1 r.status.toNat ++ leBytes 2 r.die ++ leBytes 4 r.cseq.toNat ++
    leBytes 4 r.data.length ++ leBytes 4 r.busyUs.toNat ++ leBytes 16 r.param.toNat ++ r.data

/-! ### Pack events (R205, R275) -/

/-- An ASYNC event is applied: a die that stopped responding is retired; the others are only reported. -/
def State.applyAsync (s : State) (n code die : Nat) : State :=
  if code = 2 then (s.retireDie n die).flow else s

/-- R189: a command to pack `n` has had no response in time. -/
def State.respLate (s : State) (n : Nat) : State := ((s.pkBit F.PKP_STAT.TIMEOUT n).timedOut n).flow

/-- R189: in twin mode both twins judge the age of outstanding commands on the captured time sample of each stage. -/
def State.packTimeouts (s : State) : State :=
  if !s.on F.TWN_STAT.PAIRED || s.hif.activating.isSome then s
  else (List.range 32).foldl (fun s n =>
    if (s.pk n).outst.any fun o => decide (o.since.toNat + 250000 ≤ s.packClock.toNat) then
      let since := s.packClock
      let s := s.respLate n
      s.setPk n { s.pk n with outst := (s.pk n).outst.map fun o => { o with since := since } }
    else s) s

/-- PACK_RESPONSE_TIMEOUT (R189). Not evaluated while an activation without reset has stopped fetching (R452), and of a paired
controller not by its own timer. -/
def execPackResponseTimeout (n : Fin 32) (s : State) : Res := s.awake <|
  .next (if (s.pk n).outst.isEmpty || s.hif.activating.isSome || s.on F.TWN_STAT.PAIRED then s else s.respLate n)

/-- Is pack `n` going to deep sleep: is its SLEEP outstanding, as on a trail until the ledger brings the response? -/
def State.sleepsDeep (s : State) (n : Nat) : Bool := (s.pk n).outst.any fun o => o.use == .sleep 2

/-- PACK_SIGNAL_LOSS (R215): a pack in service retrains; the loss of signal of a pack that goes to deep sleep is expected (R202). -/
def execPackSignalLoss (n : Fin 32) (s : State) : Res := s.awake <|
  .next (if (s.pk n).svc ∧ s.pkState n ≠ 9 ∧ !s.sleepsDeep n ∧ s.on F.PKP_CTL.EN n then s.retrainStart (.pack n) else s)

/-- PKP_RETRAIN (R178, PKP_CTL.RETRAIN): the lane trains again, from the wrong-side and down states too. -/
def execPkpRetrain (n : Fin 32) (s : State) : Res := s.awake <|
  .next (if s.on F.PKP_CTL.EN n then s.retrainStart (.pack n) else s)

/-! ### Link up (R178, R190, R191, R195, R199) -/

/-- R191: CSEQ of a pack that is brought up. -/
def State.setCseq (s : State) (n : Nat) (h : BitVec 32) (hvalid : Bool) : State :=
  let p := s.pk n
  let s := if hvalid then s.put F.PKP_CSEQ.NEXT n ((h.toNat + 1) % 2 ^ 32)
    else if p.cseqHeld then s else s.put F.PKP_CSEQ.NEXT n 1
  s.setPk n { p with cseqHeld := true, hValid := hvalid }

/-- A side of pack `n` has come up, and the pack acts on it: it wakes from deep sleep, goes on after an activation or a
retrain, is lost because its bridge restarted (R199), or is brought up with HELLO (R191). A held pack stays held (R637; DEDUCED, log
entry 136). -/
def State.sideUp (s : State) (n : Nat) (h : BitVec 32) (hvalid : Bool) : State :=
  let p := s.pk n
  let st := s.pkState n
  if p.inUse && !hvalid && st != 11 then s.packLost n
  else if st = 9 then (s.setPkState n p.slept).packRelease n
  else if st = 10 then if p.outst.any fun o => o.use == .hello then s else s.sendHello n
  else if p.svc then s.pumpPack n
  else if st ≠ 0 ∧ st ≠ 11 then s
  else
    let s := s.setCseq n h hvalid
    let p := s.pk n
    let s := (s.setPk n { p with
      outst := []
      heldCmds := []
      tempOk := false
      copy0 := []
      idOut := []
      idAgain := false
      id := none }).outstUpdate n
    (s.setPkState n 4).sendHello n

/-- R191: does the controller wait at step 5 of R300 for pairing to be settled? Until then no command goes to a pack. -/
def State.unsettled (s : State) : Bool := s.pow.boot.isSome && s.bootState == 3

/-- R191, R318, R321: a side of pack `n` that has come up is captured with H and its validity, or told to the lead. -/
def State.sideReport (s : State) (n : Nat) : State :=
  let h := BitVec.ofNat 32 (s.get F.PKP_BRH.H n)
  let v := (s.pk n).hValid
  let e := pkEntry n 2 v.toNat h 0 0
  (s.peerTell e).capture e fun s => (s.setPk n { s.pk n with sideLost := false }).sideUp n h v

/-- R191: once pairing is settled, each pack whose link has trained is brought up. -/
def State.packsGo (s : State) : State :=
  ((List.range 32).filter fun n => s.on F.PKP_STAT.LINK_UP n).foldl State.sideReport s

/-- R195: the messages for a side of pack `n` that comes up anew while the pack is in use: the commands outstanding whose CSEQ is
above H, those held back apart. -/
def State.unseen (s : State) (n : Nat) (h : BitVec 32) : List (List Flit × Out) :=
  let new := (s.pk n).outst.filter fun o =>
    decide (0 < (o.cmd.cseq - h).toNat ∧ (o.cmd.cseq - h).toNat < 2 ^ 31) &&
      !(s.twn.held.any fun x => x.o == .pack n o.cmd)
  new.map fun o => (messageFlits (s.portByte (packLane n)) (o.cmd.header ++ o.cmd.data), .pack n o.cmd)

/-- R195: the messages that wait on a lane that goes on, without commands at or below H; one of which flits have left is sent whole. -/
def State.stillNew (s : State) (n : Nat) (h : BitVec 32) (l : List (List Flit × Out)) : List (List Flit × Out) :=
  l.filter fun x => match x.2 with
    | .pack _ c => decide (0 < (c.cseq - h).toNat ∧ (c.cseq - h).toNat < 2 ^ 31) ||
        decide (x.1.length < (messageFlits (s.portByte (packLane n)) (c.header ++ c.data)).length)
    | _ => true

/-- PACK_LINK_UP: training ends (R178, R183, R191, R195). A retrained link goes on where it was (R182); one that comes up from
deep sleep, from port down, or to a bridge that has restarted counts from 0 (R181). Changes under R202 raise nothing. -/
def execPackLinkUp (n : Fin 32) (t : Train) (s : State) : Res := s.awake <|
  .next (
    if !s.on F.PKP_CTL.EN n then s
    else if t.refused then
      (((s.put F.PKP_CTL.RETRAIN n 0).put F.PKP_STAT.LINK_UP n 0).setSide n 3).linkChg n
    else
      let wake := decide (s.pkState n = 9)
      let p := s.pk n
      let go := t.hvalid && !p.fresh && decide (4 ≤ s.pkState n ∧ s.pkState n ≤ 8)
      let link : Lnk := if go then { p.link with credit := t.credits.toNat, wait := s.stillNew n t.h p.link.wait }
        else { credit := t.credits.toNat, wait := if p.svc && t.hvalid then s.unseen n t.h else [] }
      let s := s.setPk n { p with link := link, fresh := false }
      let s := (((s.put F.PKP_BRH.H n t.h.toNat).put F.PKP_CTL.RETRAIN n 0).put F.PKP_STAT.LINK_UP n 1).put
        F.PKP_CRED.TXCRED n t.credits.toNat
      let s := s.setSide n 0
      let s := if wake then s else s.linkChg n
      let s := s.replayFlits (.pack n)
      let s := s.setPk n { s.pk n with hValid := t.hvalid }
      if s.unsettled then s else s.sideReport n)

/-! ### Planned removal (R216) -/

/-- PACK_REMOVABLE: nothing lies on the pack any more: it is put to sleep at level 2 and shown as ready for removal. -/
def execPackRemovable (n : Fin 32) (s : State) : Res := s.awake <|
  .next (
    let p := s.pk n
    if p.removing ∧ !(s.membersWhere fun x => x.port == n).any fun _ => true then
      ((s.setPk n { p with removable := true, svc := false }).packSend n (.sleep 2) { cseq := 0, opc := 0x0B, param := 2 }).recomputeU.logLost n
    else s)

end Sys2Proof.Machine
end

