-- ==== Sys2Proof/Machine/Protect.lean ====
section
/-! DEFINITION. What a read or a write says of its data (R47): SGL descriptor types, and end-to-end protection of types 1 and 3 in 64
bytes of metadata (R4), as the NVM Command Set Specification 1.0c has it (R2). -/

namespace Sys2Proof.Machine

/-- The SGL descriptor types that a tenant may use: on PCIe Data Block, Bit Bucket, Segment and Last Segment (R47); in a capsule an
in-capsule Data Block, a Last Segment and a Keyed Data Block (R82). -/
def sglOk (t : Tenant) (l : List Nat) : Bool := l.all fun k => if t.isAssoc then k == 0 || k == 3 || k == 4 else decide (k ≤ 3)

/-- A byte enters the CRC-16 of the guard: polynomial 0x8BB7, most significant bit first. -/
def crc16Step (c : BitVec 16) (b : Byte) : BitVec 16 :=
  (List.range 8).foldl (fun c _ => if c.getLsbD 15 then (c <<< 1) ^^^ 0x8BB7 else c <<< 1) (c ^^^ (b.setWidth 16 <<< 8))

/-- The guard of bytes. -/
def crc16 (l : Bytes) : BitVec 16 := l.foldl crc16Step 0

/-- The guard of a block: its data, and the metadata before the tuple. -/
def piGuard (ns : Ns) (b : BlockData) : BitVec 16 := crc16 (b.data ++ if ns.piFirst then [] else b.md.take 56)

/-- The reference tag of the `k`-th block of a command. -/
def piRef (ns : Ns) (io : IoArgs) (k : Nat) : BitVec 32 := if ns.pi = 1 then io.ilbrt + BitVec.ofNat 32 k else io.ilbrt

/-- PRACT: the tuple is made and replaces what the host sent in its place. -/
def piMake (ns : Ns) (io : IoArgs) (k : Nat) (b : BlockData) : BlockData :=
  let t := beBytes 2 (piGuard ns b).toNat ++ beBytes 2 io.lbat.toNat ++ beBytes 4 (piRef ns io k).toNat
  { b with md := patchBytes b.md (piAt ns) t }

/-- The status of the first check of PRINFO that the `k`-th block fails; an escaped tuple is not checked. -/
def piCheck (ns : Ns) (io : IoArgs) (k : Nat) (b : BlockData) : Option (Nat × Nat) :=
  let t := b.md.drop (piAt ns)
  let app := BitVec.ofNat 16 (beNat ((t.drop 2).take 2))
  let ref := BitVec.ofNat 32 (beNat ((t.drop 4).take 4))
  if ns.pi = 0 ∨ (app = 0xFFFF ∧ (ns.pi = 1 ∨ ref = 0xFFFFFFFF)) then none
  else if io.chkGuard ∧ beNat (t.take 2) ≠ (piGuard ns b).toNat then some (2, 0x82)
  else if io.chkApp ∧ app &&& io.lbatm ≠ io.lbat &&& io.lbatm then some (2, 0x83)
  else if io.chkRef ∧ ns.pi = 1 ∧ ref ≠ piRef ns io k then some (2, 0x84)
  else none

/-- The first block of a write that fails its checks. -/
def piFirstBad (ns : Ns) (io : IoArgs) (l : List BlockData) : Option (Nat × Nat) :=
  l.zipIdx.findSome? fun e => piCheck ns io e.2 e.1

/-- What ends a command before its checks of R280: an SGL descriptor type that is not supported, or, in type 1, an initial reference tag
that is not that of SLBA. -/
def State.argsCheck (s : State) (c : Ctx) (nsid slba : Nat) (io : IoArgs) : Option (Nat × Nat) :=
  if !sglOk c.tenant io.sgl then some (0, 0x11)
  else match s.nsOf nsid with
    | some ns => if ns.pi = 1 ∧ io.chkRef ∧ io.ilbrt.toNat ≠ slba % 2 ^ 32 then some (1, 0x81) else none
    | none => none

end Sys2Proof.Machine
end

