-- ==== Sys2Proof/Machine/Io.lean ====
section
/-! DEFINITION. Namespaces and I/O: Namespace Management and Attachment, Format, Sanitize, self-tests, and the I/O commands with
their checks in the order of R280 (chapters 2, 4, 5, 8, 9, 12). Status codes that the manual does not name are those of
NVMe 2.0c (R2). -/

namespace Sys2Proof.Machine

/-! ### Checks of an I/O command (R60, R280, R310, R406, R412) -/

/-- R60: is the namespace refused to a command: not attached to its tenant, or a detach fetched before it is pending? -/
def State.nsRefused (s : State) (c : Ctx) (nsid : Nat) : Bool :=
  !s.attached c.tenant nsid || s.hif.ctxs.any fun x => match x.wait with
    | .detach n fs => n == nsid && decide (x.stamp.toNat < c.stamp.toNat) && (match s.ownerBit c.tenant with
      | some b => fs.contains b
      | none => false)
    | _ => false

/-- R412: is the namespace's key loaded, and does its OWNER name the tenant? -/
def State.keyOk (s : State) (t : Tenant) (ns : Ns) : Bool :=
  let k := s.kslot (ns.keyref.toNat % 65536)
  k.loaded && k.gen.toNat % 65536 == ns.keyref.toNat / 65536 && match s.ownerBit t with
    | some b => k.owner.getLsbD b
    | none => false

/-- R310: the status of a command while a Sanitize or a Format of its namespace is in progress. -/
def State.busyStatus (s : State) (nsid : Nat) : Option (Nat × Nat) :=
  match s.pow.progress with
  | some p =>
    if p.state ≠ 1 then none
    else if p.op ≠ 3 then some (0, 0x1D)
    else if p.nsid = nsid ∨ p.nsid = 0xFFFFFFFF then some (0, 0x84) else none
  | none => none

/-- A block with its metadata as it goes to or comes from a host: interleaved for extended LBAs and on a fabric, which has no metadata buffer
(R47; PRESUMED, log entry 163). -/
def interleaved (ns : Ns) (t : Tenant) : Bool := ns.mext || t.isAssoc

/-- The bytes of a block that a transfer's limit counts: metadata only where it goes with the data (R40; NVMe 2.0c). -/
def blockMoves (ns : Ns) (t : Tenant) : Nat := blockBytes ns.lbaf + if ns.meta64 && interleaved ns t then 64 else 0

/-- Steps 1 to 4 of R280 on `n` blocks from `slba` on, of which `most` bytes may move: the status that ends the command. -/
def State.ioCheck (s : State) (c : Ctx) (nsid slba n most : Nat) : Option (Nat × Nat) :=
  match s.busyStatus nsid with
  | some r => some r
  | none => match s.nsOf nsid with
    | none => some (0, 0x0B)
    | some ns =>
      if n = 0 ∨ most < n * blockMoves ns c.tenant then some (0, 0x02)
      else if s.nsRefused c nsid then some (0, 0x0B)
      else if !s.keyOk c.tenant ns then some (2, 0x86)
      else if ns.nsze < slba + n then some (0, 0x80) else none

/-- The largest data transfer (R40, R83). -/
def mdts : Nat := 2097152

/-- No limit: commands that move no data. -/
def noLimit : Nat := 2 ^ 64

/-- R406: the key of the namespace has no nonces left for a need: the command ends with 0xC4, and the first such refusal of a
namespace posts a notice. -/
def State.nonceShort (s : State) (ns : Ns) (need : Nat) : Bool :=
  let k := s.kslot (ns.keyref.toNat % 65536)
  ns.sealed && decide (2 ^ 95 < k.nctr + k.rsv + need)

/-- R406: the notice of a first refusal. -/
def State.nonceWarn (s : State) (nsid : Nat) (ns : Ns) : State :=
  if s.keys.nonceWarned.contains nsid then s
  else { s with keys := { s.keys with nonceWarned := s.keys.nonceWarned ++ [nsid] } }.notice 2 nsid ns.keyref.toNat

/-- The bales of `n` blocks from `slba` on, with their charges (R135). -/
def chargesOf (ns : Ns) (nsid : Nat) (stamp : BitVec 64) (slba n : Nat) : List Charge :=
  let bpb := blocksPerBale ns.lbaf
  let b0 := slba / bpb
  (List.range ((slba + n - 1) / bpb + 1 - b0)).map fun i =>
    let k := min (slba + n) ((b0 + i + 1) * bpb) - max slba ((b0 + i) * bpb)
    { stamp := stamp, nsid := nsid, bale := b0 + i, grains := baleCharge ns (k == bpb) k }

/-- The sum of charges in grains. -/
def chargeSum (l : List Charge) : Nat := l.foldl (fun a c => a + c.grains) 0

/-- R135, R137: Capacity Exceeded: WARN bit 1 is set. -/
def State.capFail (s : State) (c : Ctx) : State :=
  { s with hif := { s.hif with capExceeded := true } }.fail c 0 0x81

/-- R135: does the charge fit? -/
def State.admits (s : State) (charge : Nat) : Bool := decide (s.capL + s.capC + charge ≤ s.capU)

/-! ### Write (R14, R15, R162 to R165, R280) -/

/-- R165: is ELSIZE valid in the namespace? -/
def elsizeOk (ns : Ns) (elsize : Nat) : Bool :=
  !ns.tolerance || elsize == 0 || (elsize % elWidth ns.eltype == 0 && 4096 % elsize == 0)

/-- A block as it is held in staging: of the format's size, rounded in a tolerance namespace (R162, R163). -/
def stageBlock (ns : Ns) (b : BlockData) : BlockData :=
  let n := blockBytes ns.lbaf
  let d := (b.data ++ List.replicate (n - b.data.length) 0).take n
  { data := if ns.tolerance then roundBytes ns.eltype ns.boundk d else d
    md := if ns.meta64 then (b.md ++ List.replicate (64 - b.md.length) 0).take 64 else [] }

/-- Blocks written, in units of 512 bytes, and commands, for log page 0x02. -/
def State.countWrite (s : State) (bytes : Nat) : State :=
  { s with hif := { s.hif with dataWritten := s.hif.dataWritten + bytes / 512, writeCmds := s.hif.writeCmds + 1 } }

/-- R14: the data of a write is in protected staging and its completion is posted. -/
def State.landWrite (s : State) (c : Ctx) (nsid slba w : Nat) (blocks : List BlockData) : State :=
  match s.nsOf nsid with
  | none => (s.giveBack c).fail c 0 0x0B
  | some ns =>
    let s := s.land c.stamp nsid slba w (blocks.map (stageBlock ns))
    let s := (s.overwritten nsid slba blocks.length).countWrite (blocks.length * blockBytes ns.lbaf)
    (s.succeed c).flow

/-! ### Read and Verify (R119, R264, R271, R401, R402, R645) -/

/-- How a block that is needed turns out: its bytes, or the status of its failure with Dword 0. -/
inductive BlkEnd where
  | ok (b : BlockData)
  | bad (sct sc : Nat) (dw0 : BitVec 32)
deriving DecidableEq, Repr

/-- The codeword among those that some extents lie in that fails: which one it is comes from the medium. -/
def State.failing (s : State) (ext : List (Nat × Nat)) : Option (Nat × Nat × Nat) :=
  let l := ext.flatMap fun x => s.codewordsOf x.1 x.2
  l[Config.free s.freeNo % l.length]?

/-- R265: codewords of a block have needed a stage: from ladder step 3 on one on a member that is not lost marks the block. -/
def State.deepRead (s : State) (cbid : Nat) (cws : List (Nat × Nat × Nat)) (stage : Nat) : State :=
  let kept := cws.any fun w => match (s.cb cbid).members[w.2.1]? with
    | some x => !x.lost
    | none => false
  if 3 ≤ stage && kept then s.markRefresh cbid else s

/-- A fault of the medium under a block whose read needs some extents of convoy block `cbid`: what is poisoned (R264) and how the block ends. An
unrecoverable codeword has been through every stage (R262). A mismatch takes the codewords of all the extents, the header's and the quarter's,
through the stages together, up to the one after which it is gone, and poisons only the unit read where none helps (R154). `unit` is the
offset from SLBA of the first block of the unit whose tag failed (R402). -/
def State.faultEnd (s : State) (ns : Ns) (f : BlockFault) (cbid : Nat) (ext : List (Nat × Nat)) (own : State → State) (unit : Int)
    (b : BlockData) : State × BlkEnd :=
  match f with
  | .unrecoverable =>
    let s' := s.drawn
    match s.failing ext with
    | some w =>
      let s := (List.range 9).foldl (fun s k => s.escStage cbid w.1 w.2.1 w.2.2 (k + 1)) s'
      ((s.deepRead cbid [w] 9).poisonCodeword cbid w.1 w.2.1 w.2.2 2, .bad 2 0x81 0)
    | none => (s', .bad 2 0x81 0)
  | .mismatch stop =>
    let cws := ext.flatMap fun x => s.codewordsOf x.1 x.2
    let s := (s.escalateAll ext stop).deepRead cbid cws stop
    if stop.val ≤ 9 then (s, .ok b) else (own s, .bad 2 0x81 0)
  | .tag => if ns.sealed then (s, .bad 7 0xC1 (BitVec.ofInt 32 unit)) else (s, .ok b)

/-- The map page that holds a block's entry. -/
def mapPageOf (ns : Ns) (nsid lba : Nat) : Nat := mpnOf nsid (lba / blocksPerBale ns.lbaf)

/-- R111: is the header grain of a stored bale of another generation than the entry? -/
def State.genWrong (s : State) (e : BitVec 64) : Bool :=
  let h := (s.storedAt (ent 41 0 e)).header
  !h.isEmpty && h.getD 6 0 != BitVec.ofNat 8 (ent 63 56 e)

/-- R152, R153: the grains of a compressed bale that hold quarter `q`, by its header's QOFF and QLEN; the whole extent where the header is
not known. -/
def State.quarterGrains (s : State) (e : BitVec 64) (q : Nat) : Nat × Nat :=
  let g := ent 41 0 e
  let h := (s.storedAt g).header
  let off := leNat ((h.drop (0x40 + 16 * q)).take 4)
  let len := leNat ((h.drop (0x44 + 16 * q)).take 4)
  if h.isEmpty then (g, ent 48 42 e) else (g + 1 + off / 1024, (off + len + 1023) / 1024 - off / 1024)

/-- R153: the grains that a block's read needs: of a raw bale its own; of a compressed one the header grain and those of its quarter; none
without a stored unit. -/
def State.grainsOf (s : State) (ns : Ns) (nsid lba : Nat) : List (Nat × Nat) :=
  let bpb := blocksPerBale ns.lbaf
  match s.resolve nsid (lba / bpb) (lba % bpb) with
  | .overlay _ => []
  | .patch v => if bitsOf 49 49 v.toNat = 1 then [] else [(bitsOf 41 0 v.toNat, patchLen v)]
  | .entry e =>
    let n := blockBytes ns.lbaf / 1024
    if ent 51 51 e = 1 ∨ ent 48 42 e = 0 ∨ !entryOk ns.sealed e then []
    else if ent 50 50 e = 1 then [(ent 41 0 e + 1 + n * (lba % bpb), n)]
    else [(ent 41 0 e, 1), s.quarterGrains e (lba % bpb * 4 / bpb)]

/-- Does the map hold a block as zeros, without a stored unit: never written, zeroed or deallocated? -/
def State.zeroSource (s : State) (ns : Ns) (nsid lba : Nat) : Bool :=
  let bpb := blocksPerBale ns.lbaf
  match s.resolve nsid (lba / bpb) (lba % bpb) with
  | .overlay _ => false
  | .patch v => patchLen v == 0
  | .entry e => ent 48 42 e == 0

/-- One block of a read, resolved under R119 as the map was when the command began (`s0`, R645), with what the medium reports of it. A
generation that is not the entry's counts as a mismatch that persists (R111); a read of blocks of a raw bale reads no header (R153).
`slba` is the command's first block, from which R402 counts. -/
def State.readOne (s0 s : State) (ns : Ns) (nsid slba lba : Nat) (fault : Option BlockFault) : State × BlkEnd :=
  let bpb := blocksPerBale ns.lbaf
  let bale := lba / bpb
  let k := lba % bpb
  let src := s0.resolve nsid bale k
  match s0.content ns k src, src with
  | none, .entry e => (s, if entryOk ns.sealed e then .bad 7 0xC5 0 else .bad 2 0x81 0)
  | none, _ => (s, .bad 7 0xC5 0)
  | some b, .overlay _ => (s, .ok b)
  | some b, .patch v => match fault with
    | some f =>
      if patchLen v = 0 then (s, .ok b)
      else s.faultEnd ns f (cbidOf (bitsOf 41 0 v.toNat)) [(bitsOf 41 0 v.toNat, patchLen v)] (fun s => s.poisonBlock nsid bale k 2)
        ((lba : Int) - (slba : Int)) b
    | none => (s, .ok b)
  | some b, .entry e =>
    let per := bpb / 4
    let f := if ent 50 50 e = 0 ∧ s0.genWrong e = true then some (.mismatch 10) else fault
    match f with
    | some f =>
      if ent 48 42 e = 0 then (s, .ok b)
      else s.faultEnd ns f (cbidOf (ent 41 0 e)) (s0.grainsOf ns nsid lba) (fun s => s.poisonBale nsid bale 2)
        ((bale * bpb + k / per * per : Nat) - (slba : Int)) b
    | none => (s, .ok b)

/-- The pack reads of some extents: every codeword once; a member that is lost, or whose pack is under HOLD, goes
to reconstruction (R225, R243, R217). -/
def State.readExtents (s : State) (l : List (Nat × Nat)) : State :=
  let cws := (l.flatMap fun x => (s.codewordsOf x.1 x.2).map fun w => (cbidOf x.1, w)).eraseDups
  cws.foldl (fun s w =>
    let c := s.seen w.1
    let lost := match c.members[w.2.2.1]? with
      | some m => m.lost
      | none => false
    if lost then s.escStage w.1 w.2.1 w.2.2.1 w.2.2.2 9 else s.escRead c w.2.2.1 w.2.1 w.2.2.2 0) s

/-- R117: misses are started for the map pages that are not in the cache. -/
def State.missPages (s : State) (pages : List Nat) : State :=
  (pages.filter fun p => !s.pageReady p).foldl State.startMiss s

/-- R117: a read whose map pages are not all in the cache waits for them. -/
def State.waitPages (s : State) (c : Ctx) (x : PageRead) (pages : List Nat) : State := (s.missPages pages).setWait c.stamp (.page x)

/-- The lookups and pack reads of some blocks, by LBA (R115, R153). -/
def State.readPacks (s : State) (ns : Ns) (nsid : Nat) (lbas : List Nat) : State :=
  let s := (lbas.map (mapPageOf ns nsid)).eraseDups.foldl (fun s p => s.usePage p false) s
  s.readExtents (lbas.flatMap (s.grainsOf ns nsid))

/-- What the medium reports of the block at a place in a list of faults. -/
def faultAt (l : List (Nat × BlockFault)) (k : Nat) : Option BlockFault := (l.find? fun f => f.1 == k).map fun f => f.2

/-- Blocks in order of their LBAs: the state with every failure acted on, the blocks, and the failure of the lowest LBA
(R645); a block that fails its protection check (R47) fails with the check's status. A block that the map holds as zeros has no tuple to
check (PRESUMED from NVM Command Set 1.0c, log entry 119). -/
def State.readSpan (s0 : State) (ns : Ns) (nsid slba : Nat) (io : IoArgs) (fault : Nat → Option BlockFault) (s : State) :
    List Nat → State × List BlockData × Option (Nat × Nat × BitVec 32)
  | [] => (s, [], none)
  | lba :: rest =>
    let r := s0.readOne s ns nsid slba lba (fault lba)
    let q := State.readSpan s0 ns nsid slba io fault r.1 rest
    match r.2 with
    | .ok b => match if s0.zeroSource ns nsid lba then none else piCheck ns io (lba - slba) b with
      | some e => (q.1, q.2.1, some (e.1, e.2, 0))
      | none => (q.1, b :: q.2.1, q.2.2)
    | .bad sct sc dw => (q.1, q.2.1, some (sct, sc, dw))

/-- Blocks go to the host: data and metadata together, or each to its buffer (R47). -/
def State.blocksTo (s : State) (c : Ctx) (ns : Ns) (l : List BlockData) : State :=
  if !ns.meta64 || interleaved ns c.tenant then s.dataTo c (l.flatMap fun b => b.data ++ b.md)
  else (s.dataTo c (l.flatMap fun b => b.data)).dataTo c (l.flatMap fun b => b.md)

/-- R64: a read whose data went to a peer's buffer is followed by a zero-length read, and completes once that has; where it fails the
command ends as a failed read of the peer does (R65), with source 186. -/
def State.endRead (s : State) (c : Ctx) (peer : Option PeerEnd) : State :=
  match peer, c.tenant with
  | some p, .func f =>
    let s := s.follow 2 (.zeroRead f p.last)
    if p.failed then (s.raise 186).fail c 0 0x04 else s.succeed c
  | _, _ => s.succeed c

/-- A read or a Verify: `move` says whether the data goes to the host. -/
def State.readCommand (s : State) (c : Ctx) (nsid slba nlb : Nat) (io : IoArgs) (faults : List (Nat × BlockFault)) (move : Bool) :
    State :=
  match (s.argsCheck c nsid slba io).or (s.ioCheck c nsid slba nlb (if move then mdts else noLimit)) with
  | some r => s.fail c r.1 r.2
  | none => match s.nsOf nsid with
    | none => s
    | some ns =>
      let lbas := (List.range nlb).map fun i => slba + i
      let pages := (lbas.map (mapPageOf ns nsid)).eraseDups
      if pages.any fun p => !s.pageReady p then s.waitPages c (.blocks nsid slba nlb io faults move) pages
      else
        let s := s.readPacks ns nsid lbas
        let r := State.readSpan s ns nsid slba io (fun lba => faultAt faults (lba - slba)) s lbas
        match r.2.2 with
        | some e => (r.1.finish c { dw0 := e.2.2, sct := e.1, sc := e.2.1 }).flow
        | none =>
          if move then
            let s := r.1.blocksTo c ns r.2.1
            let s := { s with hif := { s.hif with
              dataRead := s.hif.dataRead + nlb * blockBytes ns.lbaf / 512
              readCmds := s.hif.readCmds + 1 } }
            (s.endRead c io.peer).flow
          else (r.1.succeed c).flow

/-- READ (R64, R119). -/
def execRead (stamp : BitVec 64) (nsid : Nat) (span : LbaSpan) (io : IoArgs) (faults : List (Nat × BlockFault)) (s : State) : Res := s.awake <|
  .next (withCtx stamp (fun c s => s.readCommand c nsid span.slba span.nlb io faults true) s)

/-- VERIFY (R47): reads and checks without moving data. -/
def execVerify (stamp : BitVec 64) (nsid : Nat) (span : LbaSpan) (io : IoArgs) (faults : List (Nat × BlockFault)) (s : State) : Res := s.awake <|
  .next (withCtx stamp (fun c s => s.readCommand c nsid span.slba span.nlb io faults false) s)

/-! ### Write (R14, R15, R125, R280) -/

/-- The blocks of a write as they are taken in: with PRACT the tuples of end-to-end protection are made (R4). -/
def takenBlocks (ns : Ns) (io : IoArgs) (blocks : List BlockData) : List BlockData :=
  if io.pract && ns.pi != 0 then (blocks.map (stageBlock ns)).zipIdx.map fun e => piMake ns io e.2 e.1 else blocks

/-- What a write's protection checks say of its blocks, once they are here. -/
def blocksBad (ns : Ns) (io : IoArgs) (blocks : List BlockData) : Option (Nat × Nat) :=
  if io.pract then none else piFirstBad ns io (blocks.map (stageBlock ns))

/-- R125: the blocks that a write's merges read, by LBA: those of a partly written bale that must be merged, within the namespace. A write
does not wait for a map page (R117): where it is not in the cache the merge reads its blocks when the bale is placed. -/
def State.mergeLbas (s : State) (ns : Ns) (nsid slba n : Nat) : List Nat :=
  let bpb := blocksPerBale ns.lbaf
  let b0 := slba / bpb
  ((List.range ((slba + n - 1) / bpb + 1 - b0)).map fun i => b0 + i).flatMap fun b =>
    let rest := ((List.range bpb).map fun k => b * bpb + k).filter fun l => decide (l < slba ∨ slba + n ≤ l)
    if s.mergeDue nsid b && s.pageReady (mpnOf nsid b) then rest else []

/-- The data of a write is here: a block that fails its protection check ends the command with nothing changed; a merge reads the rest of its
bale (R125), and a block of it that cannot be delivered ends the command (R264, R271, R645); else the write lands. -/
def State.dataHere (s : State) (c : Ctx) (nsid slba w : Nat) (io : IoArgs) (blocks : List BlockData) : State :=
  match s.nsOf nsid with
  | none => (s.giveBack c).fail c 0 0x0B
  | some ns =>
    let back := fun (s : State) => s.rsvAdd ns 0 (s.nonceNeed ns slba blocks.length)
    match blocksBad ns io blocks with
    | some r => ((back s).fail c r.1 r.2).flow
    | none =>
      let lbas := s.mergeLbas ns nsid slba blocks.length
      let s := s.readPacks ns nsid lbas
      let r := State.readSpan s ns nsid slba {} (faultAt io.merge) s lbas
      match r.2.2 with
      | some e => (((back r.1).unchargeAll c.stamp).finish c { dw0 := e.2.2, sct := e.1, sc := e.2.1 }).flow
      | none => r.1.landWrite c nsid slba w (takenBlocks ns io blocks)

/-- The bytes of metadata of `n` blocks. -/
def mdBytes (ns : Ns) (n : Nat) : Nat := if ns.meta64 then 64 * n else 0

/-- What a function's write reads from its host: the data, and the metadata with it or after it (R47). -/
def State.fetchBlocks (s : State) (f : Nat) (ns : Ns) (n : Nat) : State :=
  let md := mdBytes ns n
  let len := n * blockBytes ns.lbaf
  if md = 0 ∨ ns.mext then s.emit (.hostRead f 0 (len + md)) else (s.emit (.hostRead f 0 len)).emit (.hostRead f 0 md)

/-- RDMA Reads outstanding on a queue pair. -/
def State.readsOut (s : State) (qpn : Nat) : Nat :=
  (s.hif.ctxs.filter fun c => c.sqid == qpn && c.tenant.isAssoc && match c.wait with
    | .rdma x => x.sent
    | _ => false).length

/-- R82, R85: the RDMA Read of a fabric write leaves while fewer than 16 are outstanding on its queue pair; one in the error state moves
nothing, though the digest has it (R100, R102). -/
def State.rdmaSend (s : State) (c : Ctx) : State :=
  match c.wait, tget c.sqid s.fab.qps with
  | .rdma x, some q =>
    if x.sent ∨ 16 ≤ s.readsOut c.sqid then s
    else
      let o : Out := .rdmaRead q.port c.sqid c.cid x.len
      (if q.err then s.digest 0 o else s.emit o).setWait c.stamp (.rdma { x with sent := true })
  | _, _ => s

/-- The RDMA Reads that wait on a queue pair leave as far as its depth admits them. -/
def State.rdmaGo (s : State) (qpn : Nat) : State :=
  (s.hif.ctxs.filter fun c => c.sqid == qpn && c.tenant.isAssoc).foldl State.rdmaSend s

/-- R96: the data of a fabric write is kept for the peer as long as its queue pair may hold the command: the newest of a queue pair, as
many as the queue has entries (DESIGN CHOICE, log entry 152). -/
def State.keepLanded (s : State) (c : Ctx) (blocks : List BlockData) : State :=
  match tget c.sqid s.fab.qps with
  | none => s
  | some q =>
    let mine := (s.fab.landed.filter fun x => x.1 == c.sqid).take (q.size - 1)
    let l := (c.sqid, c.rseq, blocks) :: (mine ++ s.fab.landed.filter fun x => x.1 != c.sqid)
    if s.twinMode then { s with fab := { s.fab with landed := l } } else s

/-- The data of a fabric write has come: it is taken, and a Read that waited behind it leaves. -/
def State.rdmaHere (s : State) (c : Ctx) (x : FabWrite) : State :=
  (((s.keepLanded c x.blocks).dataHere c x.nsid x.slba x.w x.io x.blocks)).rdmaGo c.sqid

/-- R280 steps 5 to 8, then the transfer: a function's data is read at once, an association's by RDMA Read (R85) unless it came in the
capsule (R82); what is then checked of the data is `State.dataHere`. -/
def State.startWrite (s : State) (c : Ctx) (ns : Ns) (nsid slba elsize : Nat) (io : IoArgs) (blocks : List BlockData) : State :=
  let n := blocks.length
  let need := s.nonceNeed ns slba n
  let ch := chargesOf ns nsid c.stamp slba n
  if s.nonceShort ns need then (s.nonceWarn nsid ns).fail c 7 0xC4
  else if !elsizeOk ns elsize then s.fail c 7 0xC3
  else if s.roFor c.stamp then s.fail c s.roStatus.1 s.roStatus.2
  else if !s.admits (chargeSum ch) then s.capFail c
  else
    let s := s.put F.MAP_CAP_CHARGED.C 0 (s.capC + chargeSum ch)
    let s := { s with map := { s.map with charges := s.map.charges ++ ch } }.rsvAdd ns need 0
    let w := elShuffle ns elsize
    match c.tenant with
    | .func f => (s.fetchBlocks f ns n).dataHere c nsid slba w io blocks
    | .assoc _ =>
      if 0 < c.inCap then s.dataHere c nsid slba w io blocks
      else
        let x : FabWrite := { blocks := blocks, nsid := nsid, slba := slba, w := w, io := io, len := n * blockBytes ns.lbaf + mdBytes ns n }
        (s.setWait c.stamp (.rdma x)).rdmaGo c.sqid

/-- WRITE (R14, R15). -/
def execWrite (stamp : BitVec 64) (nsid slba : Nat) (io : IoArgs) (blocks : List BlockData) (s : State) : Res := s.awake <|
  .next (withCtx stamp (fun c s =>
    match (s.argsCheck c nsid slba io).or (s.ioCheck c nsid slba blocks.length mdts) with
    | some r => s.fail c r.1 r.2
    | none => match s.nsOf nsid with
      | none => s
      | some ns => s.startWrite c ns nsid slba io.elsize io blocks) s)

/-- RDMA_READ_COMPLETE (R85): the last RDMA Read of a write is complete; its data is here. -/
def execRdmaReadComplete (stamp : BitVec 64) (s : State) : Res := s.awake <|
  .next (match s.ctx stamp with
    | none => s
    | some c => match c.wait with
      | .rdma x => s.rdmaHere c x
      | _ => s)

/-! ### Write Zeroes, Deallocate, Flush (R50, R52, R130, R131) -/

/-- Read-only and admission for a command that is charged nothing (R135, R279, R281). -/
def State.zeroCheck (s : State) (c : Ctx) : Option (Nat × Nat) :=
  if s.roFor c.stamp then some s.roStatus else if s.admits 0 then none else some (0, 0x81)

/-- WRITE_ZEROES (R130, R131, R406): its nonces are checked and, as zeros are not enciphered, given back at once. The blocks read as zeros,
metadata included (R131, R157), and so hold no tuple that PRACT could make; a tag that PRINFO asks to check is checked against SLBA. -/
def execWriteZeroes (stamp : BitVec 64) (nsid : Nat) (span : LbaSpan) (io : IoArgs) (s : State) : Res := s.awake <|
  .next (withCtx stamp (fun c s =>
    match (s.argsCheck c nsid span.slba io).or (s.ioCheck c nsid span.slba span.nlb noLimit) with
    | some r => s.fail c r.1 r.2
    | none => match s.nsOf nsid with
      | none => s
      | some ns =>
        if s.nonceShort ns (s.nonceNeed ns span.slba span.nlb) then (s.nonceWarn nsid ns).fail c 7 0xC4
        else match s.zeroCheck c with
          | some r => if r = (0, 0x81) then s.capFail c else s.fail c r.1 r.2
          | none => ((((s.zeroRange nsid span.slba span.nlb stamp).overwritten nsid span.slba span.nlb).succeed c).flow)) s)

/-- The first status that a range of a Dataset Management meets. -/
def State.dsmCheck (s : State) (c : Ctx) (nsid : Nat) : List (Nat × Nat) → Option (Nat × Nat)
  | [] => none
  | r :: rest => if r.2 = 0 then s.dsmCheck c nsid rest else match s.ioCheck c nsid r.1 r.2 noLimit with
    | some e => some e
    | none => s.dsmCheck c nsid rest

/-- DATASET_MANAGEMENT (R47, R130, R131): Deallocate only; other attributes have no effect. At most 256 ranges. -/
def execDatasetManagement (stamp : BitVec 64) (nsid : Nat) (deallocate : Bool) (ranges : List (Nat × Nat)) (s : State) :
    Res := s.awake <|
  .next (withCtx stamp (fun c s =>
    if ranges = [] ∨ 256 < ranges.length then s.fail c 0 0x02
    else match s.ioCheck c nsid 0 1 noLimit with
      | some r => s.fail c r.1 r.2
      | none => match s.dsmCheck c nsid ranges with
        | some r => s.fail c r.1 r.2
        | none =>
          if !deallocate then s.succeed c
          else match s.zeroCheck c with
            | some r => if r = (0, 0x81) then s.capFail c else s.fail c r.1 r.2
            | none =>
              let s := ranges.foldl (fun s r => (s.zeroRange nsid r.1 r.2 stamp).overwritten nsid r.1 r.2) s
              (s.succeed c).flow) s)

/-- FLUSH (R50 to R52): NSID 0xFFFFFFFF covers every attached namespace. -/
def execFlush (stamp : BitVec 64) (nsid : Nat) (s : State) : Res := s.awake <|
  .next (withCtx stamp (fun c s =>
    match if nsid = 0xFFFFFFFF then s.busyStatus nsid else s.ioCheck c nsid 0 1 noLimit with
    | some r => s.fail c r.1 r.2
    | none => ((s.setWait c.stamp (.flush c.stamp nsid)).closeCovered).flow) s)

/-! ### Raw Bale Read (R152, R168 to R170) -/

/-- A Raw Bale Read (R168 to R170): the header grain and the deciphered quarter area as they were stored. What lies at a grain address that
nothing of this model placed is free. -/
def State.rawBale (s : State) (c : Ctx) (nsid bale len : Nat) (headerOnly dw12Bad : Bool) (fault : Option BlockFault) : State :=
    match s.nsOf nsid with
    | none => s.fail c 0 0x0B
    | some ns =>
      let e := s.entry nsid bale
      let put := fun (s : State) (b : Bytes) => (s.dataTo c (b.take len)).finish c
        { dw0 := BitVec.ofNat 32 e.toNat, dw1 := some (BitVec.ofNat 32 (e.toNat / 2 ^ 32)) }
      if dw12Bad ∨ len < 1024 ∨ mdts < len then s.fail c 0 0x02
      else if s.nsRefused c nsid then s.fail c 0 0x0B
      else if ns.sealed ∧ !s.keyOk c.tenant ns then s.fail c 2 0x86
      else if ns.nsze ≤ bale * blocksPerBale ns.lbaf then s.fail c 0 0x80
      else if !s.pageReady (mpnOf nsid bale) then s.waitPages c (.bale nsid bale len headerOnly dw12Bad fault) [mpnOf nsid bale]
      else if !entryOk ns.sealed e then s.fail c 2 0x81
      else if ent 51 51 e = 1 then s.fail c 7 0xC5
      else if ent 48 42 e = 0 then put s (List.replicate 1024 0)
      else
        let r := match if s.genWrong e then some (.mismatch 10) else fault with
          | none => (s, BlkEnd.ok { data := [] })
          | some f => s.faultEnd ns f (cbidOf (ent 41 0 e)) [(ent 41 0 e, if headerOnly then 1 else ent 48 42 e)]
            (fun s => s.poisonBale nsid bale 2) 0 { data := [] }
        match r.2 with
        | .bad sct sc dw => (r.1.finish c { dw0 := dw, sct := sct, sc := sc }).flow
        | .ok _ =>
          let s := r.1.readExtents [(ent 41 0 e, if headerOnly then 1 else ent 48 42 e)]
          let u := s.storedAt (ent 41 0 e)
          if u.header.isEmpty then put s.drawn (freeRun s.freeNo (if headerOnly then 1024 else 1024 * ent 48 42 e))
          else put s (if headerOnly then u.header else u.header ++ u.coded)

/-- RAW_BALE_READ (R168 to R170). -/
def execRawBaleRead (stamp : BitVec 64) (nsid bale len : Nat) (headerOnly dw12Bad : Bool) (fault : Option BlockFault)
    (s : State) : Res := s.awake <|
  .next (withCtx stamp (fun c s => s.rawBale c nsid bale len headerOnly dw12Bad fault) s)

/-! ### Filled misses (R115, R117) -/

/-- A read that waited for map pages goes on. -/
def State.pageReadGo (s : State) (c : Ctx) : State :=
  match c.wait with
  | .page (.blocks nsid slba nlb io faults move) => (s.setWait c.stamp .dispatch).readCommand { c with wait := .dispatch } nsid slba nlb io faults move
  | .page (.bale nsid bale len headerOnly dw12Bad fault) =>
    (s.setWait c.stamp .dispatch).rawBale { c with wait := .dispatch } nsid bale len headerOnly dw12Bad fault
  | _ => s

/-- What waited for map page `mpn` goes on, in this order: its requests and the grains to free, items and relocations to commit, commits that
waited for grains, blocks to release, and reads. -/
def State.pageCame (s : State) (mpn : Nat) : State :=
  let s := ((((mapPageFilled mpn s).itemsGo mpn).relocReady).mapHeld).releaseAll
  s.hif.ctxs.foldl State.pageReadGo s

/-- MAP_PAGE_MISS_FILLED (R115, R117). A page that fails its CRC-32C is not installed: its requests go on waiting. -/
def execMapPageMissFilled (mpn : Nat) (crcOk : Bool) (s : State) : Res := s.awake <|
  .next (if crcOk && s.wantsPage mpn then (s.pageCame mpn).flow else s)

/-! ### Namespaces (R49, R60, R107, R132, R138, R158) -/

/-- The lowest unallocated NSID. -/
def State.freeNsid (s : State) : Option Nat := ((List.range 4096).map (· + 1)).find? fun n => (s.nsOf n).isNone

/-- The OWNER mask that names one tenant. -/
def State.ownerMask (s : State) (t : Tenant) : BitVec 128 :=
  match s.ownerBit t with
  | some b => BitVec.ofNat 128 (2 ^ b)
  | none => 0

/-- R412: the key of a new namespace: the handle given, of the mode's ALG, or the tenant's default key of the mode, created on
first use. -/
def State.keyFor (s : State) (t : Tenant) (sealed : Bool) (keyref : BitVec 32) : Option (BitVec 32 × State) :=
  let alg := if sealed then 2 else 1
  if keyref ≠ 0 then match s.slotOf keyref with
    | some n => if (s.kslot n).alg = alg then some (keyref, s) else none
    | none => none
  else match s.ownerBit t with
    | none => none
    | some b =>
      let k := 2 * b + sealed.toNat
      match tget k s.keys.defaults with
      | some n => some (s.handleOf n, s)
      | none => match s.newKey alg (s.ownerMask t) with
        | none => none
        | some (n, s) => some (s.handleOf n, { s with keys := { s.keys with defaults := tput k n s.keys.defaults } })

/-- R4: end-to-end protection is of type 1 or 3, in 64 bytes of metadata only. -/
def piOk (pi : Nat) (meta64 : Bool) : Bool := pi == 0 || ((pi == 1 || pi == 3) && meta64)

/-- R49, R158: the fields of a Create; the status of the first that is wrong. -/
def createCheck (c : NsCreate) : Option (Nat × Nat) :=
  let kind := c.nskind.toNat
  if c.rsvd ≠ 0 ∨ 1 < kind ∨ 3 < c.flags.toNat ∨ c.nsze = 0 ∨ 2 ^ 53 < c.nsze * blockBytes c.lbaf then some (0, 0x02)
  else if kind = 1 ∧ (!boundOk c.eltype.toNat c.boundk.toInt ∨ c.flags.getLsbD 0) then some (0, 0x02)
  else if 1 < c.lbaf ∨ (kind = 1 ∧ c.meta64) ∨ !piOk c.pi c.meta64 then some (0, 0x0A) else none

/-- R412, R280: KEYREF of a Create names a key of its mode's algorithm, or is 0 for the tenant's default key. -/
def State.keyrefCheck (s : State) (c : NsCreate) : Option (Nat × Nat) :=
  if c.keyref = 0 then none
  else match s.slotOf c.keyref with
    | some n => if (s.kslot n).alg = (if c.flags.getLsbD 1 then 2 else 1) then none else some (0, 0x02)
    | none => some (0, 0x02)

/-- What the packs and the cache hold of a namespace slot of another instance is treated as absent, and its grains are free (R107, R132). -/
def State.absent (s : State) (nsid : Nat) : State :=
  let page := fun (k : Nat) => k / 2 ^ 28 + 1 == nsid
  let s := (s.map.ckpt.filter fun e => page e.1).foldl (fun s e => s.grainsFree e.2.loc 4) s
  { s with map := { s.map with
    durP := s.map.durP.filter fun e => e.1 / 2 ^ 41 + 1 != nsid
    ckpt := s.map.ckpt.filter fun e => !page e.1
    dropped := s.map.dropped.filter fun e => !page e.1
    frames := s.map.frames.filter fun f => !page f.mpn } }

/-- NAMESPACE_CREATE (R49, R107, R138, R158, R280). -/
def execNamespaceCreate (stamp : BitVec 64) (c : NsCreate) (s : State) : Res := s.awake <|
  .next (withCtx stamp (fun x s =>
    match (createCheck c).or (s.keyrefCheck c) with
    | some r => s.fail x r.1 r.2
    | none =>
      if s.roFor x.stamp then s.fail x s.roStatus.1 s.roStatus.2
      else if 2 * s.capU * 1024 < s.logProv + c.nsze * blockBytes c.lbaf then s.fail x 1 0x15
      else match s.freeNsid with
        | none => s.fail x 1 0x16
        | some nsid => match s.keyFor x.tenant (c.flags.getLsbD 1) c.keyref with
          | none => s.fail x 0 0x02
          | some (h, s) =>
            let inst := s.instOf nsid + 1
            let tol := c.nskind = 1
            let ns : Ns :=
              { nsze := c.nsze, lbaf := c.lbaf, meta64 := c.meta64, tolerance := tol
                eltype := if tol then c.eltype.toNat else 0
                boundk := if tol then c.boundk.toInt else 0
                raw := c.flags.getLsbD 0, sealed := c.flags.getLsbD 1, keyref := h, inst := inst, mext := c.mext, pi := c.pi, piFirst := c.piFirst }
            let s := { s with hif := { s.hif with nsGen := tput nsid inst s.hif.nsGen } }.absent nsid
            let s := s.setNs nsid ns
            let v := c.lbaf + 256 * c.nskind.toNat + 65536 * c.flags.toNat
            let s := s.journal 5 0 (nsid - 1) inst c.nsze (BitVec.ofNat 64 v)
            ((s.nsChanged [nsid]).sgenUp.succeed x (BitVec.ofNat 32 nsid)).flow) s)

/-- The map, the staged data and the charges of a namespace go; its grains are free. -/
def State.dropMap (s : State) (nsid : Nat) : State :=
  let mine := fun (k : Nat) => k / 2 ^ 37 + 1 == nsid
  let es := s.map.entries.filter fun e => mine e.1
  let ps := s.map.patches.filter fun e => mine (e.1 / 16)
  let s := es.foldl (fun s e => (s.liveAdd nsid 0 (ent 48 42 e.2)).grainsFree (ent 41 0 e.2) (ent 48 42 e.2)) s
  let s := ps.foldl (fun s e => (s.liveAdd nsid 0 (patchLen e.2)).grainsFree (bitsOf 41 0 e.2.toNat) (patchLen e.2)) s
  let later := s.map.freeLater.filter fun f => f.1 / 2 ^ 28 + 1 == nsid
  let s := later.foldl (fun s f => (s.liveAdd nsid 0 f.2.2).grainsFree f.2.1 f.2.2) s
  let ch := s.map.charges.filter fun c => c.nsid == nsid
  let s := s.put F.MAP_CAP_CHARGED.C 0 (s.capC - chargeSum ch)
  { s with map := { s.map with
    entries := s.map.entries.filter fun e => !mine e.1
    patches := s.map.patches.filter fun e => !mine (e.1 / 16)
    overlay := s.map.overlay.filter fun x => x.nsid != nsid
    freeLater := s.map.freeLater.filter fun f => f.1 / 2 ^ 28 + 1 != nsid
    repack := s.map.repack.filter fun x => x.1 != nsid
    charges := s.map.charges.filter fun c => c.nsid != nsid } }.occUpdate

/-- A namespace is deleted (R132); an entry of log page 0xC0 with CAUSE 5 stays (R643). -/
def State.deleteNs (s : State) (nsid : Nat) : State :=
  let s := s.dropMap nsid
  let s := s.journal 6 0 (nsid - 1) (s.instOf nsid) 0 0
  let s := s.absent nsid
  { s with hif := { s.hif with
    ns := tdel nsid s.hif.ns
    poisoned := s.hif.poisoned.filter fun p => p.nsid != nsid || p.cause == 5 } }

/-- NAMESPACE_DELETE (R132): NSID 0xFFFFFFFF deletes every namespace. -/
def execNamespaceDelete (stamp : BitVec 64) (nsid : Nat) (s : State) : Res := s.awake <|
  .next (withCtx stamp (fun c s =>
    let l := if nsid = 0xFFFFFFFF then s.hif.ns.map Prod.fst else if (s.nsOf nsid).isSome then [nsid] else []
    if l.isEmpty && nsid != 0xFFFFFFFF then s.fail c 0 0x0B
    else
      let s := l.foldl State.deleteNs s
      (((s.nsChanged l).sgenUp.judge).succeed c).flow) s)

/-- NAMESPACE_ATTACH (R40, R46): any namespace to any function or host group. -/
def execNamespaceAttach (stamp : BitVec 64) (nsid : Nat) (funcs : List (Fin 128)) (s : State) : Res := s.awake <|
  .next (withCtx stamp (fun c s =>
    match s.nsOf nsid with
    | none => s.fail c 0 0x0B
    | some ns =>
      let l := funcs.map Fin.val
      if l.any fun f => ns.funcs.contains f then s.fail c 1 0x18
      else (s.setNs nsid { ns with funcs := ns.funcs ++ l.eraseDups }).sgenUp.succeed c) s)

/-- NAMESPACE_DETACH (R60): waits for the outstanding commands of the affected functions. -/
def execNamespaceDetach (stamp : BitVec 64) (nsid : Nat) (funcs : List (Fin 128)) (s : State) : Res := s.awake <|
  .next (withCtx stamp (fun c s =>
    match s.nsOf nsid with
    | none => s.fail c 0 0x0B
    | some ns =>
      let l := funcs.map Fin.val
      if !(l.all fun f => ns.funcs.contains f) then s.fail c 1 0x1A
      else ((s.setWait c.stamp (.detach nsid l)).sgenUp).flow) s)

/-! ### Format and Sanitize (R309, R310, R429) -/

/-- Every map page of a namespace that holds something, staged data included, is dropped (R130); what was charged for the data that is dropped
leaves C (R136). -/
def State.dropPages (s : State) (nsid : Nat) (stamp : BitVec 64) : State :=
  let mine := fun (k : Nat) => k / 2 ^ 37 + 1 == nsid
  let pages := (s.map.entries.filterMap fun e => if mine e.1 then some (e.1 % 2 ^ 37 / 512) else none) ++
    (s.map.patches.filterMap fun e => if mine (e.1 / 16) then some (e.1 / 16 % 2 ^ 37 / 512) else none) ++
    (s.map.overlay.filterMap fun x => if x.nsid = nsid then some (x.bale / 512) else none)
  let s := (s.map.overlay.filter fun x => x.nsid == nsid).foldl (fun s x => s.uncharge x.stamp nsid x.bale) s
  let s := pages.eraseDups.foldl (fun s p => s.dropPage nsid p stamp) s
  { s with map := { s.map with overlay := s.map.overlay.filter fun x => x.nsid != nsid }
           hif := { s.hif with poisoned := s.hif.poisoned.filter fun p => p.nsid != nsid || p.cause == 5 } }

/-- R429: the keys of namespaces, and tenant default keys, are replaced; an old slot that no namespace uses any more is erased
under R416. -/
def State.rekeySlot (nsids : List Nat) (s : State) (old : Nat) : State :=
  match s.newKey (s.kslot old).alg (s.kslot old).owner with
  | none => s
  | some (n, s) =>
    let h := s.handleOf n
    let s := nsids.foldl (fun s k => match s.nsOf k with
      | some ns => if ns.keyref.toNat % 65536 = old then s.setNs k { ns with keyref := h } else s
      | none => s) s
    let s := { s with keys := { s.keys with defaults := s.keys.defaults.map fun d => if d.2 = old then (d.1, n) else d } }
    if s.hif.ns.any fun e => e.2.keyref.toNat % 65536 == old then s
    else s.setKslot old { s.kslot old with pend := some .erase }

/-- R429: crypto erase of namespaces. -/
def State.cryptoErase (s : State) (nsids : List Nat) (all : Bool) : State :=
  let used := nsids.filterMap fun k => (s.nsOf k).map fun ns => ns.keyref.toNat % 65536
  let defs := if all then s.keys.defaults.map Prod.snd else s.keys.defaults.filterMap fun d => if used.contains d.2 then some d.2 else none
  let s := (used ++ defs).eraseDups.foldl (State.rekeySlot nsids) s
  let s := nsids.foldl (fun s k => s.dropPages k s.hif.nextStamp) s
  if all then
    let s := if (s.kslot 1).alg = 0 then s else s.makeKey 1
    if (s.kslot 2).alg = 0 then s else s.makeKey 2
  else s

/-- R309: Sanitize Block Erase: every namespace's map is dropped and every erase block in service erased. -/
def State.eraseAll (s : State) (nsids : List Nat) : State :=
  let s := nsids.foldl (fun s k => s.dropPages k s.hif.nextStamp) s
  let s := s.map.backs.foldl (fun s r => s.mapEnd r 1 0) { s with map := { s.map with backs := [] } }
  let s := { s with
    conv := { s.conv with cbt := [], acc := [], flights := [], relocs := [], rebuild := none, refreshQ := []
                          refreshing := [], copied := [], victim := none, removeBlk := [], repackRead := [] }
    map := { s.map with store := [], jblocks := [], freedAt := [], durP := [], ckpt := [], dropped := [], ckptQ := [], ckptOpen := none
                        ckptLocs := [], itemWait := [] } }
  s.inService.foldl (fun s n => match (s.pk n).id with
    | some i => s.eraseAllBlocks n i
    | none => s) s

/-- R309: the 64 bytes of a progress record. -/
def Progress.bytes (p : Progress) : Bytes :=
  let b := leBytes 4 0x5A544E53 ++ leBytes 4 p.seq ++ leBytes 1 p.op ++ leBytes 1 p.ses ++ leBytes 1 p.state ++ [0] ++
    leBytes 4 p.nsid ++ leBytes 8 p.cursor.toNat ++ leBytes 8 p.done ++ leBytes 8 p.total ++ leBytes 8 p.dtime.toNat ++
    leBytes 2 p.epoch.toNat ++ List.replicate 10 0
  b ++ leBytes 4 (crc32c b).toNat

/-- The last erase block in service, as CURSOR names it. -/
def State.lastBlock (s : State) : BitVec 64 :=
  match s.inService.getLast? with
  | none => 0
  | some n => match (s.pk n).id, (s.diesIn n).getLast? with
    | some i, some d => BitVec.ofNat 64 (n + d * 2 ^ 16 + (i.blocks - 1) * 2 ^ 32)
    | _, _ => 0

/-- R309: a progress record is written, in progress or complete, to the two slots of its region of secure NOR in turn. -/
def State.progressPut (s : State) (op ses nsid st done_ total : Nat) : State :=
  let seq := match s.pow.progress with
    | some p => p.seq + 1
    | none => 1
  let p : Progress := { seq := seq, op := op, ses := ses, state := st, nsid := nsid, done := done_, total := total
                        cursor := if op = 1 ∧ st ≠ 1 then s.lastBlock else 0, dtime := s.dtime, epoch := s.epoch }
  { s with pow := { s.pow with progress := some p } }.norSlot (0x3300000 + 65536 * (seq % 2)) p.bytes

/-- The erase blocks in service, the units of a Sanitize Block Erase. -/
def State.blockCount (s : State) : Nat := s.sumDies fun _ _ i => i.blocks

/-- R309, R310: the Sanitize or Format whose record is in progress is carried out, and its command, if it waits, completes. -/
def State.progressRun (s : State) : State :=
  match s.pow.progress with
  | none => s
  | some p =>
    if p.state ≠ 1 then s
    else
      let all := s.hif.ns.map Prod.fst
      let mine := if p.nsid = 0xFFFFFFFF then all else [p.nsid]
      let s := if p.op = 1 then s.eraseAll all
        else if p.op = 2 then s.cryptoErase all true
        else if p.ses = 2 then s.cryptoErase mine (p.nsid == 0xFFFFFFFF)
        else mine.foldl (fun s k => s.dropPages k s.hif.nextStamp) s
      let s := s.progressPut p.op p.ses p.nsid 2 p.total p.total
      let s := (s.hif.ctxs.filter fun c => c.wait == .progress).foldl (fun s c => s.succeed c) s
      s.flow

/-- Is a Sanitize or a Format in progress? -/
def State.inProgress (s : State) : Bool :=
  match s.pow.progress with
  | some p => p.state == 1
  | none => false

/-- FORMAT_NVM (R46, R309, R429): secure erase settings 0 to 2; the record is written first, the format takes effect at once, and
the command completes when the record says so. -/
def execFormatNvm (stamp : BitVec 64) (nsid lbaf ses : Nat) (prot : FormatProt) (s : State) : Res := s.awake <|
  .next (withCtx stamp (fun c s =>
    let l := if nsid = 0xFFFFFFFF then s.hif.ns.map Prod.fst else if (s.nsOf nsid).isSome then [nsid] else []
    let tol := l.any fun k => match s.nsOf k with
      | some ns => ns.tolerance
      | none => false
    if 2 < ses then s.fail c 0 0x02
    else if l.isEmpty && nsid != 0xFFFFFFFF then s.fail c 0 0x0B
    else if 1 < lbaf ∨ (tol && prot.meta64) = true ∨ !piOk prot.pi prot.meta64 then s.fail c 1 0x0A
    else if s.inProgress then match s.busyStatus nsid with
      | some r => s.fail c r.1 r.2
      | none => s.fail c 0 0x84
    else
      let s := s.progressPut 3 ses nsid 1 0 l.length
      let s := l.foldl (fun s k =>
        let s := s.dropPages k s.hif.nextStamp
        match s.nsOf k with
        | some ns => s.setNs k { ns with
            nsze := ns.nsze * blockBytes ns.lbaf / blockBytes lbaf
            lbaf := lbaf
            meta64 := prot.meta64
            mext := prot.mext
            pi := prot.pi
            piFirst := prot.piFirst }
        | none => s) s
      s.sgenUp.setWait c.stamp .progress) s)

/-- A Sanitize starts: its record is written and the command completes; the operation follows. -/
def State.startSanitize (s : State) (c : Ctx) (op total : Nat) : State :=
  if s.inProgress then s.fail c 0 0x1D else (s.progressPut op 0 0xFFFFFFFF 1 0 total).succeed c

/-- SANITIZE_BLOCK_ERASE (R309). -/
def execSanitizeBlockErase (stamp : BitVec 64) (s : State) : Res := s.awake <|
  .next (withCtx stamp (fun c s => s.startSanitize c 1 s.blockCount) s)

/-- SANITIZE_CRYPTO_ERASE (R429). -/
def execSanitizeCryptoErase (stamp : BitVec 64) (s : State) : Res := s.awake <|
  .next (withCtx stamp (fun c s => s.startSanitize c 2 s.hif.ns.length) s)

/-! ### Device self-test (R46) -/

/-- A self-test of code 1 (short) or 2 (extended): its result heads log page 0x06, which holds 20. -/
def State.selfTestRun (s : State) (c : Ctx) (code nsid : Nat) (pass : Bool) : State :=
  if nsid ≠ 0 ∧ nsid ≠ 0xFFFFFFFF ∧ (s.nsOf nsid).isNone then s.fail c 0 0x0B
  else { s with hif := { s.hif with selfTest := ((code, pass, nsid) :: s.hif.selfTest).take 20 } }.succeed c

/-- DEVICE_SELF_TEST_SHORT (R46). -/
def execDeviceSelfTestShort (stamp : BitVec 64) (nsid : Nat) (pass : Bool) (s : State) : Res := s.awake <|
  .next (withCtx stamp (fun c s => s.selfTestRun c 1 nsid pass) s)

/-- DEVICE_SELF_TEST_EXTENDED (R46). -/
def execDeviceSelfTestExtended (stamp : BitVec 64) (nsid : Nat) (pass : Bool) (s : State) : Res := s.awake <|
  .next (withCtx stamp (fun c s => s.selfTestRun c 2 nsid pass) s)

end Sys2Proof.Machine
end

