-- ==== Sys2Proof/Machine/Logs.lean ====
section
/-! DEFINITION. Get Log Page and Identify: the pages and structures as bytes (chapter 2). Layouts that the manual leaves to NVMe
2.0c are that standard's (R2); fields that neither the manual nor this state fixes are free bytes. -/

namespace Sys2Proof.Machine

/-! ### Standard pages -/

/-- Log page 0x01: the 64 entries of the tenant's controller, newest first (R641). -/
def State.page01 (s : State) (t : Tenant) : Bytes :=
  fitTo 4096 ((s.hif.err.filter fun e => e.func == ctlKey t).flatMap fun e => fitTo 64
    (leBytes 8 e.no ++ leBytes 2 e.sqid ++ leBytes 2 e.cid.toNat ++
      leBytes 2 (e.sc * 2 + e.sct * 512) ++ leBytes 2 0 ++ leBytes 8 0 ++ leBytes 4 e.nsid))

/-- R278: the mean P/E count of pack `n`'s data blocks in service, in percent of its rating. -/
def State.packUsed (s : State) (n : Nat) : Nat :=
  match (s.pk n).id with
  | none => 0
  | some i =>
    let r := (s.diesIn n).foldl (fun (a : Nat × Nat) d =>
      let out := s.retiredIn n d
      let data := (List.range (i.blocks - i.lzBlk - i.spareBlk) ++ (s.roles n d i).data i).filter fun b => !out.contains b
      (a.1 + data.foldl (fun x b => x + s.peCount n d b) 0, a.2 + data.length)) (0, 0)
    if r.2 = 0 ∨ i.peRated = 0 then 0 else 100 * r.1 / (r.2 * i.peRated)

/-- R278: Percentage Used. -/
def State.percentUsed (s : State) : Nat := min 255 (s.inService.foldl (fun a n => max a (s.packUsed n)) 0)

/-- R278: Critical Warning: bit 0 while Available Spare is below 10, and bit 3 while the controller is read-only. -/
def State.critShown (s : State) : Byte :=
  let b := s.hif.crit &&& 0xF6
  b ||| (if s.resLevel 0 < 10 then 1 else 0) ||| (if s.health.readOnly then 8 else 0)

/-- Log page 0x02 (R278, R584, R642). Busy time, power-on hours and the temperature times are not in this state. -/
def State.page02 (s : State) : Bytes :=
  let free := freeRun s.freeNo 512
  let b := List.replicate 512 0
  let b := patchBytes b 0 ([s.critShown] ++ leBytes 2 (kelvin s.composite) ++
    leBytes 1 (s.resLevel 0) ++ leBytes 1 10 ++ leBytes 1 s.percentUsed)
  let b := patchBytes b 32 (leBytes 16 ((s.hif.dataRead + 999) / 1000) ++ leBytes 16 ((s.hif.dataWritten + 999) / 1000) ++
    leBytes 16 s.hif.readCmds ++ leBytes 16 s.hif.writeCmds ++ free.take 16 ++ leBytes 16 s.hif.powerCycles ++
    (free.drop 16).take 16 ++ leBytes 16 s.hif.unsafe_ ++ leBytes 16 s.hif.mediaErrs ++ leBytes 16 s.hif.errCount ++
    (free.drop 32).take 8)
  patchBytes b 200 ((List.range 8).flatMap fun k => leBytes 2 (kelvin (tgetD k 0 s.hkp.sample)))

/-- Log page 0x03: slot 1 is A, slot 2 is B. -/
def State.page03 (s : State) : Bytes :=
  let next := if s.fw.pendingSel then s.fw.active + 1 else 0
  fitTo 512 (leBytes 8 (s.fw.running + 1 + 16 * next) ++ leBytes 8 (s.slotVer 0) ++ leBytes 8 (s.slotVer 1))

/-- Log page 0x04: the namespaces changed since this controller read it. -/
def State.page04 (s : State) (t : Tenant) : Bytes := fitTo 4096 ((s.ctl t).changed.flatMap (leBytes 4))

/-- Bits 1 to 4 of a command's effects (log page 0x05, NVMe 2.0c): 1 it may change logical block content, 2 namespace capabilities, 3 the
namespaces there are, 4 what the controller can do (DESIGN CHOICE, log entry 143). -/
def cmdEffects (admin : Bool) (o : Nat) : Nat :=
  if admin then if o = 0x80 then 6 else if o = 0x84 then 2 else if o = 0x0D then 10 else if o = 0x15 then 8 else if o = 0x10 then 16 else 0
  else if o = 0x01 ∨ o = 0x08 ∨ o = 0x09 then 2 else 0

/-- Log page 0x05: which commands are supported, and their effects. -/
def State.page05 (_s : State) : Bytes :=
  let ent := fun (admin : Bool) (o : Nat) =>
    leBytes 4 (if opcodeKnown admin (BitVec.ofNat 8 o) then 1 + cmdEffects admin o else 0)
  fitTo 4096 ((List.range 256).flatMap (ent true) ++ (List.range 256).flatMap (ent false))

/-- Log page 0x06: no test in progress; 20 results, newest first. -/
def State.page06 (s : State) : Bytes :=
  let ent := fun (e : Nat × Bool × Nat) =>
    fitTo 28 (leBytes 1 (16 * e.1 + if e.2.1 then 0 else 6) ++ [0, 1, 0] ++ List.replicate 8 0 ++ leBytes 4 e.2.2)
  let unused := fitTo 28 [0x0F]
  [0, 0, 0, 0] ++ s.hif.selfTest.flatMap ent ++ (List.replicate (20 - s.hif.selfTest.length) unused).flatMap id

/-- Log page 0x81 (R310). -/
def State.page81 (s : State) : Bytes :=
  match s.pow.progress with
  | none => fitTo 512 (leBytes 2 0xFFFF)
  | some p =>
    if p.op = 3 then fitTo 512 (leBytes 2 0xFFFF)
    else fitTo 512 (leBytes 2 (if p.state = 1 ∧ p.total ≠ 0 then 65536 * p.done / p.total else 0xFFFF) ++
      leBytes 2 (if p.state = 1 then 2 else if p.state = 2 then 1 else 3) ++ leBytes 4 (if p.op = 1 then 2 else 4))

/-! ### Vendor pages -/

/-- Log page 0xC0: the listed ranges, oldest first (R643). -/
def State.pageC0 (s : State) : Bytes :=
  let l := (s.hif.poisoned.filter fun p => p.listed).take 127
  fitTo 4096 (leBytes 4 l.length ++ leBytes 4 s.hif.poisoned.length ++ leBytes 8 0 ++ l.flatMap fun p =>
    leBytes 4 p.nsid ++ leBytes 4 p.nblk ++ leBytes 8 p.slba ++ leBytes 2 p.epoch.toNat ++ leBytes 2 p.cause ++ leBytes 4 0 ++
      leBytes 8 p.dtime.toNat)

/-- Log page 0xC1 (R644). -/
def State.pageC1 (s : State) : Bytes :=
  fitTo 128 (leBytes 1 s.twState ++ leBytes 1 (s.get F.HIF_TWNSTAT.ROLE) ++ leBytes 1 s.straps.twinId.toNat ++
    leBytes 1 (s.get F.HIF_TWNSTAT.ARB_LOST) ++ leBytes 2 s.twn.openUs ++ leBytes 2 (min 65535 s.hif.fenceCnt) ++
    leBytes 8 (s.reg .TWN_STAGE 0).toNat ++ leBytes 1 s.hif.lastLoser ++ leBytes 1 s.hif.lastCause ++
    leBytes 2 s.hif.lastEpoch.toNat ++ leBytes 4 s.hif.refusal ++ leBytes 8 s.hif.lastDtime.toNat ++ leBytes 8 s.hif.peerFw.toNat)

/-- An entry of log page 0xC2. -/
def State.resEntry (s : State) (k : Nat) : Bytes :=
  leBytes 1 (s.resLevel k) ++ leBytes 1 (tgetD k 0 s.health.crossed) ++ leBytes 2 0 ++ leBytes 4 0 ++
    leBytes 4 (s.resTotal k) ++ leBytes 4 (s.resShown k)

/-- Log page 0xC2 (R277, R279). -/
def State.pageC2 (s : State) : Bytes :=
  fitTo 16 (leBytes 1 8 ++ leBytes 1 s.health.latched.toNat) ++ (List.range 8).flatMap s.resEntry

/-- Logical bytes of a namespace mapped to non-zero bales or patches. -/
def State.logUsed (s : State) (nsid : Nat) : Nat :=
  match s.nsOf nsid with
  | none => 0
  | some ns =>
    let bales := s.map.entries.filter fun e => e.1 / 2 ^ 37 + 1 == nsid && decide (0 < ent 48 42 e.2)
    let ps := s.map.patches.filter fun e =>
      e.1 / 16 / 2 ^ 37 + 1 == nsid && decide (0 < patchLen e.2) && ent 48 42 (tgetD (e.1 / 16) 0 s.map.entries) == 0
    65536 * bales.length + blockBytes ns.lbaf * ps.length

/-- An entry of log page 0xC3. -/
def State.capEntry (s : State) (nsid : Nat) : Bytes :=
  match s.nsOf nsid with
  | none => List.replicate 32 0
  | some ns => leBytes 4 nsid ++ leBytes 1 ns.tolerance.toNat ++ leBytes 3 0 ++ leBytes 8 (s.logUsed nsid) ++
      leBytes 8 ns.physUsed ++ leBytes 8 (ns.nsze * blockBytes ns.lbaf)

/-- Log page 0xC3 (R133, R134, R137, R138). -/
def State.pageC3 (s : State) : Bytes :=
  let used := s.hif.ns.foldl (fun a e => a + s.logUsed e.1) 0
  fitTo 64 (leBytes 8 (s.capU * 1024) ++ leBytes 8 (s.capL * 1024) ++ leBytes 8 s.logProv ++ leBytes 8 used ++
    leBytes 1 (s.hif.physWarn.toNat + 2 * s.hif.capExceeded.toNat)) ++
    (List.range 4096).flatMap fun i => s.capEntry (i + 1)

/-- Log page 0xC4. -/
def State.pageC4 (s : State) : Bytes :=
  fitTo 2064 (leBytes 4 s.hif.notices.length ++ leBytes 4 s.hif.nlost ++ leBytes 8 0 ++ s.hif.notices.flatMap fun n =>
    leBytes 2 n.code ++ leBytes 2 n.epoch.toNat ++ leBytes 4 n.param ++ leBytes 8 n.dtime.toNat ++ leBytes 16 n.detail)

/-- The bytes of a supported page (R72). -/
def State.logBytes (s : State) (t : Tenant) (lid : BitVec 8) : Option Bytes :=
  if lid = 0x01 then some (s.page01 t)
  else if lid = 0x02 then some s.page02
  else if lid = 0x03 then some s.page03
  else if lid = 0x04 then some (s.page04 t)
  else if lid = 0x05 then some s.page05
  else if lid = 0x06 then some s.page06
  else if lid = 0x81 then some s.page81
  else if lid = 0xC0 then some s.pageC0
  else if lid = 0xC1 then some s.pageC1
  else if lid = 0xC2 then some s.pageC2
  else if lid = 0xC3 then some s.pageC3
  else if lid = 0xC4 then some s.pageC4
  else none

/-- What reading a page without Retain Asynchronous Event does: its events are unmasked, and what the page clears is cleared
(R70, R137, R643). -/
def State.logRead (s : State) (t : Tenant) (lid : BitVec 8) : State :=
  let s := s.unmask t lid.toNat
  if lid = 0x04 then s.setCtl t { s.ctl t with changed := [] }
  else if lid = 0xC0 then { s with hif := { s.hif with poisoned := s.hif.poisoned.filter fun p => p.cause != 5 } }
  else if lid = 0xC3 then { s with hif := { s.hif with capExceeded := false } }
  else if lid = 0xC4 then { s with hif := { s.hif with nlost := 0 } }
  else s

/-- GET_LOG_PAGE (R70, R72). -/
def execGetLogPage (stamp : BitVec 64) (lid : BitVec 8) (off len : Nat) (rae : Bool) (s : State) : Res := s.awake <|
  .next (withCtx stamp (fun c s =>
    match s.logBytes c.tenant lid with
    | none => s.fail c 1 0x09
    | some b =>
      if b.length < off ∨ mdts < len then s.fail c 0 0x02
      else
        let s := s.drawn.dataTo c ((b.drop off).take len)
        (if rae then s else s.logRead c.tenant lid).succeed c) s)

/-! ### Identify (R46) -/

/-- Places of Identify Controller that neither the manual nor the standard settles, as (offset, length): vendor identifiers, serial and firmware
revision, arbitration burst, IEEE identifier, RTD3 resume latency, FRU identifier, the temperatures of the warning and critical
thresholds, self-test time, keep-alive granularity, the limit of outstanding commands, and the subsystem name. -/
def identOpen : List (Nat × Nat) :=
  [(0, 24), (64, 12), (84, 4), (112, 16), (266, 4), (316, 2), (320, 2), (514, 2), (540, 4), (768, 256)]

/-- Bytes that identify the chip at these places are its own constants (`Config.identByte`, by structure). -/
def identFill (k : Nat) (l : List (Nat × Nat)) (b : Bytes) : Bytes :=
  l.foldl (fun b e => patchBytes b e.1 ((List.range e.2).map fun j => Config.identByte k (e.1 + j))) b

/-- The controller identifier of a tenant: the function's number; an association's is its own from 66 on (DESIGN CHOICE, log entry 120). -/
def cntlid : Tenant → Nat
  | .func f => f
  | .assoc a => 66 + a % 65000

/-- Identify Controller (R40, R41, R46 to R48, R61, R82, R641): what the manual states; what it leaves to NVMe 2.0c and NVMe over RDMA as these
have it, reserved bytes 0 (R2). The capacity that namespaces may take is twice U, as R138 has it (DESIGN CHOICE, log entry 144). -/
def State.identCtrl (s : State) (t : Tenant) : Bytes :=
  let b := identFill 0 identOpen (List.replicate 4096 0)
  let b := patchBytes b 24 ([0x44, 0x52, 0x5A, 0x2D, 0x37, 0x34, 0x30, 0x30] ++ List.replicate 32 0x20)
  let vf := match t with
    | .func f => !s.isPf f
    | .assoc _ => false
  let b := patchBytes b 76 [if vf then 7 else 3, 9]                              -- CMIC: ports, controllers, a virtual function; MDTS
  let b := patchBytes b 78 (leBytes 2 (cntlid t) ++ leBytes 4 0x20000)           -- CNTLID, VER
  let b := patchBytes b 88 (leBytes 4 500000 ++ leBytes 4 0x300)                 -- RTD3E, OAES: namespace and firmware events
  let b := patchBytes b 111 [1]                                                  -- CNTRLTYPE: I/O controller
  let b := patchBytes b 255 [2]                                                  -- MEC: NVMe-MI over PCIe VDM
  let b := patchBytes b 256 (leBytes 2 0x5E ++ [3, 15, 0x14, 0x06, 63, 0])       -- OACS, ACL, AERL, FRMW, LPA, ELPE, NPSS
  let b := patchBytes b 270 (leBytes 2 4)                                        -- MTFA
  let b := patchBytes b 280 (leBytes 16 (2 * s.capU * 1024) ++ leBytes 16 (2 * s.capU * 1024 - s.logProv))   -- TNVMCAP, UNVMCAP
  let b := patchBytes b 328 (leBytes 4 3)                                        -- SANICAP: Crypto and Block Erase
  let b := patchBytes b 512 [0x66, 0x44]                                         -- SQES, CQES
  let b := patchBytes b 516 (leBytes 4 4096 ++ leBytes 2 0xCC)                   -- NN, ONCS
  let b := patchBytes b 525 ([6] ++ leBytes 2 0 ++ leBytes 2 0)                  -- VWC: none; Flush of every namespace; AWUN, AWUPF
  let b := patchBytes b 536 (leBytes 4 (if t.isAssoc then 0x100005 else 0x10001))  -- SGLS
  if t.isAssoc then patchBytes b 1792 (leBytes 4 1028 ++ leBytes 4 1 ++ leBytes 2 0 ++ [0, 16]) else b

/-- What every namespace has (R2, R4): two formats, metadata with the data or apart, protection of types 1 and 3 at either end of the
metadata, several controllers. `ms` is the metadata size that both formats report: the manual has 0 or 64 bytes for each and no field that
chooses, so the size is an operand of Create and Format, and the one in use is reported (DESIGN CHOICE, log entry 145). -/
def identCommon (b : Bytes) (flbas dps ms : Nat) : Bytes :=
  let b := patchBytes b 25 [1, BitVec.ofNat 8 flbas, 3, 0x1D, BitVec.ofNat 8 dps, 1]
  patchBytes b 128 (leBytes 2 ms ++ [12, 0] ++ leBytes 2 ms ++ [14, 0])

/-- Identify Namespace: size, capacity, use, bytes, and what `identCommon` says of it; zeros for one that is not there. -/
def State.identNs (s : State) (nsid : Nat) : Bytes :=
  match s.nsOf nsid with
  | none => List.replicate 4096 0
  | some ns =>
    let b := identFill (2 ^ 16 + nsid) [(104, 24)] (List.replicate 4096 0)
    let b := patchBytes b 0 (leBytes 8 ns.nsze ++ leBytes 8 ns.nsze ++ leBytes 8 (s.logUsed nsid / blockBytes ns.lbaf))
    let b := patchBytes b 33 [1]
    let b := patchBytes b 48 (leBytes 16 (ns.nsze * blockBytes ns.lbaf))
    identCommon b (ns.lbaf + 16 * ns.mext.toNat) (ns.pi + 8 * ns.piFirst.toNat) (if ns.meta64 then 64 else 0)

/-- CNS 0x03: the namespace's NGUID and its command set. -/
def State.identDesc (s : State) (nsid : Nat) : Bytes :=
  match s.nsOf nsid with
  | none => List.replicate 4096 0
  | some _ =>
    let id := (List.range 16).map fun j => Config.identByte (2 ^ 16 + nsid) (104 + j)
    id |> fun id => ([2, 16, 0, 0] ++ id ++ [4, 1, 0, 0, 0]) |> fun b => b ++ List.replicate (4096 - b.length) 0

/-- A list of namespace identifiers above `nsid`. -/
def nsList (l : List Nat) (nsid : Nat) : Bytes := fitTo 4096 ((l.filter fun n => decide (nsid < n)).flatMap (leBytes 4))

/-- A list of controller identifiers: the functions' numbers. -/
def ctrlList (l : List Nat) : Bytes := fitTo 4096 (leBytes 2 l.length ++ l.flatMap (leBytes 2))

/-- The structure of a supported CNS; of the NVM command set (0x05, 0x06) no option and no limit is reported. -/
def State.identBytes (s : State) (c : Ctx) (cns : BitVec 8) (nsid : Nat) : Option Bytes :=
  let mine := s.attached c.tenant nsid
  let all := s.hif.ns.map Prod.fst
  if cns = 0x00 ∧ nsid = 0xFFFFFFFF then some (identCommon (List.replicate 4096 0) 0 0 0)
  else if cns = 0x00 then some (if mine then s.identNs nsid else List.replicate 4096 0)
  else if cns = 0x01 then some (s.identCtrl c.tenant)
  else if cns = 0x02 then some (nsList (all.filter fun n => s.attached c.tenant n) nsid)
  else if cns = 0x03 then some (s.identDesc nsid)
  else if cns = 0x05 ∨ cns = 0x06 then some (List.replicate 4096 0)
  else if cns = 0x10 then some (nsList all nsid)
  else if cns = 0x11 then some (s.identNs nsid)
  else if cns = 0x12 then some (ctrlList (match s.nsOf nsid with
    | some n => n.funcs.filter fun f => decide (f < 66)
    | none => []))
  else if cns = 0x13 then some (ctrlList ((List.range 66).filter s.funcUp))
  else none

/-- IDENTIFY (R46): an NSID that no namespace can have is refused where one is named; CNS 0x00 takes 0xFFFFFFFF too, for what is common to
all (R2). -/
def execIdentify (stamp : BitVec 64) (cns : BitVec 8) (nsid : Nat) (s : State) : Res := s.awake <|
  .next (withCtx stamp (fun c s =>
    match s.identBytes c cns nsid with
    | none => s.fail c 0 0x02
    | some b =>
      if (cns = 0x00 ∨ cns = 0x03 ∨ cns = 0x11 ∨ cns = 0x12) ∧ (nsid = 0 ∨ 4096 < nsid) ∧ ¬ (cns = 0x00 ∧ nsid = 0xFFFFFFFF) then s.fail c 0 0x0B
      else (s.dataTo c b).succeed c) s)

end Sys2Proof.Machine
end

