-- ==== Sys2Proof/Machine/Fabric.lean ====
section
/-! DEFINITION. The fabric target: connections, capsules, congestion response, discovery and lost connections (chapter 3). -/

namespace Sys2Proof.Machine

/-! ### Queue pairs and associations (R83, R91, R92) -/

/-- Port line rate in Mb/s. -/
def lineRate : Dy := { m := 400000 }

/-- R83, R91: does the Connect pass the limits and the twin block? A queue pair that only the peer has (R96) may still connect here. -/
def State.connectPass (s : State) (qpn : Nat) (r : ConnectReq) : Bool :=
  let s : State := match tget qpn s.fab.qps with
    | some q => if q.away ∧ q.assoc = r.assoc ∧ q.qid = r.qid then
        { s with fab := { s.fab with
          qps := tdel qpn s.fab.qps
          assocs := if r.qid = 0 then tdel r.assoc s.fab.assocs else s.fab.assocs } } else s
    | none => s
  let io := s.fab.assocs.filter fun e => !e.2.discovery
  let mine := s.fab.qps.filter fun e => e.2.assoc == r.assoc
  let disc := s.fab.assocs.filter fun e => e.2.discovery && e.2.port == r.port.val
  let fresh := (tget r.assoc s.fab.assocs).isNone
  let sizes := if r.qid = 0 then decide (0 < r.size ∧ r.size ≤ 32) else decide (2 ≤ r.size ∧ r.size ≤ 1024)
  let twin := !s.twinMode || (r.twinMagic == 0x57545A44 && r.pairId == s.arb.pairId)
  (tget qpn s.fab.qps).isNone && sizes && (r.mtu == 1024 || r.mtu == 2048 || r.mtu == 4096) &&
    if r.discovery then r.qid == 0 && fresh && decide (disc.length < 64)
    else twin && decide ((s.fab.qps.filter fun e => match tget e.2.assoc s.fab.assocs with
        | some a => !a.discovery
        | none => true).length < 65536) &&
      if r.qid = 0 then fresh && decide (io.length < 8192)
      else !fresh && decide (r.qid ≤ 128 ∧ mine.length ≤ 128) && !(mine.any fun e => e.2.qid == r.qid)

/-- The queue pair and, for an admin Connect, the association of an accepted Connect; one made after a fence has no twin sequence, as after a
controller reset (R76; DEDUCED, log entry 118). -/
def State.connectDo (qpn : Nat) (r : ConnectReq) (s : State) : State :=
  let q : Qp := { port := r.port, assoc := r.assoc, qid := r.qid, size := r.size, rc := lineRate, rt := lineRate
                  alpha := { m := 1 }, mtu := r.mtu }
  let a : Assoc := { port := r.port, group := r.group.map Fin.val, discovery := r.discovery }
  let s := if r.qid = 0 ∧ !s.on F.TWN_STAT.PAIRED then
    { s with hif := { s.hif with seqEnded := s.hif.seqEnded ++ [Tenant.assoc r.assoc] } } else s
  { s with fab := { s.fab with
    heldConn := tdel qpn s.fab.heldConn
    ledErr := s.fab.ledErr.filter fun x => x.1 != qpn
    qps := tput qpn q s.fab.qps
    assocs := if r.qid = 0 then tput r.assoc a s.fab.assocs else s.fab.assocs } }

/-- R83, R326: does the Connect pass beside those accepted whose ledger entries still wait? -/
def State.connectOk (s : State) (qpn : Nat) (r : ConnectReq) : Bool :=
  (s.fab.heldConn.foldl (fun s e => s.connectDo e.1 e.2) s).connectPass qpn r

/-- The class 0x03 entry of a connection event (R323). -/
def connEntry (qpn ev port : Nat) : LEntry := { cls := 3, origin := false, toff := 0, payload := [qpn, ev, port, 0] }

/-- The response to a Connect (R83, R92); that of a discovery association is no output for the digest (R346). Its command identifier is the
initiator's and no operand; it stands as 0. -/
def State.connectAnswer (s : State) (qpn : Nat) (r : ConnectReq) (ok : Bool) : State :=
  let dw1 : BitVec 32 := BitVec.ofNat 32 (s.straps.twinId.toNat + 2 * s.twinMode.toNat)
  let o : Out := .capsule r.port qpn 0 0 (BitVec.ofNat 32 (Config.free s.freeNo % 65536)) dw1 0 0 none
  if ok then if r.discovery then s.drawn.send o else s.drawn.emit o
  else s.send (.capsule r.port qpn 0 0 0 dw1 1 0x82 none)

/-- CONNECT (R83, R91, R92, R104): discovery associations are local; the others enter the ledger on the lead, and a trail opens
its own side as the initiator asks (R93). -/
def execConnect (qpn : Nat) (r : ConnectReq) (s : State) : Res := s.awake <|
  let s := s.raise 193
  .next (if !s.connectOk qpn r then s.connectAnswer qpn r false
    else
      let go := fun (s : State) => (s.connectDo qpn r).connectAnswer qpn r true
      if r.discovery || s.isTrail then go s
      else { s with fab := { s.fab with heldConn := tput qpn r s.fab.heldConn } }.capture (connEntry qpn 1 r.port) go)

/-- The admin queue pair of an association. -/
def State.adminQp (s : State) (a : Nat) : Option (Nat × Qp) := s.fab.qps.find? fun e => e.2.assoc == a && e.2.qid == 0

/-- DISCONNECT (R101, R104). -/
def execDisconnect (assoc : Nat) (s : State) : Res := s.awake <|
  .next (match tget assoc s.fab.assocs with
    | none => s
    | some a =>
      let s := s.raise 194
      if a.discovery then s.endAssoc assoc
      else match s.adminQp assoc with
        | some q => (s.capture (connEntry q.1 2 q.2.port) fun s => (s.endAssoc assoc).flow)
        | none => (s.endAssoc assoc).flow)

/-- KEEP_ALIVE_EXPIRY (R101, R104): not evaluated while fetching is stopped for an activation (R452). The lead's timers decide for both
twins: a trail goes by the ledger, where the expiry stands as a disconnect (R323 has no event of its own for it; DEDUCED, log entry 117), and raises its source.
A discovery association is local (R97). -/
def execKeepAliveExpiry (assoc : Nat) (s : State) : Res := s.awake <|
  .next (match tget assoc s.fab.assocs with
    | none => s
    | some a =>
      if s.hif.activating.isSome then s
      else if a.discovery then (s.raise 194).endAssoc assoc
      else if s.isTrail then s.raise 194
      else match s.adminQp assoc with
        | some q => ((s.raise 194).capture (connEntry q.1 2 q.2.port) fun s => (s.endAssoc assoc).flow)
        | none => ((s.raise 194).endAssoc assoc).flow)

/-! ### Lost connections (R99 to R102, R104, R321) -/

/-- The identity of the twin whose side an entry tells of: of the trail by ORIGIN 1 (R321). -/
def State.sideOf (s : State) (origin : Bool) : Bool := if origin == s.isTrail then s.straps.twinId else !s.straps.twinId

/-- R101: the error state of its admin queue pair on every twin in service ends an association: by the ledger on a pair, by its own state
on a controller alone. -/
def State.errJudge (s : State) (qpn : Nat) : State :=
  match tget qpn s.fab.qps with
  | none => s
  | some q =>
    let all := if s.on F.TWN_STAT.PAIRED then s.fab.ledErr.contains (qpn, false) && s.fab.ledErr.contains (qpn, true) else q.err
    if q.qid = 0 ∧ all = true ∧ !(s.assoc q.assoc).discovery then (s.endAssoc q.assoc).flow else s

/-- R102: capsules that a trail has of a queue pair whose other side is in the error state reach the ledger by report (DEDUCED, log
entry 150). -/
def State.tellCapsule (s : State) (k : Capsule) : State :=
  match tget k.qpn s.fab.qps with
  | some q =>
    if s.isTrail ∧ s.fab.ledErr.contains (k.qpn, !s.straps.twinId) = true then
      let e := capsuleEntry k q.port
      s.peerTell e
    else s
  | none => s

/-- R101: an error state that the ledger carries, of this twin's side or its peer's. -/
def State.qpErrEvent (qpn : Nat) (origin : Bool) (s : State) : State :=
  let x := (qpn, s.sideOf origin)
  let s := { s with fab := { s.fab with ledErr := x :: s.fab.ledErr.filter fun y => y != x } }
  (s.twn.capsules.filter fun k => k.qpn == qpn).foldl State.tellCapsule (s.errJudge qpn)

/-- A queue pair of this controller enters the error state: counted, raised, and entered in the ledger or reported; of a
discovery association, which is local (R97), not. -/
def State.qpError (s : State) (qpn : Nat) : State :=
  match tget qpn s.fab.qps with
  | none => s
  | some q =>
    if q.err then s
    else
      let s := { s with fab := { s.fab with qps := tput qpn { q with err := true } s.fab.qps } }
      let s := (s.bump F.FAB_PSTAT.QP_ERR q.port).raise 195
      if (s.assoc q.assoc).discovery then s
      else
      let e := connEntry qpn 3 q.port
      if s.isTrail then s.peerTell e else s.capture e (State.qpErrEvent qpn false)

/-- QUEUE_PAIR_ERROR (R99, R101). -/
def execQueuePairError (qpn : Nat) (s : State) : Res := s.awake <| .next (s.qpError qpn)

/-- RDMA_WRITE_FAILED (R94, R104): source 197; the queue pair goes to the error state. -/
def execRdmaWriteFailed (qpn : Nat) (s : State) : Res := s.awake <| .next ((s.raise 197).qpError qpn)

/-- ETHERNET_LINK_DOWN (R99, R103, R104): queue pairs keep their state. -/
def execEthernetLinkDown (port : Fin 2) (s : State) : Res := s.awake <|
  .next (((s.put F.FAB_PSTAT.LINK_UP port 0).put F.FAB_PSTAT.LINK_CHG port 1).raise (188 + port))

/-- ETHERNET_LINK_UP (R99, R104). -/
def execEthernetLinkUp (port : Fin 2) (s : State) : Res := s.awake <|
  .next ((((s.presetAt (33 + port)).put F.FAB_PSTAT.LINK_UP port 1).put F.FAB_PSTAT.LINK_CHG port 1).raise (190 + port))

/-! ### Congestion (R88 to R90) -/

/-- The sum of two dyadic numbers. -/
def Dy.add (a b : Dy) : Dy := { m := a.m * 2 ^ b.e + b.m * 2 ^ a.e, e := a.e + b.e }

/-- The product. -/
def Dy.mul (a b : Dy) : Dy := { m := a.m * b.m, e := a.e + b.e }

/-- Half of a number. -/
def Dy.half (a : Dy) : Dy := { a with e := a.e + 1 }

/-- 1 − a for a at most 1. -/
def Dy.compl (a : Dy) : Dy := { m := 2 ^ a.e - a.m, e := a.e }

/-- Is a below b? -/
def Dy.lt (a b : Dy) : Bool := decide (a.m * 2 ^ b.e < b.m * 2 ^ a.e)

/-- The nearer limit for a number outside a range. -/
def Dy.clamp (lo hi a : Dy) : Dy := if a.lt lo then lo else if hi.lt a then hi else a

/-- g of a port (R90), in units of 2^−16. -/
def State.ccG (s : State) (port : Nat) : Dy := { m := s.setting 0x20 port, e := 16 }

/-- The floor of a port. -/
def State.ccFloor (s : State) (port : Nat) : Dy := { m := s.setting 0x24 port }

/-- A queue pair is replaced. -/
def State.setQp (s : State) (qpn : Nat) (q : Qp) : State := { s with fab := { s.fab with qps := tput qpn q s.fab.qps } }

/-- NOTIFICATION_RECEIVED (R89). -/
def execNotificationReceived (qpn : Nat) (s : State) : Res := s.awake <|
  .next (match tget qpn s.fab.qps with
    | none => s
    | some q =>
      let g := s.ccG q.port
      let rc := (q.rc.mul q.alpha.half.compl).clamp (s.ccFloor q.port) lineRate
      (s.put F.FAB_PSTAT.CNP_RX q.port 1).setQp qpn { q with
        rt := q.rc
        rc := rc
        alpha := (g.compl.mul q.alpha).add g
        recov := 0 })

/-- ALPHA_PERIOD_EXPIRY (R89). -/
def execAlphaPeriodExpiry (qpn : Nat) (s : State) : Res := s.awake <|
  .next (match tget qpn s.fab.qps with
    | none => s
    | some q => s.setQp qpn { q with alpha := (s.ccG q.port).compl.mul q.alpha })

/-- RECOVERY_PERIOD_EXPIRY (R89): five halving steps, then the target climbs. -/
def execRecoveryPeriodExpiry (qpn : Nat) (s : State) : Res := s.awake <|
  .next (match tget qpn s.fab.qps with
    | none => s
    | some q =>
      let fl := s.ccFloor q.port
      let rt := if q.recov < 5 then q.rt else (q.rt.add { m := s.setting 0x23 q.port }).clamp fl lineRate
      s.setQp qpn { q with
        rt := rt
        rc := ((q.rc.add rt).half).clamp fl lineRate
        recov := if q.recov < 5 then q.recov + 1 else q.recov })

/-- CE_PACKET_RECEIVED (R88, R90): at most one notification per queue pair in the interval. -/
def execCePacketReceived (qpn : Nat) (s : State) : Res := s.awake <|
  .next (match tget qpn s.fab.qps with
    | none => s
    | some q =>
      let due := match tget qpn s.fab.lastCnp with
        | some t => decide (t + s.setting 0x25 q.port ≤ s.elapsed)
        | none => true
      if due then { s with fab := { s.fab with lastCnp := tput qpn s.elapsed s.fab.lastCnp } }.send (.cnp qpn) else s)

/-! ### Discovery (R97, R98) -/

/-- TWFLAGS of the entry of twin `t`: a survivor's own entry says that its peer is fenced. -/
def State.twFlags (s : State) (t : Bool) : Nat :=
  if !s.twinMode then 0
  else
    let mine := t == s.straps.twinId
    let lead := if mine then !s.isTrail else s.isTrail
    1 + 2 * lead.toNat + if mine ∧ s.twState = 3 then 4 else 0

/-- A discovery log entry for a port of a twin: RDMA, RoCEv2, Reliable Connected, RDMA connection manager, and the vendor fields. There is one
entry for a port's two addresses (R82, R97), by its IPv4 address (DESIGN CHOICE, log entry 153). What neither the manual nor this state
fixes (names) is free. -/
def State.discEntry (s : State) (no port : Nat) (t : Bool) : Bytes :=
  let b := freeRun no 1024
  let b := patchBytes b 0 [1, 1]
  let b := patchBytes b 512 (fitTo 256 (Config.ipAddr t port false))
  let b := patchBytes b 4 (leBytes 2 port)
  let b := patchBytes b 32 ([0x34, 0x34, 0x32, 0x30] ++ List.replicate 28 0x20)
  let b := patchBytes b 0x40 (leBytes 1 (s.twFlags t) ++ leBytes 1 t.toNat ++ leBytes 6 0 ++
    leBytes 8 (if s.twinMode then s.arb.pairId.toNat else 0))
  patchBytes b 768 [1, 4, 1]

/-- DISCOVERY_COMMAND (R97, R98, R104): one entry per port and twin. -/
def execDiscoveryCommand (port : Fin 2) (s : State) : Res := s.awake <|
  let s := s.raise 199
  let twins := if s.twinMode then [false, true] else [s.straps.twinId]
  let l := twins.flatMap fun t => [(0, t), (1, t)]
  let head := fitTo 1024 (freeRun s.freeNo 8 ++ leBytes 8 l.length)
  let body := l.zipIdx.flatMap fun e => s.discEntry (s.freeNo + 1 + e.2) e.1.1 e.1.2
  .next ({ s with freeNo := s.freeNo + 1 + l.length }.send (.discovery port (head ++ body)))

end Sys2Proof.Machine
end

