-- ==== Sys2Proof/Machine/Clock.lean ====
section
/-! DEFINITION. Housekeeping: temperatures, supplies and presence; pack sleep groups; drowse; and the oscillator
(chapter 19, R213). -/

namespace Sys2Proof.Machine

/-! ### Temperatures and supplies (R583 to R586) -/

/-- R585: the band of a temperature in 1/16 °C. -/
def tempBand (t : Int) : Nat := if t < 85 * 16 then 0 else if t < 95 * 16 then 1 else if t < 105 * 16 then 2 else 3

/-- R586: sensor `i`'s band: up at once, down after two consecutive rounds at least 3 °C below (source 222). -/
def State.tsBand (s : State) (i : Nat) (t : Int) : State :=
  let old := s.get F.HKP_TS.BAND i
  let low := tempBand (t + 47)
  let n := tgetD i 0 s.hkp.cool + 1
  let set := fun (s : State) (n : Nat) => { s with hkp := { s.hkp with cool := tput i n s.hkp.cool } }
  if old < tempBand t then ((set s 0).put F.HKP_TS.BAND i (tempBand t)).raise 222
  else if low < old then if 2 ≤ n then ((set s 0).put F.HKP_TS.BAND i low).raise 222 else set s n
  else set s 0

/-- The conversion of sensor `i`. -/
def State.tsRead (s : State) (e : Int × Nat) : State :=
  if 16 ≤ e.2 then s else (s.put F.HKP_TS.TEMP e.2 (e.1 % 65536).toNat).tsBand e.2 e.1

/-- The nominal supplies in mV (R583). PRESUMED for the three inside the package: the levels of HBM3. -/
def supplyNominal : List Nat := [750, 800, 900, 1200, 1800, 1100, 1800, 400]

/-- R583: supply `j`: out of range by more than 5 % in two consecutive rounds sets OOR and raises source 224. -/
def State.supRead (s : State) (e : Nat × Nat) : State :=
  if 8 ≤ e.2 then s
  else
    let nom := supplyNominal.getD e.2 0
    let bad := decide (100 * e.1 < 95 * nom ∨ 105 * nom < 100 * e.1)
    let n := if bad then tgetD e.2 0 s.hkp.supOut + 1 else 0
    let s := s.put F.HKP_SUP.MV e.2 e.1
    let s := { s with hkp := { s.hkp with supOut := tput e.2 n s.hkp.supOut } }
    if 2 ≤ n then (s.put F.HKP_SUP.OOR e.2 1).raise 224 else s

/-- The over and under thresholds of a controller on the composite temperature, in kelvin (R48, R584). -/
def Func.tempLimits (c : Func) : Nat × Nat :=
  ((tgetD 4 0xFFFF c.feat).toNat % 65536, (tgetD (4 + 65536 * 16) 0 c.feat).toNat % 65536)

/-- R584: does the composite temperature of the last captured sample lie beyond a threshold that a host has set? -/
def State.beyondLimit (s : State) : Bool :=
  let k := kelvin s.composite
  s.tenants.any fun t => decide ((s.ctl t).tempLimits.1 ≤ k ∨ k ≤ (s.ctl t).tempLimits.2)

/-- A crossing of a threshold raises source 223 and sets or clears Critical Warning bit 1 (R584, R594). -/
def State.judgeTemp (s : State) : State :=
  let hot := s.beyondLimit
  if hot = s.hif.crossOver then s
  else
    let s := { s with hif := { s.hif with crossOver := hot } }.raise 223
    if hot then s.critSet 1 else s.critClear 1

/-- R204: TEMP to every awake pack in service and to every pack in state 5. -/
def State.sendTemps (s : State) : State :=
  ((List.range 32).filter fun n => (s.pkState n == 7 && (s.pk n).svc) || s.pkState n == 5).foldl State.sendTemp s

/-- A list as a table by index. -/
def tblOf {β : Type} (l : List β) : Tbl β := l.zipIdx.map Prod.swap

/-- The last captured sample (R584). -/
def State.keepSample (s : State) (ts : List Int) (sup : List Nat) : State :=
  { s with hkp := { s.hkp with sample := tblOf ts, sampleSup := tblOf sup } }

/-- A captured sample takes effect (R30, R582, R584). -/
def State.useSample (ts : List Int) (sup : List Nat) (s : State) : State := (s.keepSample ts sup).judgeTemp.sendTemps

/-- The class 0x05 entry of a sample (R323). -/
def sampleEntry (round : Nat) (ts : List Int) (sup : List Nat) : LEntry :=
  { cls := 5, origin := false, toff := 0, payload := [round, 0] ++ ts.map (fun t => (t % 65536).toNat) ++ sup }

/-! ### Presence (R213) -/

/-- R214: has the running manifest an entry for a BRIDGE_TYPE? -/
def State.typeOk (s : State) (x : BitVec 32) : Bool := s.man.anyBridge || s.man.bridges.any fun c => c.typ == x

/-- The lane of port `n` is enabled and trains. -/
def State.laneOn (s : State) (n : Nat) : State := ((s.setSide n 2).put F.PKP_CTL.EN n 1).train n

/-- R211, R213: a present port whose BRIDGE_TYPE has been read over I2C trains, if the running manifest admits the type; else it is held (R214),
by a paired controller once ID_READ says so, for only that shapes twin-visible state. -/
def State.laneTry (s : State) (n : Nat) : State :=
  match (s.pk n).i2cType with
  | none => s
  | some x => if s.typeOk x then s.laneOn n else if s.on F.TWN_STAT.PAIRED then s else (s.setSide n 0).setPkState n 6

/-- A presence change takes effect: a port found present shows it, and trains once its type is known, a trail's at once (R213); a pack found
absent is lost. -/
def State.presence (n : Nat) (present : Bool) (s : State) : State :=
  let s := s.pkBit F.PKP_STAT.PRES_CHG n
  let p := s.pk n
  if present then
    if p.phase = 0 ∨ p.phase = 11 ∨ p.side = 3 ∨ p.side = 12 then
      let s := s.setSide n 1
      if s.isTrail then s.laneOn n else s.laneTry n
    else s
  else
    let s := (s.put F.PKP_STAT.LINK_UP n 0).setPk n { p with i2cType := none }
    if p.svc then s.packLost n else if p.phase = 11 then s else s.setPkState n 0

/-- The class 0x07 entry of a presence change (R323). -/
def presenceEntry (n : Nat) (present : Bool) : LEntry :=
  { cls := 7, origin := false, toff := 0, payload := [if present then 3 else 4, n, present.toNat, 0] }

/-- One port's poll: its presence changes after two consecutive rounds; a present memory that does not acknowledge is an
unexpected NAK. The BRIDGE_TYPE of a port that is present has then been read, and its lane is enabled (R213). -/
def State.pollPort (ack : BitVec 32) (types : Tbl (BitVec 32)) (s : State) (n : Nat) : State :=
  let bus := n / 4
  let was := (s.get F.HKP_I2C.PRESENT bus).testBit (n % 4)
  let now := ack.getLsbD n
  if was = now then
    let s := { s with hkp := { s.hkp with absent := tdel n s.hkp.absent } }
    match tget n types with
    | some x =>
      let s := if was then s.setPk n { s.pk n with i2cType := some x } else s
      if (s.pk n).side = 1 then s.laneTry n else s
    | none => s
  else
    let s := if was then s.bump F.HKP_I2C.NAKS bus else s
    if tgetD n 0 s.hkp.absent + 1 < 2 then { s with hkp := { s.hkp with absent := tput n 1 s.hkp.absent } }
    else
      let s := { s with hkp := { s.hkp with absent := tdel n s.hkp.absent } }
      let s := s.put F.HKP_I2C.PRESENT bus (s.get F.HKP_I2C.PRESENT bus ^^^ 2 ^ (n % 4))
      s.capture (presenceEntry n now) (State.presence n now)

/-- A bus whose line was held low for more than 10 ms has been reset (source 221). -/
def State.pollBus (stuck : BitVec 8) (s : State) (b : Nat) : State :=
  let s := s.put F.HKP_I2C.STUCK b (stuck.getLsbD b).toNat
  if stuck.getLsbD b then (s.bump F.HKP_I2C.RESETS b).raise 221 else s

/-! ### The round (R582) -/

/-- HOUSEKEEPING_ROUND (R582): in drowse only the sensors and supplies are read (R576). A port that `lines` names is
degraded (FAB_PSTAT.FEC_DEG, R104). -/
def execHousekeepingRound (durUs : Nat) (ts : List Int) (sup : List Nat) (ack : BitVec 32) (lines : HkpLines)
    (s : State) : Res := s.awake <|
  .next (
    let s := [0, 1].foldl (fun s p => if lines.fec.getLsbD p then (s.put F.FAB_PSTAT.FEC_DEG p 1).raise 201 else s)
      ((s.runTask taskHousekeeping 8000 durUs).hwPulse 1)
    let s := { s with hkp := { s.hkp with round := (s.hkp.round + 1) % 2 ^ 32 } }
    let s := ts.zipIdx.foldl State.tsRead s
    let s := (sup.zipIdx.foldl State.supRead s).tallySample ts
    let s := ((s.bandRound 0).bandRound 1).raise 220
    if s.get F.CPM_PSTATE.STATE ≠ 0 then (s.keepSample ts sup).judgeTemp
    else
      let s := s.capture (sampleEntry s.hkp.round ts sup) (State.useSample ts sup)
      let s := (List.range 32).foldl (State.pollPort ack lines.types) s
      ((List.range 8).foldl (State.pollBus lines.stuck) s).flow)

/-- OSCILLATOR_TRIM (R570, R594): a trim outside ±500 ppm raises source 229. -/
def execOscillatorTrim (ppm : Int) (s : State) : Res := .next (if ppm < -500 ∨ 500 < ppm then s.raise 229 else s)

/-- DOMAIN_GATE_IDLE (R571): the gate of a domain closes; DOM[0] is always on. -/
def execDomainGateIdle (d : Fin 112) (s : State) : Res := s.awake <|
  .next (if d.val = 0 ∨ s.get F.CPM_PSTATE.STATE ≠ 0 then s
    else s.put F.CPM_DOM_STAT.OPEN (d / 32) (insBits (d % 32) (d % 32) (s.get F.CPM_DOM_STAT.OPEN (d / 32)) 0))

/-! ### Sleep groups (R580) -/

/-- Has an open convoy block, a victim, a rebuild or a refresh a member in the group? -/
def State.groupWork (s : State) (g : Nat) : Bool :=
  let mine := fun (c : Cb) => c.members.any fun m => !m.lost && s.get F.PKP_CTL.SGRP m.port == g
  let queued := s.conv.victim.toList ++ s.conv.refreshQ ++ s.conv.refreshing ++
    match s.conv.rebuild with
    | some r => [r.cbid]
    | none => []
  s.conv.cbt.any fun e => mine e.2 && (e.2.state == 1 || e.2.rbclass != 0 || queued.contains e.1)

/-- Is the group idle: nothing but TEMP outstanding or waiting on its packs? -/
def State.groupIdle (s : State) (g : Nat) : Bool :=
  (s.groupPacks g).all fun n => (s.pk n).heldCmds.isEmpty && (s.pk n).outst.all fun o => o.use == .temp

/-- A group goes to a sleep level: SLEEP to every pack of it that is brought up and not that deep yet (R200). -/
def State.sleepGroup (s : State) (g level : Nat) : State :=
  let l := (s.groupPacks g).filter fun n => decide (5 ≤ s.pkState n ∧ s.pkState n ≤ 7) || (level == 2 && s.pkState n == 8)
  if l.isEmpty || s.groupWork g || !s.groupIdle g then s
  else
    let s := l.foldl (fun s n => s.packSend n (.sleep level) { cseq := 0, opc := 0x0B, param := BitVec.ofNat 64 level }) s
    { s with hkp := { s.hkp with sleep := tput g level s.hkp.sleep } }.raise 225

/-- SLEEP_GROUP_LIGHT (R580): SG_LIGHT_MS of idleness have passed. -/
def execSleepGroupLight (g : Fin 8) (s : State) : Res := s.awake <| .next (s.sleepGroup g 1)

/-- SLEEP_GROUP_DEEP (R580): SG_DEEP_S of idleness have passed; SG_DEEP_EN permits it. -/
def execSleepGroupDeep (g : Fin 8) (s : State) : Res := s.awake <| .next (if s.setting 0x46 g = 1 then s.sleepGroup g 2 else s)

/-! ### Drowse (R574, R575) -/

/-- R575, R591: does the next run of task `t` with period `p` start within 1 ms? A task that has never run is not due. -/
def State.dueSoon (s : State) (t p : Nat) : Bool :=
  (tget t s.hkp.taskStart).isSome && decide ((s.nextRun t p).1 ≤ s.elapsed + 1000)

/-- R575, R576: is a periodic task with work pending due within 1 ms: the tally interval, a scrub burst, a checkpoint round with dirty
pages? -/
def State.taskSoon (s : State) : Bool :=
  (s.tallyOn && s.dueSoon taskTally (s.setting 0x30 * 1000000)) ||
    (!s.inService.isEmpty && decide (9000 ≤ s.conv.scrubIdle) && s.dueSoon taskScrub 100000) ||
    (!s.dirtyPages.isEmpty && s.dueSoon taskCheckpoint (s.setting 0x06 * 1000000))

/-- R575: is there nothing at all to do? -/
def State.restful (s : State) : Bool :=
  s.hif.ctxs.isEmpty && s.mapWaiting.isEmpty && s.map.freeLater.isEmpty && s.map.itemWait.isEmpty && s.map.backs.isEmpty && s.keys.waitJobs.isEmpty && s.cmpWait.isEmpty && s.nor.descs.isEmpty &&
    s.conv.wait.isEmpty && s.gateWait.isEmpty && !s.taskSoon &&
    ((List.range 64).all fun n => s.on F.PTR_STAT.IDLE n) &&
    s.map.overlay.isEmpty && s.conv.flights.isEmpty && (s.conv.acc.all fun e => !e.2.filled) &&
    s.mode == .idle && s.conv.rebuild.isNone && s.conv.refreshQ.isEmpty && s.conv.refreshing.isEmpty &&
    (s.conv.cbt.all fun e => e.2.rbclass == 0) &&
    (match s.pow.progress with
      | some p => p.state != 1
      | none => true) &&
    (List.range 32).all fun n => s.get F.PKP_STAT.STATE n == 0 || s.pkState n == 9

/-- DROWSE_ENTRY (R574, R575): DROWSE_IDLE_US have passed; only a solo controller with DROWSE_EN drowses (source 226). -/
def execDrowseEntry (s : State) : Res := s.awake <|
  .next (if s.twState ≠ 0 ∨ s.setting 0x40 ≠ 1 ∨ s.get F.CPM_PSTATE.STATE ≠ 0 ∨ s.restful = false then s
    else
      let s := s.put F.CPM_PSTATE.STATE 0 1
      let s := { s with hkp := { s.hkp with pll := 1 } }
      let s := (List.range 4).foldl (fun s k => s.put F.CPM_DOM_STAT.OPEN k (if k = 0 then 1 else 0)) s
      s.raise 226)

end Sys2Proof.Machine
end

