-- ==== Sys2Proof/Machine/Power.lean ====
section
/-! DEFINITION. Stopping: the power-loss dump, thermal shutdown and resets (R284 to R294, R587 to R590, R626). -/

namespace Sys2Proof.Machine

/-! ### The dump (R286 to R294) -/

/-- R286, step 3: PROGRAM of every data page that an open convoy has accumulated; a block whose headers are not programmed yet
takes none. -/
def State.dumpPages (s : State) (e : Nat × OpenCv) : State :=
  let o := e.2
  let c := s.cb o.cbid
  if !c.hdr.isEmpty then s
  else
    let pages := o.got.map fun g => (dataPos c.w c.nextPage g.1, s.rdBytes g.2 16384)
    (c.programs c.nextPage pages).foldl (fun s x => s.packSend x.1 .landing x.2.1) s

/-- Does a PROGRAM to pack `n` leave at once? -/
def State.sendsNow (s : State) (n : Nat) : Bool :=
  s.reachable n && !s.asleep n && !s.on F.PKP_CTL.HOLD n && (s.pk n).tempOk

/-- R288: the data indices of an open convoy whose PROGRAM leaves. -/
def State.dumpSent (s : State) (o : OpenCv) : List (Nat × Nat) :=
  let c := s.cb o.cbid
  if !c.hdr.isEmpty then []
  else o.got.filter fun g => match c.members[dataPos c.w c.nextPage g.1]? with
    | some x => s.sendsNow x.port
    | none => false

/-- R288: the open convoys as they are dumped: the data indices sent. -/
def State.dumpAccs (s : State) : Tbl OpenCv :=
  (s.conv.acc.map fun e => (e.1, { e.2 with got := s.dumpSent e.2 })).filter fun e => e.2.filled

/-- R288: the accumulator of an open convoy without the pages that were not sent. -/
def State.dumpPar (s : State) (e : Nat × OpenCv) : Nat × Bytes :=
  let sent := s.dumpSent e.2
  let gone := (e.2.got.filter fun g => !sent.contains g).map fun g => (g.1, s.rdBytes g.2 16384)
  (e.2.cbid, xorBytes (s.rdBytes (s.accBase e.1) 16384) (pOf gone) ++ xorBytes (s.rdBytes (s.accBase e.1 + 16384) 16384) (qOf gone))

/-- What the dump holds (R286 to R288, R294): every block in protected staging whose write has not been overtaken by a commit
(R121), by fetch stamp, the journal tail, with the closed blocks that are not in packs (R141), and the open convoys. -/
def State.dumpOf (s : State) (cause half : Nat) : Dump :=
  { cause := cause
    seq := s.pow.dumpSeq + 1
    half := half
    dtime := s.dtime
    epoch := s.epoch
    fstampMax := s.hif.nextStamp - 1
    cseq := (List.range 32).map fun n => s.get F.PKP_CSEQ.NEXT n
    closed := s.map.jblocks.filter fun b => !b.programmed
    tail := s.map.openJ
    accs := s.dumpAccs
    staged := sortBy (fun a b => decide (a.stamp.toNat ≤ b.stamp.toNat))
      (s.map.overlay.filter fun x => !s.outdated x.nsid x.bale x.blk x.stamp)
    par := (s.conv.acc.filter fun e => !(s.dumpSent e.2).isEmpty).map s.dumpPar
    ndesc := 0
    nblocks := 0
    ended := false }

/-! ### The pages of a dump (R292 to R294) -/

/-- The records of a dump's journal tail. -/
def Dump.recs (d : Dump) : List JRec := d.closed.flatMap (fun b => b.recs) ++ d.tail

/-- R294: the header page: the header, NSMAP at 0x200 and the PKP_CSEQ array at CSEQ_BASE, where the model puts it at 0x400. -/
def Dump.headerPage (d : Dump) (w : Nat) : Bytes :=
  let last := match d.recs.getLast? with
    | some r => r.jseq
    | none => 0
  let b := leBytes 4 0x444E414C ++ leBytes 2 1 ++ leBytes 1 d.half ++ leBytes 1 d.cause ++ leBytes 8 d.seq ++ leBytes 8 d.dtime.toNat ++
    leBytes 2 d.epoch.toNat ++ leBytes 2 w ++ leBytes 4 d.staged.length ++ leBytes 8 last ++ leBytes 8 d.fstampMax.toNat ++
    leBytes 8 0x400 ++ List.replicate 452 0
  let map := (d.staged.map fun x => x.nsid - 1).eraseDups.foldl (fun a k => a + 2 ^ k) 0
  b ++ leBytes 4 (crc32c b).toNat ++ leBytes 512 map ++ d.cseq.flatMap (leBytes 4) ++ List.replicate 15232 0

/-- A commit that waits, in the open-convoy record (R288). -/
def Placed.dumpBytes (p : Placed) : Bytes :=
  leBytes 2 p.nsidx ++ leBytes 1 (match p.kind with
    | .host => 0
    | .repack => 1
    | .reloc => 2) ++ leBytes 1 (match p.blk with
    | some b => b
    | none => 0xFF) ++ leBytes 4 p.inst.toNat ++ leBytes 8 p.bale ++ leBytes 8 p.value.toNat ++ leBytes 8 p.fstamp.toNat

/-- R288: the record of an open convoy: its block, the mask of data indices accepted, its commits, and its accumulator. -/
def Dump.convoyBytes (d : Dump) (x : Nat × OpenCv) : Bytes :=
  let mask := (x.2.got.map Prod.fst).eraseDups.foldl (fun a k => a + 2 ^ k) 0
  leBytes 4 x.2.cbid ++ leBytes 2 mask ++ leBytes 2 x.2.items.length ++ x.2.items.flatMap Placed.dumpBytes ++
    (d.par.filter fun p => p.1 == x.2.cbid).flatMap Prod.snd

/-- R294: a staging descriptor, its data at offset `off` of section 4. -/
def State.stagingDesc (s : State) (x : Staged) (off : Nat) : Bytes :=
  leBytes 4 x.nsid ++ leBytes 4 (s.instOf x.nsid).toNat ++ leBytes 8 (s.lbaOf x.nsid x.bale x.blk) ++ leBytes 8 x.stamp.toNat ++
    leBytes 2 (x.data.data.length + x.data.md.length) ++ leBytes 6 off

/-- The staging descriptors, in order. -/
def State.stagingDescs (s : State) : Nat → List Staged → Bytes
  | _, [] => []
  | off, x :: t => s.stagingDesc x off ++ State.stagingDescs s (off + (x.data.data.length + x.data.md.length)) t

/-- R294: the landing pages of a section: each begins with its section header, and ends in zeros. -/
def sectionPages (seq typ first : Nat) (b : Bytes) : List Bytes :=
  (List.range ((b.length + 16351) / 16352)).map fun k =>
    let part := (b.drop (16352 * k)).take 16352
    let h := leBytes 1 typ ++ leBytes 8 seq ++ leBytes 4 (first + k) ++ List.replicate 15 0
    let body := part ++ List.replicate (16352 - part.length) 0
    h ++ leBytes 4 (crc32c (h ++ [0, 0, 0, 0] ++ body)).toNat ++ body

/-- R294: the pages of a dump in their order, before they are enciphered; an end record closes it. -/
def State.landingPages (s : State) (d : Dump) (w : Nat) : List Bytes :=
  let add := fun (l : List Bytes) (x : Nat × Bytes) => l ++ sectionPages d.seq x.1 l.length x.2
  [(1, d.recs.flatMap JRec.bytes), (2, d.accs.flatMap d.convoyBytes), (3, s.stagingDescs 0 d.staged),
    (4, d.staged.flatMap fun x => x.data.data ++ x.data.md), (5, leBytes 8 d.seq)].foldl add [d.headerPage w]

/-- Where landing page `t` of those that go to pack `n` lies in half `half`: its dies in turn, in SLC pages of the half's blocks. -/
def State.landingAt (s : State) (half n t : Nat) : Option PackCmd :=
  match (s.pk n).id with
  | none => none
  | some i =>
    let dies := s.diesIn n
    let slc := i.pages / i.bpc
    if dies.isEmpty || slc = 0 then none
    else
      let p := t / dies.length
      let d := dies.getD (t % dies.length) 0
      (s.lzBlock n d i (half * (i.lzBlk / 2) + p / slc)).map fun b =>
        { cseq := 0, opc := 3, flags := 1, die := d, block := b, page := p % slc }

/-- R292: landing convoy `k` of a dump: its w − 2 pages with P and Q, on w packs in service, which take turns. -/
def State.landingConvoy (s : State) (half w k : Nat) (pages : List Bytes) : State :=
  let packs := s.inService
  let data := (List.range (w - 2)).map fun i => (i, pages.getD i zeroPage)
  let all := data.map (fun x => (dataPos w k x.1, x.2)) ++ [(pPos w k, pOf data), (qPos w k, qOf data)]
  (sortBy (fun a b => decide (a.1 ≤ b.1)) all).foldl (fun s x =>
    let t := k * w + x.1
    let n := packs.getD (t % packs.length) 0
    match s.landingAt half n (t / packs.length) with
    | some c => s.packSend n .landing { c with data := ldpcPage x.2 }
    | none => s) s

/-- R286: the pages of a dump are sent, enciphered, in their order (R294). -/
def State.landingSend (s : State) (d : Dump) : State :=
  let w := s.width
  if w = 0 then s
  else
    let pages := ((s.landingPages d w).zipIdx).map fun x => s.landingPage d.seq x.2 (if x.2 = 0 then 512 else 32) x.1
    (List.range ((pages.length + (w - 3)) / (w - 2))).foldl (fun s k =>
      s.landingConvoy d.half w k ((pages.drop ((w - 2) * k)).take (w - 2))) s

/-- R578: the controller leaves drowse: PLLs, gates and HBM. -/
def State.leaveDrowse (s : State) : State :=
  let s := s.put F.CPM_PSTATE.STATE 0 0
  let s := { s with hkp := { s.hkp with pll := 2, hbmOn := true } }
  (List.range 4).foldl (fun s k => s.put F.CPM_DOM_STAT.OPEN k (if k < 3 then 2 ^ 32 - 1 else 0xFFFF)) s

/-- The half without an unreleased dump (R292). -/
def State.dumpHalf (s : State) : Nat :=
  match s.pow.dump with
  | some d => 1 - d.half
  | none => s.pow.half

/-- The dump becomes the newest one. Where both halves hold dumps that are not released, a dump takes that of the older one: the manual does not
say (DESIGN CHOICE, log entry 157). -/
def State.keepDump (s : State) (d : Dump) : State :=
  { s with pow := { s.pow with
    older := if s.pow.dump.isSome then s.pow.dump else s.pow.older
    dump := some d
    relJseq := none
    dumpSeq := d.seq
    half := 1 - d.half } }

/-- R286, steps 1 to 5; a dump in progress goes on (R588). The half is the one without an unreleased dump (R292). Before ready
nothing is staged, and only step 6 follows. -/
def State.dumpStart (s : State) (cause : Nat) : State :=
  if s.pow.dumping then s
  else
    let s := { s with
      hif := { s.hif with fetchStop := true }
      pow := { s.pow with dumping := true, writing := false } }
    if !s.health.ready || s.get F.CPM_PSTATE.STATE == 2 then s
    else
      let s := if s.get F.CPM_PSTATE.STATE == 1 then s.leaveDrowse else s
      let d := s.dumpOf cause s.dumpHalf
      let s := s.conv.acc.foldl State.dumpPages s
      let s := (s.logSys { typ := 7, arg := d.seq * 2 + d.half }).landingSend d
      { s with pow := { s.pow with writing := true } }.keepDump d

/-- R286, R588: the controller goes down: its transmitters idle and it holds itself in reset; `stop` is the CAUSE that the
next start reports. -/
def State.goDown (s : State) (stop : Nat) : State :=
  let s := s.send (.pin 2 false)
  { s with inReset := true, pow := { s.pow with dumping := false, writing := false, lastStop := stop } }

/-- The running dump is complete: every descriptor, every block and the end record are programmed. -/
def Dump.finish (d : Dump) : Dump :=
  if d.ended then d else { d with ndesc := d.staged.length, nblocks := d.staged.length, ended := true }

/-- DUMP_END: step 6 of R286, or step 5 of R588: DTIME and the epoch are written to secure NOR. A stop that wrote no dump is reported as
one, for CAUSE 1 takes an end record (R307). -/
def execDumpEnd (s : State) : Res := s.awake <|
  .next (if !s.pow.dumping then s
    else
      let hot := s.on F.HKP_TRIP.TRIPPED
      let stop := if hot then 3 else if s.pow.writing then 1 else 5
      let s := { s with pow := { s.pow with
        dump := if s.pow.writing then s.pow.dump.map Dump.finish else s.pow.dump
        savedDtime := s.dtime
        savedEpoch := s.epoch } }
      let s := if hot then { s with hkp := { s.hkp with thermtripLow := true } }.send (.pin 1 false) else s
      s.goDown stop)

/-- R286: PWRFAIL_N takes effect. -/
def State.powerFail (s : State) : State := (s.raise 0).dumpStart 1

/-! ### Thermal shutdown (R587 to R590) -/

/-- Is this controller one of a pair: lead, trail or joiner (R589)? -/
def State.inPair (s : State) : Bool := s.on F.TWN_STAT.PAIRED || (s.arb.rj.active && s.arb.rj.joiner)

/-- THERMAL_TRIP (R587): a pair's member is fenced by the arbiter and does not dump (R589); a solo controller or a survivor
shuts down (R588). -/
def execThermalTrip (sensor : Fin 16) (s : State) : Res :=
  .next (if s.on F.HKP_TRIP.TRIPPED then s
    else
      let s := (((s.put F.HKP_TRIP.TRIPPED 0 1).put F.HKP_TRIP.SENSOR 0 sensor).raise 1)
      if s.on F.PMC_DBG_STAT.FROZEN then { s with hkp := { s.hkp with thermtripLow := true } }.send (.pin 1 false)
      else if s.inPair then
        let s := (s.setFault 9).send (.pin 2 false)
        { s with hkp := { s.hkp with thermtripLow := true } }.send (.pin 1 false)
      else s.norThermal.dumpStart 2)

/-- THERMTRIP_TIMEOUT (R590): 250 ms after the trip the controller is held in reset, whatever firmware does. -/
def execThermtripTimeout (s : State) : Res :=
  .next (if !s.on F.HKP_TRIP.TRIPPED || s.inReset then s
    else
      let s := if s.hkp.thermtripLow then s else { s with hkp := { s.hkp with thermtripLow := true } }.send (.pin 1 false)
      { s with inReset := true, pow := { s.pow with dumping := false, writing := false, lastStop := 3 } })

/-! ### A reset in operation (R626) -/

/-- Was the last shutdown complete, with nothing enabled since (R311)? -/
def State.cleanStop (s : State) : Bool :=
  s.pow.shutDone && s.stagingInPacks && (List.range 66).all fun f => !s.on F.CC.EN f || s.get F.CSTS.SHST f == 2

/-- The reset: a dump in progress is cut short after `descs` descriptors and `blocks` blocks; without one nothing is dumped. -/
def State.resetNow (s : State) (descs blocks : Nat) : State :=
  if s.inReset then s
  else
    let cut := fun (d : Dump) => if d.ended then d else
      { d with ndesc := min descs d.staged.length, nblocks := min blocks (min descs d.staged.length) }
    let stop := if s.on F.HKP_TRIP.TRIPPED then 3 else if s.pow.writing then 2 else if s.cleanStop && !s.pow.dumping then 0 else 5
    { s with
      inReset := true
      pow := { s.pow with
        dump := if s.pow.writing then s.pow.dump.map cut else s.pow.dump
        dumping := false
        writing := false
        lastStop := stop } }

/-- POWER_RESET (R626): POR_N or PWR_OK falls. -/
def execPowerReset (descs blocks : Nat) (s : State) : Res := .next (s.resetNow descs blocks)

end Sys2Proof.Machine
end

