-- ==== Sys2Proof/Machine/Boot.lean ====
section
/-! DEFINITION. Start-up: what survives a stop, the choice of the firmware slot, the replay of the landing zones, ready; and the
power states drowse and dormant (R28, R300 to R311, R446, R449, R573 to R579, R624, R640). -/

namespace Sys2Proof.Machine

/-! ### Settings that registers show (R477) -/

/-- A setting that is kept in a register takes effect there. -/
def State.applySetting (s : State) (id index : Nat) : State :=
  let v := s.setting id index
  match id with
  | 0x04 => s.put F.MAP_CACHE_CFG.PAGES 0 v
  | 0x05 => s.put F.MAP_PTAB_CFG.LOG2N 0 v
  | 0x0D => s.put F.PKP_CTL.SGRP index v
  | 0x0E =>
    let s := s.put F.TWN_CTL.STAGE_US 0 v
    if s.staged then if s.isTrail then s else { s with twn := { s.twn with newUs := some v } }
    else { s with twn := { s.twn with openUs := v } }
  | 0x0F => s.put F.TWN_CTL.LAG_LIM 0 v
  | _ => s

/-- R646: a start in 2 × x8 mode that finds the counted floors above the limit takes the floor of index 65 as 0 until it is set
again, and posts a notice. -/
def State.floorsAtStart (s : State) : State :=
  if s.straps.linkMode && decide (1048576 < s.floorSum) then
    ({ s with setv := { s.setv with val := tset (settingDefault 1 65) (settingKey 1 65) 0 s.setv.val } }.sgenUp).notice 1 0x01 65
  else s

/-- Every such setting takes effect at a start. -/
def State.applySettings (s : State) : State :=
  let s := s.floorsAtStart
  let s := ([0x04, 0x05, 0x0E, 0x0F] : List Nat).foldl (fun s i => s.applySetting i 0) s
  (List.range 32).foldl (fun s n => s.applySetting 0x0D n) s

/-! ### The choice of a slot (R305, R446, R447) -/

/-- Does slot `k` hold a package that passes R440? -/
def State.slotPasses (s : State) (e : BootEnv) (k : Nat) : Bool :=
  (tget k s.fw.slots).isSome && if k = 0 then e.slotAok else e.slotBok

/-- The selector record is written: the slot runs as confirmed, with the cause of a fallback. -/
def State.selectSlot (s : State) (k fb : Nat) : State :=
  s.selWrite fun w => { w with active := k, pendingSel := false, tries := 0, lastfb := fb }

/-- R446: the boot ROM chooses a slot; none: recovery mode. -/
def State.chooseSlot (s : State) (e : BootEnv) : Option State :=
  let s := if !s.fw.pendingSel then s
    else if 3 ≤ s.fw.tries then s.selectSlot (1 - s.fw.active) 2
    else s.selWrite fun w => { w with tries := w.tries + 1 }
  let k := s.fw.active
  if !e.recovN then none
  else if s.slotPasses e k then some { s with fw := { s.fw with running := k } }
  else if s.slotPasses e (1 - k) then
    let s := s.selectSlot (1 - k) 1
    some { s with fw := { s.fw with running := 1 - k } }
  else none

/-! ### What survives a stop (R28, R311) -/

/-- R405, R411: the wrapped records: nonces go on from the stored mark, and a slot whose erase was pending is erased. -/
def KeySlot.atStart (k : KeySlot) : KeySlot :=
  if k.pend = some .erase then { gen := k.gen + 1 }
  else { k with nctr := k.hwm, rsv := 0, inuse := 0, pend := none }

/-- The keys after a stop: the wrapped key store, its records with LOADED unwrapped (R411), the DTS, the enrolled keys and the generations. -/
def Keys.atStart (k : Keys) : Keys :=
  let flag := fun (e : Nat × KeySlot) => { e.2.atStart with loaded := e.2.atStart.loaded || k.flagged.contains e.1 }
  { slots := (k.slots.filter fun e => e.2.wrapped).map fun e => (e.1, flag e)
    defaults := k.defaults
    dts := k.dts
    auth := k.auth
    genTx := k.genTx
    genRx := k.genRx
    srkFirst := k.srkFirst
    nonceWarned := k.nonceWarned }

/-- The convoy block table and the erase counts (R227, R295); what was in progress is not. Blocks of a rebuild that did not
end are not erased; blocks being emptied for refresh are queued again (R265). -/
def Conv.atStart (c : Conv) : Conv :=
  let st3 := fun (why : Nat) => (c.cbt.filter fun e => e.2.state == 3 && e.2.empty == why).map Prod.fst
  { cbt := c.cbt
    erase := c.erase
    erased := c.erased
    erasing := c.erasing
    spoilt := c.spoilt ++ match c.rebuild with
      | some r => [(r.new.port, r.new.die, r.new.block)]
      | none => []
    retired := c.retired
    gone := c.gone
    dieOut := c.dieOut
    dieIn := c.dieIn
    eraseEpoch := c.eraseEpoch
    syslog := c.syslog
    anchor := c.anchor
    nextLseq := c.nextLseq
    back := c.back
    victim := (st3 1).head?
    refreshQ := st3 2
    scrubHalf := c.scrubHalf
    scrubMid := c.scrubMid
    scrubCb := c.scrubCb }

/-- The map as the packs hold it: the checkpoint, the journal blocks programmed, and the stored grains (R28). JSEQ goes on after the last
record in packs. -/
def MapS.atStart (m : MapS) : MapS :=
  let jb := m.jblocks.filter fun b => b.programmed
  let last := (jb.flatMap fun b => b.recs).foldl (fun n r => max n r.jseq) (m.ckpt.foldl (fun n c => max n c.2.jseq) m.durAt)
  { entries := (m.ckpt.flatMap fun c => c.2.es).foldl (fun t e => tput e.1 e.2 t) []
    patches := m.durP
    durP := m.durP
    durAt := m.durAt
    nextJseq := if m.relJseq ≤ last then last + 1 else m.relJseq + 1
    relJseq := m.relJseq
    jblocks := jb
    ckptRound := m.ckptRound
    ckpt := m.ckpt
    ckptLocs := m.ckptLocs
    store := m.store
    freedAt := m.freedAt }

/-- Namespaces, log pages and counts that secure NOR holds; every queue, context and event ends (R311). -/
def Hif.atStart (h : Hif) (latched : Bool) : Hif :=
  { ns := h.ns
    nsGen := h.nsGen
    nextStamp := h.nextStamp
    err := h.err
    errCount := h.errCount
    poisoned := h.poisoned
    notices := h.notices
    nlost := h.nlost
    crit := h.crit &&& if latched then 0x0D else 0x05
    dataRead := h.dataRead
    dataWritten := h.dataWritten
    readCmds := h.readCmds
    writeCmds := h.writeCmds
    mediaErrs := h.mediaErrs
    powerCycles := h.powerCycles + 1
    unsafe_ := h.unsafe_
    capExceeded := h.capExceeded
    physWarn := h.physWarn
    selfTest := h.selfTest
    fetchStop := true }

/-- A pack after a stop: it is brought up anew. -/
def Pack.atStart (p : Pack) : Pack := { home := p.svc || p.home, sn := p.sn }

/-- R604: the erase of region 2 that a clear of the tally records is. -/
def tallyErase : NorDesc :=
  { idx := 0, op := 4, d := { core := 0, flags := 0, count := 128, nor := 0x2000000, addr := 0, len := 0, mbz := true } }

/-- R562, R604: what an operation of secure NOR that the stop interrupted was. -/
def State.norBroken (s : State) : Option NorDesc :=
  match s.norRunning, s.nor.abandoned with
  | some x, _ => some x
  | none, some x => some x
  | none, none => match s.norSuspended with
    | some x => some x
    | none => if s.on F.TLY_STAT.CLEARING then some tallyErase else none

/-- R563, R604: an interrupted clear is completed: the region is erased again. -/
def State.tallyRedo (s : State) : State :=
  if s.on F.SNF_INTR.VALID ∧ s.get F.SNF_INTR.KIND = 3 ∧ s.get F.SNF_INTR.NOR = 0x2000000 then s.norErase tallyErase.span else s

/-- R562, R567: secure NOR at a reset: PROT, ATTEMPTS and LOCKOUT stay and no region is open; SNF_INTR names the interrupted
operation (source 217), whose words or sectors are undefined; a bad configuration block closes everything (source 6). -/
def State.norAtStart (s old : State) (cfgOk : Bool) : State :=
  let s := (List.range 16).foldl (fun s r =>
    let s := s.setReg .SNF_RGN r (old.reg .SNF_RGN r)
    (s.put F.SNF_RGN.OPEN r 0).put F.SNF_RGN.OPENER r 0) s
  let s := (s.put F.SNF_STAT.REMAPS 0 (old.get F.SNF_STAT.REMAPS)).put F.SNF_STAT.SPARES 0 (old.get F.SNF_STAT.SPARES)
  let s := match old.norBroken with
    | none => s
    | some x =>
      let s := ((s.put F.SNF_INTR.VALID 0 1).put F.SNF_INTR.ABANDONED 0 old.nor.abandoned.isSome.toNat).put F.SNF_INTR.KIND 0 (x.op - 1)
      let s := ((s.put F.SNF_INTR.COUNT 0 x.d.count).put F.SNF_INTR.LEN 0 x.d.len).put F.SNF_INTR.NOR 0 x.d.nor
      { s with nor := { s.nor with undef := s.nor.undef ++ [x.span] } }.raise 217
  if cfgOk then s
  else
    let s := { s with nor := { s.nor with remap := [] } }
    let s := (s.put F.SNF_STAT.CFGERR 0 1).raise 6
    (List.range 16).foldl (fun s r => (s.put F.SNF_RGN.PROT r 1).put F.SNF_RGN.LOCKOUT r 1) s

/-- R599: the first record slot whose first word reads erased. -/
def State.tallyNext (s : State) : Nat :=
  ((List.range 2048).find? fun i => (s.norBytes (tallyAt i) 8).all fun b => b == 0xFF).getD 2048

/-- What a start keeps: registers at their reset values but U (R133), straps as sampled (R624), what persists. -/
def State.kept (s : State) (e : BootEnv) : State :=
  { straps := { twinId := e.twinId, linkMode := e.linkMode, recovN := e.recovN, testEn := e.testEn }
    snor := s.snor
    dtime := s.pow.savedDtime
    epoch := s.pow.savedEpoch
    freeNo := s.freeNo
    sgen := s.sgen
    hbm := { soft := s.hbm.soft, spareTotal := s.hbm.spareTotal }
    nor := { progs := s.nor.progs, remap := s.nor.remap, undef := s.nor.undef, pwd := s.nor.pwd }
    packs := s.packs.map fun p => (p.1, p.2.atStart)
    hif := s.hif.atStart s.health.latched
    map := s.map.atStart
    conv := s.conv.atStart
    regs := s.regs.filter fun r => keyOf .MAP_CAP_USABLE r.1
    health := { s.health with ready := false, readOnly := s.health.latched, roFrom := 0 }
    pow := { s.pow with
      dumping := false
      writing := false
      shutDone := false
      synch := true
      boot := none
      fenceA := false
      entering := false
      relJseq := none }
    setv := { s.setv with val := s.setv.pend.foldl (fun t p => tput p.1 p.2 t) s.setv.val, pend := [] }
    fw := { s.fw with stage := [], owner := none, testNext := false, testMode := s.fw.testNext, upd := none }
    keys := s.keys.atStart
    arb := { fenceLow := s.arb.fenceLow, outcast := s.arb.fenceLow }
    out := s.out
    pending := s.pending }

/-- R427: after a zeroization the controller starts as at first start, and every grain is free; `s` is the state before. -/
def State.asFirst (x s : State) : State :=
  { x with
    hif := { x.hif with ns := [], poisoned := [], nextStamp := 0 }
    map := { nextJseq := s.map.nextJseq }
    conv := { x.conv with cbt := [], victim := none, refreshQ := [], spoilt := x.conv.spoilt ++ (s.conv.cbt.flatMap fun c =>
      c.2.members.map fun m => (m.port, m.die, m.block)) }
    keys := {}
    pow := { x.pow with dump := none, older := none, progress := none } }

/-- The state with which a start begins. -/
def State.cold (s : State) (e : BootEnv) : State :=
  (if s.keys.zeroed then (s.kept e).asFirst s else s.kept e).norAtStart s e.cfgBlockOk

/-! ### Settings at a start (R449) -/

/-- R449: the stored settings are migrated to the native schema; those of the schema replaced are kept. -/
def State.migrate (s : State) : State :=
  let keep := (s.fw.schema, s.setv) :: s.fw.kept.filter fun k => k.1 != s.fw.schema
  { s with fw := { s.fw with schema := s.man.setver, kept := keep } }

/-- R449: a controller that runs alone: an older schema is migrated and kept; a newer one gives way to the settings kept of the
native schema, or to the defaults with a notice for each identifier. -/
def State.settleAlone (s : State) : State :=
  let n := s.man.setver
  let keep := (s.fw.schema, s.setv) :: s.fw.kept.filter fun k => k.1 != s.fw.schema
  if s.fw.schema = n then s
  else if s.fw.schema < n then s.migrate
  else match s.fw.kept.find? fun k => k.1 == n with
    | some k => { s with fw := { s.fw with schema := n, kept := keep }, setv := k.2 }
    | none =>
      let s := { s with fw := { s.fw with schema := n, kept := keep }, setv := {} }
      settingTable.foldl (fun s x => s.notice 1 x.id 0) s

/-! ### Landing replay (R302 to R308) -/

/-- The dump holds the data of its first `nblocks` staged blocks. -/
def Dump.blocks (d : Dump) : List Staged := d.staged.take d.nblocks

/-- The blocks whose descriptors were dumped and whose data was not. -/
def Dump.lost (d : Dump) : List Staged := (d.staged.take d.ndesc).drop d.nblocks

/-- R302, step 1: a dump's journal tail joins the journal that is to be placed in packs: closed blocks as they were, the open one as one more.
A block that is there already, in packs or by an earlier dump, is not taken twice. -/
def State.replayTail (s : State) (d : Dump) : State :=
  let l := (d.closed.map fun b => { b with place := none }) ++ if d.tail.isEmpty then [] else [s.jblockOf d.tail]
  let new := l.filter fun b => !s.map.jblocks.any fun x => firstJseq x.recs == firstJseq b.recs
  { s with map := { s.map with
    jblocks := s.map.jblocks ++ new
    nextJseq := d.recs.foldl (fun n r => max n (r.jseq + 1)) s.map.nextJseq } }

/-- R144, R303: the dumps' tails join the journal, and its records are applied in JSEQ order. -/
def State.replayJournal (s : State) : State :=
  let s := (s.pow.older.toList ++ s.pow.dump.toList).foldl State.replayTail s
  (sortBy (fun a b => decide (a.jseq ≤ b.jseq)) (s.map.jblocks.flatMap fun b => b.recs)).foldl State.replayRec s

/-- R304: L, each namespace's use and each block's live grains by what the map holds now. -/
def State.recount (s : State) : State :=
  let zeroUse := fun (n : Nat × Ns) => (n.1, { n.2 with physUsed := 0 })
  let zeroLive := fun (c : Nat × Cb) => (c.1, { c.2 with live := 0 })
  let s := s.put F.MAP_CAP_LIVE.L 0 0
  let s := { s with
    hif := { s.hif with ns := s.hif.ns.map zeroUse }
    conv := { s.conv with cbt := s.conv.cbt.map zeroLive } }
  let s := s.map.entries.foldl (fun (s : State) (e : Nat × BitVec 64) =>
    let n := ent 48 42 e.2
    if n = 0 then s else (s.liveAdd (e.1 / 2 ^ 37 + 1) n 0).grainsLive (ent 41 0 e.2) n) s
  let s := s.map.patches.foldl (fun (s : State) (e : Nat × BitVec 64) =>
    let n := patchLen e.2
    if n = 0 then s else (s.liveAdd (e.1 / 2 ^ 41 + 1) n 0).grainsLive (bitsOf 41 0 e.2.toNat) n) s
  let s := (s.map.jblocks.filterMap fun b => b.place).foldl (fun s p => s.grainsLive (p.1 * 2 ^ 20) 4) s
  ((s.map.ckpt.map fun c => c.2.loc) ++ s.map.ckptLocs).foldl (fun s l => s.grainsLive l 4) s

/-- R288, R302: are all pages that an item of an open convoy lies in programmed: those of its convoy accepted, those before acknowledged? -/
def State.itemAccepted (s : State) (o : OpenCv) (p : Placed) : Bool :=
  let c := s.cb o.cbid
  let x := placedSpan p
  (List.range x.2).all fun k =>
    let pl := dpiPlace c.w ((x.1 + k) / 16 % 65536)
    if pl.1 = c.nextPage then (tget pl.2 o.got).isSome else decide (pl.1 < c.acked)

/-- R302, step 2: an open convoy is completed: zero fill, and P and Q from the dumped accumulator; its commits are applied. -/
def State.replayConvoy (d : Dump) (s : State) (x : Nat × OpenCv) : State :=
  let o := x.2
  let c := s.cb o.cbid
  let rest := (List.range (c.w - 2)).filterMap fun k =>
    if (tget k o.got).isSome then none else some (dataPos c.w c.nextPage k, zeroPage)
  let par := match d.par.find? fun p => p.1 == o.cbid with
    | some p => [(pPos c.w c.nextPage, p.2.take 16384), (qPos c.w c.nextPage, p.2.drop 16384)]
    | none => []
  let s := (c.programs c.nextPage (rest ++ par)).foldl (fun s y => s.packSend y.1 .landing y.2.1) s
  let ok := o.items.filter (s.itemAccepted o)
  let s := s.setCb o.cbid { c with nextPage := c.nextPage + 1, acked := c.nextPage + 1 }
  let s := ok.foldl (State.commitItem o.cbid) s
  o.jblks.foldl State.jblockDone s

/-- R302, step 2: every block found open is closed at its last programmed page. -/
def State.closeOpen (s : State) : State :=
  let l := keysWhere (fun _ => true) (s.conv.cbt.filter fun e => e.2.state == 1)
  l.foldl (fun s k => s.closeBlock k (s.cb k).nextPage) s

/-- R307: a block whose data was lost gets a poisoned placeholder patch; a bale never written becomes a zero bale. -/
def State.loseStaged (s : State) (x : Staged) : State := s.putPatch x.nsid x.bale x.blk (mkPatch 0 0 1 0 0 0 0)

/-- R302, step 3: a staged block is loaded back; its descriptor records no ELSIZE, so it takes the element width (R166). -/
def State.reload (s : State) (x : Staged) : Staged :=
  match s.nsOf x.nsid with
  | some n => { x with w := elShuffle n 0 }
  | none => x

/-- R260: the landing pages of a dump are read with the thresholds of the model, by the dump's age, the die's temperature and its P/E band in SLC
mode (the write temperature is not recorded: the model takes the present one; DESIGN CHOICE, log entry 171). -/
def State.landingReads (s : State) (d : Dump) : State :=
  let w := s.width
  let packs := s.inService
  if w = 0 then s
  else
    let k := ((s.landingPages d w).length + (w - 3)) / (w - 2)
    (List.range (k * w)).foldl (fun s t =>
      let n := packs.getD (t % packs.length) 0
      match s.landingAt d.half n (t / packs.length), (s.pk n).id with
      | some c, some i =>
        let stamp : Cb :=
          { progMin := d.dtime.toNat / 60000000 % 2 ^ 32, progEpoch := d.epoch
            wtb := [bandOf (s.dieTemp n c.die) i.wtBounds], peb := [s.peBand true n c.die c.block i] }
        s.packSend n .read { c with opc := 1, cwmask := 15, param := thresholds i (s.modelCell stamp 0 n c.die i) 0 }
      | _, _ => s) s

/-- R302, R307, R308: one dump is replayed: staging is loaded and the open convoys' commits, which take their blocks out of it, are applied;
what it lost is poisoned or named. `have_` are blocks that an earlier dump still holds. -/
def State.replayDump (s : State) (d : Dump) (have_ : List Staged) : State :=
  let s := { s with
    map := { s.map with overlay := s.map.overlay ++ (d.blocks.map s.reload).filter fun x => !s.map.overlay.contains x }
    hif := { s.hif with nextStamp := if s.hif.nextStamp.toNat ≤ d.fstampMax.toNat then d.fstampMax + 1 else s.hif.nextStamp } }
  let s := d.accs.foldl (State.replayConvoy d) s
  if d.ended then s
  else
    let same := fun (x y : Staged) => y.nsid == x.nsid && y.bale == x.bale && y.blk == x.blk && y.stamp == x.stamp
    let lost := d.lost.filter fun x => !have_.any (same x)
    let s := lost.foldl State.loseStaged s
    let s := if lost.isEmpty then s
      else (s.recordPoisoned (lost.map fun x => (x.nsid, s.lbaOf x.nsid x.bale x.blk)) 4).critSet 2
    let ns := ((d.staged.drop d.ndesc).filter fun x => !have_.any (same x)).map fun x => x.nsid
    if ns.isEmpty then s
    else
      let all := (d.staged.map fun x => x.nsid).eraseDups
      (all.foldl (fun s n => s.addPoisoned n 0 0 5 []) s).vendor 0

/-- R292, R302: the landing halves are replayed, the older one first. -/
def State.replayLanding (s : State) : State :=
  let s := (s.pow.older.toList ++ s.pow.dump.toList).foldl State.landingReads s
  let s := match s.pow.older with
    | some d => s.replayDump d []
    | none => s
  let kept := s.map.overlay
  match s.pow.dump with
  | some d => s.replayDump d kept
  | none => s

/-! ### Steps 6 to 9 (R300) -/

/-- Has pack `n` settled: in service, ready, held, on the wrong side, lost or down? -/
def State.packSettled (s : State) (n : Nat) : Bool :=
  let p := s.pk n
  p.side == 3 || p.side == 12 || (p.side == 0 && p.phase == 0 && !s.on F.PKP_STAT.LINK_UP n) || (decide (5 ≤ p.phase) && p.phase != 10)

/-- R276, R640: what is fixed at the first ready. -/
def State.firstReady (s : State) : State :=
  if s.health.started then s
  else
    let t := (List.range 8).foldl (fun (t : Tbl Nat) k => if k = 6 then t else tput k (s.resUnits k) t) s.health.total
    { s with health := { s.health with started := true, total := t } }

/-- R413: a rotation goes on: its bales are queued for repack again. -/
def State.requeueRotation (s : State) (n : Nat) : State :=
  match s.nsOf n with
  | some ns => if ns.prevKey.isNone then s else (s.storedBales n).foldl (fun s b => s.queueRepack n b) s
  | none => s

/-- R126: what is due for repack is queued again: bales with many patches or under PRIO, and those in blocks being emptied. -/
def State.requeueRepacks (s : State) : State :=
  let bales := (s.map.patches.map fun e => e.1 / 16).eraseDups
  let s := bales.foldl (fun s k => s.repackCheck (k / 2 ^ 37 + 1) (k % 2 ^ 37)) s
  (keysWhere (fun _ => true) (s.conv.cbt.filter fun e => e.2.state == 3)).foldl State.queueRepacks s

/-- Steps 6 to 9 of R300, once pairing is settled and the packs are up: missing packs are lost, erases repeated (R297), mixed
members rebuilt (R299), the landing zones replayed, the map opened, and the controller is ready. -/
def State.bootRest (s : State) (e : BootEnv) : State :=
  let s := { s with pow := { s.pow with boot := none, fenceA := false } }
  let gone := (List.range 32).filter fun n => (s.pk n).home
  let s := gone.foldl State.loseHome s
  let s := s.conv.erasing.foldl (fun s x => s.eraseOne (.erase x.2.1 x.2.2) x.1 x.2.1 x.2.2) s
  let s := e.mixed.foldl (fun s x => s.loseMember x.1 x.2) s
  let s := s.replayJournal.replayLanding.closeOpen.recount.occUpdate.requeueRepacks
  let s := (s.hif.ns.map Prod.fst).foldl State.requeueRotation s
  let s := (s.putAll F.HIF_BOOTSTAT.STATE 6).putAll F.HIF_BOOTSTAT.ELAPSED (min 65535 (s.elapsed / 1000))
  let s := { s with
    hif := { s.hif with fetchStop := s.fw.testMode }
    health := { s.health with ready := true }
    pow := { s.pow with everStarted := true } }
  let s := gone.foldl State.useReserve s.firstReady.recomputeU
  let s := (List.range 66).foldl State.readyNow s
  (s.tallyBegin).flow

/-- A start goes on once pairing is settled and every pack present has been brought up, or step 6 of R300 is due. -/
def State.bootGo (s : State) : State :=
  match s.pow.boot with
  | none => s
  | some e =>
    if s.bootState ≠ 4 then s
    else if e.present.all s.packSettled || decide (2200000 ≤ s.elapsed) then s.bootRest e else s

/-! ### Steps 1 to 5 (R300) -/

/-- Recovery mode (R305): only the services that it leaves. -/
def State.recovery (s : State) : State :=
  let s := (s.putAll F.HIF_BOOTSTAT.STATE 7).putAll F.HIF_BOOTSTAT.ELAPSED (min 65535 (s.elapsed / 1000))
  (List.range 66).foldl State.readyNow s

/-- R411: without a storage root key one is drawn, and with it the system and the landing key. -/
def State.deviceKeys (s : State) : State :=
  if (s.kslot 0).wrapped then s
  else
    let new := fun (s : State) (n alg : Nat) =>
      let r := drawMat alg 8 s.freeNo
      ({ s with freeNo := r.2 }.setKslot n { s.kslot n with alg := alg }).installKey n r.1
    let s := new (new (new s 0 2) 1 1) 2 1
    { s with keys := { s.keys with srkFirst := true } }

/-- Step 3: the soft repair list is loaded, HBM is trained and filled (R538, R539, R543). -/
def State.trainHbm (s : State) (e : BootEnv) (first : Bool) : State :=
  let l := ((s.hbm.soft.filter fun r => r.state == 0x7F || r.state == 0x3F).take 256).zipIdx
  let s := l.foldl (fun s r => s.setReg .HBC_REPAIR r.2 (BitVec.ofNat 64 (2 ^ 31 + r.1.loc))) s
  let s := hbmFillDone e.noSpare (hbmFillStart s)
  if first then
    { s with
      hbm := { s.hbm with spareTotal := min 16384 e.kind6Total }
      health := { s.health with total := tput 6 (min 16384 e.kind6Total) s.health.total } }
  else s

/-- R213, R211, R191: each port that two rounds found present shows it, and trains once its BRIDGE_TYPE is known. -/
def State.discover (s : State) (e : BootEnv) : State :=
  (List.range 32).foldl (fun s n =>
    if e.present.contains n then
      let s := s.put F.HKP_I2C.PRESENT (n / 4) (s.get F.HKP_I2C.PRESENT (n / 4) ||| 2 ^ (n % 4))
      ((s.setPk n { s.pk n with i2cType := (e.types.find? fun t => t.1 == n).map Prod.snd }).setSide n 1).laneTry n
    else s) s

/-- R301, R449, R455: step 6 of a controller that runs alone. -/
def State.alone (s : State) : State :=
  let s := s.settleAlone.applySettings
  if s.fw.schema < s.man.setRunMin then s.recovery
  else
    let s := { s with fw := { s.fw with level := s.man.tvl } }
    (s.putAll F.HIF_BOOTSTAT.STATE 4).packsGo.bootGo

/-- R301: how a controller goes on after step 5: as one of a pair that is forming, alone, or waiting. A twin 1 whose peer is
absent first fences side A. -/
def State.pairing (s : State) (e : BootEnv) : State :=
  let wait := fun (s : State) => (s.putAll F.HIF_TWNSTAT.STATE 1).putAll F.HIF_BOOTSTAT.STATE 3
  let s := { s with pow := { s.pow with boot := some e } }
  if s.fw.testMode then s.alone
  else if !e.twinId then if e.pairAccepted then wait s else s.alone
  else if e.peerAbsent then { s with pow := { s.pow with fenceA := true } }.alone
  else wait s

/-- The CAUSE of HIF_BOOTSTAT for a start that follows the state `old`. -/
def State.startCause (old : State) : Nat :=
  let cut := match old.pow.dump with
    | some d => !d.ended
    | none => false
  if !old.pow.everStarted || old.keys.zeroed then 4
  else if cut && (old.pow.lastStop == 1 || old.pow.lastStop == 2) then 2 else old.pow.lastStop

/-- What firmware-readable state shows at the start of step 1: cause, twin, fence, tally records, key slots. -/
def State.startBegin (s : State) (e : BootEnv) (cause : Nat) : State :=
  let s := s.putAll F.HIF_BOOTSTAT.CAUSE cause
  let s := if cause = 4 ∨ cause = 0 then s else { s with hif := { s.hif with unsafe_ := s.hif.unsafe_ + 1 } }
  let s := s.putAll F.HIF_TWNSTAT.TWIN_ID e.twinId.toNat
  let s := if s.arb.fenceLow then s.putAll F.HIF_TWNSTAT.STATE 4 else s
  let s := s.send (.pin 2 true)
  let s := s.tallyRedo
  let s := s.put F.TLY_STAT.NREC 0 s.tallyNext
  let s := if s.get F.TLY_STAT.NREC = 2048 then s.put F.TLY_STAT.FULL 0 1 else s
  s.kstat

/-- R28, R411: where the start tests fail nothing is unwrapped; the records keep their LOADED flags. -/
def Keys.locked (k : Keys) : Keys :=
  { k with
    slots := k.slots.map fun e => (e.1, { e.2 with loaded := false })
    flagged := k.flagged ++ keysWhere (fun _ => true) (k.slots.filter fun e => e.2.loaded) }

/-- Steps 1 to 5 of R300. -/
def State.startSlot (s : State) (e : BootEnv) (first : Bool) : State :=
  let s := if e.katOk then s.put F.SEC_MODE.MODE 0 1 else ({ s with keys := s.keys.locked }.secError 1).kstat
  match s.chooseSlot e with
  | none => s.recovery
  | some s =>
    let s := (s.trainHbm e first).discover e
    let s := if e.katOk then s.deviceKeys else s
    if !e.logReadable || !e.katOk then s.recovery else s.pairing e

/-- POWER_ON_RESET (R300): reset is released: image check, memory, discovery, pairing; with no pack to bring up and no peer to
wait for the controller comes to ready at once. -/
def execPowerOnReset (e : BootEnv) (s : State) : Res :=
  .next (
    let old := s.resetNow 0 0
    let first := !old.pow.everStarted || old.keys.zeroed
    ((old.cold e).startBegin e old.startCause).startSlot e first)

/-! ### Drowse and dormant (R576 to R579) -/

/-- R578, R579: the controller is active again: from drowse at once; from dormant by steps 3 to 9 of R300, with HBM filled anew
and every function as after a controller reset. -/
def State.wakeUp (s : State) : State :=
  let dormant := decide (s.get F.CPM_PSTATE.STATE = 2)
  let s := s.leaveDrowse.raise 227
  if !dormant then s
  else
    let s := hbmFillDone [] (hbmFillStart s)
    let s := { s with map := { s.map with frames := [], misses := [], missOrder := [] } }
    (((List.range 66).foldl State.resetFunc s).tallyBegin).flow

/-- WAKE (R577): the event is latched; one that is enabled wakes a controller that sleeps, and ends the entry of one that enters dormant. -/
def execWake (b : Fin 8) (s : State) : Res := s.awake <|
  .next (
    let s := s.put F.CPM_WAKE.LATCH 0 (s.get F.CPM_WAKE.LATCH ||| 2 ^ b.val)
    if (s.get F.CPM_PSTATE.STATE ≠ 0 ∨ s.pow.entering) ∧ (s.get F.CPM_WAKE.EN).testBit b then
      let low := ((List.range 8).find? fun i => (s.get F.CPM_WAKE.LATCH).testBit i).getD 0
      let s := s.put F.CPM_PSTATE.LASTWAKE 0 low
      if s.pow.entering then { s with pow := { s.pow with entering := false } } else s.wakeUp
    else s)

/-- DORMANT_ENTRY (R579): from drowse, after DORMANT_IDLE_S, with every PCIe link down or every function in D3hot and no
association: the controller leaves drowse and runs a checkpoint round; once that is in packs it goes dormant. -/
def execDormantEntry (s : State) : Res := s.awake <|
  .next (if s.get F.CPM_PSTATE.STATE ≠ 1 ∨ s.setting 0x42 ≠ 1 ∨ s.twState ≠ 0 ∨ !s.fab.assocs.isEmpty then s
    else
      let s := checkpointAll s.leaveDrowse
      { s with pow := { s.pow with entering := true } }.flow)

end Sys2Proof.Machine
end

