-- ==== Sys2Proof/Machine/Ledger.lean ====
section
/-! DEFINITION. The ledger of a twin: stage records, their delivery on the trail, claims, stage markers, digests, and the
twin link (chapter 10). -/

namespace Sys2Proof.Machine

/-! ### What an entry does once it is applied (R318, R319, R326) -/

/-- A signed number of `k` bits from its unsigned reading. -/
def signedOf (k v : Nat) : Int := if v < 2 ^ (k - 1) then v else (v : Int) - 2 ^ k

/-- A response from its bytes (R185). -/
def parseResp (d : Bytes) : PackResp :=
  { opc := d.getD 0 0
    status := d.getD 1 0
    die := le d 2 2
    cseq := BitVec.ofNat 32 (le d 4 4)
    busyUs := BitVec.ofNat 32 (le d 12 4)
    param := BitVec.ofNat 128 (le d 16 16)
    data := (d.drop 32).take (le d 8 4) }

/-- Does a copy of a Pack Link message answer to port, kind and sequence of an entry (R323)? -/
def PkMsg.named (n kind seq : Nat) : PkMsg → Bool
  | .resp k r => kind == 0 && k == n && r.cseq.toNat == seq
  | .async k q .. => kind == 1 && k == n && q == seq

/-- The bytes of a Pack Link message. -/
def PkMsg.bytes : PkMsg → Bytes
  | .resp _ r => respBytes r
  | .async _ q code die v => leBytes 4 q ++ leBytes 2 code ++ leBytes 2 die ++ leBytes 8 v.toNat

/-- A copy that a trail has used is not kept. -/
def State.dropMsg (s : State) (n kind seq : Nat) : State :=
  if s.isTrail then { s with twn := { s.twn with packMsgs := s.twn.packMsgs.filter fun m => !m.named n kind seq } } else s

/-- Likewise a capsule. -/
def State.dropCapsule (s : State) (qpn rseq : Nat) : State :=
  if s.isTrail then
    { s with twn := { s.twn with capsules := s.twn.capsules.filter fun k => k.qpn != qpn || k.rseq != rseq } }
  else s

/-- R368: a trail's doorbell values up to the one that an entry carries have been named. -/
def dropDoorbells (f q v : Nat) (l : List (Nat × Nat × Nat)) : List (Nat × Nat × Nat) :=
  let hit := fun (x : Nat × Nat × Nat) => x.1 == f && x.2.1 == q
  match (l.filter hit).findIdx? fun x => x.2.2 == v with
  | none => l
  | some k => l.filter (fun x => !hit x) ++ (l.filter hit).drop (k + 1)

/-- What a twin tells its peer of a connection that the peer has not (R96): the Connect's data as far as R83 and R91 use it, and nothing for
a queue pair it does not have itself. -/
def State.connBytes (s : State) (qpn : Nat) : Bytes :=
  match tget qpn s.fab.qps with
  | some q => leBytes 4 q.assoc ++ leBytes 2 q.qid ++ leBytes 2 q.size ++ leBytes 2 q.mtu ++ leBytes 1 q.port ++
      leBytes 1 (match (s.assoc q.assoc).group with
        | some g => g
        | none => 0xFF)
  | none => []

/-- The connection that a peer tells of. -/
def connReq (b : Bytes) : ConnectReq :=
  { port := Fin.ofNat 2 (leNat ((b.drop 10).take 1))
    assoc := leNat (b.take 4)
    qid := leNat ((b.drop 4).take 2)
    size := leNat ((b.drop 6).take 2)
    discovery := false
    group := let g := leNat ((b.drop 11).take 1); if g = 0xFF then none else some (Fin.ofNat 62 g)
    twinMagic := 0
    pairId := 0
    mtu := leNat ((b.drop 8).take 2) }

/-- R96: a queue pair that only the peer has: its side here counts as in error. -/
def State.connectAway (s : State) (qpn : Nat) (b : Bytes) : State :=
  if b.isEmpty then s
  else
    let s := s.connectDo qpn (connReq b)
    match tget qpn s.fab.qps with
    | some q => s.setQp qpn { q with err := true, away := true }
    | none => s

/-- The own copy that an entry of class 0x02 or 0x04 names, if it has arrived with the entry's CRC (R320). -/
def State.copyOf (s : State) (e : LEntry) : Option (Capsule ⊕ PkMsg) :=
  match e.cls, e.payload with
  | 2, qpn :: rseq :: _ :: crc :: _ =>
    (s.twn.capsules.find? fun k => k.qpn == qpn && k.rseq == rseq && k.ccrc.toNat == crc).map .inl
  | 4, n :: kind :: _ :: _ :: seq :: _ :: crc :: _ =>
    (s.twn.packMsgs.find? fun m => m.named n kind seq && (crc32c m.bytes).toNat == crc).map .inr
  | _, _ => none

/-- Does an entry name bytes: a capsule, a response or event of a pack, or a connection (R96; DEDUCED, log entry 151)? -/
def namesBytes (e : LEntry) : Bool :=
  e.cls == 2 || (e.cls == 4 && decide (e.payload.getD 1 9 ≤ 1)) || (e.cls == 3 && e.payload.getD 1 9 == 1)

/-- A Pack Link entry without bytes: a side comes up, with H and in STATUS bit 0 its validity (R191, R199), or goes down; ORIGIN says whose
(R321, R242). -/
def State.sideEvent (s : State) (e : LEntry) (n kind status seq : Nat) : State :=
  let p := s.pk n
  if kind = 2 then
    (s.setPk n (if e.origin then { p with peerLost := false } else { p with sideLost := false })).sideUp n (BitVec.ofNat 32 seq)
      (status % 2 == 1)
  else s.sideDown n e.origin

/-- Class 0x01: a doorbell. -/
def State.doorbellEffect (s : State) : List Nat → State
  | f :: q :: v :: _ =>
    { s with twn := { s.twn with ringDoorbells := dropDoorbells f q v s.twn.ringDoorbells } }.setTail f q v
  | _ => s

/-- Class 0x02: a capsule; none while its bytes have not come. -/
def State.capsuleEffect (s : State) (e : LEntry) : Option State :=
  match s.copyOf e with
  | some (.inl k) => some ((s.dropCapsule k.qpn k.rseq).capsuleTake k)
  | _ => none

/-- Class 0x03: an event of a queue pair: connected, ended, in error at one side, and its error left. None: the connection is not here, and
what the peer knows of it has not come (R96). -/
def State.qpEffect (s : State) (e : LEntry) : List Nat → Option State
  | qpn :: ev :: _ =>
    if ev = 1 then match tget qpn s.fab.heldConn with
      | some r => some ((s.connectDo qpn r).connectAnswer qpn r true)
      | none => if s.isTrail ∧ (tget qpn s.fab.qps).isNone then none else some s
    else if ev = 2 then match tget qpn s.fab.qps with
      | some q => some (s.endAssoc q.assoc).flow
      | none => some s
    else if ev = 3 then some (s.qpErrEvent qpn e.origin)
    else some { s with fab := { s.fab with ledErr := s.fab.ledErr.filter fun x => x != (qpn, s.sideOf e.origin) } }
  | _ => some s

/-- Class 0x04: a response or an event of a pack; none while its bytes have not come. -/
def State.packEffect (s : State) (e : LEntry) : List Nat → Option State
  | n :: kind :: status :: _ :: seq :: _ =>
    if kind ≤ 1 then
      match s.copyOf e with
      | some (.inr (.resp k r)) => some ((s.dropMsg n kind seq).applyResp k r)
      | some (.inr (.async k _ code die _)) => some ((s.dropMsg n kind seq).applyAsync k code die)
      | _ => none
    else some (s.sideEvent e n kind status seq)
  | _ => some s

/-- Class 0x06: a message; the rows of its opcode apply it, an unknown opcode is refused here. -/
def State.mailEffect (s : State) (e : LEntry) : List Nat → State
  | chan :: _ :: _ :: len :: l =>
    let n := fun (off k : Nat) => leNat (((l.drop off).take k).map (BitVec.ofNat 8))
    let m : Msg := { chan := Fin.ofNat 8 chan, opcode := BitVec.ofNat 16 (n 0 2), tag := BitVec.ofNat 16 (n 2 2), len := len
                     replay := n 8 4 % 2 == 1, token := BitVec.ofNat 32 (n 12 4) }
    s.mailUnknown m (if e.origin == s.isTrail then .here else .peer)
  | _ => s

/-- Class 0x05: a sample of the sensors. -/
def State.sampleEffect (s : State) : List Nat → State
  | _ :: _ :: l => s.useSample ((l.take 16).map (signedOf 16)) (l.drop 16)
  | _ => s

/-- Class 0x07: an edge of a pin. -/
def State.pinEffect (s : State) (e : LEntry) : List Nat → State
  | sig :: n :: _ =>
    let mine := fun (x : LEntry) => x.cls == 7 && x.payload == e.payload
    let s := { s with twn := { s.twn with stock := s.twn.stock.filter fun x => !mine x } }
    match sig with
    | 1 => s.powerFail
    | 2 => s.zeroizeNow
    | 3 => s.presence n true
    | 4 => s.presence n false
    | _ => s
  | _ => s

/-- Class 0x08: a claim's value. -/
def State.claimEffect (s : State) : List Nat → State
  | core :: _ :: ring :: polls :: value :: _ =>
    let c : ClaimEnt := { core := core, ring := ring, polls := polls, value := BitVec.ofNat 32 value }
    { s with twn := { s.twn with claimQ := s.twn.claimQ ++ [c] } }
  | _ => s

/-- Class 0x09: a lead value. -/
def State.leadEffect (s : State) : List Nat → State
  | _ :: _ :: n :: l => { s with twn := { s.twn with leadVals := s.twn.leadVals ++ [(l.take n).map (BitVec.ofNat 8)] } }
  | _ => s

/-- Class 0x0A: control. -/
def State.controlEffect (s : State) : List Nat → State
  | ck :: _ :: arg :: _ =>
    let s := s.raise 259
    if ck = 2 then { s with arb := { s.arb with swap := some (s.reg .TWN_STAGE 0) } }
    else if ck = 4 then (s.putAll F.HIF_TWNSTAT.ARB_LOST (arg % 2)).vendor 2 else s
  | _ => s

/-- R323: what an entry does: to the lead when a held input enters its stage, to the trail when the ledger brings it. None: its
own copy of the bytes named has not come. -/
def State.entryEffect (s : State) (e : LEntry) : Option State :=
  match e.cls with
  | 1 => some (s.doorbellEffect e.payload)
  | 2 => s.capsuleEffect e
  | 3 => s.qpEffect e e.payload
  | 4 => s.packEffect e e.payload
  | 5 => some (s.sampleEffect e.payload)
  | 6 => some (s.mailEffect e e.payload)
  | 7 => some (s.pinEffect e e.payload)
  | 8 => some (s.claimEffect e.payload)
  | 9 => some (s.leadEffect e.payload)
  | 10 => some (s.controlEffect e.payload)
  | _ => some s

/-! ### Claim sources (R327) -/

/-- Does RING name a source? -/
def ringNamed (r : Nat) : Bool :=
  decide (r < 0x4C ∨ (0x50 ≤ r ∧ r < 0xA1) ∨ (0xC0 ≤ r ∧ r < 0xD7) ∨ (0x100 ≤ r ∧ r < 0x200))

/-- The live value of a source. -/
def State.claimLive (s : State) (r : Nat) : BitVec 32 :=
  if r < 0x40 then BitVec.ofNat 32 (s.get F.PTR_DONE.CURSOR r)
  else if 0xC0 ≤ r ∧ r < 0xD7 then tgetD (r - 0xC0) 0 s.twn.irTail
  else if 0x100 ≤ r then BitVec.ofNat 32 (s.get F.TWN_SPROD.PROD (r - 0x100))
  else tgetD r 0 s.evt.cursor

/-- The value a core last received from a RING. -/
def State.claimLast (s : State) (core r : Nat) : BitVec 32 := tgetD (1024 * core + r) 0 s.twn.claimLast

/-- A claim read returns: the core has received `v`. -/
def State.claimGive (s : State) (core r : Nat) (v : BitVec 32) : State :=
  { s with twn := { s.twn with claimLast := tput (1024 * core + r) v s.twn.claimLast } }.send (.value (v.setWidth 64))

/-- The reads of a core since its last recorded claim. -/
def State.setPolls (s : State) (core n : Nat) : State := { s with twn := { s.twn with polls := tset 0 core n s.twn.polls } }

/-- R328: a lead's claim read: a value that differs from the core's last one is recorded with the reads since the last record.
While the record has no room the change is not shown (R326). -/
def State.claimLead (s : State) (core r : Nat) : State :=
  let n := tgetD core 0 s.twn.polls + 1
  let v := s.claimLive r
  let e : LEntry := { cls := 8, origin := false, toff := s.toff, payload := [core, 0, r, n, v.toNat, 0] }
  if v = s.claimLast core r ∨ !s.hasRoom e then (s.setPolls core n).claimGive core r (s.claimLast core r)
  else ((s.recordPut e).setPolls core 0).claimGive core r v

/-- The claim entry that a trail core's reads are matched with. -/
def State.claimNext (s : State) (core : Nat) : Option ClaimEnt := s.twn.claimQ.find? fun c => c.core == core

/-- The first claim entry of a core is consumed. -/
def dropClaim (core : Nat) : List ClaimEnt → List ClaimEnt
  | [] => []
  | c :: t => if c.core = core then t else c :: dropClaim core t

/-- An entry's reads are complete. -/
def State.claimUsed (s : State) (core : Nat) : State :=
  { s with twn := { s.twn with claimQ := dropClaim core s.twn.claimQ } }.setPolls core 0

/-- What a trail's claim read meets (R329): it returns a value, it stalls, or it names the wrong RING. -/
inductive ClaimTry where
  | give (v : BitVec 32) (done : Bool)
  | stall
  | wrong
deriving DecidableEq, Repr

/-- R329: a trail's claim read is matched with the next entry of its core. -/
def State.claimTry (s : State) (core r : Nat) : ClaimTry :=
  match s.claimNext core with
  | none => .stall
  | some c =>
    let last := tgetD core 0 s.twn.polls + 1 == c.polls
    if !last then .give (s.claimLast core r) false
    else if c.ring = 0xFFFF then .give (s.claimLast core r) true
    else if c.ring ≠ r then .wrong
    else if (s.claimLive r - c.value).toNat < 2 ^ 31 then .give c.value true
    else .stall

/-- R329: a claim that timed out or named the wrong RING returns with TIMEOUT, and with the core's last value; it takes no entry and counts among
no POLLS (DESIGN CHOICE, log entry 162). -/
def State.claimFail (s : State) (core r : Nat) : State :=
  (((s.put F.TWN_STAT.CLTO 0 1).raise 256).setFault 3).send
    (.value (BitVec.ofNat 64 (2 ^ 63 + (s.claimLast core r).toNat)))

/-- CLAIM_READ (R322, R327 to R329); beyond the last claim entry a trail that is being promoted answers live (R368). A stalled read has not returned: nothing has happened yet. -/
def execClaimRead (core : Fin 23) (ring : Fin 512) (s : State) : Res := s.awake <|
  .next (
    if !ringNamed ring then s.send (.value 0)
    else if s.isTrail then
      if s.arb.promote.isSome && (s.claimNext core).isNone then s.claimGive core ring (s.claimLive ring)
      else match s.claimTry core ring with
      | .give v true => (s.claimUsed core).claimGive core ring v
      | .give v false => (s.setPolls core (tgetD core.val 0 s.twn.polls + 1)).claimGive core ring v
      | .wrong => s.claimFail core ring
      | .stall => s
    else if s.staged then s.claimLead core ring
    else s.claimGive core ring (s.claimLive ring))

/-- CLAIM_TIMEOUT (R329): a stall of more than 256 µs. -/
def execClaimTimeout (core : Fin 23) (ring : Fin 512) (s : State) : Res := s.awake <|
  .next (if s.isTrail && ringNamed ring && s.claimTry core ring == .stall then s.claimFail core ring else s)

/-! ### Stages: markers, time and acknowledgement (R325, R332 to R335, R345) -/

/-- The rings that are enabled. -/
def State.rings (s : State) : List Nat := (List.range 23).filter fun i => s.on F.TWN_IRCFG.EN i

/-- Each core's TWN_STIME is the DTIME of the header of its stage, once known. -/
def State.stimes (s : State) : State :=
  (List.range 23).foldl (fun s i => match s.twn.stageTimes.find? fun e => e.1 == s.reg .TWN_CSTAGE i with
    | some e => s.setReg .TWN_STIME i e.2
    | none => s) s

/-- A stage opens with a DTIME: the last 64 are kept for TWN_STIME. -/
def State.stageTime (s : State) (n dtime : BitVec 64) : State :=
  { s with twn := { s.twn with stageTimes := ((n, dtime) :: s.twn.stageTimes).take 64 } }.stimes

/-- The marker of stage `n` is written to ring `i` (R325). -/
def State.marker (n : BitVec 64) (s : State) (i : Nat) : State :=
  if !s.ringRoom i 16 then { s with twn := { s.twn with markWait := s.twn.markWait ++ [(i, n)] } }
  else
    let s := s.ringWrite i ({ cls := 15, origin := false, toff := 0, payload := [n.toNat] } : LEntry).bytes
    { s with twn := { s.twn with markers := s.twn.markers ++ [(i, tgetD i 0 s.twn.irTail, n)] } }

/-- Markers that waited for room are written as far as there is room now. -/
def State.markAgain (s : State) : State :=
  let l := s.twn.markWait
  l.foldl (fun s x => s.marker x.2 x.1) { s with twn := { s.twn with markWait := [] } }

/-- R335: the effective lag limit. -/
def State.lagLimit (s : State) : Nat := max 8 (min (clampTo 8 64 (s.get F.TWN_CTL.LAG_LIM)) (72 - s.twn.openUs))

/-- R334, step 4: every core in service has passed marker `n`, and nothing of the stage waits for bytes. -/
def State.passed (s : State) (n : BitVec 64) : Bool :=
  s.twn.applying.isEmpty && s.rings.all fun i => decide (n.toNat < (s.reg .TWN_CSTAGE i).toNat)

/-- R356: final digests leave, up to four consecutive ones in a message, unless this twin is fenced, lags (R335), or is a
joiner that is not live yet (R383). -/
def State.sendDigests : Nat → State → State
  | 0, s => s
  | fuel + 1, s =>
    let may := s.staged && !s.arb.fenceLow && !s.twn.lagging && !(s.joining && s.arb.rj.live.isNone)
    match s.twn.finals with
    | [] => s
    | e :: _ =>
      if !may then s
      else
        let n := (((s.twn.finals.take 4).zipIdx).takeWhile fun x => x.1.1 == e.1 + BitVec.ofNat 64 x.2).length
        let l := s.twn.finals.take n
        let role := if s.get F.TWN_CTL.MODE = 3 then 2 else if s.isTrail then 1 else 0
        let s := { s with twn := { s.twn with finals := s.twn.finals.drop n } }
        let s := s.arbSend 1 (leBytes 8 e.1.toNat ++ leBytes 1 n ++ leBytes 1 role ++ leBytes 6 0 ++ l.flatMap fun x => leBytes 16 x.2.toNat)
        let z := l.getLastD e
        let s := (s.setReg .TWN_DIG_STG 0 z.1).setReg .TWN_DIG 0 (z.2.setWidth 64)
        (s.setReg .TWN_DIG 1 ((z.2 >>> 64).setWidth 64)).sendDigests fuel

/-- Stages that every core has passed are acknowledged, in order (R334); a trail back within the limit sends its digests
again (R335). -/
def State.acks : Nat → State → State
  | 0, s => s
  | fuel + 1, s =>
    match s.twn.awaitAck with
    | [] => s
    | x :: t =>
      if !s.passed x.1 then s
      else
        let late := fun (at_ : Nat) => decide (s.lagLimit < s.elapsed - at_)
        let lag := s.twn.lagging && (t.any (fun y => late y.2) || s.twn.rxRecs.any fun y => late y.1)
        let s := { s with twn := { s.twn with awaitAck := t, lagging := lag } }.tallyLag (s.elapsed - x.2)
        ((s.twinSend 2 (leBytes 8 x.1.toNat)).sendDigests s.twn.finals.length).acks fuel

/-- Acknowledgements that are due leave. -/
def State.ackAll (s : State) : State := s.acks s.twn.awaitAck.length

/-! ### Applying a record on the trail (R319, R320, R325) -/

/-- R320: the bytes that an entry names are asked of the peer. -/
def State.fetchAsk (s : State) (e : LEntry) : State :=
  if s.twn.fetches.contains e then s
  else ({ s with twn := { s.twn with fetches := s.twn.fetches ++ [e] } }.twinSend 4 e.bytes).raise 257

/-- Has a copy come whose CRC differs from the entry's? -/
def State.wrongCopy (s : State) (e : LEntry) : Bool :=
  match e.cls, e.payload with
  | 2, qpn :: rseq :: _ => s.twn.capsules.any fun k => k.qpn == qpn && k.rseq == rseq
  | 4, n :: kind :: _ :: _ :: seq :: _ => s.twn.packMsgs.any fun m => m.named n kind seq
  | _, _ => false

/-- R390: at the end of stage X the former trail captures and the former lead applies. -/
def State.becomeLead (s : State) (n : BitVec 64) : State :=
  let s := ((s.put F.TWN_CTL.MODE 0 1).put F.TWN_STAT.ROLE 0 0).putAll F.HIF_TWNSTAT.ROLE 0
  let s := s.setReg .TWN_STAGE 0 n
  { s with twn := { s.twn with
    openRec := []
    openLen := 64
    openHeld := false
    openDtime := s.dtime
    openEpoch := s.epoch
    openAt := s.elapsed
    polls := []
    claimQ := [] } }.stageTime n s.dtime

/-- R368, step 3: what the trail held of its own and no entry named is captured: pin edges; Pack Link messages by port and
CSEQ; capsules by queue pair and RSEQ; and the tail of each queue where it differs from the last one applied. -/
def State.captureStock (s : State) : State :=
  let t := s.twn
  let s := { s with twn := { s.twn with stock := [], ringDoorbells := [] } }
  let take := fun (s : State) (e : LEntry) => s.capture e fun s => (s.entryEffect e).getD s
  let s := t.stock.foldl take s
  let key := fun (m : PkMsg) => match m with
    | .resp n r => (n, r.cseq.toNat)
    | .async n q .. => (n, q)
  let lt2 := fun (a b : Nat × Nat) => decide (a.1 < b.1 ∨ (a.1 = b.1 ∧ a.2 ≤ b.2))
  let msgs := sortBy (fun a b => lt2 (key a) (key b)) t.packMsgs
  let s := msgs.foldl (fun s m => match m with
    | .resp n r => take s (pkEntry n 0 r.status.toNat r.cseq r.data.length (crc32c m.bytes))
    | .async n q .. => take s (pkEntry n 1 0 (BitVec.ofNat 32 q) 16 (crc32c m.bytes))) s
  let caps := sortBy (fun a b => lt2 (a.qpn, a.rseq) (b.qpn, b.rseq)) t.capsules
  let s := caps.foldl (fun s k => match tget k.qpn s.fab.qps with
    | some q => take s (capsuleEntry k q.port)
    | none => s) s
  let keys := (t.ringDoorbells.map fun x => (x.1, x.2.1)).eraseDups
  keys.foldl (fun s k => match (t.ringDoorbells.filter fun x => (x.1, x.2.1) == k).getLast? with
    | some x => match tget k.2 (s.func k.1).sqs with
      | some q => if q.tail = x.2.2 then s else take s (doorbellEntry k.1 k.2 x.2.2)
      | none => s
    | none => s) s

/-- Once a record has been applied: acknowledgements that are due, and after the record of a role change the trail leads from the
next stage on, capturing what it holds of its own (R390). -/
def State.settled (s : State) : State :=
  if !s.isTrail || s.arb.promote.isSome then s
  else
    let s := s.ackAll
    match s.arb.swap with
    | some x =>
      if s.twn.delivering.isNone && s.twn.applying.isEmpty then
        ({ s with arb := { s.arb with swap := none } }.becomeLead (x + 1)).captureStock
      else s
    | none => s

/-- Entries take effect in order, up to one whose bytes have not come. -/
def State.applyList (s : State) : List LEntry → State
  | [] => { s with twn := { s.twn with applying := [] } }
  | e :: t =>
    match s.entryEffect e with
    | some s' => s'.applyList t
    | none =>
      let s := { s with twn := { s.twn with applying := e :: t } }
      if s.wrongCopy e then s.fetchAsk e else s

/-- What waited for bytes is tried again. -/
def State.applyGo (s : State) : State := if s.twn.applying.isEmpty then s else (s.applyList s.twn.applying).settled

/-- An entry has been delivered. -/
def State.applyEntry (s : State) (e : LEntry) : State :=
  if s.twn.applying.isEmpty then s.applyList [e] else { s with twn := { s.twn with applying := s.twn.applying ++ [e] } }

/-- Entries are delivered to their rings, in order, until one finds its ring full (source 263); what is left. -/
def State.deliverList (s : State) : List LEntry → State × List LEntry
  | [] => (s, [])
  | e :: t =>
    if e.cls ≠ 8 ∧ s.on F.TWN_IRCFG.EN (s.routeOf e.cls) ∧ !s.ringRoom (s.routeOf e.cls) e.len then (s.raise 263, e :: t)
    else ((s.ringDeliver e).applyEntry e).deliverList t

/-- R332, R325: the delivery of a record ends: markers, EVT[0], and the acknowledgement that is due. -/
def State.delivered (s : State) (at_ : Nat) (n : BitVec 64) : State :=
  let s := { s with twn := { s.twn with delivering := none, awaitAck := s.twn.awaitAck ++ [(n, at_)] } }
  ((s.rings.foldl (State.marker n) s).hwPulse 0).settled

/-- The record in delivery goes on; a marker waits while an earlier one of its ring does. -/
def State.deliverGo (s : State) : State :=
  match s.twn.delivering with
  | none => s
  | some (at_, h, l) =>
    if !s.twn.markWait.isEmpty then s
    else
      let r := s.deliverList l
      if r.2.isEmpty then r.1.delivered at_ h.stage else
        { r.1 with twn := { r.1.twn with delivering := some (at_, h, r.2) } }

/-- R349: the trail's digest of a stage and the lead's are compared once both are there. -/
def State.compareDigests (s : State) : State :=
  let both := fun (p : BitVec 64 × BitVec 128) => s.twn.recent.find? fun x => x.1 == p.1
  let bad := s.twn.peerDigs.any fun p => match both p with
    | some x => x.2 != p.2
    | none => false
  let s := { s with twn := { s.twn with peerDigs := s.twn.peerDigs.filter fun p => (both p).isNone } }
  if bad then (((s.put F.TWN_STAT.DMIS 0 1).raise 255).setFault 4).alert 2 else s

/-- The next complete record is taken for delivery: its stage, its length and its time become the trail's. -/
def State.takeRecord (s : State) : State :=
  match s.twn.delivering, s.twn.rxRecs with
  | none, x :: t =>
    let h := x.2.1
    let s := { s with
      dtime := h.dtime
      epoch := h.epoch
      twn := { s.twn with
        rxRecs := t
        delivering := some x
        openUs := clampTo 4 64 h.stageUs
        peerDigs := if h.dstage = BitVec.allOnes 64 then s.twn.peerDigs else
          ((h.dstage, h.digest) :: s.twn.peerDigs.filter fun p => p.1 != h.dstage).take 64 } }
    let s := (s.put F.TWN_STAT.BACKLOG 0 (min 255 t.length)).setReg .TWN_STAGE 0 h.stage
    ((s.put F.TWN_CTL.STAGE_US 0 (clampTo 4 64 h.stageUs)).stageTime h.stage h.dtime).packTimeouts.compareDigests
  | _, _ => s

/-! ### What a fence leaves (R198, R368 to R370, R644) -/

/-- FENCE or UNFENCE of a side to every present pack that has been brought up, a lost one with its link up among them, in ascending port order
(R198, R382): HOLD does not keep it back, and a sleeping pack is woken. -/
def State.sideCmd (s : State) (use : PkUse) (opc side : Nat) : State :=
  ((List.range 32).filter fun k => s.reachable k || (s.pkState k == 11 && s.on F.PKP_STAT.LINK_UP k)).foldl
    (fun s k =>
      let s := if s.asleep k then s.wakeGroup (s.get F.PKP_CTL.SGRP k) else s
      s.packIssue k use { cseq := 0, opc := opc, param := BitVec.ofNat 64 side }) s

/-- The identity of the other twin; its pack side has the same number. -/
def State.peerId (s : State) : Nat := 1 - s.straps.twinId.toNat

/-- A survivor (`trail`: it was the trail): it stands alone, its hold and the freeze end, packs whose own side is down are lost, and Twin Peer Fenced is
posted. -/
def State.survive (s : State) (trail : Bool) (cause : Nat) : State :=
  let bothUp := fun (p : Nat × Pack) => (p.1, { p.2 with sideLost := false, peerLost := false })
  let s := ((s.put F.TWN_CTL.MODE 0 3).put F.TWN_STAT.ROLE 0 0).put F.TWN_STAT.PAIRED 0 0
  let s := (s.putAll F.HIF_TWNSTAT.ROLE 0).putAll F.HIF_TWNSTAT.STATE 3
  let s := { s with twn := { s.twn with frozen := false }, arb := { s.arb with promote := none, query := none, swap := none } }
  let gone := (List.range 32).filter fun n => if trail then (s.pk n).peerLost else (s.pk n).sideLost
  let s := gone.foldl State.packLost s
  let s := { s with packs := s.packs.map bothUp }.releaseHeld
  let s := (s.fab.qps.map Prod.fst).foldl State.errJudge s
  let n := s.hif.fenceCnt + 1
  let s := { s with hif := { s.hif with
    fenceCnt := n
    lastLoser := s.peerId
    lastCause := cause
    lastEpoch := s.epoch
    lastDtime := s.dtime } }
  (((List.range 66).foldl (fun s f => s.bump F.HIF_TWNSTAT.FENCE_CNT f) s).vendor 1).flow

/-- R368, step 1: records are applied one after another while nothing waits. -/
def State.applyAll : Nat → State → State
  | 0, s => s
  | fuel + 1, s =>
    let s := s.takeRecord.deliverGo
    if s.twn.delivering.isNone && !s.twn.rxRecs.isEmpty then s.applyAll fuel else s

/-- R368: a promotion goes on; once every entry held has been applied the controller leads from the next stage on, and captures
its own stock. -/
def State.promoteGo (s : State) : State :=
  match s.arb.promote with
  | none => s
  | some cause =>
    let s := s.applyAll (s.twn.rxRecs.length + 1)
    if s.twn.delivering.isSome || !s.twn.rxRecs.isEmpty || !s.twn.applying.isEmpty then s
    else ((s.becomeLead (s.reg .TWN_STAGE 0 + 1)).survive true cause).captureStock

/-- RECORD_APPLY (R319, R331): the next record that has arrived in full is delivered. After the record with a role change the
trail leads from the next stage on (R390). -/
def execRecordApply (s : State) : Res := s.awake <|
  .next (if s.isTrail then s.takeRecord.deliverGo.bootGo.promoteGo else s)

/-! ### Messages of the twin link (R315 to R321, R331, R337) -/

/-- R315: a message whose tag fails is discarded with its flits, and replayed; the third failure within 1 ms takes the link
down. -/
def State.tagFail (s : State) : State :=
  let recent := (s.twn.tagFails.filter fun t => decide (s.elapsed < t + 1000)) ++ [s.elapsed]
  let s := (((s.bump F.TWN_LINK.AUTHFAIL 0).raise 262).setFault 7).control .twin s.twn.link.rx 0x11 0
  let s := { s with twn := { s.twn with tagFails := recent } }
  if 3 ≤ recent.length then { s with twn := { s.twn with tagFails := [] } }.twinDown else s

/-- The bytes of a record of these entries, its header included (R330). -/
def recLen (l : List LEntry) : Nat := 64 + l.foldl (fun n e => n + e.len) 0

/-- RECORD (R331): a segment, or with the header the last one: the record is complete when NENT and RLEN match what has come. Where they do not,
what has come is kept (DESIGN CHOICE, log entry 159). -/
def execRecord (entries : List LEntry) (hdr : Option RecHdr) (tagOk : Bool) (s : State) : Res := s.awake <|
  .next (
    if !s.on F.TWN_STAT.LINK_UP then s
    else if !tagOk then s.tagFail
    else if !s.isTrail then s
    else
      let bytes := entries.foldl (fun n e => n + e.len) 0 + (if hdr.isSome then 64 else 0)
      let s := s.twinIn bytes
      let s := { s with twn := { s.twn with rxEnts := s.twn.rxEnts ++ entries } }
      match hdr with
      | none => s
      | some h =>
        if h.nent ≠ s.twn.rxEnts.length ∨ h.rlen ≠ recLen s.twn.rxEnts then s
        else
          let s := { s with twn := { s.twn with rxRecs := s.twn.rxRecs ++ [(s.elapsed, h, s.twn.rxEnts)], rxEnts := [] } }
          s.put F.TWN_STAT.BACKLOG 0 (min 255 s.twn.rxRecs.length))

/-- The size of the retention area in bytes (TWN_RETCFG). -/
def State.retSize (s : State) : Nat := 2 ^ clampTo 6 8 (s.get F.TWN_RETCFG.SIZE) * 2 ^ 20

/-- Bytes retained. -/
def State.retUsed (s : State) : Nat := s.twn.retained.foldl (fun a x => a + x.2) 0

/-- STAGE_ACK (R337): records up to the stage are released; with none left, neither are copies of messages needed. -/
def execStageAck (stage : BitVec 64) (s : State) : Res := s.awake <|
  .next (if !s.on F.TWN_STAT.LINK_UP || s.isTrail then s
    else
      let s := s.twinIn 8
      let left := s.twn.retained.filter fun x => decide (stage.toNat < x.1.toNat)
      let s := { s with twn := { s.twn with retained := left } }
      if left.isEmpty && s.twn.openRec.isEmpty then { s with twn := { s.twn with packMsgs := [], capsules := [] } } else s)

/-- R326: held inputs enter the open stage, in order, as far as there is room. -/
def State.retryList (s : State) : List LEntry → State
  | [] => ({ s with twn := { s.twn with heldIn := [] } }).put F.TWN_STAT.HELD 0 0
  | e :: t =>
    if !s.hasRoom e then { s with twn := { s.twn with heldIn := e :: t } }
    else
      let e := { e with toff := s.toff }
      let s := { s with twn := { s.twn with openHeld := true } }
      let s := (if s.staged then s.recordPut e else s).ringDeliver e
      ((s.entryEffect e).getD s).retryList t

/-- Held inputs are tried again, and after them the capsules that wait in their receive buffers (R84). -/
def State.retryHeld (s : State) : State :=
  if !s.on F.TWN_STAT.HELD || !s.twn.markWait.isEmpty then s
  else
    let s := s.retryList s.twn.heldIn
    if !s.twn.heldIn.isEmpty then s
    else if s.fab.qps.any (fun e => !e.2.buf.isEmpty) then { s with twn := { s.twn with openHeld := true } }.fabricTurns else s

/-- R102: a report of a capsule is one that this side, in the error state, has not had: its RSEQ is not below the next one here. -/
def State.lacksCapsule (s : State) (e : LEntry) : Bool :=
  match e.payload with
  | qpn :: rseq :: _ => match tget qpn s.fab.qps with
    | some q => q.err && decide (q.rseq.toNat ≤ rseq)
    | none => false
  | _ => false

/-- PEER_REPORT (R321): the lead enters the trail's report in the open stage with ORIGIN 1. A capsule whose queue pair is in the error state
here is asked for first, and entered once its bytes are here (R102; DEDUCED, log entry 150). -/
def execPeerReport (e : LEntry) (s : State) : Res := s.awake <|
  .next (if !s.on F.TWN_STAT.LINK_UP || !s.pairedLead || !(e.cls == 2 || e.cls == 3 || e.cls == 4 || e.cls == 6) then s
    else
      let e := { e with origin := true }
      let s := (s.twinIn e.len).raise 258
      if e.cls = 2 then if s.lacksCapsule e then s.fetchAsk e else s
      else s.capture e fun s => (s.entryEffect e).getD s)

/-- R96: the write data of a capsule as this twin has it: landed, or in the command itself. -/
def State.dataOf (s : State) (qpn rseq : Nat) : Option (List BlockData) :=
  (s.fab.landed.find? fun x => x.1 == qpn && x.2.1 == rseq).map fun x => x.2.2

/-- What a request of the peer names is in full: a capsule or a message by its entry; write data, by an entry with CRC 0 (log entry 104);
a connection (R96). -/
def State.serveFetch (s : State) (e : LEntry) : Option Bytes :=
  match s.copyOf e with
  | some (.inl k) => some k.bytes
  | some (.inr m) => some m.bytes
  | none => match e.cls, e.payload with
    | 2, qpn :: rseq :: _ :: crc :: _ =>
      if crc = 0 then (s.dataOf qpn rseq).map fun l => l.flatMap fun b => b.data ++ b.md else none
    | 3, qpn :: _ => some (s.connBytes qpn)
    | _, _ => none

/-- FETCH_REQ (R96, R320): what is named is sent in full, if this twin has it. -/
def execFetchReq (e : LEntry) (s : State) : Res := s.awake <|
  .next (if !s.on F.TWN_STAT.LINK_UP then s
    else
      let s := s.twinIn e.len
      match s.serveFetch e with
      | some b => s.twinSend 5 b
      | none => s)

/-- The fabric write of a capsule that waits for its data. -/
def State.dataWaits (s : State) (qpn rseq : Nat) : Option Ctx :=
  s.hif.ctxs.find? fun c => c.sqid == qpn && c.rseq == rseq && c.tenant.isAssoc && c.hasData

/-- R96: the write data of a capsule has come from the peer, which holds the same data. -/
def State.peerData (s : State) (qpn rseq : Nat) : State :=
  match s.dataWaits qpn rseq with
  | some c => match c.wait with
    | .rdma x => s.rdmaHere c x
    | _ => s
  | none => s

/-- R102: on a lead whose side of a queue pair is in error, a capsule that the trail reported is here: it is captured with ORIGIN 1. -/
def State.peerCapsule (s : State) (e : LEntry) : State :=
  if s.pairedLead ∧ e.origin = true ∧ s.lacksCapsule e = true then
    let s := match e.payload with
      | qpn :: rseq :: _ => match tget qpn s.fab.qps with
        | some q => s.setQp qpn { q with rseq := BitVec.ofNat 32 (rseq + 1) }
        | none => s
      | _ => s
    s.capture e fun s => (s.entryEffect e).getD s
  else s

/-- FETCH_DATA (R96, R320): the peer's copy is used: of a capsule or a pack message, of write data whose RDMA Read failed, or of a connection;
source 198 reports a capsule taken from the peer (R104). -/
def execFetchData (e : LEntry) (bytes : Bytes) (s : State) : Res := s.awake <|
  .next (if !s.on F.TWN_STAT.LINK_UP || !s.twn.fetches.contains e then s
    else
      let s := s.twinIn bytes.length
      let s := { s with twn := { s.twn with fetches := s.twn.fetches.filter fun x => x != e } }
      let s := match e.cls, e.payload with
        | 2, qpn :: rseq :: _ =>
          if (s.dataWaits qpn rseq).isSome then s.peerData qpn rseq else
          let k : Capsule := { qpn := qpn, rseq := rseq, bytes := bytes }
          let s := (s.dropCapsule qpn rseq).raise 198
          { s with twn := { s.twn with capsules := s.twn.capsules ++ [k] } }.peerCapsule e
        | 3, qpn :: _ => s.connectAway qpn bytes
        | 4, n :: kind :: _ :: _ :: seq :: _ =>
          let r := parseResp bytes
          let m : PkMsg := if kind = 0 then .resp n r
            else .async n seq (le bytes 4 2) (le bytes 6 2) (BitVec.ofNat 64 (le bytes 8 8))
          let s := s.dropMsg n kind seq
          { s with twn := { s.twn with packMsgs := s.twn.packMsgs ++ [m] } }
        | _, _ => s
      s.applyGo.promoteGo)

/-- R369: a survivor that cannot get the bytes of an applied entry ends the association of a capsule, and loses the pack of a
message when its side of it is down. -/
def State.giveUp (s : State) (e : LEntry) : State :=
  match e.cls, e.payload with
  | 2, qpn :: _ => match tget qpn s.fab.qps with
    | some q => (s.endAssoc q.assoc).flow
    | none => s
  | 4, n :: _ => if s.on F.PKP_STAT.LINK_UP n then s else s.packLost n
  | _, _ => s

/-- PEER_FETCH_TIMEOUT (R96, R320, R369): a copy has not come within one stage of its entry's application: it is fetched from
the peer; a survivor has no peer. -/
def execPeerFetchTimeout (e : LEntry) (s : State) : Res := s.awake <|
  .next (if s.twn.applying.head? ≠ some e || !namesBytes e then s
    else if s.isTrail && s.arb.promote.isNone then s.fetchAsk e
    else ((s.giveUp e).applyList (s.twn.applying.drop 1)).promoteGo)

/-- RDMA_READ_FAILED (R94, R96, R104): source 196, and the queue pair goes to the error state. A paired twin asks its peer, which holds the same
data, by naming the capsule's entry; alone, the command ends with Data Transfer Error. -/
def execRdmaReadFailed (stamp : BitVec 64) (s : State) : Res := s.awake <|
  .next (match s.ctx stamp with
    | none => s
    | some c => match c.wait with
      | .rdma .. =>
        let s := (s.raise 196).qpError c.sqid
        if s.on F.TWN_STAT.PAIRED then
          s.fetchAsk { cls := 2, origin := false, toff := 0, payload := [c.sqid, c.rseq, 64 + c.inCap, 0, 0, 0] }
        else (((s.giveBack c).fail c 0 0x04).flow).rdmaGo c.sqid
      | _ => s)

/-- KEY_ROTATE (R316, R418): the peer's direction goes to its next generation. -/
def execKeyRotate (s : State) : Res := s.awake <|
  .next (if !s.on F.TWN_STAT.LINK_UP then s
    else
      let s := s.twinIn 0
      let s := { s with
        twn := { s.twn with mseqRx := 0, kgenRx := s.twn.kgenRx + 1 }
        keys := { s.keys with genRx := s.keys.genRx + 1 } }
      s.recvKey.raise 261)

/-! ### Arrivals of the captured classes on a link (R318 to R320) -/

/-- PACK_RESPONSE (R185): it is accepted from the lane, captured (R318), or kept as the trail's copy (R319). -/
def execPackResponse (n : Fin 32) (r : RespHdr) (data : Bytes) (s : State) : Res := s.awake <|
  .next (
    if !s.on F.PKP_STAT.LINK_UP n then s
    else
      let r : PackResp := { r with data := data }
      let s := s.accepted (.pack n) (flitsOf (32 + data.length))
      let e := pkEntry n 0 r.status.toNat r.cseq r.data.length (crc32c (respBytes r))
      let s := if s.isTrail && (r.status == 4 || r.status == 5) then s.seqFault n else s
      ((s.keepMsg e (.resp n r)).capture e fun s => s.applyResp n r).applyGo.bootGo.promoteGo)

/-- PACK_ASYNC (R205): the port's source is raised, and the event is captured with the ESEQ of its flit. -/
def execPackAsync (n : Fin 32) (h : AsyncHdr) (die : Nat) (value : BitVec 64) (s : State) : Res := s.awake <|
  .next (
    if !s.on F.PKP_STAT.LINK_UP n then s
    else
      let s := (s.setPk n { s.pk n with eseq := h.eseq.toNat }).accepted (.pack n) 1
      let m := PkMsg.async n h.eseq.toNat h.code die value
      let e := pkEntry n 1 0 h.eseq 16 (crc32c m.bytes)
      (((s.pkRaise n).keepMsg e m).capture e fun s => s.applyAsync n h.code die).applyGo.promoteGo)

/-- CAPSULE_RECEIVE (R84, R104): a capsule arrives in its receive buffer, and is taken when its association's turn comes (R87); a trail
keeps its copy for the ledger. Nothing arrives while the port's link is down or the queue pair is in the error state, nor beyond the
buffers of the queue, and a discovery queue pair's capsules are DISCOVERY_COMMAND's. -/
def execCapsuleReceive (qpn : Nat) (opcode flags : BitVec 8) (cid : BitVec 16) (nsid : BitVec 32) (body : Bytes) (s : State) : Res := s.awake <|
  .next (match tget qpn s.fab.qps with
    | none => s
    | some q =>
      if q.err || !s.on F.FAB_PSTAT.LINK_UP q.port || (s.assoc q.assoc).discovery || decide (q.size ≤ q.buf.length) then s
      else
        let k : Capsule := { qpn := qpn, rseq := q.rseq.toNat, bytes := capsuleBytes opcode flags cid nsid body }
        let q' := { q with rseq := q.rseq + 1, buf := if s.isTrail then q.buf else q.buf ++ [k] }
        let s := { s with fab := { s.fab with qps := tput qpn q' s.fab.qps } }
        if s.isTrail then (((s.raise 192).keepCapsule (capsuleEntry k q.port) k).tellCapsule k).applyGo.promoteGo
        else s.fabricTurns)

/-! ### Closing a stage (R332, R333) -/

/-- R328: reads of a core that no claim has recorded are recorded at the close. -/
def State.closePolls (s : State) (core : Nat) : State :=
  let n := tgetD core 0 s.twn.polls
  if n = 0 then s
  else (s.recordPut { cls := 8, origin := false, toff := s.toff, payload := [core, 0, 0xFFFF, n, 0, 0] }).setPolls core 0

/-- The 64 bytes of the open record's header (R330). -/
def State.recHeader (s : State) : Bytes :=
  let d := s.twn.recent.head?.getD (BitVec.allOnes 64, 0)
  leBytes 4 0x5247444C ++ leBytes 2 1 ++ leBytes 2 (s.twn.openHeld.toNat + 2 * s.twn.newUs.isSome.toNat) ++
    leBytes 8 (s.reg .TWN_STAGE 0).toNat ++ leBytes 8 s.twn.openDtime.toNat ++ leBytes 2 s.twn.openEpoch.toNat ++
    leBytes 2 s.twn.openUs ++ leBytes 4 s.twn.openRec.length ++ leBytes 4 s.twn.openLen ++ leBytes 4 0 ++
    leBytes 8 d.1.toNat ++ leBytes 16 d.2.toNat

/-- R384: a rejoin is abandoned: notice code 3 with reason 5, at the survivor; the joiner is as it was, and after the cut it
refuses I/O until it rejoins. -/
def State.rejoinAbort (s : State) (reason : Nat) : State :=
  if !s.arb.rj.active then s
  else
    let s := s.twinSend 0x15 (leBytes 4 reason)
    let rj := s.arb.rj
    let s := { s with arb := { s.arb with rj := {} } }
    if !rj.joiner then s.notice 3 5 0
    else
      let s := ((s.put F.TWN_CTL.MODE 0 0).put F.TWN_STAT.ROLE 0 0).putAll F.HIF_TWNSTAT.ROLE 0
      { s with arb := { s.arb with outcast := s.arb.outcast || rj.cut.isSome } }.putAll F.HIF_TWNSTAT.STATE rj.was

/-- The oldest records are released while the area is over full; the trail then cannot follow (R337). -/
def State.retTrim : Nat → State → State
  | 0, s => s
  | fuel + 1, s =>
    if s.retUsed ≤ s.retSize then s
    else
      let s := { s with twn := { s.twn with retained := s.twn.retained.drop 1, lostFollow := true } }
      (s.rejoinAbort 2).retTrim fuel

/-- R337: the closed record is kept until it is acknowledged. -/
def State.retain (s : State) (n : BitVec 64) (len : Nat) : State :=
  let was := s.retUsed
  let s := { s with twn := { s.twn with retained := s.twn.retained ++ [(n, len)] } }
  let s := if 4 * was ≤ 3 * s.retSize ∧ 3 * s.retSize < 4 * s.retUsed then s.raise 260 else s
  s.retTrim s.twn.retained.length

/-- The level of HB (R357). -/
def State.setHb (s : State) (b : Bool) : State := { s with arb := { s.arb with hb := b } }.send (.pin 0 b)

/-- Stage `n` opens with the length that a write has set (R333). -/
def State.openStage (s : State) (n : BitVec 64) : State :=
  { (s.setReg .TWN_STAGE 0 n) with twn := { s.twn with
    openRec := []
    openLen := 64
    openHeld := false
    openUs := s.twn.newUs.getD s.twn.openUs
    newUs := none
    openDtime := s.dtime
    openEpoch := s.epoch
    openAt := s.elapsed } }.stageTime n s.dtime |>.packTimeouts

/-- A page of memory goes to the joiner (R379, R380). -/
def State.sendPage (s : State) (p : Nat) : State :=
  s.twinSend 0x12 (leBytes 8 (4096 * p) ++ leBytes 4 1 ++ leBytes 4 0 ++ s.rdBytes (4096 * p) 4096)

/-- The pages that have become dirty go to the joiner, and none is dirty any more. -/
def State.sendDirty (s : State) : State :=
  let l := s.arb.rj.dirty.filter fun p => s.twinVisible (4096 * p)
  l.foldl State.sendPage { s with arb := { s.arb with rj := { s.arb.rj with dirty := [] } } }

/-- R29, R382: the registers that are twin-visible. Of registers that no rule classes, which belong here is the model's own choice
(DESIGN CHOICE, log entry 107). -/
def twinRegs : List RegName :=
  [.CC, .CSTS, .AQA, .ASQ, .ACQ, .MAP_CTL, .MAP_CACHE_CFG, .MAP_PTAB_CFG, .MAP_PTAB_STAT, .MAP_CAP_USABLE, .MAP_CAP_LIVE,
   .MAP_CAP_CHARGED, .MAP_QBASE, .MAP_QCTL, .MAP_QTAIL, .MAP_QHEAD, .CMP_CTL, .CMP_RING_CFG, .CMP_RING_PTR, .PKP_CTL, .PKP_CSEQ,
   .CVY_CTL, .CVY_ACC_CFG, .CVY_RING_CFG, .CVY_RING_PTR, .MED_CTL, .MED_ITER_CFG, .CPH_CTL,
   .CPH_RING_CFG, .CPH_RING_PTR, .TWN_ROUTE, .TWN_TVR, .PTR_DONE]

/-- Is a key of the register file that of a twin-visible register? -/
def twinKey (k : Nat) : Bool := twinRegs.any fun r => keyOf r k

/-- R382: what the joiner takes at the cut: every twin-visible register that does not hold its reset value, and the twin-visible records. -/
def State.image (s : State) : CutImage :=
  { regs := s.regs.filter fun e => twinKey e.1
    level := s.fw.level
    hif := s.hif
    map := s.map
    cmpWait := s.cmpWait
    conv := s.conv
    health := s.health
    progress := s.pow.progress
    fab := s.fab
    packs := s.packs
    samples := s.hkp.sample }

/-- R382: the cut at the close of stage `n`: RSYNC_CUT with the registers that are twin-visible, UNFENCE of the joiner's side
to every present pack, and the full fetch rate again. -/
def State.takeCut (s : State) (n : BitVec 64) : State :=
  if !s.arb.rj.active || !s.arb.rj.cutNext then s
  else
    let s := { s with arb := { s.arb with rj := { s.arb.rj with cut := some n, cutNext := false, throttle := 1 } } }
    let s := s.sendDirty.twinSend 0x13
      (leBytes 8 n.toNat ++ s.image.regs.flatMap fun e => leBytes 8 e.1 ++ leBytes 8 e.2.toNat)
    s.sideCmd (.unfence s.peerId) 0x11 s.peerId

/-- R390: the lead of stage X applies records from X + 1 on. -/
def State.takeSwap (s : State) (n : BitVec 64) : State :=
  if s.arb.swap ≠ some n then s
  else
    let s := { s with arb := { s.arb with swap := none } }
    let s := ((s.put F.TWN_CTL.MODE 0 2).put F.TWN_STAT.ROLE 0 1).putAll F.HIF_TWNSTAT.ROLE 1
    { s with twn := { s.twn with retained := [], rxEnts := [], rxRecs := [], polls := [] } }.releaseHeld

/-- R332: the open stage closes: its last entries, its header, retention, markers, EVT[0] and the heartbeat; the next one
opens, and what was held enters it. -/
def State.closeStage (s : State) : State :=
  let n := s.reg .TWN_STAGE 0
  let s := (List.range 23).foldl State.closePolls s
  let s := match s.twn.newUs with
    | some u => s.recordCtl 1 u
    | none => s
  let s := if s.sendsRecords then s.twinSend 1 s.recHeader true else s
  let s := s.retain n s.twn.openLen
  let s := (s.rings.foldl (State.marker n) s).hwPulse 0
  let s := (s.setHb !s.arb.hb).openStage (n + 1)
  ((s.takeCut n).takeSwap n).retryHeld

/-- STAGE_CLOSE (R332): on a lead or a survivor. -/
def execStageClose (s : State) : Res := s.awake <| .next (if s.staged && !s.isTrail then s.closeStage else s)

/-- TRAIL_HEARTBEAT (R357): a trail toggles HB by its own clock; HB is low while solo or fenced. -/
def execTrailHeartbeat (s : State) : Res := s.awake <|
  .next (if s.isTrail && !s.arb.fenceLow then s.setHb !s.arb.hb else s)

/-- STAGE_LENGTH_WRITE (R333): on the lead it takes effect at the next close; a trail ignores it. -/
def execStageLengthWrite (us : BitVec 7) (s : State) : Res := s.awake <|
  .next (if s.isTrail then s
    else
      let u := clampTo 4 64 us.toNat
      let s := s.put F.TWN_CTL.STAGE_US 0 us.toNat
      if s.staged then { s with twn := { s.twn with newUs := some u } } else { s with twn := { s.twn with openUs := u } })

/-- R286, R289: PWRFAIL_N, low for at least 1 µs. In twin mode it acts through its ledger entry, and the lead closes the stage
when it captures the edge. -/
def execPowerFailAssert (ns : Nat) (s : State) : Res := s.awake <|
  .next (if ns < 1000 then s
    else
      let e : LEntry := { cls := 7, origin := false, toff := 0, payload := [1, 0, 0, 0] }
      let s := s.capture e State.powerFail
      if s.pairedLead && s.staged then s.closeStage else s)

/-! ### Input rings and digests (R345 to R349) -/

/-- R345: the cores whose ring head has passed a marker are in the next stage. -/
def State.passMarkers (s : State) (i : Nat) : State :=
  let at_ : BitVec 32 := tgetD i 0 s.twn.irTail - BitVec.ofNat 32 (tgetD i 0 s.twn.irUsed)
  let gone := fun (m : Nat × BitVec 32 × BitVec 64) => m.1 == i && decide ((at_ - m.2.1).toNat < 2 ^ 31)
  let l := s.twn.markers.filter gone
  let s := { s with twn := { s.twn with markers := s.twn.markers.filter fun m => !gone m } }
  (l.foldl (fun s m => s.setReg .TWN_CSTAGE i (m.2.2 + 1)) s).stimes

/-- INPUT_RING_HEAD_WRITE (R345): slots are free again; what waited for room goes on. -/
def execInputRingHeadWrite (i : Fin 23) (head : BitVec 16) (s : State) : Res := s.awake <|
  .next (
    let size := s.ringSize i
    let h := head.toNat % size
    let used := tgetD i.val 0 s.twn.irUsed
    let n := min used ((h + size - s.get F.TWN_IRHEAD.HEAD i % size) % size)
    let s := s.put F.TWN_IRHEAD.HEAD i head.toNat
    let s := { s with twn := { s.twn with irUsed := tset 0 i.val (used - n) s.twn.irUsed } }
    let s := ((s.passMarkers i).markAgain)
    if s.isTrail then s.deliverGo.settled.promoteGo else s.retryHeld)

/-- DIGEST_IN_WRITE (R347): an output of OCLASS 10 of the writing core's stage. -/
def execDigestInWrite (core : Fin 24) (v : BitVec 64) (s : State) : Res := s.awake <| .next (s.digest core (.digestIn core v))

/-- R347: the digest of stage `n`. -/
def StageAcc.final (n : BitVec 64) (a : StageAcc) : BitVec 128 :=
  BitVec.ofNat 128 (leNat ((sha384 ([0x54, 0x57, 0x44, 0x47] ++ leBytes 8 n.toNat ++ leBytes 32 a.a.toNat ++ leBytes 8 a.n)).take 16))

/-- STAGE_DIGEST_FINAL (R348, R349): in ascending order, once every core in service is past the stage. The sums of the last 64
stages are kept for REPORT. -/
def execStageDigestFinal (stage : BitVec 64) (s : State) : Res := s.awake <|
  .next (
    let after := match s.twn.recent with
      | [] => true
      | x :: _ => decide (x.1.toNat < stage.toNat)
    if !s.staged || !after || !s.passed stage then s
    else
      let a := match s.twn.accs.find? fun x => x.1 == stage with
        | some x => x.2
        | none => {}
      let d := StageAcc.final stage a
      let s := { s with twn := { s.twn with
        finals := s.twn.finals ++ [(stage, d)]
        recent := ((stage, d) :: s.twn.recent).take 64
        accs := s.twn.accs.filter fun x => decide (stage.toNat < x.1.toNat + 64) } }
      (s.sendDigests s.twn.finals.length).compareDigests)

/-- LAG_LIMIT_EXCEEDED (R335): LAG of the oldest record not yet applied is beyond the limit. -/
def execLagLimitExceeded (lagUs : Nat) (s : State) : Res := s.awake <|
  .next (if !s.isTrail || lagUs ≤ s.lagLimit || (s.twn.rxRecs.isEmpty && s.twn.awaitAck.isEmpty && s.twn.delivering.isNone) then s
    else
      let s := { s with twn := { s.twn with lagging := true } }
      ((s.put F.TWN_STAT.LAGX 0 1).raise 254).setFault 8)

/-- TRAIL_DOORBELL_UNMATCHED (R352): counted, and nothing else. -/
def execTrailDoorbellUnmatched (f : Fin 66) (qid val : Nat) (s : State) : Res := s.awake <|
  .next (if s.isTrail && s.twn.ringDoorbells.contains (f.val, qid, val) then
      { s with twn := { s.twn with unmatched := s.twn.unmatched + 1 } }.raise 264
    else s)

end Sys2Proof.Machine
end

