-- ==== Sys2Proof/Machine/Arb.lean ====
section
/-! DEFINITION. The arbiter link, fencing and promotion, pairing and rejoin (chapter 11), and the twin link's training (R313). -/

namespace Sys2Proof.Machine

/-! ### Messages of the arbiter (R355, R356, R371) -/

/-- ARB_LOST changes; a lead's or survivor's change is recorded, shown in log page 0xC1 and posted (R371). -/
def State.arbLost (s : State) (b : Bool) : State :=
  let s := s.putAll F.HIF_TWNSTAT.ARB_LOST b.toNat
  if s.staged && !s.isTrail then (s.recordCtl 4 b.toNat).vendor 2 else s

/-- A valid message of the arbiter has arrived: source 4 (R21); a gap in its MSEQ is counted (R355); the third in a row ends ARB_LOST (R371). -/
def State.arbIn (s : State) (mseq : BitVec 32) : State :=
  let gap := match s.arb.mseqRx with
    | some x => mseq.toNat - x.toNat - 1
    | none => 0
  let s := s.bump F.TWN_LINK.AUTHFAIL 0 gap
  let s := { s with arb := { s.arb with mseqRx := some mseq } }.raise 4
  if !s.on F.HIF_TWNSTAT.ARB_LOST then s
  else if s.arb.good + 1 < 3 then { s with arb := { s.arb with good := s.arb.good + 1 } }
  else { s with arb := { s.arb with good := 0 } }.arbLost false

/-- ARBITER_LOST (R371): no valid message for 4 ms. -/
def execArbiterLost (s : State) : Res := s.awake <|
  .next (if s.on F.HIF_TWNSTAT.ARB_LOST then s else { s with arb := { s.arb with good := 0 } }.arbLost true)

/-- FWVER of R374: the versions of stage-2, control, security-core and media-core firmware. -/
def Manifest.fwver (m : Manifest) : List (BitVec 64) :=
  let ver := fun (t : Nat) => match m.parts.find? fun p => p.typ == t with
    | some p => p.pver
    | none => 0
  [1, 2, 3, 4].map ver

/-- The version of control firmware. -/
def controlVer (l : List (BitVec 64)) : BitVec 64 := l.getD 1 0

/-- STATUS_SEND (R356): every 1 ms and on any change. -/
def execStatusSend (s : State) : Res := s.awake <|
  .next (s.arbSend 2 (leBytes 1 s.straps.twinId.toNat ++ leBytes 1 s.twState ++ leBytes 1 (s.get F.HIF_TWNSTAT.ROLE) ++ [0] ++
    leBytes 2 s.twn.openUs ++ leBytes 2 (s.get F.TWN_CTL.LAG_LIM) ++ leBytes 8 (s.reg .TWN_STAGE 0).toNat ++
    leBytes 8 s.arb.pairId.toNat ++ leBytes 8 (controlVer s.man.fwver).toNat))

/-- REPORT (R356): FAULTS, and for each OCLASS the count and the first 16 bytes of the class sum of the stage. -/
def State.report (s : State) (stage : BitVec 64) : State :=
  let a : StageAcc := match s.twn.accs.find? fun x => x.1 == stage with
    | some x => x.2
    | none => {}
  let one := fun (c : Nat) => leBytes 4 (tgetD c (0, 0) a.cls).2 ++ leBytes 16 (tgetD c (0, 0) a.cls).1.toNat
  s.arbSend 4 (leBytes 8 stage.toNat ++ leBytes 8 s.twn.faults.toNat ++ [1, 2, 3, 4, 5, 6, 7, 8, 9, 10].flatMap one)

/-- QUERY (R360, R384): held outputs freeze, REPORT is sent, and a rejoin is abandoned. -/
def execQuery (mseq : BitVec 32) (stage : BitVec 64) (_cause : Nat) (s : State) : Res := s.awake <|
  .next (
    let s := s.arbIn mseq
    let s := { s with twn := { s.twn with frozen := true }, arb := { s.arb with query := some stage } }
    (s.report stage).rejoinAbort 4)

/-- The freeze ends. -/
def State.thaw (s : State) : State :=
  { s with twn := { s.twn with frozen := false }, arb := { s.arb with query := none } }.releaseHeld

/-- QUERY_FREEZE_TIMEOUT (R360): 100 µs without a verdict. -/
def execQueryFreezeTimeout (s : State) : Res := s.awake <| .next (if s.twn.frozen then s.thaw else s)

/-- R198, R368, R370: the twin stands alone from here: FENCE of the peer's side, then, for a lead, the end of its hold; a trail is
promoted once it has applied what it holds: a part of a record counts as the next stage's. -/
def State.fencePeer (s : State) (cause : Nat) : State :=
  let s := s.sideCmd (.fence s.peerId) 0x10 s.peerId
  if !s.isTrail then s.survive false cause
  else
    let last := match s.twn.rxRecs.getLast?, s.twn.delivering with
      | some x, _ => x.2.1.stage
      | none, some x => x.2.1.stage
      | none, none => s.reg .TWN_STAGE 0
    let h : RecHdr :=
      { stage := last + 1, dtime := s.dtime, epoch := s.epoch, stageUs := s.twn.openUs, held := false, nent := s.twn.rxEnts.length,
        rlen := recLen s.twn.rxEnts, dstage := BitVec.allOnes 64, digest := 0 }
    let more := if s.twn.rxEnts.isEmpty then [] else [(s.elapsed, h, s.twn.rxEnts)]
    { s with
      twn := { s.twn with rxRecs := s.twn.rxRecs ++ more, rxEnts := [] }
      arb := { s.arb with promote := some cause } }.promoteGo

/-- VERDICT (R360, R368, R370): a loser of 0xFF or the controller itself ends only the freeze; FENCE_N silences the loser. A
trail's freeze ends with its promotion (R361). -/
def execVerdict (mseq : BitVec 32) (loser : BitVec 8) (cause : Nat) (_stage : BitVec 64) (s : State) : Res := s.awake <|
  .next (
    let s := s.arbIn mseq
    let s := s.answerWaits 0x0304 5 0 0 0 (leBytes 1 loser.toNat ++ leBytes 3 0)
    if s.staged && loser.toNat == s.peerId && s.arb.promote.isNone then s.fencePeer cause else s.thaw)

/-- R301: a controller with TWIN_ID 1 runs alone, and fences side A first. -/
def State.aloneFencing (s : State) : State :=
  let s := s.putAll F.HIF_TWNSTAT.STATE 0
  { s with pow := { s.pow with fenceA := true } }.alone

/-- Does a controller wait at step 5 for its first peer (R301)? -/
def State.awaitsPeer (s : State) : Bool := s.straps.twinId && s.twState == 1 && s.bootState == 3 && !s.arb.waitRejoin

/-- ARB_HELLO (R301, R371). A controller with TWIN_ID 1 at step 5 whose peer is reported absent runs alone, and fences side A. -/
def execArbHello (mseq : BitVec 32) (peer : Nat) (s : State) : Res := s.awake <|
  .next (
    let s := s.arbIn mseq
    let s := { s with arb := { s.arb with peer := peer } }
    if peer == 0 && s.awaitsPeer then s.aloneFencing else s)

/-- LEAD_CONTINUE_ALONE (R373). -/
def execLeadContinueAlone (s : State) : Res := s.awake <|
  .next (match s.arb.linkDownAt with
    | some t =>
      if s.pairedLead && s.on F.HIF_TWNSTAT.ARB_LOST && decide (t + 4 * s.twn.openUs ≤ s.elapsed) then s.fencePeer 2 else s
    | none => s)

/-! ### FENCE_N (R69, R362, R364) -/

/-- R69: what FENCE_N leaves of the outputs that are held: completions, those of I/O commands with status 0xC6. -/
def fencedOut (h : HeldOut) : Option HeldOut :=
  match h.o with
  | .cqe f sqid sqhd cqid slot a ph cid _ dw1 _ _ =>
    some (if sqid = 0 then h else { h with o := .cqe f sqid sqhd cqid slot a ph cid 0 dw1 7 0xC6 })
  | _ => none

/-- The same of entries that a full completion queue holds. -/
def Func.fencedHeld (c : Func) : Func :=
  let one := fun (e : CqEntry) => if e.sqid = 0 then e else { e with dw0 := 0, sct := 7, sc := 0xC6 }
  { c with cqs := c.cqs.map fun q => (q.1, { q.2 with held := q.2.held.map one }) }

/-- FENCE_N_ASSERT (R362): source 2, EVT[5], STATE 4, every transmitter but the arbiter link's and HB's idle; HB is held low
(R357). The controller is no member of the pair any more. -/
def execFenceNAssert (s : State) : Res := s.awake <|
  .next (
    let s := s.raise 2
    let s := ((s.put F.TWN_CTL.MODE 0 0).put F.TWN_STAT.PAIRED 0 0).put F.TWN_STAT.ROLE 0 0
    let s := (s.putAll F.HIF_TWNSTAT.STATE 4).putAll F.HIF_TWNSTAT.ROLE 0
    let s := { s with
      arb := { s.arb with fenceLow := true, outcast := true, rj := {}, swap := none, promote := none, query := none }
      twn := { s.twn with
        frozen := false
        held := s.twn.held.filterMap fencedOut
        rxEnts := []
        rxRecs := []
        delivering := none
        applying := []
        awaitAck := []
        stock := []
        finals := []
        capsules := []
        packMsgs := []
        retained := [] }
      hif := { s.hif with funcs := s.hif.funcs.map fun (f : Nat × Func) => (f.1, f.2.fencedHeld) } }
    (s.setHb false).send (.pin 2 false))

/-- FENCE_N_RELEASE (R69, R364): every I/O command still held ends with 0xC6, those whose completions were held first; the transmitters of packs and Ethernet idle on until
a rejoin. -/
def execFenceNRelease (s : State) : Res := s.awake <|
  .next (if !s.arb.fenceLow then s
    else
      let s := ({ s with arb := { s.arb with fenceLow := false } }.send (.pin 2 true)).releaseHeld
      ((s.hif.ctxs.filter fun c => !c.admin).foldl (fun s c => (s.giveBack c).fail c 7 0xC6) s).flow)

/-! ### Pairing (R374 to R377, R418, R454 to R456) -/

/-- The indices of a setting. -/
def SetInfo.indices (x : SetInfo) : List Nat := if x.nindex = 67 then List.range 66 ++ [0x100] else List.range x.nindex

/-- The bytes of a setting's value in force. -/
def State.settingBytes (s : State) (x : SetInfo) (i : Nat) : Bytes :=
  if x.id = 0x11 then tgetD i [] s.setv.nqn else leBytes x.vlen (s.setting x.id i)

/-- CFGDIG (R374): the twin-scoped settings by identifier and index, then the registers in the order of the table. -/
def State.cfgDig (s : State) : BitVec 384 :=
  let set := fun (x : SetInfo) => x.indices.flatMap (s.settingBytes x)
  let r := fun (n : RegName) (i : Nat) => leBytes 8 (s.reg n i).toNat
  let f := fun (x : Fld) => leBytes 8 (s.get x 0)
  let regs := r .MAP_CACHE_CFG 0 ++ r .MAP_PTAB_CFG 0 ++ r .MED_ITER_CFG 0 ++ f F.TWN_CTL.STAGE_US ++ f F.TWN_CTL.LAG_LIM ++
    r .TWN_ROUTE 0 ++ (List.range 16).flatMap (r .TWN_TVR) ++ f F.TWN_RETCFG.SIZE
  BitVec.ofNat 384 (leNat (sha384 ((settingTable.filter fun x => !x.local_).flatMap set ++ regs)))

/-- STATEDIG (R374): the namespace table, the generations and fingerprints of the key slots, and the anchor with the last LSEQ. -/
def State.stateDig (s : State) : BitVec 384 :=
  let ns := fun (e : Nat × Ns) => leBytes 4 e.1 ++ leBytes 8 e.2.nsze ++ leBytes 1 e.2.lbaf ++ leBytes 1 e.2.meta64.toNat ++
    leBytes 1 e.2.tolerance.toNat ++ leBytes 1 e.2.eltype ++ leBytes 1 (e.2.boundk % 256).toNat ++ leBytes 1 e.2.raw.toNat ++
    leBytes 1 e.2.sealed.toNat ++ leBytes 4 e.2.keyref.toNat ++ leBytes 4 e.2.inst.toNat ++ e.2.funcs.flatMap (leBytes 2)
  let key := fun (e : Nat × KeySlot) => leBytes 2 e.1 ++ leBytes 4 e.2.gen.toNat ++ keyFp e.1 e.2
  BitVec.ofNat 384 (leNat (sha384 (s.hif.ns.flatMap ns ++ (s.keys.slots.filter fun e => e.2.alg != 0).flatMap key ++
    s.conv.anchor.flatMap (leBytes 1) ++ leBytes 8 (s.conv.nextLseq - 1))))

/-- PAIR_HELLO leaves (R374). -/
def State.sendHelloTwin (s : State) : State :=
  s.twinSend 0x10 (leBytes 48 s.cfgDig.toNat ++ s.man.fwver.flatMap (fun v => leBytes 8 v.toNat) ++ leBytes 4 s.fw.schema ++
    leBytes 2 s.epoch.toNat ++ leBytes 2 0 ++ leBytes 8 s.dtime.toNat ++ leBytes 48 s.stateDig.toNat ++ leBytes 24 Config.serial.toNat)

/-- PAIR_RESULT leaves (R374). -/
def State.sendResult (s : State) (result : Nat) : State :=
  s.twinSend 0x11 (leBytes 4 result ++ leBytes 8 s.arb.pairId.toNat ++ leBytes 2 s.epoch.toNat ++ leBytes 2 0 ++
    leBytes 8 s.dtime.toNat)

/-- PAIR_ID (R376): SHA-384 over twin 0's serial, then twin 1's. -/
def State.pairIdOf (s : State) (h : PairHello) : BitVec 64 :=
  let own := leBytes 24 Config.serial.toNat
  let peer := leBytes 24 h.serial.toNat
  BitVec.ofNat 64 (leNat ((sha384 (if s.straps.twinId then peer ++ own else own ++ peer)).take 8))

/-- R454: the entry of the compatibility lists of both slots for the peer. -/
def State.peerEntry (s : State) (h : PairHello) : Option TwinCompat :=
  (s.fw.slots.flatMap fun x => x.2.man.twins).find? fun e => e.fwver == h.fwver

/-- R449: do both twins migrate their settings: one native schema, above the stored one? -/
def State.migratesWith (s : State) (h : PairHello) : Bool := h.native == s.man.setver && decide (s.fw.schema < s.man.setver)

/-- R375, R418, R419, R449, R454, R455: the refusal code of a pairing at start-up (`start`) or at a rejoin; 0 accepts. -/
def State.pairCheck (s : State) (h : PairHello) (start : Bool) : Nat :=
  let time := decide (s.epoch.toNat < h.epoch.toNat ∨ (h.epoch = s.epoch ∧ s.dtime.toNat + 10000000 < h.dtime.toNat))
  if h.cfgdig ≠ s.cfgDig ∨ s.keys.dts.isNone ∨ 2 ^ 32 ≤ s.keys.genTx + 1 then 1
  else match s.peerEntry h, h.lists with
    | some e, some l =>
      if start && e.level != l || !start && !decide (e.tvlMin ≤ s.fw.level ∧ s.fw.level ≤ e.tvl) then 2
      else if h.setver ≠ s.fw.schema ∨ (start && !s.migratesWith h && decide (s.fw.schema < s.man.setRunMin)) then 3
      else if time then 4
      else if start && h.statedig != s.stateDig then 5
      else 0
    | _, _ => 2

/-- A pairing or rejoin is agreed: new link keys on both sides (R415, R417, R418; the peer's generation advances with this one's, log
entry 125), PAIR_ID, and the peer's version (R644). -/
def State.agreed (s : State) (h : PairHello) (pairId : BitVec 64) : State :=
  let g := s.keys.genTx + 1
  let s := { s with
    keys := { s.keys with genTx := g, genRx := s.keys.genRx + 1, peerSerial := h.serial, xseq := 0, need := [], early := [] }
    twn := { s.twn with mseqTx := 0, mseqRx := 0 }
    arb := { s.arb with pairId := pairId, waitRejoin := false }
    hif := { s.hif with peerFw := controlVer h.fwver } }
  (s.sendKey.recvKey.kstat.put F.TWN_LINK.KGEN 0 (g % 65536)).raise 261

/-- The registers of a member of a pair. -/
def State.asPaired (s : State) (trail : Bool) : State :=
  let s := ((s.put F.TWN_STAT.PAIRED 0 1).put F.TWN_STAT.ROLE 0 trail.toNat).put F.TWN_CTL.EN 0 1
  let s := s.put F.TWN_CTL.MODE 0 (if trail then 2 else 1)
  let s := (s.putAll F.HIF_TWNSTAT.ROLE trail.toNat).putAll F.HIF_TWNSTAT.STATE 2
  { s with hif := { s.hif with twinSeqOn := true, seqEnded := [] } }

/-- Step 5 of R300 ends with a pair: the level of the twins' entry, settings, and step 6. -/
def State.startPaired (s : State) (h : PairHello) (trail : Bool) : State :=
  let lv := match s.peerEntry h with
    | some e => e.level
    | none => h.lists.getD 0
  let s := (s.asPaired trail).putAll F.HIF_TWNSTAT.FENCE_CNT 0
  let s := { s with fw := { s.fw with level := lv }, hif := { s.hif with fenceCnt := 0 } }
  let s := (if s.migratesWith h then s.migrate else s).applySettings
  let s := if trail then s else s.openStage (s.reg .TWN_STAGE 0)
  (s.putAll F.HIF_BOOTSTAT.STATE 4).packsGo.bootGo

/-- R377: a refusal is recorded and noticed. -/
def State.refused (s : State) (code : Nat) : State :=
  { s with hif := { s.hif with refusal := code } }.notice 3 code 0

/-- The lead judges a hello at start-up (R375 to R377): refused, it runs solo. -/
def State.judgeHello (s : State) (h : PairHello) : State :=
  let c := s.pairCheck h true
  if c = 0 then
    let s := { s with arb := { s.arb with pairId := s.pairIdOf h } }.sendResult 0
    (s.agreed h s.arb.pairId).startPaired h false
  else (((s.sendResult c).refused c).putAll F.HIF_TWNSTAT.STATE 0).alone

/-- Every declared page goes to the joiner (R380); the number of them. -/
def State.declaredPages (s : State) : List Nat :=
  (List.range 16).flatMap fun i =>
    if s.on F.TWN_TVR.EN i then
      (List.range ((s.get F.TWN_TVR.LIMIT i + 1 - s.get F.TWN_TVR.BASE i) * 512)).map fun k => s.get F.TWN_TVR.BASE i * 512 + k
    else []

/-- The first pass of a rejoin, after every loaded key slot (R380, R415). -/
def State.startCopy (s : State) : State :=
  let s := (s.keys.slots.filter fun e => e.2.loaded).foldl (fun s e => s.xferSend e.1 e.2.gen e.2.alg e.2.mat) s
  let l := s.declaredPages
  let s := { s with arb := { s.arb with rj := { s.arb.rj with pass := 1, passPages := l.length } } }
  l.foldl State.sendPage s

/-- The survivor judges the joiner's hello (R378, R455): accepted, the first pass starts. -/
def State.judgeJoiner (s : State) (h : PairHello) : State :=
  let c := s.pairCheck h false
  if c = 0 then
    let s := { s with arb := { s.arb with pairId := s.pairIdOf h } }.sendResult 0
    ((s.agreed h s.arb.pairId).answerWaits 0x0301 6 0 0 0 []).startCopy
  else
    let s := ({ s with arb := { s.arb with rj := {} } }.sendResult c).refused c
    s.answerWaits 0x0301 6 0 8 c []

/-- May this controller become the joiner of a rejoin (R364, R377, R378)? -/
def State.mayJoin (s : State) : Bool :=
  !s.arb.fenceLow && !s.on F.TWN_STAT.PAIRED && !s.arb.rj.active &&
    (decide (s.twState = 0 ∨ s.twState = 4) || (s.twState == 1 && s.arb.waitRejoin))

/-- PAIR_HELLO (R374, R375): judged by the lead at start-up and by the survivor of a rejoin; a survivor that no rejoin concerns
answers with code 5 (R456); a trail keeps it; a controller that a rejoin takes in answers with its own. -/
def execPairHello (h : PairHello) (s : State) : Res := s.awake <|
  .next (if !s.on F.TWN_STAT.LINK_UP then s
    else
      let s := s.twinIn 168
      let s := { s with arb := { s.arb with hello := some h } }
      if s.twState = 3 then
        if !s.arb.rj.active then s.sendResult 5 else if s.arb.rj.pass = 0 then s.judgeJoiner h else s
      else if s.mayJoin then
        let rj : Rejoin := { active := true, joiner := true, was := s.twState }
        let s := { s with arb := { s.arb with rj := rj } }
        let s := ((s.put F.TWN_CTL.EN 0 1).put F.TWN_CTL.MODE 0 2).put F.TWN_STAT.ROLE 0 1
        ((s.putAll F.HIF_TWNSTAT.ROLE 1).putAll F.HIF_TWNSTAT.STATE 5).sendHelloTwin
      else if s.twState = 1 ∧ s.bootState = 3 ∧ !s.straps.twinId then s.judgeHello h
      else s)

/-- PAIR_RESULT (R376, R377, R456). -/
def execPairResult (result : Nat) (pairId : BitVec 64) (epoch : BitVec 16) (dtime : BitVec 64) (s : State) : Res := s.awake <|
  .next (if !s.on F.TWN_STAT.LINK_UP then s
    else
      let s := s.twinIn 24
      match s.arb.hello with
      | some h =>
        let adopt := fun (s : State) => { s with epoch := epoch, dtime := dtime }.agreed h pairId
        if s.joining then
          if result = 0 then adopt s
          else
            let was := s.arb.rj.was
            let s := ((s.put F.TWN_CTL.MODE 0 0).put F.TWN_STAT.ROLE 0 0).putAll F.HIF_TWNSTAT.ROLE 0
            { s with arb := { s.arb with rj := {} } }.putAll F.HIF_TWNSTAT.STATE was
        else if s.twState = 1 ∧ s.bootState = 3 ∧ result = 0 ∧ s.straps.twinId then (adopt s).startPaired h true
        else if s.twState = 1 then { s with arb := { s.arb with waitRejoin := true } }
        else s
      | none => if s.twState = 1 then { s with arb := { s.arb with waitRejoin := true } } else s)

/-! ### Training of the twin link (R313, R352, R384) -/

/-- Lanes in service of a mask. -/
def laneCount (lanes : BitVec 4) : Nat := ((List.range 4).filter fun i => lanes.getLsbD i).length

/-- TWIN_LINK_DOWN (R313): lanes have left service; with fewer than two the link is down. -/
def execTwinLinkDown (lanes : BitVec 4) (s : State) : Res := s.awake <|
  .next (
    let s := (s.put F.TWN_LINK.LANES 0 lanes.toNat).raise 252
    if laneCount lanes < 2 then s.twinDown else s)

/-- The twin link is up again: credits are granted anew, and flits not acknowledged go out again. -/
def State.linkBack (s : State) : State :=
  let long := match s.arb.linkDownAt with
    | some t => decide (t + 100000 ≤ s.elapsed)
    | none => false
  let s := s.put F.TWN_STAT.LINK_UP 0 1
  let link := { s.twn.link with credit := 1024 }
  let s := { s with arb := { s.arb with linkDownAt := none }, twn := { s.twn with link := link } }
  let s := if long then s.rejoinAbort 3 else s
  ((s.replayFlits .twin).pumpTwin).releaseHeld

/-- TWIN_LINK_RETRAIN (R313, R314): every lane has retrained. With two or more the link is up: credits are granted anew, flits
not acknowledged go out again, and a controller at step 5 sends its hello. A rejoin whose link was down for 100 ms is abandoned
(R384). -/
def execTwinLinkRetrain (lanes : BitVec 4) (s : State) : Res := s.awake <|
  .next (
    let s := (((s.bump F.TWN_LINK.RETRAINS 0).put F.TWN_LINK.LANES 0 lanes.toNat).presetAt 32).raise 252
    let s := s.control .twin s.twn.link.rx 0x14 trainPayload.length trainPayload
    if laneCount lanes < 2 then s
    else if s.on F.TWN_STAT.LINK_UP then s.replayFlits .twin
    else
      let s := s.linkBack
      if s.twState = 1 then s.sendHelloTwin else s)

/-! ### Rejoin (R378 to R389) -/

/-- RSYNC_DATA (R380): bytes of a declared range reach the joiner. -/
def execRsyncData (addr : Nat) (bytes : Bytes) (s : State) : Res := s.awake <|
  .next (if s.on F.TWN_STAT.LINK_UP && s.joining && s.arb.rj.cut.isNone then (s.twinIn (16 + bytes.length)).wrBytes addr bytes else s)

/-- RSYNC_PASS_END (R381, R382, R384): the cut comes at the next stage close once few enough bytes are dirty; else another pass,
with fetching halved when the host outruns it; the 64th pass ends the rejoin. -/
def execRsyncPassEnd (dirtyPages : Nat) (s : State) : Res := s.awake <|
  .next (
    let rj := s.arb.rj
    if !rj.active || rj.joiner || rj.pass == 0 || rj.cut.isSome || rj.cutNext then s
    else if 4096 * dirtyPages ≤ s.setting 0x10 * 2 ^ 20 then { s with arb := { s.arb with rj := { rj with cutNext := true } } }
    else if 64 ≤ rj.pass then s.rejoinAbort 1
    else
      let t := if 3 * rj.passPages < 4 * dirtyPages then min 16 (2 * rj.throttle) else rj.throttle
      { s with arb := { s.arb with rj := { rj with pass := rj.pass + 1, passPages := dirtyPages, throttle := t } } }.sendDirty)

/-- A register of the cut is taken over. -/
def State.takeReg (s : State) (e : Nat × BitVec 64) : State :=
  if !twinKey e.1 then s
  else
    match twinRegs.find? fun r => keyOf r e.1 with
    | some r => s.setReg r (keyInst e.1) e.2
    | none => s

/-- A function's completion queues on the joiner: slot and phase tag belong to each twin (R77). -/
def Func.joined (c : Func) : Func :=
  let fresh := fun (q : Nat × Cq) => (q.1, { q.2 with head := 0, tail := 0, phase := true, held := [] })
  { c with cqs := c.cqs.map fresh }

/-- What a joiner keeps of its own host interface (R642): its links, MSI-X, PCIe functions, and the local fields of log pages 0x01, 0x02
and 0xC1. -/
def Hif.joined (own x : Hif) : Hif :=
  { x with
    funcs := x.funcs.map fun f => (f.1, f.2.joined)
    numVfs := own.numVfs
    vfEnable := own.vfEnable
    linkUp := own.linkUp
    fetchStop := false
    err := own.err
    errCount := own.errCount
    refusal := own.refusal
    peerFw := own.peerFw
    powerCycles := own.powerCycles
    unsafe_ := own.unsafe_
    twinSeqOn := true
    seqEnded := []
    coal := []
    msixTab := own.msixTab
    msixPend := own.msixPend
    miPending := own.miPending }

/-- A pack's record on the joiner: the lane is its own (R183, R204), as is what it read over it. -/
def Pack.joined (own x : Pack) : Pack :=
  { x with link := own.link, hValid := own.hValid, i2cType := own.i2cType, side := own.side, fresh := own.fresh, sideLost := false, peerLost := false }

/-- R382, R383, R116, R248, R455, R642, R644: a joiner takes the survivor's twin-visible state whole: its own goes. The queue pairs are the
survivor's: no initiator has connected to the joiner on them (R388). -/
def State.takeImage (s : State) (x : CutImage) : State :=
  let s := { s with regs := s.regs.filter fun e => !twinKey e.1 }
  let s := x.regs.foldl State.takeReg s
  let s : State := { s with
    fw := { s.fw with level := x.level }
    hif := s.hif.joined x.hif
    map := x.map
    cmpWait := x.cmpWait
    conv := x.conv
    health := { x.health with ready := true }
    pow := { s.pow with progress := x.progress, boot := none }
    fab := { x.fab with
      qps := x.fab.qps.map fun q => (q.1, { q.2 with err := true, away := true })
      ledErr := (x.fab.qps.map fun q => (q.1, s.straps.twinId)) ++ x.fab.ledErr.filter fun e => e.2 != s.straps.twinId }
    packs := x.packs.map fun p => (p.1, (s.pk p.1).joined p.2)
    hkp := { s.hkp with sample := x.samples } }
  (List.range 32).foldl State.showPack s

/-- RSYNC_CUT (R77, R383): the joiner has the survivor's twin-visible state as it stood at the cut; it is ready, its pack and Ethernet
transmitters come up, and it applies records from the next stage on. -/
def execRsyncCut (stage : BitVec 64) (image : CutImage) (s : State) : Res := s.awake <|
  .next (if !s.on F.TWN_STAT.LINK_UP || !s.joining || s.arb.rj.cut.isSome then s
    else
      let s := ((s.twinIn (8 + 16 * image.regs.length)).takeImage image).setReg .TWN_STAGE 0 stage
      let s := { s with arb := { s.arb with rj := { s.arb.rj with cut := some stage }, outcast := false } }
      (s.putAll F.HIF_BOOTSTAT.STATE 6))

/-- RSYNC_LIVE (R383, R385): at the joiner, once it is within the lag limit: it names its first live stage and confirms its
slot; at the survivor: Twin Peer Ready. -/
def execRsyncLive (stage : BitVec 64) (s : State) : Res := s.awake <|
  .next (
    let rj := s.arb.rj
    if !rj.active || rj.cut.isNone || rj.live.isSome then s
    else
      let s := { s with arb := { s.arb with rj := { rj with live := some stage } } }
      if rj.joiner then
        if s.twn.lagging then { s with arb := { s.arb with rj := rj } }
        else
          let s := (s.twinSend 0x14 (leBytes 8 stage.toNat)).confirmSlot
          s.sendDigests s.twn.finals.length
      else
        let s := { s with arb := { s.arb with rj := { s.arb.rj with ready := true } } }
        (s.twinIn 8).vendor 6)

/-- RSYNC_ABORT (R384): either side has given up. -/
def execRsyncAbort (reason : BitVec 32) (s : State) : Res := s.awake <|
  .next (if s.on F.TWN_STAT.LINK_UP && s.arb.rj.active then (s.twinIn 4).rejoinAbort reason.toNat else s)

/-! ### Mailbox group 0x03xx (R364, R378, R386, R390, R391, R481) -/

/-- Did a ledgered message arrive at the lead or the survivor? -/
def State.atLead (s : State) (a : Arrival) : Bool := isHere a != s.isTrail

/-- REJOIN (R378, R481): it responds when the rejoin starts. -/
def execRejoin (m : Msg) (a : Arrival) (joiner : Nat) (s : State) : Res := s.awake <|
  .next (msgApply 0x0301 20 m a (fun s =>
    if s.twState ≠ 3 ∨ !isHere a then s.refuse 0x0301 m a 7 s.stateDetail
    else if joiner ≠ s.peerId then s.refuse 0x0301 m a 2 16
    else if s.arb.rj.active then s.refuse 0x0301 m a 12
    else if s.on F.HIF_TWNSTAT.ARB_LOST ∨ s.arb.peer ≠ 1 ∨ !s.on F.TWN_STAT.LINK_UP then s.refuse 0x0301 m a 7 s.stateDetail
    else
      let rj : Rejoin := { active := true }
      ({ s with arb := { s.arb with rj := rj } }.await m a 6 0).sendHelloTwin) s)

/-- The I/O submission queues that exist, with the twin sequence of the next completion (R386). -/
def State.rearmList (s : State) : List (Nat × Nat × BitVec 32) :=
  s.hif.funcs.flatMap fun f => (f.2.sqs.filter fun q => q.1 != 0).map fun q => (f.1, q.1, q.2.next)

/-- R386, R388: ARM takes effect in the stage in which it is applied: every completion queue of the joiner starts at slot 0 with phase tag
1. -/
def State.armed (s : State) : State :=
  let joiner := s.joining
  let s := { s with arb := { s.arb with
    rearm := s.rearmList
    rj := {}
    single := if joiner then s.fab.qps.map Prod.fst else [] } }
  let s := s.asPaired joiner
  let arm := fun (f : Nat × Func) => (f.1, f.2.joined)
  if joiner then { s with hif := { s.hif with funcs := s.hif.funcs.map arm } } else s

/-- ARM (R386, R481). -/
def execArm (m : Msg) (a : Arrival) (s : State) : Res := s.awake <|
  .next (msgApply 0x0302 16 m a (fun s =>
    if s.atLead a && s.arb.rj.active && (s.arb.rj.ready || (s.joining && s.arb.rj.live.isSome)) then
      let s := s.armed
      s.done 0x0302 m a (leBytes 8 (s.reg .TWN_STAGE 0).toNat ++ leBytes 4 s.arb.rearm.length)
    else s.refuse 0x0302 m a 7 s.stateDetail) s)

/-- SWAP (R390, R481): the lead records CKIND 2 in stage X. -/
def execSwap (m : Msg) (a : Arrival) (s : State) : Res := s.awake <|
  .next (msgApply 0x0303 16 m a (fun s =>
    if s.atLead a && s.twState == 2 && !s.on F.HIF_TWNSTAT.ARB_LOST then
      let x := s.reg .TWN_STAGE 0
      let s := if s.isTrail then s else { s.recordCtl 2 0 with arb := { s.arb with swap := some x } }
      s.done 0x0303 m a (leBytes 8 x.toNat)
    else s.refuse 0x0303 m a 7 s.stateDetail) s)

/-- FENCE (R391, R481): REQUEST with CODE 2; it responds with the verdict. -/
def execFence (m : Msg) (a : Arrival) (target : Nat) (s : State) : Res := s.awake <|
  .next (msgApply 0x0304 20 m a (fun s =>
    if 1 < target then s.refuse 0x0304 m a 2 16
    else
      let s := s.await m a 5 0
      if isHere a then s.arbSend 5 [2, BitVec.ofNat 8 target, 0, 0] else s) s)

/-- RELEASE (R364, R481): REQUEST with CODE 1, by the survivor. -/
def execRelease (m : Msg) (a : Arrival) (target : Nat) (s : State) : Res := s.awake <|
  .next (msgApply 0x0305 20 m a (fun s =>
    if s.twState ≠ 3 ∨ !isHere a then s.refuse 0x0305 m a 7 s.stateDetail
    else if 1 < target then s.refuse 0x0305 m a 2 16
    else (s.arbSend 5 [1, BitVec.ofNat 8 target, 0, 0]).done 0x0305 m a) s)

end Sys2Proof.Machine
end

