-- ==== Sys2Proof/Machine/Cic.lean ====
section
/-! DEFINITION. The control cores and the core interrupt controller: claims, ends of service, doorbells, the release
of cores and their watchdogs (chapter 15). -/

namespace Sys2Proof.Machine

/-- The sources presented to target `t`, ascending (R504). -/
def State.presentedTo (s : State) (t : Nat) : List Nat :=
  s.cfgSources.filter fun n => s.on F.CIC_SRC_STAT.PRES n && s.get F.CIC_SRC_STAT.TGT n == t

/-- R506: the source of highest PRIO, the lowest number among equals. -/
def State.bestSource (s : State) : List Nat → Option Nat
  | [] => none
  | n :: t =>
    match s.bestSource t with
    | none => some n
    | some m => if s.get F.CIC_SRC_CFG.PRIO n < s.get F.CIC_SRC_CFG.PRIO m then some m else some n

/-- The snapshot a claim of source `n` returns: 1 for privileged and level sources (CIC_CLAIM). -/
def State.claimCount (s : State) (n : Nat) : Nat :=
  if n < 16 ∨ s.on F.CIC_SRC_CFG.MODE n then 1 else s.get F.CIC_SRC_STAT.COUNT n

/-- The status bits of source `n` after its claim (R502, R506): a privileged source turns from pending to active, an
edge source's snapshot is taken off its count. -/
def State.takeSource (s : State) (n : Nat) : State :=
  if n < 16 then ((s.put F.CIC_SRC_STAT.PEND n 0).put F.CIC_SRC_STAT.COUNT n 0).put F.CIC_SRC_STAT.ACTIVE n 1
  else if s.on F.CIC_SRC_CFG.MODE n then s
  else s.put F.CIC_SRC_STAT.COUNT n (s.get F.CIC_SRC_STAT.COUNT n - s.claimCount n)

/-- R506: target `t` takes source `n` into service. -/
def State.claimSource (s : State) (t n : Nat) : State :=
  let prio := s.get F.CIC_SRC_CFG.PRIO n
  let s := ((s.takeSource n).put F.CIC_SRC_STAT.PRES n 0).put F.CIC_SRC_STAT.INSVC n 1
  let s := s.put F.CIC_SRC_STAT.TGT n t
  { s with cic := { s.cic with stk := tput t ((prio, n) :: tgetD t [] s.cic.stk) s.cic.stk } }

/-- The word a claim returns. -/
def claimWord (count n : Nat) : BitVec 64 := BitVec.ofNat 64 (0x80000000 + count * 65536 + n)

/-- CIC_CLAIM[t] read (R506). -/
def cicClaim (t : Nat) (s : State) : State :=
  match s.bestSource (s.presentedTo t) with
  | none => s.send (.value 0)
  | some n => ((s.claimSource t n).settle).send (.value (claimWord (s.claimCount n) n))

/-- CIC_CLAIM: a claim read of target `t` (R506). -/
def execCicClaim (t : Fin 22) (s : State) : Res := s.awake <| .next (cicClaim t s)

/-- R509: the service of source `n` on `t` ends; its entry leaves the stack wherever it stands. -/
def State.endService (s : State) (t n : Nat) : State :=
  let s := (s.put F.CIC_SRC_STAT.INSVC n 0).put F.CIC_SRC_STAT.ACTIVE n 0
  { s with cic := { s.cic with stk := tput t ((tgetD t [] s.cic.stk).filter fun e => e.2 != n) s.cic.stk } }

/-- R510: an EOI for a source not in service on that target is recorded and does nothing else. -/
def State.strayEoi (s : State) (t n : Nat) : State :=
  ((s.bump F.CIC_STRAY_EOI.COUNT 0).put F.CIC_STRAY_EOI.SRC 0 n).put F.CIC_STRAY_EOI.TGT 0 t

/-- Is source `n` in service on target `t`? -/
def State.srcInService (s : State) (t n : Nat) : Bool :=
  s.on F.CIC_SRC_STAT.INSVC n && s.get F.CIC_SRC_STAT.TGT n == t

/-- CIC_EOI: a write of source `n` to CIC_EOI[t] (R509, R510). -/
def cicEoi (t n : Nat) (s : State) : State :=
  if s.srcInService t n then (s.endService t n).settle else s.strayEoi t n

/-- CIC_EOI (R509). -/
def execCicEoi (t : Fin 22) (src : Fin 512) (s : State) : Res := s.awake <| .next (cicEoi t src s)

/-- CIC_DB_RING: an inter-core doorbell pulses source 300 + d (R499). -/
def execCicDbRing (d : Fin 32) (s : State) : Res := s.awake <| .next (s.raise (300 + d))

/-- R496: does another running core carry the logical index of core `i`? -/
def State.lidTaken (s : State) (i : Nat) : Bool :=
  (List.range 24).any fun j =>
    j != i && s.on F.CIC_CORE_CTL.RUN j && s.get F.CIC_CORE_CTL.LID j == s.get F.CIC_CORE_CTL.LID i

/-- A write of RUN of core `i` (R494, R496); for SC and AC it is ignored. -/
def coreRun (i : Nat) (run : Bool) (s : State) : State :=
  if 22 ≤ i then s
  else if run then
    if s.get F.CIC_CORE_CTL.LID i = 31 ∨ s.lidTaken i then s.accessBad 0x0B
    else (s.put F.CIC_CORE_CTL.RUN i 1).put F.CIC_CORE_STAT.RUNNING i 1
  else (s.put F.CIC_CORE_CTL.RUN i 0).put F.CIC_CORE_STAT.RUNNING i 0

/-- CORE_RUN (R494). -/
def execCoreRun (i : Fin 24) (run : Bool) (s : State) : Res := s.awake <| .next (coreRun i run s)

/-- The period of watchdog `i` starts anew (R497). -/
def wdtKick (i : Nat) (s : State) : State :=
  { s with cic := { s.cic with kicked := tput i s.elapsed s.cic.kicked } }

/-- WATCHDOG_KICK (R497). -/
def execWatchdogKick (i : Fin 24) (s : State) : Res := s.awake <| .next (wdtKick i s)

/-- R497: the watchdog of core `i` expires: FAULT and WDEXP, the core's logical target disabled, source 7, the
watchdog's EN cleared. R498: a paired controller reports FAULTS bit 5. -/
def wdtExpire (i : Nat) (s : State) : State :=
  let lid := s.get F.CIC_CORE_CTL.LID i
  let s := (s.put F.CIC_CORE_STAT.FAULT i 1).bump F.CIC_CORE_STAT.WDEXP i
  let s := if lid < 22 then (s.put F.CIC_TGT_CTL.EN lid 0).settle else s
  let s := if s.on F.TWN_STAT.PAIRED then s.setFault 5 else s
  (s.raise 7).put F.CIC_WDT.EN i 0

/-- WATCHDOG_EXPIRY: only a running watchdog expires (R497). -/
def execWatchdogExpiry (i : Fin 24) (s : State) : Res := s.awake <|
  .next (if s.on F.CIC_WDT.EN i then wdtExpire i s else s)

end Sys2Proof.Machine
end

