-- ==== Sys2Proof/Machine/Stats.lean ====
section
/-! DEFINITION. The tally recorder's and the counters' mailbox services (R482, R485, R602 to R610), access errors (R8), and HBM
reads with what an uncorrectable page costs a solo controller (R31, R534 to R537). -/

namespace Sys2Proof.Machine

/-! ### Group 0x04xx (R482, R603 to R605) -/

/-- R605: a message of group 0x04xx acts only where it arrived; the other twin applies it without effect. -/
def tallyMsg (op len : Nat) (m : Msg) (a : Arrival) (f : State → State) (s : State) : State :=
  msgApply op len m a (fun s => if isHere a then f s else s.done op m a) s

/-- TALLY_STATUS (R482): the first record's start and the last record's end. -/
def execTallyStatus (m : Msg) (a : Arrival) (s : State) : Res := s.awake <|
  .next (tallyMsg 0x0401 16 m a (fun s =>
    let n := s.get F.TLY_STAT.NREC
    let part := fun (i o len : Nat) => if n = 0 then List.replicate len 0 else s.norRead (tallyAt i + o) len
    s.done 0x0401 m a (leBytes 4 n ++ leBytes 4 2048 ++
      leBytes 1 (s.get F.TLY_STAT.FULL + 2 * s.get F.TLY_CTL.FREEZE) ++ leBytes 3 0 ++ leBytes 4 (s.setting 0x30) ++
      part 0 0x18 2 ++ part (n - 1) 0x1A 2 ++ part 0 0x10 8 ++ part (n - 1) 0x20 8)) s)

/-- TALLY_READ (R482, R602, R604): a record at or beyond NREC reads as zeros. -/
def execTallyRead (m : Msg) (a : Arrival) (index count : Nat) (s : State) : Res := s.awake <|
  .next (tallyMsg 0x0402 24 m a (fun s =>
    if s.on F.TLY_STAT.CLEARING then s.refuse 0x0402 m a 12
    else if 2048 ≤ index then s.refuse 0x0402 m a 2 16
    else if count = 0 ∨ 7 < count then s.refuse 0x0402 m a 2 20
    else
      let one := fun (k : Nat) =>
        if index + k < s.get F.TLY_STAT.NREC then s.norRead (tallyAt (index + k)) 4096 else List.replicate 4096 0
      s.done 0x0402 m a ((List.range count).flatMap one)) s)

/-- TALLY_FREEZE (R603). -/
def execTallyFreeze (m : Msg) (a : Arrival) (on : Bool) (s : State) : Res := s.awake <|
  .next (tallyMsg 0x0403 20 m a (fun s =>
    let s := if on then s.put F.TLY_CTL.FREEZE 0 1 else if s.on F.TLY_CTL.FREEZE then s.tallyThaw else s
    s.done 0x0403 m a) s)

/-- TALLY_CLEAR (R604): the erase of region 2 begins; TALLY_CLEAR_COMPLETE ends it. -/
def execTallyClear (m : Msg) (a : Arrival) (s : State) : Res := s.awake <|
  .next (tallyMsg 0x0404 16 m a (fun s =>
    if s.on F.TLY_STAT.CLEARING then s.refuse 0x0404 m a 12
    else if s.on F.TLY_CTL.FREEZE then s.refuse 0x0404 m a 7 s.stateDetail
    else (s.put F.TLY_STAT.CLEARING 0 1).done 0x0404 m a) s)

/-! ### Group 0x07xx (R8, R485, R606 to R610) -/

/-- R606: the counter set of a UNIT: a core index, or 0x100 plus a block code. -/
def unitSet (unit : Nat) : Option Nat :=
  if unit < 24 then some unit else if 0x101 ≤ unit ∧ unit ≤ 0x114 then some (32 + (unit - 0x100)) else none

/-- COUNTER_READ (R608): cycles, every counter and the overflow bits in one cycle; served locally. -/
def execCounterRead (m : Msg) (unit : Nat) (s : State) : Res := s.awake <|
  .next (msgApply 0x0701 20 m .here (fun s => match unitSet unit with
    | none => s.refuse 0x0701 m .here 2 16
    | some x =>
      s.done 0x0701 m .here (leBytes 8 (s.reg .PMC_CYC x).toNat ++
        (List.range 8).flatMap (fun k => leBytes 4 (s.get F.PMC_CNT.COUNT (8 * x + k))) ++
        leBytes 1 (s.get F.PMC_CTL.OVF x) ++ leBytes 7 0)) s)

/-- COUNTER_CONFIG (R485, R610): EVENT, CHAIN and THRESH of a counter, on both twins. -/
def execCounterConfig (m : Msg) (a : Arrival) (unit : Nat) (k : Fin 8) (chain : Bool) (event : BitVec 16) (thresh : BitVec 32)
    (s : State) : Res := s.awake <|
  .next (msgApply 0x0702 28 m a (fun s => match unitSet unit with
    | none => s.refuse 0x0702 m a 2 16
    | some x =>
      let i := 8 * x + k.val
      let s := (s.put F.PMC_CFG.EVENT i event.toNat).put F.PMC_CFG.CHAIN i chain.toNat
      (s.put F.PMC_CFG.THRESH i thresh.toNat).done 0x0702 m a) s)

/-- ACCESS_ERRORS (R8, R485): the count of each block, modulo 2^32 (DESIGN CHOICE, log entry 103); served locally. -/
def execAccessErrors (m : Msg) (s : State) : Res := s.awake <|
  .next (msgApply 0x0703 16 m .here (fun s =>
    s.done 0x0703 m .here ((List.range 20).flatMap fun k => leBytes 4 (tgetD (k + 1) 0 s.accErr))) s)

/-! ### HBM reads (R31, R534 to R537) -/

/-- A read of a page under the codes, and what follows when the page cannot be recovered. -/
def State.pageRead (s : State) (page : Nat) (f : State → State) : State :=
  let bad := decide (0 < s.flagged page) && !s.rsRecovers page
  let s := f s
  if bad then (s.pageLost page).flow else s

/-- HBM_READ (R534): `upset` is the error that has come into the word since; a core gets a bus error with poisoned data (R537). -/
def execHbmRead (who : Initiator) (addr : Nat) (upset : BitVec 72) (s : State) : Res := s.awake <|
  .next (if !inHbm addr then s
    else if !s.decoded who addr then (s.undecoded who).send (.value 0)
    else
      let w := addr / 8
      let s := s.setErr w (s.errOf w ^^^ upset)
      s.pageRead (pageOf addr) fun s =>
        let r := s.hbcRead w
        let s := if r.2.poisoned then match who with
            | .core i => r.1.send (.busError i)
            | .user i => r.1.send (.busError i)
            | _ => r.1
          else r.1
        s.send (.value r.2.data))

/-- PATROL_SCRUB: the patrol reaches a page of the first 94.5 GiB; `PATROL_H` 0 stops it (R546). -/
def execPatrolScrub (page : Nat) (upsets : List (Nat × BitVec 72)) (s : State) : Res := s.awake <|
  .next (if s.on F.HBC_INIT.DONE ∧ s.get F.HBC_CTL.PATROL_H ≠ 0 ∧ 0x1000000 ≤ page ∧ page < 0x27A0000 then
    (s.upsetPage page upsets).pageRead page (patrolPage page) else s)

end Sys2Proof.Machine
end

