-- ==== Sys2Proof/Machine/Settings.lean ====
section
/-! DEFINITION. The settings service, mailbox group 0x01xx (R476 to R478, R593, R646). -/

namespace Sys2Proof.Machine

/-- A number from little-endian bytes of a message. -/
def leVal (b : Bytes) : Nat := leNat b

/-- The table's line for a setting whose index is one that it has. -/
def settingAt (id index : Nat) : Option SetInfo :=
  (settingInfo id).filter fun x => x.indices.contains index

/-- R477: an NQN of 1–223 bytes without a zero byte, as NVMe 2.0c begins it ("nqn."), or empty. -/
def nqnOk (v : Bytes) : Bool :=
  v.isEmpty || (decide (v.length ≤ 223) && v.take 4 == [0x6E, 0x71, 0x6E, 0x2E] && v.all fun b => b != 0)

/-- The value that a setting stores for its bytes (an NQN has none). -/
def State.storeSetting (s : State) (id index v : Nat) : State :=
  { s with setv := { s.setv with val := tset (settingDefault id index) (settingKey id index) v s.setv.val } }

/-- R477, R593, R646: do the relations that the setting takes part in hold? -/
def State.settingRelations (s : State) (id index : Nat) : Bool :=
  match id with
  | 0x01 => decide (s.floorSum ≤ 1048576 ∧ s.setting 0x01 index ≤ s.setting 0x02 index)
  | 0x02 => decide (s.setting 0x01 index ≤ s.setting 0x02 index)
  | 0x03 => decide (s.setting 0x03 * 2 ^ 20 ≤ 8 * s.zBytes / 10)
  | 0x09 => decide (s.setting 0x0A ≤ s.setting 0x09)
  | 0x0A => decide (s.setting 0x0A ≤ s.setting 0x09)
  | 0x44 => decide (s.setting 0x44 index ≤ 1000 * s.setting 0x45 index)
  | 0x45 => decide (s.setting 0x44 index ≤ 1000 * s.setting 0x45 index)
  | _ => true

/-- R477: does a setting accept the number `v`? -/
def State.settingOk (s : State) (x : SetInfo) (index v : Nat) : Bool :=
  decide (x.lo ≤ v ∧ v ≤ x.hi ∧ (v - x.lo) % x.step = 0) &&
    (x.id != 0x26 || decide (v ≤ 7 ∨ v = 0xFF)) && (s.storeSetting x.id index v).settingRelations x.id index

/-- What follows at once from a new value in force. -/
def State.settingActs (s : State) (id index : Nat) : State :=
  let s := s.applySetting id index
  if id = 0x0B then s.recomputeU else s.flow

/-- R478, R480: a number is stored: for the next reset, or in force at once. SGEN counts a change of a twin-scoped
setting; a local one takes effect only where the message arrived. -/
def State.putSetting (s : State) (x : SetInfo) (index v : Nat) (a : Arrival) : State :=
  let k := settingKey x.id index
  if x.atReset then
    let old := tgetD k (s.setting x.id index) s.setv.pend
    let s := { s with setv := { s.setv with pend := tset (s.setting x.id index) k v s.setv.pend } }
    if old = v then s else s.sgenUp
  else if s.setting x.id index = v then s
  else if x.local_ then if isHere a then (s.storeSetting x.id index v).settingActs x.id index else s
  else (s.storeSetting x.id index v).sgenUp.settingActs x.id index

/-- R477: the NQN of a host group. -/
def State.putNqn (s : State) (index : Nat) (v : Bytes) : State :=
  if tgetD index [] s.setv.nqn = v then s
  else { s with setv := { s.setv with nqn := tset [] index v s.setv.nqn } }.sgenUp

/-- GET's response from ID on: the setting item of R489. -/
def State.settingItem (s : State) (x : SetInfo) (index : Nat) : Bytes :=
  let v := s.settingBytes x index
  let p := if x.id = 0x11 then v
    else leBytes x.vlen (tgetD (settingKey x.id index) (s.setting x.id index) s.setv.pend)
  leBytes 2 x.id ++ leBytes 2 index ++ leBytes 2 v.length ++ leBytes 1 x.atReset.toNat ++ [0] ++ v ++ p

/-- GET (R476). An identifier that the controller does not have is refused by its field, then the index. -/
def execGetSetting (m : Msg) (a : Arrival) (id index : Nat) (s : State) : Res := s.awake <|
  .next (msgApply 0x0101 20 m a (fun s => match settingInfo id with
    | none => s.refuse 0x0101 m a 2 16
    | some x =>
      if x.indices.contains index then s.done 0x0101 m a (s.settingItem x index) else s.refuse 0x0101 m a 2 18) s)

/-- SET (R476 to R478). -/
def execSetSetting (m : Msg) (a : Arrival) (id index : Nat) (value : Bytes) (s : State) : Res := s.awake <|
  .next (msgApply 0x0102 (24 + value.length) m a (fun s => match settingInfo id with
    | none => s.refuse 0x0102 m a 2 16
    | some x =>
      let ok := fun (s : State) => s.done 0x0102 m a (leBytes 1 x.atReset.toNat ++ [0, 0, 0] ++ leBytes 8 s.sgen.toNat)
      if !x.indices.contains index then s.refuse 0x0102 m a 2 18
      else if x.id = 0x11 then
        if nqnOk value then ok (s.putNqn index value) else s.refuse 0x0102 m a 2 24
      else if value.length ≠ x.vlen then s.refuse 0x0102 m a 2 20
      else if s.settingOk x index (leVal value) then ok (s.putSetting x index (leVal value) a)
      else s.refuse 0x0102 m a 2 24) s)

/-- A setting returns to its default, the pending value with it. -/
def State.defaultOne (a : Arrival) (s : State) (e : SetInfo × Nat) : State :=
  if e.1.id = 0x11 then s.putNqn e.2 [] else s.putSetting e.1 e.2 (settingDefault e.1.id e.2) a

/-- DEFAULT (R476): one setting, one identifier with every index, or all. A default that breaks a relation with a value kept is
refused like a SET. -/
def execDefaultSetting (m : Msg) (a : Arrival) (id index : Nat) (s : State) : Res := s.awake <|
  .next (msgApply 0x0103 20 m a (fun s =>
    let xs := if id = 0xFFFF then settingTable else (settingInfo id).toList
    let l : List (SetInfo × Nat) := xs.flatMap fun x =>
      ((if index = 0xFFFF then x.indices else x.indices.filter fun i => i == index).map fun i => (x, i))
    let t := l.foldl (State.defaultOne a) s
    let new := (l.filter fun e => e.1.id != 0x11).foldl (fun s e => s.storeSetting e.1.id e.2 (settingDefault e.1.id e.2)) s
    if xs.isEmpty then s.refuse 0x0103 m a 2 16
    else if l.isEmpty then s.refuse 0x0103 m a 2 18
    else if l.all fun e => new.settingRelations e.1.id e.2 then
      t.done 0x0103 m a (leBytes 8 t.sgen.toNat)
    else s.refuse 0x0103 m a 2 16) s)

/-- The bytes of the running slot's type 6 part (R434, R435). -/
def State.schemaPart (s : State) : Bytes :=
  match tget s.fw.running s.fw.slots with
  | none => []
  | some x => match x.man.parts.find? fun p => p.typ == 6 with
    | some p => (x.pkg.drop p.off).take p.len
    | none => []

/-- LIST (R476): the identifiers from OFFSET on. FMTREV is what the running release's settings part says (R435). -/
def execListSettings (m : Msg) (a : Arrival) (off : Nat) (s : State) : Res := s.awake <|
  .next (msgApply 0x0104 20 m a (fun s =>
    s.done 0x0104 m a (leBytes 4 settingTable.length ++ (settingTable.drop off).flatMap fun x =>
      leBytes 2 x.id ++ leBytes 2 x.nindex ++ leBytes 2 x.vlen ++ leBytes 1 x.local_.toNat ++
        leBytes 1 (Config.fmtRev s.schemaPart x.id))) s)

end Sys2Proof.Machine
end

