-- ==== Sys2Proof/Machine/ReadBack.lean ====
section
/-! DEFINITION. State read-back, mailbox group 0x02xx: the catalogue, registers and structures as they are shown, identity and
attestation (R426, R479, R480, R487 to R490). -/

namespace Sys2Proof.Machine

/-! ### Registers as they are shown -/

/-- The fields of a register that read: a write-only field reads as 0 (R6). -/
def readFields (r : RegName) : List (Nat × Nat × Acc) := (regInfo r).fields.filter fun f => f.2.2 != .wo

/-- What a register holds where another part of the state is what it shows: contexts a tenant could take, the stacks of the
interrupt controller, the tally window and the claim sources. -/
def State.regNow (s : State) (r : RegName) (i : Nat) : BitVec 64 :=
  match r with
  | .HIF_CTXFREE => BitVec.ofNat 64 (s.ctxAvail (.func i))
  | .CIC_RPRIO => BitVec.ofNat 64 (65536 * (tgetD i [] s.cic.stk).length + s.runPrio i)
  | .CIC_STK => match ((tgetD (i / 16) [] s.cic.stk).reverse)[i % 16]? with
    | some e => BitVec.ofNat 64 (2 ^ 31 + 65536 * e.2 + e.1)
    | none => 0
  | .TLY_WIN => BitVec.ofNat 64 (leNat ((s.tly.win.drop (256 * s.get F.TLY_CUR.CHUNK + 4 * i)).take 4))
  | .TWN_CLAIM => (s.claimLive i).setWidth 64
  | r => s.reg r i

/-- A register's value without a side effect (R491); a write-only field is 0. -/
def State.regShow (s : State) (r : RegName) (i : Nat) : BitVec 64 :=
  let v := (s.regNow r i).toNat
  BitVec.ofNat 64 ((readFields r).foldl (fun a f => a + bitsOf f.1 f.2.1 v * 2 ^ f.2.1) 0)

/-- A register is twin-visible (R29, R342). -/
def twinReg (r : RegName) : Bool :=
  twinRegs.contains r ||
    [RegName.TWN_STAGE, .TWN_STIME, .TWN_CSTAGE, .TWN_IRHEAD, .TWN_SPROD, .TWN_DIG_STG, .TWN_DIG].contains r

/-! ### Structures (R489, R490) -/

/-- A mask of numbers. -/
def maskOf (l : List Nat) : Nat := l.foldl (fun a f => a + 2 ^ f) 0

/-- A namespace record. -/
def State.nsRecord (s : State) (nsid : Nat) : Bytes :=
  match s.nsOf nsid with
  | none => List.replicate 64 0
  | some n =>
    leBytes 4 n.inst.toNat ++ leBytes 1 (if s.health.readOnly then 2 else 1) ++ leBytes 1 (n.lbaf + 16 * n.meta64.toNat) ++
      leBytes 1 n.tolerance.toNat ++ leBytes 1 n.eltype ++ leBytes 1 (n.boundk % 256).toNat ++
      leBytes 1 (n.raw.toNat + 2 * n.sealed.toNat) ++ leBytes 2 0 ++ leBytes 4 n.keyref.toNat ++ leBytes 8 n.nsze ++
      leBytes 16 (maskOf n.funcs) ++ leBytes 8 (s.logUsed nsid) ++ leBytes 8 n.physUsed ++ leBytes 8 0

/-- A key slot record (R490); the fingerprint of an empty slot is shown as zeros. -/
def State.keyRecord (s : State) (n : Nat) : Bytes :=
  let k := s.kslot n
  fitTo 128 (leBytes 1 k.alg ++ leBytes 1 k.loaded.toNat ++ leBytes 1 k.pend.isSome.toNat ++ [0] ++ leBytes 4 k.gen.toNat ++
    leBytes 4 k.inuse ++ leBytes 4 0 ++ leBytes 16 k.owner.toNat ++ leBytes 16 k.nctr ++ leBytes 16 k.hwm ++ leBytes 8 k.rsv ++
    (if k.alg = 0 then List.replicate 48 0 else keyFp n k))

/-- An I/O queue record: the queues of one function with one identifier. -/
def State.queueRecord (s : State) (f qid : Nat) : Bytes :=
  let v := s.func f
  match tget qid v.sqs with
  | none => List.replicate 48 0
  | some q =>
    let cq := tget q.cqid v.cqs
    let c := fun (g : Cq → Nat) => match cq with
      | some c => g c
      | none => 0
    fitTo 48 (leBytes 8 q.base.toNat ++ leBytes 8 (c fun x => x.base0.toNat) ++ leBytes 8 (c fun x => x.base1.toNat) ++
      leBytes 4 q.size ++ leBytes 4 (c Cq.size) ++ leBytes 4 q.head ++ leBytes 4 q.next.toNat ++ leBytes 1 q.prio ++ [1])

/-- A tenant's contexts. -/
def State.tenantRecord (s : State) (i : Nat) : Bytes :=
  leBytes 4 (s.setting 0x01 i) ++ leBytes 4 (s.setting 0x02 i) ++
    leBytes 4 (if i = 0x100 then s.heldFabric else s.held (.func i)) ++ leBytes 4 0

/-- A pack service record, with the identity record in use. -/
def State.packRecord (s : State) (n : Nat) : Bytes :=
  leBytes 1 (s.pkState n) ++ leBytes 1 (s.pk n).removable.toNat ++ leBytes 1 (s.get F.PKP_CTL.SGRP n) ++
    List.replicate 61 0 ++ fitTo 4096 (s.pk n).raw

/-- Entry `e` of the patch table; where a patch stands in it is free. -/
def State.patchEntry (s : State) (e : Nat) : Bytes :=
  match s.map.patches[Config.patchAt e]? with
  | none => List.replicate 16 0
  | some p => patchRecord p.1 p.2

/-- What a structure of R489 is: its KIND, its instances, the bytes of one (none: addressed by OFFSET alone), its name. -/
structure Item where
  id : Nat
  kind : Nat
  count : Nat
  size : Nat
  name : String

/-- The structures (R489). -/
def State.items (s : State) : List Item :=
  [ ⟨0x20000001, 1, 4096, 64, "Namespace record"⟩,
    ⟨0x20000002, 1, 0x47 * 65536, Config.catalogue s.man.relver 1, "Setting"⟩,
    ⟨0x20000003, 1, 65536, 128, "Key slot record"⟩,
    ⟨0x20000004, 2, 66 * 4097, 48, "I/O queue record"⟩,
    ⟨0x20000005, 2, 8192, 64, "Fabric association"⟩,
    ⟨0x20000006, 2, 67, 16, "Tenant contexts"⟩,
    ⟨0x20000007, 2, 32, 4160, "Pack service record"⟩,
    ⟨0x20000008, 2, 8, 16, "Reserve kind"⟩,
    ⟨0x20000009, 2, s.arb.rearm.length, 8, "Twin re-arm list"⟩,
    ⟨0x2000000A, 1, 1, 64, "Boot selector"⟩,
    ⟨0x2000000B, 2, 1, 32, "Capacity"⟩,
    ⟨0x20000010, 3, 1, 0xFFFFFFFF, "Map"⟩,
    ⟨0x20000011, 3, 2 ^ clampTo 24 30 (s.get F.MAP_PTAB_CFG.LOG2N), 16, "Patch table"⟩,
    ⟨0x20000012, 3, 2 ^ 22, 256, "Convoy block table"⟩,
    ⟨0x20000013, 3, 2 ^ 26, 4, "Erase count table"⟩ ]

/-- The bytes of an instance of an item, register or structure; none where there is none. -/
def State.instBytes (s : State) (id i : Nat) : Option Bytes :=
  let one := fun (n : Nat) (b : Bytes) => if i < n then some b else none
  match id with
  | 0x20000001 => one 4096 (s.nsRecord (i + 1))
  | 0x20000002 => (settingAt (i / 65536) (i % 65536)).map fun x => s.settingItem x (i % 65536)
  | 0x20000003 => one 65536 (s.keyRecord i)
  | 0x20000004 => one (66 * 4097) (s.queueRecord (i / 4097) (i % 4097))
  | 0x20000005 => one 8192 ((List.range 64).map fun j => Config.freeByte s.freeNo (64 * i + j))
  | 0x20000006 => if i < 66 ∨ i = 0x100 then some (s.tenantRecord i) else none
  | 0x20000007 => one 32 (s.packRecord i)
  | 0x20000008 => one 8 (s.resEntry i)
  | 0x20000009 => (s.arb.rearm)[i]?.map fun e => leBytes 2 e.1 ++ leBytes 2 e.2.1 ++ leBytes 4 e.2.2.toNat
  | 0x2000000A => one 1 s.selector
  | 0x2000000B => one 1 (leBytes 8 s.capU ++ leBytes 8 s.capL ++ leBytes 8 s.capC ++ leBytes 8 s.logProv)
  | 0x20000011 => one (2 ^ clampTo 24 30 (s.get F.MAP_PTAB_CFG.LOG2N)) (s.patchEntry i)
  | 0x20000012 => one (2 ^ 22) (s.cbRecord i)
  | 0x20000013 => one (2 ^ 26) (s.peRecord i)
  | id => match regOfId id with
    | none => none
    | some r => if i < (regInfo r).count then some (leBytes ((regInfo r).width / 8) (s.regShow r i).toNat) else none

/-- `len` bytes of an item from byte `off` of instance `i` on, through the instances that follow; the map is one run of
entries. `fuel` instances are looked at. -/
def State.itemBytes (s : State) (id : Nat) : Nat → Nat → Nat → Nat → Bytes
  | 0, _, _, _ => []
  | fuel + 1, i, off, len =>
    if len = 0 then [] else
    match s.instBytes id i with
    | none => []
    | some b =>
      let l := (b.drop off).take len
      l ++ s.itemBytes id fuel (i + 1) (off - b.length) (len - l.length)

/-- Bytes of the map from an offset on: entry ⌊offset ÷ 8⌋ (R114). -/
def State.mapBytes (s : State) (off len : Nat) : Bytes :=
  (List.range len).map fun j =>
    BitVec.ofNat 8 (bitsOf (8 * ((off + j) % 8) + 7) (8 * ((off + j) % 8)) (tgetD ((off + j) / 8) 0 s.map.entries).toNat)

/-- What STATE_READ returns of an item. -/
def State.readItem (s : State) (id i off len : Nat) : Bytes :=
  if id = 0x20000010 then if i = 0 then s.mapBytes off (min len (2 ^ 52 - off)) else []
  else s.itemBytes id (off + len + 1) i off len

/-- The class of an item: 0 twin-visible, 1 local. A setting is of its scope. -/
def itemClass (id index : Nat) : Nat :=
  if id = 0x20000002 then match settingInfo (index / 65536) with
    | some x => x.local_.toNat
    | none => 0
  else if 0x20000000 ≤ id then 0
  else match regOfId id with
    | some r => if twinReg r then 0 else 1
    | none => 1

/-! ### The catalogue (R487) -/

/-- ASCII bytes. -/
def ascii (t : String) : Bytes := t.toList.map fun c => BitVec.ofNat 8 c.toNat

/-- Text padded with spaces to `n` bytes. -/
def padText (n : Nat) (t : String) : Bytes := ((ascii t) ++ List.replicate n 0x20).take n

/-- A catalogue entry. -/
def State.catEntry (s : State) (id cls kind flags count size : Nat) (name : String) : Bytes :=
  leBytes 4 id ++ leBytes 1 cls ++ leBytes 1 kind ++ leBytes 2 flags ++ leBytes 4 count ++ leBytes 4 size ++
    padText 32 name ++ leBytes 2 (Config.catalogue s.man.relver id) ++ List.replicate 14 0

/-- The entry of a register. Only the passwords of secure NOR are secret among them. -/
def State.catReg (s : State) (r : RegName) : Bytes :=
  s.catEntry (regId r) (itemClass (regId r) 0) 0 (if r = .SNF_PWD then 3 else 2) (regInfo r).count ((regInfo r).width / 8)
    (regCat r).2.2

/-- The entry of a structure; configuration counts in SGEN. The CLASS byte of item 0x20000002, whose settings have one class each (R489),
is 0 here (DESIGN CHOICE, log entry 106). -/
def State.catItem (s : State) (x : Item) : Bytes :=
  s.catEntry x.id 0 x.kind (4 + if x.kind = 1 then 8 else 0) x.count x.size x.name

/-- Every entry, the registers first. -/
def State.catalogue (s : State) : List Bytes := allRegs.map s.catReg ++ s.items.map s.catItem

/-- CATALOGUE (R479, R487). -/
def execCatalogue (m : Msg) (off : Nat) (s : State) : Res := s.awake <|
  .next (msgApply 0x0201 20 m .here (fun s =>
    let l := s.catalogue
    s.done 0x0201 m .here (leBytes 4 (Config.catalogue s.man.relver 0) ++ leBytes 4 l.length ++ leBytes 8 s.sgen.toNat ++
      ((l.drop off).take 511).flatMap id) (decide (off + 511 < l.length))) s)

/-! ### Reads -/

/-- STAMP (R479, R480). -/
def State.stamp (s : State) (cls : Nat) : Bytes :=
  leBytes 8 (s.reg .TWN_STAGE 0).toNat ++ leBytes 8 s.dtime.toNat ++ leBytes 8 s.sgen.toNat ++ leBytes 2 s.epoch.toNat ++
    leBytes 1 cls ++ leBytes 1 s.straps.twinId.toNat ++ leBytes 4 0

/-- STATE_READ (R479, R480). An unknown item is an invalid field, as is an index beyond its instances. -/
def execStateRead (m : Msg) (stateId : BitVec 32) (index off len : Nat) (s : State) : Res := s.awake <|
  .next (msgApply 0x0202 36 m .here (fun s =>
    let id := stateId.toNat
    let known := (s.items.any fun x => x.id == id) || (regOfId id).isSome
    let b := s.readItem id index off (len + 1)
    if !known then s.refuse 0x0202 m .here 2 16
    else if id ≠ 0x20000010 ∧ s.instBytes id index = none then s.refuse 0x0202 m .here 2 20
    else if len = 0 ∨ 32704 < len then s.refuse 0x0202 m .here 2 32
    else s.drawn.done 0x0202 m .here (s.stamp (itemClass id index) ++ b.take len) (decide (len < b.length))) s)

/-- SGEN (R479). -/
def execSgen (m : Msg) (s : State) : Res := s.awake <| .next (msgApply 0x0203 16 m .here (fun s => s.done 0x0203 m .here (s.stamp 0)) s)

/-- IDENTIFY (R479). -/
def execMailboxIdentify (m : Msg) (s : State) : Res := s.awake <|
  .next (msgApply 0x0210 16 m .here (fun s =>
    s.done 0x0210 m .here (leBytes 24 Config.serial.toNat ++ padText 16 "DRZ-7400" ++ ascii "B0" ++
      leBytes 1 s.straps.twinId.toNat ++ [0] ++ leBytes 8 s.man.relver.toNat ++ leBytes 8 s.arb.pairId.toNat)) s)

/-- The digest of the running part of a type; the factory release's digests are not stated. -/
def State.partDigest (s : State) (t : Nat) : Bytes :=
  match s.man.parts.find? fun p => p.typ == t with
  | some p => fitTo 48 p.digest
  | none => fitTo 48 (Config.factoryDigest t)

/-- The report of R426 without its signature. -/
def State.attReport (s : State) (nonce : BitVec 256) : Bytes :=
  leBytes 4 0x54535441 ++ leBytes 2 1 ++ leBytes 1 (s.get F.SEC_MODE.MODE) ++ leBytes 1 s.twState ++
    leBytes 24 Config.serial.toNat ++ leBytes 32 nonce.toNat ++ leBytes 8 s.dtime.toNat ++ leBytes 2 s.epoch.toNat ++
    List.replicate 6 0 ++ ([1, 2, 3, 4] : List Nat).flatMap s.partDigest ++ leBytes 48 s.cfgDig.toNat ++
    (if (s.kslot 0).alg = 0 then List.replicate 16 0 else (keyFp 0 (s.kslot 0)).take 16) ++
    (match if s.keys.noUnwrap then none else s.keys.dts with
      | some d => (sha384 (leBytes 32 d.toNat)).take 16
      | none => List.replicate 16 0) ++ List.replicate 16 0

/-- ATTEST (R426): the report and its signature by the DIK, which the manual does not state. -/
def execAttest (m : Msg) (nonce : BitVec 256) (s : State) : Res := s.awake <|
  .next (msgApply 0x0280 48 m .here (fun s =>
    s.drawn.done 0x0280 m .here (s.attReport nonce ++ freeRun s.freeNo 96)) s)

/-- CERT_CHAIN (R426, R479). -/
def execCertChain (m : Msg) (off : Nat) (s : State) : Res := s.awake <|
  .next (msgApply 0x0281 20 m .here (fun s =>
    let l := Config.certChain
    s.done 0x0281 m .here (leBytes 4 l.length ++ (l.drop off).take 32744) (decide (off + 32744 < l.length))) s)

end Sys2Proof.Machine
end

