-- ==== Sys2Proof/Machine/Manage.lean ====
section
/-! DEFINITION. Management of packs, mailbox group 0x08xx (R212, R214 to R216, R283, R486, R637). -/

namespace Sys2Proof.Machine

/-- A message that names a pack port: a port beyond 31 is an invalid field. -/
def portMsg (op len : Nat) (m : Msg) (a : Arrival) (port : Nat) (f : State → State) (s : State) : State :=
  msgApply op len m a (fun s => if 32 ≤ port then s.refuse op m a 2 16 else f s) s

/-- ADMIT (R214, R222, R637): a ready pack enters service; a held one is brought up again. A reserve port keeps its pack outside
service (R250). -/
def execAdmitPack (m : Msg) (a : Arrival) (port : Nat) (s : State) : Res := s.awake <|
  .next (portMsg 0x0801 20 m a port (fun s =>
    let st := s.pkState port
    if (st ≠ 5 ∧ st ≠ 6) ∨ s.isReserve port then s.refuse 0x0801 m a 7 s.stateDetail
    else
      let s := if st = 5 then s.admitPack port else (s.setPkState port 4).sendHello port
      s.flow.done 0x0801 m a (leBytes 1 (s.pkState port) ++ [0, 0, 0])) s)

/-- REMOVE (R216): the convoy blocks that use the pack are counted and relocated. -/
def execRemove (m : Msg) (a : Arrival) (port : Nat) (s : State) : Res := s.awake <|
  .next (portMsg 0x0802 20 m a port (fun s =>
    let p := s.pk port
    if p.removing then s.refuse 0x0802 m a 12
    else if !p.svc then s.refuse 0x0802 m a 7 s.stateDetail
    else
      let n := ((s.membersWhere fun x => x.port == port).map Prod.fst).eraseDups.length
      ((s.setPk port { p with removing := true }).relocateRemoved).done 0x0802 m a (leBytes 4 n)) s)

/-- ID_READ: bytes of the identity memory by ID_READ over Pack Link; the answer waits for the pack's. -/
def execIdRead (m : Msg) (a : Arrival) (port off len : Nat) (s : State) : Res := s.awake <|
  .next (portMsg 0x0803 24 m a port (fun s =>
    if len = 0 ∨ 4096 < len then s.refuse 0x0803 m a 2 20
    else if 8192 < off + len then s.refuse 0x0803 m a 2 18
    else if !s.reachable port then s.refuse 0x0803 m a 7 s.stateDetail
    else
      let c : PackCmd := { cseq := 0, opc := 8, param := idReadParam off len }
      (s.await m a 0 (port * 2 ^ 32 + c.param.toNat)).packSend port .mbxRead c) s)

/-- The new record with the service fields of the one in use (R212); its model table waits for the read-back (R261). -/
def State.replaceId (s : State) (n : Nat) (rec : Bytes) : State :=
  let i := parseId rec
  let p := s.pk n
  let old := p.id.getD { i with inserts := 0, retired := [], pairId := 0, svcDtime := 0, svcEpoch := 0, copyseq := 0 }
  let kept := { i with
    copyseq := old.copyseq
    pairId := old.pairId
    svcDtime := old.svcDtime
    svcEpoch := old.svcEpoch
    inserts := old.inserts
    retired := old.retired
    rmodel := old.rmodel }
  (s.setPk n { p with raw := rec, newModel := some i.rmodel }).idUpdate n kept

/-- ID_REPLACE (R212, R486): the answer waits for both copies to be written and read back. -/
def execIdReplace (m : Msg) (a : Arrival) (port : Nat) (rec : Bytes) (s : State) : Res := s.awake <|
  .next (portMsg 0x0804 4116 m a port (fun s =>
    let busy := (s.pk port).outst.any fun o => match o.use with
      | .idWrite _ => true
      | _ => false
    if !(parseId rec).valid then s.refuse 0x0804 m a 2 20
    else if !s.reachable port then s.refuse 0x0804 m a 7 s.stateDetail
    else if busy then s.refuse 0x0804 m a 12
    else (s.await m a 1 port).replaceId port rec) s)

/-- END_READONLY (R283): refused unless kind 0 LEVEL is above 10 % and U ≥ L × 17 ÷ 16. -/
def execEndReadonly (m : Msg) (a : Arrival) (s : State) : Res := s.awake <|
  .next (msgApply 0x0805 16 m a (fun s =>
    if 10 < s.resLevel 0 ∧ s.capL * 17 ≤ s.capU * 16 then
      (({ s with health := { s.health with latched := false } }.roJudge).flow).done 0x0805 m a
    else s.refuse 0x0805 m a 7 s.stateDetail) s)

/-- RETRAIN (R637): the port's lane trains again, and a held pack is brought up again. -/
def execRetrain (m : Msg) (a : Arrival) (port : Nat) (s : State) : Res := s.awake <|
  .next (portMsg 0x0806 20 m a port (fun s =>
    if h : port < 32 then
      if s.on F.PKP_CTL.EN port then
        ((if s.pkState port = 6 then s.setPkState port 0 else s).retrainStart (.pack ⟨port, h⟩)).done 0x0806 m a
      else s.refuse 0x0806 m a 7 s.stateDetail
    else s) s)

/-- The blocks that were being relocated for a removal are closed blocks again, if no other planned removal needs it. -/
def State.stopRelocations (s : State) : State :=
  let go := s.conv.removeBlk.filter fun k => !(s.cb k).members.any fun x => (s.pk x.port).removing
  let s := { s with conv := { s.conv with
    removeBlk := s.conv.removeBlk.filter fun k => !go.contains k
    copied := s.conv.copied.filter fun k => !go.contains k.1 } }
  go.foldl (fun s k =>
    if (s.cb k).state = 3 then (s.setCb k { s.cb k with state := 2, empty := 0 }).logSys { typ := 3, block := k, arg := 2 } else s) s

/-- REMOVE_CANCEL (R486): the relocations stop, and a pack that sleeps for its removal returns to service. -/
def execRemoveCancel (m : Msg) (a : Arrival) (port : Nat) (s : State) : Res := s.awake <|
  .next (portMsg 0x0807 20 m a port (fun s =>
    let p := s.pk port
    if !p.removing then s.refuse 0x0807 m a 7 s.stateDetail
    else
      let s := (s.setPk port { p with removing := false, removable := false, svc := true }).stopRelocations
      ((s.wakePack port).recomputeU.flow).done 0x0807 m a) s)

end Sys2Proof.Machine
end

