-- ==== Sys2Proof/Machine/Firm.lean ====
section
/-! DEFINITION. Firmware images: staging, the checks of a package, commit, activation with and without reset, slots and keys, and
the update of pack bridges (R61, R62, R431 to R453, R458 to R460, R483). -/

namespace Sys2Proof.Machine

/-! ### The package (R431 to R437) -/

/-- `n` bytes of a package as a number, little-endian. -/
def numAt (b : Bytes) (off n : Nat) : Nat := leNat ((b.drop off).take n)

/-- Part entry `i` of a table at `off` (R434). -/
def partAt (b : Bytes) (off i : Nat) : Part :=
  let o := off + 96 * i
  { typ := numAt b o 1
    nblk := numAt b (o + 2) 2
    btype := BitVec.ofNat 32 (numAt b (o + 4) 4)
    pver := BitVec.ofNat 64 (numAt b (o + 8) 8)
    off := numAt b (o + 0x10) 4
    len := numAt b (o + 0x14) 4
    crcIdx := numAt b (o + 0x18) 4
    digest := (b.drop (o + 0x20)).take 48
    fromMin := BitVec.ofNat 64 (numAt b (o + 0x50) 8) }

/-- The part table. -/
def partsOf (b : Bytes) : List Part := (List.range (numAt b 0x24 2)).map (partAt b (numAt b 0x2C 4))

/-- The offsets of the compatibility entries of a kind (R436). -/
def compatOf (b : Bytes) (kind : Nat) : List Nat :=
  ((List.range (numAt b 0x26 2)).map fun i => numAt b 0x30 4 + 48 * i).filter fun o => numAt b o 1 == kind

/-- A compatibility entry of kind 1. -/
def twinEntry (b : Bytes) (o : Nat) : TwinCompat :=
  { level := numAt b (o + 2) 2
    tvlMin := numAt b (o + 8) 2
    tvl := numAt b (o + 0xA) 2
    fwver := (List.range 4).map fun k => BitVec.ofNat 64 (numAt b (o + 0x10 + 8 * k) 8) }

/-- A compatibility entry of kind 2. -/
def bridgeEntry (b : Bytes) (o : Nat) : Compat :=
  { typ := BitVec.ofNat 32 (numAt b (o + 4) 4)
    vmin := BitVec.ofNat 64 (numAt b (o + 0x10) 8)
    vmax := BitVec.ofNat 64 (numAt b (o + 0x18) 8) }

/-- What a manifest says (R433); `signer` is the release-key slot that signed it. -/
def manifestOf (b : Bytes) (signer : Nat) : Manifest :=
  { relver := BitVec.ofNat 64 (numAt b 0x10 8)
    svn := numAt b 0x18 4
    setver := numAt b 0x1C 2
    setRunMin := numAt b 0x1E 2
    tvl := numAt b 0x20 2
    tvlMin := numAt b 0x22 2
    revoke := numAt b 0x29 1
    signer := signer
    parts := partsOf b
    twins := (compatOf b 1).map (twinEntry b)
    bridges := (compatOf b 2).map (bridgeEntry b) }

/-! ### The checks (R438) -/

/-- Step 1: the header. -/
def headerOk (b : Bytes) : Bool :=
  let mlen := numAt b 8 4
  decide (numAt b 0 4 = 0x54464E4D ∧ numAt b 4 2 = 1 ∧ numAt b 6 2 = 256) &&
    decide (256 ≤ mlen ∧ mlen % 16 = 0 ∧ mlen ≤ 16384 ∧ mlen ≤ numAt b 0xC 4 ∧ numAt b 0xC 4 ≤ 2 ^ 24) &&
    numAt b 0xFC 4 == (crc32c (b.take 0xFC)).toNat

/-- The role, the key and the signature of a signature entry (R437). -/
def sigRole (b : Bytes) (o : Nat) : Nat := numAt b o 1
def sigKey (b : Bytes) (o : Nat) : BitVec 384 := BitVec.ofNat 384 (numAt b (o + 16) 48)
def sigVal (b : Bytes) (o : Nat) : BitVec 768 := BitVec.ofNat 768 (numAt b (o + 64) 96)

/-- Step 2: the fused release key, its fuse intact, that the release signature names and that verifies it. -/
def State.releaseSigner (s : State) (b : Bytes) : Option Nat :=
  let o := numAt b 0x38 4
  (List.range 4).find? fun i =>
    !s.fw.revoked.contains i && sigRole b o == 1 && sigKey b o == keyIdOf (Config.releaseKey i) &&
      sigOk (Config.releaseKey i) (sigVal b o) (b.take o)

/-- Step 3: a countersignature that is present verifies, and one is present where it is required (R439). -/
def State.cosignOk (s : State) (b : Bytes) : Bool :=
  let o := numAt b 0x38 4 + 160
  if numAt b 0x28 1 < 2 then !s.fw.cosignReq
  else sigRole b o == 2 && s.fw.cosign.any fun k => k.2 == sigKey b o && sigOk k.1 (sigVal b o) (b.take o)

/-- Does a part meet R431 and R434 by itself? -/
def partOk (pkgLen : Nat) (p : Part) : Bool :=
  decide (1 ≤ p.typ ∧ p.typ ≤ 6 ∧ p.off % 65536 = 0 ∧ 65536 ≤ p.off ∧ p.off + p.len ≤ pkgLen ∧ p.nblk = (p.len + 65535) / 65536)

/-- Do two parts overlap, or share what only one may have? -/
def partsClash (p q : Part) : Bool :=
  decide (p.off < q.off + q.len ∧ q.off < p.off + p.len) || (p.typ == q.typ && (p.typ != 5 || p.btype == q.btype))

/-- No two parts of a list clash. -/
def noClash : List Part → Bool
  | [] => true
  | p :: t => (t.all fun q => !partsClash p q) && noClash t

/-- Step 5: the tables lie within MLEN and hold what R431 and R434 ask for. -/
def tablesOk (b : Bytes) : Bool :=
  let mlen := numAt b 8 4
  let ps := partsOf b
  let blocks := ps.foldl (fun n p => n + p.nblk) 0
  decide (numAt b 0x2C 4 + 96 * numAt b 0x24 2 ≤ mlen ∧ numAt b 0x30 4 + 48 * numAt b 0x26 2 ≤ mlen ∧
    numAt b 0x34 4 + 4 * blocks ≤ mlen ∧ numAt b 0x38 4 + 160 * numAt b 0x28 1 ≤ mlen) &&
    decide (1 ≤ numAt b 0x28 1 ∧ numAt b 0x28 1 ≤ 2) && (ps.all (partOk (numAt b 0xC 4))) && noClash ps &&
    ([1, 2, 3, 4, 6].all fun t => ps.any fun p => p.typ == t) && ps.all fun p => decide (p.crcIdx + p.nblk ≤ blocks)

/-- Step 6: the CRC of every block of a part (R435). -/
def crcsOk (b : Bytes) (p : Part) : Bool :=
  let d := (b.drop p.off).take p.len
  (List.range p.nblk).all fun k =>
    (crc32c ((d.drop (65536 * k)).take 65536)).toNat == numAt b (numAt b 0x34 4 + 4 * (p.crcIdx + k)) 4

/-- Step 7: the digest of a part. -/
def digestOk (b : Bytes) (p : Part) : Bool := sha384 ((b.drop p.off).take p.len) == p.digest

/-- R438: the first step that fails, 0 if none does. -/
def State.checkPackage (s : State) (b : Bytes) : Nat :=
  if !headerOk b then 1
  else if (s.releaseSigner b).isNone then 2
  else if !s.cosignOk b then 3
  else if numAt b 0x18 4 < s.fw.svnMin then 4
  else if !tablesOk b then 5
  else if !(partsOf b).all (crcsOk b) then 6
  else if !(partsOf b).all (digestOk b) then 7
  else 0

/-! ### Staging (R441, R442) -/

/-- The package in the staging buffer, PKGLEN bytes of it; what nothing has written reads as 0. -/
def State.staged_ (s : State) : Bytes :=
  let fill := fun (n : Nat) => (s.fw.stage.foldl (fun b e => patchBytes b e.1 e.2) (List.replicate n 0)).take n
  fill (min (2 ^ 24) (max 256 (numAt (fill 256) 0xC 4)))

/-- Does a download overlap an earlier one? -/
def State.overlapsStage (s : State) (off len : Nat) : Bool :=
  s.fw.stage.any fun e => decide (off < e.1 + e.2.length ∧ e.1 < off + len)

/-- A download by a path, 0 NVMe or 1 mailbox, which owns the buffer from its first bytes on. -/
def State.download (s : State) (path off : Nat) (data : Bytes) : State :=
  if data.isEmpty then s
  else { s with fw := { s.fw with stage := s.fw.stage ++ [(off, data)], owner := some path } }

/-- The buffer is empty and has no owner. -/
def State.stageClear (s : State) : State := { s with fw := { s.fw with stage := [], owner := none } }

/-- Does the other path own the buffer? -/
def State.stageTaken (s : State) (path : Nat) : Bool :=
  match s.fw.owner with
  | some p => p != path
  | none => false

/-- The slot that does not run. -/
def State.idleSlot (s : State) : Nat := 1 - s.fw.running

/-- R443: a commit to the inactive slot: the step that failed, or 0 with the package in the slot's region of secure NOR. The buffer is released. -/
def State.commit (s : State) : Nat × State :=
  let b := s.staged_
  let step := s.checkPackage b
  if step ≠ 0 then (step, s.stageClear)
  else
    let x : Slot := { pkg := b, man := manifestOf b ((s.releaseSigner b).getD 0) }
    let at_ := s.idleSlot * 2 ^ 24
    let t := (s.stageClear.norErase (at_, 2 ^ 24)).norPut at_ b
    (0, t.selWrite fun w => { w with slots := tput s.idleSlot x w.slots })

/-! ### Firmware through NVMe (R441, R448, R451) -/

/-- Runs an admin command of firmware: on a virtual function it is an invalid opcode. -/
def firmCtx (stamp : BitVec 64) (f : Ctx → State → State) (s : State) : State :=
  withCtx stamp (fun c s =>
    let ok := match c.tenant with
      | .func k => s.isPf k
      | .assoc _ => true
    if ok then f c s else s.fail c 0 0x01) s

/-- FIRMWARE_IMAGE_DOWNLOAD (R441, R442). The status of a download that the other path's ownership refuses is not stated: Command
Sequence Error. -/
def execFirmwareImageDownload (stamp : BitVec 64) (off : Nat) (data : Bytes) (s : State) : Res := s.awake <|
  .next (firmCtx stamp (fun c s =>
    if off % 4096 ≠ 0 ∨ data.length % 4096 ≠ 0 ∨ 2 ^ 24 < off + data.length ∨ mdts < data.length then s.fail c 0 0x02
    else if s.stageTaken 0 then s.fail c 0 0x0C
    else if s.overlapsStage off data.length then s.fail c 1 0x14
    else (s.download 0 off data).succeed c) s)

/-- The slot that a Firmware Commit names: 0 is the inactive one, 1 A, 2 B; none if there is no such slot, or it runs. -/
def State.commitSlot (s : State) (slot : Nat) : Option Nat :=
  if slot = 0 then some s.idleSlot
  else if 2 < slot ∨ slot - 1 = s.fw.running then none
  else some (slot - 1)

/-- R448: the selector names a slot, which runs from the next reset. -/
def State.selectNext (s : State) (k : Nat) : State :=
  s.selWrite fun w => { w with active := k, pendingSel := true, tries := 0 }

/-- Firmware Commit of the staging buffer; `act` also selects the slot. -/
def State.commitCmd (s : State) (c : Ctx) (slot : Nat) (act : Bool) : State :=
  match s.commitSlot slot with
  | none => s.fail c 1 0x06
  | some k =>
    let r := s.commit
    if r.1 ≠ 0 then r.2.fail c 1 0x07 else (if act then r.2.selectNext k else r.2).succeed c

/-- FIRMWARE_COMMIT_REPLACE: commit action 000b (R441, R443). -/
def execFirmwareCommitReplace (stamp : BitVec 64) (slot : Fin 8) (s : State) : Res := s.awake <|
  .next (firmCtx stamp (fun c s => s.commitCmd c slot false) s)

/-- FIRMWARE_COMMIT_REPLACE_ACTIVATE: commit action 001b (R443, R448). -/
def execFirmwareCommitReplaceActivate (stamp : BitVec 64) (slot : Fin 8) (s : State) : Res := s.awake <|
  .next (firmCtx stamp (fun c s => s.commitCmd c slot true) s)

/-- FIRMWARE_COMMIT_ACTIVATE: commit action 010b (R448); an empty slot holds no valid image. -/
def execFirmwareCommitActivate (stamp : BitVec 64) (slot : Fin 8) (s : State) : Res := s.awake <|
  .next (firmCtx stamp (fun c s => match s.commitSlot slot with
    | none => s.fail c 1 0x06
    | some k => if (tget k s.fw.slots).isNone then s.fail c 1 0x07 else (s.selectNext k).succeed c) s)

/-! ### Activation without reset (R61, R62, R451 to R453) -/

/-- R451: is activation without reset prohibited now? -/
def State.activateProhibited (s : State) : Bool :=
  s.twState == 1 || s.twState == 2 || s.twState == 5 || s.inProgress

/-- R451: does the release in a slot need a reset: another security core, or a level that it does not implement? -/
def State.needsReset (s : State) (m : Manifest) : Bool :=
  let dig := match m.parts.find? fun p => p.typ == 3 with
    | some p => fitTo 48 p.digest
    | none => fitTo 48 (Config.factoryDigest 3)
  dig != s.partDigest 3 || decide (s.fw.level < m.tvlMin ∨ m.tvl < s.fw.level)

/-- R61, steps 1 and 2: the event is posted, and fetching stops. -/
def State.activateStart (s : State) (by_ : Option (BitVec 64)) : State :=
  let s := s.event 2 1 (some 9)
  { s with hif := { s.hif with activating := some by_ } }

/-- FIRMWARE_COMMIT_ACTIVATE_NO_RESET: commit action 011b (R61, R451). -/
def execFirmwareCommitActivateNoReset (stamp : BitVec 64) (slot : Fin 8) (s : State) : Res := s.awake <|
  .next (firmCtx stamp (fun c s => match s.commitSlot slot with
    | none => s.fail c 1 0x06
    | some k => match tget k s.fw.slots with
      | none => s.fail c 1 0x07
      | some x =>
        if s.activateProhibited || s.hif.activating.isSome then s.fail c 1 0x13
        else if s.needsReset x.man then (s.selectNext k).fail c 1 0x0B
        else (s.setWait c.stamp .activation).activateStart (some c.stamp)) s)

/-- R453: a setting whose format revision differs takes its default, with a notice. -/
def resetFormats (old new : Bytes) (s : State) : State :=
  settingTable.foldl (fun s x =>
    if Config.fmtRev old x.id = Config.fmtRev new x.id then s
    else
      let mine := fun (k : Nat) => k / 65536 == x.id
      let v := s.setv
      let s := { s with setv := { v with
        val := v.val.filter fun e => !mine e.1
        pend := v.pend.filter fun e => !mine e.1
        nqn := if x.id = 0x11 then [] else v.nqn } }
      (x.indices.foldl (fun s i => s.applySetting x.id i) s).notice 1 x.id 0) s

/-- R452, R453: the switch to the slot that did not run. -/
def State.switchImage (s : State) : State :=
  let old := s.schemaPart
  let k := s.idleSlot
  let s := s.selWrite fun w => { w with running := k, active := k, pendingSel := true, tries := 0 }
  let s := resetFormats old s.schemaPart s
  { s with fw := { s.fw with schema := s.man.setver } }

/-- Has every command fetched before the activation completed? Requests that wait for an event or a mailbox response do not
count, nor does the commit itself. -/
def State.drained (s : State) : Bool :=
  s.hif.ctxs.all fun c => match c.wait with
    | .aer => true
    | .mi => true
    | .activation => true
    | _ => false

/-- ACTIVATION_DRAINED (R61, R62, R452, R453): the image is switched, or the controller falls back; fetching resumes and the commit
completes. -/
def execActivationDrained (ok : Bool) (s : State) : Res := s.awake <|
  .next (match s.hif.activating with
    | none => s
    | some by_ =>
      if !s.drained then s
      else
        let s := if ok then (List.range 32).foldl State.judgeBridge s.switchImage else s
        let s := { s with hif := { s.hif with activating := none } }
        let s := match by_ with
          | none => if ok then s.answerWaits 0x0504 7 0 0 0 (leBytes 8 s.man.relver.toNat) else s.answerWaits 0x0504 7 0 13 0 []
          | some stamp => match s.ctx stamp with
            | some c => if ok then s.succeed c else s.fail c 1 0x0B
            | none => s
        s.flow)

/-! ### Mailbox group 0x05xx (R444, R483) -/

/-- STAGING_WRITE (R442, R483). -/
def execStagingWrite (m : Msg) (a : Arrival) (off : Nat) (data : Bytes) (s : State) : Res := s.awake <|
  .next (msgApply 0x0501 (24 + data.length) m a (fun s =>
    if 24576 < data.length then s.refuse 0x0501 m a 3
    else if off % 4096 ≠ 0 ∨ 2 ^ 24 < off + data.length then s.refuse 0x0501 m a 2 16
    else if s.stageTaken 1 then s.refuse 0x0501 m a 7 s.stateDetail
    else if s.overlapsStage off data.length then s.refuse 0x0501 m a 2 16
    else (s.download 1 off data).done 0x0501 m a) s)

/-- STAGING_ABORT (R444): the buffer is released. -/
def execStagingAbort (m : Msg) (a : Arrival) (s : State) : Res := s.awake <|
  .next (msgApply 0x0501 24 m a (fun s => s.stageClear.done 0x0501 m a) s)

/-- COMMIT_STAGING (R443, R483). -/
def execCommitStaging (m : Msg) (a : Arrival) (s : State) : Res := s.awake <|
  .next (msgApply 0x0502 16 m a (fun s =>
    let r := s.commit
    if r.1 ≠ 0 then r.2.refuse 0x0502 m a 8 r.1 else r.2.done 0x0502 m a (leBytes 8 (r.2.slotVer s.idleSlot))) s)

/-- What a restart that firmware orders keeps: what protected staging holds goes to packs (R58), as a complete dump does. -/
def State.keepStaged (s : State) : State :=
  if !s.health.ready then s
  else
    let s := s.keepDump (s.dumpOf 1 s.dumpHalf).finish
    { s with pow := { s.pow with savedDtime := s.dtime, savedEpoch := s.epoch } }

/-- R57, R448: the controller resets itself: every function as by a controller reset, then from its reset state. -/
def State.restart (s : State) : State :=
  let s := (List.range 66).foldl (fun s k => if s.funcUp k then s.resetFunc k else s) s
  { s.keepStaged with
    inReset := true
    pow := { s.keepStaged.pow with dumping := false, lastStop := 5 } }

/-- ACTIVATE_WITH_RESET (R448): in states 0 and 4, and in state 3 with FORCE; the response leaves before the reset. -/
def execActivateWithReset (m : Msg) (a : Arrival) (slot : Nat) (force : Bool) (s : State) : Res := s.awake <|
  .next (msgApply 0x0503 20 m a (fun s =>
    let st := s.twState
    if 2 ≤ slot then s.refuse 0x0503 m a 2 16
    else if !(st == 0 || st == 4 || (st == 3 && force)) || (tget slot s.fw.slots).isNone then s.refuse 0x0503 m a 7 s.stateDetail
    else ((s.selectNext slot).done 0x0503 m a).restart) s)

/-- ACTIVATE_WITHOUT_RESET (R451, R483): the inactive slot; the answer waits for the switch. -/
def execActivateWithoutReset (m : Msg) (a : Arrival) (s : State) : Res := s.awake <|
  .next (msgApply 0x0504 16 m a (fun s => match tget s.idleSlot s.fw.slots with
    | none => s.refuse 0x0504 m a 7 s.stateDetail
    | some x =>
      if s.activateProhibited then s.refuse 0x0504 m a 7 s.stateDetail
      else if s.needsReset x.man then (s.selectNext s.idleSlot).refuse 0x0504 m a 7 s.stateDetail
      else (s.await m a 7 0).activateStart none) s)

/-- What READ_SLOT_STATUS shows of a slot: an empty one shows zeros; the factory release's header is not stated. -/
def State.slotStatus (s : State) (k : Nat) : Bytes :=
  match tget k s.fw.slots with
  | none => List.replicate 260 0
  | some x =>
    if x.pkg.isEmpty then freeRun s.freeNo 256 ++ leBytes 2 1 ++ leBytes 2 0 ++ freeRun (s.freeNo + 1) 48
    else
      let n := numAt x.pkg 0x26 2
      fitTo 256 x.pkg ++ leBytes 2 n ++ leBytes 2 0 ++ fitTo (48 * n) (x.pkg.drop (numAt x.pkg 0x30 4))

/-- READ_SLOT_STATUS (R444, R483). -/
def execReadSlotStatus (m : Msg) (a : Arrival) (s : State) : Res := s.awake <|
  .next (msgApply 0x0505 16 m a (fun s =>
    { s with freeNo := s.freeNo + 2 }.done 0x0505 m a (s.selector ++ s.slotStatus 0 ++ s.slotStatus 1)) s)

/-- R460: in twin mode both twins run the same FWVER. -/
def State.sameFirmware (s : State) : Bool :=
  !s.on F.TWN_STAT.PAIRED || match s.arb.hello with
    | some h => h.fwver == s.man.fwver
    | none => false

/-- UPDATE_PACK_BRIDGES (R458, R460, R483): the sequence begins; the answer waits for its end. -/
def execUpdatePackBridges (m : Msg) (a : Arrival) (portMask : BitVec 32) (s : State) : Res := s.awake <|
  .next (msgApply 0x0506 20 m a (fun s =>
    let ports := (List.range 32).filter fun n => portMask == 0 || portMask.getLsbD n
    if s.fw.upd.isSome then s.refuse 0x0506 m a 12
    else if !s.sameFirmware then s.refuse 0x0506 m a 7 s.stateDetail
    else { s.await m a 2 0 with fw := { s.fw with upd := some { left := ports } } }.updNext) s)

/-- COUNTERSIGNING_KEYS (R439, R483): at most two keys; the requirement stands only with a key. -/
def execCountersigningKeys (m : Msg) (a : Arrival) (op : Nat) (key : BitVec 768) (keyid : BitVec 384) (s : State) : Res := s.awake <|
  let len := if op = 1 then 116 else if op = 2 then 68 else 20
  .next (msgApply 0x0507 len m a (fun s =>
    let ok := fun (w : Fw) (id : BitVec 384) => { s with fw := w }.done 0x0507 m a (leBytes 48 id.toNat)
    match op with
    | 1 =>
      let id := keyIdOf key
      if s.fw.cosign.any fun k => k.2 == id then ok s.fw id
      else if 2 ≤ s.fw.cosign.length then s.refuse 0x0507 m a 11
      else ok { s.fw with cosign := s.fw.cosign ++ [(key, id)] } id
    | 2 =>
      let rest := s.fw.cosign.filter fun k => k.2 != keyid
      if rest.length = s.fw.cosign.length then s.refuse 0x0507 m a 2 20
      else if rest.isEmpty && s.fw.cosignReq then s.refuse 0x0507 m a 7 s.stateDetail
      else ok { s.fw with cosign := rest } keyid
    | 3 => if s.fw.cosign.isEmpty then s.refuse 0x0507 m a 7 s.stateDetail else ok { s.fw with cosignReq := true } 0
    | 4 => ok { s.fw with cosignReq := false } 0
    | _ => s.refuse 0x0507 m a 2 16) s)

/-- RAISE_SVN_MIN (R444): SVN_MIN is raised to the SVN of the running slot. -/
def execRaiseSvnMin (m : Msg) (a : Arrival) (s : State) : Res := s.awake <|
  .next (msgApply 0x0508 16 m a (fun s =>
    let s := if s.fw.svnMin < s.man.svn then s.selWrite fun w => { w with svnMin := s.man.svn } else s
    s.done 0x0508 m a (leBytes 4 s.fw.svnMin)) s)

/-- RESTART_TEST_MODE (R450): the response leaves before the reset. -/
def execRestartTestMode (m : Msg) (a : Arrival) (s : State) : Res := s.awake <|
  .next (msgApply 0x0509 16 m a (fun s =>
    let s := (s.done 0x0509 m a).restart
    { s with fw := { s.fw with testNext := true } }) s)

/-- MIGRATE_SETTINGS (R444, R449): in test mode or in recovery mode, an older stored schema is migrated. -/
def execMigrateSettings (m : Msg) (a : Arrival) (s : State) : Res := s.awake <|
  .next (msgApply 0x050A 16 m a (fun s =>
    if !s.fw.testMode && s.bootState != 7 then s.refuse 0x050A m a 7 s.stateDetail
    else
      let s := if s.fw.schema < s.man.setver then s.migrate else s
      s.done 0x050A m a (leBytes 2 s.man.setver ++ [0, 0])) s)

end Sys2Proof.Machine
end

