-- ==== Sys2Proof/Machine/Debug.lean ====
section
/-! DEFINITION. The debug port: JTAG instructions, debug unlock and freeze (R428, R611 to R617); and the DTIME millisecond tick with
what goes on by time (R23). -/

namespace Sys2Proof.Machine

/-- A JTAG instruction is selected. -/
def State.jtagIr (s : State) (code : Nat) : State := { s with tly := { s.tly with ir := code } }

/-- EXTEST (R611): the boundary-scan register is selected; what it drives is the world's. -/
def execExtest (s : State) : Res := .next (s.jtagIr 0x00)

/-- SAMPLE (R611). -/
def execSample (s : State) : Res := .next (s.jtagIr 0x01)

/-- PRELOAD (R611). -/
def execPreload (s : State) : Res := .next (s.jtagIr 0x02)

/-- BYPASS (R611): a one-bit register. -/
def execBypass (s : State) : Res := .next (s.jtagIr 0xFF)

/-- DBG_STATUS (R611): PMC_DBG_STAT is captured. -/
def execDbgStatus (s : State) : Res := .next ((s.jtagIr 0x20).send (.jtag 32 (s.reg .PMC_DBG_STAT 0).toNat))

/-- DBG_CHAL (R611, R612): a new challenge is captured. -/
def execDbgChal (s : State) : Res :=
  let v := BitVec.ofNat 384 (leNat (freeRun s.freeNo 48))
  let s := (s.drawn.jtagIr 0x21).send (.jtag 384 v.toNat)
  .next { s with tly := { s.tly with chal := some v } }

/-! ### Debug unlock (R612, R613) -/

/-- A token is refused: RESULT and source 245; a failed one counts. -/
def State.unlockRefuse (s : State) (result : Nat) (fails : Bool) : State :=
  let s := (s.put F.PMC_DBG_STAT.RESULT 0 result).put F.PMC_DBG_STAT.BUSY 0 0
  let s := if fails then s.put F.PMC_DBG_STAT.FAILS 0 (min 5 (s.get F.PMC_DBG_STAT.FAILS + 1)) else s
  { s with tly := { s.tly with token := none, chal := none } }.raise 245

/-- DBG_TOKEN (R612, R613): a token is submitted; after five failures it is refused. One that comes while another is verified is
lost with its challenge. -/
def execDbgToken (t : DbgToken) (s : State) : Res :=
  .next (let s := s.jtagIr 0x22
    if s.get F.PMC_DBG_STAT.FAILS = 5 then s.unlockRefuse 6 false
    else if s.on F.PMC_DBG_STAT.BUSY then { s with tly := { s.tly with chal := none } }
    else ({ s with tly := { s.tly with token := some t } }.put F.PMC_DBG_STAT.BUSY 0 1).raise 8)

/-- The bytes that a token's signature covers (R612). -/
def tokenBytes (t : DbgToken) : Bytes :=
  leBytes 4 0x55474244 ++ leBytes 2 1 ++ leBytes 1 1 ++ [0] ++ leBytes 24 t.serial.toNat ++ leBytes 48 t.challenge.toNat ++
    leBytes 48 t.keyid.toNat

/-- The keys that may sign a token: crypto-officer keys, and fused release keys with their fuse intact. -/
def State.unlockKeys (s : State) : List (BitVec 768 × BitVec 384) :=
  ((s.keys.auth.filter fun k => k.role == 2).map fun k => (k.key, k.keyid)) ++
    (((List.range 4).filter fun i => !s.fw.revoked.contains i).map fun i => (Config.releaseKey i, keyIdOf (Config.releaseKey i)))

/-- R612, R613: RESULT for a token: 1 accepted. -/
def State.judgeToken (s : State) (t : DbgToken) : Nat :=
  let st := s.twState
  if !t.headerOk || t.serial != Config.serial then 2
  else if s.tly.chal ≠ some t.challenge then 3
  else if !(s.unlockKeys.any fun k => k.2 == t.keyid && sigOk k.1 t.sig (tokenBytes t)) then 4
  else if st = 1 ∨ st = 2 ∨ st = 5 ∨ s.get F.SEC_MODE.MODE = 0 ∨ s.on F.PMC_DBG_STAT.UNLOCKED then 5
  else 1

/-- R613, step 1: the shutdown of R59 on every function that is enabled; fetching does not resume. -/
def State.unlockShutdown (s : State) : State :=
  let fs := (List.range 66).filter fun f => s.on F.CC.EN f && s.get F.CSTS.SHST f == 0
  let s := fs.foldl (fun s f =>
    { s.put F.CSTS.SHST f 1 with hif := { s.hif with shutdown := tput f s.elapsed s.hif.shutdown } }) s
  let s := { s with hif := { s.hif with fetchStop := true } }.closeJournal
  ((keysWhere (fun _ => true) (s.conv.acc.filter fun e => e.2.filled)).foldl State.closeConvoy s).flow

/-- Is the shutdown of R613 complete: fetched commands completed, staging and journal in packs? -/
def State.unlockReady (s : State) : Bool :=
  s.stagingInPacks && s.hif.ctxs.all fun c => c.wait == .aer || c.wait == .mi

/-- R614: every clock domain stops. -/
def State.freezeNow (s : State) : State :=
  if s.on F.PMC_DBG_STAT.UNLOCKED && s.tly.freezeLow then s.put F.PMC_DBG_STAT.FROZEN 0 1 else s

/-- R428, R613, steps 2 and 3: every slot and the DTS are overwritten, the wrapped records stay; UNLOCKED and source 244. -/
def State.unlockNow (s : State) : State :=
  let off := fun (e : Nat × KeySlot) => (e.1, { e.2 with loaded := false, pend := none })
  let kept := s.keys.slots.filter fun (e : Nat × KeySlot) => e.2.wrapped
  let s := { s with
    keys := { s.keys with
      slots := kept.map off
      flagged := (kept.filter fun (e : Nat × KeySlot) => e.2.loaded).map Prod.fst
      waitJobs := []
      dtsPart := []
      early := []
      need := []
      noUnwrap := true }
    tly := { s.tly with unlocking := false } }
  let s := (s.put F.SEC_MODE.MODE 0 2).kstat
  let s := ((s.put F.PMC_DBG_STAT.UNLOCKED 0 1).put F.PMC_DBG_STAT.BUSY 0 0).put F.PMC_DBG_STAT.RESULT 0 1
  (s.raise 244).freezeNow

/-- An accepted token is acted on, once the shutdown is complete. -/
def State.unlockGo (s : State) : State := if s.tly.unlocking && s.unlockReady then s.unlockNow else s

/-- DEBUG_UNLOCK (R613): SC verifies the token that was submitted; the challenge is consumed. In states 0 and 3 the shutdown comes
first; while it goes on, the unlock completes with the millisecond tick that finds it complete. -/
def execDebugUnlock (s : State) : Res := s.awake <|
  .next (match s.tly.token with
    | none => s.unlockGo
    | some t =>
      let r := s.judgeToken t
      if r = 1 then
        let s := { s with tly := { s.tly with token := none, chal := none, unlocking := true } }
        if s.twState = 0 ∨ s.twState = 3 then s.unlockShutdown.unlockGo else s.unlockNow
      else s.unlockRefuse r (decide (r ≤ 4)))

/-! ### Freeze and read-out (R614 to R617) -/

/-- FREEZE_N_ASSERT (R614): FREEZE_N falls. -/
def execFreezeNAssert (s : State) : Res :=
  .next (let s := { s with tly := { s.tly with freezeLow := true } }
    if s.on F.PMC_DBG_STAT.UNLOCKED then s.freezeNow else s.raise 8)

/-- SCAN_SEL (R611): the length of the domain's chain that was selected is captured; the new one is selected. -/
def execScanSel (d : Fin 112) (s : State) : Res :=
  let s := (s.jtagIr 0x23).send (.jtag 32 (s.tly.dom + 256 * (Config.chainLen s.tly.dom % 2 ^ 24)))
  .next { s with tly := { s.tly with dom := d } }

/-- SCAN_DATA (R616): while frozen the chain is shifted out and recirculates; the flip-flops are not the model's, so what comes is
free. Otherwise zeros. -/
def execScanData (s : State) : Res :=
  let n := Config.chainLen s.tly.dom
  .next (let s := s.jtagIr 0x24
    if s.on F.PMC_DBG_STAT.FROZEN then s.drawn.send (.jtag n (Config.free s.freeNo % 2 ^ n)) else s.send (.jtag n 0))

/-- MEM_ADDR (R611). -/
def execMemAddr (a : BitVec 40) (s : State) : Res :=
  let s := s.jtagIr 0x25
  .next { s with tly := { s.tly with memAddr := BitVec.ofNat 40 (a.toNat / 8 * 8) } }

/-- A byte of the register space as it is shown. -/
def State.regByte (s : State) (a : Nat) : Nat :=
  match regAt a with
  | some (r, i, k) => bitsOf (8 * k + 7) (8 * k) (s.regShow r i).toNat
  | none => 0

/-- R616: the word at an address with its stored check bits, nothing corrected: SRAM but for SC's window, registers, HBM; all else
reads as zero. -/
def State.debugWord (s : State) (a : Nat) : Nat :=
  if inHbm a then
    if s.decoded .debug a then ((Config.checkBits (s.wordAt (a / 8)) ++ s.wordAt (a / 8)) ^^^ s.errOf (a / 8)).toNat else 0
  else match sramCore a with
    | some i => if i = 22 then 0 else leNat (s.rdBytes a 8)
    | none => if inRegBlock a then (List.range 8).foldl (fun v k => v + s.regByte (a + k) * 2 ^ (8 * k)) 0 else 0

/-- MEM_DATA (R611, R616): the word at MEM_ADDR is captured while frozen, zeros otherwise; MEM_ADDR moves on.
An access that no block decodes, or to SC's window, is counted (R18, R19). -/
def execMemData (s : State) : Res :=
  let a := s.tly.memAddr
  let s := (s.jtagIr 0x26).send (.jtag 72 (if s.on F.PMC_DBG_STAT.FROZEN then s.debugWord a.toNat else 0))
  let s := if s.on F.PMC_DBG_STAT.FROZEN && !s.decoded .debug a.toNat then s.undecoded .debug else s
  .next { s with tly := { s.tly with memAddr := a + 8 } }

/-! ### Time (R23) -/

/-- R415: a service has waited for more than 1 ms for the lead's material: as a claim timeout (R329). -/
def State.keyStall (s : State) : State :=
  let n := if s.keys.need.isEmpty then 0 else s.keys.stallMs + 1
  let s := { s with keys := { s.keys with stallMs := n } }
  if n = 2 then ((s.put F.TWN_STAT.CLTO 0 1).raise 256).setFault 3 else s

/-- What goes on as time passes: ELAPSED until ready, the residency of the power state, the end of a rejoin without a link (R384), a start
that waits, the bridge update, Format and Sanitize, an unlock. -/
def State.timeRuns (s : State) : State :=
  let s := if s.bootState < 6 then s.putAll F.HIF_BOOTSTAT.ELAPSED (min 65535 (s.elapsed / 1000)) else s
  let p := s.get F.CPM_PSTATE.STATE
  let s := s.put F.CPM_RESID.US p (s.get F.CPM_RESID.US p + 1000)
  let s := { s with twn := { s.twn with faults := s.twn.faults &&& ~~~ 4#64 } }
  let s := match s.arb.linkDownAt with
    | some t => if t + 100000 ≤ s.elapsed then s.rejoinAbort 3 else s
    | none => s
  (s.keyStall.bootGo.updNext.progressRun.unlockGo).coalTick.fabricTurns

/-- DTIME_MILLISECOND_TICK (R23): device time goes on by a millisecond, and EVT[2] pulses. -/
def execDtimeMillisecondTick (s : State) : Res :=
  .next (let s := { s with dtime := s.dtime + 1000, elapsed := s.elapsed + 1000 }
    if s.inReset || s.on F.PMC_DBG_STAT.FROZEN then s else (s.hwPulse 2).timeRuns)

end Sys2Proof.Machine
end

