-- ==== Sys2Proof/Machine/MapCmd.lean ====
section
/-! DEFINITION. The commands of the map engine: requests on its queues, filled misses, the journal block's close and the
checkpoint round (chapter 4). -/

namespace Sys2Proof.Machine

/-- MAP_LOOKUP (R119). -/
def execMapLookup (q : Fin 16) (d : MapDesc) (s : State) : Res := s.awake <| .next (mapTake 1 q d s).flow

/-- MAP_ENTRY_COMMIT (R121). -/
def execMapEntryCommit (q : Fin 16) (d : MapDesc) (s : State) : Res := s.awake <| .next (mapTake 2 q d s).flow

/-- MAP_PATCH_COMMIT (R124). -/
def execMapPatchCommit (q : Fin 16) (d : MapDesc) (s : State) : Res := s.awake <| .next (mapTake 3 q d s).flow

/-- MAP_ZERO_SPAN (R130). -/
def execMapZeroSpan (q : Fin 16) (d : MapDesc) (s : State) : Res := s.awake <| .next (mapTake 4 q d s).flow

/-- MAP_CONDITIONAL_COMMIT (R127). -/
def execMapConditionalCommit (q : Fin 16) (d : MapDesc) (s : State) : Res := s.awake <| .next (mapTake 5 q d s).flow

/-- MAP_PAGE_DROP (R130). -/
def execMapPageDrop (q : Fin 16) (d : MapDesc) (s : State) : Res := s.awake <| .next (mapTake 6 q d s).flow

/-- MAP_PAGE_WRITE_BACK (R143). -/
def execMapPageWriteBack (q : Fin 16) (d : MapDesc) (s : State) : Res := s.awake <| .next (mapTake 7 q d s).flow

/-- JOURNAL_BLOCK_CLOSE: the open journal block is closed and placed in the system stream (R141). -/
def execJournalBlockClose (_shutdown : Bool) (s : State) : Res := s.awake <| .next s.closeJournal.flow

/-- CHECKPOINT_ROUND (R143, R591): task 3, whose nominal period is setting 0x0006. -/
def execCheckpointRound (durUs : Nat) (s : State) : Res := s.awake <|
  .next (checkpointAll (s.runTask taskCheckpoint (s.setting 0x06 * 1000000) durUs)).flow

end Sys2Proof.Machine
end

