-- ==== Sys2Proof/Machine/RegWrite.lean ====
section
/-! DEFINITION. Register writes: which fields a write reaches and what it does there, by access code (R6 to R8), by lock and by the
"ignored while" notes of the register tables; the effects that stand beside a field; and the address spaces (R17 to R20). -/

namespace Sys2Proof.Machine

/-! ### Fields (R6, R7) -/

/-- The lock bit of a register's RWL fields is set. -/
def State.locked (s : State) (r : RegName) (i : Nat) : Bool :=
  match r with
  | .MAP_CACHE_CFG => s.on F.MAP_CTL.LOCK
  | .MAP_PTAB_CFG => s.on F.MAP_CTL.LOCK
  | .CVY_ACC_CFG => s.on F.CVY_CTL.LOCK
  | .MED_ITER_CFG => s.on F.MED_CTL.LOCK
  | .HBC_REPAIR => s.on F.HBC_CTL.RLOCK
  | .CIC_SRC_CFG => decide (i < 16) && s.on F.CIC_CTL.PLOCK
  | _ => false

/-- The channel has a set running that is not paused: its active registers ignore writes (R514). -/
def State.ptrBusy (s : State) (n : Nat) : Bool := !s.on F.PTR_STAT.IDLE n && !s.on F.PTR_STAT.PAUSED n

/-- Does the register table say that a write to the field with least bit `lo` is ignored now? Also true of the fields that only
their own effect changes (below). -/
def State.ignores (s : State) (r : RegName) (i lo : Nat) : Bool :=
  match r with
  | .MAP_QBASE => s.on F.MAP_QCTL.EN i
  | .MAP_QCTL => lo == 0 && s.on F.MAP_QCTL.EN i
  | .CMP_RING_CFG => (lo == 44 || lo == 6) && s.on F.CMP_RING_CFG.EN i
  | .CVY_RING_CFG => (lo == 44 || lo == 6) && s.on F.CVY_RING_CFG.EN i
  | .CPH_RING_CFG => (lo == 44 || lo == 6) && s.on F.CPH_RING_CFG.EN i
  | .TWN_IRCFG => (lo == 44 || lo == 6) && s.on F.TWN_IRCFG.EN i
  | .TWN_RETCFG => s.on F.TWN_CTL.EN
  | .HIF_XCFG => s.on F.CC.EN i
  | .CIC_SRC_CFG => reservedSrc i
  | .PTR_SRC => s.ptrBusy i
  | .PTR_DST => s.ptrBusy i
  | .PTR_CNT => s.ptrBusy i
  | .PTR_CFG => s.ptrBusy i
  | .PTR_XLV => s.ptrBusy i
  | .PTR_CRC => s.ptrBusy i
  | .HBC_TEST_CTL => lo == 31 && s.on F.HBC_CTL.TLOCK
  | .TWN_CTL => lo == 8
  | .TLY_CTL => lo == 8
  | _ => false

/-- W1S bits that stay set; the others act and read 0. -/
def staysSet (r : RegName) (lo : Nat) : Bool :=
  match r with
  | .MAP_CTL => true
  | .CVY_CTL => true
  | .MED_CTL => true
  | .CIC_CTL => true
  | .HBC_CTL => true
  | .PTR_CTL => lo == 3
  | _ => false

/-- The bits [hi:lo] of a register. -/
def spanMask (hi lo : Nat) : BitVec 64 := BitVec.ofNat 64 (2 ^ (hi + 1) - 2 ^ lo)

/-- R6: a register's new value after a write of `v` to the bits of one field; `w` are the field's bits that the access carries. -/
def accWrite (acc : Acc) (open_ stays : Bool) (w v old : BitVec 64) : BitVec 64 :=
  match acc with
  | .rw => (old &&& ~~~w) ||| (v &&& w)
  | .rwl => if open_ then (old &&& ~~~w) ||| (v &&& w) else old
  | .w1c => old &&& ~~~(v &&& w)
  | .w1s => if stays then old ||| (v &&& w) else old
  | .ro => old
  | .wo => old
  | .rc => old

/-- A write of `v` under `mask` reaches every field of the register that takes it now; reserved bits take nothing (R7). -/
def State.storeFields (s : State) (r : RegName) (i : Nat) (mask v : BitVec 64) : State :=
  s.setReg r i ((regInfo r).fields.foldl (fun (old : BitVec 64) f =>
    if s.ignores r i f.2.1 then old
    else accWrite f.2.2 (!s.locked r i) (staysSet r f.2.1) (spanMask f.1 f.2.1 &&& mask) v old) (s.reg r i))

/-! ### Effects beside the fields -/

/-- What a row of the command table does, where a register write is that row. -/
def State.by_ (s : State) (f : State → Res) : State :=
  match f s with
  | .next t => t
  | _ => s

/-- The core that an initiator is. -/
def Initiator_core (who : Initiator) : Option (Fin 24) :=
  match who with
  | .core i => some i
  | .user i => some i
  | _ => none

/-- A 1 is written to bit `b`. -/
def wrote1 (mask v : BitVec 64) (b : Nat) : Bool := mask.getLsbD b && v.getLsbD b

/-- CIC_CORE_CTL (R494 to R496): LID of a core 0–17 that does not run takes 0–17 and 31; RUN acts as CORE_RUN. -/
def State.coreCtl (s : State) (i : Nat) (mask v : BitVec 64) : State :=
  let lid := bitsOf 20 16 v.toNat
  let s := if mask.getLsbD 16 && decide (i ≤ 17 ∧ (lid ≤ 17 ∨ lid = 31)) && !s.on F.CIC_CORE_CTL.RUN i then s.put F.CIC_CORE_CTL.LID i lid
    else s
  if mask.getLsbD 0 then coreRun i (v.getLsbD 0) s else s

/-- CIC_WDT (R497): KICK, or EN's rise, starts the period. -/
def State.wdtCtl (s : State) (i : Nat) (mask v : BitVec 64) : State :=
  let t := s.storeFields .CIC_WDT i mask v
  if wrote1 mask v 30 || (t.on F.CIC_WDT.EN i && !s.on F.CIC_WDT.EN i) then wdtKick i t else t

/-- PTR_CTL: TEVT, EN and PAUSE are stored; then COMMIT and START act (R514, R517, R520, R529). -/
def State.ptrCtl (s : State) (n : Nat) (mask v : BitVec 64) : State :=
  let s := s.storeFields .PTR_CTL n mask v
  let s := if mask.getLsbD 2 && !v.getLsbD 2 then s.put F.PTR_STAT.PAUSED n 0 else s
  if wrote1 mask v 1 then s.by_ (execPorterStart (Fin.ofNat 64 n)) else s

/-- PKP_CTL: a lane that is disabled has no link; HOLD that is cleared lets the kept commands go; RETRAIN acts. -/
def State.pkpCtl (s : State) (n : Nat) (mask v : BitVec 64) : State :=
  let t := s.storeFields .PKP_CTL n mask v
  let t := if !t.on F.PKP_CTL.EN n && t.on F.PKP_STAT.LINK_UP n then (t.put F.PKP_STAT.LINK_UP n 0).linkChg n else t
  let t := if !s.on F.PKP_CTL.EN n && t.on F.PKP_CTL.EN n then t.train n else t
  let t := if s.on F.PKP_CTL.HOLD n && !t.on F.PKP_CTL.HOLD n then t.packRelease n else t
  if wrote1 mask v 2 then t.by_ (execPkpRetrain (Fin.ofNat 32 n)) else t

/-- CMP_ENG_CTL (R172, R173). -/
def State.cmpEngCtl (s : State) (n : Nat) (mask v : BitVec 64) : State :=
  if !mask.getLsbD 0 then s
  else if v.getLsbD 0 then s.by_ (execCompressionEngineEnable (Fin.ofNat 26 n)) else s.by_ (execCompressionEngineDisable (Fin.ofNat 26 n))

/-- CPH_CORE_CTL (R395, R396): whether the known-answer test passes is free. -/
def State.cphCoreCtl (s : State) (n : Nat) (mask v : BitVec 64) : State :=
  if !mask.getLsbD 0 then s
  else if v.getLsbD 0 then
    let pass := Config.free s.freeNo % 2 == 1
    s.drawn.by_ (execCipherCoreEnable (Fin.ofNat 18 n) pass)
  else s.by_ (execCipherCoreDisable (Fin.ofNat 18 n))

/-- CVY_CTL: clearing EN ends the engine's work (R254). -/
def State.cvyCtl (s : State) (mask v : BitVec 64) : State :=
  let s := s.storeFields .CVY_CTL 0 mask v
  if s.on F.CVY_CTL.EN then s.cvyResume else s.by_ execConvoyEngineDisable

/-- TWN_CTL: STAGE_US acts under R333. -/
def State.twnCtl (s : State) (mask v : BitVec 64) : State :=
  let s := s.storeFields .TWN_CTL 0 mask v
  if mask.getLsbD 8 then s.by_ (execStageLengthWrite (v.extractLsb' 8 7)) else s

/-- HBC_CTL: TLOCK locks the test mode off (R548). -/
def State.hbcCtl (s : State) (mask v : BitVec 64) : State :=
  let s := s.storeFields .HBC_CTL 0 mask v
  if s.on F.HBC_CTL.TLOCK then s.put F.HBC_TEST_CTL.EN 0 0 else s

/-- HBC_TEST_CTL: GO carries out OP (R548); an OP that the manual does not list ends with no action. -/
def State.hbcTestCtl (s : State) (mask v : BitVec 64) : State :=
  let s := s.storeFields .HBC_TEST_CTL 0 mask v
  let sym := s.get F.HBC_TEST_CTL.SYM
  if !wrote1 mask v 0 then s
  else match s.get F.HBC_TEST_CTL.OP with
    | 1 => testOp 1 (testStore (BitVec.ofNat 8 (s.get F.HBC_TEST_CTL.CHK))) s
    | 2 => testOp 2 testLoad s
    | 3 => testOp 3 (testStoreSym sym) s
    | 4 => testOp 4 (testLoadSym sym) s
    | op => testOp op id s

/-- SNF_CTL: EN acts under R561. -/
def State.snfCtl (s : State) (mask v : BitVec 64) : State :=
  let s := s.storeFields .SNF_CTL 0 mask v
  if s.on F.SNF_CTL.EN then s.norKick else s.by_ execNorEngineDisable

/-- SNF_PCMD (R565): CMD acts on REGION; only a core opens a region. -/
def State.snfPcmd (s : State) (who : Initiator) (v : BitVec 64) : State :=
  let r := Fin.ofNat 16 (v.toNat % 16)
  match Initiator_core who, bitsOf 31 30 v.toNat with
  | some c, 1 => s.by_ (execOpenRegion c r)
  | some c, 2 => s.by_ (execCloseRegion c r)
  | some c, 3 => s.by_ (execSetPassword c r)
  | _, _ => s

/-- TLY_CTL: FREEZE cleared writes the held span (R603); PE_DONE (R597). -/
def State.tlyCtl (s : State) (mask v : BitVec 64) : State :=
  let frozen := s.on F.TLY_CTL.FREEZE
  let s := s.storeFields .TLY_CTL 0 mask v
  let s := if frozen && mask.getLsbD 8 && !v.getLsbD 8 then s.tallyThaw else s
  if wrote1 mask v 9 then s.by_ execPeDone else s

/-- The clock domain that a request waits for. -/
def GateWait.dom : GateWait → Nat
  | .map .. => 108
  | .convoy .. => 110
  | .porter _ => 109
  | .decode .. => 107
  | .encode .. => 107

/-- A request that waited is made again. -/
def State.gateRun (s : State) : GateWait → State
  | .map op q d => mapTake op q d s
  | .convoy op r d items => cvyJob op r d items s
  | .porter n => s.by_ (execPorterStart n)
  | .decode kind cbid page pos cw stage iters => s.by_ (execCodewordDecode kind cbid page pos cw stage iters)
  | .encode codewords line => s.by_ (execLdpcEncode 0 codewords line)

/-- R572: the requests whose domain is no longer held go on, in order, and so do the jobs that wait in their rings. -/
def State.gatesOpen (s : State) : State :=
  let go := s.gateWait.filter fun w => !s.domHeld w.dom
  let s := go.foldl State.gateRun { s with gateWait := s.gateWait.filter fun w => s.domHeld w.dom }
  let take := fun (s : State) (n : Nat) => if s.canTake n then s.takeSet n else s
  let s := if s.domHeld 109 then s else (List.range 64).foldl take s
  s.cmpResume.startWaiting

/-- CPM_DOM_OFF (R572): DOM[0], DOM[23], DOM[24] and DOM[59] are never held; a held gate is closed. -/
def State.domOff (s : State) (k : Nat) (mask v : BitVec 64) : State :=
  let never : BitVec 64 := if k = 0 then 0x1800001 else if k = 1 then 0x8000000 else 0
  let s := s.storeFields .CPM_DOM_OFF k mask (v &&& ~~~never)
  (s.setReg .CPM_DOM_STAT k (s.reg .CPM_DOM_STAT k &&& ~~~s.reg .CPM_DOM_OFF k)).gatesOpen

/-- A number in a channel's request buffer. -/
def State.reqNat (s : State) (c off n : Nat) : Nat :=
  leNat ((List.range n).map fun j => tgetD (65536 * c + off + j) 0 s.mbx.req)

/-- The header of the request in a channel's buffer (R467). -/
def State.reqMsg (s : State) (c : Fin 8) : Msg :=
  { chan := c
    opcode := BitVec.ofNat 16 (s.reqNat c 0 2)
    tag := BitVec.ofNat 16 (s.reqNat c 2 2)
    len := s.reqNat c 4 4
    replay := decide (s.reqNat c 8 1 % 2 = 1)
    token := BitVec.ofNat 32 (s.reqNat c 12 4) }

/-- MBX_CSR (R463): OVERRUN and RDY clear; GO submits; DONE is the firmware side's. -/
def State.mbxCsr (s : State) (firmware : Bool) (c : Nat) (mask v : BitVec 64) : State :=
  let s := s.storeFields .MBX_CSR c mask v
  let s := if firmware && wrote1 mask v 8 then s.by_ (execMailboxDone (Fin.ofNat 8 c)) else s
  if wrote1 mask v 0 then s.mailGo (s.reqMsg (Fin.ofNat 8 c)) else s

/-- CC: EN enables and resets the controller, SHN asks for a shutdown; the other fields are stored. -/
def State.ccWrite (s : State) (f : Nat) (mask v : BitVec 64) : State :=
  let old := s.reg .CC f
  let new : BitVec 32 := ((old &&& ~~~mask) ||| (v &&& mask)).setWidth 32
  let shn := bitsOf 15 14 new.toNat
  let g := Fin.ofNat 66 f
  if !s.on F.CC.EN f && new.getLsbD 0 then s.by_ (execControllerEnable g new)
  else if s.on F.CC.EN f && !new.getLsbD 0 then s.by_ (execControllerReset g new)
  else
    let t := s.writeCc f new (s.get F.CC.EN f)
    if (shn == 1 || shn == 2) && s.get F.CC.SHN f != shn then t.by_ (execShutdownNotification g (shn == 2)) else t

/-! ### A register is written -/

/-- A write of `v` under `mask` to instance `i` of register `r`: its fields take it, and what stands beside them happens. -/
def State.regWrite (s : State) (who : Initiator) (r : RegName) (i : Nat) (mask v : BitVec 64) : State :=
  match r with
  | .CIC_CTL => (s.storeFields r i mask v).settle
  | .CIC_SRC_CFG => (s.storeFields r i mask v).settle
  | .CIC_TGT_CTL => (s.storeFields r i mask v).settle
  | .CIC_DB_RING => s.raise (300 + v.toNat % 32)
  | .CIC_EOI => cicEoi i (v.toNat % 512) s
  | .CIC_CORE_CTL => s.coreCtl i mask v
  | .CIC_WDT => s.wdtCtl i mask v
  | .PTR_CTL => s.ptrCtl i mask v
  | .PTR_SSRC => (s.storeFields r i mask v).put F.PTR_STAT.LASTW i (s.get F.PTR_CTL.COMMIT i)
  | .PTR_SDST => (s.storeFields r i mask v).put F.PTR_STAT.LASTW i (s.get F.PTR_CTL.COMMIT i)
  | .PTR_SCNT => (s.storeFields r i mask v).put F.PTR_STAT.LASTW i (s.get F.PTR_CTL.COMMIT i)
  | .PTR_SCFG => (s.storeFields r i mask v).put F.PTR_STAT.LASTW i (s.get F.PTR_CTL.COMMIT i)
  | .PTR_SXLV => (s.storeFields r i mask v).put F.PTR_STAT.LASTW i (s.get F.PTR_CTL.COMMIT i)
  | .CMP_CTL => (s.storeFields r i mask v).cmpResume
  | .CPH_CTL => (s.storeFields r i mask v).startWaiting
  | .CMP_ENG_CTL => s.cmpEngCtl i mask v
  | .CPH_CORE_CTL => s.cphCoreCtl i mask v
  | .CVY_CTL => s.cvyCtl mask v
  | .PKP_CTL => s.pkpCtl i mask v
  | .TWN_CTL => s.twnCtl mask v
  | .TWN_IRHEAD => s.by_ (execInputRingHeadWrite (Fin.ofNat 23 i) (v.setWidth 16))
  | .TWN_DIGEST_IN =>
    match Initiator_core who with
    | some c => s.by_ (execDigestInWrite c (v &&& mask))
    | none => s
  | .HBC_CTL => s.hbcCtl mask v
  | .HBC_INIT => if wrote1 mask v 0 then hbmFillStart s else s
  | .HBC_TEST_CTL => s.hbcTestCtl mask v
  | .SNF_CTL => s.snfCtl mask v
  | .SNF_QPTR => (s.storeFields r i mask v).norKick
  | .SNF_PWD => s.setReg r i ((s.reg r i &&& ~~~mask) ||| (v &&& mask))
  | .SNF_PCMD => s.snfPcmd who v
  | .SNF_SCCTL => s.by_ (execClrlock who (v.setWidth 16))
  | .CPM_DOM_OFF => s.domOff i mask v
  | .TLY_CTL => s.tlyCtl mask v
  | .TLY_CUR => s.by_ (execTallyWindowSelect (((s.reg r i &&& ~~~mask) ||| (v &&& mask)).setWidth 32))
  | .CC => s.ccWrite i mask v
  | .NSSR => if v = 0x4E564D65 then s.by_ (execNvmSubsystemReset (Fin.ofNat 66 i)) else s
  | .HIF_QDB =>
    if v.getLsbD 31 then s.headDoorbell i (bitsOf 28 16 v.toNat) (v.toNat % 65536)
    else s.tailDoorbell i (bitsOf 28 16 v.toNat) (v.toNat % 65536)
  | _ => s.storeFields r i mask v

/-- A part of a register space: the register at an offset (its name, its instance, the byte), and what else takes a word there. -/
structure RegSpace where
  find : Nat → Option (RegName × Nat × Nat)
  taken : Nat → Bool                     -- something other than a register takes a word at the offset
  write : RegName → Nat → BitVec 64 → BitVec 64 → State → State
  other : Nat → BitVec 32 → State → State

/-- A 32-bit access. -/
def RegSpace.word (x : RegSpace) (a : Nat) (v : BitVec 32) (s : State) : State :=
  match x.find a with
  | some (r, i, k) => x.write r i (spanMask (8 * k + 31) (8 * k)) (v.setWidth 64 <<< (8 * k)) s
  | none => x.other a v s

/-- R7, R8: is there a register, or a word that something else takes, at one of `n` offsets from `a` on? -/
def RegSpace.holds (x : RegSpace) (a n : Nat) : Bool := (List.range n).any fun k => (x.find (a + k)).isSome || x.taken (a + k)

/-- R8: a naturally aligned access of 4 or 8 bytes; any other is ignored, and counted in block `blk` where it touches a register: at
reserved offsets alone it raises no error (R7). That a single touched byte counts is the model's reading (DEDUCED, log entry 104). -/
def RegSpace.access (x : RegSpace) (blk a size : Nat) (v : BitVec 64) (s : State) : State :=
  if size = 4 ∧ a % 4 = 0 then x.word a (v.setWidth 32) s
  else if size = 8 ∧ a % 8 = 0 then
    match x.find a with
    | some (r, i, 0) =>
      if (regInfo r).width = 64 then x.write r i (spanMask 63 0) v s
      else x.word (a + 4) ((v >>> 32).setWidth 32) (x.word a (v.setWidth 32) s)
    | _ => x.word (a + 4) ((v >>> 32).setWidth 32) (x.word a (v.setWidth 32) s)
  else if x.holds a size then s.accessBad blk
  else s

/-! ### The address spaces -/

/-- R463: bytes are written to a channel's request buffer; while BUSY they are ignored and set OVERRUN. -/
def State.reqWrite (s : State) (c off : Nat) (b : Bytes) : State :=
  if s.on F.MBX_CSR.BUSY c then s.put F.MBX_CSR.OVERRUN c 1
  else { s with mbx := { s.mbx with
    req := b.zipIdx.foldl (fun (m : List Host.Cell) e => tset 0 (65536 * c + off + e.2) e.1 m) s.mbx.req } }

/-- Bytes are written to a channel's response buffer, by firmware. -/
def State.rspWrite (s : State) (c off : Nat) (b : Bytes) : State :=
  let old := tgetD c [] s.mbx.rsp
  let old := old ++ List.replicate (off + b.length - old.length) 0
  { s with mbx := { s.mbx with rsp := tput c (old.take off ++ b ++ old.drop (off + b.length)) s.mbx.rsp } }

/-- A channel's request buffer at an offset of R461's layout: the channel and the place in the buffer. -/
def reqAt (off : Nat) : Option (Nat × Nat) :=
  if off / 65536 < 8 ∧ 0x1000 ≤ off % 65536 ∧ off % 65536 < 0x8000 then some (off / 65536, off % 65536 - 0x1000) else none

/-- A channel's response buffer at an offset of R461's layout. -/
def rspAt (off : Nat) : Option (Nat × Nat) :=
  if off / 65536 < 8 ∧ 0x8000 ≤ off % 65536 then some (off / 65536, off % 65536 - 0x8000) else none

/-- The registers of the internal address space. -/
def internalSpace (who : Initiator) : RegSpace :=
  { find := regAt
    taken := fun _ => false
    write := fun r i mask v s => if r = .MBX_CSR then s.mbxCsr true i mask v else s.regWrite who r i mask v
    other := fun _ _ s => s }

/-- CIC_SELF (chapter 15): the target registers of the accessing core's logical target; none for a core that is no target. -/
def State.selfAddr (s : State) (who : Initiator) (a : Nat) : Option Nat :=
  if 0x100040000 ≤ a ∧ a < 0x100040100 then
    match Initiator_core who with
    | some c =>
      let lid := s.get F.CIC_CORE_CTL.LID c
      if lid < 22 then some (a - 0x20000 + 0x100 * lid) else none
    | none => none
  else some a

/-- A write in the internal address space (R17 to R19). User mode writes no register of the PMC block (R609); SNF_SCCTL is SC's
alone (R567). An access to memory that some byte of has no block that decodes it is undecoded as a whole (DEDUCED, log entry 149). -/
def State.writeInternal (s : State) (who : Initiator) (a size : Nat) (v : BitVec 64) : State :=
  if !(s.decoded who a && (inRegBlock a || (List.range size).all fun k => s.decoded who (a + k))) then s.undecoded who
  else if !inRegBlock a then s.wrBytes a (leBytes size v.toNat)
  else if 0x101000000 ≤ a ∧ a < 0x101080000 ∧ (reqAt (a - 0x101000000)).isSome then
    match reqAt (a - 0x101000000) with
    | some (c, off) => s.reqWrite c off (leBytes size v.toNat)
    | none => s
  else if 0x101000000 ≤ a ∧ a < 0x101080000 ∧ (rspAt (a - 0x101000000)).isSome then
    match rspAt (a - 0x101000000) with
    | some (c, off) => s.rspWrite c off (leBytes size v.toNat)
    | none => s
  else
    match who, decide (0x100C00000 ≤ a ∧ a < 0x100D00000) with
    | .user i, true => s.send (.privilege i)
    | _, _ =>
      match s.selfAddr who a with
      | some b => (internalSpace who).access (blockCode b) b size v s
      | none => s

/-- An MSI-X table entry's dword is written (R35): of the vector control only the mask bit; a message that waited for its vector
goes out when the mask is cleared. -/
def State.msixWrite (s : State) (f k : Nat) (v : BitVec 32) : State :=
  let v := if k % 4 = 3 then v &&& 1 else v
  let s := { s with hif := { s.hif with msixTab := tset (msixReset k) (16384 * f + k) v s.hif.msixTab } }
  if k % 4 = 3 ∧ v = 0 ∧ s.hif.msixPend.contains (f, k / 4) then
    { s with hif := { s.hif with msixPend := s.hif.msixPend.filter fun e => e != (f, k / 4) } }.sendMsix f (k / 4)
  else s

/-- BAR0 of a function (R34): its registers, the standard doorbells of queues 0 to 1023, a virtual function's MSI-X table. -/
def bar0Space (f : Nat) (pf : Bool) : RegSpace :=
  { find := fun off => (regAtBar0 off).map fun x => (x.1, f, x.2)
    taken := fun off => decide (0x1000 ≤ off ∧ off < 0x3000) || (!pf && decide (0x3400 ≤ off ∧ off < 0x3800))
    write := fun r i mask v s => s.regWrite (.host (Fin.ofNat 66 f)) r i mask v
    other := fun off v s =>
      if 0x1000 ≤ off ∧ off < 0x3000 then
        if off % 8 = 0 then s.tailDoorbell f ((off - 0x1000) / 8) (v.toNat % 65536)
        else s.headDoorbell f ((off - 0x1000) / 8) (v.toNat % 65536)
      else if !pf ∧ 0x3400 ≤ off ∧ off < 0x3800 then s.msixWrite f ((off - 0x3400) / 4) v
      else s }

/-- BAR4 of a physical function: the MSI-X table of 2048 vectors (R35). -/
def bar4Space (f : Nat) : RegSpace :=
  { find := fun _ => none
    taken := fun off => decide (off < 0x8000)
    write := fun _ _ _ _ s => s
    other := fun off v s => if off < 0x8000 then s.msixWrite f (off / 4) v else s }

/-- The registers in BAR2 of physical function `f` (R461, R462): those of the channels it carries, and its own read-back window. -/
def State.bar2Find (s : State) (f off : Nat) : Option (RegName × Nat × Nat) :=
  if s.chanFunc (off / 65536) = some f then
    if off % 65536 < 4 then some (.MBX_CSR, off / 65536, off % 65536)
    else if 8 ≤ off % 65536 ∧ off % 65536 < 12 then some (.MBX_INT, off / 65536, off % 65536 - 8)
    else none
  else if 0x80000 ≤ off ∧ off < 0x80004 then some (.MBX_RBV, f, off - 0x80000)
  else if 0x80008 ≤ off ∧ off < 0x80010 then some (.MBX_RBS_ITEM, f, off - 0x80008)
  else if 0x80010 ≤ off ∧ off < 0x80018 then some (.MBX_RBS_OFF, f, off - 0x80010)
  else none

/-- BAR2 of a physical function; both views are read-only (R491). -/
def State.bar2Space (s : State) (f : Nat) : RegSpace :=
  { find := s.bar2Find f
    taken := fun _ => false
    write := fun r i mask v s => if r = .MBX_CSR then s.mbxCsr false i mask v else s.storeFields r i mask v
    other := fun _ _ s => s }

/-- A write in BAR2: to a request buffer, or to a register. -/
def State.writeBar2 (s : State) (f off size : Nat) (v : BitVec 64) : State :=
  match reqAt off with
  | some (c, o) => if s.chanFunc c = some f then s.reqWrite c o (leBytes size v.toNat) else s
  | none => (s.bar2Space f).access 0x14 off size v s

/-- REGISTER_WRITE (R6): a write of `size` bytes. Of a function that is not enabled, and of BARs that a function does not have, nothing
answers. -/
def execRegisterWrite (who : Initiator) (tgt : RegTarget) (size : Nat) (val : BitVec 64) (s : State) : Res := s.awake <|
  .next (match tgt with
    | .internal a => s.writeInternal who a size val
    | .bar0 f off =>
      if s.funcUp f && decide (off < 0x4000) then (bar0Space f (s.isPf f)).access 1 off size val s else s
    | .bar2 f off => if s.isPf f && decide (off < 0x100000) then s.writeBar2 f off size val else s
    | .bar4 f off => if s.isPf f && decide (off < 0x10000) then (bar4Space f).access 1 off size val s else s)

end Sys2Proof.Machine
end

