-- ==== Sys2Proof/Machine/RegRead.lean ====
section
/-! DEFINITION. Register reads with their side effects (R6, R8, R506, R608), reads of the internal address space (R17 to R19), and the
end of a porter set, whose aligned bursts of 4 or 8 bytes reach registers (R8, R515, R526). -/

namespace Sys2Proof.Machine

/-- The bits of a register that a read clears (R6). -/
def rcMask (r : RegName) : BitVec 64 :=
  (regInfo r).fields.foldl (fun m f => if f.2.2 = .rc then m ||| spanMask f.1 f.2.1 else m) 0

/-- A read of the bits `mask` of a register: what it shows, and its RC fields among them clear (R6); a read of CIC_CLAIM is a claim
(R506), one of PMC_CNT goes by the latches of R608. -/
def State.regRead (s : State) (r : RegName) (i : Nat) (mask : BitVec 64) : State × BitVec 64 :=
  match r with
  | .CIC_CLAIM =>
    match s.bestSource (s.presentedTo i) with
    | none => (s, 0)
    | some n => ((s.claimSource i n).settle, claimWord (s.claimCount n) n &&& mask)
  | .PMC_CNT =>
    let x := s.pmcRead (i / 8) (i % 8)
    (x.1, x.2.setWidth 64 &&& mask)
  | _ => (s.setReg r i (s.reg r i &&& ~~~(rcMask r &&& mask)), s.regShow r i &&& mask)

/-- A 32-bit read. -/
def State.readWord (s : State) (a : Nat) : State × BitVec 64 :=
  match regAt a with
  | some (r, i, k) =>
    let x := s.regRead r i (spanMask (8 * k + 31) (8 * k))
    (x.1, x.2 >>> (8 * k))
  | none => (s, 0)

/-- R8: a naturally aligned read of 4 or 8 bytes; any other reads as 0 and is counted where it touches a register. -/
def State.readAccess (s : State) (who : Initiator) (a size : Nat) : State × BitVec 64 :=
  if size = 4 ∧ a % 4 = 0 then s.readWord a
  else if size = 8 ∧ a % 8 = 0 then
    match regAt a with
    | some (r, i, 0) =>
      if (regInfo r).width = 64 then s.regRead r i (spanMask 63 0)
      else
        let lo := s.readWord a
        let hi := lo.1.readWord (a + 4)
        (hi.1, lo.2 ||| hi.2 <<< 32)
    | _ =>
      let lo := s.readWord a
      let hi := lo.1.readWord (a + 4)
      (hi.1, lo.2 ||| hi.2 <<< 32)
  else if (internalSpace who).holds a size then (s.accessBad (blockCode a), 0)
  else (s, 0)

/-- A read of `size` bytes of a register block (R17 to R19, R461). -/
def State.readBlock (s : State) (who : Initiator) (a size : Nat) : State × BitVec 64 :=
  match (if 0x101000000 ≤ a ∧ a < 0x101080000 then some (a - 0x101000000) else none) with
  | some off =>
    match reqAt off, rspAt off with
    | some (c, o), _ => (s, BitVec.ofNat 64 (s.reqNat c o size))
    | _, some (c, o) => (s, BitVec.ofNat 64 (leNat (((tgetD c [] s.mbx.rsp).drop o).take size)))
    | none, none => s.readAccess who a size
  | none =>
    match s.selfAddr who a with
    | some b => s.readAccess who b size
    | none => (s, 0)

/-! ### The end of a porter set (R516, R526 to R528) -/

/-- Is the burst at `a` of `k` bytes a register access of R8? -/
def regBurst (a k : Nat) : Bool := (k == 4 || k == 8) && decide (a % k = 0) && inRegBlock a

/-- Does the set move one word whose source or destination is a register? -/
def State.wordMove (s : State) (n : Nat) : Bool :=
  let k := s.get F.PTR_CNT.COUNT n
  (!s.on F.PTR_CFG.SSPACE n && regBurst (s.srcAddr n 0) k) ||
    (!s.on F.PTR_CFG.DSPACE n && s.storesBytes n && regBurst (s.dstAddr n 0) k)

/-- The word is moved: a register is read and written as by any access of R8. -/
def State.moveWord (s : State) (n : Nat) (input : Bytes) : State :=
  let k := s.get F.PTR_CNT.COUNT n
  let who : Initiator := .porter (Fin.ofNat 64 n)
  let r := if !s.on F.PTR_CFG.SSPACE n && regBurst (s.srcAddr n 0) k then
      let x := s.readBlock who (s.srcAddr n 0) k
      (x.1, leBytes k x.2.toNat)
    else if s.on F.PTR_CFG.SSPACE n then (s, s.srcBytes n k input)
    else (s.burstErrs (s.srcAddr n) k, s.srcBytes n k input)
  let d := r.2
  let s := r.1
  let s :=
    if !s.storesBytes n then s
    else if s.on F.PTR_CFG.DSPACE n then s.emitAll (s.pcieWrites n d)
    else if regBurst (s.dstAddr n 0) k then s.writeInternal who (s.dstAddr n 0) k (BitVec.ofNat 64 (leNat d))
    else (s.scatterFrom (s.dstAddr n) 0 d).burstErrs (s.dstAddr n) k
  let s := if s.get F.PTR_CFG.CLASS n = 1 then
    s.setReg .PTR_CRC n ((crcRun ((s.reg .PTR_CRC n).setWidth 32) d).setWidth 64) else s
  s.ptrStep n k

/-- R8, R522: a CRC that is one aligned word of registers: in mode 0 it is written there; in mode 1 what is read there is checked. -/
def State.crcWord (s : State) (n moved : Nat) : State × Option Bytes :=
  let who : Initiator := .porter (Fin.ofNat 64 n)
  if s.get F.PTR_CFG.CLASS n ≠ 1 ∨ moved = 0 then (s, none)
  else if s.get F.PTR_CFG.CRCMODE n = 0 ∧ !s.on F.PTR_CFG.DSPACE n ∧ regBurst (s.dstAddr n 0) 4 then
    (s.writeInternal who (s.dstAddr n 0) 4 (BitVec.ofNat 64 (s.finalCrc n).toNat), none)
  else if s.get F.PTR_CFG.CRCMODE n = 1 ∧ !s.on F.PTR_CFG.SSPACE n ∧ regBurst (s.srcAddr n 0) 4 then
    let x := s.readBlock who (s.srcAddr n 0) 4
    (x.1, some (leBytes 4 x.2.toNat))
  else (s, none)

/-- The first access of a set that fails among the `k` bytes to move and `tail` more to read: how many bytes precede it, its code, and the
state once the source has been read under the codes (R526). A page that cannot be recovered ends what lies in it (R31). -/
def State.ptrFirst (s : State) (n k tail : Nat) (fe : Option (Nat × Nat)) : State × Option (Nat × Nat) :=
  let hr := s.readSource n (k + tail)
  let s := match hr.2 with
    | some w => (hr.1.pageLost (w / 512)).flow
    | none => hr.1
  let f1 := (s.firstUndecoded n k (.porter (Fin.ofNat 64 n))).map fun j => (j, 1)
  let f4 := hr.2.map fun w => (s.firstInWord n (k + tail) w, 4)
  (s, [f1, f4, fe].foldl (fun (acc : Option (Nat × Nat)) x =>
    match acc, x with
    | none, y => y
    | some a, some b => if b.1 < a.1 then some b else some a
    | some a, none => some a) none)

/-- PORTER_PAUSE_DRAINED: what had been read is written out, and PAUSED is set (R520); an access that fails ends the set as ever (R526,
R527). -/
def execPorterPauseDrained (n : Fin 64) (moved : Nat) (e : PtrEnv) (s : State) : Res := s.awake <|
  .next (if s.on F.PTR_CTL.PAUSE n then
    if s.ptrRuns n && !s.on F.PTR_STAT.PAUSED n then
      let k := s.pausedCount n moved
      let fe := match e.err with
        | some (code, j) => if k ≤ j then none else some (j, code.val)
        | none => none
      let r := s.ptrFirst n k 0 fe
      (match r.2 with
        | some (j, code) => r.1.ptrFailAt n (min j k) code e.input
        | none => r.1.moveBytes n k e.input).put F.PTR_STAT.PAUSED n 1
    else s.put F.PTR_STAT.PAUSED n 1
  else s)

/-- The running set moves its `k` bytes and ends, or fails at the first failing access. A page that cannot be recovered ends the commands
whose contexts lie in it (R31). -/
def State.ptrRun (s : State) (n : Nat) (e : PtrEnv) : State :=
  let k := s.get F.PTR_CNT.COUNT n
  let tail := if s.get F.PTR_CFG.CLASS n = 1 ∧ s.get F.PTR_CFG.CRCMODE n = 1 then 4 else 0
  let fe := match e.err with
    | some (code, j) => if e.late || decide (k ≤ j) then none else some (j, code.val)
    | none => none
  let r := s.ptrFirst n k tail fe
  let s := r.1
  match r.2 with
  | some (j, code) => s.ptrFailAt n (min j k) code e.input
  | none =>
    let late := match e.err with
      | some (code, j) => if e.late || decide (k ≤ j) then some code.val else none
      | none => none
    let x := (if s.wordMove n then s.moveWord n e.input else s.moveBytes n k e.input).crcWord n k
    x.1.ptrFinish n e.input k late x.2

/-- PORTER_SET_END: the running set ends (R516); a channel without one, or paused and drained, is left as it is. -/
def execPorterSetEnd (n : Fin 64) (e : PtrEnv) (s : State) : Res := s.awake <|
  .next (if s.ptrRuns n && !s.on F.PTR_STAT.PAUSED n then s.ptrRun n e else s)

end Sys2Proof.Machine
end

