-- ==== Sys2Proof/Machine/Dispatch.lean ====
section
/-! DEFINITION. The meaning of every command: one arm per constructor, each one call. -/

namespace Sys2Proof.Machine

/-- The effect of a command on everything but the queue. -/
def exec (i : Instr) (s : State) : Host.Outcome State Fault Refusal :=
  match i with
  | .registerWrite who tgt size val => Sys2Proof.Machine.execRegisterWrite who tgt size val s
  | .eventLineDelivery line => Sys2Proof.Machine.execEventLineDelivery line s
  | .sqTailDoorbell f qid val => Sys2Proof.Machine.execSqTailDoorbell f qid val s
  | .cqHeadDoorbell f qid val => Sys2Proof.Machine.execCqHeadDoorbell f qid val s
  | .controllerEnable f cc => Sys2Proof.Machine.execControllerEnable f cc s
  | .controllerReset f cc => Sys2Proof.Machine.execControllerReset f cc s
  | .functionLevelReset f => Sys2Proof.Machine.execFunctionLevelReset f s
  | .nvmSubsystemReset f => Sys2Proof.Machine.execNvmSubsystemReset f s
  | .shutdownNotification f abrupt => Sys2Proof.Machine.execShutdownNotification f abrupt s
  | .commandFetch f qid cid op nsid => Sys2Proof.Machine.execCommandFetch f qid cid op nsid s
  | .createIoSubmissionQueue stamp qid size cqid prio contiguous base => Sys2Proof.Machine.execCreateIoSubmissionQueue stamp qid size cqid prio contiguous base s
  | .deleteIoSubmissionQueue stamp qid => Sys2Proof.Machine.execDeleteIoSubmissionQueue stamp qid s
  | .createIoCompletionQueue stamp qid size vector ien contiguous base0 base1 => Sys2Proof.Machine.execCreateIoCompletionQueue stamp qid size vector ien contiguous base0 base1 s
  | .deleteIoCompletionQueue stamp qid => Sys2Proof.Machine.execDeleteIoCompletionQueue stamp qid s
  | .getLogPage stamp lid off len rae => Sys2Proof.Machine.execGetLogPage stamp lid off len rae s
  | .identify stamp cns nsid => Sys2Proof.Machine.execIdentify stamp cns nsid s
  | .abort stamp sqid cid => Sys2Proof.Machine.execAbort stamp sqid cid s
  | .setFeatures stamp fid dw11 timestamp => Sys2Proof.Machine.execSetFeatures stamp fid dw11 timestamp s
  | .getFeatures stamp fid dw11 => Sys2Proof.Machine.execGetFeatures stamp fid dw11 s
  | .asynchronousEventRequest stamp => Sys2Proof.Machine.execAsynchronousEventRequest stamp s
  | .namespaceCreate stamp c => Sys2Proof.Machine.execNamespaceCreate stamp c s
  | .namespaceDelete stamp nsid => Sys2Proof.Machine.execNamespaceDelete stamp nsid s
  | .namespaceAttach stamp nsid funcs => Sys2Proof.Machine.execNamespaceAttach stamp nsid funcs s
  | .namespaceDetach stamp nsid funcs => Sys2Proof.Machine.execNamespaceDetach stamp nsid funcs s
  | .firmwareImageDownload stamp off data => Sys2Proof.Machine.execFirmwareImageDownload stamp off data s
  | .firmwareCommitReplace stamp slot => Sys2Proof.Machine.execFirmwareCommitReplace stamp slot s
  | .firmwareCommitReplaceActivate stamp slot => Sys2Proof.Machine.execFirmwareCommitReplaceActivate stamp slot s
  | .firmwareCommitActivate stamp slot => Sys2Proof.Machine.execFirmwareCommitActivate stamp slot s
  | .firmwareCommitActivateNoReset stamp slot => Sys2Proof.Machine.execFirmwareCommitActivateNoReset stamp slot s
  | .activationDrained ok => Sys2Proof.Machine.execActivationDrained ok s
  | .deviceSelfTestShort stamp nsid pass => Sys2Proof.Machine.execDeviceSelfTestShort stamp nsid pass s
  | .deviceSelfTestExtended stamp nsid pass => Sys2Proof.Machine.execDeviceSelfTestExtended stamp nsid pass s
  | .nvmeMiSend stamp opcode m => Sys2Proof.Machine.execNvmeMiSend stamp opcode m s
  | .nvmeMiReceive stamp opcode => Sys2Proof.Machine.execNvmeMiReceive stamp opcode s
  | .formatNvm stamp nsid lbaf ses prot => Sys2Proof.Machine.execFormatNvm stamp nsid lbaf ses prot s
  | .sanitizeBlockErase stamp => Sys2Proof.Machine.execSanitizeBlockErase stamp s
  | .sanitizeCryptoErase stamp => Sys2Proof.Machine.execSanitizeCryptoErase stamp s
  | .rawBaleRead stamp nsid bale len headerOnly dw12Bad fault => Sys2Proof.Machine.execRawBaleRead stamp nsid bale len headerOnly dw12Bad fault s
  | .flush stamp nsid => Sys2Proof.Machine.execFlush stamp nsid s
  | .write stamp nsid slba io blocks => Sys2Proof.Machine.execWrite stamp nsid slba io blocks s
  | .read stamp nsid span io faults => Sys2Proof.Machine.execRead stamp nsid span io faults s
  | .writeZeroes stamp nsid span io => Sys2Proof.Machine.execWriteZeroes stamp nsid span io s
  | .datasetManagement stamp nsid deallocate ranges => Sys2Proof.Machine.execDatasetManagement stamp nsid deallocate ranges s
  | .verify stamp nsid span io faults => Sys2Proof.Machine.execVerify stamp nsid span io faults s
  | .pcieCompletionTimeout stamp => Sys2Proof.Machine.execPcieCompletionTimeout stamp s
  | .poisonedCompletion stamp => Sys2Proof.Machine.execPoisonedCompletion stamp s
  | .pcieLinkDown port => Sys2Proof.Machine.execPcieLinkDown port s
  | .pcieLinkUp port => Sys2Proof.Machine.execPcieLinkUp port s
  | .numvfsChange port numVfs vfEnable => Sys2Proof.Machine.execNumvfsChange port numVfs vfEnable s
  | .capsuleReceive qpn opcode flags cid nsid body => Sys2Proof.Machine.execCapsuleReceive qpn opcode flags cid nsid body s
  | .connect qpn r => Sys2Proof.Machine.execConnect qpn r s
  | .disconnect assoc => Sys2Proof.Machine.execDisconnect assoc s
  | .keepAliveExpiry assoc => Sys2Proof.Machine.execKeepAliveExpiry assoc s
  | .rdmaReadComplete stamp => Sys2Proof.Machine.execRdmaReadComplete stamp s
  | .rdmaReadFailed stamp => Sys2Proof.Machine.execRdmaReadFailed stamp s
  | .queuePairError qpn => Sys2Proof.Machine.execQueuePairError qpn s
  | .ethernetLinkDown port => Sys2Proof.Machine.execEthernetLinkDown port s
  | .ethernetLinkUp port => Sys2Proof.Machine.execEthernetLinkUp port s
  | .cePacketReceived qpn => Sys2Proof.Machine.execCePacketReceived qpn s
  | .notificationReceived qpn => Sys2Proof.Machine.execNotificationReceived qpn s
  | .alphaPeriodExpiry qpn => Sys2Proof.Machine.execAlphaPeriodExpiry qpn s
  | .recoveryPeriodExpiry qpn => Sys2Proof.Machine.execRecoveryPeriodExpiry qpn s
  | .discoveryCommand port => Sys2Proof.Machine.execDiscoveryCommand port s
  | .mapLookup q d => Sys2Proof.Machine.execMapLookup q d s
  | .mapEntryCommit q d => Sys2Proof.Machine.execMapEntryCommit q d s
  | .mapPatchCommit q d => Sys2Proof.Machine.execMapPatchCommit q d s
  | .mapZeroSpan q d => Sys2Proof.Machine.execMapZeroSpan q d s
  | .mapConditionalCommit q d => Sys2Proof.Machine.execMapConditionalCommit q d s
  | .mapPageDrop q d => Sys2Proof.Machine.execMapPageDrop q d s
  | .mapPageWriteBack q d => Sys2Proof.Machine.execMapPageWriteBack q d s
  | .mapPageMissFilled mpn crcOk => Sys2Proof.Machine.execMapPageMissFilled mpn crcOk s
  | .journalBlockClose shutdown => Sys2Proof.Machine.execJournalBlockClose shutdown s
  | .checkpointRound durUs => Sys2Proof.Machine.execCheckpointRound durUs s
  | .codeBale r d eng mismatch => Sys2Proof.Machine.execCodeBale r d eng mismatch s
  | .decodeQuarter r d eng => Sys2Proof.Machine.execDecodeQuarter r d eng s
  | .roundOnly r d eng => Sys2Proof.Machine.execRoundOnly r d eng s
  | .codePatch r d eng mismatch => Sys2Proof.Machine.execCodePatch r d eng mismatch s
  | .decodePatch r d eng => Sys2Proof.Machine.execDecodePatch r d eng s
  | .compressionEngineDisable n => Sys2Proof.Machine.execCompressionEngineDisable n s
  | .compressionEngineEnable n => Sys2Proof.Machine.execCompressionEngineEnable n s
  | .packLinkUp n t => Sys2Proof.Machine.execPackLinkUp n t s
  | .flitAck l seq => Sys2Proof.Machine.execFlitAck l seq s
  | .flitNak l seq => Sys2Proof.Machine.execFlitNak l seq s
  | .credit l n => Sys2Proof.Machine.execCredit l n s
  | .ackTimeout l retrainOk => Sys2Proof.Machine.execAckTimeout l retrainOk s
  | .packResponse n r data => Sys2Proof.Machine.execPackResponse n r data s
  | .packAsync n h die value => Sys2Proof.Machine.execPackAsync n h die value s
  | .packResponseTimeout n => Sys2Proof.Machine.execPackResponseTimeout n s
  | .packSignalLoss n => Sys2Proof.Machine.execPackSignalLoss n s
  | .pkpRetrain n => Sys2Proof.Machine.execPkpRetrain n s
  | .bridgeHoldDrained n => Sys2Proof.Machine.execBridgeHoldDrained n s
  | .openConvoyAgeExpiry acc => Sys2Proof.Machine.execOpenConvoyAgeExpiry acc s
  | .convoyBlockForm stream => Sys2Proof.Machine.execConvoyBlockForm stream s
  | .reclaimRound durUs => Sys2Proof.Machine.execReclaimRound durUs s
  | .rebuildBlockStart => Sys2Proof.Machine.execRebuildBlockStart s
  | .refreshBlockStart => Sys2Proof.Machine.execRefreshBlockStart s
  | .accumulatePage r d items => Sys2Proof.Machine.execAccumulatePage r d items s
  | .emitPAndQ r d => Sys2Proof.Machine.execEmitPAndQ r d s
  | .reconstruct r d => Sys2Proof.Machine.execReconstruct r d s
  | .clearAccumulator r d => Sys2Proof.Machine.execClearAccumulator r d s
  | .convoyEngineDisable => Sys2Proof.Machine.execConvoyEngineDisable s
  | .codewordDecode kind cbid page pos cw stage iters => Sys2Proof.Machine.execCodewordDecode kind cbid page pos cw stage iters s
  | .scrubRound durUs => Sys2Proof.Machine.execScrubRound durUs s
  | .powerFailAssert ns => Sys2Proof.Machine.execPowerFailAssert ns s
  | .dumpEnd => Sys2Proof.Machine.execDumpEnd s
  | .powerOnReset e => Sys2Proof.Machine.execPowerOnReset e s
  | .powerReset descs blocks => Sys2Proof.Machine.execPowerReset descs blocks s
  | .stageClose => Sys2Proof.Machine.execStageClose s
  | .trailHeartbeat => Sys2Proof.Machine.execTrailHeartbeat s
  | .record entries hdr tagOk => Sys2Proof.Machine.execRecord entries hdr tagOk s
  | .recordApply => Sys2Proof.Machine.execRecordApply s
  | .stageAck stage => Sys2Proof.Machine.execStageAck stage s
  | .peerReport e => Sys2Proof.Machine.execPeerReport e s
  | .fetchReq e => Sys2Proof.Machine.execFetchReq e s
  | .fetchData e bytes => Sys2Proof.Machine.execFetchData e bytes s
  | .peerFetchTimeout e => Sys2Proof.Machine.execPeerFetchTimeout e s
  | .keyRotate => Sys2Proof.Machine.execKeyRotate s
  | .twinLinkDown lanes => Sys2Proof.Machine.execTwinLinkDown lanes s
  | .twinLinkRetrain lanes => Sys2Proof.Machine.execTwinLinkRetrain lanes s
  | .twinFlitAck seq => Sys2Proof.Machine.execTwinFlitAck seq s
  | .claimRead core ring => Sys2Proof.Machine.execClaimRead core ring s
  | .claimTimeout core ring => Sys2Proof.Machine.execClaimTimeout core ring s
  | .inputRingHeadWrite idx head => Sys2Proof.Machine.execInputRingHeadWrite idx head s
  | .digestInWrite core v => Sys2Proof.Machine.execDigestInWrite core v s
  | .stageLengthWrite us => Sys2Proof.Machine.execStageLengthWrite us s
  | .stageDigestFinal stage => Sys2Proof.Machine.execStageDigestFinal stage s
  | .lagLimitExceeded lagUs => Sys2Proof.Machine.execLagLimitExceeded lagUs s
  | .trailDoorbellUnmatched f qid val => Sys2Proof.Machine.execTrailDoorbellUnmatched f qid val s
  | .statusSend => Sys2Proof.Machine.execStatusSend s
  | .query mseq stage cause => Sys2Proof.Machine.execQuery mseq stage cause s
  | .queryFreezeTimeout => Sys2Proof.Machine.execQueryFreezeTimeout s
  | .verdict mseq loser cause stage => Sys2Proof.Machine.execVerdict mseq loser cause stage s
  | .arbHello mseq peer => Sys2Proof.Machine.execArbHello mseq peer s
  | .arbiterLost => Sys2Proof.Machine.execArbiterLost s
  | .leadContinueAlone => Sys2Proof.Machine.execLeadContinueAlone s
  | .fenceNAssert => Sys2Proof.Machine.execFenceNAssert s
  | .fenceNRelease => Sys2Proof.Machine.execFenceNRelease s
  | .pairHello h => Sys2Proof.Machine.execPairHello h s
  | .pairResult result pairId epoch dtime => Sys2Proof.Machine.execPairResult result pairId epoch dtime s
  | .rsyncData addr bytes => Sys2Proof.Machine.execRsyncData addr bytes s
  | .rsyncPassEnd dirtyPages => Sys2Proof.Machine.execRsyncPassEnd dirtyPages s
  | .rsyncCut stage snapshot => Sys2Proof.Machine.execRsyncCut stage snapshot s
  | .rsyncLive stage => Sys2Proof.Machine.execRsyncLive stage s
  | .rsyncAbort reason => Sys2Proof.Machine.execRsyncAbort reason s
  | .secXfer xseq slot gen alg material => Sys2Proof.Machine.execSecXfer xseq slot gen alg material s
  | .xtsEncrypt r d run => Sys2Proof.Machine.execXtsEncrypt r d run s
  | .xtsDecrypt r d run => Sys2Proof.Machine.execXtsDecrypt r d run s
  | .gcmEncrypt r d run => Sys2Proof.Machine.execGcmEncrypt r d run s
  | .gcmDecrypt r d run => Sys2Proof.Machine.execGcmDecrypt r d run s
  | .cipherCoreDisable n => Sys2Proof.Machine.execCipherCoreDisable n s
  | .cipherCoreEnable n katPass => Sys2Proof.Machine.execCipherCoreEnable n katPass s
  | .keySlotDrained slot => Sys2Proof.Machine.execKeySlotDrained slot s
  | .sanitizeNAssert ns => Sys2Proof.Machine.execSanitizeNAssert ns s
  | .createKey m a alg owner => Sys2Proof.Machine.execCreateKey m a alg owner s
  | .rotateKey m a nsid => Sys2Proof.Machine.execRotateKey m a nsid s
  | .unloadKey m a handle => Sys2Proof.Machine.execUnloadKey m a handle s
  | .loadKey m a handle => Sys2Proof.Machine.execLoadKey m a handle s
  | .eraseKeySlot m a handle => Sys2Proof.Machine.execEraseKeySlot m a handle s
  | .rewriteKeySlot m a handle => Sys2Proof.Machine.execRewriteKeySlot m a handle s
  | .changeOwner m a handle owner => Sys2Proof.Machine.execChangeOwner m a handle owner s
  | .enterDtsComponent m a index component => Sys2Proof.Machine.execEnterDtsComponent m a index component s
  | .exportKeyStore m a off => Sys2Proof.Machine.execExportKeyStore m a off s
  | .importKeyStore m a off total data => Sys2Proof.Machine.execImportKeyStore m a off total data s
  | .zeroize m a confirm => Sys2Proof.Machine.execZeroize m a confirm s
  | .enrolAuthenticationKey m a op role key keyid => Sys2Proof.Machine.execEnrolAuthenticationKey m a op role key keyid s
  | .clearLockout m a region => Sys2Proof.Machine.execClearLockout m a region s
  | .stagingWrite m a off data => Sys2Proof.Machine.execStagingWrite m a off data s
  | .stagingAbort m a => Sys2Proof.Machine.execStagingAbort m a s
  | .commitStaging m a => Sys2Proof.Machine.execCommitStaging m a s
  | .activateWithReset m a slot force => Sys2Proof.Machine.execActivateWithReset m a slot force s
  | .activateWithoutReset m a => Sys2Proof.Machine.execActivateWithoutReset m a s
  | .readSlotStatus m a => Sys2Proof.Machine.execReadSlotStatus m a s
  | .updatePackBridges m a portMask => Sys2Proof.Machine.execUpdatePackBridges m a portMask s
  | .countersigningKeys m a op key keyid => Sys2Proof.Machine.execCountersigningKeys m a op key keyid s
  | .raiseSvnMin m a => Sys2Proof.Machine.execRaiseSvnMin m a s
  | .restartTestMode m a => Sys2Proof.Machine.execRestartTestMode m a s
  | .migrateSettings m a => Sys2Proof.Machine.execMigrateSettings m a s
  | .mailboxGo m => Sys2Proof.Machine.execMailboxGo m s
  | .mailboxDone c => Sys2Proof.Machine.execMailboxDone c s
  | .challenge m a role => Sys2Proof.Machine.execChallenge m a role s
  | .prove m a role keyid sig => Sys2Proof.Machine.execProve m a role keyid sig s
  | .logout m a => Sys2Proof.Machine.execLogout m a s
  | .tokenLapse token => Sys2Proof.Machine.execTokenLapse token s
  | .getSetting m a id index => Sys2Proof.Machine.execGetSetting m a id index s
  | .setSetting m a id index value => Sys2Proof.Machine.execSetSetting m a id index value s
  | .defaultSetting m a id index => Sys2Proof.Machine.execDefaultSetting m a id index s
  | .listSettings m a off => Sys2Proof.Machine.execListSettings m a off s
  | .catalogue m off => Sys2Proof.Machine.execCatalogue m off s
  | .stateRead m stateId index off len => Sys2Proof.Machine.execStateRead m stateId index off len s
  | .sgen m => Sys2Proof.Machine.execSgen m s
  | .mailboxIdentify m => Sys2Proof.Machine.execMailboxIdentify m s
  | .attest m nonce => Sys2Proof.Machine.execAttest m nonce s
  | .certChain m off => Sys2Proof.Machine.execCertChain m off s
  | .rejoin m a joiner => Sys2Proof.Machine.execRejoin m a joiner s
  | .arm m a => Sys2Proof.Machine.execArm m a s
  | .swap m a => Sys2Proof.Machine.execSwap m a s
  | .fence m a target => Sys2Proof.Machine.execFence m a target s
  | .release m a target => Sys2Proof.Machine.execRelease m a target s
  | .tallyStatus m a => Sys2Proof.Machine.execTallyStatus m a s
  | .tallyRead m a index count => Sys2Proof.Machine.execTallyRead m a index count s
  | .tallyFreeze m a on => Sys2Proof.Machine.execTallyFreeze m a on s
  | .tallyClear m a => Sys2Proof.Machine.execTallyClear m a s
  | .tallyClearComplete => Sys2Proof.Machine.execTallyClearComplete s
  | .counterRead m unit => Sys2Proof.Machine.execCounterRead m unit s
  | .counterConfig m a unit k chain event thresh => Sys2Proof.Machine.execCounterConfig m a unit k chain event thresh s
  | .accessErrors m => Sys2Proof.Machine.execAccessErrors m s
  | .moduleSelftest m a errcode => Sys2Proof.Machine.execModuleSelftest m a errcode s
  | .admitPack m a port => Sys2Proof.Machine.execAdmitPack m a port s
  | .remove m a port => Sys2Proof.Machine.execRemove m a port s
  | .packRemovable n => Sys2Proof.Machine.execPackRemovable n s
  | .idRead m a port off len => Sys2Proof.Machine.execIdRead m a port off len s
  | .idReplace m a port rec => Sys2Proof.Machine.execIdReplace m a port rec s
  | .endReadonly m a => Sys2Proof.Machine.execEndReadonly m a s
  | .retrain m a port => Sys2Proof.Machine.execRetrain m a port s
  | .removeCancel m a port => Sys2Proof.Machine.execRemoveCancel m a port s
  | .cicClaim t => Sys2Proof.Machine.execCicClaim t s
  | .cicEoi t src => Sys2Proof.Machine.execCicEoi t src s
  | .cicDbRing d => Sys2Proof.Machine.execCicDbRing d s
  | .coreRun idx run => Sys2Proof.Machine.execCoreRun idx run s
  | .watchdogKick idx => Sys2Proof.Machine.execWatchdogKick idx s
  | .watchdogExpiry idx => Sys2Proof.Machine.execWatchdogExpiry idx s
  | .porterStart n => Sys2Proof.Machine.execPorterStart n s
  | .shadowWrite n reg val => Sys2Proof.Machine.execShadowWrite n reg val s
  | .porterCommit n => Sys2Proof.Machine.execPorterCommit n s
  | .shadowTake n => Sys2Proof.Machine.execShadowTake n s
  | .triggerPulse n => Sys2Proof.Machine.execTriggerPulse n s
  | .porterSetEnd n e => Sys2Proof.Machine.execPorterSetEnd n e s
  | .porterPause n on => Sys2Proof.Machine.execPorterPause n on s
  | .porterPauseDrained n moved e => Sys2Proof.Machine.execPorterPauseDrained n moved e s
  | .porterErrClear n => Sys2Proof.Machine.execPorterErrClear n s
  | .porterDisable n => Sys2Proof.Machine.execPorterDisable n s
  | .hbmRead who addr upset => Sys2Proof.Machine.execHbmRead who addr upset s
  | .hbmFillStart => Sys2Proof.Machine.execHbmFillStart s
  | .hbmFillDone noSpare => Sys2Proof.Machine.execHbmFillDone noSpare s
  | .patrolScrub page upsets => Sys2Proof.Machine.execPatrolScrub page upsets s
  | .hbmTemperaturePoll stack temp => Sys2Proof.Machine.execHbmTemperaturePoll stack temp s
  | .testWriteWord chk => Sys2Proof.Machine.execTestWriteWord chk s
  | .testReadWord => Sys2Proof.Machine.execTestReadWord s
  | .testWriteSymbol sym => Sys2Proof.Machine.execTestWriteSymbol sym s
  | .testReadSymbol sym => Sys2Proof.Machine.execTestReadSymbol sym s
  | .norRead d => Sys2Proof.Machine.execNorRead d s
  | .norProgram d => Sys2Proof.Machine.execNorProgram d s
  | .norEraseSector d => Sys2Proof.Machine.execNorEraseSector d s
  | .norEraseSpan d => Sys2Proof.Machine.execNorEraseSpan d s
  | .norOperationEnd verifyFailed => Sys2Proof.Machine.execNorOperationEnd verifyFailed s
  | .norEngineDisable => Sys2Proof.Machine.execNorEngineDisable s
  | .openRegion core region => Sys2Proof.Machine.execOpenRegion core region s
  | .closeRegion core region => Sys2Proof.Machine.execCloseRegion core region s
  | .setPassword core region => Sys2Proof.Machine.execSetPassword core region s
  | .clrlock who mask => Sys2Proof.Machine.execClrlock who mask s
  | .housekeepingRound durUs ts sup ack lines => Sys2Proof.Machine.execHousekeepingRound durUs ts sup ack lines s
  | .oscillatorTrim ppm => Sys2Proof.Machine.execOscillatorTrim ppm s
  | .domainGateIdle d => Sys2Proof.Machine.execDomainGateIdle d s
  | .drowseEntry => Sys2Proof.Machine.execDrowseEntry s
  | .wake b => Sys2Proof.Machine.execWake b s
  | .dormantEntry => Sys2Proof.Machine.execDormantEntry s
  | .sleepGroupLight g => Sys2Proof.Machine.execSleepGroupLight g s
  | .sleepGroupDeep g => Sys2Proof.Machine.execSleepGroupDeep g s
  | .thermalTrip sensor => Sys2Proof.Machine.execThermalTrip sensor s
  | .thermtripTimeout => Sys2Proof.Machine.execThermtripTimeout s
  | .tallyIntervalEnd durUs => Sys2Proof.Machine.execTallyIntervalEnd durUs s
  | .peDone => Sys2Proof.Machine.execPeDone s
  | .peDoneTimeout => Sys2Proof.Machine.execPeDoneTimeout s
  | .tallyWindowSelect val => Sys2Proof.Machine.execTallyWindowSelect val s
  | .tallyWindowRead k => Sys2Proof.Machine.execTallyWindowRead k s
  | .tallyFreezeLapse => Sys2Proof.Machine.execTallyFreezeLapse s
  | .pmcCounterRead x k => Sys2Proof.Machine.execPmcCounterRead x k s
  | .extest => Sys2Proof.Machine.execExtest s
  | .sample => Sys2Proof.Machine.execSample s
  | .preload => Sys2Proof.Machine.execPreload s
  | .dbgStatus => Sys2Proof.Machine.execDbgStatus s
  | .dbgChal => Sys2Proof.Machine.execDbgChal s
  | .dbgToken t => Sys2Proof.Machine.execDbgToken t s
  | .debugUnlock => Sys2Proof.Machine.execDebugUnlock s
  | .scanSel d => Sys2Proof.Machine.execScanSel d s
  | .scanData => Sys2Proof.Machine.execScanData s
  | .memAddr a => Sys2Proof.Machine.execMemAddr a s
  | .memData => Sys2Proof.Machine.execMemData s
  | .bypass => Sys2Proof.Machine.execBypass s
  | .freezeNAssert => Sys2Proof.Machine.execFreezeNAssert s
  | .rdmaWriteFailed qpn => Sys2Proof.Machine.execRdmaWriteFailed qpn s
  | .conventionalReset port => Sys2Proof.Machine.execConventionalReset port s
  | .flitDiscard l => Sys2Proof.Machine.execFlitDiscard l s
  | .outOfBandMiCommand m => Sys2Proof.Machine.execOutOfBandMiCommand m s
  | .ldpcEncode q codewords line => Sys2Proof.Machine.execLdpcEncode q codewords line s
  | .entropyTestFailure => Sys2Proof.Machine.execEntropyTestFailure s
  | .counterOverflow x k => Sys2Proof.Machine.execCounterOverflow x k s
  | .authenticationBlockExpiry c => Sys2Proof.Machine.execAuthenticationBlockExpiry c s
  | .dtimeMillisecondTick => Sys2Proof.Machine.execDtimeMillisecondTick s

end Sys2Proof.Machine
end

