-- ==== Sys2Proof/WellFormed.lean ====
section
/-! DEFINITION. Which commands are well formed: every operand lies within the width of the field that carries it. The
meanings are defined on every command; this says which ones a sender can form. -/

namespace Sys2Proof

/-- A number that fits a field of `k` bits. -/
def inBits (k n : Nat) : Bool := decide (n < 2 ^ k)

/-- The access sizes of R8. -/
def okSize (n : Nat) : Bool := n == 1 || n == 2 || n == 4 || n == 8

/-- A message's LENGTH fits its field (R467). -/
def Msg.wf (m : Msg) : Bool := inBits 32 m.len

/-- A map request's fields fit the descriptor (R145). -/
def MapDesc.wf (d : MapDesc) : Bool := inBits 16 d.nsidx && inBits 32 d.count && inBits 64 d.bale && inBits 8 d.blk

/-- A placed unit's fields fit the map's (R105, R113, R122). -/
def PlaceReq.wf (p : PlaceReq) : Bool := inBits 12 p.nsidx && inBits 37 p.bale && inBits 42 p.gaddr && match p.blk with
  | some b => inBits 4 b
  | none => true

/-- A compression job's fields fit the descriptor (R175). -/
def CmpDesc.wf (d : CmpDesc) : Bool := inBits 64 d.src && inBits 64 d.dst && inBits 32 d.srclen

/-- A convoy job's fields fit the descriptor (R253). -/
def CvyDesc.wf (d : CvyDesc) : Bool :=
  inBits 8 d.w && inBits 8 d.k && inBits 16 d.acc && inBits 8 d.miss0 && inBits 8 d.miss1 && inBits 64 d.src && inBits 64 d.dst

/-- A cipher job's fields fit the descriptor (R397). -/
def CphDesc.wf (d : CphDesc) : Bool :=
  inBits 16 d.slot && inBits 64 d.src && inBits 64 d.dst && inBits 32 d.len && inBits 64 d.aux && inBits 8 d.aadlen

/-- A secure-NOR descriptor's fields fit it (R555). -/
def SnfDesc.wf (d : SnfDesc) : Bool := inBits 16 d.count && inBits 32 d.nor && inBits 64 d.addr && inBits 32 d.len

/-- A pack response's fields fit its header (R185). -/
def RespHdr.wf (r : RespHdr) : Bool := inBits 16 r.die

/-- A ledger entry's header fields fit it (R324). -/
def LEntry.wf (e : LEntry) : Bool := inBits 8 e.cls && inBits 32 e.toff

/-- A command names 1 to 65,536 blocks from a 64-bit address. -/
def LbaSpan.wf (p : LbaSpan) : Bool := inBits 64 p.slba && decide (1 ≤ p.nlb ∧ p.nlb ≤ 65536)

/-- What an I/O command says of its data fits its fields: an SGL descriptor type has 4 bits. -/
def IoArgs.wf (io : IoArgs) : Bool := inBits 8 io.elsize && (io.sgl.all fun k => inBits 4 k) && (io.merge.all fun f => inBits 64 f.1) && match io.peer with
  | some p => inBits 64 p.last
  | none => true

/-- Is the command well formed? -/
def Instr.wf : Instr → Bool
  | .registerWrite _ _ size _ => okSize size
  | .eventLineDelivery _ => true
  | .sqTailDoorbell _ qid val => inBits 16 qid && inBits 32 val
  | .cqHeadDoorbell _ qid val => inBits 16 qid && inBits 32 val
  | .controllerEnable _ _ => true
  | .controllerReset _ _ => true
  | .functionLevelReset _ => true
  | .nvmSubsystemReset _ => true
  | .shutdownNotification _ _ => true
  | .commandFetch _ qid _ _ nsid => inBits 16 qid && inBits 32 nsid
  | .createIoSubmissionQueue _ qid size cqid _ _ _ => inBits 16 qid && inBits 17 size && inBits 16 cqid
  | .deleteIoSubmissionQueue _ qid => inBits 16 qid
  | .createIoCompletionQueue _ qid size vector _ _ _ _ => inBits 16 qid && inBits 17 size && inBits 16 vector
  | .deleteIoCompletionQueue _ qid => inBits 16 qid
  | .getLogPage _ _ off len _ => inBits 64 off && inBits 32 len
  | .identify _ _ nsid => inBits 32 nsid
  | .abort _ sqid _ => inBits 16 sqid
  | .setFeatures _ _ _ _ => true
  | .getFeatures _ _ _ => true
  | .asynchronousEventRequest _ => true
  | .namespaceCreate _ c => inBits 3 c.pi
  | .namespaceDelete _ nsid => inBits 32 nsid
  | .namespaceAttach _ nsid _ => inBits 32 nsid
  | .namespaceDetach _ nsid _ => inBits 32 nsid
  | .firmwareImageDownload _ off _ => inBits 64 off
  | .firmwareCommitReplace _ _ => true
  | .firmwareCommitReplaceActivate _ _ => true
  | .firmwareCommitActivate _ _ => true
  | .firmwareCommitActivateNoReset _ _ => true
  | .activationDrained _ => true
  | .deviceSelfTestShort _ nsid _ => inBits 32 nsid
  | .deviceSelfTestExtended _ nsid _ => inBits 32 nsid
  | .nvmeMiSend _ _ m => m.wf
  | .nvmeMiReceive _ _ => true
  | .formatNvm _ nsid lbaf ses prot => inBits 3 prot.pi && inBits 32 nsid && inBits 4 lbaf && inBits 3 ses
  | .sanitizeBlockErase _ => true
  | .sanitizeCryptoErase _ => true
  | .rawBaleRead _ nsid bale len _ _ _ => inBits 32 nsid && inBits 37 bale && inBits 32 len
  | .flush _ nsid => inBits 32 nsid
  | .write _ nsid slba io _ => inBits 32 nsid && inBits 64 slba && io.wf
  | .read _ nsid span io _ => io.wf && inBits 32 nsid && span.wf
  | .writeZeroes _ nsid span io => inBits 32 nsid && span.wf && io.wf
  | .datasetManagement _ nsid _ _ => inBits 32 nsid
  | .verify _ nsid span io _ => io.wf && inBits 32 nsid && span.wf
  | .pcieCompletionTimeout _ => true
  | .poisonedCompletion _ => true
  | .pcieLinkDown _ => true
  | .pcieLinkUp _ => true
  | .numvfsChange _ numVfs _ => inBits 16 numVfs
  | .capsuleReceive qpn _ _ _ _ body => inBits 24 qpn && decide (56 ≤ body.length) && inBits 32 body.length
  | .connect qpn _ => inBits 24 qpn
  | .disconnect assoc => inBits 13 assoc
  | .keepAliveExpiry assoc => inBits 13 assoc
  | .rdmaReadComplete _ => true
  | .rdmaReadFailed _ => true
  | .queuePairError qpn => inBits 24 qpn
  | .ethernetLinkDown _ => true
  | .ethernetLinkUp _ => true
  | .cePacketReceived qpn => inBits 24 qpn
  | .notificationReceived qpn => inBits 24 qpn
  | .alphaPeriodExpiry qpn => inBits 24 qpn
  | .recoveryPeriodExpiry qpn => inBits 24 qpn
  | .discoveryCommand _ => true
  | .mapLookup _ d => d.wf
  | .mapEntryCommit _ d => d.wf
  | .mapPatchCommit _ d => d.wf
  | .mapZeroSpan _ d => d.wf
  | .mapConditionalCommit _ d => d.wf
  | .mapPageDrop _ d => d.wf
  | .mapPageWriteBack _ d => d.wf
  | .mapPageMissFilled mpn _ => inBits 40 mpn
  | .journalBlockClose _ => true
  | .checkpointRound _ => true
  | .codeBale _ d _ _ => d.wf
  | .decodeQuarter _ d _ => d.wf
  | .roundOnly _ d _ => d.wf
  | .codePatch _ d _ _ => d.wf
  | .decodePatch _ d _ => d.wf
  | .compressionEngineDisable _ => true
  | .compressionEngineEnable _ => true
  | .packLinkUp _ _ => true
  | .flitAck _ _ => true
  | .flitNak _ _ => true
  | .credit _ n => inBits 16 n
  | .ackTimeout _ _ => true
  | .packResponse _ r data => r.wf && inBits 32 data.length
  | .packAsync _ h die _ => inBits 16 h.code && inBits 16 die
  | .packResponseTimeout _ => true
  | .packSignalLoss _ => true
  | .pkpRetrain _ => true
  | .bridgeHoldDrained _ => true
  | .openConvoyAgeExpiry _ => true
  | .convoyBlockForm _ => true
  | .reclaimRound _ => true
  | .rebuildBlockStart => true
  | .refreshBlockStart => true
  | .accumulatePage _ d l => d.wf && l.all PlaceReq.wf
  | .emitPAndQ _ d => d.wf
  | .reconstruct _ d => d.wf
  | .clearAccumulator _ d => d.wf
  | .convoyEngineDisable => true
  | .codewordDecode _ cbid page pos cw _ iters => inBits 22 cbid && inBits 16 page && inBits 4 pos && inBits 2 cw && inBits 8 iters
  | .scrubRound _ => true
  | .powerFailAssert _ => true
  | .dumpEnd => true
  | .powerOnReset _ => true
  | .powerReset _ _ => true
  | .stageClose => true
  | .trailHeartbeat => true
  | .record entries _ _ => entries.all LEntry.wf
  | .recordApply => true
  | .stageAck _ => true
  | .peerReport e => e.wf
  | .fetchReq e => e.wf
  | .fetchData e _ => e.wf
  | .peerFetchTimeout e => e.wf
  | .keyRotate => true
  | .twinLinkDown _ => true
  | .twinLinkRetrain _ => true
  | .twinFlitAck _ => true
  | .claimRead _ _ => true
  | .claimTimeout _ _ => true
  | .inputRingHeadWrite _ _ => true
  | .digestInWrite _ _ => true
  | .stageLengthWrite _ => true
  | .stageDigestFinal _ => true
  | .lagLimitExceeded _ => true
  | .trailDoorbellUnmatched _ qid val => inBits 16 qid && inBits 32 val
  | .statusSend => true
  | .query _ _ cause => inBits 8 cause
  | .queryFreezeTimeout => true
  | .verdict _ _ cause _ => inBits 8 cause
  | .arbHello _ peer => inBits 8 peer
  | .arbiterLost => true
  | .leadContinueAlone => true
  | .fenceNAssert => true
  | .fenceNRelease => true
  | .pairHello _ => true
  | .pairResult result _ _ _ => inBits 32 result
  | .rsyncData addr _ => inBits 40 addr
  | .rsyncPassEnd _ => true
  | .rsyncCut _ _ => true
  | .rsyncLive _ => true
  | .rsyncAbort _ => true
  | .secXfer _ _ _ alg _ => inBits 8 alg
  | .xtsEncrypt _ d _ => d.wf
  | .xtsDecrypt _ d _ => d.wf
  | .gcmEncrypt _ d _ => d.wf
  | .gcmDecrypt _ d _ => d.wf
  | .cipherCoreDisable _ => true
  | .cipherCoreEnable _ _ => true
  | .keySlotDrained _ => true
  | .sanitizeNAssert _ => true
  | .createKey m _ alg _ => m.wf && inBits 8 alg
  | .rotateKey m _ nsid => m.wf && inBits 32 nsid
  | .unloadKey m _ _ => m.wf
  | .loadKey m _ _ => m.wf
  | .eraseKeySlot m _ _ => m.wf
  | .rewriteKeySlot m _ _ => m.wf
  | .changeOwner m _ _ _ => m.wf
  | .enterDtsComponent m _ index _ => m.wf && inBits 32 index
  | .exportKeyStore m _ off => m.wf && inBits 64 off
  | .importKeyStore m _ off total _ => m.wf && inBits 64 off && inBits 64 total
  | .zeroize m _ _ => m.wf
  | .enrolAuthenticationKey m _ op role _ _ => m.wf && inBits 8 op && inBits 8 role
  | .clearLockout m _ region => m.wf && inBits 8 region
  | .stagingWrite m _ off _ => m.wf && inBits 64 off
  | .stagingAbort m _ => m.wf
  | .commitStaging m _ => m.wf
  | .activateWithReset m _ slot _ => m.wf && inBits 8 slot
  | .activateWithoutReset m _ => m.wf
  | .readSlotStatus m _ => m.wf
  | .updatePackBridges m _ _ => m.wf
  | .countersigningKeys m _ op _ _ => m.wf && inBits 8 op
  | .raiseSvnMin m _ => m.wf
  | .restartTestMode m _ => m.wf
  | .migrateSettings m _ => m.wf
  | .mailboxGo m => m.wf
  | .mailboxDone _ => true
  | .challenge m _ role => m.wf && inBits 8 role
  | .prove m _ role _ _ => m.wf && inBits 8 role
  | .logout m _ => m.wf
  | .tokenLapse _ => true
  | .getSetting m _ id index => m.wf && inBits 16 id && inBits 32 index
  | .setSetting m _ id index _ => m.wf && inBits 16 id && inBits 32 index
  | .defaultSetting m _ id index => m.wf && inBits 16 id && inBits 32 index
  | .listSettings m _ off => m.wf && inBits 64 off
  | .catalogue m off => m.wf && inBits 64 off
  | .stateRead m _ index off len => m.wf && inBits 32 index && inBits 64 off && inBits 32 len
  | .sgen m => m.wf
  | .mailboxIdentify m => m.wf
  | .attest m _ => m.wf
  | .certChain m off => m.wf && inBits 64 off
  | .rejoin m _ joiner => m.wf && inBits 8 joiner
  | .arm m _ => m.wf
  | .swap m _ => m.wf
  | .fence m _ target => m.wf && inBits 8 target
  | .release m _ target => m.wf && inBits 8 target
  | .tallyStatus m _ => m.wf
  | .tallyRead m _ index count => m.wf && inBits 32 index && inBits 8 count
  | .tallyFreeze m _ _ => m.wf
  | .tallyClear m _ => m.wf
  | .tallyClearComplete => true
  | .counterRead m unit => m.wf && inBits 16 unit
  | .counterConfig m _ unit _ _ _ _ => m.wf && inBits 16 unit
  | .accessErrors m => m.wf
  | .moduleSelftest m _ errcode => m.wf && inBits 8 errcode
  | .admitPack m _ port => m.wf && inBits 8 port
  | .remove m _ port => m.wf && inBits 8 port
  | .packRemovable _ => true
  | .idRead m _ port off len => m.wf && inBits 8 port && inBits 64 off && inBits 32 len
  | .idReplace m _ port rec => m.wf && inBits 8 port && decide (rec.length = 4096)
  | .endReadonly m _ => m.wf
  | .retrain m _ port => m.wf && inBits 8 port
  | .removeCancel m _ port => m.wf && inBits 8 port
  | .cicClaim _ => true
  | .cicEoi _ _ => true
  | .cicDbRing _ => true
  | .coreRun _ _ => true
  | .watchdogKick _ => true
  | .watchdogExpiry _ => true
  | .porterStart _ => true
  | .shadowWrite _ _ _ => true
  | .porterCommit _ => true
  | .shadowTake _ => true
  | .triggerPulse _ => true
  | .porterSetEnd _ _ => true
  | .porterPause _ _ => true
  | .porterPauseDrained _ _ _ => true
  | .porterErrClear _ => true
  | .porterDisable _ => true
  | .hbmRead _ addr _ => inBits 40 addr
  | .hbmFillStart => true
  | .hbmFillDone _ => true
  | .patrolScrub page _ => inBits 28 page
  | .hbmTemperaturePoll _ _ => true
  | .testWriteWord _ => true
  | .testReadWord => true
  | .testWriteSymbol _ => true
  | .testReadSymbol _ => true
  | .norRead d => d.wf
  | .norProgram d => d.wf
  | .norEraseSector d => d.wf
  | .norEraseSpan d => d.wf
  | .norOperationEnd _ => true
  | .norEngineDisable => true
  | .openRegion _ _ => true
  | .closeRegion _ _ => true
  | .setPassword _ _ => true
  | .clrlock _ _ => true
  | .housekeepingRound _ ts sup _ _ => decide (ts.length = 16) && decide (sup.length = 8)
  | .oscillatorTrim _ => true
  | .domainGateIdle _ => true
  | .drowseEntry => true
  | .wake _ => true
  | .dormantEntry => true
  | .sleepGroupLight _ => true
  | .sleepGroupDeep _ => true
  | .thermalTrip _ => true
  | .thermtripTimeout => true
  | .tallyIntervalEnd _ => true
  | .peDone => true
  | .peDoneTimeout => true
  | .tallyWindowSelect _ => true
  | .tallyWindowRead _ => true
  | .tallyFreezeLapse => true
  | .pmcCounterRead _ _ => true
  | .extest => true
  | .sample => true
  | .preload => true
  | .dbgStatus => true
  | .dbgChal => true
  | .dbgToken _ => true
  | .debugUnlock => true
  | .scanSel _ => true
  | .scanData => true
  | .memAddr _ => true
  | .memData => true
  | .bypass => true
  | .freezeNAssert => true
  | .rdmaWriteFailed qpn => inBits 24 qpn
  | .conventionalReset _ => true
  | .flitDiscard _ => true
  | .outOfBandMiCommand m => m.wf
  | .ldpcEncode _ codewords _ => inBits 16 codewords
  | .entropyTestFailure => true
  | .counterOverflow _ _ => true
  | .authenticationBlockExpiry _ => true
  | .dtimeMillisecondTick => true

end Sys2Proof
end

