-- ==== Sys2Proof/Safety.lean ====
section
/-! DEFINITION. What a good state is, and what a command leaves alone, in the terms that claims use. -/

namespace Sys2Proof.Machine

/-- The register file in canonical form: keys rising, and no register listed that holds its reset value. -/
def regsOk (t : Tbl (BitVec 64)) : Bool := tsorted t && t.all fun e => e.2 != regReset (RegName.ofNat (e.1 % 256)) (keyInst e.1)

/-- Internal memory, secure NOR and the register file are in canonical form. -/
abbrev State.Ok (s : State) : Prop :=
  Memory.wf memDefault s.mem = true ∧ Memory.wf norDefault s.snor = true ∧ regsOk s.regs = true

/-- The controller runs: it is not held in reset (R286) and not frozen (R614). -/
abbrev State.Runs (s : State) : Prop := s.inReset = false ∧ s.on F.PMC_DBG_STAT.FROZEN = false

/-- Every command that waits is well-formed. -/
abbrev State.QueueOk (s : State) : Prop := ∀ c ∈ s.pending, Instr.wf c = true

/-- The regions of the state beside the register file and the queue of commands. -/
inductive Region where
  /-- SRAM windows and HBM. -/
  | mem
  /-- Secure NOR. -/
  | snor
  /-- The straps. -/
  | straps
  /-- DTIME. -/
  | dtime
  /-- The epoch. -/
  | epoch
  /-- Elapsed time. -/
  | elapsed
  /-- Access errors. -/
  | accErr
  /-- Undecoded accesses of the debug port. -/
  | debugErrs
  /-- The number of the next free value. -/
  | freeNo
  /-- Held in reset. -/
  | inReset
  /-- Event lines and cursors. -/
  | evt
  /-- The interrupt controller beside its registers. -/
  | cic
  /-- Check bits and tests of HBM. -/
  | hbm
  /-- The secure NOR engine. -/
  | nor
  /-- Housekeeping. -/
  | hkp
  /-- Telemetry. -/
  | tly
  /-- The packs and their links. -/
  | packs
  /-- Functions, queues, contexts, namespaces. -/
  | hif
  /-- The twin link, the ledger and the stages. -/
  | twn
  /-- The map, its cache and the journal. -/
  | map
  /-- Convoys, placement and the system log. -/
  | conv
  /-- Health and readiness. -/
  | health
  /-- Power, dumps and starting. -/
  | pow
  /-- Stored settings. -/
  | setv
  /-- The settings generation. -/
  | sgen
  /-- Associations and queue pairs. -/
  | fab
  /-- Firmware slots and updates. -/
  | fw
  /-- Mailbox channels. -/
  | mbx
  /-- Keys and the cipher's bookkeeping. -/
  | keys
  /-- Arbitration, pairing and rejoin. -/
  | arb
  /-- What was sent. -/
  | out
deriving DecidableEq, Repr

/-- The region is the same in both states. -/
def Region.same (p : Region) (s t : State) : Prop :=
  match p with
  | .mem => t.mem = s.mem
  | .snor => t.snor = s.snor
  | .straps => t.straps = s.straps
  | .dtime => t.dtime = s.dtime
  | .epoch => t.epoch = s.epoch
  | .elapsed => t.elapsed = s.elapsed
  | .accErr => t.accErr = s.accErr
  | .debugErrs => t.debugErrs = s.debugErrs
  | .freeNo => t.freeNo = s.freeNo
  | .inReset => t.inReset = s.inReset
  | .evt => t.evt = s.evt
  | .cic => t.cic = s.cic
  | .hbm => t.hbm = s.hbm
  | .nor => t.nor = s.nor
  | .hkp => t.hkp = s.hkp
  | .tly => t.tly = s.tly
  | .packs => t.packs = s.packs
  | .hif => t.hif = s.hif
  | .twn => t.twn = s.twn
  | .map => t.map = s.map
  | .conv => t.conv = s.conv
  | .health => t.health = s.health
  | .pow => t.pow = s.pow
  | .setv => t.setv = s.setv
  | .sgen => t.sgen = s.sgen
  | .fab => t.fab = s.fab
  | .fw => t.fw = s.fw
  | .mbx => t.mbx = s.mbx
  | .keys => t.keys = s.keys
  | .arb => t.arb = s.arb
  | .out => t.out = s.out

/-! ### The terms of the statements -/

/-- The command completes: it answers a next state, of which `P` holds. -/
def Gives (c : Instr) (s : State) (P : State → Prop) : Prop := ∃ t, exec c s = .next t ∧ P t

/-- A request passes the checks of R469, R421, R422, R424 and R473. -/
abbrev State.Admits (s : State) (op len : Nat) (m : Msg) : Prop :=
  s.hif.activating = none ∧ m.replay = false ∧ m.len = len ∧ 16 ≤ len ∧ len ≤ 28672 ∧
    (op / 256 = 0 ∨ m.token = 0 ∨ (s.tokenOf m).isSome = true) ∧ roleOf op ≤ ((s.tokenOf m).elim 0 Token.role) ∧ s.stateCheck op = 0

/-- What was answered last on the channel of a message: a status code and a body (R467, R472). -/
abbrev State.Answered (t : State) (m : Msg) (op code : Nat) (body : Bytes) : Prop :=
  ∃ r, tget m.chan t.mbx.last = some r ∧ r.tag = m.tag ∧ r.opcode = BitVec.ofNat 16 op ∧ r.code = code ∧ r.body = body

/-- The commands that act on a controller in reset or frozen as well: power, trips, the tick and the pins of the debug port. -/
def actsAlways : Instr → Bool
  | .powerOnReset _ | .powerReset _ _ | .freezeNAssert | .thermalTrip _ | .thermtripTimeout | .dtimeMillisecondTick | .oscillatorTrim _ => true
  | .extest | .sample | .preload | .bypass | .dbgStatus | .dbgChal | .dbgToken _ | .scanSel _ | .scanData | .memAddr _ | .memData => true
  | _ => false

/-- No word of HBM carries an error (R534). -/
abbrev State.NoUpset (s : State) : Prop := s.hbm.err = []

/-- The convoy engine takes a job of ring `r`: its clock runs, the engine and the ring are enabled (R254), and HBM holds no error. -/
abbrev State.CvyTakes (s : State) (r : Nat) : Prop :=
  s.Runs ∧ s.NoUpset ∧ s.domHeld 110 = false ∧ s.pow.dumping = false ∧ s.get F.CVY_CTL.EN = 1 ∧ s.get F.CVY_RING_CFG.EN r = 1

/-- The four bytes of STATUS in the descriptor that ring `r` takes next. -/
def State.inCvyStatus (s : State) (r a : Nat) : Bool := decide (s.cvySlot r + 0x18 ≤ a ∧ a < s.cvySlot r + 0x1C)

/-- The open convoy blocks of a stream (R232). -/
def State.cbCount (s : State) (stream : Nat) : Nat := (s.conv.cbt.filter fun e => e.2.state == 1 && e.2.kind == stream).length

/-- The command completes, and its last part is `g`: of the state that `g` starts from, `P` holds. -/
def GivesThen (g : State → State) (c : Instr) (s : State) (P : State → Prop) : Prop := ∃ t, exec c s = .next (g t) ∧ P t

/-- An input is captured at once: the controller follows no peer, capture is not held, and the record and the input rings have
room (R326). -/
def State.Open (s : State) : Prop :=
  s.isTrail = false ∧ s.twn.heldIn = [] ∧ ∀ e : LEntry, e.len ≤ 256 → s.hasRoom e = true

/-- No transmitter idles (R362, R364). -/
abbrev State.Sends (s : State) : Prop := s.arb.fenceLow = false ∧ s.arb.outcast = false

/-- The compression engine `n` takes a job of ring `r` (R172): it is in service, no job of the ring waits, and HBM holds no error. -/
abbrev State.CmpTakes (s : State) (r n : Nat) : Prop :=
  s.Runs ∧ s.NoUpset ∧ s.domHeld (63 + n) = false ∧ s.get F.CMP_CTL.EN = 1 ∧ s.get F.CMP_RING_CFG.EN r = 1 ∧
    s.get F.CMP_ENG_CTL.EN n = 1 ∧ (s.cmpWait.any fun x => x.ring == r) = false

/-- A job can be posted to cipher ring `r` for the cores of `run`: the ring is enabled, and the clocks of both run (R397, R572). -/
abbrev State.CphPosts (s : State) (r : Nat) (run : CphRun) : Prop :=
  s.Runs ∧ s.domHeld (89 + run.producer) = false ∧ s.domHeld (89 + run.checker) = false ∧ s.get F.CPH_RING_CFG.EN r = 1

/-- The cores that a job of ring `r` gets at once: none where it waits, behind another job of the ring or by itself (R395, R416, R424). -/
def State.cphGets (s : State) (r : Nat) (d : CphDesc) (run : CphRun) : Option CphRun :=
  if s.keys.waitJobs.any fun w => w.ring == r then none else s.cphStart d run

/-- The bytes that a non-secret draw gives: the generator's, or on a trail the lead's that have come (R338). -/
def State.leadBytes (s : State) (len : Nat) : Option Bytes :=
  if s.isTrail then s.twn.leadVals.head? else some (freeRun s.freeNo len)

/-- Does PROVE prove the role: the channel holds a challenge for it, and the enrolled key signed it (R422, R474)? -/
def State.proves (s : State) (m : Msg) (role : Nat) (keyid : BitVec 384) (sig : BitVec 768) : Bool :=
  match tget m.chan.val s.mbx.chal, s.keys.auth.find? fun k => k.role == role && k.keyid == keyid with
  | some c, some k => c.1 == role && sigOk k.key sig (proveMsg c.2 role)
  | _, _ => false

/-- The controller runs, and the command of a fetch stamp has been fetched and waits for its own row to act (R42). -/
abbrev State.Fetched (s : State) (stamp : BitVec 64) (c : Ctx) : Prop := s.Runs ∧ s.ctx stamp = some c ∧ c.wait = .dispatch

/-- No command of a tenant is left. -/
abbrev State.NoCtx (s : State) (t : Tenant) : Prop := ∀ x ∈ s.hif.ctxs, x.tenant ≠ t

/-- Is it queue `qid` of function `f` that gives the next command (R44)? -/
def State.queueTurn (s : State) (f qid : Nat) : Bool :=
  s.nextTurn == some f && (s.func f).nextQueue (s.wrrOn f) == some qid

/-- Can function `f`'s queue give its head entry to the fetcher now (R42, R44, R293)? -/
def State.mayFetch (s : State) (f qid : Nat) (opcode : BitVec 8) : Bool :=
  s.queueTurn f qid && !(qid != 0 && s.writesHeld opcode)

/-- No Flush and no shutdown waits (R50, R59). -/
abbrev State.NoDrain (s : State) : Prop := s.hif.shutdown = [] ∧ ∀ c ∈ s.hif.ctxs, ∀ t n, c.wait ≠ .flush t n

/-- A byte as an engine reads it (R18, R19). -/
def State.engByte (s : State) (a : Nat) : Byte := if s.engineSees a then s.seenByte a else 0

/-- What acknowledges `k` flits accepted on a link (R181, R183): after every 64, and at the end, an ACK and the credits. -/
def State.ackFlits (s : State) (l : Link) (k : Nat) : List Out :=
  (List.range ((k + 63) / 64)).flatMap fun j =>
    let n := min 64 (k - 64 * j)
    let seq := (s.lnk l).rx + BitVec.ofNat 32 (64 * j) + BitVec.ofNat 32 n - 1
    [.flit l { seq := seq, typ := 0x10, port := s.portByte l, len := 0 }, .flit l { seq := seq, typ := 0x12, port := s.portByte l, len := n }]

/-- A write of `n` blocks is charged for them, and its nonces are reserved (R135, R406). -/
def State.charged (s : State) (ns : Ns) (nsid : Nat) (t : BitVec 64) (slba n : Nat) : State :=
  let ch := chargesOf ns nsid t slba n
  let u := s.put F.MAP_CAP_CHARGED.C 0 (s.capC + chargeSum ch)
  { u with map := { u.map with charges := u.map.charges ++ ch } }.rsvAdd ns (s.nonceNeed ns slba n) 0

end Sys2Proof.Machine
end

