-- ==== Sys2Proof/Certificates/Slice0/Obligations.lean ====
section
/-! DEFINITION. The statements about the block. Each says, for the commands it names, what their next state holds. -/

open Sys2Proof Sys2Proof.Machine

/-- A step runs the command at the front of the queue on the state with the rest of the queue. -/
def Obligations.StepRunsFront : Prop :=
  ∀ (c : Instr) (rest : List Instr) (s : State), step { s with pending := c :: rest } = exec c { s with pending := rest }

/-- The model's choice (log entry 1): with no command waiting a step changes nothing. -/
def Obligations.IdleStep : Prop := ∀ s : State, s.pending = [] → step s = .next s

/-- What reset leaves: canonical memories and registers, every register at its reset value, and no command waiting. -/
def Obligations.ResetState : Prop :=
  State.reset.Ok ∧ State.reset.QueueOk ∧ State.reset.pending = [] ∧ State.reset.Runs ∧ State.reset.out = [] ∧
    ∀ r i, State.reset.reg r i = regReset r i

/-- Every step keeps internal memory, secure NOR and the register file in canonical form. -/
def Obligations.StepKeepsForm : Prop := ∀ s t : State, s.Ok → step s = .next t → t.Ok

/-- Every step of a controller whose waiting commands are well formed leaves it so, and takes at most one of them: the first. -/
def Obligations.StepTakesFront : Prop :=
  ∀ s : State, ∃ t, step s = .next t ∧ t.pending = s.pending.drop 1 ∧ (s.QueueOk → t.QueueOk)

/-- No command faults or is refused, and none changes the queue of those that wait. -/
def Obligations.EveryCommandAnswers : Prop := ∀ (c : Instr) (s : State), ∃ t, exec c s = .next t ∧ t.pending = s.pending

/-- R286 and R614: a controller that holds itself in reset, or is frozen, takes no command but those of power, the tick and the
debug port's pins (log entry 96). -/
def Obligations.StoppedController : Prop :=
  ∀ (c : Instr) (s : State), actsAlways c = false → ¬ s.Runs → exec c s = .next s

/-- R624: only the rising edge of POR_N samples the straps; no other command changes them. -/
def Obligations.StrapsSampledAtPowerOn : Prop :=
  (∀ (c : Instr) (s t : State), (∀ p, c ≠ .powerOnReset p) → exec c s = .next t → t.straps = s.straps) ∧
    ∀ (e : BootEnv) (s : State), Gives (.powerOnReset e) s fun t =>
      t.straps = { twinId := e.twinId, linkMode := e.linkMode, recovN := e.recovN, testEn := e.testEn }

/-- What the controller has sent stays sent: a command only adds to it (log entry 100). -/
def Obligations.SentOnlyGrows : Prop := ∀ (c : Instr) (s t : State), exec c s = .next t → s.out <+: t.out

/-- Time passes only with the millisecond tick; power-on starts it anew. -/
def Obligations.TimeOnlyByTick : Prop :=
  ∀ (c : Instr) (s t : State), (∀ p, c ≠ .powerOnReset p) → c ≠ .dtimeMillisecondTick → exec c s = .next t → t.elapsed = s.elapsed

/-- R509: an end of interrupt for a source in service on its target ends the service: the source's entry leaves the stack
wherever it stands, the running priority is that of the top of the rest, and a source that still has something to deliver and an
eligible target is presented again. -/
def Obligations.EndOfService : Prop :=
  ∀ (s : State) (t : Fin 22) (n : Fin 512), s.Runs → s.srcInService t n = true → Gives (.cicEoi t n) s fun u =>
    u.get F.CIC_SRC_STAT.INSVC n = 0 ∧ tgetD t.val [] u.cic.stk = (tgetD t.val [] s.cic.stk).filter (fun e => e.2 != n.val) ∧
      u.runPrio t = ((tgetD t.val [] s.cic.stk).filter fun e => e.2 != n.val).head?.elim 0 Prod.fst ∧
      ((∃ k, k < 22 ∧ u.eligible n k = true) → u.get F.CIC_SRC_STAT.PRES n = 1)

/-- R510: an end of interrupt that names a source not in service on that target is counted and recorded in CIC_STRAY_EOI and is
otherwise ignored; one for a source in service on another target is such an EOI. -/
def Obligations.StrayEndOfInterrupt : Prop :=
  ∀ (s : State) (t : Fin 22) (n : Fin 512), s.Runs →
    (∀ k, s.srcInService k n = true → k ≠ t.val → s.srcInService t n = false) ∧
    (s.srcInService t n = false → ∃ r, exec (.cicEoi t n) s = .next { s with regs := r } ∧
      let u := { s with regs := r }
      u.get F.CIC_STRAY_EOI.COUNT = min 65535 (s.get F.CIC_STRAY_EOI.COUNT + 1) ∧ u.get F.CIC_STRAY_EOI.SRC = n.val ∧
        u.get F.CIC_STRAY_EOI.TGT = t.val ∧ ∀ q i, (q, i) ≠ (.CIC_STRAY_EOI, 0) → u.reg q i = s.reg q i)

/-- R507: no command leaves a source both in service and presented to a target; and the pulses of a doorbell in service still
count. -/
def Obligations.InServiceNotPresented : Prop :=
  (∀ s t : State, (∀ n, s.get F.CIC_SRC_STAT.INSVC n = 1 → s.get F.CIC_SRC_STAT.PRES n = 0) → step s = .next t →
    ∀ n, t.get F.CIC_SRC_STAT.INSVC n = 1 → t.get F.CIC_SRC_STAT.PRES n = 0) ∧
  ∀ (s : State) (d : Fin 32), s.Runs → s.get F.CIC_SRC_CFG.MODE (300 + d.val) = 0 → s.get F.CIC_SRC_STAT.INSVC (300 + d.val) = 1 →
    s.get F.CIC_SRC_STAT.COUNT (300 + d.val) < 255 → Gives (.cicDbRing d) s fun u =>
      u.get F.CIC_SRC_STAT.COUNT (300 + d.val) = s.get F.CIC_SRC_STAT.COUNT (300 + d.val) + 1 ∧
        u.get F.CIC_SRC_STAT.PRES (300 + d.val) = s.get F.CIC_SRC_STAT.PRES (300 + d.val)

/-- R55: of five outstanding Aborts, the fifth completes with Abort Command Limit Exceeded. -/
def Obligations.FifthAbort : Prop :=
  ∀ (s : State) (t : BitVec 64) (c : Ctx) (q : Nat) (i : BitVec 16), s.Fetched t c →
    4 ≤ (s.hif.ctxs.filter fun x => x.tenant == c.tenant && x.admin && x.opcode == 0x08 && decide (x.stamp.toNat < c.stamp.toNat)).length →
    exec (.abort t q i) s = .next (s.fail c 1 3)

/-- R617: only a power-on reset leaves the freeze. -/
def Obligations.FrozenUntilPowerOn : Prop :=
  ∀ (c : Instr) (s t : State), (∀ e, c ≠ .powerOnReset e) → s.get F.PMC_DBG_STAT.FROZEN = 1 →
    exec c s = .next t → t.get F.PMC_DBG_STAT.FROZEN = 1

/-- Chapter 15: what the commands of the interrupt controller and of the control cores do. -/
def Obligations.CicCommands : Prop :=
  ∀ s : State, s.Runs →
    (∀ (t : Fin 22) (n : Nat), s.bestSource (s.presentedTo t) = some n → Gives (.cicClaim t) s fun u =>
      u.get F.CIC_SRC_STAT.INSVC n = 1 ∧ u.get F.CIC_SRC_STAT.TGT n = t ∧ u.runPrio t = s.get F.CIC_SRC_CFG.PRIO n ∧
        u.out = s.out ++ [.value (claimWord (s.claimCount n) n)]) ∧
    (∀ t : Fin 22, s.bestSource (s.presentedTo t) = none → exec (.cicClaim t) s = .next { s with out := s.out ++ [.value 0] }) ∧
    (∀ (t : Fin 22) (n : Fin 512), s.srcInService t n = true → Gives (.cicEoi t n) s fun u =>
      u.get F.CIC_SRC_STAT.INSVC n = 0 ∧ tgetD t.val [] u.cic.stk = (tgetD t.val [] s.cic.stk).filter fun e => e.2 != n.val) ∧
    (∀ (t : Fin 22) (n : Fin 512), s.srcInService t n = false → Gives (.cicEoi t n) s fun u =>
      u.get F.CIC_STRAY_EOI.COUNT = min 65535 (s.get F.CIC_STRAY_EOI.COUNT + 1) ∧ u.get F.CIC_STRAY_EOI.SRC = n ∧
        u.get F.CIC_STRAY_EOI.TGT = t ∧ u.cic = s.cic) ∧
    (∀ d : Fin 32, s.get F.CIC_SRC_CFG.MODE (300 + d.val) = 0 → s.get F.CIC_SRC_STAT.COUNT (300 + d.val) < 255 →
      Gives (.cicDbRing d) s fun u => u.get F.CIC_SRC_STAT.COUNT (300 + d.val) = s.get F.CIC_SRC_STAT.COUNT (300 + d.val) + 1) ∧
    (∀ i : Fin 24, i.val < 22 → s.get F.CIC_CORE_CTL.LID i ≠ 31 → s.lidTaken i = false → Gives (.coreRun i true) s fun u =>
      u.get F.CIC_CORE_CTL.RUN i = 1 ∧ u.get F.CIC_CORE_STAT.RUNNING i = 1) ∧
    (∀ i : Fin 24, i.val < 22 → Gives (.coreRun i false) s fun u =>
      u.get F.CIC_CORE_CTL.RUN i = 0 ∧ u.get F.CIC_CORE_STAT.RUNNING i = 0) ∧
    (∀ i : Fin 24, Gives (.watchdogKick i) s fun u => tget i.val u.cic.kicked = some s.elapsed) ∧
    (∀ i : Fin 24, s.get F.CIC_WDT.EN i = 1 → Gives (.watchdogExpiry i) s fun u =>
      u.get F.CIC_CORE_STAT.FAULT i = 1 ∧ u.get F.CIC_WDT.EN i = 0)

/-- Chapter 17: the fill, the refresh bands, reads, the patrol and the check-bit test mode. -/
def Obligations.HbmCommands : Prop :=
  ∀ s : State, s.Runs →
    (s.hbm.fillBusy = false → Gives .hbmFillStart s fun u =>
      u.get F.HBC_INIT.DONE = 0 ∧ u.get F.HBC_INIT.PROG = 0 ∧ u.hbm.fillBusy = true) ∧
    (∀ l, s.hbm.fillBusy = true → Gives (.hbmFillDone l) s fun u =>
      (∀ a, u.rdByte a = if inHbm a then 0 else s.rdByte a) ∧ (∀ w, u.errOf w = 0) ∧ u.hbm.fillBusy = false ∧
        u.get F.HBC_INIT.DONE = 1 ∧ u.get F.HBC_INIT.PROG = 100) ∧
    (∀ (k : Fin 2) (t : Int), Gives (.hbmTemperaturePoll k t) s fun u =>
      tget k.val u.hbm.stackTemp = some t ∧ hbmBand (u.stackHot k) ≤ u.get (bandFld k)) ∧
    (∀ (who : Initiator) (a : Nat) (upset : BitVec 72), inHbm a = true → s.decoded who a = true → s.errOf (a / 8) = upset →
      Gives (.hbmRead who a upset) s fun u => s.out ++ [.value (s.wordAt (a / 8))] <+: u.out) ∧
    (∀ (page : Nat) l, s.get F.HBC_INIT.DONE = 1 → s.get F.HBC_CTL.PATROL_H ≠ 0 → 0x1000000 ≤ page → page < 0x27A0000 →
      Gives (.patrolScrub page l) s fun u => u.get F.HBC_STAT.PATROL = if page = 0x279FFFF then 0 else 1) ∧
    (s.get F.HBC_TEST_CTL.EN = 1 → s.get F.HBC_CTL.TLOCK = 0 → inHbm (8 * s.testWord) = true →
      (∀ chk, Gives (.testWriteWord chk) s fun u => u.get F.HBC_TEST_CTL.DONE = 1 ∧ u.mem = s.mem ∧
        s.wordAt s.testWord ^^^ (u.errOf s.testWord).setWidth 64 = s.reg .HBC_TEST_DATA 0 ∧
          Config.checkBits (s.wordAt s.testWord) ^^^ (u.errOf s.testWord >>> 64).setWidth 8 = chk) ∧
      Gives .testReadWord s (fun u => u.get F.HBC_TEST_CTL.DONE = 1 ∧
        u.reg .HBC_TEST_DATA 0 = s.wordAt s.testWord ^^^ (s.errOf s.testWord).setWidth 64) ∧
      (∀ k : Fin 32, Gives (.testWriteSymbol k) s fun u => u.get F.HBC_TEST_CTL.DONE = 1 ∧
        s.rightSym (s.testWord / 512) k ^^^ tgetD (32 * (s.testWord / 512) + k) 0 u.hbm.symErr = (s.reg .HBC_TEST_DATA 0).setWidth 16) ∧
      ∀ k : Fin 32, Gives (.testReadSymbol k) s fun u => u.get F.HBC_TEST_CTL.DONE = 1 ∧
        (u.reg .HBC_TEST_DATA 0).setWidth 16 = s.rightSym (s.testWord / 512) k ^^^ tgetD (32 * (s.testWord / 512) + k) 0 s.hbm.symErr)

/-- Chapter 16: sets, shadow sets, triggers, pauses and the end of sets of the porter, and the delivery of event lines. -/
def Obligations.PorterCommands : Prop :=
  ∀ s : State, s.Runs → ∀ n : Fin 64,
    (s.domHeld 109 = false → s.ptrReady n = true → s.malformed n = false → s.get F.PTR_CNT.COUNT n ≠ 0 →
      Gives (.porterStart n) s fun u => u.ptrRuns n = true ∧ u.get F.PTR_POS.POS n = 0 ∧ u.reg .PTR_SRC n = s.reg .PTR_SRC n ∧
        u.reg .PTR_DST n = s.reg .PTR_DST n ∧ u.reg .PTR_CNT n = s.reg .PTR_CNT n) ∧
    (s.domHeld 109 = false → s.canTake n = true → Gives (.shadowTake n) s fun u =>
      u.reg .PTR_SRC n = s.reg .PTR_SSRC n ∧ u.reg .PTR_DST n = s.reg .PTR_SDST n ∧ u.reg .PTR_CNT n = s.reg .PTR_SCNT n ∧
        u.reg .PTR_CFG n = s.reg .PTR_SCFG n ∧ u.reg .PTR_XLV n = s.reg .PTR_SXLV n ∧ u.get F.PTR_CTL.COMMIT n = 0) ∧
    (∀ (r : Fin 5) (v : BitVec 64), Gives (.shadowWrite n r v) s fun u =>
      (u.reg (shadowReg r) n).toNat = v.toNat &&& fieldMask (shadowReg r) ∧ u.get F.PTR_STAT.LASTW n = s.get F.PTR_CTL.COMMIT n) ∧
    Gives (.porterCommit n) s (fun u => u.get F.PTR_CTL.COMMIT n = 1) ∧
    (16 ≤ s.get F.PTR_CTL.TEVT n → Gives (.triggerPulse n) s fun u =>
      if s.get F.PTR_CTL.TCRED n < 15 then u.get F.PTR_CTL.TCRED n = s.get F.PTR_CTL.TCRED n + 1
      else u.get F.PTR_CTL.TCRED n = 15 ∧ u.get F.PTR_STAT.TOVF n = 1) ∧
    (∀ e, s.ptrRuns n = true → s.get F.PTR_STAT.PAUSED n = 0 → Gives (.porterSetEnd n e) s fun u => u.ptrRuns n = false) ∧
    (∀ on : Bool, Gives (.porterPause n on) s fun u =>
      u.get F.PTR_CTL.PAUSE n = on.toNat ∧ (on = false → u.get F.PTR_STAT.PAUSED n = 0)) ∧
    (∀ k e, s.get F.PTR_CTL.PAUSE n = 1 → Gives (.porterPauseDrained n k e) s fun u => u.get F.PTR_STAT.PAUSED n = 1) ∧
    Gives (.porterErrClear n) s (fun u => u.get F.PTR_STAT.ERR n = 0) ∧
    Gives (.porterDisable n) s (fun u => u.get F.PTR_CTL.EN n = 0 ∧ u.ptrRuns n = s.ptrRuns n) ∧
    ∀ l : Fin 256, 0 < s.lineCount l → (∀ h ∈ s.evt.held, h.line ≠ l) → Gives (.eventLineDelivery l) s fun u =>
      u.lineCount l = s.lineCount l - 1

/-- Chapter 18: descriptors, the end of operations, protected regions and passwords of secure NOR. -/
def Obligations.NorCommands : Prop :=
  ∀ s : State, s.Runs →
    (∀ (c : Instr) (d : SnfDesc), c ∈ [Instr.norRead d, .norProgram d, .norEraseSector d, .norEraseSpan d] →
      (if 64 ≤ (s.get F.SNF_QPTR.TAIL + 65536 - s.get F.SNF_QPTR.HEAD) % 65536 then
        exec c s = .next (s.accessBad 0x0F)
      else Gives c s fun u => u.get F.SNF_QPTR.TAIL = (s.get F.SNF_QPTR.TAIL + 1) % 65536 ∧ u.snor = s.snor)) ∧
    (∀ x, s.norRunning = some x → (x.op = 3 ∨ x.op = 4) → Gives (.norOperationEnd false) s fun u =>
      ∀ a, u.norByte a = if x.span.1 ≤ a ∧ a < x.span.1 + x.span.2 then 0xFF else s.norByte a) ∧
    (∀ x v, s.norRunning = some x → x.op = 1 → s.norBuffer x = true → s.nor.undef = [] → Gives (.norOperationEnd v) s fun u =>
      ∀ j, j < x.d.len → isRam (x.d.addr + j) = true → u.rdByte (x.d.addr + j) = s.norByte (x.d.nor + j)) ∧
    Gives .norEngineDisable s (fun u => u.get F.SNF_CTL.EN = 0) ∧
    (∀ (c : Fin 24) (r : Fin 16), s.get F.SNF_RGN.LOCKOUT r = 0 → s.get F.SNF_STAT.CFGERR = 0 → Gives (.openRegion c r) s fun u =>
      if s.reg .SNF_PWD 0 = s.passwordOf r then
        u.get F.SNF_RGN.OPEN r = 1 ∧ u.get F.SNF_RGN.OPENER r = c ∧ u.get F.SNF_RGN.ATTEMPTS r = 0
      else u.get F.SNF_RGN.OPEN r = s.get F.SNF_RGN.OPEN r ∧
        (15 ≤ s.get F.SNF_RGN.ATTEMPTS r → u.get F.SNF_RGN.LOCKOUT r = 1)) ∧
    (∀ (c : Fin 24) (r : Fin 16), Gives (.closeRegion c r) s fun u => u.get F.SNF_RGN.OPEN r = 0) ∧
    (∀ (c : Fin 24) (r : Fin 16), s.get F.SNF_RGN.OPEN r = 1 → Gives (.setPassword c r) s fun u =>
      u.get F.SNF_RGN.PROT r = 1 ∧ tget r.val u.nor.pwd = some (s.reg .SNF_PWD 0)) ∧
    (∀ m : BitVec 16, Gives (.clrlock (.core 22) m) s fun u => ∀ r, r < 16 →
      u.get F.SNF_RGN.LOCKOUT r = (if m.getLsbD r then 0 else s.get F.SNF_RGN.LOCKOUT r) ∧
        u.get F.SNF_RGN.ATTEMPTS r = if m.getLsbD r then 0 else s.get F.SNF_RGN.ATTEMPTS r) ∧
    ∀ (who : Initiator) (m : BitVec 16), who ≠ .core 22 → exec (.clrlock who m) s = .next (s.undecoded who)

/-- Chapter 20: the tally recorder's intervals, records and window, and the performance counters. -/
def Obligations.TallyCommands : Prop :=
  ∀ s : State, s.Runs →
    (∀ d, s.tallyOn = true → Gives (.tallyIntervalEnd d) s fun u =>
      if s.get F.TLY_CTL.FREEZE = 0 ∧ s.get F.TLY_STAT.CLEARING = 0 then
        u.tly.cur.startUs = s.elapsed ∧ u.tly.cur.startDtime = s.dtime ∧ u.tly.closing.isSome = true
      else u.tly.due = true ∧ u.tly.cur = s.tly.cur) ∧
    (∀ c, c = Instr.peDone ∨ (c = .peDoneTimeout ∧ s.get F.TLY_CTL.PE_DONE = 0) → s.tly.closing.isSome = true →
      s.get F.TLY_STAT.NREC < 2048 →
      (s.tallyHeld = false → Gives c s fun u =>
        u.tly.closing = none ∧ u.get F.TLY_STAT.NREC = s.get F.TLY_STAT.NREC + 1 ∧ u.get F.TLY_CTL.PE_DONE = 0) ∧
      (s.tallyHeld = true → Gives c s fun u =>
        u.tly.closing = s.tly.closing ∧ u.get F.TLY_STAT.NREC = s.get F.TLY_STAT.NREC ∧ u.snor = s.snor)) ∧
    (s.get F.TLY_CTL.FREEZE = 1 → Gives .tallyFreezeLapse s fun u =>
      u.get F.TLY_CTL.FREEZE = 0 ∧ (s.get F.TLY_STAT.CLEARING = 0 → u.tly.due = false)) ∧
    (s.get F.TLY_STAT.CLEARING = 1 → s.tly.due = false → (s.tly.closing = none ∨ s.get F.TLY_CTL.FREEZE = 1) → Gives .tallyClearComplete s fun u =>
      u.get F.TLY_STAT.CLEARING = 0 ∧ u.get F.TLY_STAT.NREC = 0 ∧ u.get F.TLY_STAT.FULL = 0 ∧
        ∀ a, u.norByte a = if 0x2000000 ≤ a ∧ a < 0x2800000 then 0xFF else s.norByte a) ∧
    (∀ v : BitVec 32, Gives (.tallyWindowSelect v) s fun u =>
      u.get F.TLY_CUR.CHUNK = v.toNat % 16 ∧ u.get F.TLY_CUR.RECORD = bitsOf 14 4 v.toNat ∧
        u.get F.TLY_CUR.AINC = bitsOf 31 31 v.toNat ∧ u.tly.winRec = some (bitsOf 14 4 v.toNat)) ∧
    (∀ k : Fin 64, Gives (.tallyWindowRead k) s fun u =>
      u.out = s.out ++ [.value (if s.get F.TLY_STAT.WINRDY = 1 then
        BitVec.ofNat 64 (leNat ((s.tly.win.drop (256 * s.get F.TLY_CUR.CHUNK + 4 * k.val)).take 4)) else 0)]) ∧
    (∀ (x : Fin 53) (k : Fin 8), Gives (.pmcCounterRead x k) s fun u =>
      u.out = s.out ++ [.value (((tget (8 * x.val + k.val) s.tly.latch).getD
        (BitVec.ofNat 32 (s.get F.PMC_CNT.COUNT (8 * x.val + k.val)))).setWidth 64)] ∧
        (k.val < 7 → s.get F.PMC_CFG.CHAIN (8 * x.val + k.val + 1) = 1 →
          tget (8 * x.val + k.val + 1) u.tly.latch = some (BitVec.ofNat 32 (s.get F.PMC_CNT.COUNT (8 * x.val + k.val + 1))))) ∧
    ∀ (x : Fin 53) (k : Fin 8), s.get F.PMC_GCTL.FRZ = 0 → (s.get F.PMC_CTL.EN x).testBit k.val = true →
      Gives (.counterOverflow x k) s fun u => u.get F.PMC_CNT.COUNT (8 * x.val + k.val) = 0 ∧
        ((k.val = 7 ∨ s.get F.PMC_CFG.CHAIN (8 * x.val + k.val + 1) = 0) → (u.get F.PMC_CTL.OVF x).testBit k.val = true)

/-- R482, R485 and R606: the services of groups 0x04xx and 0x07xx for records and counters. -/
def Obligations.CounterRequests : Prop :=
  ∀ (s : State) (m : Msg), s.Runs →
    (s.Admits 0x0401 16 m → Gives (.tallyStatus m .here) s fun u => ∃ b, u.Answered m 0x0401 0 b ∧ b.take 4 = leBytes 4 (s.get F.TLY_STAT.NREC)) ∧
    (∀ i n, s.Admits 0x0402 24 m → s.get F.TLY_STAT.CLEARING = 0 → i < 2048 → 1 ≤ n → n ≤ 7 → Gives (.tallyRead m .here i n) s fun u =>
      u.Answered m 0x0402 0 ((List.range n).flatMap fun k =>
        if i + k < s.get F.TLY_STAT.NREC then s.norRead (tallyAt (i + k)) 4096 else List.replicate 4096 0)) ∧
    (∀ on : Bool, s.Admits 0x0403 20 m → Gives (.tallyFreeze m .here on) s fun u =>
      u.get F.TLY_CTL.FREEZE = on.toNat ∧ u.Answered m 0x0403 0 []) ∧
    (s.Admits 0x0404 16 m → s.get F.TLY_STAT.CLEARING = 0 → s.get F.TLY_CTL.FREEZE = 0 → Gives (.tallyClear m .here) s fun u =>
      u.get F.TLY_STAT.CLEARING = 1 ∧ u.Answered m 0x0404 0 []) ∧
    (∀ unit x, s.Admits 0x0701 20 m → unitSet unit = some x → Gives (.counterRead m unit) s fun u =>
      u.Answered m 0x0701 0 (leBytes 8 (s.reg .PMC_CYC x).toNat ++
        (List.range 8).flatMap (fun k => leBytes 4 (s.get F.PMC_CNT.COUNT (8 * x + k))) ++
        leBytes 1 (s.get F.PMC_CTL.OVF x) ++ leBytes 7 0)) ∧
    (∀ a unit x (k : Fin 8) (chain : Bool) (event : BitVec 16) (thresh : BitVec 32), s.Admits 0x0702 28 m → unitSet unit = some x →
      Gives (.counterConfig m a unit k chain event thresh) s fun u =>
        u.get F.PMC_CFG.EVENT (8 * x + k.val) = event.toNat ∧ u.get F.PMC_CFG.CHAIN (8 * x + k.val) = chain.toNat ∧
          u.get F.PMC_CFG.THRESH (8 * x + k.val) = thresh.toNat ∧ u.Answered m 0x0702 0 []) ∧
    (s.Admits 0x0703 16 m → Gives (.accessErrors m) s fun u =>
      u.Answered m 0x0703 0 ((List.range 20).flatMap fun k => leBytes 4 (tgetD (k + 1) 0 s.accErr)))

/-- R145: a request that an enabled queue of the map engine takes moves its head and tail past it; a malformed one sets ERR, where
its line can take its pulse (R25), and changes no entry and no patch; one whose page has to be read waits for it. -/
def Obligations.MapQueues : Prop :=
  ∀ (s : State) (q : Fin 16) (d : MapDesc) (op : Nat) (c : Instr), s.Runs →
    (op, c) ∈ [(1, Instr.mapLookup q d), (2, .mapEntryCommit q d), (3, .mapPatchCommit q d), (4, .mapZeroSpan q d),
      (5, .mapConditionalCommit q d), (6, .mapPageDrop q d), (7, .mapPageWriteBack q d)] →
    s.domHeld 108 = false → s.get F.MAP_CTL.EN = 1 → s.get F.MAP_QCTL.EN q = 1 →
    Gives c s fun u => u.get F.MAP_QHEAD.HEAD q = (s.get F.MAP_QHEAD.HEAD q + 1) % ringDescs (s.get F.MAP_QCTL.SIZE q) ∧
      u.get F.MAP_QTAIL.TAIL q = (s.get F.MAP_QTAIL.TAIL q + 1) % ringDescs (s.get F.MAP_QCTL.SIZE q) ∧
      (s.mapMalformed op d = true → u.map.entries = s.map.entries ∧ u.map.patches = s.map.patches ∧
        (s.lineFull (if d.flags.getLsbD 0 then s.get F.MAP_QCTL.EVT q else 0) = false → u.get F.MAP_QCTL.ERR q = 1)) ∧
      (s.mapMalformed op d = false → op ≤ 5 → s.pageReady (mpnOf (d.nsidx + 1) d.bale) = false →
        u.map.entries = s.map.entries ∧ u.map.patches = s.map.patches ∧ ∃ r ∈ u.mapWaiting, r.q = q ∧ r.op = op ∧ r.d = d)

/-- R119, R121, R124, R127, R130, R142 and R143: what a well-formed request whose page is at hand, and whose grains are programmed, does
to the map. -/
def Obligations.MapCommits : Prop :=
  ∀ (s : State) (q : Fin 16) (d : MapDesc), s.Runs → s.domHeld 108 = false → s.get F.MAP_CTL.EN = 1 → s.get F.MAP_QCTL.EN q = 1 →
    s.pageReady (mpnOf (d.nsidx + 1) d.bale) = true →
    let n := d.nsidx + 1
    let cur := s.entry n d.bale
    let fresh := (∃ b ∈ s.baleBlocks n, s.outdated n d.bale b d.fstamp = false) ∧
      ∀ b ∈ s.baleBlocks n, s.outdated n d.bale b d.fstamp = true → (s.patch n d.bale b).isSome = true
    (s.mapMalformed 1 d = false → entryOk (s.nsSealed n) cur = true → Gives (.mapLookup q d) s fun u =>
      tget q.val u.map.resol = some (s.resolution d) ∧ u.map.entries = s.map.entries ∧ u.map.patches = s.map.patches) ∧
    (∀ op c, (op, c) ∈ [(2, Instr.mapEntryCommit q d), (5, .mapConditionalCommit q d)] → s.mapMalformed op d = false →
      s.newEntryOk n d.value = true → s.grainsAcked (ent 41 0 d.value) (ent 48 42 d.value) = false → Gives c s fun u =>
        u.map.entries = s.map.entries ∧ u.map.patches = s.map.patches ∧ u.map.held.length = s.map.held.length + 1) ∧
    (s.mapMalformed 2 d = false → s.newEntryOk n d.value = true → s.grainsAcked (ent 41 0 d.value) (ent 48 42 d.value) = true → fresh →
      Gives (.mapEntryCommit q d) s fun u => ent 52 0 (u.entry n d.bale) = ent 52 0 d.value ∧
        ent 63 56 (u.entry n d.bale) = (ent 63 56 cur + 1) % 256) ∧
    (s.mapMalformed 3 d = false → s.newPatchOk n d.value = true → s.grainsAcked (bitsOf 41 0 d.value.toNat) (patchLen d.value) = true →
      s.mustMerge n d.bale = false → s.outdated n d.bale d.blk d.fstamp = false →
      Gives (.mapPatchCommit q d) s fun u => ∃ v, u.patch n d.bale d.blk = some v ∧ bitsOf 55 0 v.toNat = bitsOf 55 0 d.value.toNat ∧
        bitsOf 63 56 v.toNat = ent 63 56 cur) ∧
    (∀ ns, s.mapMalformed 4 d = false → s.nsOf n = some ns → d.blk = 0 → d.count = blocksPerBale ns.lbaf → fresh →
      Gives (.mapZeroSpan q d) s fun u => ent 52 0 (u.entry n d.bale) = 2 ^ 49) ∧
    (s.mapMalformed 5 d = false → s.newEntryOk n d.value = true → s.grainsAcked (ent 41 0 d.value) (ent 48 42 d.value) = true →
      Gives (.mapConditionalCommit q d) s fun u =>
        if withPhint cur 0 = withPhint d.expect 0 ∧ (ent 63 56 d.value = ent 63 56 d.expect ∨ s.repackable n d.bale d.snapshot = true) then
          ent 50 0 (u.entry n d.bale) = ent 50 0 d.value ∧
            if ent 63 56 d.value = ent 63 56 d.expect then
              ent 63 56 (u.entry n d.bale) = ent 63 56 cur ∧ ent 51 51 (u.entry n d.bale) = ent 51 51 cur
            else ent 63 56 (u.entry n d.bale) = (ent 63 56 cur + 1) % 256 ∧ ent 51 51 (u.entry n d.bale) = 0
        else u.map.entries = s.map.entries ∧ u.map.patches = s.map.patches) ∧
    (s.mapMalformed 6 d = false → s.dropStale n d.bale d.fstamp = false → GivesThen State.flow (.mapPageDrop q d) s fun u =>
      tget (d.nsidx * 2 ^ 28 + d.bale) u.map.dropped = some s.map.nextJseq ∧
        d.fstamp.toNat ≤ (tgetD (d.nsidx * 2 ^ 28 + d.bale) 0 u.map.dropCommit).toNat) ∧
    (s.mapMalformed 7 d = false → (s.map.frames.any fun f => f.mpn == d.nsidx * 2 ^ 28 + d.bale && f.dirty) = true →
      GivesThen State.flow (.mapPageWriteBack q d) s fun u =>
        (∃ x ∈ u.map.ckptQ, x.kind = 0 ∧ x.key = d.nsidx * 2 ^ 28 + d.bale ∧ x.place = none ∧ x.c.inst = s.instOf (d.nsidx + 1) ∧
          x.c.crc = crc32c (s.pageBytes (d.nsidx * 2 ^ 28 + d.bale))) ∧ ∃ r ∈ u.map.backs, r.q = q ∧ r.op = 7 ∧ r.d = d)

/-- R117, R141 and R143: filled pages, the close of the journal block and the checkpoint round. -/
def Obligations.MapRounds : Prop :=
  ∀ s : State, s.Runs →
    (∀ p, s.wantsPage p = true → Gives (.mapPageMissFilled p true) s fun u => tget p u.map.misses = none) ∧
    (∀ p, exec (.mapPageMissFilled p false) s = .next s) ∧
    (∀ b, s.map.openJ ≠ [] → GivesThen State.flow (.journalBlockClose b) s fun u => u.map.openJ = [] ∧
      u.map.jblocks = s.map.jblocks ++ [s.jblockOf s.map.openJ]) ∧
    (∀ d, s.map.ckptOpen = none → GivesThen State.flow (.checkpointRound d) s fun u => u.map.ckptRound = s.map.ckptRound + 1 ∧
      (s.dirtyPages ≠ [] → u.map.ckptOpen.isSome = true) ∧
      ∀ p ∈ s.dirtyPages, ∃ x ∈ u.map.ckptQ, x.kind = 0 ∧ x.key = p ∧ x.round = true ∧ x.c.crc = crc32c (s.pageBytes p)) ∧
    ∀ d, s.map.ckptOpen.isSome = true → GivesThen State.flow (.checkpointRound d) s fun u => u.map = s.map

/-- R253 and R254: every job that the convoy engine takes moves the ring past its descriptor, is counted, and has its STATUS
written, where its line can take its pulse (R25); a malformed one sets ERR then, and does nothing else to the convoys. -/
def Obligations.ConvoyRings : Prop :=
  ∀ (s : State) (r : Fin 4) (d : CvyDesc) (items : List PlaceReq) (op : Nat) (c : Instr), s.CvyTakes r →
    (op, c) ∈ [(1, Instr.accumulatePage r d items), (2, .emitPAndQ r d), (3, .reconstruct r d), (4, .clearAccumulator r d)] →
    Gives c s fun u => u.get F.CVY_RING_PTR.HEAD r = (s.get F.CVY_RING_PTR.HEAD r + 1) % 65536 ∧
      u.get F.CVY_RING_PTR.TAIL r = (s.get F.CVY_RING_PTR.TAIL r + 1) % 65536 ∧
      u.get F.CVY_STAT.JOBS = (s.get F.CVY_STAT.JOBS + 1) % 65536 ∧
      (s.lineFull (if d.flags.getLsbD 0 then s.get F.CVY_RING_CFG.EVT r else 0) = false →
        (CvyDescBad op d = true → u.get F.CVY_RING_CFG.ERR r = 1) ∧
        ∀ k, k < 4 → s.engineSees (s.cvySlot r + 0x18 + k) = true →
          u.rdByte (s.cvySlot r + 0x18 + k) = if k ≠ 0 then 0 else if CvyDescBad op d then 4 else 1) ∧
      (CvyDescBad op d = true → u.conv = s.conv ∧ u.packs = s.packs ∧
        ∀ a, s.inCvyStatus r a = false → u.rdByte a = s.rdByte a)

/-- R228, R229 and R253: the bytes that each well-formed job of the convoy engine leaves in memory, apart from its descriptor's
STATUS. -/
def Obligations.ConvoyJobs : Prop :=
  ∀ (s : State) (r : Fin 4) (d : CvyDesc), s.CvyTakes r →
    (∀ items, CvyDescBad 1 d = false → s.NoDrain → Gives (.accumulatePage r d items) s fun u =>
      ∀ a, s.inCvyStatus r a = false → (a < s.accBase d.acc ∨ s.accBase d.acc + 32768 ≤ a) → u.rdByte a = s.rdByte a) ∧
    (∀ items, CvyDescBad 1 d = false → s.NoDrain → (items = [] ∨ tget d.acc s.conv.acc = none) → Gives (.accumulatePage r d items) s fun u =>
      (∀ k, k < 16384 → isRam (s.accBase d.acc + k) = true → s.inCvyStatus r (s.accBase d.acc + k) = false →
        u.rdByte (s.accBase d.acc + k) = s.rdByte (s.accBase d.acc + k) ^^^ s.engByte (d.src + k)) ∧
      (∀ k, k < 16384 → isRam (s.accBase d.acc + 16384 + k) = true → s.inCvyStatus r (s.accBase d.acc + 16384 + k) = false →
        u.rdByte (s.accBase d.acc + 16384 + k) = s.rdByte (s.accBase d.acc + 16384 + k) ^^^ gfMul (gfPow d.k) (s.engByte (d.src + k)))) ∧
    (CvyDescBad 2 d = false → tget d.acc s.conv.acc = none → Gives (.emitPAndQ r d) s fun u =>
      (∀ k, k < 32768 → s.engineSees (d.dst + k) = true → s.inCvyStatus r (d.dst + k) = false →
        (d.dst + k < s.accBase d.acc ∨ s.accBase d.acc + 32768 ≤ d.dst + k) →
        u.rdByte (d.dst + k) = s.rdByte (s.accBase d.acc + k)) ∧
      ∀ k, k < 32768 → isRam (s.accBase d.acc + k) = true → s.inCvyStatus r (s.accBase d.acc + k) = false →
        u.rdByte (s.accBase d.acc + k) = 0) ∧
    (CvyDescBad 3 d = false → d.miss1 = 0xFF → Gives (.reconstruct r d) s fun u =>
      (∀ k b, (solvePage d.w d.miss0 none (s.reconPages d))[k]? = some b → s.engineSees (d.dst + k) = true →
        s.inCvyStatus r (d.dst + k) = false → u.rdByte (d.dst + k) = b) ∧
      ∀ a, s.inCvyStatus r a = false → (a < d.dst ∨ d.dst + 16384 ≤ a) → u.rdByte a = s.rdByte a) ∧
    (CvyDescBad 4 d = false → Gives (.clearAccumulator r d) s fun u =>
      (∀ k, k < 32768 → isRam (s.accBase d.acc + k) = true → s.inCvyStatus r (s.accBase d.acc + k) = false →
        u.rdByte (s.accBase d.acc + k) = 0) ∧
      ∀ a, s.inCvyStatus r a = false → (a < s.accBase d.acc ∨ s.accBase d.acc + 32768 ≤ a) → u.rdByte a = s.rdByte a)

/-- R16, R229 and R254: the convoy engine and the encoders off and on. -/
def Obligations.ParityEngineControl : Prop :=
  ∀ s : State, s.Runs →
    Gives .convoyEngineDisable s (fun u => u.get F.CVY_CTL.EN = 0 ∧ u.get F.CVY_STAT.IDLE = 1 ∧ u.conv = s.conv ∧ u.mem = s.mem) ∧
    ∀ (q : Fin 32) (n : Nat) (l : Fin 256), s.domHeld 107 = false → s.get F.MED_CTL.EN = 1 → s.lineFull l = false →
      s.get F.PMC_CTL.EN 39 = 0 → Gives (.ldpcEncode q n l) s fun u => u = s.accept { line := l }

/-- Chapters 7 and 8: blocks are formed, open convoys expire, and rounds of reclaim, rebuild, refresh and scrub start. -/
def Obligations.PlacementCommands : Prop :=
  ∀ s : State, s.Runs →
    (∀ (k : Fin 5) (a c : Nat), s.formWidth ≠ 0 → (s.cbCount k) < streamMax k → s.formWidth ≤ (s.packOrder s.inService).length →
      s.mustWait k ((s.packOrder s.inService).take s.formWidth) = false → s.hostWaits k s.formWidth = false →
      s.freeAcc = some a → s.freeCbid = some c → Gives (.convoyBlockForm k) s fun u =>
        (u.cb c).state = 1 ∧ (u.cb c).kind = k ∧ (u.cb c).w = s.formWidth ∧ (u.cb c).members.length = s.formWidth ∧
          tget a u.conv.acc = some { cbid := c, stream := k }) ∧
    (∀ k : Fin 5, (s.formWidth = 0 ∨ streamMax k ≤ s.cbCount k ∨ (s.packOrder s.inService).length < s.formWidth ∨
      s.hostWaits k s.formWidth = true) → exec (.convoyBlockForm k) s = .next s) ∧
    (∀ (a : Fin 256) o, tget a.val s.conv.acc = some o → o.filled = true → Gives (.openConvoyAgeExpiry a) s fun u =>
      (u.cb o.cbid).nextPage = (s.cb o.cbid).nextPage + 1 ∧
        tget a.val u.conv.acc = if s.pagesNow ≤ (s.cb o.cbid).nextPage + 1 then none else some { cbid := o.cbid, stream := o.stream }) ∧
    (∀ a : Fin 256, (∀ o, tget a.val s.conv.acc = some o → o.filled = false) → exec (.openConvoyAgeExpiry a) s = .next s) ∧
    (∀ d, Gives (.reclaimRound d) s fun u => u.conv.hPrev = s.conv.hNow ∧ u.conv.hNow = 0) ∧
    (∀ k c, s.conv.rebuild = none →
      rebuildNext (s.conv.cbt.filter fun e => e.2.rbclass != 0 && (e.2.state == 2 || e.2.state == 3)) = some (k, c) → s.cb k = c →
      c.rbclass = 4 → c.live ≠ 0 → Gives .rebuildBlockStart s fun u =>
        (u.cb k).state = 3 ∧ (u.cb k).rbclass = 0) ∧
    (∀ k c pos x y t, s.conv.rebuild = none →
      rebuildNext (s.conv.cbt.filter fun e => e.2.rbclass != 0 && (e.2.state == 2 || e.2.state == 3)) = some (k, c) → s.cb k = c →
      c.rbclass ≠ 4 →
      (c.members.findIdx? fun x => x.lost) = some pos → c.members[pos]? = some x → s.replacement c x = some (t, y) →
      1 < c.nextPage → Gives .rebuildBlockStart s fun u => ∃ r, u.conv.rebuild = some r ∧ r.cbid = k ∧ r.pos = pos ∧ r.new = y ∧ r.page = 1) ∧
    (∀ k l, (s.conv.refreshQ.filter fun k => !s.conv.refreshing.contains k) = k :: l → s.conv.refreshing.length < 4 →
      Gives .refreshBlockStart s fun u => k ∉ u.conv.refreshQ) ∧
    (∀ kind cbid page pos cw (st : Fin 12) it x, s.domHeld 107 = false → s.get F.MED_CTL.EN = 1 → (s.cb cbid).members[pos]? = some x →
      (st.val < 8 → it ≤ s.iterLimit st) →
      let k := if st.val = 8 ∧ s.iterLimit 8 < it then 9 else min 9 st.val
      Gives (.codewordDecode kind cbid page pos cw st it) s fun u => u.reg .MED_ESC_CNT k = s.reg .MED_ESC_CNT k + 1) ∧
    (∀ kind cbid page pos cw (st : Fin 12) it x, s.domHeld 107 = false → s.get F.MED_CTL.EN = 1 → (s.cb cbid).members[pos]? = some x →
      st.val < 8 → s.iterLimit st < it →
      Gives (.codewordDecode kind cbid page pos cw st it) s fun u => ∀ k, u.reg .MED_ESC_CNT k = s.reg .MED_ESC_CNT k) ∧
    (∀ d, (s.mode ≠ .idle ∧ s.mode ≠ .balanced) → Gives (.scrubRound d) s fun u =>
      u.conv = { s.conv with scrubCarry := s.scrubQuota + s.conv.scrubCarry }) ∧
    (∀ d, (s.mode = .idle ∨ s.mode = .balanced) → (s.inService.any fun n => !s.asleep n) = true → Gives (.scrubRound d) s fun u =>
      ∃ r, u.conv.syslog = s.conv.syslog ++ [r] ∧ r.typ = 9 ∧ r.block = u.conv.scrubCb ∧ r.arg = u.conv.scrubHalf) ∧
    ∀ d c, (s.mode = .idle ∨ s.mode = .balanced) → (s.inService.any fun n => !s.asleep n) = true →
      s.conv.scrubAt ≠ 0 → s.scrubNext = some (s.conv.scrubCb, c) →
      c.w ≠ 0 → c.members.length = c.w → (∀ x ∈ c.members, x.lost = false ∧ s.asleep x.port = false) →
      s.conv.scrubAt + (s.scrubQuota + s.conv.scrubCarry) ≤ c.nextPage * c.w → Gives (.scrubRound d) s fun u =>
        u.conv.scrubCb = s.conv.scrubCb ∧ u.conv.scrubAt = s.conv.scrubAt + (s.scrubQuota + s.conv.scrubCarry) ∧ u.conv.scrubCarry = 0

/-- R181 to R183 and R365: acknowledgements, replays, credits and retraining of flit links. -/
def Obligations.FlitCommands : Prop :=
  ∀ s : State, s.Runs →
    (∀ (l : Link) (q : BitVec 32), let k := (q + 1 - (s.lnk l).acked).toNat
      GivesThen (fun u => (u.afterAck l).flow) (.flitAck l q) s fun u =>
        u.lnk l = if 0 < k ∧ k ≤ (s.lnk l).unacked then { s.lnk l with acked := q + 1, buf := (s.lnk l).buf.drop k, replays := 0 } else s.lnk l) ∧
    (∀ q : BitVec 32, let k := (q + 1 - s.twn.link.acked).toNat
      GivesThen (fun u => (u.afterAck .twin).flow) (.twinFlitAck q) s fun u =>
        u.twn.link = if 0 < k ∧ k ≤ s.twn.link.unacked then { s.twn.link with acked := q + 1, buf := s.twn.link.buf.drop k, replays := 0 }
          else s.twn.link) ∧
    (∀ (l : Link) (n : Nat), (s.lnk l).wait = [] → Gives (.credit l n) s fun u =>
      (u.lnk l).credit = min 65535 ((s.lnk l).credit + n) ∧ (u.lnk l).tx = (s.lnk l).tx ∧ u.out = s.out) ∧
    (∀ (l : Link) (q : BitVec 32), s.Sends → Gives (.flitNak l q) s fun u =>
      s.out ++ ((s.ackTo l q).lnk l).buf.map (Out.flit l) <+: u.out) ∧
    (∀ l : Link, s.Sends → Gives (.flitDiscard l) s fun u => u.out = s.out ++ [.flit l { seq := (s.lnk l).rx - 1, typ := 0x11, port := s.portByte l, len := 0 }] ∧
      ∀ n : Fin 32, l = .pack n → u.get F.PKP_LERR.DISCARDS n = min 16777215 (s.get F.PKP_LERR.DISCARDS n + 1)) ∧
    (∀ (l : Link) (ok : Bool), (s.lnk l).unacked = 0 → s.retraining l = false → exec (.ackTimeout l ok) s = .next s) ∧
    (∀ n : Fin 32, (s.pk n).link.unacked ≠ 0 → s.retraining (.pack n) = false → Gives (.ackTimeout (.pack n) true) s fun u =>
      u.get F.PKP_LERR.RETRAINS n = min 65535 (s.get F.PKP_LERR.RETRAINS n + 1) ∧ u.get F.PKP_STAT.LINK_UP n = 1 ∧
        u.get F.PKP_CTL.RETRAIN n = 0) ∧
    (∀ n : Fin 32, s.retraining (.pack n) = true → Gives (.ackTimeout (.pack n) true) s fun u =>
      u.get F.PKP_STAT.LINK_UP n = 1 ∧ u.get F.PKP_CTL.RETRAIN n = 0 ∧ u.get F.PKP_LERR.RETRAINS n = s.get F.PKP_LERR.RETRAINS n) ∧
    (s.twn.link.unacked ≠ 0 → Gives (.ackTimeout .twin true) s fun u =>
      u.get F.TWN_LINK.RETRAINS = min 65535 (s.get F.TWN_LINK.RETRAINS + 1)) ∧
    ∀ l : Link, ((s.lnk l).unacked ≠ 0 ∨ s.retraining l = true) → ((s.lnk l).fails.filter fun t => decide (s.elapsed < t + 1000000)).length < 2 →
      Gives (.ackTimeout l false) s fun u =>
        (u.lnk l).fails = ((s.lnk l).fails.filter fun t => decide (s.elapsed < t + 1000000)) ++ [s.elapsed]

/-- Chapter 6: links of packs go down, retrain and come up; responses, events, timeouts, activation and planned removal. -/
def Obligations.PackCommands : Prop :=
  ∀ (s : State) (n : Fin 32), s.Runs →
    (∀ c, (c = Instr.packSignalLoss n ∧ (s.pk n).svc = true ∧ s.pkState n ≠ 9 ∧ s.sleepsDeep n = false) ∨ c = .pkpRetrain n → s.get F.PKP_CTL.EN n = 1 →
      Gives c s fun u => u.get F.PKP_CTL.RETRAIN n = 1 ∧ u.get F.PKP_STAT.LINK_UP n = 0 ∧
        u.get F.PKP_LERR.RETRAINS n = min 65535 (s.get F.PKP_LERR.RETRAINS n + 1) ∧
        u.pkState n = s.pkState n ∧
        u.get F.PKP_STAT.STATE n = if 4 ≤ s.pkState n ∧ s.pkState n ≤ 10 ∧ (s.pk n).side = 0 then s.get F.PKP_STAT.STATE n else 2) ∧
    ((s.pkState n = 9 ∨ s.sleepsDeep n = true) → exec (.packSignalLoss n) s = .next s) ∧
    (∀ c t, c ∈ [Instr.packSignalLoss n, .pkpRetrain n, .packLinkUp n t] → s.get F.PKP_CTL.EN n = 0 → exec c s = .next s) ∧
    (∀ t, s.get F.PKP_CTL.EN n = 1 → t.refused = true → Gives (.packLinkUp n t) s fun u =>
      u.get F.PKP_CTL.RETRAIN n = 0 ∧ u.get F.PKP_STAT.LINK_UP n = 0 ∧ u.get F.PKP_STAT.STATE n = 3 ∧ u.get F.PKP_STAT.LINK_CHG n = 1) ∧
    (∀ t, s.get F.PKP_CTL.EN n = 1 → t.refused = false → Gives (.packLinkUp n t) s fun u => u.get F.PKP_BRH.H n = t.h.toNat) ∧
    (s.get F.PKP_CTL.HOLD n = 1 → (s.pk n).outst = [] → (s.pk n).updStep = 3 → Gives (.bridgeHoldDrained n) s fun u =>
      (u.pk n).updStep = 4 ∧ u.pkState n = 10 ∧ ((u.pk n).outst.map fun o => o.cmd.opc) = [0x1A]) ∧
    ((s.pk n).outst ≠ [] → s.hif.activating = none → s.get F.TWN_STAT.PAIRED = 0 → Gives (.packResponseTimeout n) s fun u =>
      u.get F.PKP_STAT.TIMEOUT n = 1) ∧
    (((s.pk n).outst = [] ∨ s.get F.TWN_STAT.PAIRED = 1) → exec (.packResponseTimeout n) s = .next s) ∧
    ((s.pk n).removing = true → (s.membersWhere fun x => x.port == n) = [] →
      GivesThen (fun u => u.recomputeU.logLost n) (.packRemovable n) s fun u => (u.pk n).removable = true ∧ (u.pk n).svc = false) ∧
    (∀ r data, s.get F.PKP_STAT.LINK_UP n = 0 → exec (.packResponse n r data) s = .next s) ∧
    (∀ r data, s.get F.PKP_STAT.LINK_UP n = 1 → s.Sends → Gives (.packResponse n r data) s fun u =>
      s.out ++ s.ackFlits (.pack n) (flitsOf (32 + data.length)) <+: u.out) ∧
    (∀ r data o a b, s.get F.PKP_STAT.LINK_UP n = 1 → s.Open → ((s.pk n).outst.find? fun o => o.cmd.cseq == r.cseq) = some o →
      o.use = .scrub a b → r.status = 0 →
      GivesThen (fun u => u.relocReady.releaseAll.flow.applyGo.bootGo.promoteGo) (.packResponse n r data) s fun u =>
        (u.pk n).outst = (s.pk n).outst.filter fun x => x.cmd.cseq != r.cseq) ∧
    ∀ h die v, s.get F.PKP_STAT.LINK_UP n = 1 → s.Sends → s.Open → h.code ≠ 2 →
      GivesThen (fun u => u.applyGo.promoteGo) (.packAsync n h die v) s fun u => (u.pk n).eseq = h.eseq.toNat ∧
        s.out ++ s.ackFlits (.pack n) 1 <+: u.out

/-- R148, R160, R171 to R175: the jobs of the compression engines: they run, or wait in their ring where no engine takes them; and engines
leaving and entering service. -/
def Obligations.CompressionCommands : Prop :=
  ∀ (s : State) (r : Fin 8) (n : Fin 26),
    (∀ d mm op c, s.CmpTakes r n → (op, mm, c) ∈ [(1, mm, Instr.codeBale r d n mm), (2, false, .decodeQuarter r d n),
        (3, false, .roundOnly r d n), (4, mm, .codePatch r d n mm), (5, false, .decodePatch r d n)] →
      let e := s.cmpEnd op d mm false
      let full := s.lineFull (if d.flags.getLsbD 0 then s.get F.CMP_RING_CFG.EVT r else 0)
      Gives c s fun u => u.get F.CMP_RING_PTR.HEAD r = (s.get F.CMP_RING_PTR.HEAD r + 1) % 65536 ∧
        u.get F.CMP_RING_PTR.TAIL r = (s.get F.CMP_RING_PTR.TAIL r + 1) % 65536 ∧
        (e.status = 4 ∨ e.status = 5 → full = false → u.get F.CMP_RING_CFG.ERR r = 1) ∧
        (e.status = 3 → u.get F.CMP_ENG_STAT.FAULT n = 1 ∧ u.get F.CMP_ENG_CTL.EN n = 0) ∧
        (full = false → s.engineSees (s.cmpSlot r + 0x30) = true → u.rdByte (s.cmpSlot r + 0x30) = BitVec.ofNat 8 e.status) ∧
        (e.status = 1 ∨ e.status = 2 → ∀ k b, e.out[k]? = some b → s.engineSees (d.dst + k) = true →
          (d.dst + k < s.cmpSlot r + 0x1C ∨ s.cmpSlot r + 0x34 ≤ d.dst + k) → u.rdByte (d.dst + k) = b) ∧
        ∀ a, (a < s.cmpSlot r + 0x1C ∨ s.cmpSlot r + 0x34 ≤ a) → (a < d.dst ∨ d.dst + e.out.length ≤ a) → u.rdByte a = s.rdByte a) ∧
    (s.Runs → Gives (.compressionEngineDisable n) s fun u => u.get F.CMP_ENG_CTL.EN n = 0 ∧ u.get F.CMP_ENG_STAT.IDLE n = 1) ∧
    (∀ d mm op c, s.Runs → s.get F.CMP_RING_CFG.EN r = 1 → (s.cmpEngine n = none ∨ (s.cmpWait.any fun x => x.ring == r) = true) →
        (op, mm, c) ∈ [(1, mm, Instr.codeBale r d n mm), (2, false, .decodeQuarter r d n), (3, false, .roundOnly r d n),
          (4, mm, .codePatch r d n mm), (5, false, .decodePatch r d n)] →
      Gives c s fun u => u.cmpWait = s.cmpWait ++ [{ ring := r, op := op, d := d, mismatch := mm }] ∧ u.mem = s.mem ∧
        u.get F.CMP_RING_PTR.HEAD r = s.get F.CMP_RING_PTR.HEAD r ∧
          u.get F.CMP_RING_PTR.TAIL r = (s.get F.CMP_RING_PTR.TAIL r + 1) % 65536) ∧
    (s.Runs → s.cmpWait = [] → s.get F.CMP_ENG_STAT.FAULT n = 0 → Gives (.compressionEngineEnable n) s fun u => u.get F.CMP_ENG_CTL.EN n = 1) ∧
    (s.Runs → s.get F.CMP_ENG_STAT.FAULT n = 1 → exec (.compressionEngineEnable n) s = .next s)

/-- R393 to R397, R402, R409 and R416: the jobs of the cipher cluster: they run, or wait for their ring, their slot or two cores. -/
def Obligations.CipherJobs : Prop :=
  ∀ (s : State) (r : Fin 32) (d : CphDesc) (run : CphRun) (op : Nat) (c : Instr), s.CphPosts r run →
    (op, c) ∈ [(1, Instr.xtsEncrypt r d run), (2, .xtsDecrypt r d run), (3, .gcmEncrypt r d run), (4, .gcmDecrypt r d run)] →
    (s.cphGets r d run = none → exec c s =
      .next { s.put F.CPH_RING_PTR.TAIL r (s.get F.CPH_RING_PTR.TAIL r + 1) with
        keys := { s.keys with waitJobs := s.keys.waitJobs ++ [{ ring := r, op := op, d := d, run := run }] } }) ∧
    (∀ got, s.cphGets r d run = some got → s.NoUpset → let e := s.cphEnd op d got
      let full := s.lineFull (if d.flags.getLsbD 0 then s.get F.CPH_RING_CFG.EVT r else 0)
      Gives c s fun u => u.get F.CPH_RING_PTR.HEAD r = (s.get F.CPH_RING_PTR.HEAD r + 1) % 65536 ∧
        u.get F.CPH_RING_PTR.TAIL r = (s.get F.CPH_RING_PTR.TAIL r + 1) % 65536 ∧
        (e.status = 3 ∨ e.status = 4 ∨ e.status = 6 → full = false → u.get F.CPH_RING_CFG.ERR r = 1) ∧
        (e.status = 3 → u.get F.SEC_MODE.MODE = 3 ∧ u.get F.SEC_MODE.ERRCODE = 3) ∧
        (e.status ≠ 3 ∨ s.keys.waitJobs = [] → full = false → s.engineSees (s.cphSlot r + 0x1C) = true →
          u.rdByte (s.cphSlot r + 0x1C) = BitVec.ofNat 8 e.status) ∧
        ∀ k b, e.out[k]? = some b → s.engineSees (d.dst + k) = true → (d.dst + k < s.cphSlot r + 0x1C ∨ s.cphSlot r + 0x30 ≤ d.dst + k) →
          (d.dst + k < d.aux + 0x20 ∨ d.aux + 0x30 ≤ d.dst + k) → u.rdByte (d.dst + k) = b)

/-- R394 to R396, R416 and R425: cores of the cluster off and on, and the end of the use of a slot with an operation pending. -/
def Obligations.CipherControl : Prop :=
  ∀ s : State, s.Runs →
    (∀ n : Fin 18, Gives (.cipherCoreDisable n) s fun u => u.get F.CPH_CORE_CTL.EN n = 0 ∧ u.get F.CPH_CORE_STAT.IDLE n = 1 ∧
      u.get F.CPH_STAT.CORES = ((List.range 18).filter fun k => u.on F.CPH_CORE_CTL.EN k).length) ∧
    (∀ (n : Fin 18) (ok : Bool), s.get F.CPH_CORE_STAT.FAULT n = 1 → exec (.cipherCoreEnable n ok) s = .next s) ∧
    (∀ n : Fin 18, s.get F.CPH_CORE_STAT.FAULT n = 0 → GivesThen State.startWaiting (.cipherCoreEnable n true) s fun u =>
      u.get F.CPH_CORE_CTL.EN n = 1 ∧ u.get F.CPH_STAT.CORES = ((List.range 18).filter fun k => u.on F.CPH_CORE_CTL.EN k).length) ∧
    (∀ n : Fin 18, s.get F.CPH_CORE_STAT.FAULT n = 0 → Gives (.cipherCoreEnable n false) s fun u =>
      u.get F.CPH_CORE_STAT.KATFAIL n = 1 ∧ u.get F.CPH_CORE_STAT.FAULT n = 1 ∧ u.get F.CPH_CORE_CTL.EN n = 0 ∧
        u.get F.SEC_MODE.MODE = 3 ∧ u.get F.SEC_MODE.ERRCODE = 1) ∧
    (∀ k : Fin 65536, (s.kslot k).pend = some .erase → GivesThen State.startWaiting (.keySlotDrained k) s fun u =>
      u.kslot k = { gen := (s.kslot k).gen + 1 }) ∧
    (∀ (k : Fin 65536) mat, (s.kslot k).pend = some (.rewrite mat) → mat ≠ [] →
      GivesThen State.startWaiting (.keySlotDrained k) s fun u => u.kslot k = { s.kslot k with
        gen := (s.kslot k).gen + 1
        loaded := true
        nctr := 0
        hwm := if (s.kslot k).alg = 2 then hwmStep else 0
        mat := mat
        pend := none
        wrapped := true }) ∧
    ∀ k : Fin 65536, (s.kslot k).pend = none ∨ (s.kslot k).pend = some (.rewrite []) → exec (.keySlotDrained k) s = .next s

/-- R425: a failed entropy test puts the module into its error state. -/
def Obligations.EntropyFailure : Prop :=
  ∀ s : State, s.Runs → Gives .entropyTestFailure s fun u => u.get F.SEC_MODE.MODE = 3 ∧ u.get F.SEC_MODE.ERRCODE = 2 ∧
    u.hif.fetchStop = true

/-- R413, R416 and R484: the services that make, load, unload, erase, rewrite and hand over key slots. -/
def Obligations.KeySlotRequests : Prop :=
  ∀ (s : State) (m : Msg) (a : Arrival) (n : Nat), s.Runs →
    (∀ alg owner, s.Admits 0x0601 36 m → 1 ≤ alg → alg ≤ 3 → s.emptySlot = some n → s.isTrail = false → s.keyNeeded n = false →
      Gives (.createKey m a alg owner) s fun u => (u.kslot n).alg = alg ∧ (u.kslot n).owner = owner ∧ (u.kslot n).loaded = true ∧
        (u.kslot n).gen = (s.kslot n).gen + 1 ∧ u.sgen = s.sgen + 1 ∧
        u.Answered m 0x0601 0 (leBytes 4 (u.handleOf n).toNat ++ keyFp n (u.kslot n))) ∧
    (∀ alg owner, s.Admits 0x0601 36 m → (alg = 0 ∨ 3 < alg) → Gives (.createKey m a alg owner) s fun u =>
      u.keys = s.keys ∧ u.Answered m 0x0601 2 []) ∧
    (∀ nsid ns, s.Admits 0x0602 20 m → s.nsOf nsid = some ns → ns.sealed = true → ns.prevKey = none → s.emptySlot = some n →
      s.isTrail = false → GivesThen (fun t => (t.sgenUp.flow).keyMade 0x0602 m a n false) (.rotateKey m a nsid) s fun t =>
        (t.kslot n).alg = 2 ∧ (t.kslot n).loaded = true ∧ (t.kslot n).owner = (s.kslot (ns.keyref.toNat % 65536)).owner ∧
          t.nsOf nsid = some { ns with keyref := t.handleOf n, prevKey := some ns.keyref }) ∧
    (∀ h, s.Admits 0x0603 20 m → s.slotOf h = some n → Gives (.unloadKey m a h) s fun u =>
      u.kslot n = { s.kslot n with loaded := false } ∧ u.sgen = s.sgen + 1 ∧ u.Answered m 0x0603 0 (s.genBody n)) ∧
    (∀ h, s.Admits 0x0604 20 m → s.slotOf h = some n → (s.kslot 0).loaded = true → (s.kslot n).wrapped = true →
      s.keys.noUnwrap = false → Gives (.loadKey m a h) s fun u =>
        u.kslot n = { s.kslot n with loaded := true } ∧ u.sgen = s.sgen + 1 ∧ u.Answered m 0x0604 0 (s.genBody n)) ∧
    (∀ h, s.Admits 0x0605 20 m → s.slotOf h = some n → (s.kslot n).pend = none → Gives (.eraseKeySlot m a h) s fun u =>
      u.kslot n = { s.kslot n with pend := some .erase } ∧ u.sgen = s.sgen + 1 ∧
        u.mbx.waits = s.mbx.waits ++ [{ m := m, here := isHere a, what := 3, arg := n }]) ∧
    (∀ h, s.Admits 0x0606 20 m → s.slotOf h = some n → (s.kslot n).pend = none → s.isTrail = false →
      Gives (.rewriteKeySlot m a h) s fun u =>
        u.kslot n = { s.kslot n with pend := some (.rewrite (drawMat (s.kslot n).alg 8 s.freeNo).1) } ∧ u.sgen = s.sgen + 1 ∧
          u.mbx.waits = s.mbx.waits ++ [{ m := m, here := isHere a, what := 3, arg := n }]) ∧
    (∀ h owner, s.Admits 0x0607 36 m → s.slotOf h = some n → Gives (.changeOwner m a h owner) s fun u =>
      u.kslot n = { s.kslot n with owner := owner } ∧ u.sgen = s.sgen + 1 ∧ u.Answered m 0x0607 0 []) ∧
    ∀ h owner op len c, s.slotOf h = none → s.Admits op len m → (op, len, c) ∈ [(0x0603, 20, Instr.unloadKey m a h),
      (0x0604, 20, .loadKey m a h), (0x0605, 20, .eraseKeySlot m a h), (0x0606, 20, .rewriteKeySlot m a h),
      (0x0607, 36, .changeOwner m a h owner)] → Gives c s fun u => u.keys = s.keys ∧ u.Answered m op 2 []

/-- R415, R419, R420, R423, R427 and R566: the transport secret, the key store, zeroization, enrolment and lockouts. -/
def Obligations.SecretRequests : Prop :=
  ∀ (s : State) (m : Msg) (a : Arrival), s.Runs →
    (∀ i c, s.Admits 0x0608 52 m → (i = 1 ∨ i = 2) → s.get F.TWN_STAT.PAIRED = 0 → tget (3 - i) s.keys.dtsPart = none →
      Gives (.enterDtsComponent m a i c) s fun u =>
        u.keys.dtsPart = [(i, c, ((s.useToken m).tokenOf m).elim 0 Token.keyid)] ∧ u.keys.dts = s.keys.dts ∧
          u.Answered m 0x0608 0 (chk4 c ++ [0, 0, 0, 0])) ∧
    (∀ i c o, s.Admits 0x0608 52 m → (i = 1 ∨ i = 2) → s.get F.TWN_STAT.PAIRED = 0 → tget (3 - i) s.keys.dtsPart = some o →
      o.2 ≠ ((s.useToken m).tokenOf m).elim 0 Token.keyid → Gives (.enterDtsComponent m a i c) s fun u =>
        u.keys.dtsPart = [] ∧ u.keys.dts = some (o.1 ^^^ c) ∧ u.Answered m 0x0608 0 (chk4 c ++ chk4 (o.1 ^^^ c))) ∧
    (∀ nonce, s.Admits 0x0609 24 m → s.keys.dts.isSome = true → s.leadBytes 12 = some nonce → let no := if s.isTrail then s.freeNo else s.freeNo + 1
      Gives (.exportKeyStore m a 0) s fun u => u.keys.pkgNo = no + 1 ∧ u.Answered m 0x0609 0 (leBytes 8 (Config.free no) ++
        (List.range (min 32736 (Config.free no))).map fun i => Config.freeByte no i)) ∧
    (∀ off total data, s.Admits 0x060A (32 + data.length) m → s.keys.dts.isSome = true → s.hif.ns = [] → s.keys.srkFirst = true →
      off + data.length < total → Gives (.importKeyStore m a off total data) s fun u =>
        u.keys = { s.keys with importBuf := s.keys.importBuf ++ [(off, data)] } ∧ u.Answered m 0x060A 0 []) ∧
    (∀ off total data, s.Admits 0x060A (32 + data.length) m → s.keys.dts.isSome = true → s.hif.ns = [] → s.keys.srkFirst = true →
      off + data.length = total → Gives (.importKeyStore m a off total data) s fun u => u.keys.importBuf = [] ∧
        if Config.free s.freeNo = 0 then u.Answered m 0x060A 8 [] else u.Answered m 0x060A 0 [] ∧ u.inReset = true) ∧
    (∀ v, s.Admits 0x060B 20 m → Gives (.zeroize m a v) s fun u =>
      if v = 0x4F52455A then u.keys = { zeroed := true } ∧ u.inReset = true ∧ u.hif.ctxs = [] ∧ u.mbx.tokens = [] ∧
        u.Answered m 0x060B 0 []
      else u.keys = s.keys ∧ u.Answered m 0x060B 2 []) ∧
    (∀ ns, 10000 ≤ ns → s.Open → Gives (.sanitizeNAssert ns) s fun u =>
      u.keys = { zeroed := true } ∧ u.inReset = true ∧ u.hif.ctxs = [] ∧ u.mbx.tokens = []) ∧
    (∀ ns, ns < 10000 → exec (.sanitizeNAssert ns) s = .next s) ∧
    (∀ x (k : Fin 65536) g alg v, s.get F.TWN_STAT.LINK_UP = 1 → s.joining = true → Gives (.secXfer x k g alg v) s fun u =>
      u.keys.xseq = x ∧ u.kslot k = { s.kslot k with
        alg := alg
        gen := g
        loaded := true
        mat := leBytes (keyLen alg) v.toNat
        wrapped := true }) ∧
    (∀ x (k : Fin 65536) g alg v, s.get F.TWN_STAT.LINK_UP = 1 → s.joining = false → s.isTrail = true →
      (s.keys.need.find? fun e => e.1 == x) = none → Gives (.secXfer x k g alg v) s fun u =>
        u.keys = { s.keys with early := s.keys.early ++ [(x, k.val, g, alg, leBytes (keyLen alg) v.toNat)] }) ∧
    (∀ role key id, s.Admits 0x060C 116 m → (role = 1 ∨ role = 2) →
      (s.keys.auth.filter fun k => k.role == role && k.keyid != keyIdOf key).length < 8 →
      Gives (.enrolAuthenticationKey m a 1 role key id) s fun u =>
        u.keys.auth = (s.keys.auth.filter fun k => !(k.role == role && k.keyid == keyIdOf key)) ++
          [{ role := role, key := key, keyid := keyIdOf key }] ∧ u.sgen = s.sgen + 1 ∧
        u.Answered m 0x060C 0 (leBytes 48 (keyIdOf key).toNat)) ∧
    (∀ role key id, s.Admits 0x060C 68 m → (role = 1 ∨ role = 2) → (s.keys.auth.any fun k => k.role == role && k.keyid == id) = true →
      Gives (.enrolAuthenticationKey m a 2 role key id) s fun u =>
        u.keys.auth = (s.keys.auth.filter fun k => !(k.role == role && k.keyid == id)) ∧ u.sgen = s.sgen + 1 ∧
          u.Answered m 0x060C 0 (leBytes 48 id.toNat)) ∧
    ∀ r, s.Admits 0x060D 20 m → r < 16 → Gives (.clearLockout m a r) s fun u =>
      u.get F.SNF_RGN.LOCKOUT r = 0 ∧ u.get F.SNF_RGN.ATTEMPTS r = 0 ∧ u.Answered m 0x060D 0 []

/-- R422, R424, R474, R475 and R485: challenges, proofs, tokens, blocked channels and self-tests. -/
def Obligations.SessionRequests : Prop :=
  ∀ (s : State) (m : Msg) (a : Arrival), s.Runs →
    (∀ role, s.Admits 0x0001 20 m → (role = 1 ∨ role = 2) → (tget m.chan.val s.mbx.blockAt).isSome = true →
      Gives (.challenge m a role) s fun u => u.mbx.chal = s.mbx.chal ∧ u.Answered m 0x0001 6 []) ∧
    (∀ role b, s.Admits 0x0001 20 m → (role = 1 ∨ role = 2) → tget m.chan.val s.mbx.blockAt = none → s.leadBytes 48 = some b →
      Gives (.challenge m a role) s fun u => tget m.chan.val u.mbx.chal = some (role, BitVec.ofNat 384 (leNat b)) ∧
        u.Answered m 0x0001 0 b) ∧
    (∀ role id sig, s.Admits 0x0002 164 m → (role = 1 ∨ role = 2) → tget m.chan.val s.mbx.blockAt = none →
      (s.proves m role id sig = false → Gives (.prove m a role id sig) s fun u => tget m.chan.val u.mbx.chal = none ∧
        u.Answered m 0x0002 8 [] ∧ u.mbx.tokens = (s.useToken m).mbx.tokens) ∧
      ∀ b, s.proves m role id sig = true → s.leadBytes 4 = some b → Gives (.prove m a role id sig) s fun u =>
        tget m.chan.val u.mbx.chal = none ∧
          u.Answered m 0x0002 0 (leBytes 4 (BitVec.ofNat 32 (leNat b)).toNat ++ leBytes 4 900) ∧
          u.mbx.tokens = (s.useToken m).mbx.tokens ++
            [{ val := BitVec.ofNat 32 (leNat b), chan := m.chan, role := role, keyid := id, used := s.elapsed }]) ∧
    (s.Admits 0x0003 16 m → Gives (.logout m a) s fun u =>
      (∀ t ∈ u.mbx.tokens, ¬ (t.val = m.token ∧ t.chan = m.chan.val)) ∧ u.Answered m 0x0003 0 []) ∧
    (∀ v : BitVec 32, Gives (.tokenLapse v) s fun u => u.mbx.tokens = s.mbx.tokens.filter fun t => t.val != v) ∧
    (∀ c : Fin 8, Gives (.authenticationBlockExpiry c) s fun u =>
      u.get F.MBX_CSR.BLOCKED c = 0 ∧ u.get F.MBX_CSR.FAILS c = 0 ∧ tget c.val u.mbx.blockAt = none) ∧
    (s.Admits 0x0710 16 m → Gives (.moduleSelftest m a 0) s fun u =>
      u.get F.SEC_MODE.MODE = s.get F.SEC_MODE.MODE ∧ u.Answered m 0x0710 0 (leBytes 4 0)) ∧
    ∀ e, s.Admits 0x0710 16 m → 0 < e → e < 256 → Gives (.moduleSelftest m a e) s fun u =>
      u.get F.SEC_MODE.MODE = 3 ∧ u.get F.SEC_MODE.ERRCODE = e ∧ u.Answered m 0x0710 0 (leBytes 4 e)

/-- R463 and R466: requests and responses of the mailbox channels. -/
def Obligations.MailboxChannels : Prop :=
  ∀ s : State, s.Runs →
    (∀ m : Msg, s.get F.MBX_CSR.BUSY m.chan = 1 → Gives (.mailboxGo m) s fun u =>
      u.get F.MBX_CSR.OVERRUN m.chan = 1 ∧ u.mbx = s.mbx) ∧
    (∀ m : Msg, s.get F.MBX_CSR.BUSY m.chan = 0 → Gives (.mailboxGo m) s fun u =>
      u.get F.MBX_CSR.BUSY m.chan = 1 ∧ u.get F.MBX_CSR.RDY m.chan = 0 ∧ tget m.chan.val u.mbx.cur = some m) ∧
    (∀ m : Msg, s.get F.MBX_CSR.BUSY 6 = 0 → Gives (.outOfBandMiCommand m) s fun u =>
      u.get F.MBX_CSR.BUSY 6 = 1 ∧ u.get F.MBX_CSR.RDY 6 = 0 ∧ tget 6 u.mbx.cur = some { m with chan := 6 }) ∧
    ∀ c : Fin 8, Gives (.mailboxDone c) s fun u => u.get F.MBX_CSR.BUSY c = 0 ∧ u.get F.MBX_CSR.RDY c = 1 ∧
      tget c.val u.mbx.rsp = some (s.rspBytes c)

/-- R43, R75 to R77: a command ends: its context is released, and its completion entry goes to the queue of its submission queue
with the queue's phase; while that is full, or holds entries, the entry is held. During a dump nothing is posted (R286). -/
def Obligations.CommandEnds : Prop :=
  ∀ (s : State) (c : Ctx) (r : Cpl) (f : Nat) (q : Sq) (p : Cq), c.tenant = .func f → s.pow.dumping = false →
    tget c.sqid (s.func f).sqs = some q → tget q.cqid (s.func f).cqs = some p →
    (s.finish c r).ctx c.stamp = none ∧
    (tget c.sqid ((s.finish c r).func f).sqs) = some { q with next := q.next + 1 } ∧
    (p.full = true ∨ p.held ≠ [] → (s.finish c r).out = s.out ∧
      (tget q.cqid ((s.finish c r).func f).cqs).map (fun x => x.held.length) = some (p.held.length + 1)) ∧
    (p.full = false → p.held = [] → tget q.cqid ((s.finish c r).func f).cqs = some p.adv ∧
      (s.Sends → s.joining = false → s.twn.frozen = false → s.pairedLead = false →
        s.out ++ [s.cqeOut f q.cqid p
          { sqid := c.sqid, sqhd := q.head, cid := c.cid, dw0 := r.dw0, dw1 := s.dw1Of c.tenant c.sqid q.next r.dw1, sct := r.sct
            sc := r.sc }] <+:
          (s.finish c r).out))

/-- R37 to R39, R42, R45, R75: doorbells and the fetching of commands. -/
def Obligations.DoorbellsAndFetch : Prop :=
  ∀ (s : State) (f : Fin 66) (qid val : Nat), s.Runs →
    (s.get F.CSTS.RDY f = 0 → exec (.sqTailDoorbell f qid val) s = .next s ∧ exec (.cqHeadDoorbell f qid val) s = .next s) ∧
    (s.get F.CSTS.RDY f = 1 →
      (tget qid (s.func f).sqs = none → exec (.sqTailDoorbell f qid val) s = .next (s.badDoorbell f)) ∧
      (tget qid (s.func f).cqs = none → exec (.cqHeadDoorbell f qid val) s = .next (s.badDoorbell f)) ∧
      (∀ q, tget qid (s.func f).sqs = some q → q.size ≤ val → exec (.sqTailDoorbell f qid val) s = .next (s.badDoorbell f)) ∧
      ∀ q, tget qid (s.func f).cqs = some q → q.size ≤ val → exec (.cqHeadDoorbell f qid val) s = .next (s.badDoorbell f)) ∧
    (∀ q, s.get F.CSTS.RDY f = 1 → tget qid (s.func f).sqs = some q → val < q.size → s.Open →
      Gives (.sqTailDoorbell f qid val) s fun u => tget qid (u.func f).sqs = some { q with tail := val }) ∧
    (∀ q, s.get F.CSTS.RDY f = 1 → tget qid (s.func f).sqs = some q → val < q.size → s.isTrail = true →
      exec (.sqTailDoorbell f qid val) s =
        .next { s with twn := { s.twn with ringDoorbells := s.twn.ringDoorbells ++ [(f.val, qid, val)] } }) ∧
    (∀ q, s.get F.CSTS.RDY f = 1 → tget qid (s.func f).cqs = some q → val < q.size → q.held = [] →
      (∀ c ∈ s.hif.ctxs, ∀ k, c.wait ≠ .sqDrain k) → Gives (.cqHeadDoorbell f qid val) s fun u => tget qid (u.func f).cqs = some { q with head := val } ∧ u.out = s.out) ∧
    (∀ q cid (op : SqeHead) nsid, tget qid (s.func f).sqs = some q → q.head ≠ q.tail → s.mayFetch f qid op.opcode = true →
      s.ctx s.hif.nextStamp = none → opcodeKnown (qid == 0) op.opcode = true →
      (qid ≠ 0 ∨ actionOk op.opcode op.cdw10.toNat = true) → s.bootState ≠ 7 → s.arb.outcast = false →
      GivesThen State.fabricTurns (.commandFetch f qid cid op nsid) s fun u => u.hif.nextStamp = s.hif.nextStamp + 1 ∧
        tget qid (u.func f).sqs = some { q with head := (q.head + 1) % q.size } ∧
        ∃ c, u.Fetched s.hif.nextStamp c ∧ c.tenant = .func f ∧ c.sqid = qid ∧ c.cid = cid ∧ c.opcode = op.opcode ∧ c.nsid = nsid) ∧
    (∀ q cid (op : SqeHead) nsid, tget qid (s.func f).sqs = some q → (q.head = q.tail ∨ s.queueTurn f qid = false) →
      exec (.commandFetch f qid cid op nsid) s = .next s) ∧
    (∀ q cid (op : SqeHead) nsid, tget qid (s.func f).sqs = some q → q.head ≠ q.tail → s.queueTurn f qid = true → s.mayFetch f qid op.opcode = false →
      GivesThen State.fabricTurns (.commandFetch f qid cid op nsid) s fun u => tget qid (u.func f).sqs = some q ∧
        u.hif.turn = f ∧ u.hif.turnLeft = 0 ∧ u.hif.nextStamp = s.hif.nextStamp) ∧
    ∀ q cid (op : SqeHead) nsid, tget qid (s.func f).sqs = some q → q.head ≠ q.tail → s.mayFetch f qid op.opcode = true →
      (opcodeKnown (qid == 0) op.opcode = false ∨ (qid = 0 ∧ actionOk op.opcode op.cdw10.toNat = false)) → s.pow.dumping = false → s.ctx s.hif.nextStamp = none →
      GivesThen State.fabricTurns (.commandFetch f qid cid op nsid) s fun u => u.hif.nextStamp = s.hif.nextStamp + 1 ∧ u.ctx s.hif.nextStamp = none

/-- R38, R41, R57, R59, R65, R81 and R465: enable, resets, shutdown, ports and failed transfers. -/
def Obligations.ControllerResets : Prop :=
  ∀ (s : State) (f : Fin 66), s.Runs →
    (∀ cc, s.funcUp f = true → s.get F.CC.EN f = 0 → Gives (.controllerEnable f cc) s fun u => u.get F.CC.EN f = 1 ∧
      (u.func f).sqs = [(0, { base := s.reg .ASQ f, size := s.get F.AQA.ASQS f + 1, cqid := 0, prio := 0 })] ∧
      (s.straps.testEn = false → s.bootState = 6 → u.get F.CSTS.RDY f = 1)) ∧
    (∀ cc, (s.funcUp f = false ∨ s.get F.CC.EN f = 1) → exec (.controllerEnable f cc) s = .next s) ∧
    (∀ cc, s.get F.CC.EN f = 1 → GivesThen State.flow (.controllerReset f cc) s fun u =>
      u.get F.CC.EN f = 0 ∧ u.reg .CSTS f = 0 ∧ u.func f = {} ∧ u.NoCtx (.func f)) ∧
    (s.funcUp f = true → GivesThen State.flow (.functionLevelReset f) s fun u =>
      u.reg .CC f = 0 ∧ u.reg .CSTS f = 0 ∧ u.reg .AQA f = 0 ∧ u.reg .ASQ f = 0 ∧ u.reg .ACQ f = 0 ∧ u.func f = {} ∧
        u.NoCtx (.func f)) ∧
    (s.funcUp f = true → GivesThen State.flow (.nvmSubsystemReset f) s fun u => ∀ k, k < 66 → s.funcUp k = true →
      u.get F.CC.EN k = 0 ∧ u.get F.CSTS.NSSRO k = 1 ∧ u.get F.CSTS.RDY k = 0 ∧ u.func k = {} ∧ u.NoCtx (.func k)) ∧
    (∀ p : Fin 2, GivesThen State.flow (.conventionalReset p) s fun u => ∀ k, k < 66 → s.funcUp k = true → s.fnPort k = p.val →
      u.reg .CC k = 0 ∧ u.reg .CSTS k = 0 ∧ u.func k = {} ∧ u.NoCtx (.func k) ∧ tgetD p.val 0 u.hif.numVfs = 0) ∧
    (∀ b : Bool, s.get F.CC.EN f = 1 → GivesThen (fun u => (u.closeJournal.closeCovered).flow) (.shutdownNotification f b) s fun u =>
      u.get F.CC.SHN f = (if b then 2 else 1) ∧ u.get F.CSTS.SHST f = 1 ∧ tget f.val u.hif.shutdown = some s.elapsed) ∧
    (∀ p : Fin 2, Gives (.pcieLinkDown p) s fun u => tget p.val u.hif.linkUp = some false) ∧
    (∀ p : Fin 2, Gives (.pcieLinkUp p) s fun u => tget p.val u.hif.linkUp = some true) ∧
    (∀ (p : Fin 2) (n : Nat) (on : Bool), n ≤ (if s.straps.linkMode then 32 else if p = 0 then 64 else 0) →
      GivesThen State.flow (.numvfsChange p n on) s fun u =>
        tget p.val u.hif.numVfs = some n ∧ tget p.val u.hif.vfEnable = some on) ∧
    ∀ (t : BitVec 64) (x : Instr), x ∈ [Instr.pcieCompletionTimeout t, .poisonedCompletion t] →
      (s.ctx t = none → exec x s = .next s) ∧
      (∀ c, s.ctx t = some c → s.pow.dumping = false → GivesThen State.flow x s fun u =>
        u.ctx t = none ∧ (u.hif.err.head?.map fun e => (e.sct, e.sc)) = some (0, 4))

/-- R38, R40, R46, R53 to R56, R71 and R74: queues, Abort and asynchronous event requests. -/
def Obligations.QueueCommands : Prop :=
  ∀ (s : State) (t : BitVec 64) (c : Ctx), s.Fetched t c →
    (∀ f qid size cqid prio base, c.tenant = .func f → qid ≠ 0 → qid ≤ s.granted c.tenant true → tget qid (s.func f).sqs = none →
      2 ≤ size → size ≤ 65536 → s.get F.CC.IOSQES f = 6 → cqid ≠ 0 → (tget cqid (s.func f).cqs).isSome = true →
      GivesThen (fun u => u.succeed c) (.createIoSubmissionQueue t qid size cqid prio true base) s fun u =>
        tget qid (u.func f).sqs = some { base := base, size := size, cqid := cqid, prio := prio }) ∧
    (∀ f qid size vector ien b0 b1, c.tenant = .func f → qid ≠ 0 → qid ≤ s.granted c.tenant false →
      tget qid (s.func f).cqs = none → 2 ≤ size → size ≤ 65536 → s.get F.CC.IOCQES f = 4 → (ien = true → vector < s.vectors f) →
      GivesThen (fun u => u.succeed c) (.createIoCompletionQueue t qid size vector ien true b0 b1) s fun u =>
        tget qid (u.func f).cqs = some { base0 := b0, base1 := b1, size := size, vector := vector, ien := ien }) ∧
    (∀ f qid q, c.tenant = .func f → qid ≠ 0 → tget qid (s.func f).sqs = some q → c.sqid ≠ qid → s.pow.dumping = false →
      s.staged = false → (s.abortQueue f qid).cqHolds f qid = true → Gives (.deleteIoSubmissionQueue t qid) s fun u =>
        tget qid (u.func f).sqs = none ∧ (u.ctx t).map (fun x => x.wait) = some (.sqDrain qid)) ∧
    (∀ f qid q, c.tenant = .func f → qid ≠ 0 → tget qid (s.func f).sqs = some q → s.pow.dumping = false →
      (s.staged = true ∨ (s.abortQueue f qid).cqHolds f qid = false) →
      GivesThen (fun u => (u.succeed c).flow) (.deleteIoSubmissionQueue t qid) s fun u => tget qid (u.func f).sqs = none ∧
        ∀ x ∈ u.hif.ctxs, x.tenant = .func f → x.sqid ≠ qid) ∧
    (∀ a, c.tenant = .assoc a → GivesThen State.flow (.deleteIoSubmissionQueue t 0) s fun u =>
      tget a u.fab.assocs = none ∧ u.NoCtx (.assoc a)) ∧
    (∀ f qid q, c.tenant = .func f → qid ≠ 0 → tget qid (s.func f).cqs = some q →
      if ((s.func f).sqs.any fun e => e.2.cqid == qid) = true then exec (.deleteIoCompletionQueue t qid) s = .next (s.fail c 1 0x0C)
      else GivesThen (fun u => u.succeed c) (.deleteIoCompletionQueue t qid) s fun u => tget qid (u.func f).cqs = none) ∧
    (∀ q i, exec (.abort t q i) s = .next (if 4 ≤ (s.hif.ctxs.filter fun x => x.tenant == c.tenant && x.admin && x.opcode == 0x08 &&
      decide (x.stamp.toNat < c.stamp.toNat)).length then s.fail c 1 0x03 else s.succeed c 1)) ∧
    ((s.hif.ctxs.filter fun x => x.tenant == c.tenant && x.wait == .aer).length < 16 → (s.ctl c.tenant).evHeld = [] →
      Gives (.asynchronousEventRequest t) s fun u => (u.ctx t).map (fun x => x.wait) = some .aer ∧ u.out = s.out) ∧
    (16 ≤ (s.hif.ctxs.filter fun x => x.tenant == c.tenant && x.wait == .aer).length →
      exec (.asynchronousEventRequest t) s = .next (s.fail c 1 0x05))

/-- R38, R48, R258, R311 and R466: features, and NVMe-MI inside NVMe. -/
def Obligations.FeatureCommands : Prop :=
  ∀ (s : State) (t : BitVec 64) (c : Ctx), s.Fetched t c →
    (∀ v ts, GivesThen (fun u => u.succeed c) (.setFeatures t 0x0B v ts) s fun u => (u.ctl c.tenant).aecOn = v) ∧
    (∀ fid v ts, fid ∈ [0x01, 0x08, 0x09, 0x0A] → GivesThen (fun u => u.succeed c) (.setFeatures t fid v ts) s fun u =>
      tget (featKey fid v) (u.ctl c.tenant).feat = some v) ∧
    (∀ v (ts : BitVec 64), GivesThen (fun u => u.succeed c) (.setFeatures t 0x0E v ts) s fun u =>
      u.dtime = BitVec.ofNat 64 (ts.toNat % 2 ^ 48 * 1000) ∧ u.pow.synch = false ∧
        u.epoch = if ts.toNat % 2 ^ 48 * 1000 < s.dtime.toNat then s.epoch + 1 else s.epoch) ∧
    (∀ f nsq ncq ts, c.tenant = .func f → (s.func f).sqs.length ≤ 1 → (s.func f).cqs.length ≤ 1 → nsq < 65535 → ncq < 65535 →
      let v := min nsq (s.queueLimit c.tenant - 1) + 65536 * min ncq (s.queueLimit c.tenant - 1)
      GivesThen (fun u => u.succeed c (BitVec.ofNat 32 v)) (.setFeatures t 0x07 (BitVec.ofNat 32 (nsq + 65536 * ncq)) ts) s fun u =>
        (u.ctl c.tenant).granted = some v) ∧
    (∀ fid v ts, featureKnown fid = false → exec (.setFeatures t fid v ts) s = .next (s.fail c 0 0x02) ∧
      exec (.getFeatures t fid v) s = .next (s.fail c 0 0x02)) ∧
    (∀ fid v, featureKnown fid = true → fid ≠ 0x0E → exec (.getFeatures t fid v) s = .next (s.succeed c (s.featValue c fid v))) ∧
    (∀ v, exec (.getFeatures t 0x0E v) s =
      .next ((s.dataTo c (leBytes 6 (s.dtime.toNat / 1000) ++ [if s.pow.synch then 1 else 0, 0])).succeed c)) ∧
    (∀ o m, s.miOk c o = true → s.get F.MBX_CSR.BUSY 7 = 0 → GivesThen (fun u => u.succeed c) (.nvmeMiSend t o m) s fun u =>
      u.get F.MBX_CSR.BUSY 7 = 1 ∧ tget 7 u.mbx.cur = some { m with chan := 7 }) ∧
    (∀ o, s.miOk c o = true → s.get F.MBX_CSR.RDY 7 = 0 → Gives (.nvmeMiReceive t o) s fun u =>
      u.hif.miPending = s.hif.miPending ++ [t] ∧ (u.ctx t).map (fun x => x.wait) = some .mi) ∧
    (∀ o, s.miOk c o = true → s.get F.MBX_CSR.RDY 7 = 1 → s.hif.miPending = [] → s.pow.dumping = false →
      Gives (.nvmeMiReceive t o) s fun u => u.hif.miPending = [] ∧ u.ctx t = none) ∧
    ∀ o m, s.miOk c o = false → exec (.nvmeMiSend t o m) s = .next (s.fail c 0 0x01) ∧
      exec (.nvmeMiReceive t o) s = .next (s.fail c 0 0x01)

/-- R14, R15, R85, R125, R135 and R280: a write that passes its checks is charged; a function's data, and what came in a capsule, is staged and
its completion posted, where no bale of it is merged; one of a merge that meets a block it cannot deliver ends with that block's status; other
data of an association waits for its RDMA Read, which ends in staging as well or, alone, in a failure. -/
def Obligations.WriteCommands : Prop :=
  ∀ (s : State) (t : BitVec 64) (nsid slba : Nat) (blocks : List BlockData) (ns : Ns), s.nsOf nsid = some ns →
    let staged (w : Nat) (l : List BlockData) : List Staged := (l.map (stageBlock ns)).zipIdx.map fun b =>
      { nsid := nsid
        bale := (slba + b.2) / blocksPerBale ns.lbaf
        blk := (slba + b.2) % blocksPerBale ns.lbaf
        stamp := t
        data := b.1
        w := w }
    (∀ c io, s.Fetched t c → (s.argsCheck c nsid slba io).or (s.ioCheck c nsid slba blocks.length mdts) = none →
      s.nonceShort ns (s.nonceNeed ns slba blocks.length) = false → elsizeOk ns io.elsize = true → s.roFor t = false →
      s.admits (chargeSum (chargesOf ns nsid t slba blocks.length)) = true →
      ((∃ f, c.tenant = .func f) ∨ 0 < c.inCap →
        (blocksBad ns io blocks = none → s.mergeLbas ns nsid slba blocks.length = [] →
          GivesThen (fun u => (u.succeed c).flow) (.write t nsid slba io blocks) s fun u =>
            u.map.overlay = s.map.overlay ++ staged (elShuffle ns io.elsize) (takenBlocks ns io blocks) ∧
              u.map.charges = s.map.charges ++ chargesOf ns nsid t slba blocks.length ∧ u.hif.writeCmds = s.hif.writeCmds + 1) ∧
        ∀ r, blocksBad ns io blocks = some r →
          GivesThen (fun u => (u.fail c r.1 r.2).flow) (.write t nsid slba io blocks) s fun u =>
            u.map.overlay = s.map.overlay ∧ u.map.entries = s.map.entries ∧ u.map.patches = s.map.patches) ∧
      (∀ f, c.tenant = .func f → blocksBad ns io blocks = none → ∀ e,
        let u := (s.charged ns nsid t slba blocks.length).fetchBlocks f ns blocks.length
        let v := u.readPacks ns nsid (u.mergeLbas ns nsid slba blocks.length)
        (State.readSpan v ns nsid slba {} (faultAt io.merge) v (u.mergeLbas ns nsid slba blocks.length)).2.2 = some e →
        ∃ x, exec (.write t nsid slba io blocks) s =
          .next (((x : State).unchargeAll t).finish c { dw0 := e.2.2, sct := e.1, sc := e.2.1 }).flow) ∧
      ∀ a, c.tenant = .assoc a → c.inCap = 0 → Gives (.write t nsid slba io blocks) s fun u => ∃ sent,
        (u.ctx t).map (fun x => x.wait) = some (.rdma { blocks := blocks, nsid := nsid, slba := slba, w := elShuffle ns io.elsize, io := io
                                                        len := blocks.length * blockBytes ns.lbaf + mdBytes ns blocks.length, sent := sent }) ∧
          u.map.overlay = s.map.overlay ∧ u.map.charges = s.map.charges ++ chargesOf ns nsid t slba blocks.length) ∧
    (∀ c (x : FabWrite), s.Runs → s.ctx t = some c → c.wait = .rdma x → x.nsid = nsid → x.slba = slba → x.blocks = blocks →
      (blocksBad ns x.io blocks = none → s.mergeLbas ns nsid slba blocks.length = [] →
        GivesThen (fun u => ((u.succeed c).flow).rdmaGo c.sqid) (.rdmaReadComplete t) s fun u =>
          u.map.overlay = s.map.overlay ++ staged x.w (takenBlocks ns x.io blocks) ∧ u.hif.writeCmds = s.hif.writeCmds + 1) ∧
      ∀ r, blocksBad ns x.io blocks = some r →
        GivesThen (fun u => ((u.fail c r.1 r.2).flow).rdmaGo c.sqid) (.rdmaReadComplete t) s fun u => u.map.overlay = s.map.overlay) ∧
    (∀ c x, s.Runs → s.ctx t = some c → c.wait = .rdma x → s.get F.TWN_STAT.PAIRED = 0 → s.pow.dumping = false →
      GivesThen (fun u => u.flow.rdmaGo c.sqid) (.rdmaReadFailed t) s fun u => u.ctx t = none ∧ u.map.overlay = s.map.overlay ∧
        ∀ x ∈ u.map.charges, x.stamp ≠ t) ∧
    (∀ c x q, s.Runs → s.ctx t = some c → c.wait = .rdma x → s.get F.TWN_STAT.PAIRED = 1 →
      tget c.sqid s.fab.qps = some q → q.qid ≠ 0 → s.Open →
      Gives (.rdmaReadFailed t) s fun u => u.map.overlay = s.map.overlay ∧ (u.ctx t).map (fun x => x.wait) = some c.wait ∧
        (tget c.sqid u.fab.qps).map (fun x => x.err) = some true) ∧
    ∀ x, s.Runs → s.ctx t = none → x ∈ [Instr.rdmaReadComplete t, .rdmaReadFailed t] → exec x s = .next s

/-- R280, R310, R60 and R412: a command that fails its checks ends with the status of the first that fails, and does nothing else. -/
def Obligations.CommandChecks : Prop :=
  ∀ (s : State) (t : BitVec 64) (c : Ctx) (nsid slba n : Nat) (r : Nat × Nat), s.Fetched t c →
    (∀ io blocks faults, blocks.length = n → (s.argsCheck c nsid slba io).or (s.ioCheck c nsid slba n mdts) = some r →
      exec (.write t nsid slba io blocks) s = .next (s.fail c r.1 r.2) ∧
        exec (.read t nsid ⟨slba, n⟩ io faults) s = .next (s.fail c r.1 r.2)) ∧
    (∀ io faults, (s.argsCheck c nsid slba io).or (s.ioCheck c nsid slba n noLimit) = some r →
      exec (.verify t nsid ⟨slba, n⟩ io faults) s = .next (s.fail c r.1 r.2)) ∧
    (∀ io, (s.argsCheck c nsid slba io).or (s.ioCheck c nsid slba n noLimit) = some r →
      exec (.writeZeroes t nsid ⟨slba, n⟩ io) s = .next (s.fail c r.1 r.2)) ∧
    (nsid ≠ 0xFFFFFFFF → s.ioCheck c nsid 0 1 noLimit = some r → exec (.flush t nsid) s = .next (s.fail c r.1 r.2)) ∧
    (∀ ns bale len h f, s.nsOf nsid = some ns → (len < 1024 ∨ mdts < len) → exec (.rawBaleRead t nsid bale len h false f) s = .next (s.fail c 0 0x02)) ∧
    (s.nsOf nsid = none → (∀ l prot, exec (.namespaceAttach t nsid l) s = .next (s.fail c 0 0x0B) ∧
      exec (.namespaceDetach t nsid l) s = .next (s.fail c 0 0x0B) ∧
      (nsid ≠ 0xFFFFFFFF → exec (.namespaceDelete t nsid) s = .next (s.fail c 0 0x0B) ∧
        exec (.formatNvm t nsid 0 0 prot) s = .next (s.fail c 0 0x0B)))) ∧
    (s.inProgress = true → exec (.sanitizeBlockErase t) s = .next (s.fail c 0 0x1D) ∧
      exec (.sanitizeCryptoErase t) s = .next (s.fail c 0 0x1D)) ∧
    (∀ lid off len rae, s.logBytes c.tenant lid = none → exec (.getLogPage t lid off len rae) s = .next (s.fail c 1 0x09)) ∧
    (∀ lid off len rae b, s.logBytes c.tenant lid = some b → (b.length < off ∨ mdts < len) →
      exec (.getLogPage t lid off len rae) s = .next (s.fail c 0 0x02)) ∧
    ∀ cns, s.identBytes c cns nsid = none → exec (.identify t cns nsid) s = .next (s.fail c 0 0x02)

/-- R117, R119, R130, R157, R264 and R645: the read and the Verify of one block that is staged, zero or poisoned, once its map page is in the
cache. -/
def Obligations.ReadCommands : Prop :=
  ∀ (s : State) (t : BitVec 64) (c : Ctx) (nsid slba : Nat) (ns : Ns), s.Fetched t c → s.nsOf nsid = some ns →
    s.ioCheck c nsid slba 1 mdts = none → s.ioCheck c nsid slba 1 noLimit = none →
    let r := s.resolve nsid (slba / blocksPerBale ns.lbaf) (slba % blocksPerBale ns.lbaf)
    let s0 := s.readPacks ns nsid [slba]
    (∀ io, s.argsCheck c nsid slba io = none → s.pageReady (mapPageOf ns nsid slba) = false →
      Gives (.read t nsid ⟨slba, 1⟩ io []) s fun u => (u.ctx t).map (fun x => x.wait) = some (.page (.blocks nsid slba 1 io [] true)) ∧
        mapPageOf ns nsid slba ∈ u.map.missOrder ∧ u.out = s.out) ∧
    (∀ (b : BlockData) (io : IoArgs), s.argsCheck c nsid slba io = none → s.pageReady (mapPageOf ns nsid slba) = true →
        ((∃ x, r = .overlay x ∧ b = x.data ∧ piCheck ns io 0 b = none) ∨
          ∃ e, r = .entry e ∧ entryOk ns.sealed e = true ∧ ent 51 51 e = 0 ∧ ent 48 42 e = 0 ∧ b = zeroBlock ns) →
      exec (.verify t nsid ⟨slba, 1⟩ io []) s = .next ((s0.succeed c).flow) ∧
      ∀ f, c.tenant = .func f → GivesThen (fun u => (u.endRead c io.peer).flow) (.read t nsid ⟨slba, 1⟩ io []) s fun u =>
        u.hif.readCmds = s.hif.readCmds + 1 ∧ u.map = s0.map ∧
          (s.Sends → s.joining = false → s.twn.frozen = false → s.pairedLead = false →
            s0.out ++ (if ns.meta64 = false ∨ ns.mext = true then [Out.hostData f c.cid (b.data ++ b.md)]
              else [.hostData f c.cid b.data, .hostData f c.cid b.md]) <+: u.out)) ∧
    (∀ (b : BlockData) (io : IoArgs) (x : Nat × Nat), s.argsCheck c nsid slba io = none → s.pageReady (mapPageOf ns nsid slba) = true →
      piCheck ns io 0 b = some x →
      (∃ y, r = .overlay y ∧ b = y.data) →
      exec (.read t nsid ⟨slba, 1⟩ io []) s = .next ((s0.finish c { sct := x.1, sc := x.2 }).flow)) ∧
    ∀ e io, r = .entry e → s.argsCheck c nsid slba io = none → s.pageReady (mapPageOf ns nsid slba) = true → entryOk ns.sealed e = true → ent 51 51 e = 1 →
      exec (.read t nsid ⟨slba, 1⟩ io []) s = .next ((s0.finish c { sct := 7, sc := 0xC5 }).flow) ∧
        exec (.verify t nsid ⟨slba, 1⟩ io []) s = .next ((s0.finish c { sct := 7, sc := 0xC5 }).flow)

/-- R50, R52, R130 and R168: zeros and deallocation of a whole bale, Flush, and the raw read of a bale that stores nothing. -/
def Obligations.ZeroFlushRaw : Prop :=
  ∀ (s : State) (t : BitVec 64) (c : Ctx) (nsid bale : Nat) (ns : Ns), s.Fetched t c → s.nsOf nsid = some ns →
    let bpb := blocksPerBale ns.lbaf
    (s.ioCheck c nsid (bale * bpb) bpb noLimit = none → s.zeroCheck c = none → s.nonceShort ns (s.nonceNeed ns (bale * bpb) bpb) = false →
      (∃ b ∈ s.baleBlocks nsid, s.outdated nsid bale b t = false) →
      (∀ b ∈ s.baleBlocks nsid, s.outdated nsid bale b t = true → (s.patch nsid bale b).isSome = true) →
      ∀ x, ((∃ io, s.argsCheck c nsid (bale * bpb) io = none ∧ x = .writeZeroes t nsid ⟨bale * bpb, bpb⟩ io) ∨
          (x = .datasetManagement t nsid true [(bale * bpb, bpb)] ∧ s.ioCheck c nsid 0 1 noLimit = none)) →
        GivesThen (fun u => (u.succeed c).flow) x s fun u => ent 52 0 (u.entry nsid bale) = 2 ^ 49) ∧
    (∀ l, l ≠ [] → l.length ≤ 256 → s.ioCheck c nsid 0 1 noLimit = none → s.dsmCheck c nsid l = none →
      exec (.datasetManagement t nsid false l) s = .next (s.succeed c)) ∧
    (∀ d, exec (.datasetManagement t nsid d []) s = .next (s.fail c 0 0x02)) ∧
    (s.ioCheck c nsid 0 1 noLimit = none → GivesThen (fun u => u.closeCovered.flow) (.flush t nsid) s fun u =>
      (u.ctx t).map (fun x => x.wait) = some (.flush t nsid)) ∧
    ∀ len h f, 1024 ≤ len → len ≤ mdts → s.nsRefused c nsid = false → (ns.sealed = true → s.keyOk c.tenant ns = true) → bale * bpb < ns.nsze →
      s.pageReady (mpnOf nsid bale) = true → entryOk ns.sealed (s.entry nsid bale) = true → ent 51 51 (s.entry nsid bale) = 0 → ent 48 42 (s.entry nsid bale) = 0 →
      exec (.rawBaleRead t nsid bale len h false f) s = .next ((s.dataTo c (List.replicate 1024 0)).finish c
        { dw0 := BitVec.ofNat 32 (s.entry nsid bale).toNat, dw1 := some (BitVec.ofNat 32 ((s.entry nsid bale).toNat / 2 ^ 32)) })

/-- R46, R49, R60, R107, R132, R138, R309, R310: namespaces, Format, Sanitize and device self-tests. -/
def Obligations.NamespaceCommands : Prop :=
  ∀ (s : State) (t : BitVec 64) (c : Ctx), s.Fetched t c →
    (∀ (x : NsCreate) nsid k, createCheck x = none → s.health.readOnly = false →
      s.logProv + x.nsze * blockBytes x.lbaf ≤ 2 * s.capU * 1024 → s.freeNsid = some nsid → x.keyref ≠ 0 → s.slotOf x.keyref = some k →
      (s.kslot k).alg = (if x.flags.getLsbD 1 then 2 else 1) →
      GivesThen (fun u => (u.succeed c (BitVec.ofNat 32 nsid)).flow) (.namespaceCreate t x) s fun u =>
        u.sgen = s.sgen + 1 ∧ u.instOf nsid = s.instOf nsid + 1 ∧ (u.nsOf nsid).map (fun n => (n.nsze, n.lbaf, n.meta64, n.tolerance, n.raw,
          n.sealed, n.keyref, n.inst, n.funcs, n.pi, n.piFirst, n.mext)) = some (x.nsze, x.lbaf, x.meta64, x.nskind == 1, x.flags.getLsbD 0, x.flags.getLsbD 1, x.keyref,
          s.instOf nsid + 1, [], x.pi, x.piFirst, x.mext)) ∧
    (∀ x r, createCheck x = some r → exec (.namespaceCreate t x) s = .next (s.fail c r.1 r.2)) ∧
    (∀ x, createCheck x = none → s.keyrefCheck x = none → s.health.readOnly = false → 2 * s.capU * 1024 < s.logProv + x.nsze * blockBytes x.lbaf →
      exec (.namespaceCreate t x) s = .next (s.fail c 1 0x15)) ∧
    (∀ nsid ns, s.nsOf nsid = some ns → 1 ≤ nsid → nsid ≤ 4096 →
      (GivesThen (fun u => (u.succeed c).flow) (.namespaceDelete t nsid) s fun u =>
        u.nsOf nsid = none ∧ u.sgen = s.sgen + 1 ∧ ∀ b, b < 2 ^ 37 → u.entry nsid b = 0) ∧
      (∀ l : List (Fin 128), (∀ f ∈ l, f.val ∉ ns.funcs) → GivesThen (fun u => u.succeed c) (.namespaceAttach t nsid l) s fun u =>
        u.nsOf nsid = some { ns with funcs := ns.funcs ++ (l.map Fin.val).eraseDups } ∧ u.sgen = s.sgen + 1) ∧
      (∀ l : List (Fin 128), (∃ f ∈ l, f.val ∈ ns.funcs) → exec (.namespaceAttach t nsid l) s = .next (s.fail c 1 0x18)) ∧
      (∀ l : List (Fin 128), (∀ f ∈ l, f.val ∈ ns.funcs) → GivesThen State.flow (.namespaceDetach t nsid l) s fun u =>
        (u.ctx t).map (fun x => x.wait) = some (.detach nsid (l.map Fin.val)) ∧ u.nsOf nsid = some ns ∧ u.sgen = s.sgen + 1) ∧
      (∀ l : List (Fin 128), (∃ f ∈ l, f.val ∉ ns.funcs) → exec (.namespaceDetach t nsid l) s = .next (s.fail c 1 0x1A)) ∧
      ∀ lbaf ses (prot : FormatProt), ses ≤ 2 → lbaf ≤ 1 → ¬ (ns.tolerance = true ∧ prot.meta64 = true) → piOk prot.pi prot.meta64 = true → s.inProgress = false →
        Gives (.formatNvm t nsid lbaf ses prot) s fun u => (∀ x ∈ u.hif.ctxs, x.stamp = t → x.wait = .progress) ∧ u.sgen = s.sgen + 1 ∧
          u.pow.progress.map (fun p => (p.op, p.ses, p.state, p.nsid)) = some (3, ses, 1, nsid) ∧
          (u.nsOf nsid).map (fun n => (n.nsze, n.lbaf, n.meta64, n.pi, n.piFirst, n.mext)) =
            some (ns.nsze * blockBytes ns.lbaf / blockBytes lbaf, lbaf, prot.meta64, prot.pi, prot.piFirst, prot.mext)) ∧
    (∀ op x, (op, x) ∈ [(1, Instr.sanitizeBlockErase t), (2, .sanitizeCryptoErase t)] → s.inProgress = false →
      GivesThen (fun u => u.succeed c) x s fun u =>
        u.pow.progress.map (fun p => (p.op, p.state, p.nsid)) = some (op, 1, 0xFFFFFFFF) ∧ u.map = s.map) ∧
    ∀ nsid code pass x, (code, x) ∈ [(1, Instr.deviceSelfTestShort t nsid pass), (2, .deviceSelfTestExtended t nsid pass)] →
      if nsid ≠ 0 ∧ nsid ≠ 0xFFFFFFFF ∧ s.nsOf nsid = none then exec x s = .next (s.fail c 0 0x0B)
      else GivesThen (fun u => u.succeed c) x s fun u =>
        u.hif.selfTest = ((code, pass, nsid) :: s.hif.selfTest).take 20

/-- R46: log pages and Identify structures go to the host as far as the command asks for them. -/
def Obligations.LogAndIdentify : Prop :=
  ∀ (s : State) (t : BitVec 64) (c : Ctx) (b : Bytes), s.Fetched t c →
    (∀ lid off len, s.logBytes c.tenant lid = some b → off ≤ b.length → len ≤ mdts →
      exec (.getLogPage t lid off len true) s = .next ((s.drawn.dataTo c ((b.drop off).take len)).succeed c) ∧
        exec (.getLogPage t lid off len false) s =
          .next (((s.drawn.dataTo c ((b.drop off).take len)).logRead c.tenant lid).succeed c)) ∧
    (∀ cns nsid, s.identBytes c cns nsid = some b → (cns ∉ [0x00, 0x03, 0x11, 0x12] ∨ (1 ≤ nsid ∧ nsid ≤ 4096) ∨ (cns = 0x00 ∧ nsid = 0xFFFFFFFF)) →
      exec (.identify t cns nsid) s = .next ((s.dataTo c b).succeed c)) ∧
    ∀ cns nsid, s.identBytes c cns nsid = some b → cns ∈ [0x00, 0x03, 0x11, 0x12] → (nsid = 0 ∨ 4096 < nsid) →
      ¬ (cns = 0x00 ∧ nsid = 0xFFFFFFFF) →
      exec (.identify t cns nsid) s = .next (s.fail c 0 0x0B)

/-- R83, R91, R92, R97, R99, R101 and R103: Connect, Disconnect, the Keep Alive timer, the Ethernet links, and discovery. -/
def Obligations.FabricConnections : Prop :=
  ∀ s : State, s.Runs →
    (∀ qpn r, s.connectOk qpn r = false → s.Sends → Gives (.connect qpn r) s fun u => u.fab = s.fab ∧
      u.out = s.out ++ [.capsule r.port qpn 0 0 0 (BitVec.ofNat 32 (s.straps.twinId.toNat + 2 * s.twinMode.toNat)) 1 0x82 none]) ∧
    (∀ qpn (r : ConnectReq), s.connectOk qpn r = true → (r.discovery = true ∨ s.isTrail = true ∨ s.Open) → Gives (.connect qpn r) s fun u =>
      tget qpn u.fab.qps = some
        { port := r.port, assoc := r.assoc, qid := r.qid, size := r.size, rc := lineRate, rt := lineRate, alpha := { m := 1 }, mtu := r.mtu } ∧
      (r.qid = 0 → tget r.assoc u.fab.assocs = some { port := r.port, group := r.group.map Fin.val, discovery := r.discovery }) ∧
      (r.qid ≠ 0 → u.fab.assocs = s.fab.assocs)) ∧
    (∀ a, tget a s.fab.assocs = none → exec (.disconnect a) s = .next s ∧ exec (.keepAliveExpiry a) s = .next s) ∧
    (∀ a x, tget a s.fab.assocs = some x → x.discovery = true → Gives (.disconnect a) s fun u =>
      tget a u.fab.assocs = none ∧ u.NoCtx (.assoc a) ∧ ∀ q ∈ u.fab.qps, q.2.assoc ≠ a) ∧
    (∀ a x, tget a s.fab.assocs = some x → x.discovery = false → (s.Open ∨ s.adminQp a = none) →
      GivesThen State.flow (.disconnect a) s fun u => tget a u.fab.assocs = none ∧ u.NoCtx (.assoc a) ∧ ∀ q ∈ u.fab.qps, q.2.assoc ≠ a) ∧
    (∀ a x, tget a s.fab.assocs = some x → s.hif.activating = none →
      (x.discovery = true → Gives (.keepAliveExpiry a) s fun u =>
        tget a u.fab.assocs = none ∧ u.NoCtx (.assoc a) ∧ ∀ q ∈ u.fab.qps, q.2.assoc ≠ a) ∧
      (x.discovery = false → s.isTrail = true → exec (.keepAliveExpiry a) s = .next (s.raise 194)) ∧
      (x.discovery = false → s.isTrail = false → (s.Open ∨ s.adminQp a = none) → GivesThen State.flow (.keepAliveExpiry a) s fun u =>
        tget a u.fab.assocs = none ∧ u.NoCtx (.assoc a) ∧ ∀ q ∈ u.fab.qps, q.2.assoc ≠ a)) ∧
    (∀ a, s.hif.activating.isSome = true → exec (.keepAliveExpiry a) s = .next s) ∧
    (∀ p : Fin 2, Gives (.ethernetLinkDown p) s fun u => u.get F.FAB_PSTAT.LINK_UP p = 0 ∧ u.get F.FAB_PSTAT.LINK_CHG p = 1 ∧ u.fab = s.fab) ∧
    (∀ p : Fin 2, Gives (.ethernetLinkUp p) s fun u => u.get F.FAB_PSTAT.LINK_UP p = 1 ∧ u.get F.FAB_PSTAT.LINK_CHG p = 1 ∧ u.fab = s.fab) ∧
    ∀ p : Fin 2, s.Sends → Gives (.discoveryCommand p) s fun u => ∃ b : Bytes, u.out = s.out ++ [.discovery p b] ∧
      (b.drop 8).take 8 = leBytes 8 (if s.twinMode then 4 else 2)

/-- R94, R97, R99, R101 and R104: a queue pair enters the error state, once; alone, that of its admin queue pair ends an association. -/
def Obligations.FabricEvents : Prop :=
  ∀ (s : State) (qpn : Nat), s.Runs →
    (∀ q, tget qpn s.fab.qps = some q → q.err = false → ∀ c ∈ [Instr.queuePairError qpn, .rdmaWriteFailed qpn],
      ((s.assoc q.assoc).discovery = true → Gives c s fun u => tget qpn u.fab.qps = some { q with err := true } ∧
        u.get F.FAB_PSTAT.QP_ERR q.port = min 65535 (s.get F.FAB_PSTAT.QP_ERR q.port + 1) ∧ u.fab.assocs = s.fab.assocs ∧
          u.fab.ledErr = s.fab.ledErr) ∧
      ((s.assoc q.assoc).discovery = false → s.isTrail = true → Gives c s fun u => tget qpn u.fab.qps = some { q with err := true } ∧
        u.get F.FAB_PSTAT.QP_ERR q.port = min 65535 (s.get F.FAB_PSTAT.QP_ERR q.port + 1) ∧ u.fab.assocs = s.fab.assocs ∧
          u.fab.ledErr = s.fab.ledErr) ∧
      ((s.assoc q.assoc).discovery = false → s.Open → q.qid ≠ 0 → Gives c s fun u => tget qpn u.fab.qps = some { q with err := true } ∧
        u.get F.FAB_PSTAT.QP_ERR q.port = min 65535 (s.get F.FAB_PSTAT.QP_ERR q.port + 1) ∧ u.fab.assocs = s.fab.assocs ∧
          (qpn, s.straps.twinId) ∈ u.fab.ledErr) ∧
      ((s.assoc q.assoc).discovery = false → s.Open → q.qid = 0 → s.get F.TWN_STAT.PAIRED = 0 → GivesThen State.flow c s fun u =>
        tget q.assoc u.fab.assocs = none ∧ u.NoCtx (.assoc q.assoc) ∧
          u.get F.FAB_PSTAT.QP_ERR q.port = min 65535 (s.get F.FAB_PSTAT.QP_ERR q.port + 1))) ∧
    ((∀ q, tget qpn s.fab.qps = some q → q.err = true) → exec (.queuePairError qpn) s = .next s ∧
      exec (.rdmaWriteFailed qpn) s = .next (s.raise 197))

/-- R88 to R90: the rate of a queue pair after a notification and at the ends of its periods, and the notifications that it
sends. -/
def Obligations.Congestion : Prop :=
  ∀ (s : State) (qpn : Nat), s.Runs →
    (tget qpn s.fab.qps = none → ∀ c ∈ [Instr.notificationReceived qpn, .alphaPeriodExpiry qpn, .recoveryPeriodExpiry qpn,
      .cePacketReceived qpn], exec c s = .next s) ∧
    ∀ q, tget qpn s.fab.qps = some q → let g := s.ccG q.port
      (Gives (.notificationReceived qpn) s fun u => u.get F.FAB_PSTAT.CNP_RX q.port = 1 ∧ tget qpn u.fab.qps = some { q with
        rt := q.rc
        rc := (q.rc.mul q.alpha.half.compl).clamp (s.ccFloor q.port) lineRate
        alpha := (g.compl.mul q.alpha).add g
        recov := 0 }) ∧
      (Gives (.alphaPeriodExpiry qpn) s fun u => tget qpn u.fab.qps = some { q with alpha := g.compl.mul q.alpha }) ∧
      (q.recov < 5 → Gives (.recoveryPeriodExpiry qpn) s fun u => tget qpn u.fab.qps = some { q with
        rc := ((q.rc.add q.rt).half).clamp (s.ccFloor q.port) lineRate
        recov := q.recov + 1 }) ∧
      (5 ≤ q.recov → let rt := (q.rt.add { m := s.setting 0x23 q.port }).clamp (s.ccFloor q.port) lineRate
        Gives (.recoveryPeriodExpiry qpn) s fun u => tget qpn u.fab.qps = some { q with
          rt := rt
          rc := ((q.rc.add rt).half).clamp (s.ccFloor q.port) lineRate }) ∧
      ((∀ t, tget qpn s.fab.lastCnp = some t → t + s.setting 0x25 q.port ≤ s.elapsed) → s.Sends → Gives (.cePacketReceived qpn) s fun u =>
        u.out = s.out ++ [.cnp qpn] ∧ tget qpn u.fab.lastCnp = some s.elapsed) ∧
      ∀ t, tget qpn s.fab.lastCnp = some t → s.elapsed < t + s.setting 0x25 q.port → exec (.cePacketReceived qpn) s = .next s

/-- R42, R82, R84, R87, R104 and R318: a capsule waits in a receive buffer, and is taken in the turn of its association: it has a context
and waits for its own row, or ends at once where its data is not taken. A trail keeps its copy for the ledger. -/
def Obligations.Capsules : Prop :=
  ∀ (s : State) (qpn : Nat) (opcode flags : BitVec 8) (cid : BitVec 16) (nsid : BitVec 32) (body : Bytes), s.Runs →
    (tget qpn s.fab.qps = none → exec (.capsuleReceive qpn opcode flags cid nsid body) s = .next s) ∧
    ∀ q, tget qpn s.fab.qps = some q →
      ((q.err = true ∨ s.get F.FAB_PSTAT.LINK_UP q.port = 0 ∨ (s.assoc q.assoc).discovery = true ∨ q.size ≤ q.buf.length) →
        exec (.capsuleReceive qpn opcode flags cid nsid body) s = .next s) ∧
      (q.err = false → s.get F.FAB_PSTAT.LINK_UP q.port ≠ 0 → (s.assoc q.assoc).discovery = false → q.buf.length < q.size →
        let k : Capsule := { qpn := qpn, rseq := q.rseq.toNat, bytes := capsuleBytes opcode flags cid nsid body }
        (s.isTrail = false → GivesThen State.fabricTurns (.capsuleReceive qpn opcode flags cid nsid body) s fun u =>
          tget qpn u.fab.qps = some { q with rseq := q.rseq + 1, buf := q.buf ++ [k] } ∧ u.hif = s.hif) ∧
        (s.isTrail = true → GivesThen (fun u => u.applyGo.promoteGo) (.capsuleReceive qpn opcode flags cid nsid body) s fun u =>
          tget qpn u.fab.qps = some { q with rseq := q.rseq + 1 } ∧ u.hif = s.hif ∧
            (s.keeps (capsuleEntry k q.port) = true → u.twn.capsules = s.twn.capsules ++ [k]))) ∧
      ∀ k : Capsule, k.qpn = qpn → s.nextTurn = some (66 + q.assoc) → s.nextCapsule q.assoc = some (qpn, q, k) → s.Open →
        s.ctx s.hif.nextStamp = none →
        let u := s.serveAssoc (66 + q.assoc)
        u.hif.nextStamp = s.hif.nextStamp + 1 ∧
        (k.refusal = none → opcodeKnown (q.qid == 0) k.opcode = true → (q.qid ≠ 0 ∨ actionOk k.opcode (le k.bytes 40 4) = true) → s.bootState ≠ 7 →
          s.arb.outcast = false → tget qpn u.fab.qps = some { q with buf := q.buf.drop 1, head := (q.head + 1) % q.size } ∧
          (u.ctx s.hif.nextStamp).map (fun c => (c.tenant, c.sqid, c.cid, c.opcode, c.admin, c.nsid, c.inCap, c.inv, c.wait)) =
            some (.assoc q.assoc, qpn, k.cid, k.opcode, q.qid == 0, k.nsid, k.inCap, k.inv, .dispatch)) ∧
        ∀ sc, k.refusal = some sc → s.pow.dumping = false → u.ctx s.hif.nextStamp = none

/-- R571, R575, R580, R582, R584, R594: the housekeeping round, the oscillator, gates, sleep groups, drowse, dormancy and waking. -/
def Obligations.ClockCommands : Prop :=
  ∀ s : State, s.Runs →
    (∀ dur ts sup ack lines, s.get F.CPM_PSTATE.STATE = 0 → GivesThen State.flow (.housekeepingRound dur ts sup ack lines) s fun u =>
      u.hkp.round = (s.hkp.round + 1) % 2 ^ 32 ∧ (∀ p : Fin 2, lines.fec.getLsbD p = true → u.get F.FAB_PSTAT.FEC_DEG p = 1) ∧
      (∀ i t, i < 16 → ts[i]? = some t → u.get F.HKP_TS.TEMP i = (t % 65536).toNat) ∧
      (∀ j v, j < 8 → sup[j]? = some v → u.get F.HKP_SUP.MV j = v % 65536) ∧
      (s.Open → ts.length = 16 → sup.length = 8 → u.hkp.sample = tblOf ts ∧ u.hkp.sampleSup = tblOf sup)) ∧
    (∀ dur ts sup ack lines, s.get F.CPM_PSTATE.STATE ≠ 0 → Gives (.housekeepingRound dur ts sup ack lines) s fun u =>
      u.hkp.round = (s.hkp.round + 1) % 2 ^ 32 ∧ u.hkp.sample = tblOf ts ∧
      (∀ p : Fin 2, lines.fec.getLsbD p = true → u.get F.FAB_PSTAT.FEC_DEG p = 1) ∧
      ∀ i t, i < 16 → ts[i]? = some t → u.get F.HKP_TS.TEMP i = (t % 65536).toNat) ∧
    (∀ ppm : Int, -500 ≤ ppm → ppm ≤ 500 → exec (.oscillatorTrim ppm) s = .next s) ∧
    (∀ ppm : Int, (ppm < -500 ∨ 500 < ppm) → s.get F.CIC_SRC_CFG.MODE 229 = 0 → s.get F.CIC_SRC_STAT.COUNT 229 < 255 →
      Gives (.oscillatorTrim ppm) s fun u => u.get F.CIC_SRC_STAT.COUNT 229 = s.get F.CIC_SRC_STAT.COUNT 229 + 1) ∧
    (∀ d : Fin 112, (d.val = 0 ∨ s.get F.CPM_PSTATE.STATE ≠ 0) → exec (.domainGateIdle d) s = .next s) ∧
    (∀ d : Fin 112, d.val ≠ 0 → s.get F.CPM_PSTATE.STATE = 0 → Gives (.domainGateIdle d) s fun u => ∀ k, k < 112 →
      (u.get F.CPM_DOM_STAT.OPEN (k / 32)).testBit (k % 32) =
        (decide (k ≠ d.val) && (s.get F.CPM_DOM_STAT.OPEN (k / 32)).testBit (k % 32))) ∧
    (∀ (g : Fin 8) level c, ((level = 1 ∧ c = Instr.sleepGroupLight g) ∨ (level = 2 ∧ c = .sleepGroupDeep g ∧ s.setting 0x46 g = 1)) →
      let l := (s.groupPacks g).filter fun n => decide (5 ≤ s.pkState n ∧ s.pkState n ≤ 7) || (level == 2 && s.pkState n == 8)
      ((l = [] ∨ s.groupWork g = true ∨ s.groupIdle g = false) → exec c s = .next s) ∧
      (l ≠ [] → s.groupWork g = false → s.groupIdle g = true → Gives c s fun u => tget g.val u.hkp.sleep = some level)) ∧
    (∀ g : Fin 8, s.setting 0x46 g ≠ 1 → exec (.sleepGroupDeep g) s = .next s) ∧
    (s.twState = 0 → s.setting 0x40 = 1 → s.get F.CPM_PSTATE.STATE = 0 → s.restful = true → Gives .drowseEntry s fun u =>
      u.get F.CPM_PSTATE.STATE = 1 ∧ u.hkp.pll = 1 ∧ ∀ k, k < 4 → u.get F.CPM_DOM_STAT.OPEN k = if k = 0 then 1 else 0) ∧
    ((s.twState ≠ 0 ∨ s.setting 0x40 ≠ 1 ∨ s.get F.CPM_PSTATE.STATE ≠ 0 ∨ s.restful = false) → exec .drowseEntry s = .next s) ∧
    (s.twState = 0 → s.setting 0x42 = 1 → s.get F.CPM_PSTATE.STATE = 1 → s.fab.assocs = [] →
      GivesThen State.flow .dormantEntry s fun u => u.pow.entering = true ∧ u.get F.CPM_PSTATE.STATE = 0 ∧ u.hkp.pll = 2 ∧
        u.hkp.hbmOn = true ∧ (s.map.ckptOpen = none → u.map.ckptRound = s.map.ckptRound + 1)) ∧
    (s.pow.entering = true → s.map.ckptOpen = none →
      s.dormantGo.get F.CPM_PSTATE.STATE = 2 ∧ s.dormantGo.hkp.pll = 0 ∧ s.dormantGo.hkp.hbmOn = false ∧ s.dormantGo.pow.entering = false) ∧
    ((s.twState ≠ 0 ∨ s.setting 0x42 ≠ 1 ∨ s.get F.CPM_PSTATE.STATE ≠ 1 ∨ s.fab.assocs ≠ []) → exec .dormantEntry s = .next s) ∧
    (∀ b : Fin 8, (s.get F.CPM_PSTATE.STATE = 0 ∨ (s.get F.CPM_WAKE.EN).testBit b = false) → Gives (.wake b) s fun u =>
      u.get F.CPM_WAKE.LATCH = s.get F.CPM_WAKE.LATCH ||| 2 ^ b.val ∧ u.get F.CPM_PSTATE.STATE = s.get F.CPM_PSTATE.STATE) ∧
    ∀ b : Fin 8, s.get F.CPM_PSTATE.STATE = 1 → s.pow.entering = false → (s.get F.CPM_WAKE.EN).testBit b = true → Gives (.wake b) s fun u =>
      u.get F.CPM_WAKE.LATCH = s.get F.CPM_WAKE.LATCH ||| 2 ^ b.val ∧ u.get F.CPM_PSTATE.STATE = 0 ∧ u.hkp.pll = 2 ∧ u.hkp.hbmOn = true ∧
        (u.get F.CPM_WAKE.LATCH).testBit (u.get F.CPM_PSTATE.LASTWAKE) = true

/-- R286, R292, R587 to R590, R626: power loss, dumps, thermal trips and resets. -/
def Obligations.PowerCommands : Prop :=
  ∀ s : State,
    (∀ ns, s.Runs → ns < 1000 → exec (.powerFailAssert ns) s = .next s) ∧
    (∀ ns, s.Runs → 1000 ≤ ns → s.Open → s.pairedLead = false → s.pow.dumping = false → Gives (.powerFailAssert ns) s fun u =>
      u.pow.dumping = true ∧ u.hif.fetchStop = true ∧
        (s.health.ready = true → s.get F.CPM_PSTATE.STATE ≠ 2 → ∃ d, u.pow.dump = some d ∧ d.cause = 1 ∧ d.ended = false ∧
          d.seq = s.pow.dumpSeq + 1 ∧ d.tail = s.map.openJ ∧ d.closed = (s.map.jblocks.filter fun b => !b.programmed) ∧
          d.staged = sortBy (fun a b => decide (a.stamp.toNat ≤ b.stamp.toNat))
            (s.map.overlay.filter fun x => !s.outdated x.nsid x.bale x.blk x.stamp) ∧
          ∀ old, s.pow.dump = some old → d.half = 1 - old.half)) ∧
    (s.Runs → s.pow.dumping = false → exec .dumpEnd s = .next s) ∧
    (s.Runs → s.pow.dumping = true → Gives .dumpEnd s fun u => u.inReset = true ∧ u.pow.dumping = false ∧ u.pow.savedDtime = s.dtime ∧
      u.pow.savedEpoch = s.epoch ∧ u.pow.dump = (if s.pow.writing then s.pow.dump.map Dump.finish else s.pow.dump) ∧
      u.pow.lastStop = if s.get F.HKP_TRIP.TRIPPED = 1 then 3 else if s.pow.writing then 1 else 5) ∧
    (∀ n : Fin 16, s.get F.HKP_TRIP.TRIPPED = 1 → exec (.thermalTrip n) s = .next s) ∧
    (∀ n : Fin 16, s.get F.HKP_TRIP.TRIPPED = 0 → Gives (.thermalTrip n) s fun u =>
      u.get F.HKP_TRIP.TRIPPED = 1 ∧ u.get F.HKP_TRIP.SENSOR = n ∧
        if s.get F.PMC_DBG_STAT.FROZEN = 1 then u.hkp.thermtripLow = true ∧ u.out = s.out ++ [.pin 1 false]
        else if s.inPair = true then u.hkp.thermtripLow = true ∧ [.pin 2 false, .pin 1 false] <:+ u.out
        else u.pow.dumping = true) ∧
    ((s.get F.HKP_TRIP.TRIPPED = 0 ∨ s.inReset = true) → exec .thermtripTimeout s = .next s) ∧
    (s.get F.HKP_TRIP.TRIPPED = 1 → s.inReset = false → Gives .thermtripTimeout s fun u =>
      u.inReset = true ∧ u.hkp.thermtripLow = true ∧ u.pow.dumping = false ∧ u.pow.lastStop = 3 ∧
        u.out = if s.hkp.thermtripLow then s.out else s.out ++ [.pin 1 false]) ∧
    (∀ d b, s.inReset = true → exec (.powerReset d b) s = .next s) ∧
    (∀ d b, s.inReset = false → Gives (.powerReset d b) s fun u => u.inReset = true ∧ u.pow.dumping = false ∧ u.regs = s.regs ∧
      (∀ x, s.pow.dump = some x → x.ended = true → u.pow.dump = some x) ∧
      (s.pow.writing = false → u.pow.dump = s.pow.dump) ∧
      (∀ x, s.pow.writing = true → s.pow.dump = some x → x.ended = false → ∃ y, u.pow.dump = some y ∧ y.ended = false ∧ y.staged = x.staged ∧
        y.ndesc = min d x.staged.length ∧ y.nblocks = min b y.ndesc)) ∧
    (∀ e : BootEnv, Gives (.powerOnReset e) s fun u => u.inReset = false ∧ u.get F.PMC_DBG_STAT.FROZEN = 0 ∧ u.pow.dumping = false ∧
      u.get F.SEC_MODE.MODE = if e.katOk then 1 else 3) ∧
    ((s.inReset = true ∨ s.get F.PMC_DBG_STAT.FROZEN = 1) →
      exec .dtimeMillisecondTick s = .next { s with dtime := s.dtime + 1000, elapsed := s.elapsed + 1000 }) ∧
    (s.Runs → Gives .dtimeMillisecondTick s fun u => u.dtime = s.dtime + 1000 ∧ u.elapsed = s.elapsed + 1000)

/-- R6, R7, R8, R18, R19, R463, R611 to R617: the debug port, and writes of registers and of memory. -/
def Obligations.DebugAndRegisterWrites : Prop :=
  ∀ s : State,
    (∀ ir c, (ir, c) ∈ [(0x00, Instr.extest), (0x01, .sample), (0x02, .preload), (0xFF, .bypass)] →
      exec c s = .next { s with tly := { s.tly with ir := ir } }) ∧
    (Gives .dbgStatus s fun u => u.tly.ir = 0x20 ∧ u.out = s.out ++ [.jtag 32 (s.reg .PMC_DBG_STAT 0).toNat]) ∧
    (Gives .dbgChal s fun u => u.tly.ir = 0x21 ∧ ∃ v, u.tly.chal = some v ∧ u.out = s.out ++ [.jtag 384 v.toNat]) ∧
    (∀ t, s.get F.PMC_DBG_STAT.FAILS = 5 → Gives (.dbgToken t) s fun u =>
      u.get F.PMC_DBG_STAT.RESULT = 6 ∧ u.get F.PMC_DBG_STAT.FAILS = 5 ∧ u.tly.token = none ∧ u.tly.chal = none) ∧
    (∀ t, s.get F.PMC_DBG_STAT.FAILS ≠ 5 → Gives (.dbgToken t) s fun u =>
      if s.get F.PMC_DBG_STAT.BUSY = 1 then u.tly.chal = none ∧ u.tly.token = s.tly.token
      else u.tly.token = some t ∧ u.get F.PMC_DBG_STAT.BUSY = 1) ∧
    (s.Runs → s.tly.token = none → s.tly.unlocking = false → exec .debugUnlock s = .next s) ∧
    (∀ t, s.Runs → s.tly.token = some t → s.judgeToken t ≠ 1 → Gives .debugUnlock s fun u =>
      u.get F.PMC_DBG_STAT.RESULT = s.judgeToken t ∧ u.get F.PMC_DBG_STAT.BUSY = 0 ∧ u.tly.token = none ∧ u.tly.chal = none ∧
        u.get F.PMC_DBG_STAT.FAILS = if s.judgeToken t ≤ 4 then min 5 (s.get F.PMC_DBG_STAT.FAILS + 1) else s.get F.PMC_DBG_STAT.FAILS) ∧
    (∀ t, s.Runs → s.tly.token = some t → s.judgeToken t = 1 → s.twState ≠ 0 → s.twState ≠ 3 → Gives .debugUnlock s fun u =>
      u.get F.PMC_DBG_STAT.UNLOCKED = 1 ∧ u.get F.PMC_DBG_STAT.RESULT = 1 ∧ u.get F.PMC_DBG_STAT.BUSY = 0 ∧
        u.get F.SEC_MODE.MODE = 2 ∧ u.tly.token = none ∧ u.tly.chal = none ∧ ∀ k ∈ u.keys.slots, k.2.loaded = false) ∧
    (∀ t, s.Runs → s.tly.token = some t → s.judgeToken t = 1 → (s.twState = 0 ∨ s.twState = 3) →
      GivesThen (fun u => u.flow.unlockGo) .debugUnlock s fun u => u.hif.fetchStop = true ∧ u.tly.unlocking = true ∧ u.tly.token = none ∧
        u.map.openJ = []) ∧
    (Gives .freezeNAssert s fun u => u.tly.freezeLow = true ∧
      u.get F.PMC_DBG_STAT.FROZEN = if s.get F.PMC_DBG_STAT.UNLOCKED = 1 then 1 else s.get F.PMC_DBG_STAT.FROZEN) ∧
    (∀ d : Fin 112, Gives (.scanSel d) s fun u => u.tly.ir = 0x23 ∧ u.tly.dom = d.val ∧
      u.out = s.out ++ [.jtag 32 (s.tly.dom + 256 * (Config.chainLen s.tly.dom % 2 ^ 24))]) ∧
    (Gives .scanData s fun u => u.tly.ir = 0x24 ∧ ∃ v, u.out = s.out ++ [.jtag (Config.chainLen s.tly.dom) v] ∧
      (s.get F.PMC_DBG_STAT.FROZEN = 0 → v = 0)) ∧
    (∀ a, Gives (.memAddr a) s fun u => u.tly.ir = 0x25 ∧ u.tly.memAddr.toNat = a.toNat / 8 * 8) ∧
    (Gives .memData s fun u => u.tly.ir = 0x26 ∧ u.tly.memAddr = s.tly.memAddr + 8 ∧
      u.out = s.out ++ [.jtag 72 (if s.get F.PMC_DBG_STAT.FROZEN = 1 then s.debugWord s.tly.memAddr.toNat else 0)] ∧
      u.debugErrs = s.debugErrs + (if s.get F.PMC_DBG_STAT.FROZEN = 1 ∧ s.decoded .debug s.tly.memAddr.toNat = false then 1 else 0)) ∧
    ∀ who size (v : BitVec 64), s.Runs →
      (∀ a, s.decoded who a = true → (∀ k, k < size → s.decoded who (a + k) = true) → inRegBlock a = false →
        exec (.registerWrite who (.internal a) size v) s = .next (s.wrBytes a (leBytes size v.toNat))) ∧
      (∀ a, (s.decoded who a = false ∨ (inRegBlock a = false ∧ ∃ k, k < size ∧ s.decoded who (a + k) = false)) → exec (.registerWrite who (.internal a) size v) s = .next (s.undecoded who)) ∧
      (∀ (f : Fin 66) (off : Nat), ((s.funcUp f = false ∨ 0x4000 ≤ off) → exec (.registerWrite who (.bar0 f off) size v) s = .next s) ∧
        ((s.isPf f = false ∨ 0x100000 ≤ off) → exec (.registerWrite who (.bar2 f off) size v) s = .next s) ∧
        ((s.isPf f = false ∨ 0x10000 ≤ off) → exec (.registerWrite who (.bar4 f off) size v) s = .next s)) ∧
      (∀ (f : Fin 66) (off : Nat), s.funcUp f = true → off < 0x4000 → ¬ (size = 4 ∧ off % 4 = 0) → ¬ (size = 8 ∧ off % 8 = 0) →
        exec (.registerWrite who (.bar0 f off) size v) s =
          .next (if (bar0Space f (s.isPf f)).holds off size = true then s.accessBad 1 else s)) ∧
      (∀ f : Fin 66, s.funcUp f = true →
        (Gives (.registerWrite who (.bar0 f 0x24) 4 v) s fun u =>
          u.get F.AQA.ASQS f = v.toNat % 4096 ∧ u.get F.AQA.ACQS f = bitsOf 27 16 v.toNat) ∧
        (Gives (.registerWrite who (.bar0 f 0x28) 8 v) s fun u => u.get F.ASQ.ASQB f = bitsOf 63 12 v.toNat) ∧
        (Gives (.registerWrite who (.bar0 f 0x00) 4 v) s fun u => u.reg .CAP f = s.reg .CAP f) ∧
        (Gives (.registerWrite who (.bar0 f 0x08) 4 v) s fun u => u.reg .VS f = s.reg .VS f)) ∧
      (s.decoded who 0x100C00000 = true → ∀ i, who = .user i → Gives (.registerWrite who (.internal 0x100C00000) size v) s fun u =>
        u.regs = s.regs ∧ u.out = s.out ++ [.privilege i])

/-- R476 to R480, R487 to R489, R212, R214 to R216, R283, R486, R637: the mailbox services for settings, read-back, identity and
packs. A port beyond 31, an unknown identifier or a state that does not allow the service is answered with its status. -/
def Obligations.MailboxServices : Prop :=
  ∀ (s : State) (m : Msg) (a : Arrival), s.Runs →
    (∀ id i x, s.Admits 0x0101 20 m → settingInfo id = some x → i ∈ x.indices → Gives (.getSetting m a id i) s fun u =>
      u.Answered m 0x0101 0 (s.settingItem x i) ∧ u.setv = s.setv) ∧
    (∀ id i, s.Admits 0x0101 20 m → settingInfo id = none → Gives (.getSetting m a id i) s fun u => u.Answered m 0x0101 2 []) ∧
    (∀ id i value x, s.Admits 0x0102 (24 + value.length) m → settingInfo id = some x → i ∈ x.indices →
      (x.id = 0x11 → nqnOk value = true → Gives (.setSetting m a id i value) s fun u => tgetD i [] u.setv.nqn = value ∧
        u.Answered m 0x0102 0 (leBytes 1 x.atReset.toNat ++ [0, 0, 0] ++ leBytes 8 u.sgen.toNat)) ∧
      (x.id ≠ 0x11 → value.length = x.vlen → s.settingOk x i (leVal value) = true → Gives (.setSetting m a id i value) s fun u =>
        u.Answered m 0x0102 0 (leBytes 1 x.atReset.toNat ++ [0, 0, 0] ++ leBytes 8 u.sgen.toNat) ∧
        (x.atReset = false → (x.local_ = false ∨ a = .here) → u.setting id i = leVal value) ∧
        (x.atReset = true → u.setting id i = s.setting id i ∧ tgetD (settingKey id i) (s.setting id i) u.setv.pend = leVal value)) ∧
      (x.id ≠ 0x11 → (value.length ≠ x.vlen ∨ s.settingOk x i (leVal value) = false) → Gives (.setSetting m a id i value) s fun u =>
        u.setv = s.setv ∧ u.Answered m 0x0102 2 [])) ∧
    (∀ id i x, s.Admits 0x0103 20 m → settingInfo id = some x → i ∈ x.indices → x.local_ = false → x.atReset = false →
      id ∉ [0x01, 0x02, 0x09, 0x0A, 0x11, 0x44, 0x45] → Gives (.defaultSetting m a id i) s fun u =>
        u.setting id i = settingDefault id i ∧ u.Answered m 0x0103 0 (leBytes 8 u.sgen.toNat)) ∧
    (∀ id i, s.Admits 0x0103 20 m → id ≠ 0xFFFF → settingInfo id = none → Gives (.defaultSetting m a id i) s fun u =>
      u.setv = s.setv ∧ u.Answered m 0x0103 2 []) ∧
    (∀ off, s.Admits 0x0104 20 m → Gives (.listSettings m a off) s fun u => ∃ b, u.Answered m 0x0104 0 b ∧
      b.take 4 = leBytes 4 settingTable.length ∧ b.length = 4 + 8 * (settingTable.length - off)) ∧
    (∀ off, s.Admits 0x0201 20 m → Gives (.catalogue m off) s fun u => ∃ b, u.Answered m 0x0201 0 b ∧
      (b.drop 8).take 8 = leBytes 8 s.sgen.toNat ∧ (b.drop 16) = ((s.catalogue.drop off).take 511).flatMap id) ∧
    (∀ id i off len, s.Admits 0x0202 36 m → (s.items.any fun x => x.id == id.toNat) = true ∨ (regOfId id.toNat).isSome = true →
      id.toNat = 0x20000010 ∨ (s.instBytes id.toNat i).isSome = true → if 1 ≤ len ∧ len ≤ 32704
        then Gives (.stateRead m id i off len) s fun u => ∃ b, u.Answered m 0x0202 0 b ∧ b.take 32 = s.stamp (itemClass id.toNat i)
        else Gives (.stateRead m id i off len) s fun u => u.Answered m 0x0202 2 []) ∧
    (s.Admits 0x0203 16 m → Gives (.sgen m) s fun u => u.Answered m 0x0203 0 (s.stamp 0)) ∧
    (s.Admits 0x0210 16 m → Gives (.mailboxIdentify m) s fun u => ∃ b, u.Answered m 0x0210 0 b ∧
      b.take 24 = leBytes 24 Config.serial.toNat) ∧
    (∀ nonce, s.Admits 0x0280 48 m → Gives (.attest m nonce) s fun u => ∃ b, u.Answered m 0x0280 0 b) ∧
    (∀ off, s.Admits 0x0281 20 m → Gives (.certChain m off) s fun u => u.Answered m 0x0281 0
      (leBytes 4 Config.certChain.length ++ (Config.certChain.drop off).take 32744)) ∧
    (∀ p, p < 32 → s.Admits 0x0801 20 m → if (s.pkState p = 5 ∨ s.pkState p = 6) ∧ s.isReserve p = false
      then Gives (.admitPack m a p) s fun u => ∃ b, u.Answered m 0x0801 0 b
      else Gives (.admitPack m a p) s fun u => u.packs = s.packs ∧ u.Answered m 0x0801 7 []) ∧
    (∀ p, p < 32 → s.Admits 0x0802 20 m → (s.pk p).svc = true → (s.pk p).removing = false → Gives (.remove m a p) s fun u =>
      (u.pk p).removing = true ∧ u.Answered m 0x0802 0
        (leBytes 4 ((s.membersWhere fun x => x.port == p).map Prod.fst).eraseDups.length)) ∧
    (∀ p off len, p < 32 → s.Admits 0x0803 24 m → 1 ≤ len → len ≤ 4096 → off + len ≤ 8192 → s.reachable p = true →
      Gives (.idRead m a p off len) s fun u => u.mbx.waits = s.mbx.waits ++
        [{ m := m, here := isHere a, what := 0, arg := p * 2 ^ 32 + (idReadParam off len).toNat }]) ∧
    (∀ p id, p < 32 → s.Admits 0x0804 4116 m → (parseId id).valid = true → s.reachable p = true → (s.pk p).outst = [] →
      Gives (.idReplace m a p id) s fun u => u.mbx.waits = s.mbx.waits ++ [{ m := m, here := isHere a, what := 1, arg := p }]) ∧
    (s.Admits 0x0805 16 m → if 10 < s.resLevel 0 ∧ s.capL * 17 ≤ s.capU * 16
      then Gives (.endReadonly m a) s fun u => u.Answered m 0x0805 0 []
      else Gives (.endReadonly m a) s fun u => u.health = s.health ∧ u.Answered m 0x0805 7 []) ∧
    (∀ p, p < 32 → s.Admits 0x0806 20 m → if s.get F.PKP_CTL.EN p = 1
      then Gives (.retrain m a p) s fun u => u.get F.PKP_STAT.LINK_UP p = 0 ∧ u.Answered m 0x0806 0 []
      else Gives (.retrain m a p) s fun u => u.packs = s.packs ∧ u.Answered m 0x0806 7 []) ∧
    (∀ p, p < 32 → s.Admits 0x0807 20 m → if (s.pk p).removing = true
      then Gives (.removeCancel m a p) s fun u => u.Answered m 0x0807 0 []
      else Gives (.removeCancel m a p) s fun u => u.packs = s.packs ∧ u.Answered m 0x0807 7 []) ∧
    ∀ p off len id op c n, 32 ≤ p → s.Admits op n m → (op, n, c) ∈ [(0x0801, 20, Instr.admitPack m a p), (0x0802, 20, .remove m a p),
      (0x0803, 24, .idRead m a p off len), (0x0804, 4116, .idReplace m a p id), (0x0806, 20, .retrain m a p),
      (0x0807, 20, .removeCancel m a p)] → Gives c s fun u => u.packs = s.packs ∧ u.Answered m op 2 []

/-- R61, R62, R439 to R453, R458, R460 and R483: firmware through NVMe and through the mailbox. -/
def Obligations.FirmwareCommands : Prop :=
  ∀ s : State, s.Runs →
    (∀ t c, s.Fetched t c → (∀ f, c.tenant = .func f → s.isPf f = true) →
      (∀ off data, (off % 4096 ≠ 0 ∨ data.length % 4096 ≠ 0 ∨ 2 ^ 24 < off + data.length ∨ mdts < data.length) →
        exec (.firmwareImageDownload t off data) s = .next (s.fail c 0 0x02)) ∧
      (∀ off data, off % 4096 = 0 → data.length % 4096 = 0 → off + data.length ≤ 2 ^ 24 → data.length ≤ mdts → s.stageTaken 0 = false →
        exec (.firmwareImageDownload t off data) s = .next (if s.overlapsStage off data.length then s.fail c 1 0x14
          else (s.download 0 off data).succeed c)) ∧
      ∀ slot : Fin 8,
        (s.commitSlot slot = none → ∀ x ∈ [Instr.firmwareCommitReplace t slot, .firmwareCommitReplaceActivate t slot,
          .firmwareCommitActivate t slot, .firmwareCommitActivateNoReset t slot], exec x s = .next (s.fail c 1 0x06)) ∧
        ∀ k, s.commitSlot slot = some k →
          (s.checkPackage s.staged_ ≠ 0 → ∀ x ∈ [Instr.firmwareCommitReplace t slot, .firmwareCommitReplaceActivate t slot],
            exec x s = .next (s.stageClear.fail c 1 0x07)) ∧
          (s.checkPackage s.staged_ = 0 → ∀ x ∈ [Instr.firmwareCommitReplace t slot, .firmwareCommitReplaceActivate t slot],
            GivesThen (fun u => u.succeed c) x s fun u => u.fw.stage = [] ∧ u.fw.owner = none ∧
              (tget s.idleSlot u.fw.slots).map Slot.pkg = some s.staged_ ∧
              (x = .firmwareCommitReplaceActivate t slot → u.fw.active = k ∧ u.fw.pendingSel = true)) ∧
          (tget k s.fw.slots = none → ∀ x ∈ [Instr.firmwareCommitActivate t slot, .firmwareCommitActivateNoReset t slot],
            exec x s = .next (s.fail c 1 0x07)) ∧
          (∀ x, tget k s.fw.slots = some x →
            (GivesThen (fun u => u.succeed c) (.firmwareCommitActivate t slot) s fun u =>
              u.fw.active = k ∧ u.fw.pendingSel = true ∧ u.fw.tries = 0 ∧ u.sgen = s.sgen + 1) ∧
            (s.activateProhibited = true → exec (.firmwareCommitActivateNoReset t slot) s = .next (s.fail c 1 0x13)) ∧
            (s.activateProhibited = false → s.hif.activating = none → s.needsReset x.man = true →
              exec (.firmwareCommitActivateNoReset t slot) s = .next ((s.selectNext k).fail c 1 0x0B)) ∧
            (s.activateProhibited = false → s.hif.activating = none → s.needsReset x.man = false →
              Gives (.firmwareCommitActivateNoReset t slot) s fun u => u.hif.activating = some (some t) ∧
                ∀ y ∈ u.hif.ctxs, y.stamp = t → y.wait = .activation))) ∧
    (∀ ok, (s.hif.activating = none ∨ s.drained = false) → exec (.activationDrained ok) s = .next s) ∧
    (∀ ok w, s.hif.activating = some w → s.drained = true → GivesThen State.flow (.activationDrained ok) s fun u =>
      u.hif.activating = none ∧ u.fw.running = if ok then s.idleSlot else s.fw.running) ∧
    ∀ (m : Msg) (a : Arrival),
      (∀ off data, s.Admits 0x0501 (24 + data.length) m → data.length ≤ 24576 → off % 4096 = 0 → off + data.length ≤ 2 ^ 24 →
        s.stageTaken 1 = false → if s.overlapsStage off data.length
          then Gives (.stagingWrite m a off data) s fun u => u.fw = s.fw ∧ u.Answered m 0x0501 2 []
          else Gives (.stagingWrite m a off data) s fun u => u.fw = (s.download 1 off data).fw ∧ u.Answered m 0x0501 0 []) ∧
      (s.Admits 0x0501 24 m → Gives (.stagingAbort m a) s fun u => u.fw.stage = [] ∧ u.fw.owner = none ∧ u.Answered m 0x0501 0 []) ∧
      (s.Admits 0x0502 16 m → if s.checkPackage s.staged_ = 0
        then Gives (.commitStaging m a) s fun u => u.fw.stage = [] ∧ (tget s.idleSlot u.fw.slots).map Slot.pkg = some s.staged_ ∧
          u.Answered m 0x0502 0 (leBytes 8 (u.slotVer s.idleSlot))
        else Gives (.commitStaging m a) s fun u => u.fw.stage = [] ∧ u.fw.slots = s.fw.slots ∧ u.Answered m 0x0502 8 []) ∧
      (∀ k force, s.Admits 0x0503 20 m → 2 ≤ k → Gives (.activateWithReset m a k force) s fun u => u.fw = s.fw ∧ u.Answered m 0x0503 2 []) ∧
      (∀ k force, s.Admits 0x0503 20 m → k < 2 → tget k s.fw.slots ≠ none →
        (s.twState = 0 ∨ s.twState = 4 ∨ (s.twState = 3 ∧ force = true)) → Gives (.activateWithReset m a k force) s fun u =>
          u.inReset = true ∧ u.fw.active = k ∧ u.fw.pendingSel = true ∧ u.Answered m 0x0503 0 []) ∧
      (∀ x, s.Admits 0x0504 16 m → tget s.idleSlot s.fw.slots = some x → s.activateProhibited = false → s.needsReset x.man = false →
        Gives (.activateWithoutReset m a) s fun u => u.hif.activating = some none ∧
          u.mbx.waits = s.mbx.waits ++ [{ m := m, here := isHere a, what := 7, arg := 0 }]) ∧
      (s.Admits 0x0504 16 m → (tget s.idleSlot s.fw.slots = none ∨ s.activateProhibited = true) →
        Gives (.activateWithoutReset m a) s fun u => u.fw = s.fw ∧ u.hif.activating = none ∧ u.Answered m 0x0504 7 []) ∧
      (s.Admits 0x0505 16 m → Gives (.readSlotStatus m a) s fun u => ∃ b, u.Answered m 0x0505 0 b ∧ b.take 64 = s.selector) ∧
      (∀ mask, s.Admits 0x0506 20 m → s.fw.upd = none → s.sameFirmware = true →
        GivesThen State.updNext (.updatePackBridges m a mask) s fun u =>
          u.fw.upd = some { left := (List.range 32).filter fun n => mask == 0 || mask.getLsbD n } ∧
          u.mbx.waits = s.mbx.waits ++ [{ m := m, here := isHere a, what := 2, arg := 0 }]) ∧
      (∀ mask, s.Admits 0x0506 20 m → s.fw.upd ≠ none → Gives (.updatePackBridges m a mask) s fun u =>
        u.fw = s.fw ∧ u.Answered m 0x0506 12 []) ∧
      (∀ key id, s.Admits 0x0507 116 m → (s.fw.cosign.any fun k => k.2 == keyIdOf key) = false → s.fw.cosign.length < 2 →
        Gives (.countersigningKeys m a 1 key id) s fun u => u.fw.cosign = s.fw.cosign ++ [(key, keyIdOf key)] ∧
          u.Answered m 0x0507 0 (leBytes 48 (keyIdOf key).toNat)) ∧
      (∀ key id, s.Admits 0x0507 68 m → (s.fw.cosign.any fun k => k.2 == id) = true → s.fw.cosignReq = false →
        Gives (.countersigningKeys m a 2 key id) s fun u => u.fw.cosign = (s.fw.cosign.filter fun k => k.2 != id) ∧
          u.Answered m 0x0507 0 (leBytes 48 id.toNat)) ∧
      (∀ key id, s.Admits 0x0507 20 m → s.fw.cosign ≠ [] → Gives (.countersigningKeys m a 3 key id) s fun u => u.fw.cosignReq = true ∧
        u.Answered m 0x0507 0 (leBytes 48 0)) ∧
      (∀ key id, s.Admits 0x0507 20 m → Gives (.countersigningKeys m a 4 key id) s fun u => u.fw.cosignReq = false ∧
        u.Answered m 0x0507 0 (leBytes 48 0)) ∧
      (s.Admits 0x0508 16 m → Gives (.raiseSvnMin m a) s fun u => u.fw.svnMin = max s.fw.svnMin s.man.svn ∧
        u.Answered m 0x0508 0 (leBytes 4 u.fw.svnMin)) ∧
      (s.Admits 0x0509 16 m → Gives (.restartTestMode m a) s fun u => u.inReset = true ∧ u.fw.testNext = true ∧ u.Answered m 0x0509 0 []) ∧
      (s.Admits 0x050A 16 m → if s.fw.testMode = true ∨ s.bootState = 7
        then Gives (.migrateSettings m a) s fun u => u.fw.schema = max s.fw.schema s.man.setver ∧
          u.Answered m 0x050A 0 (leBytes 2 s.man.setver ++ [0, 0])
        else Gives (.migrateSettings m a) s fun u => u.fw = s.fw ∧ u.Answered m 0x050A 7 [])

/-- R313 to R320, R327 to R335, R345 to R349, R352, R357 and R369: stages, records, claims, digests and messages of the twin link. -/
def Obligations.LedgerCommands : Prop :=
  ∀ s : State, s.Runs →
    (s.get F.TWN_STAT.LINK_UP = 0 → ∀ es h ok x e b, ∀ c ∈ [Instr.record es h ok, .stageAck x, .peerReport e, .fetchReq e, .fetchData e b,
      .keyRotate], exec c s = .next s) ∧
    (s.get F.TWN_STAT.LINK_UP = 1 →
      (∀ es, s.isTrail = true → Gives (.record es none true) s fun u => u.twn.rxEnts = s.twn.rxEnts ++ es ∧ u.twn.rxRecs = s.twn.rxRecs) ∧
      (∀ es h, s.isTrail = true → h.nent = (s.twn.rxEnts ++ es).length → h.rlen = recLen (s.twn.rxEnts ++ es) →
        Gives (.record es (some h) true) s fun u => u.twn.rxEnts = [] ∧
        u.twn.rxRecs = s.twn.rxRecs ++ [(s.elapsed, h, s.twn.rxEnts ++ es)] ∧
        u.get F.TWN_STAT.BACKLOG = min 255 (s.twn.rxRecs.length + 1)) ∧
      (∀ es h, s.isTrail = false → exec (.record es h true) s = .next s) ∧
      (∀ es h, Gives (.record es h false) s fun u => u.twn.rxEnts = s.twn.rxEnts ∧ u.twn.rxRecs = s.twn.rxRecs ∧
        u.get F.TWN_LINK.AUTHFAIL = min F.TWN_LINK.AUTHFAIL.max (s.get F.TWN_LINK.AUTHFAIL + 1)) ∧
      (∀ x, if s.isTrail then exec (.stageAck x) s = .next s
        else Gives (.stageAck x) s fun u => u.twn.retained = s.twn.retained.filter fun y => decide (x.toNat < y.1.toNat)) ∧
      (∀ e : LEntry, (s.pairedLead = false ∨ e.cls ∉ [2, 3, 4, 6]) → exec (.peerReport e) s = .next s) ∧
      (∀ e : LEntry, s.pairedLead = true → e.cls = 2 → let e' : LEntry := { e with origin := true }
        Gives (.peerReport e) s fun u => if s.lacksCapsule e' then e' ∈ u.twn.fetches else u.twn.fetches = s.twn.fetches) ∧
      (∀ e : LEntry, s.pairedLead = true → e.cls ∈ [3, 4, 6] → s.Open → s.staged = true →
        let e' : LEntry := { e with
          origin := true
          toff := s.toff }
        GivesThen (fun u => (u.entryEffect e').getD u) (.peerReport e) s fun u => u.twn.openRec = s.twn.openRec ++ [e']) ∧
      (∀ e, s.serveFetch e = none → Gives (.fetchReq e) s fun u => u.twn.mseqRx = s.twn.mseqRx + 1 ∧ u.twn.mseqTx = s.twn.mseqTx) ∧
      (∀ e b, s.serveFetch e = some b → GivesThen (fun u => u.twinSend 5 b) (.fetchReq e) s fun u =>
        u.twn.mseqRx = s.twn.mseqRx + 1) ∧
      (∀ e b, s.twn.fetches.contains e = false → exec (.fetchData e b) s = .next s) ∧
      (∀ e b, s.twn.fetches.contains e = true → (s.pairedLead = false ∨ e.cls ≠ 2 ∨ e.origin = false ∨ s.lacksCapsule e = false) → GivesThen (fun u => u.applyGo.promoteGo) (.fetchData e b) s fun u =>
        e ∉ u.twn.fetches ∧ u.twn.mseqRx = s.twn.mseqRx + 1) ∧
      (∀ e b qpn rseq l c (x : FabWrite) ns, s.twn.fetches.contains e = true → e.cls = 2 → e.payload = qpn :: rseq :: l →
        s.dataWaits qpn rseq = some c → c.wait = .rdma x → s.nsOf x.nsid = some ns → blocksBad ns x.io x.blocks = none →
        s.mergeLbas ns x.nsid x.slba x.blocks.length = [] →
        GivesThen (fun u => (((u.succeed c).flow).rdmaGo c.sqid).applyGo.promoteGo) (.fetchData e b) s fun u =>
          u.map.overlay.length = s.map.overlay.length + x.blocks.length ∧ u.hif.writeCmds = s.hif.writeCmds + 1) ∧
      Gives .keyRotate s fun u => u.twn.mseqRx = 0 ∧ u.twn.kgenRx = s.twn.kgenRx + 1 ∧ u.keys.genRx = s.keys.genRx + 1) ∧
    (s.isTrail = false → exec .recordApply s = .next s) ∧
    (∀ x l, s.isTrail = true → s.twn.delivering = none → s.twn.rxRecs = x :: l →
      GivesThen (fun u => u.deliverGo.bootGo.promoteGo) .recordApply s fun u => u.twn.delivering = some x ∧ u.twn.rxRecs = l ∧
        u.dtime = x.2.1.dtime ∧ u.epoch = x.2.1.epoch ∧ u.reg .TWN_STAGE 0 = x.2.1.stage) ∧
    (∀ e, (s.twn.applying.head? ≠ some e ∨ namesBytes e = false) → exec (.peerFetchTimeout e) s = .next s) ∧
    (∀ e, s.twn.applying.head? = some e → namesBytes e = true → s.isTrail = true → s.arb.promote = none →
      Gives (.peerFetchTimeout e) s fun u => e ∈ u.twn.fetches) ∧
    (∀ e qpn l q, s.twn.applying.head? = some e → e.cls = 2 → e.payload = qpn :: l → tget qpn s.fab.qps = some q →
      (s.isTrail = false ∨ s.arb.promote ≠ none) →
      GivesThen (fun u => (u.flow.applyList (s.twn.applying.drop 1)).promoteGo) (.peerFetchTimeout e) s fun u =>
        tget q.assoc u.fab.assocs = none ∧ u.NoCtx (.assoc q.assoc)) ∧
    ((s.staged = false ∨ s.isTrail = true) → exec .stageClose s = .next s) ∧
    (s.staged = true → s.isTrail = false → let n := s.reg .TWN_STAGE 0
      GivesThen (fun u => ((u.takeCut n).takeSwap n).retryHeld) .stageClose s fun u => u.reg .TWN_STAGE 0 = n + 1 ∧ u.twn.openRec = [] ∧
        u.arb.hb = !s.arb.hb ∧ u.twn.openUs = s.twn.newUs.getD s.twn.openUs ∧ u.twn.newUs = none ∧ u.twn.openDtime = s.dtime) ∧
    (if s.isTrail = true ∧ s.arb.fenceLow = false
      then Gives .trailHeartbeat s fun u => u.arb.hb = !s.arb.hb ∧ u.out = s.out ++ [.pin 0 (!s.arb.hb)]
      else exec .trailHeartbeat s = .next s) ∧
    (∀ us : BitVec 7, if s.isTrail = true then exec (.stageLengthWrite us) s = .next s
      else Gives (.stageLengthWrite us) s fun u => u.get F.TWN_CTL.STAGE_US = us.toNat ∧
        if s.staged then u.twn.newUs = some (clampTo 4 64 us.toNat) ∧ u.twn.openUs = s.twn.openUs
        else u.twn.openUs = clampTo 4 64 us.toNat) ∧
    (∀ (core : Fin 23) (r : Fin 512),
      (ringNamed r = false → Gives (.claimRead core r) s fun u => u.out = s.out ++ [.value 0]) ∧
      (ringNamed r = true → s.isTrail = false → s.staged = false → Gives (.claimRead core r) s fun u =>
        u.claimLast core r = s.claimLive r ∧ u.out = s.out ++ [.value ((s.claimLive r).setWidth 64)]) ∧
      (ringNamed r = true → s.isTrail = false → s.staged = true → s.claimLive r = s.claimLast core r →
        Gives (.claimRead core r) s fun u => tgetD core.val 0 u.twn.polls = tgetD core.val 0 s.twn.polls + 1 ∧
          u.out = s.out ++ [.value ((s.claimLast core r).setWidth 64)]) ∧
      (ringNamed r = true → s.isTrail = false → s.staged = true → s.claimLive r ≠ s.claimLast core r → s.Open →
        Gives (.claimRead core r) s fun u => tgetD core.val 0 u.twn.polls = 0 ∧ u.claimLast core r = s.claimLive r ∧
          u.twn.openRec.length = s.twn.openRec.length + 1 ∧ [.value ((s.claimLive r).setWidth 64)] <:+ u.out) ∧
      (∀ v used, ringNamed r = true → s.isTrail = true → s.claimTry core r = .give v used → Gives (.claimRead core r) s fun u =>
        u.claimLast core r = v ∧ u.out = s.out ++ [.value (v.setWidth 64)]) ∧
      (∀ c, ringNamed r = true → s.isTrail = true → ((c = Instr.claimRead core r ∧ s.claimTry core r = .wrong) ∨
        (c = .claimTimeout core r ∧ s.claimTry core r = .stall)) → Gives c s fun u => u.get F.TWN_STAT.CLTO = 1 ∧
          [.value (BitVec.ofNat 64 (2 ^ 63 + (s.claimLast core r).toNat))] <:+ u.out) ∧
      (s.isTrail = true → s.claimTry core r = .stall → ringNamed r = true → (s.arb.promote = none ∨ s.claimNext core ≠ none) →
        exec (.claimRead core r) s = .next s) ∧
      (s.isTrail = true → ringNamed r = true → s.arb.promote ≠ none → s.claimNext core = none → Gives (.claimRead core r) s fun u =>
        u.claimLast core r = s.claimLive r ∧ u.out = s.out ++ [.value ((s.claimLive r).setWidth 64)]) ∧
      ((s.isTrail = false ∨ ringNamed r = false ∨ s.claimTry core r ≠ .stall) → exec (.claimTimeout core r) s = .next s)) ∧
    (∀ (i : Fin 23) (h : BitVec 16),
      GivesThen (fun u => if u.isTrail then u.deliverGo.settled.promoteGo else u.retryHeld) (.inputRingHeadWrite i h) s fun u =>
        u.get F.TWN_IRHEAD.HEAD i = h.toNat) ∧
    (∀ (core : Fin 24) v, if s.staged
      then Gives (.digestInWrite core v) s fun u => ∃ x, u.twn.accs = accUpd (s.reg .TWN_CSTAGE core) (StageAcc.add 10 x) s.twn.accs
      else exec (.digestInWrite core v) s = .next s) ∧
    (∀ x, (s.staged = false ∨ s.passed x = false) → exec (.stageDigestFinal x) s = .next s) ∧
    (∀ x, s.staged = true → s.passed x = true → (∀ y ∈ s.twn.recent, y.1.toNat < x.toNat) →
      GivesThen (fun u => (u.sendDigests u.twn.finals.length).compareDigests) (.stageDigestFinal x) s fun u =>
        ∃ d, u.twn.finals = s.twn.finals ++ [(x, d)] ∧ u.twn.recent = ((x, d) :: s.twn.recent).take 64) ∧
    (∀ lag, (s.isTrail = false ∨ lag ≤ s.lagLimit) → exec (.lagLimitExceeded lag) s = .next s) ∧
    (∀ lag, s.isTrail = true → s.lagLimit < lag → (s.twn.rxRecs ≠ [] ∨ s.twn.awaitAck ≠ [] ∨ s.twn.delivering ≠ none) →
      Gives (.lagLimitExceeded lag) s fun u => u.twn.lagging = true ∧ u.get F.TWN_STAT.LAGX = 1) ∧
    (∀ (f : Fin 66) q v, if s.isTrail = true ∧ s.twn.ringDoorbells.contains (f.val, q, v) = true
      then Gives (.trailDoorbellUnmatched f q v) s fun u => u.twn.unmatched = s.twn.unmatched + 1 ∧ u.hif = s.hif
      else exec (.trailDoorbellUnmatched f q v) s = .next s) ∧
    (∀ lanes, Gives (.twinLinkDown lanes) s fun u => u.get F.TWN_LINK.LANES = lanes.toNat ∧
      u.get F.TWN_STAT.LINK_UP = if laneCount lanes < 2 then 0 else s.get F.TWN_STAT.LINK_UP) ∧
    ∀ lanes, Gives (.twinLinkRetrain lanes) s fun u => u.get F.TWN_LINK.LANES = lanes.toNat ∧
      u.get F.TWN_LINK.RETRAINS = min F.TWN_LINK.RETRAINS.max (s.get F.TWN_LINK.RETRAINS + 1) ∧
      u.get F.TWN_STAT.LINK_UP = if laneCount lanes < 2 then s.get F.TWN_STAT.LINK_UP else 1

/-- R301, R355 to R391, R418, R456 and R481: the arbiter link, fencing, pairing and rejoin, and the mailbox group 0x03xx. -/
def Obligations.ArbitrationCommands : Prop :=
  ∀ s : State, s.Runs →
    (if s.get F.HIF_TWNSTAT.ARB_LOST = 1 then exec .arbiterLost s = .next s
      else Gives .arbiterLost s fun u => u.arb.good = 0 ∧ ∀ i, i < 66 → u.get F.HIF_TWNSTAT.ARB_LOST i = 1) ∧
    (Gives .statusSend s fun u => ∃ l, u.out = s.out ++ [.arb (s.arbFrame 2 l)] ∧
      l.take 3 = leBytes 1 s.straps.twinId.toNat ++ leBytes 1 s.twState ++ leBytes 1 (s.get F.HIF_TWNSTAT.ROLE)) ∧
    (∀ q x n, Gives (.query q x n) s fun u => u.twn.frozen = true ∧ u.arb.query = some x ∧ u.arb.mseqRx = some q ∧ u.arb.rj.active = false) ∧
    (if s.twn.frozen then Gives .queryFreezeTimeout s fun u => u.twn.frozen = false ∧ u.arb.query = none
      else exec .queryFreezeTimeout s = .next s) ∧
    (∀ q l n x, (s.staged = false ∨ l.toNat ≠ s.peerId ∨ s.arb.promote ≠ none) → Gives (.verdict q l n x) s fun u =>
      u.twn.frozen = false ∧ u.arb.query = none ∧ u.arb.mseqRx = some q) ∧
    (∀ c n, s.staged = true → s.arb.promote = none →
      (∃ q l x, c = Instr.verdict q l n x ∧ l.toNat = s.peerId) ∨ (c = .leadContinueAlone ∧ n = 2 ∧ s.pairedLead = true ∧
        s.get F.HIF_TWNSTAT.ARB_LOST = 1 ∧ ∃ t, s.arb.linkDownAt = some t ∧ t + 4 * s.twn.openUs ≤ s.elapsed) →
      (s.isTrail = false → GivesThen State.flow c s fun u => u.get F.TWN_CTL.MODE = 3 ∧ u.get F.TWN_STAT.PAIRED = 0 ∧
        u.twState = 3 ∧ u.twn.frozen = false ∧ u.hif.fenceCnt = s.hif.fenceCnt + 1 ∧ u.hif.lastLoser = s.peerId ∧ u.hif.lastCause = n) ∧
      (s.isTrail = true → GivesThen State.promoteGo c s fun u => u.arb.promote = some n ∧ u.twn.rxEnts = [])) ∧
    ((s.arb.linkDownAt = none ∨ s.pairedLead = false ∨ s.get F.HIF_TWNSTAT.ARB_LOST = 0) → exec .leadContinueAlone s = .next s) ∧
    (∀ q p, (p ≠ 0 ∨ s.awaitsPeer = false) → Gives (.arbHello q p) s fun u => u.arb.peer = p ∧ u.arb.mseqRx = some q) ∧
    (∀ q, s.awaitsPeer = true → GivesThen State.alone (.arbHello q 0) s fun u => u.arb.peer = 0 ∧ u.pow.fenceA = true ∧ u.twState = 0) ∧
    (Gives .fenceNAssert s fun u => u.arb.fenceLow = true ∧ u.arb.outcast = true ∧ u.arb.hb = false ∧ u.get F.TWN_STAT.PAIRED = 0 ∧
      (∀ i, i < 66 → u.get F.HIF_TWNSTAT.STATE i = 4) ∧ [.pin 2 false] <:+ u.out) ∧
    (if s.arb.fenceLow then s.pow.dumping = false → GivesThen State.flow .fenceNRelease s fun u =>
        u.arb.fenceLow = false ∧ u.arb.outcast = s.arb.outcast ∧ ∀ c ∈ u.hif.ctxs, c.admin = true
      else exec .fenceNRelease s = .next s) ∧
    (s.get F.TWN_STAT.LINK_UP = 0 → ∀ h r p e d ad b cut snap why, ∀ c ∈ [Instr.pairHello h, .pairResult r p e d, .rsyncData ad b,
      .rsyncCut cut snap, .rsyncAbort why], exec c s = .next s) ∧
    (s.get F.TWN_STAT.LINK_UP = 1 →
      (∀ h, s.twState = 3 → s.arb.rj.active = false → GivesThen (fun u => u.sendResult 5) (.pairHello h) s fun u => u.arb.hello = some h) ∧
      (∀ h, s.twState = 3 → s.arb.rj.active = true → s.arb.rj.pass = 0 → GivesThen (fun u => u.judgeJoiner h) (.pairHello h) s fun u =>
        u.arb.hello = some h) ∧
      (∀ h, s.twState ≠ 3 → s.mayJoin = true → GivesThen State.sendHelloTwin (.pairHello h) s fun u => u.arb.hello = some h ∧
        u.joining = true ∧ u.arb.rj.was = s.twState ∧ u.twState = 5 ∧ u.get F.TWN_CTL.MODE = 2 ∧ u.get F.TWN_STAT.ROLE = 1) ∧
      (∀ h, s.twState = 1 → s.bootState = 3 → s.straps.twinId = false → s.mayJoin = false →
        GivesThen (fun u => u.judgeHello h) (.pairHello h) s fun u => u.arb.hello = some h) ∧
      (∀ r p e d, s.arb.hello = none → s.twState = 1 → Gives (.pairResult r p e d) s fun u => u.arb.waitRejoin = true) ∧
      (∀ h p e d, s.arb.hello = some h → s.joining = true → Gives (.pairResult 0 p e d) s fun u => u.arb.pairId = p ∧ u.epoch = e ∧
        u.dtime = d ∧ u.keys.genTx = s.keys.genTx + 1 ∧ u.arb.waitRejoin = false) ∧
      (∀ h r p e d, s.arb.hello = some h → s.joining = true → r ≠ 0 → s.arb.rj.was ≤ 5 → Gives (.pairResult r p e d) s fun u =>
        u.arb.rj.active = false ∧ u.twState = s.arb.rj.was ∧ u.get F.TWN_CTL.MODE = 0) ∧
      (∀ ad b, s.joining = true → s.arb.rj.cut = none → GivesThen (fun u => u.wrBytes ad b) (.rsyncData ad b) s fun u =>
        u.mem = s.mem ∧ u.twn.mseqRx = s.twn.mseqRx + 1) ∧
      (∀ ad b, (s.joining = false ∨ s.arb.rj.cut ≠ none) → exec (.rsyncData ad b) s = .next s) ∧
      (∀ x l, (s.joining = false ∨ s.arb.rj.cut ≠ none) → exec (.rsyncCut x l) s = .next s) ∧
      (∀ x l, s.joining = true → s.arb.rj.cut = none → Gives (.rsyncCut x l) s fun u => u.arb.rj.cut = some x ∧ u.arb.outcast = false ∧
        u.reg .TWN_STAGE 0 = x ∧ u.bootState = 6 ∧ u.health.ready = true ∧ u.hif.fenceCnt = l.hif.fenceCnt ∧
        u.hif.mediaErrs = l.hif.mediaErrs ∧ u.map = l.map ∧ u.conv = l.conv) ∧
      (∀ why, s.arb.rj.active = false → exec (.rsyncAbort why) s = .next s) ∧
      ∀ why, s.arb.rj.active = true → Gives (.rsyncAbort why) s fun u => u.arb.rj.active = false) ∧
    (∀ n, (s.arb.rj.active = false ∨ s.arb.rj.joiner = true ∨ s.arb.rj.pass = 0 ∨ s.arb.rj.cut ≠ none ∨ s.arb.rj.cutNext = true) →
      exec (.rsyncPassEnd n) s = .next s) ∧
    (∀ n, s.arb.rj.active = true → s.arb.rj.joiner = false → s.arb.rj.pass ≠ 0 → s.arb.rj.cut = none → s.arb.rj.cutNext = false →
      (4096 * n ≤ s.setting 0x10 * 2 ^ 20 → Gives (.rsyncPassEnd n) s fun u => u.arb.rj.cutNext = true) ∧
      (s.setting 0x10 * 2 ^ 20 < 4096 * n → 64 ≤ s.arb.rj.pass → Gives (.rsyncPassEnd n) s fun u => u.arb.rj.active = false) ∧
      (s.setting 0x10 * 2 ^ 20 < 4096 * n → s.arb.rj.pass < 64 → GivesThen State.sendDirty (.rsyncPassEnd n) s fun u =>
        u.arb.rj.pass = s.arb.rj.pass + 1 ∧ u.arb.rj.passPages = n)) ∧
    (∀ x, (s.arb.rj.active = false ∨ s.arb.rj.cut = none ∨ s.arb.rj.live ≠ none) → exec (.rsyncLive x) s = .next s) ∧
    (∀ x, s.arb.rj.active = true → s.arb.rj.cut ≠ none → s.arb.rj.live = none → (s.arb.rj.joiner = true → s.twn.lagging = false) →
      Gives (.rsyncLive x) s fun u => u.arb.rj.live = some x ∧ (s.arb.rj.joiner = false → u.arb.rj.ready = true)) ∧
    ∀ (m : Msg) (a : Arrival),
      (s.Admits 0x0301 20 m → s.twState = 3 → s.arb.rj.active = false → s.get F.HIF_TWNSTAT.ARB_LOST = 0 → s.arb.peer = 1 →
        s.get F.TWN_STAT.LINK_UP = 1 → GivesThen State.sendHelloTwin (.rejoin m .here s.peerId) s fun u => u.arb.rj = { active := true } ∧
          u.mbx.waits = s.mbx.waits ++ [{ m := m, here := true, what := 6, arg := 0 }]) ∧
      (∀ j, s.Admits 0x0301 20 m → (s.twState ≠ 3 ∨ a = .peer) → Gives (.rejoin m a j) s fun u => u.arb = s.arb ∧ u.Answered m 0x0301 7 []) ∧
      (s.Admits 0x0302 16 m → if s.atLead a = true ∧ s.arb.rj.active = true ∧ (s.arb.rj.ready = true ∨ (s.joining = true ∧ s.arb.rj.live ≠ none))
        then Gives (.arm m a) s fun u => u.get F.TWN_STAT.PAIRED = 1 ∧ u.twState = 2 ∧ u.arb.rj.active = false ∧
          u.get F.TWN_STAT.ROLE = s.joining.toNat ∧ ∃ b, u.Answered m 0x0302 0 b
        else Gives (.arm m a) s fun u => u.arb = s.arb ∧ u.Answered m 0x0302 7 []) ∧
      (s.Admits 0x0303 16 m → if s.atLead a = true ∧ s.twState = 2 ∧ s.get F.HIF_TWNSTAT.ARB_LOST = 0
        then Gives (.swap m a) s fun u => u.Answered m 0x0303 0 (leBytes 8 (s.reg .TWN_STAGE 0).toNat) ∧
          (s.isTrail = false → u.arb.swap = some (s.reg .TWN_STAGE 0))
        else Gives (.swap m a) s fun u => u.arb = s.arb ∧ u.Answered m 0x0303 7 []) ∧
      (∀ n, s.Admits 0x0304 20 m → if 1 < n then Gives (.fence m a n) s fun u => u.arb = s.arb ∧ u.Answered m 0x0304 2 []
        else Gives (.fence m a n) s fun u => u.mbx.waits = s.mbx.waits ++ [{ m := m, here := isHere a, what := 5, arg := 0 }] ∧
          u.out = if a = .here then s.out ++ [.arb (s.arbFrame 5 [2, BitVec.ofNat 8 n, 0, 0])] else s.out) ∧
      ∀ n, s.Admits 0x0305 20 m → if s.twState = 3 ∧ a = .here
        then if n ≤ 1 then Gives (.release m a n) s fun u => [.arb (s.arbFrame 5 [1, BitVec.ofNat 8 n, 0, 0])] <:+: u.out ∧ u.Answered m 0x0305 0 []
          else Gives (.release m a n) s fun u => u.arb = s.arb ∧ u.Answered m 0x0305 2 []
        else Gives (.release m a n) s fun u => u.arb = s.arb ∧ u.Answered m 0x0305 7 []
end

