-- ==== Sys2Proof/Laws/State.lean ====
section
/-! SUPPORT. One lemma per field per elementary update of the state: what it leaves alone. -/

namespace Sys2Proof.Machine

/-! ### setReg and put -/

@[simp] theorem State.setReg_mem (s : State) (r : RegName) (i : Nat) (v : BitVec 64) : (s.setReg r i v).mem = s.mem := rfl
@[simp] theorem State.setReg_snor (s : State) (r : RegName) (i : Nat) (v : BitVec 64) : (s.setReg r i v).snor = s.snor := rfl
@[simp] theorem State.setReg_straps (s : State) (r : RegName) (i : Nat) (v : BitVec 64) : (s.setReg r i v).straps = s.straps := rfl
@[simp] theorem State.setReg_dtime (s : State) (r : RegName) (i : Nat) (v : BitVec 64) : (s.setReg r i v).dtime = s.dtime := rfl
@[simp] theorem State.setReg_epoch (s : State) (r : RegName) (i : Nat) (v : BitVec 64) : (s.setReg r i v).epoch = s.epoch := rfl
@[simp] theorem State.setReg_elapsed (s : State) (r : RegName) (i : Nat) (v : BitVec 64) : (s.setReg r i v).elapsed = s.elapsed := rfl
@[simp] theorem State.setReg_accErr (s : State) (r : RegName) (i : Nat) (v : BitVec 64) : (s.setReg r i v).accErr = s.accErr := rfl
@[simp] theorem State.setReg_debugErrs (s : State) (r : RegName) (i : Nat) (v : BitVec 64) : (s.setReg r i v).debugErrs = s.debugErrs := rfl
@[simp] theorem State.setReg_freeNo (s : State) (r : RegName) (i : Nat) (v : BitVec 64) : (s.setReg r i v).freeNo = s.freeNo := rfl
@[simp] theorem State.setReg_inReset (s : State) (r : RegName) (i : Nat) (v : BitVec 64) : (s.setReg r i v).inReset = s.inReset := rfl
@[simp] theorem State.setReg_evt (s : State) (r : RegName) (i : Nat) (v : BitVec 64) : (s.setReg r i v).evt = s.evt := rfl
@[simp] theorem State.setReg_cic (s : State) (r : RegName) (i : Nat) (v : BitVec 64) : (s.setReg r i v).cic = s.cic := rfl
@[simp] theorem State.setReg_hbm (s : State) (r : RegName) (i : Nat) (v : BitVec 64) : (s.setReg r i v).hbm = s.hbm := rfl
@[simp] theorem State.setReg_nor (s : State) (r : RegName) (i : Nat) (v : BitVec 64) : (s.setReg r i v).nor = s.nor := rfl
@[simp] theorem State.setReg_hkp (s : State) (r : RegName) (i : Nat) (v : BitVec 64) : (s.setReg r i v).hkp = s.hkp := rfl
@[simp] theorem State.setReg_tly (s : State) (r : RegName) (i : Nat) (v : BitVec 64) : (s.setReg r i v).tly = s.tly := rfl
@[simp] theorem State.setReg_packs (s : State) (r : RegName) (i : Nat) (v : BitVec 64) : (s.setReg r i v).packs = s.packs := rfl
@[simp] theorem State.setReg_hif (s : State) (r : RegName) (i : Nat) (v : BitVec 64) : (s.setReg r i v).hif = s.hif := rfl
@[simp] theorem State.setReg_twn (s : State) (r : RegName) (i : Nat) (v : BitVec 64) : (s.setReg r i v).twn = s.twn := rfl
@[simp] theorem State.setReg_map (s : State) (r : RegName) (i : Nat) (v : BitVec 64) : (s.setReg r i v).map = s.map := rfl
@[simp] theorem State.setReg_conv (s : State) (r : RegName) (i : Nat) (v : BitVec 64) : (s.setReg r i v).conv = s.conv := rfl
@[simp] theorem State.setReg_health (s : State) (r : RegName) (i : Nat) (v : BitVec 64) : (s.setReg r i v).health = s.health := rfl
@[simp] theorem State.setReg_pow (s : State) (r : RegName) (i : Nat) (v : BitVec 64) : (s.setReg r i v).pow = s.pow := rfl
@[simp] theorem State.setReg_setv (s : State) (r : RegName) (i : Nat) (v : BitVec 64) : (s.setReg r i v).setv = s.setv := rfl
@[simp] theorem State.setReg_sgen (s : State) (r : RegName) (i : Nat) (v : BitVec 64) : (s.setReg r i v).sgen = s.sgen := rfl
@[simp] theorem State.setReg_fab (s : State) (r : RegName) (i : Nat) (v : BitVec 64) : (s.setReg r i v).fab = s.fab := rfl
@[simp] theorem State.setReg_fw (s : State) (r : RegName) (i : Nat) (v : BitVec 64) : (s.setReg r i v).fw = s.fw := rfl
@[simp] theorem State.setReg_mbx (s : State) (r : RegName) (i : Nat) (v : BitVec 64) : (s.setReg r i v).mbx = s.mbx := rfl
@[simp] theorem State.setReg_keys (s : State) (r : RegName) (i : Nat) (v : BitVec 64) : (s.setReg r i v).keys = s.keys := rfl
@[simp] theorem State.setReg_arb (s : State) (r : RegName) (i : Nat) (v : BitVec 64) : (s.setReg r i v).arb = s.arb := rfl
@[simp] theorem State.setReg_cmpWait (s : State) (r : RegName) (i : Nat) (v : BitVec 64) : (s.setReg r i v).cmpWait = s.cmpWait := rfl
@[simp] theorem State.setReg_gateWait (s : State) (r : RegName) (i : Nat) (v : BitVec 64) : (s.setReg r i v).gateWait = s.gateWait := rfl
@[simp] theorem State.setReg_out (s : State) (r : RegName) (i : Nat) (v : BitVec 64) : (s.setReg r i v).out = s.out := rfl
@[simp] theorem State.setReg_pending (s : State) (r : RegName) (i : Nat) (v : BitVec 64) : (s.setReg r i v).pending = s.pending := rfl

@[simp] theorem State.put_mem (s : State) (f : Fld) (i x : Nat) : (s.put f i x).mem = s.mem := rfl
@[simp] theorem State.put_snor (s : State) (f : Fld) (i x : Nat) : (s.put f i x).snor = s.snor := rfl
@[simp] theorem State.put_straps (s : State) (f : Fld) (i x : Nat) : (s.put f i x).straps = s.straps := rfl
@[simp] theorem State.put_dtime (s : State) (f : Fld) (i x : Nat) : (s.put f i x).dtime = s.dtime := rfl
@[simp] theorem State.put_epoch (s : State) (f : Fld) (i x : Nat) : (s.put f i x).epoch = s.epoch := rfl
@[simp] theorem State.put_elapsed (s : State) (f : Fld) (i x : Nat) : (s.put f i x).elapsed = s.elapsed := rfl
@[simp] theorem State.put_accErr (s : State) (f : Fld) (i x : Nat) : (s.put f i x).accErr = s.accErr := rfl
@[simp] theorem State.put_debugErrs (s : State) (f : Fld) (i x : Nat) : (s.put f i x).debugErrs = s.debugErrs := rfl
@[simp] theorem State.put_freeNo (s : State) (f : Fld) (i x : Nat) : (s.put f i x).freeNo = s.freeNo := rfl
@[simp] theorem State.put_inReset (s : State) (f : Fld) (i x : Nat) : (s.put f i x).inReset = s.inReset := rfl
@[simp] theorem State.put_evt (s : State) (f : Fld) (i x : Nat) : (s.put f i x).evt = s.evt := rfl
@[simp] theorem State.put_cic (s : State) (f : Fld) (i x : Nat) : (s.put f i x).cic = s.cic := rfl
@[simp] theorem State.put_hbm (s : State) (f : Fld) (i x : Nat) : (s.put f i x).hbm = s.hbm := rfl
@[simp] theorem State.put_nor (s : State) (f : Fld) (i x : Nat) : (s.put f i x).nor = s.nor := rfl
@[simp] theorem State.put_hkp (s : State) (f : Fld) (i x : Nat) : (s.put f i x).hkp = s.hkp := rfl
@[simp] theorem State.put_tly (s : State) (f : Fld) (i x : Nat) : (s.put f i x).tly = s.tly := rfl
@[simp] theorem State.put_packs (s : State) (f : Fld) (i x : Nat) : (s.put f i x).packs = s.packs := rfl
@[simp] theorem State.put_hif (s : State) (f : Fld) (i x : Nat) : (s.put f i x).hif = s.hif := rfl
@[simp] theorem State.put_twn (s : State) (f : Fld) (i x : Nat) : (s.put f i x).twn = s.twn := rfl
@[simp] theorem State.put_map (s : State) (f : Fld) (i x : Nat) : (s.put f i x).map = s.map := rfl
@[simp] theorem State.put_conv (s : State) (f : Fld) (i x : Nat) : (s.put f i x).conv = s.conv := rfl
@[simp] theorem State.put_health (s : State) (f : Fld) (i x : Nat) : (s.put f i x).health = s.health := rfl
@[simp] theorem State.put_pow (s : State) (f : Fld) (i x : Nat) : (s.put f i x).pow = s.pow := rfl
@[simp] theorem State.put_setv (s : State) (f : Fld) (i x : Nat) : (s.put f i x).setv = s.setv := rfl
@[simp] theorem State.put_sgen (s : State) (f : Fld) (i x : Nat) : (s.put f i x).sgen = s.sgen := rfl
@[simp] theorem State.put_fab (s : State) (f : Fld) (i x : Nat) : (s.put f i x).fab = s.fab := rfl
@[simp] theorem State.put_fw (s : State) (f : Fld) (i x : Nat) : (s.put f i x).fw = s.fw := rfl
@[simp] theorem State.put_mbx (s : State) (f : Fld) (i x : Nat) : (s.put f i x).mbx = s.mbx := rfl
@[simp] theorem State.put_keys (s : State) (f : Fld) (i x : Nat) : (s.put f i x).keys = s.keys := rfl
@[simp] theorem State.put_arb (s : State) (f : Fld) (i x : Nat) : (s.put f i x).arb = s.arb := rfl
@[simp] theorem State.put_cmpWait (s : State) (f : Fld) (i x : Nat) : (s.put f i x).cmpWait = s.cmpWait := rfl
@[simp] theorem State.put_gateWait (s : State) (f : Fld) (i x : Nat) : (s.put f i x).gateWait = s.gateWait := rfl
@[simp] theorem State.put_out (s : State) (f : Fld) (i x : Nat) : (s.put f i x).out = s.out := rfl
@[simp] theorem State.put_pending (s : State) (f : Fld) (i x : Nat) : (s.put f i x).pending = s.pending := rfl

@[simp] theorem State.bump_mem (s : State) (f : Fld) (i n : Nat) : (s.bump f i n).mem = s.mem := rfl
@[simp] theorem State.bump_snor (s : State) (f : Fld) (i n : Nat) : (s.bump f i n).snor = s.snor := rfl
@[simp] theorem State.bump_straps (s : State) (f : Fld) (i n : Nat) : (s.bump f i n).straps = s.straps := rfl
@[simp] theorem State.bump_dtime (s : State) (f : Fld) (i n : Nat) : (s.bump f i n).dtime = s.dtime := rfl
@[simp] theorem State.bump_epoch (s : State) (f : Fld) (i n : Nat) : (s.bump f i n).epoch = s.epoch := rfl
@[simp] theorem State.bump_elapsed (s : State) (f : Fld) (i n : Nat) : (s.bump f i n).elapsed = s.elapsed := rfl
@[simp] theorem State.bump_accErr (s : State) (f : Fld) (i n : Nat) : (s.bump f i n).accErr = s.accErr := rfl
@[simp] theorem State.bump_debugErrs (s : State) (f : Fld) (i n : Nat) : (s.bump f i n).debugErrs = s.debugErrs := rfl
@[simp] theorem State.bump_freeNo (s : State) (f : Fld) (i n : Nat) : (s.bump f i n).freeNo = s.freeNo := rfl
@[simp] theorem State.bump_inReset (s : State) (f : Fld) (i n : Nat) : (s.bump f i n).inReset = s.inReset := rfl
@[simp] theorem State.bump_evt (s : State) (f : Fld) (i n : Nat) : (s.bump f i n).evt = s.evt := rfl
@[simp] theorem State.bump_cic (s : State) (f : Fld) (i n : Nat) : (s.bump f i n).cic = s.cic := rfl
@[simp] theorem State.bump_hbm (s : State) (f : Fld) (i n : Nat) : (s.bump f i n).hbm = s.hbm := rfl
@[simp] theorem State.bump_nor (s : State) (f : Fld) (i n : Nat) : (s.bump f i n).nor = s.nor := rfl
@[simp] theorem State.bump_hkp (s : State) (f : Fld) (i n : Nat) : (s.bump f i n).hkp = s.hkp := rfl
@[simp] theorem State.bump_tly (s : State) (f : Fld) (i n : Nat) : (s.bump f i n).tly = s.tly := rfl
@[simp] theorem State.bump_packs (s : State) (f : Fld) (i n : Nat) : (s.bump f i n).packs = s.packs := rfl
@[simp] theorem State.bump_hif (s : State) (f : Fld) (i n : Nat) : (s.bump f i n).hif = s.hif := rfl
@[simp] theorem State.bump_twn (s : State) (f : Fld) (i n : Nat) : (s.bump f i n).twn = s.twn := rfl
@[simp] theorem State.bump_map (s : State) (f : Fld) (i n : Nat) : (s.bump f i n).map = s.map := rfl
@[simp] theorem State.bump_conv (s : State) (f : Fld) (i n : Nat) : (s.bump f i n).conv = s.conv := rfl
@[simp] theorem State.bump_health (s : State) (f : Fld) (i n : Nat) : (s.bump f i n).health = s.health := rfl
@[simp] theorem State.bump_pow (s : State) (f : Fld) (i n : Nat) : (s.bump f i n).pow = s.pow := rfl
@[simp] theorem State.bump_setv (s : State) (f : Fld) (i n : Nat) : (s.bump f i n).setv = s.setv := rfl
@[simp] theorem State.bump_sgen (s : State) (f : Fld) (i n : Nat) : (s.bump f i n).sgen = s.sgen := rfl
@[simp] theorem State.bump_fab (s : State) (f : Fld) (i n : Nat) : (s.bump f i n).fab = s.fab := rfl
@[simp] theorem State.bump_fw (s : State) (f : Fld) (i n : Nat) : (s.bump f i n).fw = s.fw := rfl
@[simp] theorem State.bump_mbx (s : State) (f : Fld) (i n : Nat) : (s.bump f i n).mbx = s.mbx := rfl
@[simp] theorem State.bump_keys (s : State) (f : Fld) (i n : Nat) : (s.bump f i n).keys = s.keys := rfl
@[simp] theorem State.bump_arb (s : State) (f : Fld) (i n : Nat) : (s.bump f i n).arb = s.arb := rfl
@[simp] theorem State.bump_cmpWait (s : State) (f : Fld) (i n : Nat) : (s.bump f i n).cmpWait = s.cmpWait := rfl
@[simp] theorem State.bump_gateWait (s : State) (f : Fld) (i n : Nat) : (s.bump f i n).gateWait = s.gateWait := rfl
@[simp] theorem State.bump_out (s : State) (f : Fld) (i n : Nat) : (s.bump f i n).out = s.out := rfl
@[simp] theorem State.bump_pending (s : State) (f : Fld) (i n : Nat) : (s.bump f i n).pending = s.pending := rfl

/-! ### Secure NOR and memory -/

@[simp] theorem State.setNorByte_regs (s : State) (a : Nat) (b : Byte) : (s.setNorByte a b).regs = s.regs := rfl
@[simp] theorem State.setNorByte_mem (s : State) (a : Nat) (b : Byte) : (s.setNorByte a b).mem = s.mem := rfl
@[simp] theorem State.setNorByte_straps (s : State) (a : Nat) (b : Byte) : (s.setNorByte a b).straps = s.straps := rfl
@[simp] theorem State.setNorByte_dtime (s : State) (a : Nat) (b : Byte) : (s.setNorByte a b).dtime = s.dtime := rfl
@[simp] theorem State.setNorByte_epoch (s : State) (a : Nat) (b : Byte) : (s.setNorByte a b).epoch = s.epoch := rfl
@[simp] theorem State.setNorByte_elapsed (s : State) (a : Nat) (b : Byte) : (s.setNorByte a b).elapsed = s.elapsed := rfl
@[simp] theorem State.setNorByte_accErr (s : State) (a : Nat) (b : Byte) : (s.setNorByte a b).accErr = s.accErr := rfl
@[simp] theorem State.setNorByte_debugErrs (s : State) (a : Nat) (b : Byte) : (s.setNorByte a b).debugErrs = s.debugErrs := rfl
@[simp] theorem State.setNorByte_freeNo (s : State) (a : Nat) (b : Byte) : (s.setNorByte a b).freeNo = s.freeNo := rfl
@[simp] theorem State.setNorByte_inReset (s : State) (a : Nat) (b : Byte) : (s.setNorByte a b).inReset = s.inReset := rfl
@[simp] theorem State.setNorByte_evt (s : State) (a : Nat) (b : Byte) : (s.setNorByte a b).evt = s.evt := rfl
@[simp] theorem State.setNorByte_cic (s : State) (a : Nat) (b : Byte) : (s.setNorByte a b).cic = s.cic := rfl
@[simp] theorem State.setNorByte_hbm (s : State) (a : Nat) (b : Byte) : (s.setNorByte a b).hbm = s.hbm := rfl
@[simp] theorem State.setNorByte_nor (s : State) (a : Nat) (b : Byte) : (s.setNorByte a b).nor = s.nor := rfl
@[simp] theorem State.setNorByte_hkp (s : State) (a : Nat) (b : Byte) : (s.setNorByte a b).hkp = s.hkp := rfl
@[simp] theorem State.setNorByte_tly (s : State) (a : Nat) (b : Byte) : (s.setNorByte a b).tly = s.tly := rfl
@[simp] theorem State.setNorByte_packs (s : State) (a : Nat) (b : Byte) : (s.setNorByte a b).packs = s.packs := rfl
@[simp] theorem State.setNorByte_hif (s : State) (a : Nat) (b : Byte) : (s.setNorByte a b).hif = s.hif := rfl
@[simp] theorem State.setNorByte_twn (s : State) (a : Nat) (b : Byte) : (s.setNorByte a b).twn = s.twn := rfl
@[simp] theorem State.setNorByte_map (s : State) (a : Nat) (b : Byte) : (s.setNorByte a b).map = s.map := rfl
@[simp] theorem State.setNorByte_conv (s : State) (a : Nat) (b : Byte) : (s.setNorByte a b).conv = s.conv := rfl
@[simp] theorem State.setNorByte_health (s : State) (a : Nat) (b : Byte) : (s.setNorByte a b).health = s.health := rfl
@[simp] theorem State.setNorByte_pow (s : State) (a : Nat) (b : Byte) : (s.setNorByte a b).pow = s.pow := rfl
@[simp] theorem State.setNorByte_setv (s : State) (a : Nat) (b : Byte) : (s.setNorByte a b).setv = s.setv := rfl
@[simp] theorem State.setNorByte_sgen (s : State) (a : Nat) (b : Byte) : (s.setNorByte a b).sgen = s.sgen := rfl
@[simp] theorem State.setNorByte_fab (s : State) (a : Nat) (b : Byte) : (s.setNorByte a b).fab = s.fab := rfl
@[simp] theorem State.setNorByte_fw (s : State) (a : Nat) (b : Byte) : (s.setNorByte a b).fw = s.fw := rfl
@[simp] theorem State.setNorByte_mbx (s : State) (a : Nat) (b : Byte) : (s.setNorByte a b).mbx = s.mbx := rfl
@[simp] theorem State.setNorByte_keys (s : State) (a : Nat) (b : Byte) : (s.setNorByte a b).keys = s.keys := rfl
@[simp] theorem State.setNorByte_arb (s : State) (a : Nat) (b : Byte) : (s.setNorByte a b).arb = s.arb := rfl
@[simp] theorem State.setNorByte_cmpWait (s : State) (a : Nat) (b : Byte) : (s.setNorByte a b).cmpWait = s.cmpWait := rfl
@[simp] theorem State.setNorByte_gateWait (s : State) (a : Nat) (b : Byte) : (s.setNorByte a b).gateWait = s.gateWait := rfl
@[simp] theorem State.setNorByte_out (s : State) (a : Nat) (b : Byte) : (s.setNorByte a b).out = s.out := rfl
@[simp] theorem State.setNorByte_pending (s : State) (a : Nat) (b : Byte) : (s.setNorByte a b).pending = s.pending := rfl

@[simp] theorem State.dirtied_regs (s : State) (a : Nat) : (s.dirtied a).regs = s.regs := by unfold State.dirtied; split <;> rfl
@[simp] theorem State.dirtied_mem (s : State) (a : Nat) : (s.dirtied a).mem = s.mem := by unfold State.dirtied; split <;> rfl
@[simp] theorem State.dirtied_snor (s : State) (a : Nat) : (s.dirtied a).snor = s.snor := by unfold State.dirtied; split <;> rfl
@[simp] theorem State.dirtied_straps (s : State) (a : Nat) : (s.dirtied a).straps = s.straps := by unfold State.dirtied; split <;> rfl
@[simp] theorem State.dirtied_dtime (s : State) (a : Nat) : (s.dirtied a).dtime = s.dtime := by unfold State.dirtied; split <;> rfl
@[simp] theorem State.dirtied_epoch (s : State) (a : Nat) : (s.dirtied a).epoch = s.epoch := by unfold State.dirtied; split <;> rfl
@[simp] theorem State.dirtied_elapsed (s : State) (a : Nat) : (s.dirtied a).elapsed = s.elapsed := by unfold State.dirtied; split <;> rfl
@[simp] theorem State.dirtied_accErr (s : State) (a : Nat) : (s.dirtied a).accErr = s.accErr := by unfold State.dirtied; split <;> rfl
@[simp] theorem State.dirtied_debugErrs (s : State) (a : Nat) : (s.dirtied a).debugErrs = s.debugErrs := by unfold State.dirtied; split <;> rfl
@[simp] theorem State.dirtied_freeNo (s : State) (a : Nat) : (s.dirtied a).freeNo = s.freeNo := by unfold State.dirtied; split <;> rfl
@[simp] theorem State.dirtied_inReset (s : State) (a : Nat) : (s.dirtied a).inReset = s.inReset := by unfold State.dirtied; split <;> rfl
@[simp] theorem State.dirtied_evt (s : State) (a : Nat) : (s.dirtied a).evt = s.evt := by unfold State.dirtied; split <;> rfl
@[simp] theorem State.dirtied_cic (s : State) (a : Nat) : (s.dirtied a).cic = s.cic := by unfold State.dirtied; split <;> rfl
@[simp] theorem State.dirtied_hbm (s : State) (a : Nat) : (s.dirtied a).hbm = s.hbm := by unfold State.dirtied; split <;> rfl
@[simp] theorem State.dirtied_nor (s : State) (a : Nat) : (s.dirtied a).nor = s.nor := by unfold State.dirtied; split <;> rfl
@[simp] theorem State.dirtied_hkp (s : State) (a : Nat) : (s.dirtied a).hkp = s.hkp := by unfold State.dirtied; split <;> rfl
@[simp] theorem State.dirtied_tly (s : State) (a : Nat) : (s.dirtied a).tly = s.tly := by unfold State.dirtied; split <;> rfl
@[simp] theorem State.dirtied_packs (s : State) (a : Nat) : (s.dirtied a).packs = s.packs := by unfold State.dirtied; split <;> rfl
@[simp] theorem State.dirtied_hif (s : State) (a : Nat) : (s.dirtied a).hif = s.hif := by unfold State.dirtied; split <;> rfl
@[simp] theorem State.dirtied_twn (s : State) (a : Nat) : (s.dirtied a).twn = s.twn := by unfold State.dirtied; split <;> rfl
@[simp] theorem State.dirtied_map (s : State) (a : Nat) : (s.dirtied a).map = s.map := by unfold State.dirtied; split <;> rfl
@[simp] theorem State.dirtied_conv (s : State) (a : Nat) : (s.dirtied a).conv = s.conv := by unfold State.dirtied; split <;> rfl
@[simp] theorem State.dirtied_health (s : State) (a : Nat) : (s.dirtied a).health = s.health := by unfold State.dirtied; split <;> rfl
@[simp] theorem State.dirtied_pow (s : State) (a : Nat) : (s.dirtied a).pow = s.pow := by unfold State.dirtied; split <;> rfl
@[simp] theorem State.dirtied_setv (s : State) (a : Nat) : (s.dirtied a).setv = s.setv := by unfold State.dirtied; split <;> rfl
@[simp] theorem State.dirtied_sgen (s : State) (a : Nat) : (s.dirtied a).sgen = s.sgen := by unfold State.dirtied; split <;> rfl
@[simp] theorem State.dirtied_fab (s : State) (a : Nat) : (s.dirtied a).fab = s.fab := by unfold State.dirtied; split <;> rfl
@[simp] theorem State.dirtied_fw (s : State) (a : Nat) : (s.dirtied a).fw = s.fw := by unfold State.dirtied; split <;> rfl
@[simp] theorem State.dirtied_mbx (s : State) (a : Nat) : (s.dirtied a).mbx = s.mbx := by unfold State.dirtied; split <;> rfl
@[simp] theorem State.dirtied_cmpWait (s : State) (a : Nat) : (s.dirtied a).cmpWait = s.cmpWait := by unfold State.dirtied; split <;> rfl
@[simp] theorem State.dirtied_gateWait (s : State) (a : Nat) : (s.dirtied a).gateWait = s.gateWait := by unfold State.dirtied; split <;> rfl
@[simp] theorem State.dirtied_keys (s : State) (a : Nat) : (s.dirtied a).keys = s.keys := by unfold State.dirtied; split <;> rfl
@[simp] theorem State.dirtied_out (s : State) (a : Nat) : (s.dirtied a).out = s.out := by unfold State.dirtied; split <;> rfl
@[simp] theorem State.dirtied_pending (s : State) (a : Nat) : (s.dirtied a).pending = s.pending := by unfold State.dirtied; split <;> rfl

@[simp] theorem State.wrByte_regs (s : State) (a : Nat) (b : Byte) : (s.wrByte a b).regs = s.regs := by unfold State.wrByte; split <;> simp
@[simp] theorem State.wrByte_snor (s : State) (a : Nat) (b : Byte) : (s.wrByte a b).snor = s.snor := by unfold State.wrByte; split <;> simp
@[simp] theorem State.wrByte_straps (s : State) (a : Nat) (b : Byte) : (s.wrByte a b).straps = s.straps := by unfold State.wrByte; split <;> simp
@[simp] theorem State.wrByte_dtime (s : State) (a : Nat) (b : Byte) : (s.wrByte a b).dtime = s.dtime := by unfold State.wrByte; split <;> simp
@[simp] theorem State.wrByte_epoch (s : State) (a : Nat) (b : Byte) : (s.wrByte a b).epoch = s.epoch := by unfold State.wrByte; split <;> simp
@[simp] theorem State.wrByte_elapsed (s : State) (a : Nat) (b : Byte) : (s.wrByte a b).elapsed = s.elapsed := by unfold State.wrByte; split <;> simp
@[simp] theorem State.wrByte_accErr (s : State) (a : Nat) (b : Byte) : (s.wrByte a b).accErr = s.accErr := by unfold State.wrByte; split <;> simp
@[simp] theorem State.wrByte_debugErrs (s : State) (a : Nat) (b : Byte) : (s.wrByte a b).debugErrs = s.debugErrs := by unfold State.wrByte; split <;> simp
@[simp] theorem State.wrByte_freeNo (s : State) (a : Nat) (b : Byte) : (s.wrByte a b).freeNo = s.freeNo := by unfold State.wrByte; split <;> simp
@[simp] theorem State.wrByte_inReset (s : State) (a : Nat) (b : Byte) : (s.wrByte a b).inReset = s.inReset := by unfold State.wrByte; split <;> simp
@[simp] theorem State.wrByte_evt (s : State) (a : Nat) (b : Byte) : (s.wrByte a b).evt = s.evt := by unfold State.wrByte; split <;> simp
@[simp] theorem State.wrByte_cic (s : State) (a : Nat) (b : Byte) : (s.wrByte a b).cic = s.cic := by unfold State.wrByte; split <;> simp
@[simp] theorem State.wrByte_nor (s : State) (a : Nat) (b : Byte) : (s.wrByte a b).nor = s.nor := by unfold State.wrByte; split <;> simp
@[simp] theorem State.wrByte_hkp (s : State) (a : Nat) (b : Byte) : (s.wrByte a b).hkp = s.hkp := by unfold State.wrByte; split <;> simp
@[simp] theorem State.wrByte_tly (s : State) (a : Nat) (b : Byte) : (s.wrByte a b).tly = s.tly := by unfold State.wrByte; split <;> simp
@[simp] theorem State.wrByte_packs (s : State) (a : Nat) (b : Byte) : (s.wrByte a b).packs = s.packs := by unfold State.wrByte; split <;> simp
@[simp] theorem State.wrByte_hif (s : State) (a : Nat) (b : Byte) : (s.wrByte a b).hif = s.hif := by unfold State.wrByte; split <;> simp
@[simp] theorem State.wrByte_twn (s : State) (a : Nat) (b : Byte) : (s.wrByte a b).twn = s.twn := by unfold State.wrByte; split <;> simp
@[simp] theorem State.wrByte_map (s : State) (a : Nat) (b : Byte) : (s.wrByte a b).map = s.map := by unfold State.wrByte; split <;> simp
@[simp] theorem State.wrByte_conv (s : State) (a : Nat) (b : Byte) : (s.wrByte a b).conv = s.conv := by unfold State.wrByte; split <;> simp
@[simp] theorem State.wrByte_health (s : State) (a : Nat) (b : Byte) : (s.wrByte a b).health = s.health := by unfold State.wrByte; split <;> simp
@[simp] theorem State.wrByte_pow (s : State) (a : Nat) (b : Byte) : (s.wrByte a b).pow = s.pow := by unfold State.wrByte; split <;> simp
@[simp] theorem State.wrByte_setv (s : State) (a : Nat) (b : Byte) : (s.wrByte a b).setv = s.setv := by unfold State.wrByte; split <;> simp
@[simp] theorem State.wrByte_sgen (s : State) (a : Nat) (b : Byte) : (s.wrByte a b).sgen = s.sgen := by unfold State.wrByte; split <;> simp
@[simp] theorem State.wrByte_fab (s : State) (a : Nat) (b : Byte) : (s.wrByte a b).fab = s.fab := by unfold State.wrByte; split <;> simp
@[simp] theorem State.wrByte_fw (s : State) (a : Nat) (b : Byte) : (s.wrByte a b).fw = s.fw := by unfold State.wrByte; split <;> simp
@[simp] theorem State.wrByte_mbx (s : State) (a : Nat) (b : Byte) : (s.wrByte a b).mbx = s.mbx := by unfold State.wrByte; split <;> simp
@[simp] theorem State.wrByte_keys (s : State) (a : Nat) (b : Byte) : (s.wrByte a b).keys = s.keys := by unfold State.wrByte; split <;> simp
@[simp] theorem State.wrByte_out (s : State) (a : Nat) (b : Byte) : (s.wrByte a b).out = s.out := by unfold State.wrByte; split <;> simp
@[simp] theorem State.wrByte_pending (s : State) (a : Nat) (b : Byte) : (s.wrByte a b).pending = s.pending := by unfold State.wrByte; split <;> simp

/-! ### Counting, drawing, sending, pulsing -/

@[simp] theorem State.accessErr_regs (s : State) (b : Nat) : (s.accessErr b).regs = s.regs := rfl
@[simp] theorem State.accessErr_mem (s : State) (b : Nat) : (s.accessErr b).mem = s.mem := rfl
@[simp] theorem State.accessErr_snor (s : State) (b : Nat) : (s.accessErr b).snor = s.snor := rfl
@[simp] theorem State.accessErr_straps (s : State) (b : Nat) : (s.accessErr b).straps = s.straps := rfl
@[simp] theorem State.accessErr_dtime (s : State) (b : Nat) : (s.accessErr b).dtime = s.dtime := rfl
@[simp] theorem State.accessErr_epoch (s : State) (b : Nat) : (s.accessErr b).epoch = s.epoch := rfl
@[simp] theorem State.accessErr_elapsed (s : State) (b : Nat) : (s.accessErr b).elapsed = s.elapsed := rfl
@[simp] theorem State.accessErr_debugErrs (s : State) (b : Nat) : (s.accessErr b).debugErrs = s.debugErrs := rfl
@[simp] theorem State.accessErr_freeNo (s : State) (b : Nat) : (s.accessErr b).freeNo = s.freeNo := rfl
@[simp] theorem State.accessErr_inReset (s : State) (b : Nat) : (s.accessErr b).inReset = s.inReset := rfl
@[simp] theorem State.accessErr_evt (s : State) (b : Nat) : (s.accessErr b).evt = s.evt := rfl
@[simp] theorem State.accessErr_cic (s : State) (b : Nat) : (s.accessErr b).cic = s.cic := rfl
@[simp] theorem State.accessErr_hbm (s : State) (b : Nat) : (s.accessErr b).hbm = s.hbm := rfl
@[simp] theorem State.accessErr_nor (s : State) (b : Nat) : (s.accessErr b).nor = s.nor := rfl
@[simp] theorem State.accessErr_hkp (s : State) (b : Nat) : (s.accessErr b).hkp = s.hkp := rfl
@[simp] theorem State.accessErr_tly (s : State) (b : Nat) : (s.accessErr b).tly = s.tly := rfl
@[simp] theorem State.accessErr_packs (s : State) (b : Nat) : (s.accessErr b).packs = s.packs := rfl
@[simp] theorem State.accessErr_hif (s : State) (b : Nat) : (s.accessErr b).hif = s.hif := rfl
@[simp] theorem State.accessErr_twn (s : State) (b : Nat) : (s.accessErr b).twn = s.twn := rfl
@[simp] theorem State.accessErr_map (s : State) (b : Nat) : (s.accessErr b).map = s.map := rfl
@[simp] theorem State.accessErr_conv (s : State) (b : Nat) : (s.accessErr b).conv = s.conv := rfl
@[simp] theorem State.accessErr_health (s : State) (b : Nat) : (s.accessErr b).health = s.health := rfl
@[simp] theorem State.accessErr_pow (s : State) (b : Nat) : (s.accessErr b).pow = s.pow := rfl
@[simp] theorem State.accessErr_setv (s : State) (b : Nat) : (s.accessErr b).setv = s.setv := rfl
@[simp] theorem State.accessErr_sgen (s : State) (b : Nat) : (s.accessErr b).sgen = s.sgen := rfl
@[simp] theorem State.accessErr_fab (s : State) (b : Nat) : (s.accessErr b).fab = s.fab := rfl
@[simp] theorem State.accessErr_fw (s : State) (b : Nat) : (s.accessErr b).fw = s.fw := rfl
@[simp] theorem State.accessErr_mbx (s : State) (b : Nat) : (s.accessErr b).mbx = s.mbx := rfl
@[simp] theorem State.accessErr_keys (s : State) (b : Nat) : (s.accessErr b).keys = s.keys := rfl
@[simp] theorem State.accessErr_arb (s : State) (b : Nat) : (s.accessErr b).arb = s.arb := rfl
@[simp] theorem State.accessErr_cmpWait (s : State) (b : Nat) : (s.accessErr b).cmpWait = s.cmpWait := rfl
@[simp] theorem State.accessErr_gateWait (s : State) (b : Nat) : (s.accessErr b).gateWait = s.gateWait := rfl
@[simp] theorem State.accessErr_out (s : State) (b : Nat) : (s.accessErr b).out = s.out := rfl
@[simp] theorem State.accessErr_pending (s : State) (b : Nat) : (s.accessErr b).pending = s.pending := rfl

@[simp] theorem State.drawn_regs (s : State) : (s.drawn).regs = s.regs := rfl
@[simp] theorem State.drawn_mem (s : State) : (s.drawn).mem = s.mem := rfl
@[simp] theorem State.drawn_snor (s : State) : (s.drawn).snor = s.snor := rfl
@[simp] theorem State.drawn_straps (s : State) : (s.drawn).straps = s.straps := rfl
@[simp] theorem State.drawn_dtime (s : State) : (s.drawn).dtime = s.dtime := rfl
@[simp] theorem State.drawn_epoch (s : State) : (s.drawn).epoch = s.epoch := rfl
@[simp] theorem State.drawn_elapsed (s : State) : (s.drawn).elapsed = s.elapsed := rfl
@[simp] theorem State.drawn_accErr (s : State) : (s.drawn).accErr = s.accErr := rfl
@[simp] theorem State.drawn_debugErrs (s : State) : (s.drawn).debugErrs = s.debugErrs := rfl
@[simp] theorem State.drawn_inReset (s : State) : (s.drawn).inReset = s.inReset := rfl
@[simp] theorem State.drawn_evt (s : State) : (s.drawn).evt = s.evt := rfl
@[simp] theorem State.drawn_cic (s : State) : (s.drawn).cic = s.cic := rfl
@[simp] theorem State.drawn_hbm (s : State) : (s.drawn).hbm = s.hbm := rfl
@[simp] theorem State.drawn_nor (s : State) : (s.drawn).nor = s.nor := rfl
@[simp] theorem State.drawn_hkp (s : State) : (s.drawn).hkp = s.hkp := rfl
@[simp] theorem State.drawn_tly (s : State) : (s.drawn).tly = s.tly := rfl
@[simp] theorem State.drawn_packs (s : State) : (s.drawn).packs = s.packs := rfl
@[simp] theorem State.drawn_hif (s : State) : (s.drawn).hif = s.hif := rfl
@[simp] theorem State.drawn_twn (s : State) : (s.drawn).twn = s.twn := rfl
@[simp] theorem State.drawn_map (s : State) : (s.drawn).map = s.map := rfl
@[simp] theorem State.drawn_conv (s : State) : (s.drawn).conv = s.conv := rfl
@[simp] theorem State.drawn_health (s : State) : (s.drawn).health = s.health := rfl
@[simp] theorem State.drawn_pow (s : State) : (s.drawn).pow = s.pow := rfl
@[simp] theorem State.drawn_setv (s : State) : (s.drawn).setv = s.setv := rfl
@[simp] theorem State.drawn_sgen (s : State) : (s.drawn).sgen = s.sgen := rfl
@[simp] theorem State.drawn_fab (s : State) : (s.drawn).fab = s.fab := rfl
@[simp] theorem State.drawn_fw (s : State) : (s.drawn).fw = s.fw := rfl
@[simp] theorem State.drawn_mbx (s : State) : (s.drawn).mbx = s.mbx := rfl
@[simp] theorem State.drawn_keys (s : State) : (s.drawn).keys = s.keys := rfl
@[simp] theorem State.drawn_arb (s : State) : (s.drawn).arb = s.arb := rfl
@[simp] theorem State.drawn_cmpWait (s : State) : (s.drawn).cmpWait = s.cmpWait := rfl
@[simp] theorem State.drawn_gateWait (s : State) : (s.drawn).gateWait = s.gateWait := rfl
@[simp] theorem State.drawn_out (s : State) : (s.drawn).out = s.out := rfl
@[simp] theorem State.drawn_pending (s : State) : (s.drawn).pending = s.pending := rfl

@[simp] theorem State.send_regs (s : State) (o : Out) : (s.send o).regs = s.regs := by unfold State.send; split <;> rfl
@[simp] theorem State.send_mem (s : State) (o : Out) : (s.send o).mem = s.mem := by unfold State.send; split <;> rfl
@[simp] theorem State.send_snor (s : State) (o : Out) : (s.send o).snor = s.snor := by unfold State.send; split <;> rfl
@[simp] theorem State.send_straps (s : State) (o : Out) : (s.send o).straps = s.straps := by unfold State.send; split <;> rfl
@[simp] theorem State.send_dtime (s : State) (o : Out) : (s.send o).dtime = s.dtime := by unfold State.send; split <;> rfl
@[simp] theorem State.send_epoch (s : State) (o : Out) : (s.send o).epoch = s.epoch := by unfold State.send; split <;> rfl
@[simp] theorem State.send_elapsed (s : State) (o : Out) : (s.send o).elapsed = s.elapsed := by unfold State.send; split <;> rfl
@[simp] theorem State.send_accErr (s : State) (o : Out) : (s.send o).accErr = s.accErr := by unfold State.send; split <;> rfl
@[simp] theorem State.send_debugErrs (s : State) (o : Out) : (s.send o).debugErrs = s.debugErrs := by unfold State.send; split <;> rfl
@[simp] theorem State.send_freeNo (s : State) (o : Out) : (s.send o).freeNo = s.freeNo := by unfold State.send; split <;> rfl
@[simp] theorem State.send_inReset (s : State) (o : Out) : (s.send o).inReset = s.inReset := by unfold State.send; split <;> rfl
@[simp] theorem State.send_evt (s : State) (o : Out) : (s.send o).evt = s.evt := by unfold State.send; split <;> rfl
@[simp] theorem State.send_cic (s : State) (o : Out) : (s.send o).cic = s.cic := by unfold State.send; split <;> rfl
@[simp] theorem State.send_hbm (s : State) (o : Out) : (s.send o).hbm = s.hbm := by unfold State.send; split <;> rfl
@[simp] theorem State.send_nor (s : State) (o : Out) : (s.send o).nor = s.nor := by unfold State.send; split <;> rfl
@[simp] theorem State.send_hkp (s : State) (o : Out) : (s.send o).hkp = s.hkp := by unfold State.send; split <;> rfl
@[simp] theorem State.send_tly (s : State) (o : Out) : (s.send o).tly = s.tly := by unfold State.send; split <;> rfl
@[simp] theorem State.send_packs (s : State) (o : Out) : (s.send o).packs = s.packs := by unfold State.send; split <;> rfl
@[simp] theorem State.send_hif (s : State) (o : Out) : (s.send o).hif = s.hif := by unfold State.send; split <;> rfl
@[simp] theorem State.send_twn (s : State) (o : Out) : (s.send o).twn = s.twn := by unfold State.send; split <;> rfl
@[simp] theorem State.send_map (s : State) (o : Out) : (s.send o).map = s.map := by unfold State.send; split <;> rfl
@[simp] theorem State.send_conv (s : State) (o : Out) : (s.send o).conv = s.conv := by unfold State.send; split <;> rfl
@[simp] theorem State.send_health (s : State) (o : Out) : (s.send o).health = s.health := by unfold State.send; split <;> rfl
@[simp] theorem State.send_pow (s : State) (o : Out) : (s.send o).pow = s.pow := by unfold State.send; split <;> rfl
@[simp] theorem State.send_setv (s : State) (o : Out) : (s.send o).setv = s.setv := by unfold State.send; split <;> rfl
@[simp] theorem State.send_sgen (s : State) (o : Out) : (s.send o).sgen = s.sgen := by unfold State.send; split <;> rfl
@[simp] theorem State.send_fab (s : State) (o : Out) : (s.send o).fab = s.fab := by unfold State.send; split <;> rfl
@[simp] theorem State.send_fw (s : State) (o : Out) : (s.send o).fw = s.fw := by unfold State.send; split <;> rfl
@[simp] theorem State.send_mbx (s : State) (o : Out) : (s.send o).mbx = s.mbx := by unfold State.send; split <;> rfl
@[simp] theorem State.send_keys (s : State) (o : Out) : (s.send o).keys = s.keys := by unfold State.send; split <;> rfl
@[simp] theorem State.send_arb (s : State) (o : Out) : (s.send o).arb = s.arb := by unfold State.send; split <;> rfl
@[simp] theorem State.send_cmpWait (s : State) (o : Out) : (s.send o).cmpWait = s.cmpWait := by unfold State.send; split <;> rfl
@[simp] theorem State.send_gateWait (s : State) (o : Out) : (s.send o).gateWait = s.gateWait := by unfold State.send; split <;> rfl
@[simp] theorem State.send_pending (s : State) (o : Out) : (s.send o).pending = s.pending := by unfold State.send; split <;> rfl

@[simp] theorem State.enqPulse_regs (s : State) (l : Nat) : (s.enqPulse l).regs = s.regs := rfl
@[simp] theorem State.enqPulse_mem (s : State) (l : Nat) : (s.enqPulse l).mem = s.mem := rfl
@[simp] theorem State.enqPulse_snor (s : State) (l : Nat) : (s.enqPulse l).snor = s.snor := rfl
@[simp] theorem State.enqPulse_straps (s : State) (l : Nat) : (s.enqPulse l).straps = s.straps := rfl
@[simp] theorem State.enqPulse_dtime (s : State) (l : Nat) : (s.enqPulse l).dtime = s.dtime := rfl
@[simp] theorem State.enqPulse_epoch (s : State) (l : Nat) : (s.enqPulse l).epoch = s.epoch := rfl
@[simp] theorem State.enqPulse_elapsed (s : State) (l : Nat) : (s.enqPulse l).elapsed = s.elapsed := rfl
@[simp] theorem State.enqPulse_accErr (s : State) (l : Nat) : (s.enqPulse l).accErr = s.accErr := rfl
@[simp] theorem State.enqPulse_debugErrs (s : State) (l : Nat) : (s.enqPulse l).debugErrs = s.debugErrs := rfl
@[simp] theorem State.enqPulse_freeNo (s : State) (l : Nat) : (s.enqPulse l).freeNo = s.freeNo := rfl
@[simp] theorem State.enqPulse_inReset (s : State) (l : Nat) : (s.enqPulse l).inReset = s.inReset := rfl
@[simp] theorem State.enqPulse_cic (s : State) (l : Nat) : (s.enqPulse l).cic = s.cic := rfl
@[simp] theorem State.enqPulse_hbm (s : State) (l : Nat) : (s.enqPulse l).hbm = s.hbm := rfl
@[simp] theorem State.enqPulse_nor (s : State) (l : Nat) : (s.enqPulse l).nor = s.nor := rfl
@[simp] theorem State.enqPulse_hkp (s : State) (l : Nat) : (s.enqPulse l).hkp = s.hkp := rfl
@[simp] theorem State.enqPulse_tly (s : State) (l : Nat) : (s.enqPulse l).tly = s.tly := rfl
@[simp] theorem State.enqPulse_packs (s : State) (l : Nat) : (s.enqPulse l).packs = s.packs := rfl
@[simp] theorem State.enqPulse_hif (s : State) (l : Nat) : (s.enqPulse l).hif = s.hif := rfl
@[simp] theorem State.enqPulse_twn (s : State) (l : Nat) : (s.enqPulse l).twn = s.twn := rfl
@[simp] theorem State.enqPulse_map (s : State) (l : Nat) : (s.enqPulse l).map = s.map := rfl
@[simp] theorem State.enqPulse_conv (s : State) (l : Nat) : (s.enqPulse l).conv = s.conv := rfl
@[simp] theorem State.enqPulse_health (s : State) (l : Nat) : (s.enqPulse l).health = s.health := rfl
@[simp] theorem State.enqPulse_pow (s : State) (l : Nat) : (s.enqPulse l).pow = s.pow := rfl
@[simp] theorem State.enqPulse_setv (s : State) (l : Nat) : (s.enqPulse l).setv = s.setv := rfl
@[simp] theorem State.enqPulse_sgen (s : State) (l : Nat) : (s.enqPulse l).sgen = s.sgen := rfl
@[simp] theorem State.enqPulse_fab (s : State) (l : Nat) : (s.enqPulse l).fab = s.fab := rfl
@[simp] theorem State.enqPulse_fw (s : State) (l : Nat) : (s.enqPulse l).fw = s.fw := rfl
@[simp] theorem State.enqPulse_mbx (s : State) (l : Nat) : (s.enqPulse l).mbx = s.mbx := rfl
@[simp] theorem State.enqPulse_keys (s : State) (l : Nat) : (s.enqPulse l).keys = s.keys := rfl
@[simp] theorem State.enqPulse_arb (s : State) (l : Nat) : (s.enqPulse l).arb = s.arb := rfl
@[simp] theorem State.enqPulse_cmpWait (s : State) (l : Nat) : (s.enqPulse l).cmpWait = s.cmpWait := rfl
@[simp] theorem State.enqPulse_gateWait (s : State) (l : Nat) : (s.enqPulse l).gateWait = s.gateWait := rfl
@[simp] theorem State.enqPulse_out (s : State) (l : Nat) : (s.enqPulse l).out = s.out := rfl
@[simp] theorem State.enqPulse_pending (s : State) (l : Nat) : (s.enqPulse l).pending = s.pending := rfl

@[simp] theorem State.setPk_regs (s : State) (n : Nat) (p : Pack) : (s.setPk n p).regs = s.regs := rfl
@[simp] theorem State.setPk_mem (s : State) (n : Nat) (p : Pack) : (s.setPk n p).mem = s.mem := rfl
@[simp] theorem State.setPk_snor (s : State) (n : Nat) (p : Pack) : (s.setPk n p).snor = s.snor := rfl
@[simp] theorem State.setPk_straps (s : State) (n : Nat) (p : Pack) : (s.setPk n p).straps = s.straps := rfl
@[simp] theorem State.setPk_dtime (s : State) (n : Nat) (p : Pack) : (s.setPk n p).dtime = s.dtime := rfl
@[simp] theorem State.setPk_epoch (s : State) (n : Nat) (p : Pack) : (s.setPk n p).epoch = s.epoch := rfl
@[simp] theorem State.setPk_elapsed (s : State) (n : Nat) (p : Pack) : (s.setPk n p).elapsed = s.elapsed := rfl
@[simp] theorem State.setPk_accErr (s : State) (n : Nat) (p : Pack) : (s.setPk n p).accErr = s.accErr := rfl
@[simp] theorem State.setPk_debugErrs (s : State) (n : Nat) (p : Pack) : (s.setPk n p).debugErrs = s.debugErrs := rfl
@[simp] theorem State.setPk_freeNo (s : State) (n : Nat) (p : Pack) : (s.setPk n p).freeNo = s.freeNo := rfl
@[simp] theorem State.setPk_inReset (s : State) (n : Nat) (p : Pack) : (s.setPk n p).inReset = s.inReset := rfl
@[simp] theorem State.setPk_evt (s : State) (n : Nat) (p : Pack) : (s.setPk n p).evt = s.evt := rfl
@[simp] theorem State.setPk_cic (s : State) (n : Nat) (p : Pack) : (s.setPk n p).cic = s.cic := rfl
@[simp] theorem State.setPk_hbm (s : State) (n : Nat) (p : Pack) : (s.setPk n p).hbm = s.hbm := rfl
@[simp] theorem State.setPk_nor (s : State) (n : Nat) (p : Pack) : (s.setPk n p).nor = s.nor := rfl
@[simp] theorem State.setPk_hkp (s : State) (n : Nat) (p : Pack) : (s.setPk n p).hkp = s.hkp := rfl
@[simp] theorem State.setPk_tly (s : State) (n : Nat) (p : Pack) : (s.setPk n p).tly = s.tly := rfl
@[simp] theorem State.setPk_hif (s : State) (n : Nat) (p : Pack) : (s.setPk n p).hif = s.hif := rfl
@[simp] theorem State.setPk_twn (s : State) (n : Nat) (p : Pack) : (s.setPk n p).twn = s.twn := rfl
@[simp] theorem State.setPk_map (s : State) (n : Nat) (p : Pack) : (s.setPk n p).map = s.map := rfl
@[simp] theorem State.setPk_conv (s : State) (n : Nat) (p : Pack) : (s.setPk n p).conv = s.conv := rfl
@[simp] theorem State.setPk_health (s : State) (n : Nat) (p : Pack) : (s.setPk n p).health = s.health := rfl
@[simp] theorem State.setPk_pow (s : State) (n : Nat) (p : Pack) : (s.setPk n p).pow = s.pow := rfl
@[simp] theorem State.setPk_setv (s : State) (n : Nat) (p : Pack) : (s.setPk n p).setv = s.setv := rfl
@[simp] theorem State.setPk_sgen (s : State) (n : Nat) (p : Pack) : (s.setPk n p).sgen = s.sgen := rfl
@[simp] theorem State.setPk_fab (s : State) (n : Nat) (p : Pack) : (s.setPk n p).fab = s.fab := rfl
@[simp] theorem State.setPk_fw (s : State) (n : Nat) (p : Pack) : (s.setPk n p).fw = s.fw := rfl
@[simp] theorem State.setPk_mbx (s : State) (n : Nat) (p : Pack) : (s.setPk n p).mbx = s.mbx := rfl
@[simp] theorem State.setPk_keys (s : State) (n : Nat) (p : Pack) : (s.setPk n p).keys = s.keys := rfl
@[simp] theorem State.setPk_arb (s : State) (n : Nat) (p : Pack) : (s.setPk n p).arb = s.arb := rfl
@[simp] theorem State.setPk_cmpWait (s : State) (n : Nat) (p : Pack) : (s.setPk n p).cmpWait = s.cmpWait := rfl
@[simp] theorem State.setPk_gateWait (s : State) (n : Nat) (p : Pack) : (s.setPk n p).gateWait = s.gateWait := rfl
@[simp] theorem State.setPk_out (s : State) (n : Nat) (p : Pack) : (s.setPk n p).out = s.out := rfl
@[simp] theorem State.setPk_pending (s : State) (n : Nat) (p : Pack) : (s.setPk n p).pending = s.pending := rfl

end Sys2Proof.Machine
end

