-- ==== Sys2Proof/Laws/Tbl.lean ====
section
/-! SUPPORT. Tables: what is read back after a write, and that writes keep the canonical form. -/

namespace Sys2Proof.Machine

/-! ### Reading -/

@[simp] theorem tget_tput_self {β : Type} (k : Nat) (v : β) (t : Tbl β) : tget k (tput k v t) = some v := by
  induction t with
  | nil => simp [tput, tget]
  | cons e t ih =>
    simp only [tput]
    split
    · simp [tget]
    · split
      · simp [tget]
      · simp_all [tget]

theorem tget_tput_ne {β : Type} {j k : Nat} (v : β) (t : Tbl β) (h : j ≠ k) : tget j (tput k v t) = tget j t := by
  induction t with
  | nil => simp [tput, tget, h]
  | cons e t ih =>
    simp only [tput]
    split
    · simp [tget, h]
    · split
      · simp_all [tget]
      · simp [tget, ih]

@[simp] theorem tget_tdel_self {β : Type} (k : Nat) (t : Tbl β) : tget k (tdel k t) = none := by
  induction t with
  | nil => rfl
  | cons e t ih =>
    simp only [tdel]
    split
    · exact ih
    · simp_all [tget]

theorem tget_tdel_ne {β : Type} {j k : Nat} (t : Tbl β) (h : j ≠ k) : tget j (tdel k t) = tget j t := by
  induction t with
  | nil => rfl
  | cons e t ih =>
    simp only [tdel]
    split
    · simp_all [tget]
    · simp [tget, ih]

@[simp] theorem tgetD_tput_self {β : Type} (k : Nat) (d v : β) (t : Tbl β) : tgetD k d (tput k v t) = v := by simp [tgetD]

theorem tgetD_tput_ne {β : Type} {j k : Nat} (d v : β) (t : Tbl β) (h : j ≠ k) : tgetD j d (tput k v t) = tgetD j d t := by
  simp [tgetD, tget_tput_ne v t h]

@[simp] theorem tgetD_tset_self {β : Type} [DecidableEq β] (d : β) (k : Nat) (v : β) (t : Tbl β) : tgetD k d (tset d k v t) = v := by
  unfold tset
  split
  · simp_all [tgetD]
  · simp [tgetD]

theorem tgetD_tset_ne {β : Type} [DecidableEq β] {j k : Nat} (d c v : β) (t : Tbl β) (h : j ≠ k) :
    tgetD j c (tset d k v t) = tgetD j c t := by
  unfold tset
  split
  · simp [tgetD, tget_tdel_ne t h]
  · simp [tgetD, tget_tput_ne v t h]

/-! ### Order of keys -/

theorem tsorted_cons {β : Type} (a : Nat × β) (t : Tbl β) : tsorted (a :: t) = true ↔ (∀ e ∈ t, a.1 < e.1) ∧ tsorted t = true := by
  induction t generalizing a with
  | nil => simp [tsorted]
  | cons b t ih =>
    simp only [tsorted, Bool.and_eq_true, decide_eq_true_eq, List.mem_cons, forall_eq_or_imp]
    constructor
    · rintro ⟨h1, h2⟩
      exact ⟨⟨h1, fun e he => h1.trans (((ih b).1 h2).1 e he)⟩, h2⟩
    · rintro ⟨⟨h1, _⟩, h2⟩
      exact ⟨h1, h2⟩

theorem mem_tput {β : Type} {k : Nat} {v : β} {t : Tbl β} {e : Nat × β} (h : e ∈ tput k v t) : e = (k, v) ∨ e ∈ t := by
  induction t with
  | nil => simpa [tput] using h
  | cons a t ih =>
    simp only [tput] at h
    split at h
    · simpa using h
    · split at h
      · rcases List.mem_cons.1 h with h | h
        · exact .inl h
        · exact .inr (List.mem_cons_of_mem _ h)
      · rcases List.mem_cons.1 h with h | h
        · exact .inr (h ▸ List.mem_cons_self)
        · exact (ih h).imp id (List.mem_cons_of_mem _)

theorem mem_tdel {β : Type} {k : Nat} {t : Tbl β} {e : Nat × β} (h : e ∈ tdel k t) : e ∈ t := by
  induction t with
  | nil => simp [tdel] at h
  | cons a t ih =>
    simp only [tdel] at h
    split at h
    · exact List.mem_cons_of_mem _ (ih h)
    · rcases List.mem_cons.1 h with h | h
      · exact h ▸ List.mem_cons_self
      · exact List.mem_cons_of_mem _ (ih h)

theorem tsorted_tput {β : Type} {k : Nat} {v : β} {t : Tbl β} (h : tsorted t = true) : tsorted (tput k v t) = true := by
  induction t with
  | nil => rfl
  | cons a t ih =>
    have ha := (tsorted_cons a t).1 h
    simp only [tput]
    split
    · rename_i hk
      refine (tsorted_cons _ _).2 ⟨fun e he => ?_, h⟩
      rcases List.mem_cons.1 he with he | he
      · exact he ▸ hk
      · exact Nat.lt_trans hk (ha.1 e he)
    · split
      · rename_i hk
        exact (tsorted_cons _ _).2 ⟨fun e he => by simpa [hk] using ha.1 e he, ha.2⟩
      · refine (tsorted_cons _ _).2 ⟨fun e he => ?_, ih ha.2⟩
        rcases mem_tput he with he | he
        · subst he; simp only; omega
        · exact ha.1 e he

theorem tsorted_tdel {β : Type} {k : Nat} {t : Tbl β} (h : tsorted t = true) : tsorted (tdel k t) = true := by
  induction t with
  | nil => rfl
  | cons a t ih =>
    have ha := (tsorted_cons a t).1 h
    simp only [tdel]
    split
    · exact ih ha.2
    · exact (tsorted_cons _ _).2 ⟨fun e he => ha.1 e (mem_tdel he), ih ha.2⟩

theorem tsorted_tset {β : Type} [DecidableEq β] {d : β} {k : Nat} {v : β} {t : Tbl β} (h : tsorted t = true) :
    tsorted (tset d k v t) = true := by
  unfold tset
  split
  · exact tsorted_tdel h
  · exact tsorted_tput h

theorem tsorted_filter {β : Type} {p : Nat × β → Bool} {t : Tbl β} (h : tsorted t = true) : tsorted (t.filter p) = true := by
  induction t with
  | nil => rfl
  | cons a t ih =>
    have ha := (tsorted_cons a t).1 h
    rw [List.filter_cons]
    split
    · exact (tsorted_cons _ _).2 ⟨fun e he => ha.1 e (List.mem_filter.1 he).1, ih ha.2⟩
    · exact ih ha.2

theorem wf_iff {d : Byte} {m : List Host.Cell} : Memory.wf d m = true ↔ tsorted m = true ∧ ∀ e ∈ m, e.2 ≠ d := by
  simp [Memory.wf]

theorem wf_tset {d : Byte} {k : Nat} {v : Byte} {m : List Host.Cell} (h : Memory.wf d m = true) :
    Memory.wf d (tset d k v m) = true := by
  rw [wf_iff] at h ⊢
  refine ⟨tsorted_tset h.1, fun e he => ?_⟩
  unfold tset at he
  split at he
  · exact h.2 e (mem_tdel he)
  · rename_i hv
    rcases mem_tput he with he | he
    · exact he ▸ hv
    · exact h.2 e he

theorem wf_filter {d : Byte} {p : Host.Cell → Bool} {m : List Host.Cell} (h : Memory.wf d m = true) :
    Memory.wf d (m.filter p) = true := by
  rw [wf_iff] at h ⊢
  exact ⟨tsorted_filter h.1, fun e he => h.2 e (List.mem_filter.1 he).1⟩

/-! ### The register file -/

theorem RegName.ctorIdx_lt (r : RegName) : r.ctorIdx < 256 := by cases r <;> decide

theorem regKey_reg (r : RegName) (i : Nat) : RegName.ofNat (regKey r i % 256) = r := by
  have h : regKey r i % 256 = r.ctorIdx := by have := r.ctorIdx_lt; unfold regKey; omega
  rw [h, RegName.ofNat_ctorIdx]

theorem regKey_inst (r : RegName) (i : Nat) : keyInst (regKey r i) = i := by
  have := r.ctorIdx_lt
  unfold keyInst regKey
  omega

theorem regKey_inj {r q : RegName} {i j : Nat} (h : regKey r i = regKey q j) : r = q ∧ i = j :=
  ⟨by rw [← regKey_reg r i, h, regKey_reg], by rw [← regKey_inst r i, h, regKey_inst]⟩

theorem regsOk_tset {r : RegName} {i : Nat} {v : BitVec 64} {t : Tbl (BitVec 64)} (h : regsOk t = true) :
    regsOk (tset (regReset r i) (regKey r i) v t) = true := by
  simp only [regsOk, Bool.and_eq_true, List.all_eq_true] at h ⊢
  refine ⟨tsorted_tset h.1, fun e he => ?_⟩
  unfold tset at he
  split at he
  · exact h.2 e (mem_tdel he)
  · rename_i hv
    rcases mem_tput he with he | he
    · subst he
      simp only [regKey_reg, regKey_inst]
      simpa using hv
    · exact h.2 e he

end Sys2Proof.Machine
end

