-- ==== Sys2Proof/Laws/Ops.lean ====
section
/-! SUPPORT. What the shared operations over registers and memories do: the value read back, and what stays. -/

namespace Sys2Proof.Machine

/-! ### Bit fields -/

theorem mix_lt {a b f c : Nat} (h : f < b) (k : c < a) : f * a + c < a * b := by
  calc f * a + c < f * a + a := by omega
    _ = a * (f + 1) := by ring
    _ ≤ a * b := Nat.mul_le_mul_left a h

theorem bitsOf_insBits_self {hi lo v x : Nat} (h : lo ≤ hi) : bitsOf hi lo (insBits hi lo v x) = x % 2 ^ (hi + 1 - lo) := by
  unfold bitsOf insBits
  have e : 2 ^ (hi + 1) = 2 ^ lo * 2 ^ (hi + 1 - lo) := by rw [← Nat.pow_add]; congr 1; omega
  have p : 0 < 2 ^ lo := Nat.two_pow_pos lo
  have c : v % 2 ^ lo < 2 ^ lo := Nat.mod_lt _ p
  rw [e, show v / (2 ^ lo * 2 ^ (hi + 1 - lo)) * (2 ^ lo * 2 ^ (hi + 1 - lo)) + x % 2 ^ (hi + 1 - lo) * 2 ^ lo + v % 2 ^ lo
    = v % 2 ^ lo + 2 ^ lo * (x % 2 ^ (hi + 1 - lo) + 2 ^ (hi + 1 - lo) * (v / (2 ^ lo * 2 ^ (hi + 1 - lo)))) by ring,
    Nat.add_mul_div_left _ _ p, Nat.div_eq_of_lt c, Nat.zero_add, Nat.add_mul_mod_self_left, Nat.mod_mod]

theorem bitsOf_insBits_above {hi lo b a v x : Nat} (h : lo ≤ hi) (k : hi < a) :
    bitsOf b a (insBits hi lo v x) = bitsOf b a v := by
  unfold bitsOf insBits
  have e : 2 ^ (hi + 1) = 2 ^ lo * 2 ^ (hi + 1 - lo) := by rw [← Nat.pow_add]; congr 1; omega
  have d : 2 ^ a = 2 ^ (hi + 1) * 2 ^ (a - (hi + 1)) := by rw [← Nat.pow_add]; congr 1; omega
  have c : v % 2 ^ lo < 2 ^ lo := Nat.mod_lt _ (Nat.two_pow_pos lo)
  have f : x % 2 ^ (hi + 1 - lo) < 2 ^ (hi + 1 - lo) := Nat.mod_lt _ (Nat.two_pow_pos _)
  have g : x % 2 ^ (hi + 1 - lo) * 2 ^ lo + v % 2 ^ lo < 2 ^ (hi + 1) := by rw [e]; exact mix_lt f c
  rw [d, ← Nat.div_div_eq_div_mul, ← Nat.div_div_eq_div_mul, Nat.add_assoc, Nat.add_comm (_ * _),
    Nat.add_mul_div_right _ _ (Nat.two_pow_pos _), Nat.div_eq_of_lt g, Nat.zero_add]

theorem bitsOf_insBits_below {hi lo b a v x : Nat} (h : lo ≤ hi) (k : b < lo) (m : a ≤ b) :
    bitsOf b a (insBits hi lo v x) = bitsOf b a v := by
  unfold bitsOf
  have key : ∀ n : Nat, n / 2 ^ a % 2 ^ (b + 1 - a) = n % 2 ^ lo / 2 ^ a % 2 ^ (b + 1 - a) := by
    intro n
    have e : 2 ^ lo = 2 ^ a * 2 ^ (lo - a) := by rw [← Nat.pow_add]; congr 1; omega
    rw [e, Nat.mod_mul_right_div_self, Nat.mod_mod_of_dvd _ (Nat.pow_dvd_pow 2 (by omega))]
  rw [key (insBits hi lo v x), key v]
  congr 2
  unfold insBits
  have e : 2 ^ (hi + 1) = 2 ^ lo * 2 ^ (hi + 1 - lo) := by rw [← Nat.pow_add]; congr 1; omega
  rw [e, show v / (2 ^ lo * 2 ^ (hi + 1 - lo)) * (2 ^ lo * 2 ^ (hi + 1 - lo)) + x % 2 ^ (hi + 1 - lo) * 2 ^ lo + v % 2 ^ lo
    = v % 2 ^ lo + 2 ^ lo * (x % 2 ^ (hi + 1 - lo) + 2 ^ (hi + 1 - lo) * (v / (2 ^ lo * 2 ^ (hi + 1 - lo)))) by ring,
    Nat.add_mul_mod_self_left, Nat.mod_mod]

theorem insBits_lt {hi lo v x : Nat} (h : lo ≤ hi) (k : hi < 64) (m : v < 2 ^ 64) : insBits hi lo v x < 2 ^ 64 := by
  unfold insBits
  have e : 2 ^ (hi + 1) = 2 ^ lo * 2 ^ (hi + 1 - lo) := by rw [← Nat.pow_add]; congr 1; omega
  have d : (2 : Nat) ^ 64 = 2 ^ (hi + 1) * 2 ^ (64 - (hi + 1)) := by rw [← Nat.pow_add]; congr 1; omega
  have c : v % 2 ^ lo < 2 ^ lo := Nat.mod_lt _ (Nat.two_pow_pos lo)
  have f : x % 2 ^ (hi + 1 - lo) < 2 ^ (hi + 1 - lo) := Nat.mod_lt _ (Nat.two_pow_pos _)
  have g : x % 2 ^ (hi + 1 - lo) * 2 ^ lo + v % 2 ^ lo < 2 ^ (hi + 1) := by rw [e]; exact mix_lt f c
  have t : v / 2 ^ (hi + 1) < 2 ^ (64 - (hi + 1)) := Nat.div_lt_of_lt_mul (by rw [← d]; exact m)
  rw [d, Nat.add_assoc]
  exact mix_lt t g

/-! ### Registers and their fields -/

@[simp] theorem State.reg_setReg_self (s : State) (r : RegName) (i : Nat) (v : BitVec 64) : (s.setReg r i v).reg r i = v :=
  tgetD_tset_self _ _ _ _

theorem State.reg_setReg_ne (s : State) {r q : RegName} {i j : Nat} (v : BitVec 64) (h : regKey q j ≠ regKey r i) :
    (s.setReg r i v).reg q j = s.reg q j :=
  tgetD_tset_ne _ _ _ _ h

/-- A write of one register leaves every other alone. -/
theorem State.reg_setReg_other (s : State) {r q : RegName} {i j : Nat} (v : BitVec 64) (h : q ≠ r ∨ j ≠ i) : (s.setReg r i v).reg q j = s.reg q j :=
  s.reg_setReg_ne v fun e => h.elim (fun n => n (regKey_inj e).1) fun n => n (regKey_inj e).2

/-- A field reads as the low bits of what was put into it. -/
theorem State.get_put_self (s : State) (f : Fld) (i x : Nat) (h : f.lo ≤ f.hi) (k : f.hi < 64) :
    (s.put f i x).get f i = x % 2 ^ (f.hi + 1 - f.lo) := by
  unfold State.get State.put
  rw [State.reg_setReg_self, BitVec.toNat_ofNat, Nat.mod_eq_of_lt (insBits_lt h k (BitVec.isLt _)), bitsOf_insBits_self h]

/-- A write of one field leaves another field of the same register alone. -/
theorem State.get_put_field (s : State) {f g : Fld} (i x : Nat) (e : g.reg = f.reg) (h : f.lo ≤ f.hi) (k : f.hi < 64)
    (m : g.lo ≤ g.hi) (d : g.hi < f.lo ∨ f.hi < g.lo) : (s.put f i x).get g i = s.get g i := by
  unfold State.get State.put
  rw [e, State.reg_setReg_self, BitVec.toNat_ofNat, Nat.mod_eq_of_lt (insBits_lt h k (BitVec.isLt _))]
  exact d.elim (fun d => bitsOf_insBits_below h d m) fun d => bitsOf_insBits_above h d

/-- A write of one field leaves the fields of every other register alone. -/
theorem State.get_put_other (s : State) {f g : Fld} {i j : Nat} (x : Nat)
    (h : g.reg ≠ f.reg ∨ j ≠ i) : (s.put f i x).get g j = s.get g j := by
  unfold State.get State.put
  rw [s.reg_setReg_other _ h]

theorem State.reg_put_other (s : State) {f : Fld} {q : RegName} {i j : Nat} (x : Nat)
    (h : q ≠ f.reg ∨ j ≠ i) : (s.put f i x).reg q j = s.reg q j := s.reg_setReg_other _ h

/-! ### Memory -/

/-- The byte written is the byte read, where there is memory. -/
theorem State.rdByte_wrByte_self (s : State) (a : Nat) (b : Byte) (h : isRam a = true) : (s.wrByte a b).rdByte a = b := by
  unfold State.wrByte State.rdByte
  rw [if_pos h, State.dirtied_mem]
  exact tgetD_tset_self _ _ _ _

/-- A write of one byte leaves every other byte alone. -/
theorem State.rdByte_wrByte_ne (s : State) {a c : Nat} (b : Byte) (h : c ≠ a) : (s.wrByte a b).rdByte c = s.rdByte c := by
  unfold State.wrByte State.rdByte
  split
  · rw [State.dirtied_mem]
    exact tgetD_tset_ne _ _ _ _ h
  · rfl

/-- A write of bytes leaves every byte outside them alone. -/
theorem State.rdByte_wrBytes_ne (s : State) {a c : Nat} (l : Bytes) (h : c < a ∨ a + l.length ≤ c) :
    (s.wrBytes a l).rdByte c = s.rdByte c := by
  induction l generalizing s a with
  | nil => rfl
  | cons b t ih =>
    rw [State.wrBytes, ih (s.wrByte a b) (by rcases h with h | h <;> simp at * <;> omega)]
    exact s.rdByte_wrByte_ne b (by rcases h with h | h <;> simp at * <;> omega)

@[simp] theorem State.norByte_setNorByte_self (s : State) (a : Nat) (b : Byte) : (s.setNorByte a b).norByte a = b :=
  tgetD_tset_self _ _ _ _

theorem State.norByte_setNorByte_ne (s : State) {a c : Nat} (b : Byte) (h : c ≠ a) :
    (s.setNorByte a b).norByte c = s.norByte c := tgetD_tset_ne _ _ _ _ h

/-! ### The canonical form of the memories -/

/-- Reset lists nothing. -/
theorem State.wf_reset : Memory.wf memDefault State.reset.mem = true ∧ Memory.wf norDefault State.reset.snor = true := by decide

theorem State.wf_wrByte {s : State} (a : Nat) (b : Byte) (h : Memory.wf memDefault s.mem = true) :
    Memory.wf memDefault (s.wrByte a b).mem = true := by
  unfold State.wrByte
  split
  · rw [State.dirtied_mem]; exact wf_tset h
  · exact h

theorem State.wf_wrBytes {s : State} (a : Nat) (l : Bytes) (h : Memory.wf memDefault s.mem = true) :
    Memory.wf memDefault (s.wrBytes a l).mem = true := by
  induction l generalizing s a with
  | nil => exact h
  | cons b t ih => exact ih _ (State.wf_wrByte a b h)

theorem State.wf_engWrite {s : State} (a : Nat) (l : Bytes) (h : Memory.wf memDefault s.mem = true) :
    Memory.wf memDefault (s.engWrite a l).mem = true := by
  induction l generalizing s a with
  | nil => exact h
  | cons b t ih =>
    rw [State.engWrite]
    split
    · exact ih _ (State.wf_wrByte a b h)
    · exact ih _ h

theorem State.wf_setNorBytes {s : State} (a : Nat) (l : Bytes) (h : Memory.wf norDefault s.snor = true) :
    Memory.wf norDefault (s.setNorBytes a l).snor = true := by
  induction l generalizing s a with
  | nil => exact h
  | cons b t ih => exact ih _ (wf_tset h)

theorem State.wf_norPut {s : State} (a : Nat) (l : Bytes) (h : Memory.wf norDefault s.snor = true) :
    Memory.wf norDefault (s.norPut a l).snor = true := State.wf_setNorBytes a l h

theorem State.wf_norSlot {s : State} (a : Nat) (l : Bytes) (h : Memory.wf norDefault s.snor = true) :
    Memory.wf norDefault (s.norSlot a l).snor = true := State.wf_norPut a l (wf_filter h)

theorem State.wf_norErase {s : State} (sp : Nat × Nat) (h : Memory.wf norDefault s.snor = true) :
    Memory.wf norDefault (s.norErase sp).snor = true := wf_filter h

/-- An engine's write leaves every byte outside it alone. -/
theorem State.rdByte_engWrite_ne (s : State) {a c : Nat} (l : Bytes) (h : c < a ∨ a + l.length ≤ c) :
    (s.engWrite a l).rdByte c = s.rdByte c := by
  induction l generalizing s a with
  | nil => rfl
  | cons b t ih =>
    rw [State.engWrite, ih _ (by rcases h with h | h <;> simp at * <;> omega)]
    split
    · exact s.rdByte_wrByte_ne b (by rcases h with h | h <;> simp at * <;> omega)
    · rfl

/-- Programming leaves every byte of secure NOR outside it alone. -/
theorem State.norByte_norPut_ne (s : State) {a c : Nat} (l : Bytes) (h : c < a ∨ a + l.length ≤ c) :
    (s.norPut a l).norByte c = s.norByte c := by
  suffices g : (s.setNorBytes a l).norByte c = s.norByte c from g
  induction l generalizing s a with
  | nil => rfl
  | cons b t ih =>
    rw [State.setNorBytes, ih _ (by rcases h with h | h <;> simp at * <;> omega)]
    exact s.norByte_setNorByte_ne b (by rcases h with h | h <;> simp at * <;> omega)

/-! ### Running -/

/-- A controller that runs takes the command's effect. -/
theorem State.awake_of_runs {s : State} (r : Res) (h : s.Runs) : s.awake r = r := by
  simp [State.awake, h.1, h.2]

/-- R286, R614: a controller in reset, or frozen, stays as it is. -/
theorem State.awake_of_not_runs {s : State} (r : Res) (h : ¬ s.Runs) : s.awake r = .next s := by
  unfold State.awake
  split
  · rfl
  · simp_all [State.Runs]

end Sys2Proof.Machine
end

