-- ==== Sys2Proof/Tests/Slice0.lean ====
section
/-! SUPPORT. Tests: terms that well-formedness refuses, and for every statement with hypotheses a state and operands that meet them. -/

section

set_option Elab.async false

open Sys2Proof Sys2Proof.Machine

/-- A well-formed MapDesc. -/
def Tests.md : MapDesc := { flags := 0, nsidx := 0, count := 1, bale := 0, value := 0, expect := 0, fstamp := 0, blk := 0, mbz := true }

/-- A well-formed CmpDesc. -/
def Tests.cd : CmpDesc := { flags := 0, eltype := 0, boundk := 0, shuf := 0, lbaf := 0, src := 0, dst := 0, srclen := 0, mbz := true }

/-- A well-formed CvyDesc. -/
def Tests.vd : CvyDesc := { flags := 0, w := 6, k := 0, acc := 0, miss0 := 0, miss1 := 255, src := 0, dst := 0, mbz := true }

/-- A well-formed CphDesc. -/
def Tests.hd : CphDesc := { flags := 0, slot := 0, kgen := 0, src := 0, dst := 0, len := 16, iv := 0, aux := 0, aadlen := 0, mbz := true }

/-- A well-formed SnfDesc. -/
def Tests.nd : SnfDesc := { core := 22, flags := 0, count := 1, nor := 0x2000000, addr := 0x10000000, len := 64, mbz := true }

/-- A well-formed Msg. -/
def Tests.mg : Msg := { chan := 2, opcode := 0, tag := 7, len := 16, replay := false, token := 0 }

/-- A well-formed RespHdr. -/
def Tests.pr : RespHdr := { opc := 0, status := 0, die := 0, cseq := 0 }

/-- A well-formed LEntry. -/
def Tests.le : LEntry := { cls := 7, origin := false, toff := 0, payload := [0, 0, 0, 0] }

/-- A well-formed LbaSpan. -/
def Tests.sp : LbaSpan := { slba := 0, nlb := 1 }

/-- A well-formed SqeHead. -/
def Tests.sq : SqeHead := { opcode := 2 }

/-- A well-formed AsyncHdr. -/
def Tests.ah : AsyncHdr := { eseq := 1, code := 3 }

/-- A well-formed FormatProt. -/
def Tests.fp : FormatProt := { pi := 1 }

/-- A well-formed HkpLines. -/
def Tests.hl : HkpLines := { fec := 3 }

/-- A well-formed IoArgs. -/
def Tests.ia : IoArgs := { sgl := [15] }

/-- A well-formed PlaceReq. -/
def Tests.pq : PlaceReq := { nsidx := 4095, bale := 0, blk := some 15, gaddr := 0, fstamp := 0 }

/-- A well-formed NsCreate. -/
def Tests.nc : NsCreate := { nsze := 16, lbaf := 0, meta64 := false, nskind := 0, eltype := 0xFF, boundk := 0, flags := 0, keyref := 0, rsvd := 0 }

/-- A well-formed CphRun. -/
def Tests.hr : CphRun := { producer := 0, checker := 1, ok := true }

/-- A well-formed ConnectReq. -/
def Tests.cr : ConnectReq := { port := 0, assoc := 0, qid := 0, size := 32, discovery := false, group := none, twinMagic := 0, pairId := 0 }

/-- Each check of WellFormed refuses a term it names: registerWrite to firmwareImageDownload. -/
theorem test_ill_formed_1 : (([
    .registerWrite (.core 22) (.internal 0) 3 0,
    .sqTailDoorbell 0 (2 ^ 16) 1,
    .sqTailDoorbell 0 1 (2 ^ 32),
    .cqHeadDoorbell 0 (2 ^ 16) 1,
    .cqHeadDoorbell 0 1 (2 ^ 32),
    .commandFetch 0 (2 ^ 16) 0 Tests.sq 1,
    .commandFetch 0 1 0 Tests.sq (2 ^ 32),
    .createIoSubmissionQueue 0 (2 ^ 16) 1 1 0 false 0,
    .createIoSubmissionQueue 0 1 (2 ^ 17) 1 0 false 0,
    .createIoSubmissionQueue 0 1 1 (2 ^ 16) 0 false 0,
    .deleteIoSubmissionQueue 0 (2 ^ 16),
    .createIoCompletionQueue 0 (2 ^ 16) 1 1 false false 0 0,
    .createIoCompletionQueue 0 1 (2 ^ 17) 1 false false 0 0,
    .createIoCompletionQueue 0 1 1 (2 ^ 16) false false 0 0,
    .deleteIoCompletionQueue 0 (2 ^ 16),
    .getLogPage 0 0 (2 ^ 64) 1 false,
    .getLogPage 0 0 1 (2 ^ 32) false,
    .identify 0 0 (2 ^ 32),
    .abort 0 (2 ^ 16) 0,
    .namespaceCreate 0 { Tests.nc with pi := 8 },
    .namespaceDelete 0 (2 ^ 32),
    .namespaceAttach 0 (2 ^ 32) [],
    .namespaceDetach 0 (2 ^ 32) [],
    .firmwareImageDownload 0 (2 ^ 64) []] : List Instr).any fun c => Instr.wf c) = false := by decide +kernel

theorem test_well_formed_1 : (([
    .registerWrite (.core 22) (.internal 0) 1 0,
    .sqTailDoorbell 0 1 1,
    .cqHeadDoorbell 0 1 1,
    .commandFetch 0 1 0 Tests.sq 1,
    .createIoSubmissionQueue 0 1 1 1 0 false 0,
    .deleteIoSubmissionQueue 0 1,
    .createIoCompletionQueue 0 1 1 1 false false 0 0,
    .deleteIoCompletionQueue 0 1,
    .getLogPage 0 0 1 1 false,
    .identify 0 0 1,
    .abort 0 1 0,
    .namespaceCreate 0 Tests.nc,
    .namespaceDelete 0 1,
    .namespaceAttach 0 1 [],
    .namespaceDetach 0 1 [],
    .firmwareImageDownload 0 1 []] : List Instr).all fun c => Instr.wf c) = true := by decide +kernel

/-- Each check of WellFormed refuses a term it names: deviceSelfTestShort to keepAliveExpiry. -/
theorem test_ill_formed_2 : (([
    .deviceSelfTestShort 0 (2 ^ 32) false,
    .deviceSelfTestExtended 0 (2 ^ 32) false,
    .nvmeMiSend 0 0 { Tests.mg with len := 2 ^ 32 },
    .formatNvm 0 1 1 1 { pi := 8 },
    .formatNvm 0 (2 ^ 32) 1 1 Tests.fp,
    .formatNvm 0 1 (2 ^ 4) 1 Tests.fp,
    .formatNvm 0 1 1 (2 ^ 3) Tests.fp,
    .rawBaleRead 0 (2 ^ 32) 1 1 false false none,
    .rawBaleRead 0 1 (2 ^ 37) 1 false false none,
    .rawBaleRead 0 1 1 (2 ^ 32) false false none,
    .flush 0 (2 ^ 32),
    .write 0 (2 ^ 32) 1 Tests.ia [],
    .write 0 1 (2 ^ 64) Tests.ia [],
    .write 0 1 1 { sgl := [16] } [],
    .write 0 1 1 { elsize := 256 } [],
    .write 0 1 1 { merge := [(2 ^ 64, .unrecoverable)] } [],
    .write 0 1 1 { peer := some { last := 2 ^ 64, failed := true } } [],
    .read 0 1 Tests.sp { sgl := [16] } [],
    .read 0 1 Tests.sp { elsize := 256 } [],
    .read 0 1 Tests.sp { merge := [(2 ^ 64, .unrecoverable)] } [],
    .read 0 1 Tests.sp { peer := some { last := 2 ^ 64, failed := true } } [],
    .read 0 (2 ^ 32) Tests.sp Tests.ia [],
    .read 0 1 { slba := 2 ^ 64, nlb := 1 } Tests.ia [],
    .read 0 1 { slba := 0, nlb := 0 } Tests.ia [],
    .read 0 1 { slba := 0, nlb := 65537 } Tests.ia [],
    .writeZeroes 0 (2 ^ 32) Tests.sp Tests.ia,
    .writeZeroes 0 1 { slba := 2 ^ 64, nlb := 1 } Tests.ia,
    .writeZeroes 0 1 { slba := 0, nlb := 0 } Tests.ia,
    .writeZeroes 0 1 { slba := 0, nlb := 65537 } Tests.ia,
    .writeZeroes 0 1 Tests.sp { sgl := [16] },
    .writeZeroes 0 1 Tests.sp { elsize := 256 },
    .writeZeroes 0 1 Tests.sp { merge := [(2 ^ 64, .unrecoverable)] },
    .writeZeroes 0 1 Tests.sp { peer := some { last := 2 ^ 64, failed := true } },
    .datasetManagement 0 (2 ^ 32) false [],
    .verify 0 1 Tests.sp { sgl := [16] } [],
    .verify 0 1 Tests.sp { elsize := 256 } [],
    .verify 0 1 Tests.sp { merge := [(2 ^ 64, .unrecoverable)] } [],
    .verify 0 1 Tests.sp { peer := some { last := 2 ^ 64, failed := true } } [],
    .verify 0 (2 ^ 32) Tests.sp Tests.ia [],
    .verify 0 1 { slba := 2 ^ 64, nlb := 1 } Tests.ia [],
    .verify 0 1 { slba := 0, nlb := 0 } Tests.ia [],
    .verify 0 1 { slba := 0, nlb := 65537 } Tests.ia [],
    .numvfsChange 0 (2 ^ 16) false,
    .capsuleReceive (2 ^ 24) 0 0 0 0 (List.replicate 56 0),
    .capsuleReceive 0 0 0 0 0 (List.replicate 55 0),
    .connect (2 ^ 24) Tests.cr,
    .disconnect (2 ^ 13),
    .keepAliveExpiry (2 ^ 13)] : List Instr).any fun c => Instr.wf c) = false := by decide +kernel

theorem test_well_formed_2 : (([
    .deviceSelfTestShort 0 1 false,
    .deviceSelfTestExtended 0 1 false,
    .nvmeMiSend 0 0 Tests.mg,
    .formatNvm 0 1 1 1 Tests.fp,
    .rawBaleRead 0 1 1 1 false false none,
    .flush 0 1,
    .write 0 1 1 Tests.ia [],
    .read 0 1 Tests.sp Tests.ia [],
    .writeZeroes 0 1 Tests.sp Tests.ia,
    .datasetManagement 0 1 false [],
    .verify 0 1 Tests.sp Tests.ia [],
    .numvfsChange 0 1 false,
    .capsuleReceive 0 0 0 0 0 (List.replicate 56 0),
    .connect 1 Tests.cr,
    .disconnect 1,
    .keepAliveExpiry 1] : List Instr).all fun c => Instr.wf c) = true := by decide +kernel

/-- Each check of WellFormed refuses a term it names: queuePairError to roundOnly. -/
theorem test_ill_formed_3 : (([
    .queuePairError (2 ^ 24),
    .cePacketReceived (2 ^ 24),
    .notificationReceived (2 ^ 24),
    .alphaPeriodExpiry (2 ^ 24),
    .recoveryPeriodExpiry (2 ^ 24),
    .mapLookup 0 { Tests.md with nsidx := 2 ^ 16 },
    .mapLookup 0 { Tests.md with count := 2 ^ 32 },
    .mapLookup 0 { Tests.md with bale := 2 ^ 64 },
    .mapLookup 0 { Tests.md with blk := 2 ^ 8 },
    .mapEntryCommit 0 { Tests.md with nsidx := 2 ^ 16 },
    .mapPatchCommit 0 { Tests.md with nsidx := 2 ^ 16 },
    .mapZeroSpan 0 { Tests.md with nsidx := 2 ^ 16 },
    .mapConditionalCommit 0 { Tests.md with nsidx := 2 ^ 16 },
    .mapPageDrop 0 { Tests.md with nsidx := 2 ^ 16 },
    .mapPageWriteBack 0 { Tests.md with nsidx := 2 ^ 16 },
    .mapPageMissFilled (2 ^ 40) false,
    .codeBale 0 { Tests.cd with src := 2 ^ 64 } 0 false,
    .codeBale 0 { Tests.cd with dst := 2 ^ 64 } 0 false,
    .codeBale 0 { Tests.cd with srclen := 2 ^ 32 } 0 false,
    .decodeQuarter 0 { Tests.cd with src := 2 ^ 64 } 0,
    .roundOnly 0 { Tests.cd with src := 2 ^ 64 } 0] : List Instr).any fun c => Instr.wf c) = false := by decide +kernel

theorem test_well_formed_3 : (([
    .queuePairError 1,
    .cePacketReceived 1,
    .notificationReceived 1,
    .alphaPeriodExpiry 1,
    .recoveryPeriodExpiry 1,
    .mapLookup 0 Tests.md,
    .mapEntryCommit 0 Tests.md,
    .mapPatchCommit 0 Tests.md,
    .mapZeroSpan 0 Tests.md,
    .mapConditionalCommit 0 Tests.md,
    .mapPageDrop 0 Tests.md,
    .mapPageWriteBack 0 Tests.md,
    .mapPageMissFilled 1 false,
    .codeBale 0 Tests.cd 0 false,
    .decodeQuarter 0 Tests.cd 0,
    .roundOnly 0 Tests.cd 0] : List Instr).all fun c => Instr.wf c) = true := by decide +kernel

/-- Each check of WellFormed refuses a term it names: codePatch to trailDoorbellUnmatched. -/
theorem test_ill_formed_4 : (([
    .codePatch 0 { Tests.cd with src := 2 ^ 64 } 0 false,
    .decodePatch 0 { Tests.cd with src := 2 ^ 64 } 0,
    .credit .twin (2 ^ 16),
    .packResponse 0 { Tests.pr with die := 2 ^ 16 } [],
    .packAsync 0 { Tests.ah with code := 65536 } 1 0,
    .packAsync 0 Tests.ah (2 ^ 16) 0,
    .accumulatePage 0 { Tests.vd with w := 2 ^ 8 } [],
    .accumulatePage 0 { Tests.vd with k := 2 ^ 8 } [],
    .accumulatePage 0 { Tests.vd with acc := 2 ^ 16 } [],
    .accumulatePage 0 { Tests.vd with miss0 := 2 ^ 8 } [],
    .accumulatePage 0 { Tests.vd with miss1 := 2 ^ 8 } [],
    .accumulatePage 0 { Tests.vd with src := 2 ^ 64 } [],
    .accumulatePage 0 { Tests.vd with dst := 2 ^ 64 } [],
    .accumulatePage 0 Tests.vd [{ Tests.pq with nsidx := 4096 }],
    .accumulatePage 0 Tests.vd [{ Tests.pq with bale := 2 ^ 37 }],
    .accumulatePage 0 Tests.vd [{ Tests.pq with gaddr := 2 ^ 42 }],
    .accumulatePage 0 Tests.vd [{ Tests.pq with blk := some 16 }],
    .emitPAndQ 0 { Tests.vd with w := 2 ^ 8 },
    .reconstruct 0 { Tests.vd with w := 2 ^ 8 },
    .clearAccumulator 0 { Tests.vd with w := 2 ^ 8 },
    .codewordDecode .host (2 ^ 22) 1 1 1 0 1,
    .codewordDecode .host 1 (2 ^ 16) 1 1 0 1,
    .codewordDecode .host 1 1 (2 ^ 4) 1 0 1,
    .codewordDecode .host 1 1 1 (2 ^ 2) 0 1,
    .codewordDecode .host 1 1 1 1 0 (2 ^ 8),
    .record [{ Tests.le with cls := 256 }] none true,
    .peerReport { Tests.le with cls := 2 ^ 8 },
    .peerReport { Tests.le with toff := 2 ^ 32 },
    .fetchReq { Tests.le with cls := 2 ^ 8 },
    .fetchData { Tests.le with cls := 2 ^ 8 } [],
    .peerFetchTimeout { Tests.le with cls := 2 ^ 8 },
    .trailDoorbellUnmatched 0 (2 ^ 16) 1,
    .trailDoorbellUnmatched 0 1 (2 ^ 32)] : List Instr).any fun c => Instr.wf c) = false := by decide +kernel

theorem test_well_formed_4 : (([
    .codePatch 0 Tests.cd 0 false,
    .decodePatch 0 Tests.cd 0,
    .credit .twin 1,
    .packResponse 0 Tests.pr [],
    .packAsync 0 Tests.ah 1 0,
    .accumulatePage 0 Tests.vd [Tests.pq],
    .emitPAndQ 0 Tests.vd,
    .reconstruct 0 Tests.vd,
    .clearAccumulator 0 Tests.vd,
    .codewordDecode .host 1 1 1 1 0 1,
    .record [] none false,
    .peerReport Tests.le,
    .fetchReq Tests.le,
    .fetchData Tests.le [],
    .peerFetchTimeout Tests.le,
    .trailDoorbellUnmatched 0 1 1] : List Instr).all fun c => Instr.wf c) = true := by decide +kernel

/-- Each check of WellFormed refuses a term it names: query to rewriteKeySlot. -/
theorem test_ill_formed_5 : (([
    .query 0 0 (2 ^ 8),
    .verdict 0 0 (2 ^ 8) 0,
    .arbHello 0 (2 ^ 8),
    .pairResult (2 ^ 32) 0 0 0,
    .rsyncData (2 ^ 40) [],
    .secXfer 0 0 0 (2 ^ 8) 0,
    .xtsEncrypt 0 { Tests.hd with slot := 2 ^ 16 } Tests.hr,
    .xtsEncrypt 0 { Tests.hd with src := 2 ^ 64 } Tests.hr,
    .xtsEncrypt 0 { Tests.hd with dst := 2 ^ 64 } Tests.hr,
    .xtsEncrypt 0 { Tests.hd with len := 2 ^ 32 } Tests.hr,
    .xtsEncrypt 0 { Tests.hd with aux := 2 ^ 64 } Tests.hr,
    .xtsEncrypt 0 { Tests.hd with aadlen := 2 ^ 8 } Tests.hr,
    .xtsDecrypt 0 { Tests.hd with slot := 2 ^ 16 } Tests.hr,
    .gcmEncrypt 0 { Tests.hd with slot := 2 ^ 16 } Tests.hr,
    .gcmDecrypt 0 { Tests.hd with slot := 2 ^ 16 } Tests.hr,
    .createKey { Tests.mg with len := 2 ^ 32 } .here 1 0,
    .createKey Tests.mg .here (2 ^ 8) 0,
    .rotateKey { Tests.mg with len := 2 ^ 32 } .here 1,
    .rotateKey Tests.mg .here (2 ^ 32),
    .unloadKey { Tests.mg with len := 2 ^ 32 } .here 0,
    .loadKey { Tests.mg with len := 2 ^ 32 } .here 0,
    .eraseKeySlot { Tests.mg with len := 2 ^ 32 } .here 0,
    .rewriteKeySlot { Tests.mg with len := 2 ^ 32 } .here 0] : List Instr).any fun c => Instr.wf c) = false := by decide +kernel

theorem test_well_formed_5 : (([
    .query 0 0 1,
    .verdict 0 0 1 0,
    .arbHello 0 1,
    .pairResult 1 0 0 0,
    .rsyncData 1 [],
    .secXfer 0 0 0 1 0,
    .xtsEncrypt 0 Tests.hd Tests.hr,
    .xtsDecrypt 0 Tests.hd Tests.hr,
    .gcmEncrypt 0 Tests.hd Tests.hr,
    .gcmDecrypt 0 Tests.hd Tests.hr,
    .createKey Tests.mg .here 1 0,
    .rotateKey Tests.mg .here 1,
    .unloadKey Tests.mg .here 0,
    .loadKey Tests.mg .here 0,
    .eraseKeySlot Tests.mg .here 0,
    .rewriteKeySlot Tests.mg .here 0] : List Instr).all fun c => Instr.wf c) = true := by decide +kernel

/-- Each check of WellFormed refuses a term it names: changeOwner to raiseSvnMin. -/
theorem test_ill_formed_6 : (([
    .changeOwner { Tests.mg with len := 2 ^ 32 } .here 0 0,
    .enterDtsComponent { Tests.mg with len := 2 ^ 32 } .here 1 0,
    .enterDtsComponent Tests.mg .here (2 ^ 32) 0,
    .exportKeyStore { Tests.mg with len := 2 ^ 32 } .here 1,
    .exportKeyStore Tests.mg .here (2 ^ 64),
    .importKeyStore { Tests.mg with len := 2 ^ 32 } .here 1 1 [],
    .importKeyStore Tests.mg .here (2 ^ 64) 1 [],
    .importKeyStore Tests.mg .here 1 (2 ^ 64) [],
    .zeroize { Tests.mg with len := 2 ^ 32 } .here 0,
    .enrolAuthenticationKey { Tests.mg with len := 2 ^ 32 } .here 1 1 0 0,
    .enrolAuthenticationKey Tests.mg .here (2 ^ 8) 1 0 0,
    .enrolAuthenticationKey Tests.mg .here 1 (2 ^ 8) 0 0,
    .clearLockout { Tests.mg with len := 2 ^ 32 } .here 1,
    .clearLockout Tests.mg .here (2 ^ 8),
    .stagingWrite { Tests.mg with len := 2 ^ 32 } .here 1 [],
    .stagingWrite Tests.mg .here (2 ^ 64) [],
    .stagingAbort { Tests.mg with len := 2 ^ 32 } .here,
    .commitStaging { Tests.mg with len := 2 ^ 32 } .here,
    .activateWithReset { Tests.mg with len := 2 ^ 32 } .here 1 false,
    .activateWithReset Tests.mg .here (2 ^ 8) false,
    .activateWithoutReset { Tests.mg with len := 2 ^ 32 } .here,
    .readSlotStatus { Tests.mg with len := 2 ^ 32 } .here,
    .updatePackBridges { Tests.mg with len := 2 ^ 32 } .here 0,
    .countersigningKeys { Tests.mg with len := 2 ^ 32 } .here 1 0 0,
    .countersigningKeys Tests.mg .here (2 ^ 8) 0 0,
    .raiseSvnMin { Tests.mg with len := 2 ^ 32 } .here] : List Instr).any fun c => Instr.wf c) = false := by decide +kernel

theorem test_well_formed_6 : (([
    .changeOwner Tests.mg .here 0 0,
    .enterDtsComponent Tests.mg .here 1 0,
    .exportKeyStore Tests.mg .here 1,
    .importKeyStore Tests.mg .here 1 1 [],
    .zeroize Tests.mg .here 0,
    .enrolAuthenticationKey Tests.mg .here 1 1 0 0,
    .clearLockout Tests.mg .here 1,
    .stagingWrite Tests.mg .here 1 [],
    .stagingAbort Tests.mg .here,
    .commitStaging Tests.mg .here,
    .activateWithReset Tests.mg .here 1 false,
    .activateWithoutReset Tests.mg .here,
    .readSlotStatus Tests.mg .here,
    .updatePackBridges Tests.mg .here 0,
    .countersigningKeys Tests.mg .here 1 0 0,
    .raiseSvnMin Tests.mg .here] : List Instr).all fun c => Instr.wf c) = true := by decide +kernel

/-- Each check of WellFormed refuses a term it names: restartTestMode to certChain. -/
theorem test_ill_formed_7 : (([
    .restartTestMode { Tests.mg with len := 2 ^ 32 } .here,
    .migrateSettings { Tests.mg with len := 2 ^ 32 } .here,
    .mailboxGo { Tests.mg with len := 2 ^ 32 },
    .challenge { Tests.mg with len := 2 ^ 32 } .here 1,
    .challenge Tests.mg .here (2 ^ 8),
    .prove { Tests.mg with len := 2 ^ 32 } .here 1 0 0,
    .prove Tests.mg .here (2 ^ 8) 0 0,
    .logout { Tests.mg with len := 2 ^ 32 } .here,
    .getSetting { Tests.mg with len := 2 ^ 32 } .here 1 1,
    .getSetting Tests.mg .here (2 ^ 16) 1,
    .getSetting Tests.mg .here 1 (2 ^ 32),
    .setSetting { Tests.mg with len := 2 ^ 32 } .here 1 1 [],
    .setSetting Tests.mg .here (2 ^ 16) 1 [],
    .setSetting Tests.mg .here 1 (2 ^ 32) [],
    .defaultSetting { Tests.mg with len := 2 ^ 32 } .here 1 1,
    .defaultSetting Tests.mg .here (2 ^ 16) 1,
    .defaultSetting Tests.mg .here 1 (2 ^ 32),
    .listSettings { Tests.mg with len := 2 ^ 32 } .here 1,
    .listSettings Tests.mg .here (2 ^ 64),
    .catalogue { Tests.mg with len := 2 ^ 32 } 1,
    .catalogue Tests.mg (2 ^ 64),
    .stateRead { Tests.mg with len := 2 ^ 32 } 0 1 1 1,
    .stateRead Tests.mg 0 (2 ^ 32) 1 1,
    .stateRead Tests.mg 0 1 (2 ^ 64) 1,
    .stateRead Tests.mg 0 1 1 (2 ^ 32),
    .sgen { Tests.mg with len := 2 ^ 32 },
    .mailboxIdentify { Tests.mg with len := 2 ^ 32 },
    .attest { Tests.mg with len := 2 ^ 32 } 0,
    .certChain { Tests.mg with len := 2 ^ 32 } 1,
    .certChain Tests.mg (2 ^ 64)] : List Instr).any fun c => Instr.wf c) = false := by decide +kernel

theorem test_well_formed_7 : (([
    .restartTestMode Tests.mg .here,
    .migrateSettings Tests.mg .here,
    .mailboxGo Tests.mg,
    .challenge Tests.mg .here 1,
    .prove Tests.mg .here 1 0 0,
    .logout Tests.mg .here,
    .getSetting Tests.mg .here 1 1,
    .setSetting Tests.mg .here 1 1 [],
    .defaultSetting Tests.mg .here 1 1,
    .listSettings Tests.mg .here 1,
    .catalogue Tests.mg 1,
    .stateRead Tests.mg 0 1 1 1,
    .sgen Tests.mg,
    .mailboxIdentify Tests.mg,
    .attest Tests.mg 0,
    .certChain Tests.mg 1] : List Instr).all fun c => Instr.wf c) = true := by decide +kernel

/-- Each check of WellFormed refuses a term it names: rejoin to idRead. -/
theorem test_ill_formed_8 : (([
    .rejoin { Tests.mg with len := 2 ^ 32 } .here 1,
    .rejoin Tests.mg .here (2 ^ 8),
    .arm { Tests.mg with len := 2 ^ 32 } .here,
    .swap { Tests.mg with len := 2 ^ 32 } .here,
    .fence { Tests.mg with len := 2 ^ 32 } .here 1,
    .fence Tests.mg .here (2 ^ 8),
    .release { Tests.mg with len := 2 ^ 32 } .here 1,
    .release Tests.mg .here (2 ^ 8),
    .tallyStatus { Tests.mg with len := 2 ^ 32 } .here,
    .tallyRead { Tests.mg with len := 2 ^ 32 } .here 1 1,
    .tallyRead Tests.mg .here (2 ^ 32) 1,
    .tallyRead Tests.mg .here 1 (2 ^ 8),
    .tallyFreeze { Tests.mg with len := 2 ^ 32 } .here false,
    .tallyClear { Tests.mg with len := 2 ^ 32 } .here,
    .counterRead { Tests.mg with len := 2 ^ 32 } 1,
    .counterRead Tests.mg (2 ^ 16),
    .counterConfig { Tests.mg with len := 2 ^ 32 } .here 1 0 false 0 0,
    .counterConfig Tests.mg .here (2 ^ 16) 0 false 0 0,
    .accessErrors { Tests.mg with len := 2 ^ 32 },
    .moduleSelftest { Tests.mg with len := 2 ^ 32 } .here 1,
    .moduleSelftest Tests.mg .here (2 ^ 8),
    .admitPack { Tests.mg with len := 2 ^ 32 } .here 1,
    .admitPack Tests.mg .here (2 ^ 8),
    .remove { Tests.mg with len := 2 ^ 32 } .here 1,
    .remove Tests.mg .here (2 ^ 8),
    .idRead { Tests.mg with len := 2 ^ 32 } .here 1 1 1,
    .idRead Tests.mg .here (2 ^ 8) 1 1,
    .idRead Tests.mg .here 1 (2 ^ 64) 1,
    .idRead Tests.mg .here 1 1 (2 ^ 32)] : List Instr).any fun c => Instr.wf c) = false := by decide +kernel

theorem test_well_formed_8 : (([
    .rejoin Tests.mg .here 1,
    .arm Tests.mg .here,
    .swap Tests.mg .here,
    .fence Tests.mg .here 1,
    .release Tests.mg .here 1,
    .tallyStatus Tests.mg .here,
    .tallyRead Tests.mg .here 1 1,
    .tallyFreeze Tests.mg .here false,
    .tallyClear Tests.mg .here,
    .counterRead Tests.mg 1,
    .counterConfig Tests.mg .here 1 0 false 0 0,
    .accessErrors Tests.mg,
    .moduleSelftest Tests.mg .here 1,
    .admitPack Tests.mg .here 1,
    .remove Tests.mg .here 1,
    .idRead Tests.mg .here 1 1 1] : List Instr).all fun c => Instr.wf c) = true := by decide +kernel

/-- Each check of WellFormed refuses a term it names: idReplace to ldpcEncode. -/
theorem test_ill_formed_9 : (([
    .idReplace { Tests.mg with len := 2 ^ 32 } .here 1 (List.replicate 4096 0),
    .idReplace Tests.mg .here (2 ^ 8) (List.replicate 4096 0),
    .housekeepingRound 0 (List.replicate 16 25) [] 0 {},
    .endReadonly { Tests.mg with len := 2 ^ 32 } .here,
    .retrain { Tests.mg with len := 2 ^ 32 } .here 1,
    .retrain Tests.mg .here (2 ^ 8),
    .removeCancel { Tests.mg with len := 2 ^ 32 } .here 1,
    .removeCancel Tests.mg .here (2 ^ 8),
    .hbmRead (.core 22) (2 ^ 40) 0,
    .patrolScrub (2 ^ 28) [],
    .norRead { Tests.nd with count := 2 ^ 16 },
    .norRead { Tests.nd with nor := 2 ^ 32 },
    .norRead { Tests.nd with addr := 2 ^ 64 },
    .norRead { Tests.nd with len := 2 ^ 32 },
    .norProgram { Tests.nd with count := 2 ^ 16 },
    .norEraseSector { Tests.nd with count := 2 ^ 16 },
    .norEraseSpan { Tests.nd with count := 2 ^ 16 },
    .housekeepingRound 0 [] (List.replicate 8 1000) 0 {},
    .housekeepingRound 0 (List.replicate 16 25) [] 0 {},
    .rdmaWriteFailed (2 ^ 24),
    .outOfBandMiCommand { Tests.mg with len := 2 ^ 32 },
    .ldpcEncode 0 (2 ^ 16) 0] : List Instr).any fun c => Instr.wf c) = false := by decide +kernel

theorem test_well_formed_9 : (([
    .idReplace Tests.mg .here 1 (List.replicate 4096 0),
    .endReadonly Tests.mg .here,
    .retrain Tests.mg .here 1,
    .removeCancel Tests.mg .here 1,
    .hbmRead (.core 22) 1 0,
    .patrolScrub 1 [],
    .norRead Tests.nd,
    .norProgram Tests.nd,
    .norEraseSector Tests.nd,
    .norEraseSpan Tests.nd,
    .housekeepingRound 0 (List.replicate 16 25) (List.replicate 8 1000) 0 {},
    .rdmaWriteFailed 1,
    .outOfBandMiCommand Tests.mg,
    .ldpcEncode 0 1 0] : List Instr).all fun c => Instr.wf c) = true := by decide +kernel

/-- A state with fields of registers written. -/
def Tests.puts (s : State) (l : List (Fld × Nat × Nat)) : State := l.foldl (fun s e => s.put e.1 e.2.1 e.2.2) s

/-- The state right after reset, with fields of registers written. -/
abbrev Tests.fresh (l : List (Fld × Nat × Nat)) : State := Tests.puts .reset l

/-- Does a command answer a next state? -/
def Tests.answers (r : Res) : Bool :=
  match r with
  | .next _ => true
  | _ => false

theorem Tests.next_of {r : Res} (h : Tests.answers r = true) : ∃ t, r = .next t := by
  unfold Tests.answers at h
  split at h
  · exact ⟨_, rfl⟩
  · exact absurd h (by decide)

/-- The state after a command. -/
def Tests.after (r : Res) : State :=
  match r with
  | .next t => t
  | _ => .reset

/-- Where no input ring is enabled, every input is captured at once. -/
theorem Tests.open_of {s : State} (h : s.isTrail = false) (k : s.twn.heldIn = []) (l : s.twn.openLen ≤ 261888)
    (r : ∀ i, i < 23 → s.on F.TWN_IRCFG.EN i = false) : s.Open := by
  refine ⟨h, k, fun e he => ?_⟩
  have q : s.routeOf e.cls < 23 := by unfold State.routeOf; dsimp only; split <;> omega
  unfold State.hasRoom
  rw [r _ q]
  simp
  omega

theorem test_reset_open : State.reset.Open := Tests.open_of (by decide +kernel) (by decide +kernel) (by decide +kernel) (by decide +kernel)

theorem test_reset_runs : State.reset.Runs := by decide +kernel

/-! ### The machine as a whole -/

theorem test_step_form : State.reset.Ok ∧ ∃ t, step { State.reset with pending := [.cicClaim 21] } = .next t :=
  ⟨by decide +kernel, Tests.next_of (by decide +kernel)⟩

theorem test_step_front : ({ State.reset with pending := [.cicClaim 21, .statusSend] } : State).QueueOk := by decide +kernel

theorem test_stopped : actsAlways .arbiterLost = false ∧ ¬ ({ State.reset with inReset := true } : State).Runs ∧
    ¬ (Tests.fresh [(F.PMC_DBG_STAT.FROZEN, 0, 1)]).Runs := by decide +kernel

theorem test_frame_of_run : ∃ t, exec (.cicDbRing 31) State.reset = .next t := Tests.next_of (by decide +kernel)

theorem test_frozen : (Tests.fresh [(F.PMC_DBG_STAT.FROZEN, 0, 1)]).get F.PMC_DBG_STAT.FROZEN = 1 ∧
    ∃ t, exec .dbgChal (Tests.fresh [(F.PMC_DBG_STAT.FROZEN, 0, 1)]) = .next t :=
  ⟨by decide +kernel, Tests.next_of (by decide +kernel)⟩

/-! ### The core interrupt controller (chapter 15) -/

/-- Source 511 is presented to target 21. -/
def Tests.presented : State := Tests.fresh [(F.CIC_SRC_CFG.PRIO, 511, 15), (F.CIC_SRC_CFG.TMASK, 511, 2 ^ 21),
  (F.CIC_SRC_STAT.PRES, 511, 1), (F.CIC_SRC_STAT.TGT, 511, 21), (F.CIC_SRC_STAT.COUNT, 511, 255)]

/-- Source 331 is in service on target 21, over source 20, with a count left and the interrupt controller on. -/
def Tests.serving : State := Tests.puts { State.reset with cic := { stk := [(21, [(9, 331), (3, 20)])] } }
  [(F.CIC_CTL.EN, 0, 1), (F.CIC_TGT_CTL.EN, 21, 1), (F.CIC_SRC_CFG.PRIO, 331, 9), (F.CIC_SRC_CFG.TMASK, 331, 2 ^ 21),
    (F.CIC_SRC_STAT.INSVC, 331, 1), (F.CIC_SRC_STAT.TGT, 331, 21), (F.CIC_SRC_STAT.COUNT, 331, 1)]

theorem test_claim_some : Tests.presented.Runs ∧ Tests.presented.bestSource (Tests.presented.presentedTo 21) = some 511 := by decide +kernel

theorem test_claim_none : State.reset.bestSource (State.reset.presentedTo 0) = none := by decide +kernel

theorem test_eoi : Tests.serving.Runs ∧ Tests.serving.srcInService 21 331 = true ∧
    (Tests.after (exec (.cicEoi 21 331) Tests.serving)).eligible 331 21 = true := by decide +kernel

theorem test_eoi_stray : Tests.serving.srcInService 21 331 = true ∧ Tests.serving.srcInService 0 331 = false := by decide +kernel

theorem test_ring : Tests.serving.get F.CIC_SRC_CFG.MODE 331 = 0 ∧ Tests.serving.get F.CIC_SRC_STAT.INSVC 331 = 1 ∧
    Tests.serving.get F.CIC_SRC_STAT.COUNT 331 < 255 := by decide +kernel

theorem test_core_run : (Tests.fresh [(F.CIC_CORE_CTL.LID, 21, 30)]).Runs ∧
    (Tests.fresh [(F.CIC_CORE_CTL.LID, 21, 30)]).get F.CIC_CORE_CTL.LID 21 ≠ 31 ∧
    (Tests.fresh [(F.CIC_CORE_CTL.LID, 21, 30)]).lidTaken 21 = false := by decide +kernel

theorem test_watchdog : (Tests.fresh [(F.CIC_WDT.EN, 23, 1)]).Runs ∧ (Tests.fresh [(F.CIC_WDT.EN, 23, 1)]).get F.CIC_WDT.EN 23 = 1 := by
  decide +kernel

/-! ### HBM (chapter 17) -/

/-- HBM is filled and patrolled; the test mode is on and names the last word of HBM. -/
def Tests.hbm : State := Tests.fresh [(F.HBC_INIT.DONE, 0, 1), (F.HBC_CTL.PATROL_H, 0, 1), (F.HBC_TEST_CTL.EN, 0, 1),
  (F.HBC_TEST_ADDR.ADDR, 0, 0x1000000000 / 8)]

theorem test_fill : State.reset.hbm.fillBusy = false ∧ ({ State.reset with hbm := { fillBusy := true } } : State).Runs := by decide +kernel

theorem test_hbm_read : inHbm 0x1000000000 = true ∧ Tests.hbm.decoded (.core 0) 0x1000000000 = true ∧
    Tests.hbm.decoded (.porter 63) 0x279FFFFFF8 = true ∧ Tests.hbm.errOf (0x1000000000 / 8) = 0 := by decide +kernel

theorem test_patrol : Tests.hbm.Runs ∧ Tests.hbm.get F.HBC_INIT.DONE = 1 ∧ Tests.hbm.get F.HBC_CTL.PATROL_H ≠ 0 := by decide +kernel

theorem test_hbm_test : Tests.hbm.get F.HBC_TEST_CTL.EN = 1 ∧ Tests.hbm.get F.HBC_CTL.TLOCK = 0 ∧
    inHbm (8 * Tests.hbm.testWord) = true := by decide +kernel

/-! ### The porter (chapter 16) -/

/-- Channel 63 is enabled, with a set of one byte in HBM, and a shadow set committed. -/
def Tests.porter : State := Tests.fresh [(F.PTR_CTL.EN, 63, 1), (F.PTR_SRC.ADDR, 63, 0x1000000000), (F.PTR_DST.ADDR, 63, 0x1000000100),
  (F.PTR_CNT.COUNT, 63, 1), (F.PTR_CTL.COMMIT, 63, 1)]

/-- Channel 63 runs a set; it is asked to pause. -/
def Tests.porting : State := Tests.puts Tests.porter [(F.PTR_STAT.IDLE, 63, 0), (F.PTR_CTL.PAUSE, 63, 1), (F.PTR_CTL.TEVT, 63, 16)]

theorem test_porter_start : Tests.porter.Runs ∧ Tests.porter.domHeld 109 = false ∧ Tests.porter.ptrReady 63 = true ∧
    Tests.porter.malformed 63 = false ∧ Tests.porter.get F.PTR_CNT.COUNT 63 ≠ 0 ∧ Tests.porter.canTake 63 = true := by decide +kernel

theorem test_porter_runs : Tests.porting.Runs ∧ Tests.porting.ptrRuns 63 = true ∧ Tests.porting.get F.PTR_STAT.PAUSED 63 = 0 ∧
    Tests.porting.get F.PTR_CTL.PAUSE 63 = 1 ∧ 16 ≤ Tests.porting.get F.PTR_CTL.TEVT 63 := by decide +kernel

theorem test_line : 0 < ({ State.reset with evt := { q := [(255, 1)] } } : State).lineCount 255 ∧
    (∀ h ∈ State.reset.evt.held, h.line ≠ 255) := by decide +kernel

/-! ### Secure NOR (chapter 18) -/

/-- A descriptor of operation `op` runs. -/
def Tests.norRuns (op : Nat) : State := { State.reset with nor := { descs := [{ idx := 0, op := op, d := Tests.nd, status := 1 }] } }

/-- Region 15 is open, and its lockout is off. -/
def Tests.region : State := Tests.puts (Tests.norRuns 0) [(F.SNF_RGN.OPEN, 15, 1)]

theorem test_nor_queue : 64 ≤ ((Tests.fresh [(F.SNF_QPTR.TAIL, 0, 64)]).get F.SNF_QPTR.TAIL + 65536 -
    (Tests.fresh [(F.SNF_QPTR.TAIL, 0, 64)]).get F.SNF_QPTR.HEAD) % 65536 ∧
    ¬ 64 ≤ (State.reset.get F.SNF_QPTR.TAIL + 65536 - State.reset.get F.SNF_QPTR.HEAD) % 65536 := by decide +kernel

theorem test_nor_erase_end : ((Tests.norRuns 3).norRunning.map fun x => x.op) = some 3 ∧ (Tests.norRuns 3).Runs ∧
    ((Tests.norRuns 4).norRunning.map fun x => x.op) = some 4 := by decide +kernel

/-- A read runs whose buffer of one byte is in the SRAM of the security core. -/
def Tests.norReads : State := { State.reset with
  nor := { descs := [{ idx := 0, op := 1, d := { Tests.nd with addr := 0x12C00000, len := 1 }, status := 1 }] } }

theorem test_nor_read_end : (Tests.norReads.norRunning.map fun x => (x.op, Tests.norReads.norBuffer x, isRam x.d.addr)) = some (1, true, true) ∧
    Tests.norReads.nor.undef = [] := by decide +kernel

theorem test_regions : Tests.region.Runs ∧ Tests.region.get F.SNF_RGN.LOCKOUT 15 = 0 ∧ Tests.region.get F.SNF_STAT.CFGERR = 0 ∧
    Tests.region.get F.SNF_RGN.OPEN 15 = 1 := by decide +kernel

theorem test_clrlock : Initiator.core 22 ≠ .user 22 := by decide +kernel

/-! ### Mailbox requests (chapters 12, 14) -/

/-- A session of a crypto officer on channel 2; the module is in approved mode. -/
def Tests.session : State := Tests.puts
  { State.reset with mbx := { tokens := [{ val := 9, chan := 2, role := 2, keyid := 5, used := 0 }] } } [(F.SEC_MODE.MODE, 0, 1)]

/-- A request of that session. -/
def Tests.req (len : Nat) : Msg := { Tests.mg with len := len, token := 9 }

/-- The requests of the session pass the checks of the mailbox, for the opcode and the length of each service. -/
theorem test_admits : ∀ e ∈ [(0x0401, 16), (0x0402, 24), (0x0403, 20), (0x0404, 16), (0x0701, 20), (0x0702, 28), (0x0703, 16), (0x0601, 36),
    (0x0602, 20), (0x0603, 20), (0x0604, 20), (0x0605, 20), (0x0606, 20), (0x0607, 36), (0x0608, 52), (0x0609, 24), (0x060A, 28672),
    (0x060B, 20), (0x060C, 116), (0x060C, 68), (0x060D, 20), (0x0001, 20), (0x0002, 164), (0x0003, 16), (0x0710, 16)],
    Tests.session.Admits e.1 e.2 (Tests.req e.2) := by decide +kernel

/-! ### Tally and counters (chapter 20) -/

/-- The tally recorder is on, an interval closes and the store has room for one more record. -/
def Tests.tally : State := Tests.puts (Tests.after (execTallyIntervalEnd 0 (Tests.fresh [(F.TLY_CTL.EN, 0, 1)])))
  [(F.TLY_STAT.NREC, 0, 2047), (F.PMC_CTL.EN, 52, 255)]

theorem test_tally : Tests.tally.Runs ∧ Tests.tally.tallyOn = true ∧ Tests.tally.tly.closing.isSome = true ∧
    Tests.tally.get F.TLY_STAT.NREC < 2048 ∧ Tests.tally.get F.TLY_CTL.PE_DONE = 0 ∧ Tests.tally.get F.PMC_GCTL.FRZ = 0 ∧
    (Tests.tally.get F.PMC_CTL.EN 52).testBit 7 = true ∧ Tests.tally.get F.TLY_CTL.FREEZE = 0 ∧ Tests.tally.get F.TLY_STAT.CLEARING = 0 := by
  decide +kernel

theorem test_tally_held : Tests.tally.tallyHeld = false ∧
    (Tests.puts Tests.tally [(F.TLY_CTL.FREEZE, 0, 1)]).tallyHeld = true := by decide +kernel

theorem test_tally_frozen : (Tests.fresh [(F.TLY_CTL.EN, 0, 1), (F.TLY_CTL.FREEZE, 0, 1)]).tallyOn = true ∧
    (Tests.fresh [(F.TLY_CTL.EN, 0, 1), (F.TLY_CTL.FREEZE, 0, 1)]).get F.TLY_CTL.FREEZE = 1 := by decide +kernel

theorem test_tally_clear : (Tests.fresh [(F.TLY_STAT.CLEARING, 0, 1)]).get F.TLY_STAT.CLEARING = 1 ∧
    (Tests.fresh [(F.TLY_STAT.CLEARING, 0, 1)]).tly.due = false ∧ (Tests.fresh [(F.TLY_STAT.CLEARING, 0, 1)]).tly.closing = none := by decide +kernel

theorem test_chain : (Tests.fresh [(F.PMC_CFG.CHAIN, 8 * 52 + 7, 1)]).get F.PMC_CFG.CHAIN (8 * 52 + 6 + 1) = 1 := by decide +kernel

theorem test_units : unitSet 23 = some 23 ∧ unitSet 0x101 = some 33 ∧ unitSet 0x114 = some 52 := by decide +kernel

/-! ### The map (chapter 4) -/

/-- A namespace of one bale. -/
def Tests.ns : Ns := { nsze := 16, lbaf := 0, meta64 := false, tolerance := false, eltype := 255, boundk := 0, raw := true, sealed := false
                       keyref := 0, inst := 1, funcs := [0] }

/-- The map engine is on; namespace 1 exists, and its first map page is dirty in the cache. -/
def Tests.map : State := Tests.puts { State.reset with
  hif := { ns := [(1, Tests.ns)] }
  map := { frames := [{ mpn := 0, ref := false, dirty := true, pin := false }]
           openJ := [{ typ := 1, blk := 0, nsidx := 0, inst := 1, key := 0, value := 0, jseq := 1 }]
           misses := [(5, [{ q := 0, op := 1, slot := 0, d := Tests.md }])]
           missOrder := [5] } } [(F.MAP_CTL.EN, 0, 1), (F.MAP_QCTL.EN, 15, 1)]

/-- A request for namespace 1 that no commit is later than. -/
def Tests.mreq (count : Nat) (value : BitVec 64) : MapDesc := { Tests.md with count := count, value := value, fstamp := 5 }

theorem test_map_on : Tests.map.Runs ∧ Tests.map.domHeld 108 = false ∧ Tests.map.get F.MAP_CTL.EN = 1 ∧ Tests.map.get F.MAP_QCTL.EN 15 = 1 ∧
    Tests.map.pageReady (mpnOf 1 0) = true := by decide +kernel

theorem test_map_requests : Tests.map.mapMalformed 1 (Tests.mreq 16 0) = false ∧ entryOk (Tests.map.nsSealed 1) (Tests.map.entry 1 0) = true ∧
    Tests.map.mapMalformed 2 (Tests.mreq 0 (2 ^ 49)) = false ∧ Tests.map.newEntryOk 1 (2 ^ 49) = true ∧
    Tests.map.grainsAcked 0 0 = true ∧ (∃ b ∈ Tests.map.baleBlocks 1, Tests.map.outdated 1 0 b 5 = false) ∧
    (∀ b ∈ Tests.map.baleBlocks 1, Tests.map.outdated 1 0 b 5 = false) ∧
    Tests.map.mapMalformed 3 (Tests.mreq 0 (mkPatch 0 0 0 0 1 0 0)) = false ∧ Tests.map.newPatchOk 1 (mkPatch 0 0 0 0 1 0 0) = true ∧
    Tests.map.mustMerge 1 0 = false ∧ Tests.map.outdated 1 0 0 5 = false ∧
    Tests.map.mapMalformed 4 (Tests.mreq 16 0) = false ∧ blocksPerBale Tests.ns.lbaf = 16 ∧
    Tests.map.mapMalformed 5 (Tests.mreq 0 (2 ^ 49)) = false ∧ Tests.map.dropStale 1 0 5 = false := by decide +kernel

/-- A stored entry of an extent whose convoy page is not acknowledged, and the page of a bale that is not in the cache. -/
theorem test_map_waits : Tests.map.newEntryOk 1 (mkEntry 0 0 0 0 1 0 65 0) = true ∧ Tests.map.grainsAcked 0 65 = false ∧
    ({ Tests.map with map := { Tests.map.map with ckpt := [(1, { inst := 0, jseq := 0, loc := 0, crc := 0 })] } } : State).pageReady 1 = false ∧
    Tests.map.lineFull 0 = false := by decide +kernel

theorem test_map_pages : Tests.map.mapMalformed 6 (Tests.mreq 0 0) = false ∧ Tests.map.mapMalformed 7 (Tests.mreq 0 0) = false ∧
    (Tests.map.map.frames.any fun f => f.mpn == 0 && f.dirty) = true ∧ Tests.map.wantsPage 5 = true ∧
    Tests.map.map.openJ ≠ [] ∧ Tests.map.map.ckptOpen = none ∧ Tests.map.dirtyPages ≠ [] ∧
    ({ Tests.map with map := { Tests.map.map with ckptOpen := some { mark := 0, ps := [] } } } : State).map.ckptOpen.isSome = true := by decide +kernel

theorem test_map_malformed : Tests.map.mapMalformed 1 { Tests.md with mbz := false } = true := by decide +kernel

/-! ### Convoys and placement (chapters 7, 8) -/

/-- The convoy engine and ring 3 are on; the media engines are too. -/
def Tests.convoy : State := Tests.fresh [(F.CVY_CTL.EN, 0, 1), (F.CVY_RING_CFG.EN, 3, 1), (F.CVY_RING_CFG.BASE, 3, 0x1000000000 / 64),
  (F.MED_CTL.EN, 0, 1), (F.HBC_INIT.DONE, 0, 1)]

theorem test_convoy : Tests.convoy.CvyTakes 3 ∧ Tests.convoy.engineSees (Tests.convoy.cvySlot 3 + 0x18) = true ∧
    CvyDescBad 1 { Tests.vd with acc := 255, w := 16, k := 13 } = false ∧ CvyDescBad 2 Tests.vd = false ∧ tget 0 Tests.convoy.conv.acc = none ∧
    CvyDescBad 3 Tests.vd = false ∧ Tests.vd.miss1 = 0xFF ∧ CvyDescBad 4 Tests.vd = false ∧ CvyDescBad 4 { Tests.vd with acc := 256 } = true ∧
    Tests.convoy.lineFull 0 = false ∧ Tests.convoy.hif.shutdown = [] ∧ Tests.convoy.hif.ctxs = [] := by
  decide +kernel

theorem test_encode : Tests.convoy.domHeld 107 = false ∧ Tests.convoy.get F.MED_CTL.EN = 1 ∧ Tests.convoy.lineFull 255 = false ∧
    Tests.convoy.get F.PMC_CTL.EN 39 = 0 := by decide +kernel

/-- The bytes of a pack's identity record before its CRC: 32 dies of 4 erase blocks. -/
def Tests.idBody : Bytes :=
  let b := patchBytes (List.replicate 4092 0) 0 (leBytes 4 0x44494B50 ++ leBytes 2 1)
  let b := patchBytes b 0x68 (leBytes 2 64)
  let b := patchBytes b 0x80 (leBytes 2 32 ++ leBytes 1 3 ++ leBytes 1 1 ++ leBytes 4 4 ++ leBytes 2 3 ++ leBytes 2 16384 ++ leBytes 2 2048)
  b

/-- The record. -/
def Tests.idRec : Bytes := Tests.idBody ++ leBytes 4 (crc32c Tests.idBody).toNat

theorem Tests.idBody_length : Tests.idBody.length = 4092 := by decide +kernel

theorem Tests.leNat_leBytes4 (v : Nat) (h : v < 2 ^ 32) : leNat (leBytes 4 v) = v := by
  simp only [leBytes, leNat, BitVec.toNat_ofNat]; omega

/-- A record with its CRC is valid (R210). -/
theorem test_idRec : (parseId Tests.idRec).valid = true := by
  have h : Tests.idRec.take 4092 = Tests.idBody := by
    rw [Tests.idRec, ← Tests.idBody_length, List.take_left]
  have hc : le Tests.idRec 4092 4 = (crc32c Tests.idBody).toNat := by
    unfold le Tests.idRec
    rw [← Tests.idBody_length, List.drop_left, List.take_of_length_le (by simp [leBytes]), Tests.leNat_leBytes4 _ (crc32c Tests.idBody).isLt]
  have hl : Tests.idRec.length = 4096 := by decide +kernel
  have e : (le Tests.idRec 0 4 == 0x44494B50 && le Tests.idRec 4 2 == 1) = true := by decide +kernel
  have d : 32 ≤ le Tests.idRec 0x80 2 ∧ le Tests.idRec 0x80 2 ≤ 256 ∧ le Tests.idRec 0x80 2 % 32 = 0 ∧ 3 ≤ le Tests.idRec 0x82 1 ∧
      le Tests.idRec 0x82 1 ≤ 4 ∧ 1 ≤ le Tests.idRec 0x83 1 ∧ le Tests.idRec 0x83 1 ≤ 8 ∧ le Tests.idRec 0x8A 2 = 16384 ∧
      le Tests.idRec 0x8C 2 = 2048 ∧ le Tests.idRec 0x8E 2 ≤ 512 ∧ 64 ≤ le Tests.idRec 0x68 2 ∧ le Tests.idRec 0x68 2 ≤ 4096 := by
    decide +kernel
  unfold parseId
  simp only [Bool.and_eq_true, beq_iff_eq, decide_eq_true_eq] at e ⊢
  exact ⟨⟨⟨⟨hl, e.1⟩, e.2⟩, by rw [hc, h]⟩, d⟩

/-- A record of one die of one erase block. -/
def Tests.pid : PackId :=
  { valid := true, serial := 0, copyseq := 0, bridgeType := 0, bridgeFwMin := 0, qdepth := 8, dies := 1, bpc := 1, planes := 1, blocks := 1, pages := 1, dieGib := 1
    peRated := 1, peRatedSlc := 1, spareBlk := 0, lzBlk := 0, dieTempMax := 85, pairId := 0, svcDtime := 0, svcEpoch := 0, inserts := 0, retired := []
    ageBounds := [], wtBounds := [], rtBounds := [], peBounds := [], nthr := 7, ladder := [], softDelta := 0, rmodel := [] }

/-- Four packs in service with a die of four erase blocks each. -/
def Tests.packs : State := { State.reset with packs := (List.range 4).map fun n => (n, { svc := true, tempOk := true, id := some { Tests.pid with blocks := 4 } }) }

theorem test_form : Tests.packs.Runs ∧ Tests.packs.formWidth = 4 ∧ (∀ k : Fin 5, Tests.packs.cbCount k < streamMax k ∧
      Tests.packs.mustWait k ((Tests.packs.packOrder Tests.packs.inService).take 4) = false ∧ Tests.packs.hostWaits k 4 = false) ∧
    4 ≤ (Tests.packs.packOrder Tests.packs.inService).length ∧ Tests.packs.freeAcc = some 0 ∧
    Tests.packs.freeCbid = some 0 := by decide +kernel

theorem test_form_none : State.reset.formWidth = 0 := by decide +kernel

/-- An open convoy holds data in accumulator 255. -/
def Tests.open_ : State := Tests.puts { State.reset with
  conv := { cbt := [(7, { state := 1, w := 4, nextPage := 1 })], acc := [(255, { cbid := 7, stream := 0, got := [(0, 0x1000000000)] })] } } []

theorem test_expiry : Tests.open_.Runs ∧ (tget 255 Tests.open_.conv.acc).map OpenCv.filled = some true ∧ tget 0 Tests.open_.conv.acc = none := by
  decide +kernel

/-- A block of four members in packs 0 to 3, of which the first is lost, waits for its rebuild. -/
def Tests.rebuild : State := { Tests.packs with
  conv := { cbt := [(2, { state := 2, w := 4, rbclass := 1, nextPage := 2, live := 1, lost := 1
                          members := [{ port := 9, die := 0, block := 0, lost := true }, { port := 1, die := 0, block := 0 }] })] } }

theorem test_rebuild_start : Tests.rebuild.conv.rebuild = none ∧
    ((rebuildNext (Tests.rebuild.conv.cbt.filter fun e => e.2.rbclass != 0 && (e.2.state == 2 || e.2.state == 3))).map fun e =>
      (e.1, decide (e.2 = Tests.rebuild.cb 2), e.2.rbclass, e.2.members.findIdx? fun x => x.lost)) = some (2, true, 1, some 0) ∧
    ((Tests.rebuild.cb 2).members[0]?.bind fun x => Tests.rebuild.replacement (Tests.rebuild.cb 2) x).isSome = true ∧
    1 < (Tests.rebuild.cb 2).nextPage := by decide +kernel

theorem test_rebuild_class4 : (rebuildNext (([(2, { state := 3, w := 4, rbclass := 4, live := 1 })] : Tbl Cb).filter fun e =>
    e.2.rbclass != 0 && (e.2.state == 2 || e.2.state == 3))).map (fun e => (e.2.rbclass, e.2.live)) = some (4, 1) := by decide +kernel

theorem test_refresh : (({ State.reset with conv := { refreshQ := [4] } } : State).conv.refreshQ.filter fun k =>
    !({ State.reset with conv := { refreshQ := [4] } } : State).conv.refreshing.contains k) = [4] := by decide +kernel

theorem test_decode : Tests.convoy.domHeld 107 = false ∧ Tests.convoy.get F.MED_CTL.EN = 1 ∧ 8 ≤ Tests.convoy.iterLimit 7 ∧ Tests.convoy.iterLimit 0 < 32 ∧
    Tests.convoy.iterLimit 8 < 64 ∧
    ((({ Tests.convoy with conv := Tests.rebuild.conv } : State).cb 2).members[1]?).isSome = true := by decide +kernel

/-- The packs of which every erase block is in a convoy block. -/
def Tests.full : State := { Tests.packs with
  conv := { cbt := (List.range 4).map fun k => (k, { state := 2, w := 4, members := (List.range 4).map fun n => { port := n, die := 0, block := k } }) } }

theorem test_scrub : Tests.full.mode ≠ .idle ∧ Tests.full.mode ≠ .balanced ∧ Tests.full.hostWaits 0 4 = true := by decide +kernel

/-- Four awake packs with a block of 100 pages, of which the pass has reached page 1. -/
def Tests.scrubs : State := { Tests.packs with
  conv := { cbt := [(2, { state := 2, w := 4, nextPage := 100, members := (List.range 4).map fun n => { port := n, die := 0, block := 0 } })]
            scrubCb := 2, scrubAt := 4, scrubMid := 9 } }

theorem test_scrub_round : (Tests.scrubs.mode = .idle ∨ Tests.scrubs.mode = .balanced) ∧ (Tests.scrubs.inService.any fun n => !Tests.scrubs.asleep n) = true ∧
    Tests.scrubs.conv.scrubAt ≠ 0 ∧ Tests.scrubs.scrubNext = some (Tests.scrubs.conv.scrubCb, Tests.scrubs.cb 2) ∧
    (Tests.scrubs.cb 2).w ≠ 0 ∧ (Tests.scrubs.cb 2).members.length = (Tests.scrubs.cb 2).w ∧
    (∀ x ∈ (Tests.scrubs.cb 2).members, x.lost = false ∧ Tests.scrubs.asleep x.port = false) ∧
    Tests.scrubs.conv.scrubAt + (Tests.scrubs.scrubQuota + Tests.scrubs.conv.scrubCarry) ≤ (Tests.scrubs.cb 2).nextPage * (Tests.scrubs.cb 2).w := by
  decide +kernel

/-! ### Flit links and packs (chapter 6) -/

/-- Pack 31 is up, with a command outstanding and two flits unacknowledged; so is the twin link. -/
def Tests.link : State := Tests.puts { State.reset with
  packs := [(31, { link := { tx := 2, acked := 0, buf := [{ seq := 0, typ := 0, port := 0, len := 0 }, { seq := 1, typ := 0, port := 0, len := 0 }] }, svc := true, eseq := 4, phase := 5
                   outst := [{ cmd := { cseq := 7, opc := 1 }, use := .scrub 3 0 }] })]
  twn := { link := { tx := 0, acked := 0xFFFFFFFF, buf := [{ seq := 0xFFFFFFFF, typ := 0, port := 0, len := 0 }] } } }
  [(F.PKP_CTL.EN, 31, 1), (F.PKP_STAT.LINK_UP, 31, 1), (F.PKP_STAT.STATE, 31, 5)]

theorem test_link : Tests.link.Runs ∧ Tests.link.Sends ∧ (Tests.link.lnk (.pack 31)).unacked ≠ 0 ∧ Tests.link.twn.link.unacked ≠ 0 ∧
    (Tests.link.lnk (.pack 31)).wait = [] ∧ (Tests.link.lnk (.pack 0)).unacked = 0 ∧
    ((Tests.link.lnk (.pack 31)).fails.filter fun t => decide (Tests.link.elapsed < t + 1000000)).length < 2 := by decide +kernel

theorem test_pack : (Tests.link.pk 31).svc = true ∧ Tests.link.pkState 31 ≠ 9 ∧ Tests.link.sleepsDeep 31 = false ∧
    Tests.link.retraining (.pack 31) = false ∧ Tests.link.get F.PKP_CTL.EN 31 = 1 ∧
    State.reset.get F.PKP_CTL.EN 31 = 0 ∧ Tests.link.get F.PKP_STAT.LINK_UP 31 = 1 ∧ State.reset.get F.PKP_STAT.LINK_UP 31 = 0 ∧
    (Tests.link.pk 31).outst ≠ [] ∧ Tests.link.hif.activating = none ∧ (State.reset.pk 0).outst = [] ∧
    ((Tests.link.pk 31).outst.find? fun o => o.cmd.cseq == 7).map (fun o => o.use) = some (.scrub 3 0) := by decide +kernel

/-- Pack 0 sleeps deeply, pack 1 goes to deep sleep, and the lane of pack 2 trains again. -/
def Tests.asleep : State := Tests.puts { State.reset with
  packs := [(0, { phase := 9 }), (1, { phase := 7, outst := [{ cmd := { cseq := 1, opc := 0x13 }, use := .sleep 2 }] }), (2, { phase := 7, side := 2 })] }
  [(F.PKP_CTL.RETRAIN, 2, 1)]

theorem test_pack_sleep : Tests.asleep.Runs ∧ Tests.asleep.pkState 0 = 9 ∧ Tests.asleep.sleepsDeep 1 = true ∧ Tests.asleep.retraining (.pack 2) = true := by
  decide +kernel

theorem test_pack_open : Tests.link.Open := Tests.open_of (by decide +kernel) (by decide +kernel) (by decide +kernel) (by decide +kernel)

/-- Pack 0 is held for its bridge update, at the step before activation; pack 1 is being removed. -/
def Tests.bridge : State := Tests.puts { State.reset with packs := [(0, { updStep := 3 }), (1, { removing := true })] } [(F.PKP_CTL.HOLD, 0, 1)]

theorem test_bridge : Tests.bridge.Runs ∧ Tests.bridge.get F.PKP_CTL.HOLD 0 = 1 ∧ (Tests.bridge.pk 0).outst = [] ∧ (Tests.bridge.pk 0).updStep = 3 ∧
    (Tests.bridge.pk 1).removing = true ∧ (Tests.bridge.membersWhere fun x => x.port == 1) = [] := by decide +kernel

/-! ### Compression (chapter 5) -/

/-- Compression engine 25 and ring 7 are on; engine 0 has a fault. -/
def Tests.cmp : State := Tests.fresh [(F.CMP_CTL.EN, 0, 1), (F.CMP_RING_CFG.EN, 7, 1), (F.CMP_RING_CFG.BASE, 7, 0x1000000000 / 64),
  (F.CMP_ENG_CTL.EN, 25, 1), (F.HBC_INIT.DONE, 0, 1), (F.CMP_ENG_STAT.FAULT, 0, 1)]

theorem test_cmp : Tests.cmp.CmpTakes 7 25 ∧ (Tests.cmp.cmpEnd 1 Tests.cd false false).status = 4 ∧ Tests.cmp.lineFull 0 = false ∧
    (Tests.cmp.cmpEnd 2 { Tests.cd with eltype := 0xFF, srclen := 16 } true false).status = 3 ∧ Tests.cmp.engineSees (Tests.cmp.cmpSlot 7 + 0x30) = true ∧ (State.reset.cmpEngine 25 = none) ∧ Tests.cmp.get F.CMP_ENG_STAT.FAULT 0 = 1 ∧ Tests.cmp.get F.CMP_ENG_STAT.FAULT 25 = 0 := by decide +kernel

theorem test_cmp_round : (Tests.cmp.cmpEnd 3 { Tests.cd with eltype := 0, boundk := 0, srclen := 4096 } false false).status = 1 := by decide +kernel

/-! ### The cipher cluster and keys (chapter 12) -/

/-- The cluster, ring 31 and cores 0, 1 are on, and core 17 has a fault; slot 16 holds an XTS key, slot 17 waits to be erased and
slot 65535 to be rewritten. -/
def Tests.cipher : State := Tests.puts { Tests.session with
  keys := { slots := [(0, { alg := 2, loaded := true }), (16, { alg := 1, loaded := true, mat := List.replicate 64 1, wrapped := true }),
                      (17, { alg := 1, pend := some .erase }), (65535, { alg := 2, pend := some (.rewrite [1]) })] } }
  [(F.CPH_CTL.EN, 0, 1), (F.CPH_RING_CFG.EN, 31, 1), (F.CPH_RING_CFG.BASE, 31, 0x1000000000 / 64), (F.CPH_CORE_CTL.EN, 0, 1),
    (F.CPH_CORE_CTL.EN, 1, 1), (F.CPH_CORE_STAT.FAULT, 17, 1), (F.HBC_INIT.DONE, 0, 1)]

theorem test_cipher : Tests.cipher.CphPosts 31 Tests.hr ∧ Tests.cipher.NoUpset ∧ Tests.cipher.cphGets 31 { Tests.hd with slot := 17 } Tests.hr = none ∧
    Tests.cipher.cphGets 31 { Tests.hd with slot := 16 } Tests.hr = some Tests.hr ∧ Tests.cipher.engineSees (Tests.cipher.cphSlot 31 + 0x1C) = true ∧ (Tests.cipher.cphEnd 1 { Tests.hd with slot := 16, len := 8 } Tests.hr).status = 4 ∧
    (Tests.cipher.cphEnd 1 { Tests.hd with slot := 16 } { Tests.hr with ok := false, rerunOk := false }).status = 3 ∧
    (Tests.cipher.cphEnd 1 { Tests.hd with slot := 18 } Tests.hr).status = 5 := by decide +kernel

theorem test_cipher_control : Tests.cipher.get F.CPH_CORE_STAT.FAULT 17 = 1 ∧ Tests.cipher.get F.CPH_CORE_STAT.FAULT 0 = 0 ∧
    (Tests.cipher.kslot 17).pend = some .erase ∧ (Tests.cipher.kslot 65535).pend = some (.rewrite [1]) ∧ (Tests.cipher.kslot 16).pend = none := by
  decide +kernel

theorem test_key_slots : Tests.cipher.Runs ∧ Tests.cipher.emptySlot = some 18 ∧ Tests.cipher.isTrail = false ∧ Tests.cipher.keyNeeded 18 = false ∧
    Tests.cipher.slotOf 16 = some 16 ∧ Tests.cipher.slotOf 15 = none ∧ (Tests.cipher.kslot 0).loaded = true ∧
    (Tests.cipher.kslot 16).wrapped = true ∧ Tests.cipher.keys.noUnwrap = false ∧ Tests.cipher.Admits 0x0607 36 (Tests.req 36) := by decide +kernel

theorem test_rotate : (({ Tests.cipher with hif := { ns := [(4096, { Tests.ns with sealed := true })] } } : State).nsOf 4096).map (fun n =>
    (n.sealed, n.prevKey)) = some (true, none) := by decide +kernel

/-- A first component of the transport secret has been entered by another officer. -/
def Tests.half : State := { Tests.session with keys := { dtsPart := [(1, 0, 6)], dts := some 0, srkFirst := true } }

theorem test_secret : Tests.session.get F.TWN_STAT.PAIRED = 0 ∧ (Tests.session.leadBytes 48).isSome = true ∧ tget (3 - 1) Tests.session.keys.dtsPart = none ∧
    tget (3 - 2) Tests.half.keys.dtsPart = some (0, 6) ∧
    (6 : BitVec 384) ≠ ((Tests.half.useToken (Tests.req 52)).tokenOf (Tests.req 52)).elim 0 Token.keyid ∧
    Tests.half.Admits 0x0608 52 (Tests.req 52) := by decide +kernel

theorem test_key_store : Tests.half.keys.dts.isSome = true ∧ Tests.half.hif.ns = [] ∧ Tests.half.keys.srkFirst = true ∧
    Tests.half.Admits 0x060A (32 + [(0 : Byte)].length) (Tests.req 33) ∧ Tests.half.Admits 0x0609 24 (Tests.req 24) := by decide +kernel

/-- The joiner of a rejoin, with the twin link up; and a paired trail. -/
def Tests.joiner : State := Tests.puts { State.reset with arb := { rj := { active := true, joiner := true } } } [(F.TWN_STAT.LINK_UP, 0, 1)]
def Tests.trail : State := Tests.fresh [(F.TWN_STAT.LINK_UP, 0, 1), (F.TWN_STAT.PAIRED, 0, 1), (F.TWN_STAT.ROLE, 0, 1), (F.HIF_TWNSTAT.STATE, 0, 2),
  (F.HIF_TWNSTAT.ROLE, 0, 1)]

theorem test_twin_keys : Tests.joiner.Runs ∧ Tests.joiner.joining = true ∧ Tests.joiner.get F.TWN_STAT.LINK_UP = 1 ∧ Tests.trail.Runs ∧
    Tests.trail.joining = false ∧ Tests.trail.isTrail = true ∧ (Tests.trail.keys.need.find? fun e => e.1 == 1) = none ∧
    (({ Tests.trail with keys := { need := [(1, 16, 1)] } } : State).keys.need.find? fun e => e.1 == 1) = some (1, 16, 1) := by decide +kernel

theorem test_enrol : (Tests.session.keys.auth.filter fun k => k.role == 1 && k.keyid != keyIdOf 0).length < 8 ∧
    (({ Tests.session with keys := { auth := [{ role := 1, key := 0, keyid := 3 }] } } : State).keys.auth.any fun k =>
      k.role == 1 && k.keyid == 3) = true := by decide +kernel

theorem test_prove : tget (Tests.req 164).chan.val Tests.session.mbx.blockAt = none := by decide +kernel

theorem test_channels : (Tests.fresh [(F.MBX_CSR.BUSY, 7, 1)]).Runs ∧ (Tests.fresh [(F.MBX_CSR.BUSY, 7, 1)]).get F.MBX_CSR.BUSY 7 = 1 ∧
    State.reset.get F.MBX_CSR.BUSY 6 = 0 := by decide +kernel

/-! ### Host commands (chapter 2) -/

/-- Function 65 exists (two ports), is ready, and has a submission queue 1 with one entry and its completion queue 1. -/
def Tests.host : State := Tests.puts { State.reset with
  straps := { twinId := false, linkMode := true, recovN := true, testEn := false }
  hif := { numVfs := [(0, 32), (1, 32)], vfEnable := [(0, true), (1, true)]
           funcs := [(65, { sqs := [(0, { base := 0, size := 2, cqid := 0, prio := 0 }), (1, { base := 0, size := 4, cqid := 1, prio := 0, tail := 1 })]
                            cqs := [(1, { base0 := 0, base1 := 0, size := 4, vector := 0, ien := false })] })]
           nextStamp := 9
           ctxs := [{ stamp := 3, slot := 0, tenant := .func 65, sqid := 1, cid := 8, opcode := 0, admin := false, nsid := 1, t0 := 0, wait := .dispatch },
             { stamp := 4, slot := 1, tenant := .func 0, sqid := 0, cid := 8, opcode := 9, admin := true, nsid := 0, t0 := 0, wait := .dispatch },
             { stamp := 5, slot := 2, tenant := .assoc 2, sqid := 1, cid := 8, opcode := 0, admin := true, nsid := 0, t0 := 0, wait := .dispatch }] } }
  [(F.CC.EN, 65, 1), (F.CSTS.RDY, 65, 1), (F.CC.IOSQES, 65, 6), (F.CC.IOCQES, 65, 4), (F.HIF_BOOTSTAT.STATE, 0, 6)]

theorem test_end : Tests.host.pow.dumping = false ∧ (tget 1 (Tests.host.func 65).sqs).map (fun q => q.cqid) = some 1 ∧
    (tget 1 (Tests.host.func 65).cqs).map (fun q => (q.full, q.held)) = some (false, []) ∧ Tests.host.Sends ∧ Tests.host.joining = false ∧
    Tests.host.twn.frozen = false ∧ Tests.host.pairedLead = false := by decide +kernel

theorem test_end_full : ({ base0 := 0, base1 := 0, size := 2, vector := 0, ien := false, tail := 1 } : Cq).full = true := by decide +kernel

theorem test_doorbell : Tests.host.Runs ∧ Tests.host.get F.CSTS.RDY 65 = 1 ∧ State.reset.get F.CSTS.RDY 0 = 0 ∧
    (tget 1 (Tests.host.func 65).sqs).map (fun q => decide (3 < q.size ∧ q.size ≤ 4)) = some true ∧ tget 2 (Tests.host.func 65).sqs = none ∧
    (tget 1 (Tests.host.func 65).cqs).map (fun q => decide (3 < q.size ∧ q.held = [])) = some true := by decide +kernel

theorem test_doorbell_open : Tests.host.Open := Tests.open_of (by decide +kernel) (by decide +kernel) (by decide +kernel) (by decide +kernel)

theorem test_doorbell_trail : (Tests.puts Tests.host [(F.TWN_STAT.PAIRED, 0, 1), (F.TWN_STAT.ROLE, 0, 1)]).isTrail = true := by decide +kernel

theorem test_fetch : (tget 1 (Tests.host.func 65).sqs).map (fun q => (q.head, q.tail)) = some (0, 1) ∧ Tests.host.mayFetch 65 1 2 = true ∧
    Tests.host.ctx Tests.host.hif.nextStamp = none ∧ opcodeKnown false 2 = true ∧ opcodeKnown false 0x7F = false ∧ Tests.host.bootState ≠ 7 ∧
    Tests.host.arb.outcast = false ∧ State.reset.mayFetch 0 0 2 = false := by decide +kernel

theorem test_enable : State.reset.funcUp 0 = true ∧ State.reset.get F.CC.EN 0 = 0 ∧ Tests.host.funcUp 65 = true ∧ Tests.host.get F.CC.EN 65 = 1 ∧
    State.reset.funcUp 1 = false ∧ Tests.host.fnPort 65 = 1 ∧ Tests.host.ctx 3 ≠ none ∧ Tests.host.ctx 6 = none ∧
    Tests.host.straps.testEn = false ∧ Tests.host.bootState = 6 := by decide +kernel

theorem test_fetched : ∃ c, Tests.host.Fetched 4 c ∧ c.tenant = .func 0 := ⟨_, ⟨by decide +kernel, rfl, by decide +kernel⟩, by decide +kernel⟩

theorem test_fetched_fabric : ∃ c, Tests.host.Fetched 5 c ∧ c.tenant = .assoc 2 := ⟨_, ⟨by decide +kernel, rfl, by decide +kernel⟩, by decide +kernel⟩

/-- A create command of function 65. -/
theorem test_queues : ∃ c, Tests.host.Fetched 3 c ∧ c.tenant = .func 65 ∧ 1023 ≤ Tests.host.granted c.tenant true ∧
    tget 1023 (Tests.host.func 65).sqs = none ∧ Tests.host.get F.CC.IOSQES 65 = 6 ∧ (tget 1 (Tests.host.func 65).cqs).isSome = true ∧
    1023 ≤ Tests.host.granted c.tenant false ∧ tget 1023 (Tests.host.func 65).cqs = none ∧ Tests.host.get F.CC.IOCQES 65 = 4 ∧
    63 < Tests.host.vectors 65 ∧ (tget 1 (Tests.host.func 65).sqs).isSome = true ∧
    ((Tests.host.func 65).sqs.any fun e => e.2.cqid == 1) = true ∧ ((Tests.host.func 65).sqs.any fun e => e.2.cqid == 2) = false :=
  ⟨_, ⟨by decide +kernel, rfl, by decide +kernel⟩, by decide +kernel⟩

theorem test_events : (Tests.host.hif.ctxs.filter fun x => x.tenant == .func 0 && x.wait == .aer).length < 16 ∧
    (Tests.host.ctl (.func 0)).evHeld = [] := by decide +kernel

/-- Sixteen event requests of function 0 wait, and four of its Aborts, before the command of stamp 20. -/
def Tests.waiting : State := { Tests.host with hif := { Tests.host.hif with ctxs :=
  ((List.range 16).map fun k => { stamp := BitVec.ofNat 64 k, slot := 0, tenant := .func 0, sqid := 0, cid := 0, opcode := if k < 4 then 8 else 12
                                  admin := true, nsid := 0, t0 := 0, wait := .aer }) ++
    [{ stamp := 20, slot := 0, tenant := .func 0, sqid := 0, cid := 0, opcode := 8, admin := true, nsid := 0, t0 := 0, wait := .dispatch }] } }

theorem test_limits : ∃ c, Tests.waiting.Fetched 20 c ∧
    16 ≤ (Tests.waiting.hif.ctxs.filter fun x => x.tenant == c.tenant && x.wait == .aer).length ∧
    4 ≤ (Tests.waiting.hif.ctxs.filter fun x => x.tenant == c.tenant && x.admin && x.opcode == 0x08 &&
      decide (x.stamp.toNat < c.stamp.toNat)).length := ⟨_, ⟨by decide +kernel, rfl, by decide +kernel⟩, by decide +kernel⟩

theorem test_features : ∃ c, Tests.host.Fetched 4 c ∧ c.tenant = .func 0 ∧ (Tests.host.func 0).sqs.length ≤ 1 ∧ (Tests.host.func 0).cqs.length ≤ 1 ∧
    featureKnown 0x11 = false ∧ featureKnown 0x07 = true ∧ Tests.host.miOk c 0xC0 = true ∧ Tests.host.miOk c 0xC1 = false ∧
    Tests.host.get F.MBX_CSR.BUSY 7 = 0 ∧ Tests.host.get F.MBX_CSR.RDY 7 = 0 ∧ (Tests.fresh [(F.MBX_CSR.RDY, 7, 1)]).get F.MBX_CSR.RDY 7 = 1 ∧
    Tests.host.hif.miPending = [] := ⟨_, ⟨by decide +kernel, rfl, by decide +kernel⟩, by decide +kernel⟩

/-- Compression ring 7 is on, and no engine is in service. -/
def Tests.cmpOff : State := Tests.fresh ([(F.CMP_CTL.EN, 0, 1), (F.CMP_RING_CFG.EN, 7, 1)] ++ (List.range 26).map fun k => (F.CMP_ENG_CTL.EN, k, 0))

theorem test_cmp_wait : Tests.cmpOff.Runs ∧ Tests.cmpOff.get F.CMP_CTL.EN = 1 ∧ Tests.cmpOff.get F.CMP_RING_CFG.EN 7 = 1 ∧
    Tests.cmpOff.cmpWait = [] ∧ ∀ k : Fin 26, Tests.cmpOff.get F.CMP_ENG_CTL.EN k = 0 := by decide +kernel

/-- The completion queue of function 65 is full, and holds an entry of its submission queue. -/
def Tests.held : State := Tests.host.setFunc 65 { Tests.host.func 65 with
  cqs := [(1, { base0 := 0, base1 := 0, size := 4, vector := 0, ien := false, tail := 3
                held := [{ sqid := 1, sqhd := 0, cid := 0, dw0 := 0, dw1 := 0, sct := 0, sc := 0 }] })] }

theorem test_delete_waits : (∃ c, Tests.held.Fetched 4 c) ∧ Tests.held.staged = false ∧ (Tests.held.abortQueue 65 1).cqHolds 65 1 = true ∧
    (tget 1 (Tests.held.func 65).cqs).map (fun q => q.full) = some true ∧ (Tests.host.abortQueue 65 1).cqHolds 65 1 = false :=
  ⟨⟨_, by decide +kernel, rfl, by decide +kernel⟩, by decide +kernel⟩

/-! ### Namespaces and I/O (chapters 2, 4, 5, 9) -/

/-- A namespace of one bale of function 0 and host group 0, with its key. -/
def Tests.nsK : Ns := { Tests.ns with keyref := 16, funcs := [0, 66] }

/-- A context of a tenant. -/
def Tests.cx (stamp : BitVec 64) (t : Tenant) (w : Wait) : Ctx :=
  { stamp := stamp, slot := 0, tenant := t, sqid := 1, cid := 8, opcode := 1, admin := false, nsid := 1, t0 := 0, wait := w }

/-- A block of zeros, of which the host sends none. -/
def Tests.block : BlockData := { data := [] }

/-- A fabric write of that block. -/
def Tests.fw : FabWrite := { blocks := [Tests.block], nsid := 1, slba := 15, w := 0, io := {}, len := 4096 }

/-- Namespace 1 is attached to function 0 and to association 2; commands 3 to 5 have been fetched, and 5 waits for its RDMA Reads. -/
def Tests.io : State := Tests.puts { State.reset with
  hif := { ns := [(1, Tests.nsK)], nextStamp := 9
           ctxs := [Tests.cx 3 (.func 0) .dispatch, Tests.cx 4 (.assoc 2) .dispatch, Tests.cx 5 (.assoc 2) (.rdma Tests.fw)] }
  fab := { assocs := [(2, { group := some 0 })], qps := [(1, { port := 0, assoc := 2, qid := 1, rc := { m := 1 }, rt := { m := 1 }, alpha := { m := 1 } })] }
  keys := { slots := [(16, { alg := 1, loaded := true, owner := 1 + 2 ^ 66 })] } } [(F.MAP_CAP_USABLE.U, 0, 1000)]

theorem test_write : Tests.io.nsOf 1 = some Tests.nsK ∧ (∃ c, Tests.io.Fetched 3 c ∧ c.tenant = .func 0 ∧
    (Tests.io.argsCheck c 1 15 {}).or (Tests.io.ioCheck c 1 15 [Tests.block].length mdts) = none) ∧
    (∃ c, Tests.io.Fetched 4 c ∧ c.tenant = .assoc 2 ∧ c.inCap = 0 ∧
      (Tests.io.argsCheck c 1 15 {}).or (Tests.io.ioCheck c 1 15 [Tests.block].length mdts) = none) ∧
    Tests.io.nonceShort Tests.nsK (Tests.io.nonceNeed Tests.nsK 15 1) = false ∧ elsizeOk Tests.nsK 0 = true ∧ Tests.io.roFor 3 = false ∧ Tests.io.mergeLbas Tests.nsK 1 15 1 = [] ∧
    Tests.io.admits (chargeSum (chargesOf Tests.nsK 1 3 15 1)) = true ∧ blocksBad Tests.nsK {} [Tests.block] = none :=
  ⟨by decide +kernel, ⟨_, ⟨by decide +kernel, rfl, by decide +kernel⟩, by decide +kernel⟩,
    ⟨_, ⟨by decide +kernel, rfl, by decide +kernel⟩, by decide +kernel⟩, by decide +kernel⟩

/-- Protected blocks with the reference tag that is expected, and with another. -/
theorem test_write_protected : blocksBad { Tests.nsK with meta64 := true, pi := 1 } { chkRef := true } [Tests.block] = none ∧
    blocksBad { Tests.nsK with meta64 := true, pi := 1 } { chkRef := true } [{ data := [], md := List.replicate 63 0 ++ [1] }] = some (2, 0x84) ∧
    piCheck { Tests.nsK with meta64 := true, pi := 1 } { chkRef := true } 0 { data := [], md := List.replicate 63 0 ++ [1] } = some (2, 0x84) := by
  decide +kernel

theorem test_rdma : (Tests.io.ctx 5).map (fun c => c.wait) = some (.rdma Tests.fw) ∧ Tests.fw.nsid = 1 ∧ Tests.fw.slba = 15 ∧ Tests.io.get F.TWN_STAT.PAIRED = 0 ∧
    Tests.io.pow.dumping = false ∧ Tests.io.ctx 6 = none ∧
    (Tests.puts Tests.io [(F.TWN_STAT.PAIRED, 0, 1)]).get F.TWN_STAT.PAIRED = 1 ∧
    (tget 1 (Tests.puts Tests.io [(F.TWN_STAT.PAIRED, 0, 1)]).fab.qps).map (fun q => q.qid) = some 1 := by decide +kernel

theorem test_rdma_open : (Tests.puts Tests.io [(F.TWN_STAT.PAIRED, 0, 1)]).Open :=
  Tests.open_of (by decide +kernel) (by decide +kernel) (by decide +kernel) (by decide +kernel)

/-- What ends a command at once: 17 blocks, NSID 2, a Sanitize in progress, a page without an identifier and an offset beyond a page. -/
theorem test_checks : (∃ c, Tests.io.Fetched 3 c ∧ Tests.io.ioCheck c 1 0 17 mdts = some (0, 0x80) ∧ Tests.io.ioCheck c 2 0 1 noLimit = some (0, 0x0B) ∧
      Tests.io.argsCheck c 1 0 { sgl := [4] } = some (0, 0x11) ∧ Tests.io.logBytes c.tenant 0x7F = none ∧
      (Tests.io.logBytes c.tenant 0x02).map (fun b => decide (b.length < 513)) = some true ∧ Tests.io.identBytes c 0x20 1 = none) ∧
    Tests.io.nsOf 2 = none ∧ (Tests.io.progressPut 1 0 0xFFFFFFFF 1 0 9).inProgress = true :=
  ⟨⟨_, ⟨by decide +kernel, rfl, by decide +kernel⟩, by decide +kernel⟩, by decide +kernel⟩

/-- Namespace 1 with block 0 staged and bale 0 never written, and the same namespace with its bale poisoned. -/
def Tests.stagedIo : State := { Tests.io with map := { Tests.io.map with
  overlay := [{ nsid := 1, bale := 0, blk := 0, stamp := 2, data := Tests.block }] } }
def Tests.poisonIo : State := { Tests.io with map := { Tests.io.map with entries := [(0, mkEntry 1 0 0 1 1 0 65 0)] } }

theorem test_read : (∃ c, Tests.stagedIo.Fetched 3 c ∧ Tests.stagedIo.ioCheck c 1 0 1 mdts = none ∧ Tests.stagedIo.ioCheck c 1 0 1 noLimit = none ∧
      Tests.stagedIo.argsCheck c 1 0 {} = none) ∧
    (match Tests.stagedIo.resolve 1 0 0 with | .overlay x => x.data == Tests.block | _ => false) = true ∧
    piCheck Tests.nsK {} 0 Tests.block = none ∧ Tests.stagedIo.resolve 1 0 1 = .entry 0 ∧ entryOk false 0 = true ∧ ent 51 51 0 = 0 ∧ ent 48 42 0 = 0 ∧
    Tests.stagedIo.Sends ∧ Tests.stagedIo.joining = false ∧ Tests.stagedIo.twn.frozen = false ∧ Tests.stagedIo.pairedLead = false :=
  ⟨⟨_, ⟨by decide +kernel, rfl, by decide +kernel⟩, by decide +kernel⟩, by decide +kernel⟩

theorem test_read_poisoned : Tests.poisonIo.resolve 1 0 5 = .entry (mkEntry 1 0 0 1 1 0 65 0) ∧ entryOk false (mkEntry 1 0 0 1 1 0 65 0) = true ∧
    ent 51 51 (mkEntry 1 0 0 1 1 0 65 0) = 1 := by decide +kernel

theorem test_zeroes : (∃ c, Tests.io.Fetched 3 c ∧ Tests.io.ioCheck c 1 0 16 noLimit = none ∧ Tests.io.ioCheck c 1 0 1 noLimit = none ∧
      Tests.io.dsmCheck c 1 [(0, 16)] = none ∧ Tests.io.nsRefused c 1 = false ∧ Tests.io.zeroCheck c = none ∧ Tests.io.argsCheck c 1 0 {} = none) ∧
    Tests.io.nonceShort Tests.nsK (Tests.io.nonceNeed Tests.nsK 0 16) = false ∧
    (∃ b ∈ Tests.io.baleBlocks 1, Tests.io.outdated 1 0 b 3 = false) ∧ (∀ b ∈ Tests.io.baleBlocks 1, Tests.io.outdated 1 0 b 3 = false) ∧
    entryOk Tests.nsK.sealed (Tests.io.entry 1 0) = true ∧ ent 51 51 (Tests.io.entry 1 0) = 0 ∧ ent 48 42 (Tests.io.entry 1 0) = 0 :=
  ⟨⟨_, ⟨by decide +kernel, rfl, by decide +kernel⟩, by decide +kernel⟩, by decide +kernel⟩

theorem test_create : createCheck { Tests.nc with keyref := 16 } = none ∧
    Tests.io.logProv + 16 * blockBytes 0 ≤ 2 * Tests.io.capU * 1024 ∧ Tests.io.freeNsid = some 2 ∧ Tests.io.slotOf 16 = some 16 ∧
    (Tests.io.kslot 16).alg = 1 ∧ createCheck { Tests.nc with nsze := 0 } = some (0, 0x02) ∧
    2 * Tests.io.capU * 1024 < Tests.io.logProv + 2 ^ 40 * blockBytes 0 ∧ Tests.io.inProgress = false ∧ piOk 3 true = true := by decide +kernel

theorem test_pages : (∃ c, Tests.io.Fetched 3 c ∧ (Tests.io.logBytes c.tenant 0x02).map (fun b => b.length) = some 512 ∧
      (Tests.io.identBytes c 0x01 0).isSome = true ∧ (Tests.io.identBytes c 0x11 1).isSome = true) ∧ (512 : Nat) ≤ mdts :=
  ⟨⟨_, ⟨by decide +kernel, rfl, by decide +kernel⟩, by decide +kernel⟩, by decide +kernel⟩

/-- The check value of the guard's polynomial in the catalogue of CRCs (CRC-16/T10-DIF), over the digits 1 to 9. -/
theorem test_crc16 : crc16 [0x31, 0x32, 0x33, 0x34, 0x35, 0x36, 0x37, 0x38, 0x39] = 0xD0DB := by decide +kernel

/-- What a capsule's SGL descriptor decides: data in the capsule at an offset; a keyed block; a transport descriptor that is not supported. -/
theorem test_capsule_sgl : (Capsule.refusal { qpn := 0, rseq := 0, bytes := [1, 0x40] ++ List.replicate 37 0 ++ [0x40] ++ List.replicate 24 0 }) = none ∧
    (Capsule.refusal { qpn := 0, rseq := 0, bytes := [1, 0x40] ++ List.replicate 22 0 ++ [1] ++ List.replicate 14 0 ++ [0x01] ++ List.replicate 24 0 }) = some 0x16 ∧
    (Capsule.refusal { qpn := 0, rseq := 0, bytes := [1, 0x40] ++ List.replicate 37 0 ++ [0x50] ++ List.replicate 24 0 }) = some 0x11 := by decide +kernel

/-! ### Fabric, clocks, power, debug and mailbox (chapters 3, 6, 13, 14, 19, 20) -/

/-- An association with an admin queue pair 1 and an I/O queue pair 2 whose receive buffers hold a capsule; a discovery association with
queue pair 3; both links are up. -/
def Tests.qp (a q : Nat) : Qp := { port := 1, assoc := a, qid := q, size := 32, rc := lineRate, rt := lineRate, alpha := { m := 1 } }
def Tests.capsule : Capsule := { qpn := 2, rseq := 0, bytes := (0 : Byte) :: List.replicate 63 0 }
def Tests.fab : State := Tests.puts { State.reset with
  fab := { assocs := [(8191, { port := 1, group := some 61 }), (5, { port := 1, discovery := true })]
           qps := [(1, Tests.qp 8191 0), (2, { Tests.qp 8191 128 with buf := [Tests.capsule] }), (3, Tests.qp 5 0)] } }
  [(F.FAB_PSTAT.LINK_UP, 0, 1), (F.FAB_PSTAT.LINK_UP, 1, 1)]

theorem test_connect : Tests.fab.connectOk 0xFFFFFF { Tests.cr with port := 1, assoc := 7 } = true ∧ Tests.fab.Sends ∧
    Tests.fab.connectOk 1 { Tests.cr with port := 1, assoc := 7 } = false ∧
    Tests.fab.connectOk 0xFFFFFF { Tests.cr with assoc := 8191, qid := 1 } = true ∧ tget 6 Tests.fab.fab.assocs = none ∧
    (tget 5 Tests.fab.fab.assocs).map (fun x => x.discovery) = some true ∧ (tget 8191 Tests.fab.fab.assocs).map (fun x => x.discovery) = some false ∧
    Tests.fab.hif.activating = none ∧ Tests.fab.isTrail = false ∧
    (Tests.puts Tests.fab [(F.TWN_STAT.PAIRED, 0, 1), (F.TWN_STAT.ROLE, 0, 1)]).isTrail = true := by decide +kernel

theorem test_fab_open : Tests.fab.Open := Tests.open_of (by decide +kernel) (by decide +kernel) (by decide +kernel) (by decide +kernel)

theorem test_fab_errors : (tget 2 Tests.fab.fab.qps).map (fun q => (q.err, q.qid)) = some (false, 128) ∧
    (tget 1 Tests.fab.fab.qps).map (fun q => (q.err, q.qid)) = some (false, 0) ∧ (Tests.fab.assoc 5).discovery = true ∧
    (Tests.fab.assoc 8191).discovery = false ∧ Tests.fab.get F.TWN_STAT.PAIRED = 0 ∧ tget 4 Tests.fab.fab.qps = none := by decide +kernel

theorem test_congestion : tget 2 Tests.fab.fab.lastCnp = none ∧ (tget 2 Tests.fab.fab.qps).map (fun q => decide (q.recov < 5)) = some true ∧
    (0 : BitVec 64).toNat < 0 + Tests.fab.setting 0x25 1 := by decide +kernel

theorem test_capsule : (tget 1 Tests.fab.fab.qps).map (fun q => decide (q.err = false ∧ q.buf.length < q.size)) = some true ∧
    Tests.fab.get F.FAB_PSTAT.LINK_UP 1 ≠ 0 ∧ Tests.fab.nextTurn = some (66 + 8191) ∧
    (Tests.fab.nextCapsule 8191).map (fun x => (x.1, x.2.2)) = some (2, Tests.capsule) ∧ Tests.capsule.refusal = none ∧
    opcodeKnown false Tests.capsule.opcode = true ∧ Tests.fab.ctx Tests.fab.hif.nextStamp = none ∧ Tests.fab.bootState ≠ 7 ∧
    Tests.fab.arb.outcast = false ∧ ({ Tests.capsule with bytes := List.replicate 16449 0 } : Capsule).refusal = some 0x0F := by decide +kernel

/-! ### Clocks and power (chapters 9, 19, 21) -/

/-- A solo controller in drowse with drowse, dormancy and deep sleep allowed; and one that rests. -/
def Tests.drowse (st : Nat) : State := Tests.puts { State.reset with setv := { val := [] } } [(F.CPM_PSTATE.STATE, 0, st), (F.CPM_WAKE.EN, 0, 128)]

/-- A solo controller whose settings allow what is named. -/
def Tests.set (l : List (Nat × Nat × Nat)) (s : State) : State :=
  { s with setv := { s.setv with val := l.foldl (fun t e => tset (settingDefault e.1 e.2.1) (settingKey e.1 e.2.1) e.2.2 t) s.setv.val } }

theorem test_round : State.reset.get F.CPM_PSTATE.STATE = 0 ∧ (Tests.drowse 1).get F.CPM_PSTATE.STATE ≠ 0 ∧ (1 : BitVec 2).getLsbD 0 = true ∧
    State.reset.get F.CIC_SRC_CFG.MODE 229 = 0 ∧ State.reset.get F.CIC_SRC_STAT.COUNT 229 < 255 := by decide +kernel

/-- The packs of group 0 are in service and asleep in the light level. -/
def Tests.group : State := Tests.set [(0x46, 0, 1)] (Tests.puts { State.reset with packs := [(9, { svc := true, phase := 7 })] }
  ([(F.PKP_STAT.STATE, 9, 7)] ++ (List.range 32).map fun n => (F.PKP_CTL.SGRP, n, if n = 9 then 0 else 1)))

theorem test_sleep : (Tests.group.groupPacks 0).filter (fun n => (Tests.group.pk n).svc && Tests.group.pkState n == 7) = [9] ∧
    Tests.group.groupWork 0 = false ∧ Tests.group.groupIdle 0 = true ∧ Tests.group.setting 0x46 0 = 1 ∧
    (Tests.set [(0x46, 0, 0)] .reset).setting 0x46 0 ≠ 1 := by decide +kernel

/-- Drowse and dormancy are allowed, and the state is settled for them. -/
def Tests.rest (st : Nat) : State := Tests.set [(0x40, 0, 1), (0x42, 0, 1)] (Tests.drowse st)

theorem test_rest : (Tests.rest 0).twState = 0 ∧ (Tests.rest 0).setting 0x40 = 1 ∧ (Tests.rest 0).get F.CPM_PSTATE.STATE = 0 ∧
    (Tests.rest 0).restful = true ∧ (Tests.rest 1).setting 0x42 = 1 ∧ (Tests.rest 1).get F.CPM_PSTATE.STATE = 1 ∧
    (Tests.rest 1).fab.assocs = [] ∧ ((Tests.rest 1).get F.CPM_WAKE.EN).testBit 7 = true ∧ (Tests.set [(0x40, 0, 0)] .reset).setting 0x40 ≠ 1 := by decide +kernel

/-- A running dump; a trip. -/
def Tests.dump : State := Tests.puts { State.reset with pow := { dumping := true }, health := { ready := true } } [(F.HKP_TRIP.TRIPPED, 0, 1)]

theorem test_dump : Tests.dump.Runs ∧ Tests.dump.pow.dumping = true ∧ Tests.dump.get F.HKP_TRIP.TRIPPED = 1 ∧ Tests.dump.inReset = false ∧
    State.reset.pairedLead = false ∧ State.reset.pow.dumping = false ∧ State.reset.get F.HKP_TRIP.TRIPPED = 0 ∧
    ({ State.reset with inReset := true } : State).inReset = true := by decide +kernel

/-- A dump with nothing staged is being written, and an older one has no end record. -/
def Tests.writing : State := { Tests.dump with pow := { dumping := true, writing := true, dump := some (State.reset.dumpOf 1 0) } }

theorem test_dump_cut : Tests.writing.inReset = false ∧ Tests.writing.pow.writing = true ∧ Tests.dump.pow.writing = false ∧
    (Tests.writing.pow.dump.map fun x => x.ended) = some false := by decide +kernel

theorem test_power_fail : ({ State.reset with health := { ready := true } } : State).Runs ∧ State.reset.get F.CPM_PSTATE.STATE ≠ 2 := by decide +kernel

/-! ### The debug port and register writes (chapters 0, 20) -/

/-- Debug is unlocked and frozen, and the port stands at an address that no block decodes. -/
def Tests.dbgS : State := Tests.puts { State.reset with tly := { memAddr := 0x9000000000, token := some { headerOk := false, serial := 0, challenge := 0, keyid := 0, sig := 0 } } }
  [(F.PMC_DBG_STAT.FAILS, 0, 5)]

theorem test_debug : Tests.dbgS.get F.PMC_DBG_STAT.FAILS = 5 ∧ State.reset.get F.PMC_DBG_STAT.FAILS ≠ 5 ∧ Tests.dbgS.Runs ∧
    Tests.dbgS.tly.token.isSome = true ∧ State.reset.tly.token = none ∧ State.reset.tly.unlocking = false ∧
    Tests.dbgS.decoded .debug 0x9000000000 = false := by decide +kernel

theorem test_register_write : State.reset.decoded (.core 0) 0x12C00000 = false ∧ State.reset.decoded (.core 22) 0x12C00000 = true ∧
    inRegBlock 0x12C00000 = false ∧ State.reset.funcUp 0 = true ∧ State.reset.funcUp 1 = false ∧ State.reset.isPf 65 = false ∧
    State.reset.decoded (.user 3) 0x100C00000 = true ∧ (bar0Space 0 true).holds 0x16 2 = true ∧ (bar0Space 0 true).holds 0x3F00 3 = false := by
  decide +kernel

/-! ### Mailbox services, firmware (chapters 13, 14) -/

theorem test_admits_services : ∀ e ∈ [(0x0101, 20), (0x0102, 32), (0x0103, 20), (0x0104, 20), (0x0201, 20), (0x0202, 36), (0x0203, 16), (0x0210, 16),
    (0x0280, 48), (0x0281, 20), (0x0301, 20), (0x0302, 16), (0x0303, 16), (0x0304, 20), (0x0305, 20), (0x0501, 24), (0x0501, 8216), (0x0502, 16),
    (0x0503, 20), (0x0504, 16), (0x0505, 16), (0x0506, 20), (0x0507, 20), (0x0507, 68), (0x0507, 116), (0x0508, 16), (0x0509, 16), (0x050A, 16),
    (0x0801, 20), (0x0802, 20), (0x0803, 24), (0x0804, 4116), (0x0805, 16), (0x0806, 20), (0x0807, 20)],
    Tests.session.Admits e.1 e.2 (Tests.req e.2) := by decide +kernel

theorem test_settings : (settingInfo 0x11).map (fun x => decide (0 ∈ x.indices)) = some true ∧ nqnOk (List.replicate 223 0x61) = false ∧
    (settingInfo 0x40).map (fun x => (x.id, x.vlen, x.atReset, decide (0 ∈ x.indices), State.reset.settingOk x 0 1, State.reset.settingOk x 0 2)) =
      some (0x40, 4, false, true, true, false) ∧ (settingInfo 0x04).map (fun x => x.atReset) = some true ∧ settingInfo 0x7F = none ∧
    (0x40 : Nat) ∉ [0x01, 0x02, 0x09, 0x0A, 0x11, 0x44, 0x45] ∧ (regOfId (regId .CAP)).isSome = true := by decide +kernel

/-- Packs 0 to 2: ready, in service, and being removed. -/
def Tests.ports : State := Tests.puts { Tests.session with packs := [(0, { phase := 5 }), (1, { svc := true, phase := 7 }), (2, { svc := true, removing := true, phase := 7 })] }
  [(F.PKP_STAT.STATE, 0, 5), (F.PKP_STAT.STATE, 1, 7), (F.PKP_STAT.STATE, 2, 7), (F.PKP_CTL.EN, 1, 1)]

theorem test_ports : Tests.ports.pkState 0 = 5 ∧ Tests.ports.isReserve 0 = false ∧ (Tests.ports.pk 1).svc = true ∧ (Tests.ports.pk 1).removing = false ∧
    Tests.ports.reachable 1 = true ∧ (Tests.ports.pk 1).svc = true ∧ (Tests.ports.pk 1).outst = [] ∧ Tests.ports.get F.PKP_CTL.EN 1 = 1 ∧
    (Tests.ports.pk 2).removing = true := by decide +kernel

/-- Two releases of one security core, in the running slot 0 and in slot 1. -/
def Tests.man : Manifest := { parts := [{ typ := 3, nblk := 0, btype := 0, pver := 0, off := 0, len := 0, crcIdx := 0, digest := [1], fromMin := 0 }] }
def Tests.slots : State := { Tests.session with fw := { Tests.session.fw with slots := [(0, { man := Tests.man }), (1, { man := Tests.man })] } }

/-- The admin command of stamp 7 of physical function 0. -/
def Tests.firm : State := { Tests.slots with hif := { Tests.slots.hif with ctxs := [{ Tests.cx 7 (.func 0) .dispatch with admin := true }] } }

theorem test_firmware : (∃ c, Tests.firm.Fetched 7 c ∧ c.tenant = .func 0) ∧ Tests.firm.isPf 0 = true ∧ Tests.firm.stageTaken 0 = false ∧
    Tests.firm.stageTaken 1 = false ∧ Tests.firm.overlapsStage 0 4096 = false ∧ Tests.firm.commitSlot 7 = none ∧ Tests.firm.commitSlot 2 = some 1 ∧
    (tget 1 Tests.firm.fw.slots).isSome = true ∧ Tests.firm.activateProhibited = false ∧ Tests.firm.needsReset Tests.firm.man = false ∧
    Tests.firm.hif.activating = none ∧ Tests.firm.checkPackage Tests.firm.staged_ ≠ 0 ∧ Tests.firm.idleSlot = 1 ∧
    Tests.firm.twState = 0 ∧ Tests.firm.fw.upd = none ∧ Tests.firm.sameFirmware = true ∧ Tests.firm.fw.cosign = [] :=
  ⟨⟨_, ⟨by decide +kernel, rfl, by decide +kernel⟩, by decide +kernel⟩, by decide +kernel⟩

theorem test_activation : ({ Tests.slots with hif := { Tests.slots.hif with activating := some none } } : State).drained = true ∧
    Tests.firm.drained = false ∨ Tests.firm.hif.activating = none := by decide +kernel

/-! ### The twin link, stages and the arbiter (chapters 10, 11) -/

/-- The lead of a pair with the link up; its trail is `Tests.trail`. -/
def Tests.lead : State := Tests.fresh [(F.TWN_STAT.LINK_UP, 0, 1), (F.TWN_STAT.PAIRED, 0, 1), (F.HIF_TWNSTAT.STATE, 0, 2), (F.TWN_CTL.EN, 0, 1),
  (F.TWN_CTL.MODE, 0, 1)]

/-- A record header. -/
def Tests.rh : RecHdr := { stage := 0, dtime := 0, epoch := 0, stageUs := 16, held := false, nent := 1, rlen := recLen [Tests.le], dstage := 0, digest := 0 }

/-- Records, reports and fetches of a link that is up. -/
theorem test_ledger : Tests.lead.Runs ∧ Tests.trail.Runs ∧ Tests.lead.get F.TWN_STAT.LINK_UP = 1 ∧ Tests.lead.isTrail = false ∧
    Tests.trail.isTrail = true ∧ Tests.lead.pairedLead = true ∧ Tests.trail.pairedLead = false ∧ Tests.lead.staged = true ∧
    Tests.rh.nent = (Tests.trail.twn.rxEnts ++ [Tests.le]).length ∧ Tests.rh.rlen = recLen (Tests.trail.twn.rxEnts ++ [Tests.le]) ∧ Tests.lead.copyOf Tests.le = none ∧
    State.reset.get F.TWN_STAT.LINK_UP = 0 ∧ Tests.lead.twn.fetches.contains Tests.le = false ∧ State.reset.staged = false := by decide +kernel

theorem test_lead_open : Tests.lead.Open := Tests.open_of (by decide +kernel) (by decide +kernel) (by decide +kernel) (by decide +kernel)

/-- The trail has a record to apply; an entry whose capsule has not come waits; its write's data is asked for. -/
def Tests.applying : State :=
  let e : LEntry := { cls := 2, origin := false, toff := 0, payload := [1, 0, 64, 0, 0, 0] }
  { Tests.trail with
    twn := { Tests.trail.twn with rxRecs := [(0, Tests.rh, [Tests.le])], applying := [e], fetches := [e] }
    fab := Tests.io.fab, hif := Tests.io.hif }

theorem test_record_apply : Tests.applying.Runs ∧ Tests.applying.twn.delivering = none ∧ Tests.applying.twn.rxRecs ≠ [] ∧
    (Tests.applying.twn.applying.head?).map (fun e => (e.cls, namesBytes e)) = some (2, true) ∧ Tests.applying.arb.promote = none ∧
    (tget 1 Tests.applying.fab.qps).isSome = true ∧ ({ Tests.applying with arb := { promote := some 1 } } : State).arb.promote ≠ none ∧
    Tests.applying.twn.fetches.contains { cls := 2, origin := false, toff := 0, payload := [1, 0, 64, 0, 0, 0] } = true ∧
    ((Tests.applying.dataWaits 1 0).map fun c => c.wait) = some (.rdma Tests.fw) ∧ blocksBad Tests.nsK {} Tests.fw.blocks = none ∧ Tests.applying.mergeLbas Tests.nsK 1 15 1 = [] ∧
    Tests.applying.nsOf 1 = some Tests.nsK ∧ (Tests.applying.nsOf 1).isSome = true := by
  decide +kernel

theorem test_claims : ringNamed 0x4C = false ∧ ringNamed 511 = true ∧ State.reset.isTrail = false := by decide +kernel

/-- A trail that answers a claim of core 22, and one whose next claim names another source. -/
def Tests.claims (ring polls : Nat) : State := { Tests.trail with twn := { claimQ := [{ core := 22, ring := ring, polls := polls, value := 0 }] } }

theorem test_claims_trail : (Tests.claims 511 1).claimTry 22 511 = .give 0 true ∧ (Tests.claims 510 1).claimTry 22 511 = .wrong ∧
    Tests.trail.claimTry 22 511 = .stall ∧ (Tests.claims 511 2).claimTry 22 511 = .give 0 false ∧
    Tests.lead.claimLive 511 = Tests.lead.claimLast 22 511 ∧
    (Tests.puts Tests.lead [(F.TWN_SPROD.PROD, 255, 1)]).claimLive 511 ≠ (Tests.puts Tests.lead [(F.TWN_SPROD.PROD, 255, 1)]).claimLast 22 511 := by
  decide +kernel

theorem test_claims_promoted : ({ Tests.trail with arb := { promote := some 1 } } : State).isTrail = true ∧ ringNamed 511 = true ∧
    ({ Tests.trail with arb := { promote := some 1 } } : State).claimNext 22 = none := by decide +kernel

theorem test_digests : (Tests.puts Tests.lead ((List.range 23).map fun i => (F.TWN_CSTAGE.STAGE, i, 9))).passed 0 = true ∧
    Tests.lead.twn.recent = [] ∧ Tests.trail.lagLimit < 65 ∧
    Tests.applying.twn.rxRecs ≠ [] ∧ ({ Tests.trail with twn := { ringDoorbells := [(65, 1, 3)] } } : State).twn.ringDoorbells.contains (65, 1, 3) = true ∧
    laneCount 1 < 2 := by decide +kernel

/-- A lead that has lost the arbiter and its link; a survivor; a controller that waits for its peer. -/
def Tests.cutOff : State := Tests.puts { Tests.lead with arb := { linkDownAt := some 0 }, elapsed := 1000 } [(F.HIF_TWNSTAT.ARB_LOST, 0, 1)]
def Tests.survivor : State := Tests.puts { Tests.session with arb := { peer := 1 } } [(F.HIF_TWNSTAT.STATE, 0, 3), (F.TWN_CTL.MODE, 0, 3),
  (F.TWN_CTL.EN, 0, 1), (F.TWN_STAT.LINK_UP, 0, 1)]
def Tests.awaits : State := Tests.puts { State.reset with straps := Tests.host.straps } [(F.HIF_TWNSTAT.STATE, 0, 1), (F.HIF_BOOTSTAT.STATE, 0, 3)]

theorem test_survive : Tests.cutOff.pairedLead = true ∧ Tests.cutOff.get F.HIF_TWNSTAT.ARB_LOST = 1 ∧ Tests.cutOff.staged = true ∧
    0 + 4 * Tests.cutOff.twn.openUs ≤ Tests.cutOff.elapsed ∧ Tests.cutOff.arb.promote = none ∧ Tests.cutOff.isTrail = false ∧
    Tests.lead.peerId ≤ 1 ∧ Tests.lead.arb.promote = none := by decide +kernel

theorem test_fence : ({ State.reset with arb := { fenceLow := true } } : State).arb.fenceLow = true ∧ State.reset.arb.fenceLow = false := by
  decide +kernel

theorem test_pairing : Tests.survivor.twState = 3 ∧ Tests.survivor.arb.rj.active = false ∧ Tests.survivor.get F.TWN_STAT.LINK_UP = 1 ∧
    Tests.survivor.get F.HIF_TWNSTAT.ARB_LOST = 0 ∧ Tests.survivor.arb.peer = 1 ∧ Tests.awaits.twState = 1 ∧ Tests.awaits.bootState = 3 ∧
    Tests.awaits.straps.twinId = false ∧ Tests.awaits.arb.hello = none ∧ Tests.joiner.arb.rj.cut = none := by decide +kernel

/-- The survivor of a rejoin in its second pass, and after the cut. -/
def Tests.passing : State := { Tests.survivor with arb := { rj := { active := true, pass := 2 } } }
def Tests.cut : State := { Tests.survivor with arb := { rj := { active := true, pass := 2, cut := some 9 } } }

theorem test_rejoin : Tests.passing.arb.rj.active = true ∧ Tests.passing.arb.rj.joiner = false ∧ Tests.passing.arb.rj.pass ≠ 0 ∧
    Tests.passing.arb.rj.pass < 64 ∧ Tests.passing.arb.rj.cut = none ∧ Tests.passing.arb.rj.cutNext = false ∧
    4096 * 0 ≤ Tests.passing.setting 0x10 * 2 ^ 20 ∧ Tests.passing.setting 0x10 * 2 ^ 20 < 4096 * 2 ^ 40 ∧
    Tests.cut.arb.rj.cut ≠ none ∧ Tests.cut.arb.rj.live = none ∧ Tests.cut.arb.rj.joiner = false := by decide +kernel

/-! ### States of the remaining clauses -/

/-- Every partial write is merged, and bale 0 of namespace 1 is poisoned: a merge of a write of block 0 meets block 1. -/
def Tests.merges : State := Tests.puts Tests.poisonIo [(F.MAP_CTL.MERGE_ALL, 0, 1)]

theorem test_write_merge : Tests.merges.mergeLbas Tests.nsK 1 0 1 = (List.range 15).map (· + 1) ∧
    (let u := (Tests.merges.charged Tests.nsK 1 3 0 1).fetchBlocks 0 Tests.nsK 1
     let v := u.readPacks Tests.nsK 1 (u.mergeLbas Tests.nsK 1 0 1)
     (State.readSpan v Tests.nsK 1 0 {} (faultAt []) v (u.mergeLbas Tests.nsK 1 0 1)).2.2) = some (7, 0xC5, 0) := by decide +kernel

/-- The map page of namespace 1 is in packs and not in the cache. -/
def Tests.pageOut : State := { Tests.stagedIo with map := { Tests.stagedIo.map with ckpt := [(0, { inst := 0, jseq := 1, loc := 0, crc := 0 })] } }

theorem test_read_page : Tests.pageOut.instOf 1 = 0 ∧ Tests.pageOut.pageReady (mapPageOf Tests.nsK 1 0) = false ∧
    Tests.stagedIo.pageReady (mapPageOf Tests.nsK 1 0) = true ∧ Tests.stagedIo.pageReady (mpnOf 1 0) = true := by decide +kernel

theorem test_read_only : ({ Tests.io with health := { readOnly := true, roFrom := 4 } } : State).roFor 3 = false ∧
    ({ Tests.io with health := { readOnly := true, roFrom := 4 } } : State).roFor 4 = true := by decide +kernel

theorem test_keyref : Tests.io.keyrefCheck { Tests.nc with keyref := 16 } = none ∧ Tests.io.keyrefCheck { Tests.nc with keyref := 17 } ≠ none := by
  decide +kernel

theorem test_actions : actionOk 0x84 2 = true ∧ actionOk 0x84 4 = true ∧ actionOk 0x84 3 = false ∧ opcodeKnown true 0x84 = true := by decide +kernel

theorem test_identify_all : ∃ c, Tests.io.Fetched 3 c ∧ (Tests.io.identBytes c 0x00 0xFFFFFFFF).isSome = true :=
  ⟨_, ⟨by decide +kernel, rfl, by decide +kernel⟩, by decide +kernel⟩

/-- A discovery queue pair, a pair in the error state, and a trail. -/
theorem test_pair_errors : (tget 3 Tests.fab.fab.qps).map (fun q => (q.err, (Tests.fab.assoc q.assoc).discovery)) = some (false, true) ∧
    ((tget 1 [(1, { Tests.qp 8191 0 with err := true })]).map fun q => q.err) = some true ∧
    (Tests.puts Tests.fab [(F.TWN_STAT.PAIRED, 0, 1), (F.TWN_STAT.ROLE, 0, 1)]).isTrail = true ∧
    (Tests.puts Tests.fab [(F.TWN_STAT.PAIRED, 0, 1), (F.TWN_STAT.ROLE, 0, 1)]).hif.activating = none := by decide +kernel

/-- A trail keeps its copy of a capsule. -/
theorem test_capsule_kept : (Tests.puts Tests.fab [(F.TWN_STAT.PAIRED, 0, 1), (F.TWN_STAT.ROLE, 0, 1), (F.TWN_CTL.MODE, 0, 1),
    (F.TWN_CTL.EN, 0, 1)]).keeps (capsuleEntry Tests.capsule 1) = true := by decide +kernel

/-- The round of an entry into dormancy is in packs. -/
def Tests.entering : State := { Tests.rest 0 with pow := { entering := true } }

theorem test_entering : Tests.entering.pow.entering = true ∧ Tests.entering.map.ckptOpen = none ∧ (Tests.rest 1).pow.entering = false ∧
    (Tests.rest 1).map.ckptOpen = none := by decide +kernel

/-- A capsule that a lead in the error state has not had, one that it has, and one that a peer asks for. -/
def Tests.report (rseq : Nat) : LEntry := { cls := 2, origin := false, toff := 0, payload := [2, rseq, 64, 0, 0, 0] }
def Tests.erred : State := { Tests.lead with fab := { qps := [(2, { Tests.qp 8191 128 with err := true, rseq := 1 })] } }

theorem test_reports : Tests.erred.pairedLead = true ∧ Tests.erred.lacksCapsule (Tests.report 1) = true ∧
    Tests.erred.lacksCapsule (Tests.report 0) = false ∧ Tests.erred.serveFetch (Tests.report 0) = none ∧
    Tests.erred.serveFetch { cls := 3, origin := false, toff := 0, payload := [2] } = some (Tests.erred.connBytes 2) ∧
    ({ Tests.erred with twn := { Tests.erred.twn with fetches := [Tests.report 1] } } : State).twn.fetches.contains (Tests.report 1) = true := by
  decide +kernel

theorem test_report_twice : Tests.erred.twn.fetches.contains (Tests.report 1) = false ∧ Tests.lead.staged = true ∧
    Tests.le.cls ∉ [2, 3, 4, 6] := by decide +kernel

theorem test_link_refused : ({ h := 0, hvalid := true, refused := true, bridgeType := 0, credits := 0 } : Train).refused = true ∧
    Tests.link.get F.PKP_CTL.EN 31 = 1 := by decide +kernel


end
end

section

namespace Sys2Proof.Machine

/-! ### Abort (R53 to R55) -/

/-- R42: the row of a fetched command acts on that command's own context. -/
theorem withCtx_of_fetched {s : State} {t : BitVec 64} {c : Ctx} (f : Ctx → State → State) (h : s.Fetched t c) :
    withCtx t f s = f c s := by
  obtain ⟨-, hctx, hwait⟩ := h
  simp [withCtx, hctx, hwait]

/-- R53, R55: a fetched Abort ends at once, whatever it names; four earlier Aborts of its tenant that are still outstanding decide its
status. -/
theorem exec_abort_of_fetched {s : State} {t : BitVec 64} {c : Ctx} (q : Nat) (i : BitVec 16) (h : s.Fetched t c) :
    exec (.abort t q i) s = .next (if 4 ≤ (s.hif.ctxs.filter fun x => x.tenant == c.tenant && x.admin && x.opcode == 0x08 &&
      decide (x.stamp.toNat < c.stamp.toNat)).length then s.fail c 1 3 else s.succeed c 1) := by
  have hexec : exec (.abort t q i) s = execAbort t q i s := rfl
  rw [hexec, execAbort, State.awake_of_runs _ h.1, withCtx_of_fetched _ h]

/-- Settles O14: with four earlier Aborts outstanding, the fifth takes the refusing branch (`test_limits` shows such a state). -/
theorem fifthAbort : Obligations.FifthAbort := by
  unfold Obligations.FifthAbort
  intro s t c q i hfetched hfour
  rw [exec_abort_of_fetched q i hfetched, if_pos hfour]

end Sys2Proof.Machine
end

section

namespace Sys2Proof.Machine

/-! ### Presentations of the interrupt controller (R500 to R509) -/

/-- A key that the table gives an entry for stands in it. -/
theorem mem_of_tget {β : Type} {k : Nat} {v : β} {t : Tbl β} (h : tget k t = some v) : (k, v) ∈ t := by
  induction t with
  | nil => simp [tget] at h
  | cons e t ih =>
    rw [tget] at h
    split at h
    next hk =>
      obtain rfl := Option.some.inj h
      exact hk ▸ List.mem_cons_self
    next => exact List.mem_cons_of_mem _ (ih h)

/-- The states `s` and `u` differ at most in what is presented where: the stacks are the same, and so is every field but PRES and TGT of
CIC_SRC_STAT, which are those from bit 16 on. -/
structure State.SameDelivery (s u : State) : Prop where
  stk : u.cic.stk = s.cic.stk
  get : ∀ (g : Fld) (j : Nat), g.lo ≤ g.hi → g.reg ≠ .CIC_SRC_STAT ∨ g.hi < 16 → u.get g j = s.get g j

theorem State.SameDelivery.refl (s : State) : s.SameDelivery s := ⟨rfl, fun _ _ _ _ => rfl⟩

theorem State.SameDelivery.trans {s u v : State} (h : s.SameDelivery u) (k : u.SameDelivery v) : s.SameDelivery v :=
  ⟨k.stk.trans h.stk, fun g j hg hd => (k.get g j hg hd).trans (h.get g j hg hd)⟩

theorem State.SameDelivery.runPrio_eq {s u : State} (h : s.SameDelivery u) (t : Nat) : u.runPrio t = s.runPrio t := by
  unfold State.runPrio
  rw [h.stk]

theorem State.SameDelivery.on_eq {s u : State} (h : s.SameDelivery u) (g : Fld) (j : Nat) (hg : g.lo ≤ g.hi)
    (hd : g.reg ≠ .CIC_SRC_STAT ∨ g.hi < 16) : u.on g j = s.on g j := by rw [State.on, State.on, h.get g j hg hd]

theorem State.SameDelivery.deliverable_eq {s u : State} (h : s.SameDelivery u) (n : Nat) : u.deliverable n = s.deliverable n := by
  unfold State.deliverable
  rw [h.on_eq F.CIC_SRC_STAT.PEND n (by decide) (by decide), h.on_eq F.CIC_SRC_CFG.MODE n (by decide) (by decide),
    h.on_eq F.CIC_SRC_STAT.LVL n (by decide) (by decide), h.get F.CIC_SRC_STAT.COUNT n (by decide) (by decide)]

/-- R500: eligibility does not look at what is presented. -/
theorem State.SameDelivery.eligible_eq {s u : State} (h : s.SameDelivery u) (n t : Nat) : u.eligible n t = s.eligible n t := by
  unfold State.eligible
  rw [h.runPrio_eq, h.deliverable_eq, h.get F.CIC_SRC_CFG.PRIO n (by decide) (by decide),
    h.get F.CIC_SRC_CFG.TMASK n (by decide) (by decide), h.on_eq F.CIC_TGT_CTL.EN t (by decide) (by decide),
    h.on_eq F.CIC_CTL.EN 0 (by decide) (by decide)]

theorem State.sameDelivery_put (s : State) {f : Fld} (i x : Nat) (hreg : f.reg = .CIC_SRC_STAT) (hlo : 16 ≤ f.lo) (hf : f.lo ≤ f.hi)
    (hhi : f.hi < 64) : s.SameDelivery (s.put f i x) := by
  refine ⟨rfl, fun g j hg hd => ?_⟩
  by_cases hsame : g.reg = f.reg ∧ j = i
  · obtain ⟨hgf, rfl⟩ := hsame
    have hbelow : g.hi < 16 := hd.resolve_left fun hne => hne (hgf.trans hreg)
    exact s.get_put_field j x hgf hf hhi hg (.inl (by omega))
  · exact s.get_put_other x (by tauto)

/-- Target `t` is noted as the one to which source `n` was last presented (R504). -/
def State.noteLast (s : State) (n t : Nat) : State := { s with cic := { s.cic with last := tput n t s.cic.last } }

theorem State.reg_noteLast (s : State) (n t : Nat) (r : RegName) (i : Nat) : (s.noteLast n t).reg r i = s.reg r i := rfl

theorem State.get_noteLast (s : State) (n t : Nat) (f : Fld) (i : Nat) : (s.noteLast n t).get f i = s.get f i := rfl

theorem State.sameDelivery_noteLast (s : State) (n t : Nat) : s.SameDelivery (s.noteLast n t) := ⟨rfl, fun _ _ _ _ => rfl⟩

/-- Source `n` with a new presentation to target `t` (R504). -/
def State.presentTo (s : State) (n t : Nat) : State :=
  ((s.put F.CIC_SRC_STAT.PRES n 1).put F.CIC_SRC_STAT.TGT n t).noteLast n t

theorem State.sameDelivery_presentTo (s : State) (n t : Nat) : s.SameDelivery (s.presentTo n t) :=
  ((s.sameDelivery_put n 1 rfl (by decide) (by decide) (by decide)).trans
    (State.sameDelivery_put _ n t rfl (by decide) (by decide) (by decide))).trans (State.sameDelivery_noteLast _ n t)

theorem State.get_pres_presentTo (s : State) (n t : Nat) : (s.presentTo n t).get F.CIC_SRC_STAT.PRES n = 1 := by
  rw [State.presentTo, State.get_noteLast, State.get_put_field (f := F.CIC_SRC_STAT.TGT) (g := F.CIC_SRC_STAT.PRES) _ n t rfl (by decide)
    (by decide) (by decide) (by decide)]
  exact s.get_put_self F.CIC_SRC_STAT.PRES n 1 (by decide) (by decide)

theorem State.reg_presentTo_ne (s : State) {n j : Nat} (t : Nat) (r : RegName) (h : j ≠ n) : (s.presentTo n t).reg r j = s.reg r j := by
  rw [State.presentTo, State.reg_noteLast, State.reg_put_other _ t (.inr h), s.reg_put_other 1 (.inr h)]

/-- R504, R507: what presenting a source anew can do: nothing, for a source in service or one whose presentation stands; a new presentation;
or none, where no target is eligible. -/
theorem State.present_cases (s : State) (n : Nat) :
    (s.get F.CIC_SRC_STAT.INSVC n = 1 ∧ s.present n = s) ∨
    (s.get F.CIC_SRC_STAT.PRES n = 1 ∧ s.present n = s) ∨
    (∃ t, s.present n = s.presentTo n t) ∨
    (s.nextTarget n 22 (tgetD n 21 s.cic.last) = none ∧ s.present n = s.put F.CIC_SRC_STAT.PRES n 0) := by
  unfold State.present
  split
  next hsvc => exact .inl ⟨by simpa [State.on] using hsvc, rfl⟩
  split
  next hpres => exact .inr (.inl ⟨by simp_all [State.on], rfl⟩)
  split
  next t _ => exact .inr (.inr (.inl ⟨t, rfl⟩))
  next hnone => exact .inr (.inr (.inr ⟨hnone, rfl⟩))

theorem State.sameDelivery_present (s : State) (n : Nat) : s.SameDelivery (s.present n) := by
  obtain ⟨-, h⟩ | ⟨-, h⟩ | ⟨t, h⟩ | ⟨-, h⟩ := s.present_cases n <;> rw [h]
  · exact .refl s
  · exact .refl s
  · exact s.sameDelivery_presentTo n t
  · exact s.sameDelivery_put n 0 rfl (by decide) (by decide) (by decide)

/-- Presenting one source leaves the registers of every other alone. -/
theorem State.reg_present_ne (s : State) {n j : Nat} (r : RegName) (h : j ≠ n) : (s.present n).reg r j = s.reg r j := by
  obtain ⟨-, hs⟩ | ⟨-, hs⟩ | ⟨t, hs⟩ | ⟨-, hs⟩ := s.present_cases n <;> rw [hs]
  · exact s.reg_presentTo_ne t r h
  · exact s.reg_put_other 0 (.inr h)

/-- R504: the search tries the `k` targets after `last`, with wrap. -/
theorem State.not_eligible_of_nextTarget_none (s : State) (n k last : Nat) (h : s.nextTarget n k last = none) :
    ∀ i < k, s.eligible n ((last + 1 + i) % 22) = false := by
  induction k generalizing last with
  | zero => simp
  | succ k ih =>
    simp only [State.nextTarget] at h
    split at h
    next => simp at h
    next hfirst =>
      intro i hi
      cases i with
      | zero => simpa using hfirst
      | succ i =>
        have htail := ih _ h i (by omega)
        rwa [show ((last + 1) % 22 + 1 + i) % 22 = (last + 1 + (i + 1)) % 22 by omega] at htail

/-- R504: the search over all 22 targets finds one where one is eligible. -/
theorem State.nextTarget_ne_none (s : State) {n t : Nat} (last : Nat) (ht : t < 22) (h : s.eligible n t = true) :
    s.nextTarget n 22 last ≠ none := by
  intro hnone
  have hskip := s.not_eligible_of_nextTarget_none n 22 last hnone ((t + 22 - (last + 1) % 22) % 22) (by omega)
  rw [show (last + 1 + (t + 22 - (last + 1) % 22) % 22) % 22 = t by omega, h] at hskip
  exact absurd hskip (by decide)

/-- R504: a source not in service with an eligible target is presented. -/
theorem State.get_pres_present (s : State) {n t : Nat} (hsvc : s.get F.CIC_SRC_STAT.INSVC n = 0) (ht : t < 22)
    (h : s.eligible n t = true) : (s.present n).get F.CIC_SRC_STAT.PRES n = 1 := by
  obtain ⟨hin, -⟩ | ⟨hpres, hs⟩ | ⟨k, hs⟩ | ⟨hnone, -⟩ := s.present_cases n
  · omega
  · rwa [hs]
  · rw [hs]; exact s.get_pres_presentTo n k
  · exact absurd hnone (s.nextTarget_ne_none _ ht h)

theorem State.sameDelivery_foldl_present (s : State) (l : List Nat) : s.SameDelivery (l.foldl State.present s) := by
  induction l generalizing s with
  | nil => exact .refl s
  | cons m l ih => exact (s.sameDelivery_present m).trans (ih (s.present m))

theorem State.sameDelivery_settle (s : State) : s.SameDelivery s.settle := s.sameDelivery_foldl_present s.cfgSources

theorem State.reg_foldl_present_of_notMem (s : State) {n : Nat} {l : List Nat} (r : RegName) (h : n ∉ l) :
    (l.foldl State.present s).reg r n = s.reg r n := by
  induction l generalizing s with
  | nil => rfl
  | cons m l ih =>
    obtain ⟨hm, hl⟩ := List.ne_and_not_mem_of_not_mem_cons h
    exact (ih (s.present m) hl).trans (s.reg_present_ne r hm)

/-- The last turn of source `n` among the sources presented decides; before it, its eligibility does not change. -/
theorem State.get_pres_foldl_present (s : State) {n t : Nat} {l : List Nat} (hn : n ∈ l) (hsvc : s.get F.CIC_SRC_STAT.INSVC n = 0)
    (ht : t < 22) (h : s.eligible n t = true) : (l.foldl State.present s).get F.CIC_SRC_STAT.PRES n = 1 := by
  induction l generalizing s with
  | nil => simp at hn
  | cons m l ih =>
    rw [List.foldl_cons]
    by_cases hl : n ∈ l
    · have hkeep := s.sameDelivery_present m
      exact ih (s.present m) hl ((hkeep.get _ n (by decide) (by decide)).trans hsvc) ((hkeep.eligible_eq n t).trans h)
    · obtain rfl : n = m := (List.mem_cons.1 hn).resolve_right hl
      rw [State.get, State.reg_foldl_present_of_notMem _ _ hl]
      exact s.get_pres_present hsvc ht h

/-- A source that firmware has not configured has PRIO 0. -/
theorem State.get_prio_of_notMem_cfgSources (s : State) {n : Nat} (h : n ∉ s.cfgSources) : s.get F.CIC_SRC_CFG.PRIO n = 0 := by
  cases hv : tget (regKey .CIC_SRC_CFG n) s.regs with
  | some v =>
    have hkey : keyOf .CIC_SRC_CFG (regKey .CIC_SRC_CFG n) = true := by simp [keyOf, regKey, RegName.ctorIdx_lt]
    exact absurd (List.mem_map.2 ⟨_, List.mem_filter.2 ⟨mem_of_tget hv, hkey⟩, regKey_inst _ n⟩) h
  | none =>
    have hreset : s.reg .CIC_SRC_CFG n = regReset .CIC_SRC_CFG n := by simp [State.reg, tgetD, hv]
    rw [State.get, hreset, regReset]
    split <;> decide

theorem State.mem_cfgSources_of_eligible (s : State) {n t : Nat} (h : s.eligible n t = true) : n ∈ s.cfgSources := by
  by_contra hn
  simp [State.eligible, s.get_prio_of_notMem_cfgSources hn] at h

/-- R504: once every source has been presented anew, one that is not in service and has an eligible target is presented. -/
theorem State.get_pres_settle (s : State) {n t : Nat} (hsvc : s.get F.CIC_SRC_STAT.INSVC n = 0) (ht : t < 22)
    (h : s.eligible n t = true) : s.settle.get F.CIC_SRC_STAT.PRES n = 1 :=
  s.get_pres_foldl_present (s.mem_cfgSources_of_eligible h) hsvc ht h

/-! ### The end of a service (R509) -/

theorem State.runPrio_eq_head? (s : State) (t : Nat) : s.runPrio t = (tgetD t [] s.cic.stk).head?.elim 0 Prod.fst := by
  unfold State.runPrio
  cases tgetD t [] s.cic.stk <;> rfl

/-- R509: of the registers, the end of a service clears INSVC and ACTIVE of its source. -/
theorem State.get_endService (s : State) (t n : Nat) (f : Fld) (i : Nat) :
    (s.endService t n).get f i = ((s.put F.CIC_SRC_STAT.INSVC n 0).put F.CIC_SRC_STAT.ACTIVE n 0).get f i := rfl

theorem State.get_insvc_endService (s : State) (t n : Nat) : (s.endService t n).get F.CIC_SRC_STAT.INSVC n = 0 := by
  rw [State.get_endService, State.get_put_field (f := F.CIC_SRC_STAT.ACTIVE) (g := F.CIC_SRC_STAT.INSVC) _ n 0 rfl (by decide) (by decide)
    (by decide) (by decide)]
  exact s.get_put_self F.CIC_SRC_STAT.INSVC n 0 (by decide) (by decide)

theorem State.stk_endService (s : State) (t n : Nat) :
    tgetD t [] (s.endService t n).cic.stk = (tgetD t [] s.cic.stk).filter fun e => e.2 != n := tgetD_tput_self _ _ _ _

/-- R509: an end of interrupt for a source in service on its target ends the service, and every source is presented anew. -/
theorem exec_cicEoi_of_inService {s : State} {t : Fin 22} {n : Fin 512} (hrun : s.Runs) (h : s.srcInService t n = true) :
    exec (.cicEoi t n) s = .next (s.endService t n).settle := by
  have hexec : exec (.cicEoi t n) s = execCicEoi t n s := rfl
  rw [hexec, execCicEoi, State.awake_of_runs _ hrun, cicEoi, if_pos h]

/-- Settles O11: the end of the service clears INSVC and filters the stack; presenting the sources anew changes neither, nor what is
eligible, and so presents the source where it can be (`test_eoi` shows such a state). -/
theorem endOfService : Obligations.EndOfService := by
  unfold Obligations.EndOfService
  intro s t n hrun hin
  have hkeep := (s.endService t n).sameDelivery_settle
  have hsvc := s.get_insvc_endService t n
  have hstk : tgetD t.val [] (s.endService t n).settle.cic.stk = (tgetD t.val [] s.cic.stk).filter fun e => e.2 != n.val := by
    rw [hkeep.stk, State.stk_endService]
  refine ⟨_, exec_cicEoi_of_inService hrun hin, ?insvc, hstk, ?prio, ?pres⟩
  case insvc => rw [hkeep.get _ _ (by decide) (by decide), hsvc]
  case prio => rw [State.runPrio_eq_head?, hstk]
  case pres =>
    rintro ⟨k, hk, helig⟩
    rw [hkeep.eligible_eq] at helig
    exact State.get_pres_settle _ hsvc hk helig

end Sys2Proof.Machine
end

section

-- One proof at a time: as many threads as there are lemmas here do not fit beside the model.
set_option Elab.async false

namespace Sys2Proof.Machine

/-! ### What every part of a command leaves alone, or only adds to -/

/-- No source is both in service and presented (R507). -/
def State.Exclusive (s : State) : Prop := ∀ n, s.get F.CIC_SRC_STAT.INSVC n = 1 → s.get F.CIC_SRC_STAT.PRES n = 0

/-- What a part of a command that runs may do to the block as a whole, whatever else it does: the queue, the straps and elapsed time stay,
the outputs only grow, the canonical form and R507 are kept, and a freeze lasts. -/
structure Tame (s t : State) : Prop where
  pending : t.pending = s.pending
  straps : t.straps = s.straps
  elapsed : t.elapsed = s.elapsed
  out : s.out <+: t.out
  ok : s.Ok → t.Ok
  exclusive : s.Exclusive → t.Exclusive
  frozen : s.get F.PMC_DBG_STAT.FROZEN = 1 → t.get F.PMC_DBG_STAT.FROZEN = 1

/-- The components of the state that `Tame` speaks of. -/
def State.core (s : State) :=
  (s.regs, s.mem, s.snor, s.straps, s.elapsed, s.out, s.pending)

theorem State.get_of_regs {s t : State} (h : t.regs = s.regs) (f : Fld) (i : Nat) : t.get f i = s.get f i := by
  unfold State.get State.reg
  rw [h]

theorem State.exclusive_of_get {s t : State} (hi : ∀ n, t.get F.CIC_SRC_STAT.INSVC n = s.get F.CIC_SRC_STAT.INSVC n)
    (hp : ∀ n, t.get F.CIC_SRC_STAT.PRES n = s.get F.CIC_SRC_STAT.PRES n) (h : s.Exclusive) : t.Exclusive := by
  intro n
  rw [hi, hp]
  exact h n

theorem Tame.refl (s : State) : Tame s s := ⟨rfl, rfl, rfl, List.prefix_rfl, id, id, id⟩

theorem Tame.trans {s t u : State} (h : Tame s t) (k : Tame t u) : Tame s u :=
  ⟨k.pending.trans h.pending, k.straps.trans h.straps, k.elapsed.trans h.elapsed, h.out.trans k.out, k.ok ∘ h.ok,
    k.exclusive ∘ h.exclusive, k.frozen ∘ h.frozen⟩

/-- A change of memory, secure NOR and outputs that keeps the form of the memories and only adds outputs. -/
theorem Tame.of_memories {s t : State} (hr : t.regs = s.regs) (hm : Memory.wf memDefault s.mem = true → Memory.wf memDefault t.mem = true)
    (hn : Memory.wf norDefault s.snor = true → Memory.wf norDefault t.snor = true) (hs : t.straps = s.straps)
    (he : t.elapsed = s.elapsed) (ho : s.out <+: t.out) (hp : t.pending = s.pending) : Tame s t :=
  ⟨hp, hs, he, ho, fun h => ⟨hm h.1, hn h.2.1, hr ▸ h.2.2⟩,
    State.exclusive_of_get (State.get_of_regs hr _) (State.get_of_regs hr _),
    fun h => (State.get_of_regs hr _ _).trans h⟩

/-- An update of components that `Tame` does not speak of. -/
theorem Tame.edit {s t : State} (h : t.core = s.core) : Tame s t := by
  simp only [State.core, Prod.mk.injEq] at h
  obtain ⟨hr, hm, hn, hs, he, ho, hp⟩ := h
  exact .of_memories hr (hm ▸ id) (hn ▸ id) hs he (ho ▸ List.prefix_rfl) hp

/-- `Tame.trans` from its end. -/
theorem Tame.after {s t u : State} (k : Tame t u) (h : Tame s t) : Tame s u := h.trans k

/-- An update that sends outputs too. -/
theorem Tame.append {s t : State} (o : List Out) (h : t.core = { s with out := s.out ++ o }.core) : Tame s t :=
  Tame.trans (t := { s with out := s.out ++ o }) (.of_memories rfl id id rfl rfl (List.prefix_append _ _) rfl) (.edit h)

section
variable {s t : State} {dtime : BitVec 64} {epoch : BitVec 16} {accErr : Tbl Nat} {debugErrs freeNo : Nat} {inReset : Bool} {evt : Evt}
  {cic : Cic} {hbm : Hbm} {nor : Nor} {hkp : Hkp} {tly : Tly} {packs : Tbl Pack} {hif : Hif} {twn : Twn} {map : MapS}
  {cmpWait : List CmpWait} {gateWait : List GateWait} {conv : Conv} {health : Health} {pow : Pow} {setv : Settings} {sgen : BitVec 64}
  {fab : Fab} {fw : Fw} {mbx : Mbx} {keys : Keys} {arb : Arb}

/-- An update of components that `Tame` does not speak of, after a tame change. -/
theorem Tame.update (h : Tame s t) : Tame s { t with
    dtime := dtime, epoch := epoch, accErr := accErr, debugErrs := debugErrs, freeNo := freeNo, inReset := inReset, evt := evt,
    cic := cic, hbm := hbm, nor := nor, hkp := hkp, tly := tly, packs := packs, hif := hif, twn := twn, map := map,
    cmpWait := cmpWait, gateWait := gateWait, conv := conv, health := health, pow := pow, setv := setv, sgen := sgen,
    fab := fab, fw := fw, mbx := mbx, keys := keys, arb := arb } :=
  h.trans (.edit rfl)

/-- The same with outputs sent. -/
theorem Tame.emit {o : List Out} (h : Tame s t) : Tame s { t with
    dtime := dtime, epoch := epoch, accErr := accErr, debugErrs := debugErrs, freeNo := freeNo, inReset := inReset, evt := evt,
    cic := cic, hbm := hbm, nor := nor, hkp := hkp, tly := tly, packs := packs, hif := hif, twn := twn, map := map,
    cmpWait := cmpWait, gateWait := gateWait, conv := conv, health := health, pow := pow, setv := setv, sgen := sgen,
    fab := fab, fw := fw, mbx := mbx, keys := keys, arb := arb, out := t.out ++ o } :=
  h.trans (.append o rfl)

end

theorem Tame.ite {s a b : State} {c : Prop} [Decidable c] (ha : c → Tame s a) (hb : ¬ c → Tame s b) :
    Tame s (if c then a else b) := by
  split
  · exact ha ‹_›
  · exact hb ‹_›

theorem Tame.foldl {α : Type} {f : State → α → State} (h : ∀ s x, Tame s (f s x)) (l : List α) (s : State) :
    Tame s (l.foldl f s) := by
  induction l generalizing s with
  | nil => exact .refl s
  | cons x l ih => exact (h s x).trans (ih _)

theorem Tame.foldr {α : Type} {f : α → State → State} (h : ∀ x s, Tame s (f x s)) (l : List α) (s : State) :
    Tame s (l.foldr f s) := by
  induction l with
  | nil => exact .refl s
  | cons x l ih => exact ih.trans (h x _)

theorem Tame.foldl_fst {α β : Type} {f : State × β → α → State × β} (h : ∀ p x, Tame p.1 (f p x).1) (l : List α) (s : State) (b : β) :
    Tame s (l.foldl f (s, b)).1 := by
  suffices g : ∀ p : State × β, Tame p.1 (l.foldl f p).1 from g (s, b)
  induction l with
  | nil => exact fun p => .refl p.1
  | cons x l ih => exact fun p => (h p x).trans (ih _)

/-- Where there is a next state, it is tame. -/
def TameOpt (s : State) (o : Option State) : Prop := ∀ t, o = some t → Tame s t

theorem TameOpt.some {s t : State} (h : Tame s t) : TameOpt s (some t) := fun _ e => Option.some.inj e ▸ h

theorem TameOpt.none (s : State) : TameOpt s none := fun _ e => nomatch e

theorem TameOpt.get {s t : State} {o : Option State} (h : TameOpt s o) (e : o = Option.some t) : Tame s t := h t e

theorem TameOpt.after {s t : State} {o : Option State} (k : TameOpt t o) (h : Tame s t) : TameOpt s o := fun u e => h.trans (k u e)

theorem TameOpt.ite {s : State} {a b : Option State} {c : Prop} [Decidable c] (ha : c → TameOpt s a) (hb : ¬ c → TameOpt s b) :
    TameOpt s (if c then a else b) := by
  split
  · exact ha ‹_›
  · exact hb ‹_›

theorem Tame.elim {α : Type} {s a : State} {o : Option α} {f : α → State} (ha : Tame s a) (hf : ∀ x, Tame s (f x)) :
    Tame s (o.elim a f) := by
  cases o
  · exact ha
  · exact hf _

theorem Tame.getD {s a : State} {o : Option State} (h : TameOpt s o) (ha : Tame s a) : Tame s (o.getD a) := by
  cases o with
  | none => exact ha
  | some t => exact h t rfl

theorem Tame.get_fst {α : Type} {s a : State} {b : α} {o : Option (State × α)} (h : TameOpt s (o.map Prod.fst)) (e : o = some (a, b)) :
    Tame s a := h a (by rw [e]; rfl)

theorem Tame.get_snd {α : Type} {s a : State} {b : α} {o : Option (α × State)} (h : TameOpt s (o.map Prod.snd)) (e : o = some (b, a)) :
    Tame s a := h a (by rw [e]; rfl)

/-! ### What answers -/

/-- A meaning answers a next state to which it is tame. -/
def Answers (s : State) (r : Res) : Prop := ∃ t, r = .next t ∧ Tame s t

theorem Answers.next {s t : State} (h : Tame s t) : Answers s (.next t) := ⟨t, rfl, h⟩

theorem Answers.awake {s : State} {r : Res} (h : Answers s r) : Answers s (s.awake r) := by
  unfold State.awake
  split
  · exact .next (.refl s)
  · exact h

theorem Answers.tame {s t : State} {r : Res} (h : Answers s r) (e : r = .next t) : Tame s t := by
  obtain ⟨u, hu, ht⟩ := h
  cases hu.symm.trans e
  exact ht

theorem Answers.by_ {s : State} {f : State → Res} (h : ∀ s, Answers s (f s)) : Tame s (s.by_ f) := by
  obtain ⟨t, ht, hs⟩ := h s
  unfold State.by_
  rw [ht]
  exact hs

/-! ### Registers and their fields -/

/-- A register that holds no status of a source and no state of the debug port. -/
def RegName.plain (r : RegName) : Bool := r != .CIC_SRC_STAT && r != .PMC_DBG_STAT

/-- A write of a register that keeps the fields of R507 and of the freeze. -/
theorem Tame.of_setReg {s : State} {r : RegName} {i : Nat} {v : BitVec 64}
    (hx : s.Exclusive → (s.setReg r i v).Exclusive)
    (hf : s.get F.PMC_DBG_STAT.FROZEN = 1 → (s.setReg r i v).get F.PMC_DBG_STAT.FROZEN = 1) : Tame s (s.setReg r i v) :=
  ⟨rfl, rfl, rfl, List.prefix_rfl, fun h => ⟨h.1, h.2.1, regsOk_tset h.2.2⟩, hx, hf⟩

theorem State.get_setReg_other (s : State) {r : RegName} {f : Fld} (i j : Nat) (v : BitVec 64) (h : f.reg ≠ r) :
    (s.setReg r i v).get f j = s.get f j := by
  unfold State.get
  rw [s.reg_setReg_other v (.inl h)]

theorem State.tame_setReg (s : State) (r : RegName) (i : Nat) (v : BitVec 64) (h : r.plain = true := by decide) :
    Tame s (s.setReg r i v) := by
  have hr : RegName.CIC_SRC_STAT ≠ r ∧ RegName.PMC_DBG_STAT ≠ r := by
    simp only [RegName.plain, Bool.and_eq_true, bne_iff_ne] at h
    exact ⟨h.1.symm, h.2.symm⟩
  exact .of_setReg
    (State.exclusive_of_get (fun n => s.get_setReg_other i n v hr.1) fun n => s.get_setReg_other i n v hr.1)
    fun hf => (s.get_setReg_other i 0 v hr.2).trans hf

theorem State.tame_put (s : State) (f : Fld) (i x : Nat) (h : f.reg.plain = true := by decide) : Tame s (s.put f i x) :=
  s.tame_setReg f.reg i _ h

theorem State.tame_bump (s : State) (f : Fld) (i n : Nat) (h : f.reg.plain = true := by decide) : Tame s (s.bump f i n) :=
  s.tame_put f i _ h

/-- Is a field of a source's status one that R507 does not speak of? -/
def Fld.besides (f : Fld) : Bool :=
  f.reg == .CIC_SRC_STAT && decide (f.lo ≤ f.hi ∧ f.hi < 64 ∧ (f.hi < 10 ∨ 10 < f.lo) ∧ (f.hi < 21 ∨ 21 < f.lo))

/-- A status of a source but for INSVC and PRES may be written. -/
theorem State.tame_putStat (s : State) (f : Fld) (i x : Nat) (h : f.besides = true := by decide) : Tame s (s.put f i x) := by
  simp only [Fld.besides, Bool.and_eq_true, beq_iff_eq, decide_eq_true_eq] at h
  obtain ⟨hreg, hle, hlt, hins, hpres⟩ := h
  have hkeep (g : Fld) (hg : g.reg = .CIC_SRC_STAT) (hgle : g.lo ≤ g.hi) (hd : g.hi < f.lo ∨ f.hi < g.lo) (n : Nat) :
      (s.put f i x).get g n = s.get g n := by
    by_cases hn : n = i
    · rw [hn, s.get_put_field i x (hg.trans hreg.symm) hle hlt hgle hd]
    · exact s.get_put_other x (.inr hn)
  exact .of_setReg
    (State.exclusive_of_get (hkeep F.CIC_SRC_STAT.INSVC rfl (by decide) (by simp; omega))
      (hkeep F.CIC_SRC_STAT.PRES rfl (by decide) (by simp; omega)))
    fun hf => (s.get_put_other x (.inl (by rw [hreg]; decide))).trans hf

theorem State.tame_bumpStat (s : State) (f : Fld) (i n : Nat) (h : f.besides = true := by decide) : Tame s (s.bump f i n) :=
  s.tame_putStat f i _ h

/-- The presentation of a source that is not in service may be written, and so may any be ended. -/
theorem State.tame_putPres (s : State) (n x : Nat) (h : s.get F.CIC_SRC_STAT.INSVC n ≠ 1 ∨ x % 2 = 0) :
    Tame s (s.put F.CIC_SRC_STAT.PRES n x) := by
  have hins (m : Nat) : (s.put F.CIC_SRC_STAT.PRES n x).get F.CIC_SRC_STAT.INSVC m = s.get F.CIC_SRC_STAT.INSVC m := by
    by_cases hm : m = n
    · rw [hm, s.get_put_field (f := F.CIC_SRC_STAT.PRES) (g := F.CIC_SRC_STAT.INSVC) n x rfl (by decide) (by decide) (by decide)
        (by decide)]
    · exact s.get_put_other x (.inr hm)
  refine .of_setReg (fun hx m hm => ?_) fun hf => (s.get_put_other x (.inl (by decide))).trans hf
  have hm' := (hins m).symm.trans hm
  by_cases hmn : m = n
  · subst hmn
    have hself := s.get_put_self F.CIC_SRC_STAT.PRES m x (by decide) (by decide)
    exact hself.trans (h.elim (fun h => absurd hm' h) fun h => by simpa using h)
  · exact (s.get_put_other x (.inr hmn)).trans (hx m hm')

/-- A source in service may be one no more, and one that is not presented may be taken into service. -/
theorem State.tame_putInsvc (s : State) (n x : Nat) (h : s.get F.CIC_SRC_STAT.PRES n = 0 ∨ x % 2 = 0) :
    Tame s (s.put F.CIC_SRC_STAT.INSVC n x) := by
  have hpres (m : Nat) : (s.put F.CIC_SRC_STAT.INSVC n x).get F.CIC_SRC_STAT.PRES m = s.get F.CIC_SRC_STAT.PRES m := by
    by_cases hm : m = n
    · rw [hm, s.get_put_field (f := F.CIC_SRC_STAT.INSVC) (g := F.CIC_SRC_STAT.PRES) n x rfl (by decide) (by decide) (by decide)
        (by decide)]
    · exact s.get_put_other x (.inr hm)
  refine .of_setReg (fun hx m hm => ?_) fun hf => (s.get_put_other x (.inl (by decide))).trans hf
  refine (hpres m).trans ?_
  by_cases hmn : m = n
  · subst hmn
    refine h.elim id fun h => ?_
    have hself := (s.get_put_self F.CIC_SRC_STAT.INSVC m x (by decide) (by decide)).symm.trans hm
    simp [h] at hself
  · exact hx m ((s.get_put_other x (.inr hmn)).symm.trans hm)

/-- The freeze may be set. -/
theorem State.tame_putDebug (s : State) (f : Fld) (i x : Nat)
    (h : (f.reg == .PMC_DBG_STAT && decide (f.lo ≤ f.hi ∧ f.hi < 64 ∧ (f.hi < 30 ∨ 30 < f.lo))) = true := by decide) :
    Tame s (s.put f i x) := by
  simp only [Bool.and_eq_true, beq_iff_eq, decide_eq_true_eq] at h
  obtain ⟨hreg, hle, hlt, hfro⟩ := h
  have hne : RegName.CIC_SRC_STAT ≠ f.reg := by rw [hreg]; decide
  refine .of_setReg (State.exclusive_of_get (fun n => s.get_put_other x (.inl hne)) fun n => s.get_put_other x (.inl hne)) fun hf => ?_
  refine Eq.trans ?_ hf
  by_cases hi : 0 = i
  · rw [← hi]
    exact s.get_put_field 0 x hreg.symm hle hlt (by decide) (by simp; omega)
  · exact s.get_put_other x (.inr hi)

theorem State.tame_putFrozen (s : State) : Tame s (s.put F.PMC_DBG_STAT.FROZEN 0 1) := by
  refine .of_setReg (State.exclusive_of_get (fun n => s.get_put_other 1 (.inl (by decide))) fun n => s.get_put_other 1 (.inl (by decide)))
    fun _ => s.get_put_self F.PMC_DBG_STAT.FROZEN 0 1 (by decide) (by decide)

/-! ### Memory, secure NOR and what is sent -/

theorem State.tame_wrByte (s : State) (a : Nat) (b : Byte) : Tame s (s.wrByte a b) := by
  refine .of_memories ?_ (State.wf_wrByte a b) ?_ ?_ ?_ ?_ ?_ <;> unfold State.wrByte <;> split <;> simp

theorem State.tame_setNorByte (s : State) (a : Nat) (b : Byte) : Tame s (s.setNorByte a b) :=
  .of_memories rfl id wf_tset rfl rfl List.prefix_rfl rfl

theorem State.tame_filterSnor (s : State) (p : Host.Cell → Bool) : Tame s { s with snor := s.snor.filter p } :=
  .of_memories rfl id wf_filter rfl rfl List.prefix_rfl rfl

theorem State.tame_filterMem (s : State) (p : Host.Cell → Bool) : Tame s { s with mem := s.mem.filter p } :=
  .of_memories rfl wf_filter id rfl rfl List.prefix_rfl rfl

theorem State.tame_send (s : State) (o : Out) : Tame s (s.send o) := by
  unfold State.send
  exact .ite (fun _ => .refl s) fun _ => .append [o] rfl

/-! ### Entries of the register file that go -/

theorem tget_filter {β : Type} {p : Nat × β → Bool} {k : Nat} (h : ∀ v, p (k, v) = true) (t : Tbl β) :
    tget k (t.filter p) = tget k t := by
  induction t with
  | nil => rfl
  | cons e t ih =>
    obtain ⟨j, v⟩ := e
    by_cases hk : k = j
    · subst hk
      simp [h v, tget]
    · rw [List.filter_cons]
      split <;> simp [tget, hk, ih]

theorem regsOk_filter {p : Nat × BitVec 64 → Bool} {t : Tbl (BitVec 64)} (h : regsOk t = true) : regsOk (t.filter p) = true := by
  simp only [regsOk, Bool.and_eq_true, List.all_eq_true] at h ⊢
  exact ⟨tsorted_filter h.1, fun e he => h.2 e (List.mem_filter.1 he).1⟩

theorem keyOf_regKey (r : RegName) (i : Nat) : keyOf r (regKey r i) = true := by
  have := r.ctorIdx_lt
  simp [keyOf, regKey]
  omega

/-- Entries of plain registers may go. -/
theorem State.tame_filterRegs (s : State) (p : Nat × BitVec 64 → Bool)
    (h : ∀ e : Nat × BitVec 64, keyOf .CIC_SRC_STAT e.1 = true ∨ keyOf .PMC_DBG_STAT e.1 = true → p e = true) :
    Tame s { s with regs := s.regs.filter p } := by
  have hget (f : Fld) (i : Nat) (hf : f.reg = .CIC_SRC_STAT ∨ f.reg = .PMC_DBG_STAT) :
      State.get { s with regs := s.regs.filter p } f i = s.get f i := by
    have hkey (v : BitVec 64) : p (regKey f.reg i, v) = true :=
      h _ (hf.imp (fun h => by rw [h]; exact keyOf_regKey _ _) fun h => by rw [h]; exact keyOf_regKey _ _)
    simp only [State.get, State.reg, tgetD, tget_filter hkey]
  exact ⟨rfl, rfl, rfl, List.prefix_rfl, fun h => ⟨h.1, h.2.1, regsOk_filter h.2.2⟩,
    State.exclusive_of_get (fun n => hget _ n (.inl rfl)) (fun n => hget _ n (.inl rfl)), fun hf => (hget _ 0 (.inr rfl)).trans hf⟩

end Sys2Proof.Machine
end

section

-- One proof at a time: as many threads as there are lemmas here do not fit beside the model.
set_option Elab.async false

namespace Sys2Proof.Machine

/-! ### Machine/Unit -/

theorem State.tame_sendKey (s : State) : Tame s s.sendKey := by
  unfold State.sendKey
  split
  · exact .update (.refl _)
  · exact .refl _

theorem State.tame_recvKey (s : State) : Tame s s.recvKey := by
  unfold State.recvKey
  split
  · exact .update (.refl _)
  · exact .refl _

/-! ### Machine/Ops -/

theorem State.tame_accessErr (s : State) (b : Nat) : Tame s (s.accessErr b) := by
  unfold State.accessErr
  exact .update (.refl _)

theorem State.tame_drawn (s : State) : Tame s s.drawn := by
  unfold State.drawn
  exact .update (.refl _)

theorem State.tame_wrBytes (s : State) (a : Nat) (a2 : Bytes) : Tame s (s.wrBytes a a2) := by
  fun_induction s.wrBytes a a2
  · exact .refl _
  · rename_i ih4
    exact .after ih4 (State.tame_wrByte _ _ _)

theorem State.tame_setNorBytes (s : State) (a : Nat) (a2 : Bytes) : Tame s (s.setNorBytes a a2) := by
  fun_induction s.setNorBytes a a2
  · exact .refl _
  · rename_i ih4
    exact .after ih4 (State.tame_setNorByte _ _ _)

theorem State.tame_norPut (s : State) (a : Nat) (b : Bytes) : Tame s (s.norPut a b) := by
  unfold State.norPut
  exact .after (.update (.refl _)) (State.tame_setNorBytes _ _ _)

theorem State.tame_norSlot (s : State) (a : Nat) (b : Bytes) : Tame s (s.norSlot a b) :=
  .after (State.tame_norPut _ _ _) (.update (s.tame_filterSnor _))

theorem State.tame_engWrite (s : State) (a : Nat) (a2 : Bytes) : Tame s (s.engWrite a a2) := by
  fun_induction s.engWrite a a2
  · exact .refl _
  · rename_i ih4
    exact .after ih4 (.ite (fun _ => State.tame_wrByte _ _ _) fun _ => .refl _)

theorem State.tame_undecoded (s : State) (who : Initiator) : Tame s (s.undecoded who) := by
  unfold State.undecoded
  split
  · exact State.tame_send _ _
  · exact State.tame_send _ _
  · exact .refl _
  · exact .update (.refl _)
  · exact .refl _

/-- R504, R507: a source in service is not presented. -/
theorem State.tame_present (s : State) (n : Nat) : Tame s (s.present n) := by
  unfold State.present
  split
  · exact .refl s
  · rename_i hsvc
    have hins : s.get F.CIC_SRC_STAT.INSVC n ≠ 1 := by simpa [State.on] using hsvc
    refine .ite (fun _ => .refl s) fun _ => ?_
    split
    · exact .update (.after (State.tame_putStat _ _ _ _) (s.tame_putPres n 1 (.inl hins)))
    · exact s.tame_putPres n 0 (.inr rfl)

theorem State.tame_settle (s : State) : Tame s s.settle := by
  unfold State.settle
  exact .foldl (fun _ _ => State.tame_present _ _) _ _

theorem State.tame_advance (s : State) (ring : Nat) : Tame s (s.advance ring) := by
  unfold State.advance
  exact .ite (fun _ => State.tame_put _ _ _ _) fun _ => .update (.refl _)

theorem State.tame_enqPulse (s : State) (l : Nat) : Tame s (s.enqPulse l) := by
  unfold State.enqPulse
  exact .update (.refl _)

theorem State.tame_hwPulse (s : State) (l : Nat) : Tame s (s.hwPulse l) := by
  unfold State.hwPulse
  exact .ite (fun _ => .update (.refl _)) fun _ => State.tame_enqPulse _ _

theorem State.tame_raise (s : State) (n : Nat) : Tame s (s.raise n) := by
  unfold State.raise
  split
  · exact .refl _
  · extract_lets +onlyGivenNames s1
    have hs1 : Tame s s1 := by
      unfold s1
      split
      · exact State.tame_hwPulse _ _
      · exact .refl _
    exact .ite (fun _ => .after (State.tame_present _ _) (.after (State.tame_putStat _ _ _ _)
      (.after (State.tame_putStat _ _ _ _) hs1))) fun _ => .ite (fun _ => .after (State.tame_present _ _)
      (.after (State.tame_putStat _ _ _ _) (.after (State.tame_putStat _ _ _ _) hs1))) fun _ => .ite
      (fun _ => .after (State.tame_present _ _) (.after (State.tame_putStat _ _ _ _) hs1)) fun _ => .after (State.tame_present _ _)
      (.after (State.tame_bumpStat _ _ _ _) hs1)

theorem State.tame_advanceBy (s : State) (r : Nat) (a2 : Nat) : Tame s (s.advanceBy r a2) := by
  fun_induction s.advanceBy r a2
  · exact .refl _
  · rename_i ih2
    exact .after ih2 (State.tame_advance _ _)

theorem State.tame_putErr (s : State) (u r : Nat) : Tame s (s.put (errField u) r 1) := by
  unfold errField
  split_ifs <;> exact s.tame_put _ _ _

theorem State.tame_accept (s : State) (h : HeldPulse) : Tame s (s.accept h) := by
  unfold State.accept
  extract_lets srcs s1 s2 s3 s4 s5
  have hwr : Tame s s1 := .foldl (fun _ _ => State.tame_engWrite _ _ _) _ _
  have herr : Tame s1 s2 := by
    unfold s2
    split
    · exact State.tame_putErr _ _ _
    · exact .refl _
  have hpulse : Tame s2 s3 := .ite (fun _ => State.tame_enqPulse _ _) fun _ => .refl _
  have hring : Tame s3 s4 := by
    unfold s4
    split
    · exact State.tame_advanceBy _ _ _
    · exact .refl _
  have hchan : Tame s4 s5 := by
    unfold s5
    split
    · exact .after (State.tame_put _ _ _ _) (State.tame_put _ _ _ _)
    · exact .refl _
  exact hwr.trans (herr.trans (hpulse.trans (hring.trans (hchan.trans (.foldl State.tame_raise _ _)))))

theorem State.tame_complete (s : State) (h : HeldPulse) : Tame s (s.complete h) := by
  unfold State.complete
  exact .ite (fun _ => .update (.refl _)) fun _ => State.tame_accept _ _

theorem State.tame_pmcWrap (s : State) (x : Nat) (a2 : Nat) (a3 : Nat) : Tame s (s.pmcWrap x a2 a3) := by
  fun_induction s.pmcWrap x a2 a3
  · exact .refl _
  · rename_i ih7
    exact .after ih7 (State.tame_put _ _ _ _)
  · exact State.tame_put _ _ _ _
  · exact .after (State.tame_raise _ _) (State.tame_put _ _ _ _)
  · exact State.tame_put _ _ _ _

theorem State.tame_pmcCount (x : Nat) (ev : Nat) (n : Nat) (s : State) (k : Nat) : Tame s (State.pmcCount x ev n s k) := by
  unfold State.pmcCount
  exact .ite (fun _ => .refl _) fun _ => .after (.ite (fun _ => State.tame_pmcWrap _ _ _ _) fun _ => .refl _) (State.tame_put _ _ _ _)

theorem State.tame_pmc (s : State) (b : Nat) (ev : Nat) (n : Nat) : Tame s (s.pmc b ev n) := by
  unfold State.pmc
  exact .ite (fun _ => .refl _) fun _ => .foldl (fun _ _ => State.tame_pmcCount _ _ _ _ _) _ _

theorem State.tame_accessBad (s : State) (b : Nat) : Tame s (s.accessBad b) := by
  unfold State.accessBad
  exact .after (State.tame_pmc _ _ _ _) (State.tame_accessErr _ _)

theorem State.tame_gateShut (s : State) : Tame s s.gateShut := by
  unfold State.gateShut
  exact State.tame_accessBad _ _

theorem State.tame_gateKeep (s : State) (w : GateWait) : Tame s (s.gateKeep w) := by
  unfold State.gateKeep
  exact .after (.update (.refl _)) (State.tame_gateShut _)

theorem State.tame_control (s : State) (l : Link) (rx : BitVec 32) (typ : Nat) (len : Nat) (payload : Bytes) : Tame s
    (s.control l rx typ len payload) := by
  unfold State.control
  exact State.tame_send _ _

theorem State.tame_setPk (s : State) (n : Nat) (p : Pack) : Tame s (s.setPk n p) := by
  unfold State.setPk
  exact .update (.refl _)

theorem State.tame_pumpPack (s : State) (n : Nat) : Tame s (s.pumpPack n) := by
  unfold State.pumpPack
  exact .ite (fun _ => .refl _) fun _ => .after (.after (.emit (.refl _)) (State.tame_put _ _ _ _)) (.after (State.tame_pmc _ _ _ _)
    (State.tame_setPk _ _ _))

theorem State.tame_presetAt (s : State) (k : Nat) : Tame s (s.presetAt k) := by
  unfold State.presetAt
  exact .update (.refl _)

theorem State.tame_train (s : State) (n : Nat) : Tame s (s.train n) := by
  unfold State.train
  exact .after (State.tame_control _ _ _ _ _ _) (State.tame_presetAt _ _)

theorem State.tame_pumpTwin (s : State) : Tame s s.pumpTwin := by
  unfold State.pumpTwin
  exact .ite (fun _ => .refl _) fun _ => .emit (.refl _)

theorem State.tame_digest (s : State) (c : Nat) (o : Out) : Tame s (s.digest c o) := by
  unfold State.digest
  exact .ite (fun _ => .update (.refl _)) fun _ => .refl _

theorem State.tame_issue (s : State) (o : Out) : Tame s (s.issue o) := by
  unfold State.issue
  split
  · exact .after (State.tame_pumpPack _ _) (State.tame_setPk _ _ _)
  · exact State.tame_send _ _

theorem State.tame_emitQuiet (s : State) (o : Out) : Tame s (s.emitQuiet o) := by
  unfold State.emitQuiet
  exact .ite (fun _ => .refl _) fun _ => .ite (fun _ => .update (.refl _)) fun _ => State.tame_issue _ _

theorem State.tame_follow (s : State) (c : Nat) (o : Out) : Tame s (s.follow c o) := by
  unfold State.follow
  exact .ite (fun _ => .refl _) fun _ => .ite (fun _ => .update (.refl _)) fun _ => State.tame_send _ _

theorem State.tame_emit (s : State) (o : Out) : Tame s (s.emit o) := by
  unfold State.emit
  exact .after (State.tame_emitQuiet _ _) (State.tame_digest _ _ _)

theorem State.tame_arbSend (s : State) (mtype : Nat) (body : Bytes) : Tame s (s.arbSend mtype body) := by
  unfold State.arbSend
  exact .after (State.tame_send _ _) (.update (.refl _))

theorem State.tame_alert (s : State) (code : Nat) : Tame s (s.alert code) := by
  unfold State.alert
  exact State.tame_arbSend _ _ _

theorem State.tame_setFault (s : State) (b : Nat) : Tame s (s.setFault b) := by
  unfold State.setFault
  exact .after (.ite (fun _ => State.tame_alert _ _) fun _ => .refl _) (.update (.refl _))

theorem State.tame_emitAll (s : State) (l : List Out) : Tame s (s.emitAll l) := by
  unfold State.emitAll
  exact .foldl (fun _ _ => State.tame_emit _ _) _ _

theorem State.tame_twinSend (s : State) (mtype : Nat) (body : Bytes) (last : Bool) : Tame s (s.twinSend mtype body last) := by
  unfold State.twinSend
  exact .ite (fun _ => .refl _) fun _ => .ite
    (fun _ => .after (.after (.after (State.tame_pumpTwin _) (.after (State.tame_raise _ _) (State.tame_put _ _ _ _)))
    (.after (State.tame_sendKey _) (.update (.refl _)))) (.update (.refl _))) fun _ => .after (State.tame_pumpTwin _) (.update (.refl _))

theorem State.tame_ringWrite (s : State) (i : Nat) (b : Bytes) : Tame s (s.ringWrite i b) := by
  unfold State.ringWrite
  exact .after (.after (.update (.refl _)) (State.tame_engWrite _ _ _)) (.ite (fun _ => State.tame_engWrite _ _ _) fun _ => .refl _)

theorem State.tame_ringDeliver (s : State) (e : LEntry) : Tame s (s.ringDeliver e) := by
  unfold State.ringDeliver
  exact .ite (fun _ => .refl _) fun _ => State.tame_ringWrite _ _ _

theorem State.tame_recordPut (s : State) (e : LEntry) : Tame s (s.recordPut e) := by
  unfold State.recordPut
  exact .after (.after (State.tame_pmc _ _ _ _) (.ite (fun _ => State.tame_twinSend _ _ _ _) fun _ => .refl _)) (.update (.refl _))

theorem State.tame_record (s : State) (e : LEntry) : Tame s (s.record e) := by
  unfold State.record
  exact .ite (fun _ => .refl _) fun _ => .after (State.tame_ringDeliver _ _) (.ite (fun _ => State.tame_recordPut _ _) fun _ => .refl _)

theorem State.tame_recordCtl (s : State) (ckind : Nat) (arg : Nat) : Tame s (s.recordCtl ckind arg) := by
  unfold State.recordCtl
  exact .after (State.tame_raise _ _) (State.tame_record _ _)

/-! ### Machine/Hbm -/

theorem State.tame_setErr (s : State) (w : Nat) (e : BitVec 72) : Tame s (s.setErr w e) := by
  unfold State.setErr
  exact .update (.refl _)

theorem State.tame_softPut (s : State) (i : Nat) (e : SoftRow) : Tame s (s.softPut i e) := by
  unfold State.softPut
  exact State.tame_norPut _ _ _

theorem State.tame_appendSoft (s : State) (row : Nat) : Tame s (s.appendSoft row) := by
  unfold State.appendSoft
  exact .ite (fun _ => .refl _) fun _ => .after (State.tame_softPut _ _ _) (.update (.refl _))

theorem State.tame_markHard (s : State) (row : Nat) : Tame s (s.markHard row) := by
  unfold State.markHard
  exact .ite (fun _ => .refl _) fun _ => .after (.after (State.tame_appendSoft _ _) (.after (State.tame_raise _ _)
    (State.tame_bump _ _ _ _))) (.update (.refl _))

theorem State.tame_rewriteRow (s : State) (row : Nat) : Tame s (s.rewriteRow row) := by
  unfold State.rewriteRow
  exact .update (.refl _)

theorem State.tame_rowEntry (s : State) (row : Nat) : Tame s (s.rowEntry row) := by
  unfold State.rowEntry
  exact .ite (fun _ => .refl _) fun _ => .after (.ite (fun _ => State.tame_raise _ _) fun _ => .refl _) (.update (.refl _))

theorem State.tame_updRow (s : State) (row : Nat) (f : HbmRow → HbmRow) : Tame s (s.updRow row f) := by
  unfold State.updRow
  exact .update (.refl _)

theorem State.tame_countRow (s : State) (row : Nat) : Tame s (s.countRow row) := by
  unfold State.countRow
  exact .after (.after (.ite (fun _ => .ite (fun _ => State.tame_markHard _ _) fun _ => .refl _) fun _ => .ite
    (fun _ => .after (State.tame_raise _ _) (.after (State.tame_updRow _ _ _) (State.tame_rewriteRow _ _))) fun _ => .refl _)
    (.after (State.tame_updRow _ _ _) (State.tame_rowEntry _ _))) (.after (State.tame_raise _ _) (State.tame_bump _ _ _ _))

theorem State.tame_pageWriteBack (s : State) (p : Nat) : Tame s (s.pageWriteBack p) := by
  unfold State.pageWriteBack
  exact .after (State.tame_raise _ _) (.after (.update (.refl _)) (State.tame_bump _ _ _ _))

theorem State.tame_logUE (s : State) (w : Nat) : Tame s (s.logUE w) := by
  unfold State.logUE
  exact .after (.after (State.tame_raise _ _) (.ite (fun _ => State.tame_setFault _ _) fun _ => .refl _))
    (.ite (fun _ => State.tame_put _ _ _ _) fun _ => .after
    (.after (.after (State.tame_put _ _ _ _) (.after (State.tame_put _ _ _ _) (State.tame_put _ _ _ _))) (.after (State.tame_put _ _ _ _)
    (State.tame_put _ _ _ _))) (.after (State.tame_put _ _ _ _) (State.tame_put _ _ _ _)))

theorem State.tame_hbcRead (s : State) (w : Nat) : Tame s (s.hbcRead w).1 := by
  unfold State.hbcRead
  split
  · exact .refl _
  · exact State.tame_countRow _ _
  · split
    · exact State.tame_pageWriteBack _ _
    · exact State.tame_logUE _ _

theorem State.tame_hbcReadRun (s : State) (a : Nat) (n : Nat) : Tame s (s.hbcReadRun a n).1 := by
  unfold State.hbcReadRun
  extract_lets +onlyGivenNames ws1
  refine .foldl_fst (fun p2 x3 => ?_) _ _ _
  split
  · exact .refl _
  · exact State.tame_hbcRead _ _

theorem tame_hbmFillStart (s : State) : Tame s (hbmFillStart s) := by
  unfold hbmFillStart
  exact .ite (fun _ => .refl _) fun _ => .after (.update (.refl _)) (.after (State.tame_put _ _ _ _) (State.tame_put _ _ _ _))

theorem answers_execHbmFillStart (s : State) : Answers s (execHbmFillStart s) := by
  unfold execHbmFillStart
  exact .awake (.next (tame_hbmFillStart _))

theorem tame_applyRepair (noSpare : List (Fin 256)) (s : State) (i : Nat) : Tame s (applyRepair noSpare s i) := by
  unfold applyRepair
  exact .ite (fun _ => .ite (fun _ => State.tame_put _ _ _ _) fun _ => State.tame_put _ _ _ _) fun _ => .refl _

theorem tame_hbmFillDone (noSpare : List (Fin 256)) (s : State) : Tame s (hbmFillDone noSpare s) := by
  unfold hbmFillDone
  extract_lets s1 l hb s2 s3
  have h1 : Tame s s1 := .foldl (fun _ _ => tame_applyRepair _ _ _) _ _
  have h2 : Tame s1 s2 := (s1.tame_filterMem _).trans (.edit rfl)
  have h3 : Tame s2 s3 := .foldl (fun _ _ => State.tame_softPut _ _ _) _ _
  exact .after (State.tame_raise _ _) (.after (State.tame_put _ _ _ _) (.after (State.tame_put _ _ _ _) (h1.trans (h2.trans h3))))

theorem answers_execHbmFillDone (noSpare : List (Fin 256)) (s : State) : Answers s (execHbmFillDone noSpare s) := by
  unfold execHbmFillDone
  exact .awake (.next (.ite (fun _ => tame_hbmFillDone _ _) fun _ => .refl _))

theorem tame_patrolPage (page : Nat) (s : State) : Tame s (patrolPage page s) := by
  unfold patrolPage
  exact .after (.after (.after (.ite (fun _ => State.tame_raise _ _) fun _ => .refl _)
    (.ite (fun _ => State.tame_pageWriteBack _ _) fun _ => .refl _)) (State.tame_hbcReadRun _ _ _)) (State.tame_put _ _ _ _)

theorem State.tame_upsetPage (s : State) (page : Nat) (l : List (Nat × BitVec 72)) : Tame s (s.upsetPage page l) := by
  unfold State.upsetPage
  exact .foldl (fun _ _ => .ite (fun _ => State.tame_setErr _ _ _) fun _ => .refl _) _ _

theorem State.tame_setBand (s : State) (k b : Nat) : Tame s (s.setBand k b) := by
  have hput : Tame s (s.put (bandFld k) 0 b) := by
    unfold bandFld
    split <;> exact s.tame_put _ _ _
  exact .ite (fun _ => .refl s) fun _ => .after (State.tame_raise _ _) hput

theorem State.tame_bandUp (s : State) (k : Nat) : Tame s (s.bandUp k) := by
  unfold State.bandUp
  exact .ite (fun _ => State.tame_setBand _ _ _) fun _ => .refl _

theorem State.tame_bandRound (s : State) (k : Nat) : Tame s (s.bandRound k) := by
  unfold State.bandRound
  exact .after (.ite (fun _ => .ite (fun _ => .after (State.tame_setBand _ _ _) (.update (.refl _))) fun _ => .update (.refl _)) fun _ =>
    .update (.refl _)) (State.tame_bandUp _ _)

theorem answers_execHbmTemperaturePoll (stack : Fin 2) (temp : Int) (s : State) : Answers s (execHbmTemperaturePoll stack temp s) := by
  unfold execHbmTemperaturePoll
  exact .awake (.next (.after (State.tame_bandUp _ _) (.update (.refl _))))

theorem tame_testOp (op : Nat) (f : State → State) (s : State) (hf : ∀ u, Tame u (f u)) : Tame s (testOp op f s) := by
  unfold testOp
  exact .ite (fun _ => .after (.after (.after (State.tame_raise _ _) (State.tame_put _ _ _ _)) (.ite (fun _ => hf _) fun _ => .refl _))
    (.after (State.tame_put _ _ _ _) (State.tame_put _ _ _ _))) fun _ => .refl _

theorem tame_testStore (chk : BitVec 8) (s : State) : Tame s (testStore chk s) := by
  unfold testStore
  exact State.tame_setErr _ _ _

theorem answers_execTestWriteWord (chk : BitVec 8) (s : State) : Answers s (execTestWriteWord chk s) := by
  unfold execTestWriteWord
  exact .awake (.next (.after (tame_testOp _ _ _ (fun _ => tame_testStore _ _)) (State.tame_put _ _ _ _)))

theorem tame_testLoad (s : State) : Tame s (testLoad s) := by
  unfold testLoad
  exact .after (State.tame_put _ _ _ _) (State.tame_setReg _ _ _ _)

theorem answers_execTestReadWord (s : State) : Answers s (execTestReadWord s) := by
  unfold execTestReadWord
  exact .awake (.next (tame_testOp _ _ _ (fun _ => tame_testLoad _)))

theorem tame_testStoreSym (k : Nat) (s : State) : Tame s (testStoreSym k s) := by
  unfold testStoreSym
  exact .update (.refl _)

theorem answers_execTestWriteSymbol (sym : Fin 32) (s : State) : Answers s (execTestWriteSymbol sym s) := by
  unfold execTestWriteSymbol
  exact .awake (.next (.after (tame_testOp _ _ _ (fun _ => tame_testStoreSym _ _)) (State.tame_put _ _ _ _)))

theorem tame_testLoadSym (k : Nat) (s : State) : Tame s (testLoadSym k s) := by
  unfold testLoadSym
  exact State.tame_setReg _ _ _ _

theorem answers_execTestReadSymbol (sym : Fin 32) (s : State) : Answers s (execTestReadSymbol sym s) := by
  unfold execTestReadSymbol
  exact .awake (.next (.after (tame_testOp _ _ _ (fun _ => tame_testLoadSym _ _)) (State.tame_put _ _ _ _)))

/-! ### Machine/Porter -/

theorem State.tame_intWrite (s : State) (a : Nat) (b : Byte) : Tame s (s.intWrite a b) := by
  unfold State.intWrite
  exact .ite (fun _ => State.tame_wrByte _ _ _) fun _ => .refl _

theorem State.tame_burstErrs (s : State) (addr : Nat → Nat) (k : Nat) : Tame s (s.burstErrs addr k) := by
  unfold State.burstErrs
  refine .foldl (fun u1 x2 => ?_) _ _
  split
  · exact State.tame_accessBad _ _
  · exact .refl _

theorem State.tame_scatterFrom (s : State) (addr : Nat → Nat) (j : Nat) (a3 : Bytes) : Tame s (s.scatterFrom addr j a3) := by
  fun_induction s.scatterFrom addr j a3
  · exact .refl _
  · rename_i ih4
    exact .after ih4 (State.tame_intWrite _ _ _)

theorem State.tame_ptrStep (s : State) (n : Nat) (k : Nat) : Tame s (s.ptrStep n k) := by
  unfold State.ptrStep
  exact .after (.after (State.tame_put _ _ _ _) (State.tame_put _ _ _ _)) (.after (State.tame_put _ _ _ _) (State.tame_put _ _ _ _))

theorem State.tame_undefAt (s : State) (addr : Nat → Nat) (j : Nat) (k : Nat) : Tame s (s.undefAt addr j k) := by
  unfold State.undefAt
  exact .after (State.tame_drawn _) (.foldl (fun _ _ => .ite (fun _ => State.tame_wrByte _ _ _) fun _ => .refl _) _ _)

theorem State.tame_moveBytes (s : State) (n : Nat) (k : Nat) (input : Bytes) : Tame s (s.moveBytes n k input) := by
  unfold State.moveBytes
  exact .after (.after (.after (.after (State.tame_pmc _ _ _ _) (State.tame_ptrStep _ _ _))
    (.ite (fun _ => State.tame_setReg _ _ _ _) fun _ => .refl _)) (.ite (fun _ => .ite (fun _ => State.tame_emitAll _ _) fun _ => .after
    (State.tame_burstErrs _ _ _) (State.tame_scatterFrom _ _ _ _)) fun _ => .refl _)) (.ite (fun _ => State.tame_drawn _) fun _ => .after
    (State.tame_burstErrs _ _ _) (State.tame_drawn _))

theorem State.tame_ptrPulse (s : State) (n : Nat) (l : Nat) (srcs : List Nat) : Tame s (s.ptrPulse n l srcs) := by
  unfold State.ptrPulse
  exact .after (.after (State.tame_complete _ _) (.ite (fun _ => State.tame_put _ _ _ _) fun _ => .refl _)) (.after (State.tame_pmc _ _ _ _)
    (State.tame_pmc _ _ _ _))

theorem State.tame_ptrError (s : State) (n : Nat) (code : Nat) : Tame s (s.ptrError n code) := by
  unfold State.ptrError
  exact .after (State.tame_ptrPulse _ _ _ _) (.after (State.tame_put _ _ _ _) (State.tame_put _ _ _ _))

theorem State.tame_ptrLate (s : State) (n : Nat) (code : Nat) : Tame s (s.ptrLate n code) := by
  unfold State.ptrLate
  exact .after (State.tame_ptrError _ _ _) (State.tame_put _ _ _ _)

theorem State.tame_crcErrs (s : State) (addr : Nat → Nat) : Tame s (s.crcErrs addr) := by
  unfold State.crcErrs
  exact .ite (fun _ => .refl _) fun _ => State.tame_burstErrs _ _ _

theorem State.tame_appendCrc (s : State) (n : Nat) : Tame s (s.appendCrc n) := by
  unfold State.appendCrc
  exact .ite (fun _ => State.tame_emit _ _) fun _ => .after (State.tame_crcErrs _ _) (State.tame_scatterFrom _ _ _ _)

theorem State.tame_ptrFinish (s : State) (n : Nat) (input : Bytes) (moved : Nat) (late : Option Nat) (read : Option Bytes) : Tame s
    (s.ptrFinish n input moved late read) := by
  unfold State.ptrFinish
  extract_lets +onlyGivenNames c11 mode2 check3 append4
  split
  · exact State.tame_ptrError _ _ _
  · split
    · exact .after (State.tame_ptrError _ _ _) (.ite (fun _ => .refl _) fun _ => State.tame_crcErrs _ _)
    · split
      · exact State.tame_ptrLate _ _ _
      · extract_lets +onlyGivenNames s5
        have hs5 : Tame s s5 := .ite (fun _ => State.tame_appendCrc _ _) fun _ => .ite (fun _ => State.tame_crcErrs _ _) fun _ => .refl _
        extract_lets +onlyGivenNames zlr6 s7
        have hs7 : Tame s s7 := .ite (fun _ => .after (State.tame_send _ _) hs5) fun _ => hs5
        split
        · exact .after (.after (.ite (fun _ => State.tame_raise _ _) fun _ => .refl _) (State.tame_ptrLate _ _ _))
            (.ite (fun _ => hs7) fun _ => .after (State.tame_undefAt _ _ _ _) hs7)
        · exact .after (State.tame_ptrPulse _ _ _ _) hs7

theorem State.tame_startSet (s : State) (n : Nat) : Tame s (s.startSet n) := by
  unfold State.startSet
  exact .after (.ite (fun _ => State.tame_ptrError _ _ _) fun _ => .after (.ite (fun _ => State.tame_ptrFinish _ _ _ _ _ _) fun _ =>
    .refl _) (.ite (fun _ => State.tame_setReg _ _ _ _) fun _ => .refl _)) (.after (State.tame_pmc _ _ _ _) (.after (State.tame_put _ _ _ _)
    (State.tame_put _ _ _ _)))

theorem answers_execPorterStart (n : Fin 64) (s : State) : Answers s (execPorterStart n s) := by
  unfold execPorterStart
  exact .awake (.next (.ite (fun _ => State.tame_gateKeep _ _) fun _ => .ite (fun _ => State.tame_startSet _ _) fun _ => .refl _))

theorem State.tame_takeSet (s : State) (n : Nat) : Tame s (s.takeSet n) := by
  unfold State.takeSet
  exact .after (.after (.after (.after (.after (State.tame_startSet _ _) (.ite (fun _ => .refl _) fun _ => State.tame_put _ _ _ _))
    (.after (State.tame_put _ _ _ _) (State.tame_put _ _ _ _))) (State.tame_setReg _ _ _ _)) (.after (State.tame_setReg _ _ _ _)
    (State.tame_setReg _ _ _ _))) (.after (State.tame_setReg _ _ _ _) (State.tame_setReg _ _ _ _))

theorem answers_execShadowTake (n : Fin 64) (s : State) : Answers s (execShadowTake n s) := by
  unfold execShadowTake
  exact .awake (.next (.ite (fun _ => State.tame_gateShut _) fun _ => .ite (fun _ => State.tame_takeSet _ _) fun _ => .refl _))

theorem plain_shadowReg (k : Nat) : (shadowReg k).plain = true := by
  unfold shadowReg
  split <;> rfl

theorem answers_execShadowWrite (n : Fin 64) (reg : Fin 5) (val : BitVec 64) (s : State) : Answers s (execShadowWrite n reg val s) :=
  .awake (.next (.after (State.tame_put _ _ _ _) (s.tame_setReg _ _ _ (plain_shadowReg reg))))

theorem answers_execPorterCommit (n : Fin 64) (s : State) : Answers s (execPorterCommit n s) := by
  unfold execPorterCommit
  exact .awake (.next (State.tame_put _ _ _ _))

theorem State.tame_trigger (s : State) (n : Nat) : Tame s (s.trigger n) := by
  unfold State.trigger
  exact .ite (fun _ => .refl _) fun _ => .ite (fun _ => State.tame_put _ _ _ _) fun _ => State.tame_put _ _ _ _

theorem answers_execTriggerPulse (n : Fin 64) (s : State) : Answers s (execTriggerPulse n s) := by
  unfold execTriggerPulse
  exact .awake (.next (State.tame_trigger _ _))

theorem State.tame_readSource (s : State) (n : Nat) (k : Nat) : Tame s (s.readSource n k).1 := by
  unfold State.readSource
  split
  · exact .refl _
  · extract_lets +onlyGivenNames ws1
    refine .foldl_fst (fun p2 x3 => ?_) _ _ _
    split
    · exact .refl _
    · exact State.tame_hbcRead _ _

theorem State.tame_ptrFailAt (s : State) (n : Nat) (at_ : Nat) (code : Nat) (input : Bytes) : Tame s (s.ptrFailAt n at_ code input) := by
  unfold State.ptrFailAt
  exact .after (.after (State.tame_ptrError _ _ _) (.ite (fun _ => .refl _) fun _ => State.tame_undefAt _ _ _ _))
    (State.tame_moveBytes _ _ _ _)

theorem answers_execPorterPause (n : Fin 64) (on : Bool) (s : State) : Answers s (execPorterPause n on s) := by
  unfold execPorterPause
  exact .awake (.next (.ite (fun _ => State.tame_put _ _ _ _) fun _ => .after (State.tame_put _ _ _ _) (State.tame_put _ _ _ _)))

theorem answers_execPorterErrClear (n : Fin 64) (s : State) : Answers s (execPorterErrClear n s) := by
  unfold execPorterErrClear
  exact .awake (.next (State.tame_put _ _ _ _))

theorem answers_execPorterDisable (n : Fin 64) (s : State) : Answers s (execPorterDisable n s) := by
  unfold execPorterDisable
  exact .awake (.next (State.tame_put _ _ _ _))

theorem State.tame_triggerLine (s : State) (l : Nat) : Tame s (s.triggerLine l) := by
  unfold State.triggerLine
  exact .foldl (fun _ _ => .ite (fun _ => State.tame_trigger _ _) fun _ => .refl _) _ _

theorem State.tame_acceptHeld (s : State) (l : Nat) : Tame s (s.acceptHeld l) := by
  unfold State.acceptHeld
  split
  · exact .refl _
  · exact .ite (fun _ => .refl _) fun _ => .after (State.tame_accept _ _) (.update (.refl _))

theorem tame_deliverLine (l : Nat) (s : State) : Tame s (deliverLine l s) := by
  unfold deliverLine
  exact .ite (fun _ => .refl _) fun _ => .after (.after (State.tame_acceptHeld _ _) (.ite (fun _ => State.tame_triggerLine _ _) fun _ =>
    .refl _)) (.update (.refl _))

theorem answers_execEventLineDelivery (line : Fin 256) (s : State) : Answers s (execEventLineDelivery line s) := by
  unfold execEventLineDelivery
  exact .awake (.next (tame_deliverLine _ _))

/-! ### Machine/Snor -/

theorem State.tame_norSet (s : State) (i : Nat) (f : NorDesc → NorDesc) : Tame s (s.norSet i f) := by
  unfold State.norSet
  exact .update (.refl _)

theorem State.tame_norEnd (s : State) (x : NorDesc) (status : Nat) (wdone : Nat) : Tame s (s.norEnd x status wdone) := by
  unfold State.norEnd
  exact .after (.after (.after (State.tame_complete _ _) (.after (State.tame_pmc _ _ _ _) (State.tame_pmc _ _ _ _))) (.update (.refl _)))
    (State.tame_norSet _ _ _)

theorem State.tame_norStart (s : State) (x : NorDesc) : Tame s (s.norStart x) := by
  unfold State.norStart
  extract_lets +onlyGivenNames s1
  have hs1 : Tame s s1 := by
    unfold s1
    split
    · exact .after (State.tame_put _ _ _ _) (State.tame_norSet _ _ _)
    · exact .refl _
  extract_lets +onlyGivenNames s2
  have hs2 : Tame s s2 := .ite (fun _ => .after (State.tame_put _ _ _ _) hs1) fun _ => .after (State.tame_pmc _ _ _ _) hs1
  extract_lets +onlyGivenNames s3
  have hs3 : Tame s s3 := .after (State.tame_put _ _ _ _) (.after (State.tame_norSet _ _ _) hs2)
  split
  · exact .after (State.tame_emit _ _) hs3
  · exact hs3

theorem State.tame_norKickN (s : State) (a1 : Nat) : Tame s (s.norKickN a1) := by
  fun_induction s.norKickN a1
  · exact .refl _
  · exact .refl _
  · exact State.tame_norStart _ _
  · rename_i ih7
    exact .after ih7 (State.tame_norEnd _ _ _ _)
  · exact .refl _
  · exact State.tame_norStart _ _

theorem State.tame_norHead (s : State) : Tame s s.norHead := by
  unfold State.norHead
  split
  · exact State.tame_put _ _ _ _
  · exact State.tame_put _ _ _ _

theorem State.tame_norKick (s : State) : Tame s s.norKick := by
  unfold State.norKick
  exact .after (.ite (fun _ => State.tame_put _ _ _ _) fun _ => .refl _) (.after (State.tame_norHead _) (State.tame_norKickN _ _))

theorem tame_norQueue (op : Nat) (d : SnfDesc) (s : State) : Tame s (norQueue op d s) := by
  unfold norQueue
  exact .ite (fun _ => State.tame_accessBad _ _) fun _ => .after (.after (State.tame_norKick _) (State.tame_put _ _ _ _))
    (.update (.refl _))

theorem answers_execNorRead (d : SnfDesc) (s : State) : Answers s (execNorRead d s) := by
  unfold execNorRead
  exact .awake (.next (tame_norQueue _ _ _))

theorem answers_execNorProgram (d : SnfDesc) (s : State) : Answers s (execNorProgram d s) := by
  unfold execNorProgram
  exact .awake (.next (tame_norQueue _ _ _))

theorem answers_execNorEraseSector (d : SnfDesc) (s : State) : Answers s (execNorEraseSector d s) := by
  unfold execNorEraseSector
  exact .awake (.next (tame_norQueue _ _ _))

theorem answers_execNorEraseSpan (d : SnfDesc) (s : State) : Answers s (execNorEraseSpan d s) := by
  unfold execNorEraseSpan
  exact .awake (.next (tame_norQueue _ _ _))

theorem State.tame_norReadEnd (s : State) (x : NorDesc) : Tame s (s.norReadEnd x) := by
  unfold State.norReadEnd
  exact .ite (fun _ => .after (State.tame_norEnd _ _ _ _) (.after (State.tame_drawn _) (State.tame_wrBytes _ _ _))) fun _ =>
    State.tame_norEnd _ _ _ _

theorem State.tame_norWords (s : State) (a : Nat) (a2 : Nat) (a3 : Bytes) (a4 : Nat) : Tame s (s.norWords a a2 a3 a4).1 := by
  fun_induction s.norWords a a2 a3 a4
  · exact .refl _
  · rename_i ih8
    exact ih8
  · exact .refl _
  · rename_i ih11
    exact .after ih11 (.update (State.tame_setNorBytes _ _ _))

theorem State.tame_norRemap (s : State) (sector : Nat) : TameOpt s (s.norRemap sector) := by
  unfold State.norRemap
  exact .ite (fun _ => .none _) fun _ => .after (.some (.after (State.tame_raise _ _) (.update (.refl _))))
    (.after (State.tame_bump _ _ _ _) (State.tame_put _ _ _ _))

theorem State.tame_norProgramEnd (s : State) (x : NorDesc) (verifyFailed : Bool) : Tame s (s.norProgramEnd x verifyFailed) := by
  unfold State.norProgramEnd
  split
  · exact State.tame_norEnd _ _ _ _
  · extract_lets +onlyGivenNames src1
    split
    · exact .after (State.tame_norEnd _ _ _ _) (State.tame_hbcReadRun _ _ _)
    · extract_lets +onlyGivenNames s2
      have hs2 : Tame s s2 := State.tame_hbcReadRun _ _ _
      split
      · exact .after (State.tame_norEnd _ _ _ _) (.update hs2)
      · rename_i h3 u4 h5
        exact .after (State.tame_norEnd _ _ _ _) (.after (State.tame_norWords _ _ _ _ _)
          ((TameOpt.ite (fun _ => .after (State.tame_norRemap _ _) hs2) fun _ => .some hs2).get h5))

theorem State.tame_norErase (s : State) (sp : Nat × Nat) : Tame s (s.norErase sp) :=
  (s.tame_filterSnor _).trans (.edit rfl)

theorem State.tame_norEraseEnd (s : State) (x : NorDesc) (verifyFailed : Bool) : Tame s (s.norEraseEnd x verifyFailed) := by
  unfold State.norEraseEnd
  split
  · exact .after (State.tame_norEnd _ _ _ _) (.update (.refl _))
  · rename_i h1 u2 h3
    exact .after (State.tame_norEnd _ _ _ _) (.after (State.tame_norErase _ _) ((TameOpt.ite (fun _ => State.tame_norRemap _ _) fun _ =>
      .some (.refl _)).get h3))

theorem State.tame_norOpEnd (s : State) (x : NorDesc) (verifyFailed : Bool) : Tame s (s.norOpEnd x verifyFailed) := by
  unfold State.norOpEnd
  split
  · exact State.tame_norReadEnd _ _
  · exact State.tame_norProgramEnd _ _ _
  · exact State.tame_norEraseEnd _ _ _

theorem answers_execNorOperationEnd (verifyFailed : Bool) (s : State) : Answers s (execNorOperationEnd verifyFailed s) := by
  unfold execNorOperationEnd
  refine .awake ?_
  refine .next ?_
  split
  · exact .after (State.tame_norKick _) (State.tame_norOpEnd _ _ _)
  · exact .refl _

theorem answers_execNorEngineDisable (s : State) : Answers s (execNorEngineDisable s) := by
  unfold execNorEngineDisable
  exact .awake (.next (.after (State.tame_norKick _) (State.tame_put _ _ _ _)))

theorem State.tame_norThermal (s : State) : Tame s s.norThermal := by
  unfold State.norThermal
  exact .after (.after (.after (.ite (fun _ => .refl _) fun _ => State.tame_raise _ _) (State.tame_put _ _ _ _))
    (.foldl (fun _ _ => State.tame_norEnd _ _ _ _) _ _)) (.foldl (fun _ _ => .after (State.tame_norEnd _ _ _ _) (.update (.refl _))) _ _)

theorem tame_openRegion (core : Nat) (region : Nat) (s : State) : Tame s (openRegion core region s) := by
  unfold openRegion
  exact .ite (fun _ => .refl _) fun _ => .ite (fun _ => .after (State.tame_put _ _ _ _) (.after (State.tame_put _ _ _ _)
    (State.tame_put _ _ _ _))) fun _ => .after (.ite (fun _ => .after (State.tame_raise _ _) (State.tame_put _ _ _ _)) fun _ => .refl _)
    (.after (State.tame_raise _ _) (State.tame_put _ _ _ _))

theorem answers_execOpenRegion (core : Fin 24) (region : Fin 16) (s : State) : Answers s (execOpenRegion core region s) := by
  unfold execOpenRegion
  exact .awake (.next (tame_openRegion _ _ _))

theorem answers_execCloseRegion (core : Fin 24) (region : Fin 16) (s : State) : Answers s (execCloseRegion core region s) := by
  unfold execCloseRegion
  exact .awake (.next (.after (State.tame_put _ _ _ _) (State.tame_put _ _ _ _)))

theorem answers_execSetPassword (core : Fin 24) (region : Fin 16) (s : State) : Answers s (execSetPassword core region s) := by
  unfold execSetPassword
  exact .awake (.next (.ite (fun _ => .after (State.tame_put _ _ _ _) (.update (.refl _))) fun _ => .refl _))

theorem State.tame_unlock (s : State) (r : Nat) : Tame s (s.unlock r) := by
  unfold State.unlock
  exact .after (State.tame_put _ _ _ _) (State.tame_put _ _ _ _)

theorem answers_execClrlock (who : Initiator) (mask : BitVec 16) (s : State) : Answers s (execClrlock who mask s) := by
  unfold execClrlock
  exact .awake (.next (.ite (fun _ => .foldl (fun _ _ => .ite (fun _ => State.tame_unlock _ _) fun _ => .refl _) _ _) fun _ =>
    State.tame_undecoded _ _))

/-! ### Machine/Setting -/

theorem State.tame_sgenUp (s : State) : Tame s s.sgenUp := by
  unfold State.sgenUp
  exact .update (.refl _)

theorem State.tame_selWrite (s : State) (f : Fw → Fw) : Tame s (s.selWrite f) := by
  unfold State.selWrite
  exact .after (.after (State.tame_sgenUp _) (State.tame_norSlot _ _ _)) (.update (.refl _))

/-! ### Machine/Post -/

theorem State.tame_setFunc (s : State) (f : Nat) (v : Func) : Tame s (s.setFunc f v) := by
  unfold State.setFunc
  exact .update (.refl _)

theorem State.tame_setAssoc (s : State) (a : Nat) (v : Assoc) : Tame s (s.setAssoc a v) := by
  unfold State.setAssoc
  exact .update (.refl _)

theorem State.tame_setCtl (s : State) (t : Tenant) (v : Func) : Tame s (s.setCtl t v) := by
  unfold State.setCtl
  split
  · exact State.tame_setFunc _ _ _
  · exact State.tame_setAssoc _ _ _

theorem State.tame_tallyLat (s : State) (c : Ctx) : Tame s (s.tallyLat c) := by
  unfold State.tallyLat
  split
  · exact .refl _
  · exact .ite (fun _ => .update (.refl _)) fun _ => .refl _

theorem State.tame_sendMsix (s : State) (f : Nat) (v : Nat) : Tame s (s.sendMsix f v) := by
  unfold State.sendMsix
  exact .ite (fun _ => .ite (fun _ => .refl _) fun _ => .update (.refl _)) fun _ => .ite (fun _ => State.tame_raise _ _) fun _ =>
    State.tame_send _ _

theorem State.tame_coalSend (s : State) (f : Nat) (v : Nat) : Tame s (s.coalSend f v) := by
  unfold State.coalSend
  exact .after (State.tame_sendMsix _ _ _) (.update (.refl _))

theorem State.tame_interrupt (s : State) (f : Nat) (cqid : Nat) (v : Nat) : Tame s (s.interrupt f cqid v) := by
  unfold State.interrupt
  exact .ite (fun _ => State.tame_coalSend _ _ _) fun _ => .update (.refl _)

theorem State.tame_coalTick (s : State) : Tame s s.coalTick := by
  unfold State.coalTick
  exact .foldl (fun _ _ => .ite (fun _ => State.tame_coalSend _ _ _) fun _ => .refl _) _ _

theorem State.tame_putCqe (s : State) (f : Nat) (cqid : Nat) (q : Cq) (e : CqEntry) : Tame s (s.putCqe f cqid q e) := by
  unfold State.putCqe
  exact .after (.after (.ite (fun _ => State.tame_interrupt _ _ _ _) fun _ => .refl _) (State.tame_emitQuiet _ _))
    (State.tame_setFunc _ _ _)

theorem State.tame_postEntry (s : State) (f : Nat) (cqid : Nat) (e : CqEntry) : Tame s (s.postEntry f cqid e) := by
  unfold State.postEntry
  split
  · exact .refl _
  · exact .after (.ite (fun _ => State.tame_setFunc _ _ _) fun _ => State.tame_putCqe _ _ _ _ _) (State.tame_digest _ _ _)

theorem State.tame_drainCq (s : State) (f : Nat) (cqid : Nat) (a3 : Nat) : Tame s (s.drainCq f cqid a3) := by
  fun_induction s.drainCq f cqid a3
  · exact .refl _
  · exact .refl _
  · exact .refl _
  · exact .refl _
  · rename_i ih8
    exact .after ih8 (State.tame_putCqe _ _ _ _ _)

theorem State.tame_postCqe (s : State) (f : Nat) (c : Ctx) (r : Cpl) : Tame s (s.postCqe f c r) := by
  unfold State.postCqe
  split
  · exact .refl _
  · exact .after (State.tame_postEntry _ _ _ _) (State.tame_setFunc _ _ _)

theorem State.tame_postCapsule (s : State) (c : Ctx) (r : Cpl) : Tame s (s.postCapsule c r) := by
  unfold State.postCapsule
  split
  · exact .refl _
  · exact .after (.ite (fun _ => State.tame_digest _ _ _) fun _ => State.tame_emit _ _) (.update (.refl _))

theorem State.tame_errPut (s : State) (e : ErrEntry) : Tame s (s.errPut e) := by
  unfold State.errPut
  exact .update (.refl _)

theorem State.tame_logError (s : State) (c : Ctx) (r : Cpl) : Tame s (s.logError c r) := by
  unfold State.logError
  exact .ite (fun _ => .refl _) fun _ => State.tame_errPut _ _

theorem State.tame_release (s : State) (stamp : BitVec 64) : Tame s (s.release stamp) := by
  unfold State.release
  exact .update (.refl _)

theorem State.tame_setWait (s : State) (stamp : BitVec 64) (w : Wait) : Tame s (s.setWait stamp w) := by
  unfold State.setWait
  exact .update (.refl _)

theorem State.tame_finish (s : State) (c : Ctx) (r : Cpl) : Tame s (s.finish c r) := by
  unfold State.finish
  split
  · exact .refl _
  · extract_lets +onlyGivenNames s1
    have hs1 : Tame s s1 := .after (State.tame_logError _ _ _) (.after (State.tame_tallyLat _ _) (State.tame_release _ _))
    split
    · exact .after (State.tame_postCqe _ _ _ _) hs1
    · exact .after (State.tame_postCapsule _ _ _) hs1

theorem State.tame_unchargeAll (s : State) (stamp : BitVec 64) : Tame s (s.unchargeAll stamp) := by
  unfold State.unchargeAll
  exact .after (.update (.refl _)) (State.tame_put _ _ _ _)

theorem State.tame_postTo (typ : Nat) (info : Nat) (s : State) (t : Tenant) : Tame s (State.postTo typ info s t) := by
  unfold State.postTo
  extract_lets +onlyGivenNames c1
  split
  · exact .refl _
  · split
    · exact .after (State.tame_finish _ _ _) (State.tame_setCtl _ _ _)
    · exact .ite (fun _ => .refl _) fun _ => State.tame_setCtl _ _ _

theorem State.tame_event (s : State) (typ : Nat) (info : Nat) (bit : Option Nat) : Tame s (s.event typ info bit) := by
  unfold State.event
  exact .foldl (fun _ _ => .ite (fun _ => State.tame_postTo _ _ _ _) fun _ => .refl _) _ _

theorem State.tame_nsChanged (s : State) (l : List Nat) : Tame s (s.nsChanged l) := by
  unfold State.nsChanged
  exact .after (State.tame_event _ _ _ _) (.foldl (fun _ _ => State.tame_setCtl _ _ _) _ _)

theorem State.tame_vendor (s : State) (i : Nat) : Tame s (s.vendor i) := by
  unfold State.vendor
  exact State.tame_event _ _ _ _

theorem State.tame_giveHeld (s : State) (t : Tenant) : Tame s (s.giveHeld t) := by
  unfold State.giveHeld
  split
  · exact .refl _
  · exact .after (State.tame_postTo _ _ _ _) (State.tame_setCtl _ _ _)

theorem State.tame_critSet (s : State) (n : Nat) : Tame s (s.critSet n) := by
  unfold State.critSet
  exact .ite (fun _ => .refl _) fun _ => .after (State.tame_event _ _ _ _) (.update (.refl _))

theorem State.tame_critClear (s : State) (n : Nat) : Tame s (s.critClear n) := by
  unfold State.critClear
  exact .update (.refl _)

theorem State.tame_notice (s : State) (code : Nat) (param : Nat) (detail : Nat) : Tame s (s.notice code param detail) := by
  unfold State.notice
  exact .after (State.tame_vendor _ _) (.update (.refl _))

theorem State.tame_unmask (s : State) (t : Tenant) (page : Nat) : Tame s (s.unmask t page) := by
  unfold State.unmask
  exact State.tame_setCtl _ _ _

theorem State.tame_fail (s : State) (c : Ctx) (sct : Nat) (sc : Nat) : Tame s (s.fail c sct sc) := by
  unfold State.fail
  exact .after (State.tame_finish _ _ _) (State.tame_unchargeAll _ _)

theorem State.tame_succeed (s : State) (c : Ctx) (dw0 : BitVec 32) : Tame s (s.succeed c dw0) := by
  unfold State.succeed
  exact State.tame_finish _ _ _

theorem tame_withCtx (stamp : BitVec 64) (f : Ctx → State → State) (s : State) (hf : ∀ y0 u, Tame u (f y0 u)) : Tame s
    (withCtx stamp f s) := by
  unfold withCtx
  split
  · exact .ite (fun _ => hf _ _) fun _ => .refl _
  · exact .refl _

/-! ### Machine/Task -/

theorem State.tame_runTask (s : State) (t : Nat) (p : Nat) (dur : Nat) : Tame s (s.runTask t p dur) := by
  unfold State.runTask
  exact .after (.after (.ite (fun _ => .after (State.tame_raise _ _) (State.tame_bump _ _ _ _)) fun _ => .refl _) (State.tame_put _ _ _ _))
    (.update (.refl _))

/-! ### Machine/Tally -/

theorem State.tame_tallyBegin (s : State) : Tame s s.tallyBegin := by
  unfold State.tallyBegin
  exact .update (.refl _)

theorem State.tame_tallySample (s : State) (ts : List Int) : Tame s (s.tallySample ts) := by
  unfold State.tallySample
  exact .ite (fun _ => .update (.refl _)) fun _ => .refl _

theorem State.tame_tallyLag (s : State) (us : Nat) : Tame s (s.tallyLag us) := by
  unfold State.tallyLag
  exact .ite (fun _ => .update (.refl _)) fun _ => .refl _

theorem State.tame_tallyWrite (s : State) : Tame s s.tallyWrite := by
  unfold State.tallyWrite
  split
  · exact .refl _
  · exact .ite (fun _ => .refl _) fun _ => .after (.ite (fun _ => .refl _) fun _ => .after
      (.after (.ite (fun _ => .after (State.tame_raise _ _) (State.tame_put _ _ _ _)) fun _ => .refl _)
      (.ite (fun _ => .after (State.tame_raise _ _) (State.tame_bump _ _ _ _)) fun _ => State.tame_raise _ _))
      (.after (State.tame_put _ _ _ _) (State.tame_norWords _ _ _ _ _))) (.after (State.tame_put _ _ _ _) (.update (.refl _)))

theorem State.tame_tallyClose (s : State) (flags : Nat) : Tame s (s.tallyClose flags) := by
  unfold State.tallyClose
  exact .after (.after (State.tame_raise _ _) (.after (State.tame_tallyBegin _) (.update (.refl _)))) (State.tame_tallyWrite _)

theorem State.tame_tallyEnd (s : State) (flags : Nat) : Tame s (s.tallyEnd flags) := by
  unfold State.tallyEnd
  exact .ite (fun _ => .refl _) fun _ => .ite (fun _ => .update (.refl _)) fun _ => State.tame_tallyClose _ _

theorem State.tame_tallyRelease (s : State) (flags : Nat) : Tame s (s.tallyRelease flags) := by
  unfold State.tallyRelease
  exact .ite (fun _ => .refl _) fun _ => .after (.ite (fun _ => .after (State.tame_tallyClose _ _) (.update (.refl _))) fun _ => .refl _)
    (.ite (fun _ => State.tame_tallyWrite _) fun _ => .refl _)

theorem State.tame_tallyThaw (s : State) : Tame s s.tallyThaw := by
  unfold State.tallyThaw
  exact .after (State.tame_tallyRelease _ _) (State.tame_put _ _ _ _)

theorem answers_execTallyIntervalEnd (durUs : Nat) (s : State) : Answers s (execTallyIntervalEnd durUs s) := by
  unfold execTallyIntervalEnd
  exact .awake (.next (.ite (fun _ => .refl _) fun _ => .after (State.tame_tallyEnd _ _) (State.tame_runTask _ _ _ _)))

theorem answers_execPeDone (s : State) : Answers s (execPeDone s) := by
  unfold execPeDone
  exact .awake (.next (.after (State.tame_tallyWrite _) (State.tame_put _ _ _ _)))

theorem answers_execPeDoneTimeout (s : State) : Answers s (execPeDoneTimeout s) := by
  unfold execPeDoneTimeout
  exact .awake (.next (.ite (fun _ => .refl _) fun _ => .after (State.tame_tallyWrite _) (.update (.refl _))))

theorem answers_execTallyFreezeLapse (s : State) : Answers s (execTallyFreezeLapse s) := by
  unfold execTallyFreezeLapse
  exact .awake (.next (.ite (fun _ => .after (State.tame_raise _ _) (State.tame_tallyThaw _)) fun _ => .refl _))

theorem answers_execTallyClearComplete (s : State) : Answers s (execTallyClearComplete s) := by
  unfold execTallyClearComplete
  exact .awake (.next (.ite (fun _ => .refl _) fun _ => .after (.after (.after (.after (State.tame_raise _ _) (State.tame_tallyRelease _ _))
    (.ite (fun _ => .refl _) fun _ => State.tame_tallyBegin _)) (.after (State.tame_put _ _ _ _) (.after (State.tame_put _ _ _ _)
    (State.tame_put _ _ _ _)))) (State.tame_norErase _ _)))

theorem State.tame_winLoad (s : State) : Tame s s.winLoad := by
  unfold State.winLoad
  exact .ite (fun _ => .refl _) fun _ => .after (State.tame_put _ _ _ _) (.update (.refl _))

theorem answers_execTallyWindowSelect (val : BitVec 32) (s : State) : Answers s (execTallyWindowSelect val s) := by
  unfold execTallyWindowSelect
  exact .awake (.next (.after (State.tame_winLoad _) (.after (State.tame_put _ _ _ _) (.after (State.tame_put _ _ _ _)
    (State.tame_put _ _ _ _)))))

theorem answers_execTallyWindowRead (k : Fin 64) (s : State) : Answers s (execTallyWindowRead k s) := by
  unfold execTallyWindowRead
  refine .awake ?_
  extract_lets +onlyGivenNames c1 v2 s3
  have hs3 : Tame s s3 := State.tame_send _ _
  exact .next
    (.ite (fun _ => .ite (fun _ => .after (State.tame_winLoad _) (.after (State.tame_put _ _ _ _)
    (.after (State.tame_put _ _ _ _) hs3))) fun _ => .after (State.tame_put _ _ _ _) hs3) fun _ => hs3)

theorem State.tame_pmcRead (s : State) (x : Nat) (k : Nat) : Tame s (s.pmcRead x k).1 := by
  unfold State.pmcRead
  exact .update (.refl _)

theorem answers_execPmcCounterRead (x : Fin 53) (k : Fin 8) (s : State) : Answers s (execPmcCounterRead x k s) := by
  unfold execPmcCounterRead
  exact .awake (.next (.after (State.tame_send _ _) (State.tame_pmcRead _ _ _)))

theorem answers_execCounterOverflow (x : Fin 53) (k : Fin 8) (s : State) : Answers s (execCounterOverflow x k s) := by
  unfold execCounterOverflow
  exact .awake (.next (.ite (fun _ => .refl _) fun _ => .after (State.tame_pmcWrap _ _ _ _) (State.tame_put _ _ _ _)))

/-! ### Machine/Map -/

theorem State.tame_setNs (s : State) (nsid : Nat) (n : Ns) : Tame s (s.setNs nsid n) := by
  unfold State.setNs
  exact .update (.refl _)

theorem State.tame_logAdd (s : State) (r : SysRec) : Tame s (s.logAdd r) := by
  unfold State.logAdd
  exact .update (.refl _)

theorem State.tame_healthNote (s : State) : Tame s s.healthNote := by
  unfold State.healthNote
  exact .ite (fun _ => .refl _) fun _ => .after (State.tame_logAdd _ _) (.update (.refl _))

theorem State.tame_physCheck (s : State) : Tame s s.physCheck := by
  unfold State.physCheck
  exact .ite (fun _ => .refl _) fun _ => .ite (fun _ => .ite (fun _ => .after (State.tame_healthNote _) (.update (.refl _))) fun _ =>
    .refl _) fun _ => .ite (fun _ => .after (State.tame_healthNote _) (.after (State.tame_vendor _ _) (.update (.refl _)))) fun _ => .refl _

theorem State.tame_liveAdd (s : State) (nsid : Nat) (add : Nat) (sub : Nat) : Tame s (s.liveAdd nsid add sub) := by
  unfold State.liveAdd
  extract_lets +onlyGivenNames s1
  have hs1 : Tame s s1 := State.tame_put _ _ _ _
  extract_lets +onlyGivenNames s2
  have hs2 : Tame s s2 := by
    unfold s2
    split
    · exact .after (State.tame_setNs _ _ _) hs1
    · exact hs1
  exact .after (State.tame_physCheck _) hs2

theorem State.tame_uncharge (s : State) (stamp : BitVec 64) (nsid : Nat) (bale : Nat) : Tame s (s.uncharge stamp nsid bale) := by
  unfold State.uncharge
  exact .after (.update (.refl _)) (State.tame_put _ _ _ _)

theorem State.tame_setCb (s : State) (id : Nat) (c : Cb) : Tame s (s.setCb id c) := by
  unfold State.setCb
  exact .update (.refl _)

theorem State.tame_grainsLive (s : State) (gaddr : Nat) (len : Nat) : Tame s (s.grainsLive gaddr len) := by
  unfold State.grainsLive
  exact .ite (fun _ => .refl _) fun _ => State.tame_setCb _ _ _

theorem State.tame_grainsFree (s : State) (gaddr : Nat) (len : Nat) : Tame s (s.grainsFree gaddr len) := by
  unfold State.grainsFree
  exact .ite (fun _ => .refl _) fun _ => .after (.update (.refl _)) (State.tame_setCb _ _ _)

theorem State.tame_closeJournal (s : State) : Tame s s.closeJournal := by
  unfold State.closeJournal
  exact .ite (fun _ => .refl _) fun _ => .after (State.tame_logAdd _ _) (.update (.refl _))

theorem State.tame_journal (s : State) (typ : Nat) (blk : Nat) (nsidx : Nat) (inst : BitVec 32) (key : Nat) (value : BitVec 64) : Tame s
    (s.journal typ blk nsidx inst key value) := by
  unfold State.journal
  exact .after (.ite (fun _ => State.tame_closeJournal _) fun _ => .refl _) (.update (.refl _))

theorem State.tame_replayRec (s : State) (r : JRec) : Tame s (s.replayRec r) := by
  unfold State.replayRec
  exact .ite (fun _ => .refl _) fun _ => .update (.refl _)

theorem State.tame_jblockDone (s : State) (first : Nat) : Tame s (s.jblockDone first) := by
  unfold State.jblockDone
  exact .update (.refl _)

theorem State.tame_repin (s : State) : Tame s s.repin := by
  unfold State.repin
  exact .update (.refl _)

theorem State.tame_install (s : State) (mpn : Nat) : Tame s (s.install mpn) := by
  unfold State.install
  exact .after (.update (.refl _)) (State.tame_repin _)

theorem State.tame_touch (s : State) (mpn : Nat) (dirty : Bool) : Tame s (s.touch mpn dirty) := by
  unfold State.touch
  exact .update (.refl _)

theorem State.tame_usePage (s : State) (mpn : Nat) (dirty : Bool) : Tame s (s.usePage mpn dirty) := by
  unfold State.usePage
  exact .after (State.tame_touch _ _ _) (.ite (fun _ => .refl _) fun _ => State.tame_install _ _)

theorem State.tame_missCount (s : State) : Tame s s.missCount := by
  unfold State.missCount
  exact .after (State.tame_pmc _ _ _ _) (State.tame_setReg _ _ _ _)

theorem State.tame_startMiss (s : State) (mpn : Nat) : Tame s (s.startMiss mpn) := by
  unfold State.startMiss
  exact .ite (fun _ => .refl _) fun _ => .after (.update (.refl _)) (State.tame_missCount _)

theorem State.tame_missPage (s : State) (mpn : Nat) (r : MapReq) : Tame s (s.missPage mpn r) := by
  unfold State.missPage
  exact .after (.update (.refl _)) (State.tame_startMiss _ _)

theorem State.tame_updPage (s : State) (mpn : Nat) : Tame s (s.updPage mpn) := by
  unfold State.updPage
  exact .ite (fun _ => State.tame_usePage _ _ _) fun _ => State.tame_startMiss _ _

theorem State.tame_occUpdate (s : State) : Tame s s.occUpdate := by
  unfold State.occUpdate
  exact .after (.ite (fun _ => State.tame_put _ _ _ _) fun _ => .ite (fun _ => State.tame_put _ _ _ _) fun _ => .refl _)
    (.after (State.tame_put _ _ _ _) (State.tame_put _ _ _ _))

theorem State.tame_queueRepack (s : State) (nsid : Nat) (bale : Nat) : Tame s (s.queueRepack nsid bale) := by
  unfold State.queueRepack
  exact .ite (fun _ => .refl _) fun _ => .update (.refl _)

theorem State.tame_unqueueRepack (s : State) (nsid : Nat) (bale : Nat) : Tame s (s.unqueueRepack nsid bale) := by
  unfold State.unqueueRepack
  exact .ite (fun _ => .refl _) fun _ => .update (.refl _)

theorem State.tame_repackCheck (s : State) (nsid : Nat) (bale : Nat) : Tame s (s.repackCheck nsid bale) := by
  unfold State.repackCheck
  exact .ite (fun _ => .foldl (fun _ _ => State.tame_queueRepack _ _ _) _ _) fun _ => .ite (fun _ => State.tame_queueRepack _ _ _) fun _ =>
    .refl _

theorem State.tame_noteCommit (s : State) (nsid : Nat) (bale : Nat) (blk : Nat) (stamp : BitVec 64) : Tame s
    (s.noteCommit nsid bale blk stamp) := by
  unfold State.noteCommit
  exact .ite (fun _ => .update (.refl _)) fun _ => .refl _

theorem State.tame_unstage (s : State) (nsid : Nat) (bale : Nat) (blk : Nat) (stamp : BitVec 64) : Tame s
    (s.unstage nsid bale blk stamp) := by
  unfold State.unstage
  exact .after (State.tame_repin _) (.update (.refl _))

theorem State.tame_freeEntry (s : State) (nsid : Nat) (mpn : Nat) (gaddr : Nat) (len : Nat) : Tame s (s.freeEntry nsid mpn gaddr len) := by
  unfold State.freeEntry
  exact .ite (fun _ => .refl _) fun _ => .ite (fun _ => .after (State.tame_grainsFree _ _ _) (State.tame_liveAdd _ _ _ _)) fun _ => .after
    (.update (.refl _)) (State.tame_startMiss _ _)

theorem State.tame_dropPatch (s : State) (nsid : Nat) (bale : Nat) (blk : Nat) : Tame s (s.dropPatch nsid bale blk) := by
  unfold State.dropPatch
  split
  · exact .refl _
  · exact .after (.after (State.tame_grainsFree _ _ _) (State.tame_liveAdd _ _ _ _)) (.update (.refl _))

theorem State.tame_removePatch (s : State) (nsid : Nat) (bale : Nat) (blk : Nat) : Tame s (s.removePatch nsid bale blk) := by
  unfold State.removePatch
  split
  · exact .refl _
  · exact .after (State.tame_dropPatch _ _ _ _) (State.tame_journal _ _ _ _ _ _ _)

theorem State.tame_putEntry (s : State) (nsid : Nat) (bale : Nat) (e : BitVec 64) : Tame s (s.putEntry nsid bale e) := by
  unfold State.putEntry
  exact .after (.after (.after (State.tame_updPage _ _) (State.tame_journal _ _ _ _ _ _ _)) (.ite (fun _ => .refl _) fun _ => .after
    (State.tame_grainsLive _ _ _) (.after (State.tame_liveAdd _ _ _ _) (State.tame_freeEntry _ _ _ _ _)))) (.update (.refl _))

theorem State.tame_putPatch (s : State) (nsid : Nat) (bale : Nat) (blk : Nat) (v : BitVec 64) : Tame s (s.putPatch nsid bale blk v) := by
  unfold State.putPatch
  exact .after (.after (.after (.after (State.tame_putEntry _ _ _ _) (State.tame_journal _ _ _ _ _ _ _))
    (.after (State.tame_grainsLive _ _ _) (State.tame_liveAdd _ _ _ _))) (.update (.refl _))) (State.tame_dropPatch _ _ _ _)

theorem State.tame_wholeCommit (s : State) (nsid : Nat) (bale : Nat) (e : BitVec 64) (stamp : BitVec 64) : Tame s
    (s.wholeCommit nsid bale e stamp).1 := by
  unfold State.wholeCommit
  extract_lets +onlyGivenNames blks1 stale2 fresh3
  split
  · exact .after (.foldl (fun _ _ => State.tame_unstage _ _ _ _ _) _ _) (State.tame_uncharge _ _ _ _)
  · split
    · exact .foldl (fun _ _ => State.tame_unstage _ _ _ _ _) _ _
    · exact .after (.after (.after (State.tame_occUpdate _) (State.tame_putEntry _ _ _ _))
        (.foldl (fun _ _ => .after (State.tame_noteCommit _ _ _ _ _) (State.tame_removePatch _ _ _ _)) _ _))
        (.after (.foldl (fun _ _ => State.tame_unstage _ _ _ _ _) _ _) (State.tame_uncharge _ _ _ _))

theorem State.tame_mergeCommit (s : State) (nsid : Nat) (bale : Nat) (e : BitVec 64) (expect : BitVec 64) (snap : List (Nat × BitVec 64))
    (mine : List Nat) (stamp : BitVec 64) : Tame s (s.mergeCommit nsid bale e expect snap mine stamp).1 := by
  unfold State.mergeCommit
  extract_lets +onlyGivenNames stale1 fresh2 others3 same4
  split
  · exact .after (.foldl (fun _ _ => State.tame_unstage _ _ _ _ _) _ _) (State.tame_uncharge _ _ _ _)
  · split
    · exact .foldl (fun _ _ => State.tame_unstage _ _ _ _ _) _ _
    · exact .after (.after (.after (.after (State.tame_occUpdate _) (State.tame_putEntry _ _ _ _))
        (.foldl (fun _ _ => State.tame_removePatch _ _ _ _) _ _)) (.foldl (fun _ _ => .after (State.tame_noteCommit _ _ _ _ _)
        (State.tame_removePatch _ _ _ _)) _ _)) (.after (.foldl (fun _ _ => State.tame_unstage _ _ _ _ _) _ _)
        (State.tame_uncharge _ _ _ _))

theorem State.tame_patchCommit (s : State) (nsid : Nat) (bale : Nat) (blk : Nat) (v : BitVec 64) (stamp : BitVec 64) : Tame s
    (s.patchCommit nsid bale blk v stamp).1 := by
  unfold State.patchCommit
  extract_lets +onlyGivenNames s1
  have hs1 : Tame s s1 := .after (State.tame_unstage _ _ _ _ _) (State.tame_uncharge _ _ _ _)
  split
  · exact hs1
  · exact .after (.after (State.tame_repackCheck _ _ _) (.after (State.tame_pmc _ _ _ _) (State.tame_occUpdate _)))
      (.after (State.tame_putPatch _ _ _ _ _) (.after (State.tame_noteCommit _ _ _ _ _) hs1))

theorem State.tame_condCommit (s : State) (repack : Bool) (nsid : Nat) (bale : Nat) (e : BitVec 64) (expect : BitVec 64)
    (snap : List (Nat × BitVec 64)) : Tame s (s.condCommit repack nsid bale e expect snap).1 := by
  unfold State.condCommit
  extract_lets +onlyGivenNames cur1
  split
  · exact .refl _
  · exact .after (.after (.after (State.tame_occUpdate _) (State.tame_putEntry _ _ _ _)) (.ite (fun _ => .update (.refl _)) fun _ =>
      .refl _)) (.foldl (fun _ _ => State.tame_removePatch _ _ _ _) _ _)

theorem State.tame_zeroBale (s : State) (nsid : Nat) (bale : Nat) (first : Nat) (n : Nat) (stamp : BitVec 64) : Tame s
    (s.zeroBale nsid bale first n stamp) := by
  unfold State.zeroBale
  split
  · exact .refl _
  · exact .ite (fun _ => State.tame_wholeCommit _ _ _ _ _) fun _ => .foldl (fun _ _ => State.tame_patchCommit _ _ _ _ _ _) _ _

theorem State.tame_rejournal (s : State) (nsid : Nat) (bale : Nat) : Tame s (s.rejournal nsid bale) := by
  unfold State.rejournal
  exact .foldl (fun _ _ => State.tame_journal _ _ _ _ _ _ _) _ _

theorem State.tame_dropBale (nsid : Nat) (stamp : BitVec 64) (s : State) (bale : Nat) : Tame s (State.dropBale nsid stamp s bale) := by
  unfold State.dropBale
  exact .ite (fun _ => .after (.after (.update (.refl _)) (State.tame_freeEntry _ _ _ _ _))
    (.foldl (fun _ _ => State.tame_dropPatch _ _ _ _) _ _)) fun _ => .after (.after (State.tame_rejournal _ _ _)
    (State.tame_putEntry _ _ _ _)) (.foldl (fun _ _ => State.tame_patchCommit _ _ _ _ _ _) _ _)

theorem State.tame_dropPage (s : State) (nsid : Nat) (page : Nat) (stamp : BitVec 64) : Tame s (s.dropPage nsid page stamp) := by
  unfold State.dropPage
  exact .after (.after (.after (.after (State.tame_occUpdate _) (.update (.refl _))) (.foldl (fun _ _ => State.tame_dropBale _ _ _ _) _ _))
    (.update (.refl _))) (State.tame_journal _ _ _ _ _ _ _)

theorem State.tame_zeroSpan (s : State) (nsid : Nat) (bpb : Nat) (stamp : BitVec 64) (a4 : Nat) (a5 : Nat) (a6 : Nat) : Tame s
    (s.zeroSpan nsid bpb stamp a4 a5 a6) := by
  fun_induction s.zeroSpan nsid bpb stamp a4 a5 a6
  · exact .refl _
  · exact .refl _
  · rename_i ih7
    exact .after ih7 (State.tame_zeroBale _ _ _ _ _ _)

theorem State.tame_zeroRange (s : State) (nsid : Nat) (lba : Nat) (n : Nat) (stamp : BitVec 64) : Tame s
    (s.zeroRange nsid lba n stamp) := by
  unfold State.zeroRange
  split
  · exact .refl _
  · exact .ite (fun _ => .after (.after (State.tame_zeroSpan _ _ _ _ _ _ _) (.foldl (fun _ _ => State.tame_dropPage _ _ _ _) _ _))
      (State.tame_zeroSpan _ _ _ _ _ _ _)) fun _ => State.tame_zeroSpan _ _ _ _ _ _ _

theorem State.tame_mapEnd (s : State) (r : MapReq) (status : Nat) (result : BitVec 64) (force : Bool) : Tame s
    (s.mapEnd r status result force) := by
  unfold State.mapEnd
  exact .after (State.tame_complete _ _) (.after (State.tame_pmc _ _ _ _) (State.tame_pmc _ _ _ _))

theorem tame_mapLookup (r : MapReq) (s : State) : Tame s (mapLookup r s) := by
  unfold mapLookup
  exact .after (.ite (fun _ => .after (.after (State.tame_mapEnd _ _ _ _ _) (State.tame_drawn _)) (.update (.refl _))) fun _ =>
    State.tame_mapEnd _ _ _ _ _) (.after (State.tame_pmc _ _ _ _) (State.tame_usePage _ _ _))

theorem tame_endCommit (r : MapReq) (x : State × Bool) : Tame x.1 (endCommit r x) := by
  unfold endCommit
  exact State.tame_mapEnd _ _ _ _ _

theorem tame_mapEntryCommit (r : MapReq) (s : State) : Tame s (mapEntryCommit r s) := by
  unfold mapEntryCommit
  exact .ite (fun _ => .after (tame_endCommit _ _) (.after (State.tame_wholeCommit _ _ _ _ _) (State.tame_usePage _ _ _))) fun _ =>
    State.tame_mapEnd _ _ _ _ _

theorem tame_mapPatchCommit (r : MapReq) (s : State) : Tame s (mapPatchCommit r s) := by
  unfold mapPatchCommit
  exact .ite (fun _ => State.tame_mapEnd _ _ _ _ _) fun _ => .ite (fun _ => State.tame_mapEnd _ _ _ _ _) fun _ => .after
    (tame_endCommit _ _) (.after (State.tame_patchCommit _ _ _ _ _ _) (State.tame_usePage _ _ _))

theorem tame_mapZeroSpan (r : MapReq) (s : State) : Tame s (mapZeroSpan r s) := by
  unfold mapZeroSpan
  exact .after (.after (tame_endCommit _ _) (State.tame_zeroSpan _ _ _ _ _ _ _)) (State.tame_usePage _ _ _)

theorem tame_mapCondCommit (r : MapReq) (s : State) : Tame s (mapCondCommit r s) := by
  unfold mapCondCommit
  exact .ite (fun _ => .after (tame_endCommit _ _) (.after (State.tame_condCommit _ _ _ _ _ _ _) (State.tame_usePage _ _ _))) fun _ =>
    State.tame_mapEnd _ _ _ _ _

theorem tame_mapPageDrop (r : MapReq) (s : State) : Tame s (mapPageDrop r s) := by
  unfold mapPageDrop
  exact .ite (fun _ => State.tame_mapEnd _ _ _ _ _) fun _ => .after (State.tame_mapEnd _ _ _ _ _) (State.tame_dropPage _ _ _ _)

theorem State.tame_ckptAdd (s : State) (u : CkUnit) : Tame s (s.ckptAdd u) := by
  unfold State.ckptAdd
  exact .update (.refl _)

theorem State.tame_storePage (round : Bool) (s : State) (mpn : Nat) : Tame s (State.storePage round s mpn) := by
  unfold State.storePage
  exact State.tame_ckptAdd _ _

theorem tame_mapPageWriteBack (r : MapReq) (s : State) : Tame s (mapPageWriteBack r s) := by
  unfold mapPageWriteBack
  exact .ite (fun _ => .after (.update (.refl _)) (State.tame_storePage _ _ _)) fun _ => State.tame_mapEnd _ _ _ _ _

theorem tame_mapServe (r : MapReq) (s : State) : Tame s (mapServe r s) := by
  unfold mapServe
  split
  · exact tame_mapLookup _ _
  · exact tame_mapEntryCommit _ _
  · exact tame_mapPatchCommit _ _
  · exact tame_mapZeroSpan _ _
  · exact tame_mapCondCommit _ _
  · exact tame_mapPageDrop _ _
  · exact tame_mapPageWriteBack _ _

theorem State.tame_mapRun (s : State) (r : MapReq) (here : Bool) : Tame s (s.mapRun r here) := by
  unfold State.mapRun
  exact .ite (fun _ => State.tame_mapEnd _ _ _ _ _) fun _ => .ite (fun _ => State.tame_missPage _ _ _) fun _ => .ite
    (fun _ => .update (.refl _)) fun _ => tame_mapServe _ _

theorem State.tame_mapHeld (s : State) : Tame s s.mapHeld := by
  unfold State.mapHeld
  exact .after (.foldl (fun _ _ => State.tame_mapRun _ _ _) _ _) (.update (.refl _))

theorem tame_mapTake (op : Nat) (q : Nat) (d : MapDesc) (s : State) : Tame s (mapTake op q d s) := by
  unfold mapTake
  exact .ite (fun _ => State.tame_gateKeep _ _) fun _ => .ite (fun _ => .after (.after (State.tame_mapRun _ _ _) (State.tame_put _ _ _ _))
    (.after (State.tame_pmc _ _ _ _) (State.tame_put _ _ _ _))) fun _ => .refl _

theorem State.tame_freeWaiting (s : State) (mpn : Nat) : Tame s (s.freeWaiting mpn) := by
  unfold State.freeWaiting
  exact .after (.foldl (fun _ _ => .after (State.tame_grainsFree _ _ _) (State.tame_liveAdd _ _ _ _)) _ _) (.update (.refl _))

theorem tame_mapPageFilled (mpn : Nat) (s : State) : Tame s (mapPageFilled mpn s) := by
  unfold mapPageFilled
  exact .after (.after (.after (.foldl (fun _ _ => State.tame_mapRun _ _ _) _ _) (State.tame_freeWaiting _ _))
    (.ite (fun _ => .after (State.tame_touch _ _ _) (State.tame_install _ _)) fun _ => .refl _)) (.update (.refl _))

theorem State.tame_releaseJournal (s : State) (oldest : Nat) : Tame s (s.releaseJournal oldest) := by
  unfold State.releaseJournal
  exact .after (.update (.refl _)) (.foldl (fun _ _ => State.tame_setCb _ _ _) _ _)

theorem State.tame_dropStored (s : State) (mark : Nat) : Tame s (s.dropStored mark) := by
  unfold State.dropStored
  exact .after (.update (.refl _)) (.foldl (fun _ _ => State.tame_grainsFree _ _ _) _ _)

theorem State.tame_roundGo (s : State) : Tame s s.roundGo := by
  unfold State.roundGo
  split
  · exact .refl _
  · exact .ite (fun _ => .refl _) fun _ => .after (.after (.after (.after (State.tame_releaseJournal _ _) (State.tame_dropStored _ _))
      (State.tame_journal _ _ _ _ _ _ _)) (.update (.refl _))) (.foldl (fun _ _ => State.tame_grainsFree _ _ _) _ _)

theorem State.tame_pageStored (s : State) (mpn : Nat) (c : Ckpt) : Tame s (s.pageStored mpn c) := by
  unfold State.pageStored
  split
  · exact State.tame_grainsFree _ _ _
  · extract_lets +onlyGivenNames s1
    have hs1 : Tame s s1 := by
      unfold s1
      split
      · exact State.tame_grainsFree _ _ _
      · exact .refl _
    exact .after (.after (.foldl (fun _ _ => State.tame_mapEnd _ _ _ _ _) _ _) (.update (.refl _))) (.update hs1)

theorem State.tame_unitStored (s : State) (u : CkUnit) : Tame s (s.unitStored u) := by
  unfold State.unitStored
  split
  · exact State.tame_pageStored _ _ _
  · split
    · exact .update (.refl _)
    · exact State.tame_grainsFree _ _ _

theorem State.tame_unitsDone (s : State) (cbid : Nat) (page : Nat) : Tame s (s.unitsDone cbid page) := by
  unfold State.unitsDone
  exact .after (.after (State.tame_roundGo _) (.foldl (fun _ _ => State.tame_unitStored _ _) _ _)) (.update (.refl _))

theorem State.tame_kstat (s : State) : Tame s s.kstat := by
  unfold State.kstat
  exact .after (.after (.after (State.tame_put _ _ _ _) (State.tame_put _ _ _ _)) (State.tame_put _ _ _ _)) (State.tame_put _ _ _ _)

theorem State.tame_setKslot (s : State) (n : Nat) (k : KeySlot) : Tame s (s.setKslot n k) := by
  unfold State.setKslot
  exact .after (State.tame_kstat _) (.update (.refl _))

theorem State.tame_rsvAdd (s : State) (ns : Ns) (add : Nat) (sub : Nat) : Tame s (s.rsvAdd ns add sub) := by
  unfold State.rsvAdd
  exact .ite (fun _ => State.tame_setKslot _ _ _) fun _ => .refl _

theorem State.tame_giveBack (s : State) (c : Ctx) : Tame s (s.giveBack c) := by
  unfold State.giveBack
  extract_lets +onlyGivenNames s1
  have hs1 : Tame s s1 := State.tame_unchargeAll _ _
  split
  · split
    · exact .after (State.tame_rsvAdd _ _ _ _) hs1
    · exact hs1
  · exact hs1

theorem State.tame_pageLost (s : State) (page : Nat) : Tame s (s.pageLost page) := by
  unfold State.pageLost
  exact .ite (fun _ => .refl _) fun _ => .foldl (fun _ _ => .after (State.tame_fail _ _ _ _) (State.tame_giveBack _ _)) _ _

theorem State.tame_engFetch (s : State) (a1 : List (Nat × Nat)) : Tame s (s.engFetch a1).1 := by
  fun_induction s.engFetch a1
  · exact .refl _
  · exact .refl _
  · exact .after (State.tame_pageLost _ _) (State.tame_hbcReadRun _ _ _)
  · rename_i ih6
    exact .after ih6 (State.tame_hbcReadRun _ _ _)

/-! ### Machine/PackCmd -/

theorem State.tame_showPack (s : State) (n : Nat) : Tame s (s.showPack n) := by
  unfold State.showPack
  exact State.tame_put _ _ _ _

theorem State.tame_outstUpdate (s : State) (n : Nat) : Tame s (s.outstUpdate n) := by
  unfold State.outstUpdate
  exact State.tame_put _ _ _ _

theorem State.tame_packIssue (s : State) (n : Nat) (use : PkUse) (c : PackCmd) : Tame s (s.packIssue n use c) := by
  unfold State.packIssue
  exact .after (.after (.after (State.tame_emit _ _) (.after (State.tame_pmc _ _ _ _) (State.tame_pmc _ _ _ _)))
    (.after (State.tame_outstUpdate _ _) (State.tame_setPk _ _ _))) (State.tame_put _ _ _ _)

theorem State.tame_wakePack (s : State) (k : Nat) : Tame s (s.wakePack k) := by
  unfold State.wakePack
  exact .ite (fun _ => State.tame_packIssue _ _ _ _) fun _ => .ite (fun _ => .after (State.tame_train _ _)
    (State.tame_put _ _ _ _)) fun _ => .refl _

theorem State.tame_wakeGroup (s : State) (g : Nat) : Tame s (s.wakeGroup g) := by
  unfold State.wakeGroup
  exact .after (.ite (fun _ => .refl _) fun _ => .after (State.tame_raise _ _) (.update (.refl _)))
    (.foldl (fun _ _ => State.tame_wakePack _ _) _ _)

theorem State.tame_packSend (s : State) (n : Nat) (use : PkUse) (c : PackCmd) : Tame s (s.packSend n use c) := by
  unfold State.packSend
  exact .ite (fun _ => .refl _) fun _ => .after (.ite (fun _ => State.tame_setPk _ _ _) fun _ => State.tame_packIssue _ _ _ _)
    (.ite (fun _ => State.tame_wakeGroup _ _) fun _ => .refl _)

theorem State.tame_packRelease (s : State) (n : Nat) : Tame s (s.packRelease n) := by
  unfold State.packRelease
  exact .after (.foldl (fun _ _ => State.tame_packSend _ _ _ _) _ _) (State.tame_setPk _ _ _)

theorem State.tame_logPage (s : State) (use : PkUse) (n : Nat) (l : List SysRec) : Tame s (s.logPage use n l) := by
  unfold State.logPage
  split
  · exact .after (State.tame_packSend _ _ _ _) (.update (.refl _))
  · exact .refl _

theorem State.tame_logCopy (s : State) (lseq : Nat) (n : Nat) : Tame s (s.logCopy lseq n) := by
  unfold State.logCopy
  exact State.tame_logPage _ _ _ _

theorem State.tame_logGo (s : State) : Tame s s.logGo := by
  unfold State.logGo
  exact .ite (fun _ => .refl _) fun _ => .after (.foldl (fun _ _ => .foldl (fun _ _ => State.tame_logCopy _ _ _) _ _) _ _)
    (.update (.refl _))

theorem State.tame_logSys (s : State) (r : SysRec) : Tame s (s.logSys r) := by
  unfold State.logSys
  exact .after (State.tame_logGo _) (State.tame_logAdd _ _)

theorem State.tame_eraseGo (s : State) : Tame s s.eraseGo := by
  unfold State.eraseGo
  exact .ite (fun _ => .refl _) fun _ => .after (.foldl (fun _ _ => State.tame_packSend _ _ _ _) _ _) (.update (.refl _))

theorem State.tame_logAck (s : State) (lseq : Nat) (n : Nat) (ok : Bool) : Tame s (s.logAck lseq n ok) := by
  unfold State.logAck
  exact .ite (fun _ => State.tame_logCopy _ _ _) fun _ => .after (State.tame_eraseGo _) (.update (.refl _))

theorem State.tame_logJoin (s : State) (n : Nat) : Tame s (s.logJoin n) := by
  unfold State.logJoin
  exact .ite (fun _ => .refl _) fun _ => .after (.foldl (fun _ _ => State.tame_logPage _ _ _ _) _ _) (.update (.refl _))

theorem State.tame_logLost (s : State) (n : Nat) : Tame s (s.logLost n) := by
  unfold State.logLost
  split
  · exact .refl _
  · extract_lets +onlyGivenNames mine1 s2 s3
    have hs3 : Tame s s3 := .update (.refl _)
    extract_lets +onlyGivenNames s4 s5
    have hs5 : Tame s s5 := by
      unfold s5
      split
      · exact hs3
      · exact .after (.after (.foldl (fun _ _ => State.tame_logCopy _ _ _) _ _) (.update (.refl _))) (.after (State.tame_logJoin _ _) hs3)
    exact .after (State.tame_eraseGo _) (.update hs5)

theorem State.tame_healthSave (s : State) : Tame s s.healthSave := by
  unfold State.healthSave
  exact .after (State.tame_logGo _) (State.tame_healthNote _)

theorem State.tame_roJudge (s : State) : Tame s s.roJudge := by
  unfold State.roJudge
  exact .ite (fun _ => .refl _) fun _ => .after (.after (State.tame_healthSave _)
    (.ite (fun _ => .after (State.tame_critSet _ _) (.after (State.tame_nsChanged _ _) (.update (.refl _)))) fun _ => .ite
    (fun _ => .after (State.tame_critClear _ _) (.update (.refl _))) fun _ => .refl _)) (.ite (fun _ => .update (.refl _)) fun _ => .refl _)

theorem State.tame_resJudge (s : State) (k : Nat) : Tame s (s.resJudge k) := by
  unfold State.resJudge
  exact .ite (fun _ => .refl _) fun _ => .after
    (.after (.ite (fun _ => .ite (fun _ => State.tame_critSet _ _) fun _ => State.tame_critClear _ _) fun _ => .refl _)
    (.ite (fun _ => .refl _) fun _ => State.tame_vendor _ _)) (.update (.refl _))

theorem State.tame_judge (s : State) : Tame s s.judge := by
  unfold State.judge
  exact .after (State.tame_roJudge _) (.after (State.tame_physCheck _) (.foldl (fun _ _ => State.tame_resJudge _ _) _ _))

theorem State.tame_recomputeU (s : State) : Tame s s.recomputeU := by
  unfold State.recomputeU
  exact .after (State.tame_judge _) (.ite (fun _ => .refl _) fun _ => State.tame_put _ _ _ _)

/-! ### Machine/Place -/

theorem State.tame_sendRead (s : State) (use : PkUse) (c : Cb) (m : Nat) (page : Nat) (mask : Nat) : Tame s
    (s.sendRead use c m page mask) := by
  unfold State.sendRead
  split
  · exact State.tame_packSend _ _ _ _
  · exact .refl _

theorem State.tame_readPage (s : State) (use : PkUse) (cbid : Nat) (page : Nat) (m : Nat) (mask : Nat) : Tame s
    (s.readPage use cbid page m mask) := by
  unfold State.readPage
  extract_lets +onlyGivenNames c1
  split
  · exact .refl _
  · exact .ite (fun _ => State.tame_sendRead _ _ _ _ _ _) fun _ => .ite (fun _ => .refl _) fun _ => .foldl
      (fun _ _ => State.tame_sendRead _ _ _ _ _ _) _ _

theorem State.tame_takeBlock (s : State) (n : Nat) : Tame s (s.takeBlock n).1 := by
  unfold State.takeBlock
  split
  · exact .refl _
  · exact .update (.refl _)

theorem State.tame_takeBlocks (s : State) (a1 : List Nat) : Tame s (s.takeBlocks a1).1 := by
  fun_induction s.takeBlocks a1
  · exact .refl _
  · rename_i ih5
    exact .after ih5 (State.tame_takeBlock _ _)

theorem State.tame_checkMember (s : State) (cbid : Nat) (m : Nat) (last : Bool) : Tame s (s.checkMember cbid m last) := by
  unfold State.checkMember
  exact State.tame_sendRead _ _ _ _ _ _

theorem State.tame_formBlock (s : State) (stream : Nat) (acc : Nat) (cbid : Nat) (ports : List Nat) : Tame s
    (s.formBlock stream acc cbid ports) := by
  unfold State.formBlock
  exact .after (.after (.after (.foldl (fun _ _ => State.tame_checkMember _ _ _ _) _ _) (.update (.refl _))) (.after (State.tame_logSys _ _)
    (State.tame_setCb _ _ _))) (State.tame_takeBlocks _ _)

theorem State.tame_flightGo (s : State) (cbid : Nat) : Tame s (s.flightGo cbid) := by
  unfold State.flightGo
  exact .ite (fun _ => .refl _) fun _ => .after (.foldl (fun _ _ => .foldl (fun _ _ => State.tame_packSend _ _ _ _) _ _) _ _)
    (.update (.refl _))

theorem State.tame_closeConvoy (s : State) (a : Nat) : Tame s (s.closeConvoy a) := by
  unfold State.closeConvoy
  split
  · exact .refl _
  · exact .after (.after (.after (State.tame_flightGo _ _) (.update (.refl _))) (State.tame_engWrite _ _ _)) (State.tame_setCb _ _ _)

theorem State.tame_fillBlock (a : Nat) (a1 : Nat) (a2 : State) : Tame a2 (State.fillBlock a a1 a2) := by
  fun_induction State.fillBlock a a1 a2
  · exact .refl _
  · rename_i ih3
    exact .after ih3 (State.tame_closeConvoy _ _)
  · exact .refl _

theorem answers_execOpenConvoyAgeExpiry (acc : Fin 256) (s : State) : Answers s (execOpenConvoyAgeExpiry acc s) := by
  unfold execOpenConvoyAgeExpiry
  refine .awake ?_
  refine .next ?_
  split
  · exact .ite (fun _ => State.tame_closeConvoy _ _) fun _ => .refl _
  · exact .refl _

theorem State.tame_eraseOne (s : State) (use : PkUse) (n : Nat) (d : Nat) (b : Nat) : Tame s (s.eraseOne use n d b) := by
  unfold State.eraseOne
  exact .after (.after (.after (State.tame_eraseGo _) (.update (.refl _))) (State.tame_logSys _ _)) (.update (.refl _))

theorem State.tame_forget (s : State) (cbid : Nat) : Tame s (s.forget cbid) := by
  unfold State.forget
  exact .update (.refl _)

theorem State.tame_freeIfErased (s : State) (cbid : Nat) : Tame s (s.freeIfErased cbid) := by
  unfold State.freeIfErased
  exact .ite (fun _ => .after (.after (State.tame_logSys _ _) (.after (State.tame_forget _ _) (State.tame_setCb _ _ _)))
    (.update (.refl _))) fun _ => .refl _

theorem State.tame_endRebuild (s : State) (cbid : Nat) : Tame s (s.endRebuild cbid) := by
  unfold State.endRebuild
  split
  · exact .refl _
  · exact .ite (fun _ => .refl _) fun _ => .after (.ite (fun _ => State.tame_eraseOne _ _ _ _ _) fun _ => .refl _) (.update (.refl _))

theorem State.tame_eraseMembers (s : State) (cbid : Nat) (st : Nat) : Tame s (s.eraseMembers cbid st) := by
  unfold State.eraseMembers
  exact .after (.after (.after (State.tame_freeIfErased _ _) (.foldl (fun _ _ => .ite (fun _ => State.tame_eraseOne _ _ _ _ _) fun _ =>
    .refl _) _ _)) (State.tame_logSys _ _)) (.after (State.tame_setCb _ _ _) (State.tame_endRebuild _ _))

theorem State.tame_releaseOne (s : State) (cbid : Nat) : Tame s (s.releaseOne cbid) := by
  unfold State.releaseOne
  exact .ite (fun _ => .after (State.tame_eraseMembers _ _ _) (.update (.refl _))) fun _ => .refl _

theorem State.tame_releaseAll (s : State) : Tame s s.releaseAll := by
  unfold State.releaseAll
  exact .foldl (fun _ _ => State.tame_releaseOne _ _) _ _

theorem State.tame_emptyBlock (s : State) (cbid : Nat) (why : Nat) : Tame s (s.emptyBlock cbid why) := by
  unfold State.emptyBlock
  exact .after (State.tame_logSys _ _) (State.tame_setCb _ _ _)

theorem State.tame_markRefresh (s : State) (cbid : Nat) : Tame s (s.markRefresh cbid) := by
  unfold State.markRefresh
  exact .ite (fun _ => .after (.update (.refl _)) (State.tame_emptyBlock _ _ _)) fun _ => .refl _

theorem State.tame_addPoisoned (s : State) (nsid : Nat) (slba : Nat) (nblk : Nat) (cause : Nat) (left : List Nat) : Tame s
    (s.addPoisoned nsid slba nblk cause left) := by
  unfold State.addPoisoned
  exact .update (.refl _)

theorem State.tame_recordPoisoned (s : State) (blocks : List (Nat × Nat)) (cause : Nat) : Tame s (s.recordPoisoned blocks cause) := by
  unfold State.recordPoisoned
  exact .after (.ite (fun _ => .refl _) fun _ => State.tame_vendor _ _)
    (.foldl (fun _ _ => .foldl (fun _ _ => State.tame_addPoisoned _ _ _ _ _ _) _ _) _ _)

theorem State.tame_overwritten (s : State) (nsid : Nat) (slba : Nat) (n : Nat) : Tame s (s.overwritten nsid slba n) := by
  unfold State.overwritten
  exact .update (.refl _)

theorem State.tame_poisonEntry (s : State) (nsid : Nat) (bale : Nat) : Tame s (s.poisonEntry nsid bale) := by
  unfold State.poisonEntry
  exact .after (.after (State.tame_unqueueRepack _ _ _) (.after (State.tame_updPage _ _) (State.tame_journal _ _ _ _ _ _ _)))
    (.update (.refl _))

theorem State.tame_poisonPatch (s : State) (nsid : Nat) (bale : Nat) (blk : Nat) : Tame s (s.poisonPatch nsid bale blk) := by
  unfold State.poisonPatch
  split
  · exact .refl _
  · exact .after (.after (State.tame_updPage _ _) (State.tame_journal _ _ _ _ _ _ _)) (.update (.refl _))

theorem State.tame_poisonBale (s : State) (nsid : Nat) (bale : Nat) (cause : Nat) : Tame s (s.poisonBale nsid bale cause) := by
  unfold State.poisonBale
  exact .ite (fun _ => .refl _) fun _ => .after (State.tame_recordPoisoned _ _ _) (State.tame_poisonEntry _ _ _)

theorem State.tame_poisonBlock (s : State) (nsid : Nat) (bale : Nat) (blk : Nat) (cause : Nat) : Tame s
    (s.poisonBlock nsid bale blk cause) := by
  unfold State.poisonBlock
  exact .after (State.tame_recordPoisoned _ _ _) (State.tame_poisonPatch _ _ _ _)

theorem State.tame_poisonWhere (s : State) (hit : Nat → Nat → Bool) (cause : Nat) : Tame s (s.poisonWhere hit cause) := by
  unfold State.poisonWhere
  exact .after (.after (State.tame_recordPoisoned _ _ _) (.foldl (fun _ _ => State.tame_poisonPatch _ _ _ _) _ _))
    (.foldl (fun _ _ => State.tame_poisonEntry _ _ _) _ _)

theorem State.tame_poisonCodeword (s : State) (cbid : Nat) (page : Nat) (pos : Nat) (cw : Nat) (cause : Nat) : Tame s
    (s.poisonCodeword cbid page pos cw cause) := by
  unfold State.poisonCodeword
  exact .ite (fun _ => .refl _) fun _ => .after (State.tame_poisonWhere _ _ _) (.update (.refl _))

theorem State.tame_poisonLost (s : State) (cbid : Nat) : Tame s (s.poisonLost cbid) := by
  unfold State.poisonLost
  exact .ite (fun _ => .refl _) fun _ => State.tame_poisonWhere _ _ _

theorem State.tame_readCws (s : State) (cbid : Nat) (cws : List (Nat × Nat × Nat)) : Tame s (s.readCws cbid cws) := by
  unfold State.readCws
  exact .foldl (fun _ _ => State.tame_readPage _ _ _ _ _ _) _ _

theorem State.tame_copyPages (s : State) (cbid : Nat) (n : Nat) : Tame s (s.copyPages cbid n) := by
  unfold State.copyPages
  exact .foldl (fun _ _ => .after (.update (.refl _)) (State.tame_readPage _ _ _ _ _ _)) _ _

theorem State.tame_copyAll (s : State) (cbid : Nat) : Tame s (s.copyAll cbid) := by
  unfold State.copyAll
  exact .ite (fun _ => State.tame_copyPages _ _ _) fun _ => .refl _

theorem State.tame_copyAgain (s : State) (l : List Placed) : Tame s (s.copyAgain l) := by
  unfold State.copyAgain
  exact .after (.foldl (fun _ _ => State.tame_copyAll _ _) _ _) (.update (.refl _))

theorem State.tame_unplace (s : State) (cbid : Nat) (l : List Nat) : Tame s (s.unplace cbid l) := by
  unfold State.unplace
  exact .after (State.tame_setCb _ _ _) (.update (.refl _))

theorem State.tame_dropFlights (s : State) (cbid : Nat) : Tame s (s.dropFlights cbid) := by
  unfold State.dropFlights
  exact .after (.after (State.tame_copyAgain _ _) (.after (State.tame_unplace _ _ _) (.update (.refl _))))
    (.foldl (fun _ _ => State.tame_engWrite _ _ _) _ _)

theorem State.tame_closeBlock (s : State) (cbid : Nat) (page : Nat) : Tame s (s.closeBlock cbid page) := by
  unfold State.closeBlock
  exact .after (State.tame_logSys _ _) (State.tame_setCb _ _ _)

theorem State.tame_loseMember (s : State) (cbid : Nat) (m : Nat) : Tame s (s.loseMember cbid m) := by
  unfold State.loseMember
  extract_lets +onlyGivenNames c1
  split
  · exact .refl _
  · exact .ite (fun _ => .refl _) fun _ => .after (.after (.after (.after (State.tame_poisonLost _ _) (State.tame_setCb _ _ _))
      (.after (State.tame_copyAgain _ _) (.update (.refl _)))) (.ite (fun _ => .after (State.tame_closeBlock _ _ _)
      (State.tame_dropFlights _ _)) fun _ => .refl _)) (.after (State.tame_logSys _ _) (State.tame_setCb _ _ _))

theorem State.tame_loseWhere (s : State) (p : Member → Bool) : Tame s (s.loseWhere p) := by
  unfold State.loseWhere
  exact .foldl (fun _ _ => State.tame_loseMember _ _ _) _ _

theorem State.tame_retireBlock (s : State) (n : Nat) (d : Nat) (b : Nat) : Tame s (s.retireBlock n d b) := by
  unfold State.retireBlock
  exact .ite (fun _ => .refl _) fun _ => .after (State.tame_recomputeU _) (.update (.refl _))

theorem State.tame_keep (s : State) (gaddr : Nat) (len : Nat) (u : Stored) : Tame s (s.keep gaddr len u) := by
  unfold State.keep
  exact .ite (fun _ => .refl _) fun _ => .update (.refl _)

theorem State.tame_hostCommit (s : State) (p : Placed) : Tame s (s.hostCommit p).1 := by
  unfold State.hostCommit
  extract_lets +onlyGivenNames nsid1 mine2
  split
  · exact .refl _
  · split
    · exact State.tame_wholeCommit _ _ _ _ _
    · exact State.tame_mergeCommit _ _ _ _ _ _ _ _

/-- What a placed item does, by its kind: the kernel is not to evaluate the branches. -/
theorem Tame.byKind {s t x y : State} {z : Nat → State} (k : PlaceKind) (b : Option Nat) (ht : Tame s t) (hx : Tame s x)
    (hy : Tame s y) (hz : ∀ n, Tame s (z n)) : Tame s (match k, b with
      | .reloc, _ => t
      | .repack, _ => x
      | .host, none => y
      | .host, some n => z n) := by
  cases k with
  | reloc => exact ht
  | repack => exact hx
  | host =>
    cases b with
    | none => exact hy
    | some n => exact hz n

theorem State.tame_commitHere (s : State) (p : Placed) : Tame s (s.commitHere p) := by
  have hpage : Tame s (s.usePage (mpnOf (p.nsidx + 1) p.bale) true) := State.tame_usePage _ _ _
  exact .byKind p.kind p.blk hpage (.after (State.tame_condCommit _ _ _ _ _ _ _) hpage) (.after (State.tame_hostCommit _ _) hpage)
    fun _ => .after (State.tame_patchCommit _ _ _ _ _ _) hpage

theorem State.tame_commitItem (cbid : Nat) (s : State) (p : Placed) : Tame s (State.commitItem cbid s p) := by
  unfold State.commitItem
  exact .ite (fun _ => .refl _) fun _ => .after (.ite (fun _ => .update (.refl _)) fun _ => .ite (fun _ => .after (.update (.refl _))
    (State.tame_startMiss _ _)) fun _ => State.tame_commitHere _ _) (State.tame_keep _ _ _ _)

theorem State.tame_itemsGo (s : State) (mpn : Nat) : Tame s (s.itemsGo mpn) := by
  unfold State.itemsGo
  exact .after (.foldl (fun _ _ => .ite (fun _ => .refl _) fun _ => State.tame_commitHere _ _) _ _) (.update (.refl _))

theorem State.tame_relocPatch (s : State) (nsid : Nat) (bale : Nat) (blk : Nat) (v : BitVec 64) (expect : BitVec 64) : Tame s
    (s.relocPatch nsid bale blk v expect) := by
  unfold State.relocPatch
  exact .ite (fun _ => .after (.after (.after (.after (State.tame_updPage _ _) (State.tame_journal _ _ _ _ _ _ _))
    (.after (State.tame_grainsLive _ _ _) (State.tame_liveAdd _ _ _ _))) (.update (.refl _))) (State.tame_dropPatch _ _ _ _)) fun _ =>
    .refl _

theorem State.tame_commitReloc (s : State) (r : Reloc) : Tame s (s.commitReloc r) := by
  unfold State.commitReloc
  exact .ite (fun _ => .refl _) fun _ => .elim (State.tame_condCommit _ _ _ _ _ _ _) fun _ => State.tame_relocPatch _ _ _ _ _ _

theorem State.tame_relocReady (s : State) : Tame s s.relocReady := by
  unfold State.relocReady
  exact .after (.after (.foldl (fun _ _ => State.tame_commitReloc _ _) _ _) (.update (.refl _)))
    (.foldl (fun _ _ => .ite (fun _ => .refl _) fun _ => State.tame_startMiss _ _) _ _)

theorem State.tame_verifyRelocs (s : State) (cbid : Nat) : Tame s (s.verifyRelocs cbid) := by
  unfold State.verifyRelocs
  exact State.tame_readCws _ _ _

theorem State.tame_flightDone (s : State) (f : Flight) : Tame s (s.flightDone f) := by
  unfold State.flightDone
  exact .after (.after (.after (.after (.after (.after (State.tame_releaseAll _) (.after (State.tame_mapHeld _) (State.tame_relocReady _)))
    (.ite (fun _ => .after (State.tame_verifyRelocs _ _) (State.tame_closeBlock _ _ _)) fun _ => .refl _))
    (.after (State.tame_unitsDone _ _ _) (.foldl (fun _ _ => State.tame_jblockDone _ _) _ _)))
    (.foldl (fun _ _ => State.tame_commitItem _ _ _) _ _)) (State.tame_setCb _ _ _)) (.update (.refl _))

theorem State.tame_flightsDone (cbid : Nat) (a1 : Nat) (a2 : State) : Tame a2 (State.flightsDone cbid a1 a2) := by
  fun_induction State.flightsDone cbid a1 a2
  · exact .refl _
  · exact .refl _
  · rename_i ih5
    exact .after ih5 (State.tame_flightDone _ _)
  · exact .refl _

theorem State.tame_flightAck (s : State) (cbid : Nat) (page : Nat) (m : Nat) : Tame s (s.flightAck cbid page m) := by
  unfold State.flightAck
  split
  · exact .refl _
  · exact .after (State.tame_flightsDone _ _ _) (.update (.refl _))

theorem State.tame_abandon (s : State) (cbid : Nat) : Tame s (s.abandon cbid) := by
  unfold State.abandon
  exact .after (State.tame_eraseMembers _ _ _) (State.tame_dropFlights _ _)

theorem State.tame_programFail (s : State) (cbid : Nat) (page : Nat) (m : Nat) : Tame s (s.programFail cbid page m) := by
  unfold State.programFail
  exact .ite (fun _ => State.tame_loseMember _ _ _) fun _ => .ite (fun _ => State.tame_abandon _ _) fun _ => .after
    (State.tame_loseMember _ _ _) (.after (State.tame_closeBlock _ _ _) (State.tame_dropFlights _ _))

/-! ### Machine/Convoy -/

theorem State.tame_placeJblocks (s : State) (l : List Nat) (cbid : Nat) (page : Nat) : Tame s (s.placeJblocks l cbid page) := by
  unfold State.placeJblocks
  exact .after (State.tame_setCb _ _ _) (.update (.refl _))

theorem State.tame_placeUnits (s : State) (cbid : Nat) (page : Nat) (dpi : Nat) (at_ : Nat) : Tame s (s.placeUnits cbid page dpi at_) := by
  unfold State.placeUnits
  exact .after (State.tame_setCb _ _ _) (.update (.refl _))

theorem State.tame_placeOne (a : Nat) (k : Nat) (s : State) (r : PlaceReq) : Tame s (State.placeOne a k s r) := by
  unfold State.placeOne
  split
  · exact .ite (fun _ => .update (.refl _)) fun _ => .ite (fun _ => State.tame_fillBlock _ _ _) fun _ => .refl _
  · exact .refl _

theorem State.tame_convoyAdd (s : State) (d : CvyDesc) (items : List PlaceReq) : Tame s (s.convoyAdd d items) := by
  unfold State.convoyAdd
  split
  · exact .refl _
  · exact .after (.after (.foldl (fun _ _ => State.tame_placeOne _ _ _ _) _ _) (.ite (fun _ => State.tame_placeUnits _ _ _ _ _) fun _ =>
      .refl _)) (.after (State.tame_placeJblocks _ _ _ _) (.update (.refl _)))

theorem State.tame_accumulate (s : State) (d : CvyDesc) : Tame s (s.accumulate d) := by
  unfold State.accumulate
  exact .after (State.tame_engWrite _ _ _) (State.tame_engWrite _ _ _)

theorem State.tame_closeCovered (s : State) : Tame s s.closeCovered := by
  unfold State.closeCovered
  exact .foldl (fun _ _ => State.tame_closeConvoy _ _) _ _

theorem State.tame_accClear (s : State) (a : Nat) : Tame s (s.accClear a) := by
  unfold State.accClear
  exact State.tame_engWrite _ _ _

theorem State.tame_emitPQ (s : State) (d : CvyDesc) : Tame s (s.emitPQ d) := by
  unfold State.emitPQ
  exact .after (.ite (fun _ => State.tame_closeConvoy _ _) fun _ => State.tame_accClear _ _) (State.tame_engWrite _ _ _)

theorem State.tame_reconstruct (s : State) (d : CvyDesc) : Tame s (s.reconstruct d) := by
  unfold State.reconstruct
  extract_lets +onlyGivenNames pages1 second2 s3
  have hs3 : Tame s s3 := State.tame_engWrite _ _ _
  clear_value second2
  split
  · rename_i h4 h5
    exact .after (State.tame_engWrite _ _ _) hs3
  · rename_i h6
    exact hs3

theorem State.tame_cvyEffect (s : State) (op : Nat) (d : CvyDesc) (items : List PlaceReq) : Tame s (s.cvyEffect op d items) := by
  unfold State.cvyEffect
  split
  · exact .after (State.tame_closeCovered _) (.after (State.tame_convoyAdd _ _ _) (State.tame_accumulate _ _))
  · exact State.tame_emitPQ _ _
  · exact State.tame_reconstruct _ _
  · exact State.tame_accClear _ _

theorem State.tame_cvyFetch (s : State) (op : Nat) (r : Nat) (d : CvyDesc) : Tame s (s.cvyFetch op r d).1 := by
  unfold State.cvyFetch
  split
  · exact .refl _
  · exact State.tame_engFetch _ _

theorem tame_cvyRun (op : Nat) (r : Nat) (d : CvyDesc) (items : List PlaceReq) (s : State) : Tame s (cvyRun op r d items s) := by
  unfold cvyRun
  exact .ite (fun _ => .refl _) fun _ => .after (.after (.after (State.tame_complete _ _) (State.tame_put _ _ _ _))
    (.after (State.tame_pmc _ _ _ _) (.ite (fun _ => State.tame_pmc _ _ _ _) fun _ => State.tame_cvyEffect _ _ _ _)))
    (.after (State.tame_pmc _ _ _ _) (.after (State.tame_put _ _ _ _) (State.tame_cvyFetch _ _ _ _)))

theorem tame_cvyJob (op : Nat) (r : Nat) (d : CvyDesc) (items : List PlaceReq) (s : State) : Tame s (cvyJob op r d items s) := by
  unfold cvyJob
  exact .ite (fun _ => State.tame_gateKeep _ _) fun _ => .ite (fun _ => .refl _) fun _ => .after
    (.ite (fun _ => tame_cvyRun _ _ _ _ _) fun _ => .update (.refl _)) (State.tame_put _ _ _ _)

theorem State.tame_cvyResume (s : State) : Tame s s.cvyResume := by
  unfold State.cvyResume
  exact .ite (fun _ => .refl _) fun _ => .after (.foldl (fun _ _ => tame_cvyRun _ _ _ _ _) _ _) (.update (.refl _))

theorem answers_execAccumulatePage (r : Fin 4) (d : CvyDesc) (items : List PlaceReq) (s : State) : Answers s
    (execAccumulatePage r d items s) := by
  unfold execAccumulatePage
  exact .awake (.next (.ite (fun _ => .refl _) fun _ => tame_cvyJob _ _ _ _ _))

theorem answers_execEmitPAndQ (r : Fin 4) (d : CvyDesc) (s : State) : Answers s (execEmitPAndQ r d s) := by
  unfold execEmitPAndQ
  exact .awake (.next (tame_cvyJob _ _ _ _ _))

theorem answers_execReconstruct (r : Fin 4) (d : CvyDesc) (s : State) : Answers s (execReconstruct r d s) := by
  unfold execReconstruct
  exact .awake (.next (tame_cvyJob _ _ _ _ _))

theorem answers_execClearAccumulator (r : Fin 4) (d : CvyDesc) (s : State) : Answers s (execClearAccumulator r d s) := by
  unfold execClearAccumulator
  exact .awake (.next (tame_cvyJob _ _ _ _ _))

theorem answers_execConvoyEngineDisable (s : State) : Answers s (execConvoyEngineDisable s) := by
  unfold execConvoyEngineDisable
  exact .awake (.next (.after (State.tame_put _ _ _ _) (State.tame_put _ _ _ _)))

theorem State.tame_holdJudge (s : State) : Tame s s.holdJudge := by
  unfold State.holdJudge
  exact .update (.refl _)

theorem tame_convoyBlockForm (stream : Nat) (s : State) : Tame s (convoyBlockForm stream s) := by
  unfold convoyBlockForm
  extract_lets +onlyGivenNames w1 n2 ports3
  split
  · exact .refl _
  · split
    · exact .after (State.tame_formBlock _ _ _ _ _) (.update (.refl _))
    · exact .refl _

theorem answers_execConvoyBlockForm (stream : Fin 5) (s : State) : Answers s (execConvoyBlockForm stream s) := by
  unfold execConvoyBlockForm
  exact .awake (.next (tame_convoyBlockForm _ _))

theorem State.tame_queueRepacks (s : State) (cbid : Nat) : Tame s (s.queueRepacks cbid) := by
  unfold State.queueRepacks
  exact .foldl (fun _ _ => .ite (fun _ => .refl _) fun _ => State.tame_queueRepack _ _ _) _ _

theorem State.tame_takeVictim (s : State) (k : Nat) (byScore : Bool) : Tame s (s.takeVictim k byScore) := by
  unfold State.takeVictim
  exact .after (.after (State.tame_releaseOne _ _) (.update (.refl _))) (.after (State.tame_queueRepacks _ _) (State.tame_emptyBlock _ _ _))

theorem State.tame_takeDead (s : State) (a1 : Nat) : Tame s (s.takeDead a1) := by
  fun_induction s.takeDead a1
  · exact .refl _
  · rename_i ih6
    exact .after ih6 (.update (State.tame_takeVictim _ _ _))
  · exact .refl _

theorem State.tame_relocateRemoved (s : State) : Tame s s.relocateRemoved := by
  unfold State.relocateRemoved
  exact .foldl (fun _ _ => .after (.after (State.tame_releaseOne _ _) (.after (State.tame_copyAll _ _) (.update (.refl _))))
    (.after (State.tame_queueRepacks _ _) (State.tame_emptyBlock _ _ _))) _ _

theorem State.tame_copyLate (s : State) : Tame s s.copyLate := by
  unfold State.copyLate
  exact .foldl (fun _ _ => State.tame_copyAll _ _) _ _

theorem State.tame_copyVictims (a0 : Nat) (a1 : State) : Tame a1 (State.copyVictims a0 a1) := by
  fun_induction State.copyVictims a0 a1
  · exact .refl _
  · exact .refl _
  · rename_i ih5
    exact .after ih5 (.after (State.tame_copyAll _ _) (State.tame_takeVictim _ _ _))

theorem State.tame_repackRead (s : State) (r : Nat × Nat) : Tame s (s.repackRead r) := by
  unfold State.repackRead
  exact .foldl (fun _ _ => State.tame_readCws _ _ _) _ _

theorem State.tame_repackReads (s : State) (n : Nat) : Tame s (s.repackReads n).1 := by
  unfold State.repackReads
  exact .after (.foldl (fun _ _ => State.tame_repackRead _ _) _ _) (.update (.refl _))

theorem tame_reclaimRound (dur : Nat) (s : State) : Tame s (reclaimRound dur s) := by
  unfold reclaimRound
  extract_lets +onlyGivenNames s1
  have hs1 : Tame s s1 := State.tame_runTask _ _ _ _
  extract_lets +onlyGivenNames m2 critical3 s4 s5
  have hs5 : Tame s s5 := .update hs1
  extract_lets +onlyGivenNames s6
  have hs6 : Tame s s6 := .after (State.tame_relocateRemoved _) (.after (State.tame_takeDead _ _) (.after (State.tame_releaseAll _) hs5))
  extract_lets +onlyGivenNames s7
  have hs7 : Tame s s7 := by
    unfold s7
    split
    · exact hs6
    · split
      · exact .after (State.tame_takeVictim _ _ _) hs6
      · exact hs6
  extract_lets +onlyGivenNames r8 s9
  have hs9 : Tame s s9 := .after (State.tame_repackReads _ _) hs7
  extract_lets +onlyGivenNames s10
  have hs10 : Tame s s10 := by
    unfold s10
    split
    · exact .ite (fun _ => .after (State.tame_copyPages _ _ _) hs9) fun _ => hs9
    · exact hs9
  exact .after (.after (State.tame_holdJudge _) (State.tame_copyLate _)) (.ite (fun _ => .after (State.tame_copyVictims _ _) hs10) fun _ =>
    hs10)

theorem answers_execReclaimRound (durUs : Nat) (s : State) : Answers s (execReclaimRound durUs s) := by
  unfold execReclaimRound
  exact .awake (.next (tame_reclaimRound _ _))

theorem State.tame_replacement (s : State) (c : Cb) (x : Member) : TameOpt s ((s.replacement c x).map Prod.fst) := by
  unfold State.replacement
  split
  · exact .none s
  · dsimp only
    split
    · exact .some (.refl s)
    · exact .some (s.tame_takeBlock _)

theorem State.tame_rebuildReads (s : State) (r : Rebuild) : Tame s (s.rebuildReads r) := by
  unfold State.rebuildReads
  exact .after (.foldl (fun _ _ => State.tame_sendRead _ _ _ _ _ _) _ _) (.update (.refl _))

theorem State.tame_rebuildMove (s : State) (k : Nat) : Tame s (s.rebuildMove k) := by
  unfold State.rebuildMove
  exact .after (.after (State.tame_releaseOne _ _) (.ite (fun _ => State.tame_copyPages _ _ _) fun _ => .refl _))
    (.ite (fun _ => State.tame_setCb _ _ _) fun _ => .after (State.tame_queueRepacks _ _) (.after (State.tame_emptyBlock _ _ _)
    (State.tame_setCb _ _ _)))

theorem State.tame_rebuildBlock (s : State) (k : Nat) : Tame s (s.rebuildBlock k) := by
  unfold State.rebuildBlock
  extract_lets +onlyGivenNames c1
  split
  · exact State.tame_rebuildMove _ _
  · split
    · exact .refl _
    · split
      · exact .refl _
      · split
        · exact State.tame_rebuildMove _ _
        · rename_i h2 u3 h4 h5
          exact .after (.ite (fun _ => .update (.refl _)) fun _ => State.tame_rebuildReads _ _) (.after (State.tame_packSend _ _ _ _)
            (.get_fst (State.tame_replacement _ _ _) h5))

theorem State.tame_rebuildEnd (s : State) (r : Rebuild) : Tame s (s.rebuildEnd r) := by
  unfold State.rebuildEnd
  exact .after (.after (.ite (fun _ => .refl _) fun _ => State.tame_rebuildBlock _ _) (.update (.refl _))) (.after (State.tame_logSys _ _)
    (State.tame_setCb _ _ _))

theorem State.tame_rebuildOn (s : State) (r : Rebuild) : Tame s (s.rebuildOn r) := by
  unfold State.rebuildOn
  exact .ite (fun _ => .ite (fun _ => State.tame_rebuildEnd _ _) fun _ => .update (.refl _)) fun _ => State.tame_rebuildReads _ _

theorem State.tame_dropRebuild (s : State) (p : Member → Bool) : Tame s (s.dropRebuild p) := by
  unfold State.dropRebuild
  split
  · exact .refl _
  · exact .ite (fun _ => .update (.refl _)) fun _ => .ite (fun _ => State.tame_endRebuild _ _) fun _ => .refl _

theorem tame_rebuildStart (s : State) : Tame s (rebuildStart s) := by
  unfold rebuildStart
  split
  · exact .refl _
  · split
    · exact .refl _
    · exact State.tame_rebuildBlock _ _

theorem answers_execRebuildBlockStart (s : State) : Answers s (execRebuildBlockStart s) := by
  unfold execRebuildBlockStart
  exact .awake (.next (tame_rebuildStart _))

theorem State.tame_rebuildGot (s : State) (m : Nat) (data : Bytes) : Tame s (s.rebuildGot m data) := by
  unfold State.rebuildGot
  split
  · exact .refl _
  · exact .ite (fun _ => .update (.refl _)) fun _ => .after (State.tame_rebuildOn _ _) (State.tame_packSend _ _ _ _)

theorem State.tame_rebuildAck (s : State) (page : Nat) : Tame s (s.rebuildAck page) := by
  unfold State.rebuildAck
  split
  · exact .refl _
  · exact .ite (fun _ => State.tame_rebuildOn _ _) fun _ => .update (.refl _)

theorem tame_refreshStart (s : State) : Tame s (refreshStart s) := by
  unfold refreshStart
  split
  · exact .refl _
  · exact .ite (fun _ => .refl _) fun _ => .after (.after (State.tame_releaseOne _ _) (.after (State.tame_copyAll _ _)
      (State.tame_queueRepacks _ _))) (.update (.refl _))

theorem answers_execRefreshBlockStart (s : State) : Answers s (execRefreshBlockStart s) := by
  unfold execRefreshBlockStart
  exact .awake (.next (tame_refreshStart _))

theorem answers_execLdpcEncode (q : Fin 32) (codewords : Nat) (line : Fin 256) (s : State) : Answers s
    (execLdpcEncode q codewords line s) := by
  unfold execLdpcEncode
  exact .awake (.next (.ite (fun _ => State.tame_gateKeep _ _) fun _ => .ite (fun _ => .after (State.tame_complete _ _)
    (State.tame_pmc _ _ _ _)) fun _ => .refl _))

/-! ### Machine/Round -/

theorem State.tame_storePatches (s : State) (r : CkRound) : Tame s (s.storePatches r) := by
  unfold State.storePatches
  exact .foldl (fun _ _ => State.tame_ckptAdd _ _) _ _

theorem State.tame_storeTables (s : State) (mark : Nat) : Tame s (s.storeTables mark) := by
  unfold State.storeTables
  exact .after (.foldl (fun _ _ => State.tame_ckptAdd _ _) _ _) (.foldl (fun _ _ => State.tame_ckptAdd _ _) _ _)

theorem tame_checkpointAll (s : State) : Tame s (checkpointAll s) := by
  unfold checkpointAll
  exact .ite (fun _ => .refl _) fun _ => .after (.after (State.tame_roundGo _) (.after (State.tame_storeTables _ _)
    (.after (State.tame_storePatches _ _) (.foldl (fun _ _ => State.tame_storePage _ _ _) _ _)))) (.update (.refl _))

/-! ### Machine/Media -/

theorem State.tame_escRead (s : State) (c : Cb) (m : Nat) (page : Nat) (cw : Nat) (stage : Nat) : Tame s (s.escRead c m page cw stage) := by
  unfold State.escRead
  split
  · exact State.tame_packSend _ _ _ _
  · exact .refl _

theorem State.tame_escStage (s : State) (cbid : Nat) (page : Nat) (pos : Nat) (cw : Nat) (k : Nat) : Tame s
    (s.escStage cbid page pos cw k) := by
  unfold State.escStage
  exact .ite (fun _ => .ite (fun _ => .refl _) fun _ => State.tame_escRead _ _ _ _ _ _) fun _ => .ite (fun _ => .refl _) fun _ => .foldl
    (fun _ _ => State.tame_escRead _ _ _ _ _ _) _ _

theorem State.tame_escalateAll (s : State) (ext : List (Nat × Nat)) (stop : Nat) : Tame s (s.escalateAll ext stop) := by
  unfold State.escalateAll
  exact .foldl (fun _ _ => .foldl (fun _ _ => State.tame_escStage _ _ _ _ _ _) _ _) _ _

theorem State.tame_escTo (s : State) (cbid : Nat) (page : Nat) (pos : Nat) (cw : Nat) (stage : Nat) : Tame s
    (s.escTo cbid page pos cw stage) := by
  unfold State.escTo
  exact .after (.update (.refl _)) (.foldl (fun _ _ => .ite (fun _ => State.tame_escStage _ _ _ _ _ _) fun _ => .refl _) _ _)

theorem State.tame_relocDecode (s : State) (cbid : Nat) (page : Nat) (pos : Nat) (cw : Nat) (stage : Nat) : Tame s
    (s.relocDecode cbid page pos cw stage) := by
  unfold State.relocDecode
  exact .ite (fun _ => .after (State.tame_relocReady _) (.update (.refl _))) fun _ => .after (State.tame_copyAgain _ _) (.update (.refl _))

theorem State.tame_scrubCount (s : State) (cbid : Nat) (stage : Nat) (iters : Nat) : Tame s (s.scrubCount cbid stage iters) := by
  unfold State.scrubCount
  exact .after (.ite (fun _ => State.tame_markRefresh _ _) fun _ => .refl _) (.update (.refl _))

theorem State.tame_escCount (s : State) (port : Nat) (stage : Nat) : Tame s (s.escCount port stage) := by
  unfold State.escCount
  exact .after (.ite (fun _ => .update (.refl _)) fun _ => .refl _) (State.tame_setReg _ _ _ _)

theorem State.tame_unrecoverable (s : State) (kind : ReadKind) (cbid : Nat) (page : Nat) (pos : Nat) (cw : Nat) : Tame s
    (s.unrecoverable kind cbid page pos cw) := by
  unfold State.unrecoverable
  exact .ite (fun _ => .refl _) fun _ => State.tame_poisonCodeword _ _ _ _ _ _

theorem State.tame_relocateHit (s : State) (cbid : Nat) (page : Nat) (pos : Nat) (cw : Nat) : Tame s (s.relocateHit cbid page pos cw) := by
  unfold State.relocateHit
  exact .foldl (fun _ _ => State.tame_readCws _ _ _) _ _

theorem State.tame_headerRead (s : State) (cbid : Nat) (pos : Nat) (cw : Nat) : Tame s (s.headerRead cbid pos cw) := by
  unfold State.headerRead
  extract_lets +onlyGivenNames c1
  split
  · exact State.tame_escRead _ _ _ _ _ _
  · exact .refl _

theorem State.tame_reconStart (s : State) (kind : ReadKind) (cbid : Nat) (page : Nat) (pos : Nat) (cw : Nat) : Tame s
    (s.reconStart kind cbid page pos cw) := by
  unfold State.reconStart
  exact .ite (fun _ => State.tame_headerRead _ _ _ _) fun _ => .ite (fun _ => .refl _) fun _ => .ite
    (fun _ => State.tame_unrecoverable _ _ _ _ _ _) fun _ => .after (.update (.refl _)) (State.tame_escStage _ _ _ _ _ _)

theorem State.tame_reconGot (s : State) (m : Nat) (good : Bool) (r : Recon) : Tame s (s.reconGot m good r) := by
  unfold State.reconGot
  extract_lets +onlyGivenNames others1 put2 s3 s4
  have hs4 : Tame s s4 := .update (.refl _)
  extract_lets +onlyGivenNames c5
  split
  · exact .ite (fun _ => .update (.refl _)) fun _ => .ite (fun _ => .after (State.tame_relocateHit _ _ _ _ _) hs4) fun _ => hs4
  · split
    · exact .update (State.tame_escRead _ _ _ _ _ _)
    · exact .after (State.tame_unrecoverable _ _ _ _ _ _) hs4

theorem State.tame_reconHear (s : State) (cbid : Nat) (page : Nat) (m : Nat) (cw : Nat) (good : Bool) : Tame s
    (s.reconHear cbid page m cw good) := by
  unfold State.reconHear
  exact .foldl (fun _ _ => State.tame_reconGot _ _ _ _) _ _

theorem State.tame_reconFail (s : State) (cbid : Nat) (page : Nat) (pos : Nat) (cw : Nat) : Tame s (s.reconFail cbid page pos cw) := by
  unfold State.reconFail
  extract_lets +onlyGivenNames mine1 s2 s3
  have hs3 : Tame s s3 := .update (.refl _)
  split
  · exact .after (State.tame_unrecoverable _ _ _ _ _ _) hs3
  · exact hs3

theorem State.tame_mismatched (s : State) (kind : ReadKind) (cbid : Nat) (page : Nat) (pos : Nat) (cw : Nat) (n : Nat) : Tame s
    (s.mismatched kind cbid page pos cw n) := by
  unfold State.mismatched
  extract_lets +onlyGivenNames l1
  split
  · exact .refl _
  · extract_lets +onlyGivenNames s2
    have hs2 : Tame s s2 := State.tame_escalateAll _ _ _
    split
    · exact .after (State.tame_poisonBale _ _ _ _) hs2
    · exact .after (State.tame_poisonBlock _ _ _ _ _) hs2

theorem State.tame_decodeEnd (s : State) (kind : ReadKind) (cbid : Nat) (page : Nat) (pos : Nat) (cw : Nat) (stage : Nat)
    (iters : Nat) : Tame s (s.decodeEnd kind cbid page pos cw stage iters) := by
  unfold State.decodeEnd
  exact .ite (fun _ => State.tame_reconHear _ _ _ _ _ _) fun _ => .ite (fun _ => State.tame_reconStart _ _ _ _ _ _) fun _ => .ite
    (fun _ => .after (State.tame_reconFail _ _ _ _ _) (State.tame_reconStart _ _ _ _ _ _)) fun _ => .ite
    (fun _ => State.tame_mismatched _ _ _ _ _ _ _) fun _ => .refl _

theorem tame_codewordDecode (kind : ReadKind) (cbid : Nat) (page : Nat) (pos : Nat) (cw : Nat) (stage : Nat) (iters : Nat)
    (s : State) : Tame s (codewordDecode kind cbid page pos cw stage iters s) := by
  unfold codewordDecode
  extract_lets +onlyGivenNames c1
  split
  · exact .refl _
  · exact .after (.ite (fun _ => State.tame_escTo _ _ _ _ _ _) fun _ => .after
      (.after (.after (.after (.after (.ite (fun _ => State.tame_markRefresh _ _) fun _ => .refl _) (State.tame_decodeEnd _ _ _ _ _ _ _ _))
      (.ite (fun _ => State.tame_scrubCount _ _ _ _) fun _ => .refl _)) (State.tame_relocDecode _ _ _ _ _ _)) (State.tame_escCount _ _ _))
      (.update (.refl _))) (State.tame_escTo _ _ _ _ _ _)

theorem answers_execCodewordDecode (kind : ReadKind) (cbid : Nat) (page : Nat) (pos : Nat) (cw : Nat) (stage : Fin 12) (iters : Nat)
    (s : State) : Answers s (execCodewordDecode kind cbid page pos cw stage iters s) := by
  unfold execCodewordDecode
  exact .awake (.next (.ite (fun _ => State.tame_gateKeep _ _) fun _ => .ite (fun _ => tame_codewordDecode _ _ _ _ _ _ _ _) fun _ =>
    .refl _))

theorem State.tame_scrubTurn (s : State) : Tame s s.scrubTurn := by
  unfold State.scrubTurn
  exact .update (.refl _)

theorem State.tame_scrubLog (s : State) : Tame s s.scrubLog := by
  unfold State.scrubLog
  exact State.tame_logSys _ _

theorem State.tame_scrubRun (burst : Bool) (s : State) (a2 : Nat) (a3 : Nat) : Tame s (State.scrubRun burst s a2 a3) := by
  fun_induction State.scrubRun burst s a2 a3
  · exact .update (.refl _)
  · exact .update (.refl _)
  · exact .update (.refl _)
  · rename_i ih5
    exact .after ih5 (State.tame_scrubTurn _)
  · rename_i ih8
    exact .after ih8 (.update (.refl _))
  · rename_i ih12
    exact .after ih12 (.update (.refl _))
  · rename_i ih14
    exact .after ih14 (.update (.refl _))
  · exact .update (.refl _)
  · rename_i ih15
    exact .after ih15 (.update (State.tame_sendRead _ _ _ _ _ _))

theorem tame_scrubRound (dur : Nat) (s : State) : Tame s (scrubRound dur s) := by
  unfold scrubRound
  exact .after (.ite (fun _ => .update (.refl _)) fun _ => .ite (fun _ => .update (.refl _)) fun _ => .after
    (.after (.after (State.tame_scrubLog _) (State.tame_scrubRun _ _ _ _)) (.ite (fun _ => .update (.refl _)) fun _ => .refl _))
    (.update (.refl _))) (State.tame_runTask _ _ _ _)

theorem answers_execScrubRound (durUs : Nat) (s : State) : Answers s (execScrubRound durUs s) := by
  unfold execScrubRound
  exact .awake (.next (tame_scrubRound _ _))

theorem State.tame_idWriteStart (s : State) (n : Nat) : Tame s (s.idWriteStart n) := by
  unfold State.idWriteStart
  exact .ite (fun _ => State.tame_setPk _ _ _) fun _ => .after (State.tame_packSend _ _ _ _) (State.tame_setPk _ _ _)

theorem State.tame_idUpdate (s : State) (n : Nat) (i : PackId) : Tame s (s.idUpdate n i) := by
  unfold State.idUpdate
  exact .after (.ite (fun _ => State.tame_idWriteStart _ _) fun _ => State.tame_setPk _ _ _) (State.tame_setPk _ _ _)

theorem State.tame_retireDie (s : State) (n : Nat) (d : Nat) : Tame s (s.retireDie n d) := by
  unfold State.retireDie
  split
  · exact .refl _
  · extract_lets +onlyGivenNames spare1 s2 s3
    have hs3 : Tame s s3 := .update (.refl _)
    extract_lets +onlyGivenNames s4
    have hs4 : Tame s s4 := .after (State.tame_dropRebuild _ _) (.after (State.tame_loseWhere _ _) hs3)
    extract_lets +onlyGivenNames s5
    have hs5 : Tame s s5 := by
      unfold s5
      split
      · exact .after (State.tame_idUpdate _ _ _) hs4
      · exact hs4
    exact .after (State.tame_recomputeU _) hs5

theorem State.tame_dieFailed (s : State) (n : Nat) (d : Nat) : Tame s (s.dieFailed n d) := by
  unfold State.dieFailed
  exact .after (.ite (fun _ => .refl _) fun _ => State.tame_retireDie _ _ _) (.update (.refl _))

theorem State.tame_retire (s : State) (n : Nat) (d : Nat) (b : Nat) : Tame s (s.retire n d b) := by
  unfold State.retire
  extract_lets +onlyGivenNames s1
  have hs1 : Tame s s1 := State.tame_retireBlock _ _ _ _
  split
  · exact .ite (fun _ => .after (State.tame_retireDie _ _ _) hs1) fun _ => hs1
  · exact hs1

/-! ### Machine/Flow -/

theorem State.tame_land (s : State) (stamp : BitVec 64) (nsid : Nat) (slba : Nat) (w : Nat) (blocks : List BlockData) : Tame s
    (s.land stamp nsid slba w blocks) := by
  unfold State.land
  split
  · exact .refl _
  · exact .after (State.tame_repin _) (.update (.refl _))

theorem State.tame_flushOne (s : State) (c : Ctx) : Tame s (s.flushOne c) := by
  unfold State.flushOne
  split
  · exact .ite (fun _ => State.tame_succeed _ _ _) fun _ => .refl _
  · exact .refl _

theorem State.tame_detachOne (s : State) (c : Ctx) : Tame s (s.detachOne c) := by
  unfold State.detachOne
  split
  · extract_lets +onlyGivenNames busy1
    split
    · exact .refl _
    · split
      · exact State.tame_succeed _ _ _
      · exact .after (State.tame_succeed _ _ _) (State.tame_setNs _ _ _)
  · exact .refl _

theorem State.tame_deleteOne (s : State) (c : Ctx) : Tame s (s.deleteOne c) := by
  unfold State.deleteOne
  split
  · exact .ite (fun _ => .refl _) fun _ => State.tame_succeed _ _ _
  · exact .refl _

theorem State.tame_deletes (s : State) : Tame s s.deletes := by
  unfold State.deletes
  exact .foldl (fun _ _ => State.tame_deleteOne _ _) _ _

theorem State.tame_shutdownOne (s : State) (f : Nat) : Tame s (s.shutdownOne f) := by
  unfold State.shutdownOne
  exact .ite (fun _ => .refl _) fun _ => .after (.update (.refl _)) (.after (State.tame_tallyEnd _ _) (State.tame_put _ _ _ _))

theorem State.tame_rotateOne (s : State) (nsid : Nat) : Tame s (s.rotateOne nsid) := by
  unfold State.rotateOne
  split
  · exact .refl _
  · split
    · exact .refl _
    · exact .ite (fun _ => .refl _) fun _ => .after (.update (.refl _)) (State.tame_setNs _ _ _)

theorem State.tame_eraseHalf (s : State) (h : Nat) : Tame s (s.eraseHalf h) := by
  unfold State.eraseHalf
  refine .foldl (fun u1 x2 => ?_) _ _
  split
  · exact .refl _
  · refine .foldl (fun u3 x4 => ?_) _ _
    refine .foldl (fun u5 x6 => ?_) _ _
    split
    · exact State.tame_eraseOne _ _ _ _ _
    · exact .refl _

theorem State.tame_releaseHalf (s : State) : Tame s s.releaseHalf := by
  unfold State.releaseHalf
  split
  · exact .refl _
  · split
    · exact .refl _
    · extract_lets +onlyGivenNames left1 s2 s3
      have hs3 : Tame s s3 := .ite (fun _ => .update (.refl _)) fun _ => .refl _
      split
      · exact hs3
      · exact .ite (fun _ => hs3) fun _ => .after (.foldl (fun _ _ => .after (State.tame_eraseHalf _ _) (State.tame_logSys _ _)) _ _)
          (.update hs3)

theorem State.tame_journalDue (s : State) : Tame s s.journalDue := by
  unfold State.journalDue
  exact .ite (fun _ => tame_checkpointAll _) fun _ => .refl _

theorem State.tame_dormantGo (s : State) : Tame s s.dormantGo := by
  unfold State.dormantGo
  exact .ite (fun _ => .refl _) fun _ => .after (.after (.update (.refl _)) (State.tame_put _ _ _ _)) (.after (State.tame_put _ _ _ _)
    (State.tame_tallyEnd _ _))

theorem State.tame_flow (s : State) : Tame s s.flow := by
  unfold State.flow
  exact .after
    (.after (.after (.after (.after (.after (State.tame_dormantGo _) (State.tame_releaseHalf _))
    (.foldl (fun _ _ => State.tame_shutdownOne _ _) _ _)) (.foldl (fun _ _ => State.tame_rotateOne _ _) _ _))
    (.foldl (fun _ _ => State.tame_detachOne _ _) _ _)) (.foldl (fun _ _ => State.tame_flushOne _ _) _ _)) (.after (State.tame_journalDue _)
    (State.tame_logGo _))

/-! ### Machine/Mbx -/

theorem State.tame_putAll (s : State) (f : Fld) (x : Nat) (h : f.reg.plain = true := by decide) : Tame s (s.putAll f x) :=
  .foldl (fun s _ => s.tame_put f _ x h) _ _

theorem State.tame_useToken (s : State) (m : Msg) : Tame s (s.useToken m) := by
  unfold State.useToken
  exact .update (.refl _)

theorem State.tame_setReply (s : State) (c : Nat) (r : Reply) (replayed : Bool) : Tame s (s.setReply c r replayed) := by
  unfold State.setReply
  exact .update (.refl _)

theorem State.tame_answer (s : State) (op : Nat) (m : Msg) (here : Bool) (code : Nat) (detail : Nat) (body : Bytes) (more : Bool) : Tame s
    (s.answer op m here code detail body more) := by
  unfold State.answer
  exact .after (.after (.ite (fun _ => .ite (fun _ => State.tame_send _ _) fun _ => .refl _) fun _ => .ite
    (fun _ => State.tame_emit _ _) fun _ => State.tame_digest _ _ _) (.ite (fun _ => State.tame_setReply _ _ _ _) fun _ => .refl _))
    (.update (.refl _))

theorem State.tame_done (s : State) (op : Nat) (m : Msg) (a : Arrival) (body : Bytes) (more : Bool) : Tame s (s.done op m a body more) := by
  unfold State.done
  exact State.tame_answer _ _ _ _ _ _ _ _

theorem State.tame_refuse (s : State) (op : Nat) (m : Msg) (a : Arrival) (code : Nat) (detail : Nat) : Tame s
    (s.refuse op m a code detail) := by
  unfold State.refuse
  exact State.tame_answer _ _ _ _ _ _ _ _

theorem State.tame_replay (s : State) (op : Nat) (m : Msg) (a : Arrival) : Tame s (s.replay op m a) := by
  unfold State.replay
  exact .ite (fun _ => .after (State.tame_send _ _) (State.tame_setReply _ _ _ _)) fun _ => .refl _

theorem tame_msgApply (op : Nat) (len : Nat) (m : Msg) (a : Arrival) (f : State → State) (s : State) (free : Bool)
    (hf : ∀ u, Tame u (f u)) : Tame s (msgApply op len m a f s free) := by
  unfold msgApply
  exact .ite (fun _ => .refl _) fun _ => .ite (fun _ => State.tame_replay _ _ _ _) fun _ => .ite
    (fun _ => State.tame_refuse _ _ _ _ _ _) fun _ => .ite (fun _ => State.tame_refuse _ _ _ _ _ _) fun _ => .ite
    (fun _ => State.tame_refuse _ _ _ _ _ _) fun _ => .after (.ite (fun _ => State.tame_refuse _ _ _ _ _ _) fun _ => hf _)
    (State.tame_useToken _ _)

theorem State.tame_mailUnknown (s : State) (m : Msg) (a : Arrival) : Tame s (s.mailUnknown m a) := by
  unfold State.mailUnknown
  exact .ite (fun _ => .refl _) fun _ => .ite (fun _ => State.tame_replay _ _ _ _) fun _ => .ite
    (fun _ => State.tame_refuse _ _ _ _ _ _) fun _ => State.tame_refuse _ _ _ _ _ _

theorem State.tame_await (s : State) (m : Msg) (a : Arrival) (what : Nat) (arg : Nat) : Tame s (s.await m a what arg) := by
  unfold State.await
  exact .update (.refl _)

theorem State.tame_answerWaits (s : State) (op : Nat) (what : Nat) (arg : Nat) (code : Nat) (detail : Nat) (body : Bytes) : Tame s
    (s.answerWaits op what arg code detail body) := by
  unfold State.answerWaits
  exact .after (.foldl (fun _ _ => State.tame_answer _ _ _ _ _ _ _ _) _ _) (.update (.refl _))

/-! ### Machine/Link -/

theorem State.tame_setLnk (s : State) (l : Link) (x : Lnk) : Tame s (s.setLnk l x) := by
  unfold State.setLnk
  split
  · exact State.tame_setPk _ _ _
  · exact .update (.refl _)

theorem State.tame_pump (s : State) (a1 : Link) : Tame s (s.pump a1) := by
  unfold State.pump
  split
  · exact State.tame_pumpPack _ _
  · exact State.tame_pumpTwin _

theorem State.tame_releaseHeld (s : State) : Tame s s.releaseHeld := by
  unfold State.releaseHeld
  exact .ite (fun _ => .refl _) fun _ => .after (.foldl (fun _ _ => State.tame_issue _ _) _ _) (.update (.refl _))

theorem State.tame_afterAck (s : State) (l : Link) : Tame s (s.afterAck l) := by
  unfold State.afterAck
  split
  · exact State.tame_pumpPack _ _
  · exact .after (State.tame_releaseHeld _) (State.tame_pumpTwin _)

theorem State.tame_ackTo (s : State) (l : Link) (seq : BitVec 32) : Tame s (s.ackTo l seq) := by
  unfold State.ackTo
  exact .ite (fun _ => State.tame_setLnk _ _ _) fun _ => .refl _

theorem answers_execFlitAck (l : Link) (seq : BitVec 32) (s : State) : Answers s (execFlitAck l seq s) := by
  unfold execFlitAck
  exact .awake (.next (.after (State.tame_flow _) (.after (State.tame_afterAck _ _) (State.tame_ackTo _ _ _))))

theorem answers_execTwinFlitAck (seq : BitVec 32) (s : State) : Answers s (execTwinFlitAck seq s) := by
  unfold execTwinFlitAck
  exact .awake (.next (.after (State.tame_flow _) (.after (State.tame_afterAck _ _) (State.tame_ackTo _ _ _))))

theorem answers_execCredit (l : Link) (n : Nat) (s : State) : Answers s (execCredit l n s) := by
  unfold execCredit
  exact .awake (.next (.after (State.tame_pump _ _) (State.tame_setLnk _ _ _)))

theorem State.tame_replayFlits (s : State) (l : Link) : Tame s (s.replayFlits l) := by
  unfold State.replayFlits
  extract_lets +onlyGivenNames x1 s2
  have hs2 : Tame s s2 := .foldl (fun _ _ => State.tame_send _ _) _ _
  split
  · rename_i h3 h4
    exact .after (State.tame_pmc _ _ _ _) (.after (State.tame_bump _ _ _ _) hs2)
  · rename_i h5
    exact hs2

theorem State.tame_pkRaise (s : State) (n : Nat) : Tame s (s.pkRaise n) := by
  unfold State.pkRaise
  exact State.tame_raise _ _

theorem State.tame_pkBit (s : State) (f : Fld) (n : Nat) (h : f.reg.plain = true := by decide) : Tame s (s.pkBit f n) :=
  .ite (fun _ => .refl s) fun _ => .after (State.tame_pkRaise _ _) (s.tame_put f n 1 h)

theorem State.tame_linkChg (s : State) (n : Nat) : Tame s (s.linkChg n) := by
  unfold State.linkChg
  exact State.tame_pkBit _ _ _

theorem State.tame_setPkState (s : State) (n : Nat) (st : Nat) : Tame s (s.setPkState n st) := by
  unfold State.setPkState
  exact .after (State.tame_showPack _ _) (State.tame_setPk _ _ _)

theorem State.tame_setSide (s : State) (n : Nat) (x : Nat) : Tame s (s.setSide n x) := by
  unfold State.setSide
  exact .after (State.tame_showPack _ _) (State.tame_setPk _ _ _)

theorem State.tame_twinDown (s : State) : Tame s s.twinDown := by
  unfold State.twinDown
  exact .ite (fun _ => .refl _) fun _ => .after (.after (.ite (fun _ => State.tame_alert _ _) fun _ => .refl _) (.update (.refl _)))
    (.after (State.tame_raise _ _) (State.tame_put _ _ _ _))

theorem State.tame_retrainStart (s : State) (l : Link) : Tame s (s.retrainStart l) := by
  unfold State.retrainStart
  split
  · exact .after (.after (.ite (fun _ => .refl _) fun _ => State.tame_setSide _ _ _) (.after (State.tame_train _ _)
      (.ite (fun _ => .after (State.tame_linkChg _ _) (State.tame_put _ _ _ _)) fun _ => .refl _))) (.after (State.tame_put _ _ _ _)
      (State.tame_bump _ _ _ _))
  · exact .after (State.tame_raise _ _) (.after (State.tame_presetAt _ _) (State.tame_bump _ _ _ _))

theorem State.tame_captureHeld (s : State) : Tame s s.captureHeld := by
  unfold State.captureHeld
  exact .ite (fun _ => .refl _) fun _ => .after (State.tame_raise _ _) (State.tame_put _ _ _ _)

theorem State.tame_capture (s : State) (e : LEntry) (f : State → State) (hf : ∀ u, Tame u (f u)) : Tame s (s.capture e f) := by
  unfold State.capture
  exact .ite (fun _ => .ite (fun _ => .update (.refl _)) fun _ => .refl _) fun _ => .ite
    (fun _ => .after (.after (State.tame_raise _ _) (State.tame_put _ _ _ _)) (.update (.refl _))) fun _ => .after (hf _)
    (.after (State.tame_ringDeliver _ _) (.ite (fun _ => State.tame_recordPut _ _) fun _ => .refl _))

theorem State.tame_keepMsg (s : State) (e : LEntry) (m : PkMsg) : Tame s (s.keepMsg e m) := by
  unfold State.keepMsg
  exact .ite (fun _ => .update (.refl _)) fun _ => .refl _

theorem State.tame_keepCapsule (s : State) (e : LEntry) (c : Capsule) : Tame s (s.keepCapsule e c) := by
  unfold State.keepCapsule
  exact .ite (fun _ => .update (.refl _)) fun _ => .refl _

theorem State.tame_peerTell (s : State) (e : LEntry) : Tame s (s.peerTell e) := by
  unfold State.peerTell
  exact .ite (fun _ => State.tame_twinSend _ _ _ _) fun _ => .refl _

theorem State.tame_ackSome (s : State) (l : Link) (k : Nat) : Tame s (s.ackSome l k) := by
  unfold State.ackSome
  exact .after (State.tame_control _ _ _ _ _ _) (.after (State.tame_control _ _ _ _ _ _) (State.tame_setLnk _ _ _))

theorem State.tame_accepted (s : State) (l : Link) (k : Nat) : Tame s (s.accepted l k) := by
  unfold State.accepted
  extract_lets +onlyGivenNames s1
  have hs1 : Tame s s1 := .foldl (fun _ _ => State.tame_ackSome _ _ _) _ _
  split
  · rename_i h2 h3
    exact .after (State.tame_pmc _ _ _ _) hs1
  · rename_i h4
    exact hs1

theorem State.tame_twinIn (s : State) (n : Nat) : Tame s (s.twinIn n) := by
  unfold State.twinIn
  exact .after (State.tame_accepted _ _ _) (.update (.refl _))

/-! ### Machine/Chan -/

theorem State.tame_mailGo (s : State) (m : Msg) : Tame s (s.mailGo m) := by
  unfold State.mailGo
  exact .ite (fun _ => State.tame_put _ _ _ _) fun _ => .after (.after (.ite (fun _ => State.tame_mailUnknown _ _ _) fun _ => .ite
    (fun _ => State.tame_peerTell _ _) fun _ => State.tame_capture _ _ _ (fun _ => State.tame_mailUnknown _ _ _))
    (.after (State.tame_pmc _ _ _ _) (.update (.refl _)))) (.after (State.tame_raise _ _) (.after (State.tame_put _ _ _ _)
    (State.tame_put _ _ _ _)))

theorem answers_execMailboxGo (m : Msg) (s : State) : Answers s (execMailboxGo m s) := by
  unfold execMailboxGo
  exact .awake (.next (State.tame_mailGo _ _))

theorem answers_execOutOfBandMiCommand (m : Msg) (s : State) : Answers s (execOutOfBandMiCommand m s) := by
  unfold execOutOfBandMiCommand
  exact .awake (.next (State.tame_mailGo _ _))

theorem State.tame_giveMi (s : State) : Tame s s.giveMi := by
  unfold State.giveMi
  split
  · exact .refl _
  · extract_lets +onlyGivenNames s1 s2
    have hs2 : Tame s s2 := .update (.refl _)
    split
    · exact hs2
    · split
      · exact .after (State.tame_succeed _ _ _) (.after (State.tame_emit _ _) hs2)
      · exact .after (State.tame_succeed _ _ _) hs2

theorem answers_execMailboxDone (c : Fin 8) (s : State) : Answers s (execMailboxDone c s) := by
  unfold execMailboxDone
  refine .awake ?_
  extract_lets +onlyGivenNames s1
  have hs1 : Tame s s1 := .after (State.tame_put _ _ _ _) (State.tame_put _ _ _ _)
  extract_lets +onlyGivenNames s2 s3
  have hs3 : Tame s s3 := .update hs1
  extract_lets +onlyGivenNames s4
  have hs4 : Tame s s4 := .after (State.tame_pmc _ _ _ _) (.after (State.tame_pmc _ _ _ _) hs3)
  extract_lets +onlyGivenNames s5
  have hs5 : Tame s s5 := by
    unfold s5
    split
    · exact .ite (fun _ => .after (State.tame_sendMsix _ _ _) hs4) fun _ => hs4
    · exact hs4
  exact .next (.ite (fun _ => .after (State.tame_giveMi _) hs5) fun _ => hs5)

theorem State.tame_resetChans (s : State) (f : Nat) : Tame s (s.resetChans f) := by
  unfold State.resetChans
  exact .after (.update (.refl _)) (.foldl (fun _ _ => .after (State.tame_setReg _ _ _ _) (State.tame_setReg _ _ _ _)) _ _)

/-! ### Machine/Cph -/

theorem State.tame_secStop (s : State) (code : Nat) : Tame s (s.secStop code) := by
  unfold State.secStop
  exact .after (.after (.after (.after (State.tame_raise _ _) (.after (State.tame_setFault _ _) (State.tame_setFault _ _)))
    (.foldl (fun _ _ => State.tame_fail _ _ _ _) _ _)) (.update (.refl _))) (.after (State.tame_put _ _ _ _) (State.tame_put _ _ _ _))

theorem State.tame_cphCores (s : State) : Tame s s.cphCores := by
  unfold State.cphCores
  exact State.tame_put _ _ _ _

theorem State.tame_cphFault (s : State) (n : Nat) : Tame s (s.cphFault n) := by
  unfold State.cphFault
  exact .after (.after (State.tame_judge _) (.after (State.tame_raise _ _) (State.tame_cphCores _))) (.after (State.tame_put _ _ _ _)
    (.after (State.tame_bump _ _ _ _) (State.tame_put _ _ _ _)))

theorem State.tame_takeNonce (s : State) (n : Nat) : Tame s (s.takeNonce n) := by
  unfold State.takeNonce
  exact State.tame_setKslot _ _ _

theorem State.tame_invFail (s : State) (run : CphRun) : Tame s (s.invFail run) := by
  unfold State.invFail
  exact .ite (fun _ => .refl _) fun _ => .after (.ite (fun _ => State.tame_cphFault _ _) fun _ => .refl _) (State.tame_bump _ _ _ _)

theorem State.tame_cphFetch (s : State) (op : Nat) (r : Nat) (d : CphDesc) : Tame s (s.cphFetch op r d).1 := by
  unfold State.cphFetch
  split
  · exact .refl _
  · exact State.tame_engFetch _ _

theorem State.tame_cphWrite (s : State) (op : Nat) (d : CphDesc) (e : CphEnd) : Tame s (s.cphWrite op d e) := by
  unfold State.cphWrite
  exact .after (.ite (fun _ => State.tame_engWrite _ _ _) fun _ => .refl _) (State.tame_engWrite _ _ _)

theorem State.tame_cphTake (s : State) (op : Nat) (r : Nat) (d : CphDesc) (run : CphRun) : Tame s (s.cphTake op r d run) := by
  unfold State.cphTake
  exact .after
    (.after (.after (.after (.after (.after (State.tame_complete _ _) (State.tame_pmc _ _ _ _))
    (.ite (fun _ => State.tame_pmc _ _ _ _) fun _ => .refl _)) (.ite (fun _ => State.tame_invFail _ _) fun _ => .refl _))
    (State.tame_cphWrite _ _ _ _)) (.ite (fun _ => State.tame_takeNonce _ _) fun _ => .refl _)) (.after (State.tame_pmc _ _ _ _)
    (.after (State.tame_put _ _ _ _) (State.tame_cphFetch _ _ _ _)))

theorem State.tame_secError (s : State) (code : Nat) : Tame s (s.secError code) := by
  unfold State.secError
  exact .after (.after (.foldl (fun _ _ => State.tame_cphTake _ _ _ _ _) _ _) (.update (.refl _))) (State.tame_secStop _ _)

theorem State.tame_cphNext (s : State) (w : CphWait) : Tame s (s.cphNext w) := by
  unfold State.cphNext
  extract_lets +onlyGivenNames s1 s2
  have hs2 : Tame s s2 := .update (.refl _)
  split
  · exact hs2
  · split
    · exact hs2
    · exact .ite (fun _ => .after (State.tame_secError _ _) (State.tame_cphTake _ _ _ _ _)) fun _ => State.tame_cphTake _ _ _ _ _

theorem State.tame_startWaiting (s : State) : Tame s s.startWaiting := by
  unfold State.startWaiting
  exact .after (.foldl (fun _ _ => State.tame_cphNext _ _) _ _) (.update (.refl _))

theorem tame_cphJob (op : Nat) (r : Nat) (d : CphDesc) (run : CphRun) (s : State) : Tame s (cphJob op r d run s) := by
  unfold cphJob
  exact .ite (fun _ => .refl _) fun _ => .after (.after (State.tame_cphNext _ _) (.ite (fun _ => State.tame_gateShut _) fun _ => .refl _))
    (State.tame_put _ _ _ _)

theorem answers_execXtsEncrypt (r : Fin 32) (d : CphDesc) (run : CphRun) (s : State) : Answers s (execXtsEncrypt r d run s) := by
  unfold execXtsEncrypt
  exact .awake (.next (tame_cphJob _ _ _ _ _))

theorem answers_execXtsDecrypt (r : Fin 32) (d : CphDesc) (run : CphRun) (s : State) : Answers s (execXtsDecrypt r d run s) := by
  unfold execXtsDecrypt
  exact .awake (.next (tame_cphJob _ _ _ _ _))

theorem answers_execGcmEncrypt (r : Fin 32) (d : CphDesc) (run : CphRun) (s : State) : Answers s (execGcmEncrypt r d run s) := by
  unfold execGcmEncrypt
  exact .awake (.next (tame_cphJob _ _ _ _ _))

theorem answers_execGcmDecrypt (r : Fin 32) (d : CphDesc) (run : CphRun) (s : State) : Answers s (execGcmDecrypt r d run s) := by
  unfold execGcmDecrypt
  exact .awake (.next (tame_cphJob _ _ _ _ _))

theorem answers_execCipherCoreDisable (n : Fin 18) (s : State) : Answers s (execCipherCoreDisable n s) := by
  unfold execCipherCoreDisable
  exact .awake (.next (.after (State.tame_judge _) (.after (State.tame_cphCores _) (.after (State.tame_put _ _ _ _)
    (State.tame_put _ _ _ _)))))

theorem answers_execCipherCoreEnable (n : Fin 18) (katPass : Bool) (s : State) : Answers s (execCipherCoreEnable n katPass s) := by
  unfold execCipherCoreEnable
  exact .awake (.next (.ite (fun _ => .refl _) fun _ => .ite (fun _ => .after (State.tame_startWaiting _) (.after (State.tame_judge _)
    (.after (State.tame_cphCores _) (State.tame_put _ _ _ _)))) fun _ => .after (.after (State.tame_secError _ _)
    (.after (State.tame_judge _) (.after (State.tame_raise _ _) (.after (State.tame_cphCores _) (State.tame_put _ _ _ _)))))
    (.after (State.tame_put _ _ _ _) (State.tame_put _ _ _ _))))

theorem State.tame_installKey (s : State) (n : Nat) (mat : Bytes) : Tame s (s.installKey n mat) := by
  unfold State.installKey
  exact State.tame_setKslot _ _ _

theorem State.tame_wipeKey (s : State) (n : Nat) : Tame s (s.wipeKey n) := by
  unfold State.wipeKey
  exact State.tame_setKslot _ _ _

theorem answers_execKeySlotDrained (slot : Fin 65536) (s : State) : Answers s (execKeySlotDrained slot s) := by
  unfold execKeySlotDrained
  refine .awake ?_
  refine .next ?_
  split
  · exact .refl _
  · exact .refl _
  · exact .after (.after (State.tame_startWaiting _) (State.tame_answerWaits _ _ _ _ _ _ _)) (State.tame_wipeKey _ _)
  · exact .after (.after (State.tame_startWaiting _) (State.tame_answerWaits _ _ _ _ _ _ _)) (State.tame_installKey _ _ _)

/-! ### Machine/Key -/

theorem State.tame_xferSend (s : State) (slot : Nat) (gen : BitVec 32) (alg : Nat) (mat : Bytes) : Tame s
    (s.xferSend slot gen alg mat) := by
  unfold State.xferSend
  exact .after (State.tame_twinSend _ _ _ _) (.update (.refl _))

theorem State.tame_makeKey (s : State) (n : Nat) : Tame s (s.makeKey n) := by
  unfold State.makeKey
  extract_lets +onlyGivenNames alg1
  split
  · extract_lets +onlyGivenNames x2 s3 s4
    have hs4 : Tame s s4 := .update (.refl _)
    split
    · exact .after (.after (State.tame_setKslot _ _ _) (State.tame_installKey _ _ _)) (.update hs4)
    · exact .update hs4
  · exact .after (.ite (fun _ => State.tame_xferSend _ _ _ _ _) fun _ => .refl _) (.after (State.tame_installKey _ _ _) (.update (.refl _)))

theorem State.tame_newKey (s : State) (alg : Nat) (owner : BitVec 128) : TameOpt s ((s.newKey alg owner).map Prod.snd) := by
  unfold State.newKey
  split
  · exact .none s
  · exact .some (.after (State.tame_makeKey _ _) (State.tame_setKslot _ _ _))

theorem State.tame_keyMade (s : State) (op : Nat) (m : Msg) (a : Arrival) (n : Nat) (fp : Bool) : Tame s (s.keyMade op m a n fp) := by
  unfold State.keyMade
  exact .ite (fun _ => State.tame_await _ _ _ _ _) fun _ => State.tame_done _ _ _ _ _ _

theorem answers_execCreateKey (m : Msg) (a : Arrival) (alg : Nat) (owner : BitVec 128) (s : State) : Answers s
    (execCreateKey m a alg owner s) := by
  unfold execCreateKey
  refine .awake ?_
  refine .next ?_
  refine tame_msgApply _ _ _ _ _ _ _ (fun x1 => ?_)
  split
  · exact State.tame_refuse _ _ _ _ _ _
  · split
    · exact State.tame_refuse _ _ _ _ _ _
    · rename_i h2 h3 u4 h5
      exact .after (State.tame_keyMade _ _ _ _ _ _) (.after (State.tame_sgenUp _) (.get_snd (State.tame_newKey _ _ _) h5))

theorem answers_execRotateKey (m : Msg) (a : Arrival) (nsid : Nat) (s : State) : Answers s (execRotateKey m a nsid s) := by
  unfold execRotateKey
  refine .awake ?_
  refine .next ?_
  refine tame_msgApply _ _ _ _ _ _ _ (fun x1 => ?_)
  split
  · exact State.tame_refuse _ _ _ _ _ _
  · split
    · exact State.tame_refuse _ _ _ _ _ _
    · split
      · exact State.tame_refuse _ _ _ _ _ _
      · split
        · exact State.tame_refuse _ _ _ _ _ _
        · rename_i h2 h3 u4 h5
          exact .after (.after (.after (State.tame_keyMade _ _ _ _ _ _) (.after (State.tame_flow _) (State.tame_sgenUp _)))
            (.foldl (fun _ _ => State.tame_queueRepack _ _ _) _ _)) (.after (State.tame_setNs _ _ _)
            (.get_snd (State.tame_newKey _ _ _) h5))

theorem State.tame_withSlot (s : State) (op : Nat) (m : Msg) (a : Arrival) (h : BitVec 32) (f : Nat → State → State)
    (hf : ∀ y0 u, Tame u (f y0 u)) : Tame s (s.withSlot op m a h f) := by
  unfold State.withSlot
  split
  · exact State.tame_refuse _ _ _ _ _ _
  · exact hf _ _

theorem answers_execUnloadKey (m : Msg) (a : Arrival) (handle : BitVec 32) (s : State) : Answers s (execUnloadKey m a handle s) := by
  unfold execUnloadKey
  exact .awake (.next (tame_msgApply _ _ _ _ _ _ _ (fun _ => State.tame_withSlot _ _ _ _ _ _
    (fun _ _ => .after (State.tame_done _ _ _ _ _ _) (.after (State.tame_sgenUp _) (State.tame_setKslot _ _ _))))))

theorem answers_execLoadKey (m : Msg) (a : Arrival) (handle : BitVec 32) (s : State) : Answers s (execLoadKey m a handle s) := by
  unfold execLoadKey
  exact .awake (.next (tame_msgApply _ _ _ _ _ _ _ (fun _ => State.tame_withSlot _ _ _ _ _ _
    (fun _ _ => .ite (fun _ => State.tame_refuse _ _ _ _ _ _) fun _ => .after (State.tame_done _ _ _ _ _ _) (.after (State.tame_sgenUp _)
    (State.tame_setKslot _ _ _))))))

theorem answers_execEraseKeySlot (m : Msg) (a : Arrival) (handle : BitVec 32) (s : State) : Answers s (execEraseKeySlot m a handle s) := by
  unfold execEraseKeySlot
  exact .awake (.next (tame_msgApply _ _ _ _ _ _ _ (fun _ => State.tame_withSlot _ _ _ _ _ _
    (fun _ _ => .ite (fun _ => State.tame_refuse _ _ _ _ _ _) fun _ => .after (State.tame_await _ _ _ _ _) (.after (State.tame_sgenUp _)
    (State.tame_setKslot _ _ _))))))

theorem answers_execRewriteKeySlot (m : Msg) (a : Arrival) (handle : BitVec 32) (s : State) : Answers s
    (execRewriteKeySlot m a handle s) := by
  unfold execRewriteKeySlot
  exact .awake (.next (tame_msgApply _ _ _ _ _ _ _ (fun _ => State.tame_withSlot _ _ _ _ _ _
    (fun _ _ => .ite (fun _ => State.tame_refuse _ _ _ _ _ _) fun _ => .ite (fun _ => .after (.after (State.tame_await _ _ _ _ _)
    (.after (State.tame_sgenUp _) (State.tame_setKslot _ _ _))) (.update (.refl _))) fun _ => .after (.after (State.tame_await _ _ _ _ _)
    (.ite (fun _ => State.tame_xferSend _ _ _ _ _) fun _ => .refl _)) (.after (State.tame_sgenUp _) (.after (State.tame_setKslot _ _ _)
    (.update (.refl _))))))))

theorem answers_execChangeOwner (m : Msg) (a : Arrival) (handle : BitVec 32) (owner : BitVec 128) (s : State) : Answers s
    (execChangeOwner m a handle owner s) := by
  unfold execChangeOwner
  exact .awake (.next (tame_msgApply _ _ _ _ _ _ _ (fun _ => State.tame_withSlot _ _ _ _ _ _
    (fun _ _ => .after (State.tame_done _ _ _ _ _ _) (.after (State.tame_sgenUp _) (State.tame_setKslot _ _ _))))))

theorem answers_execEnterDtsComponent (m : Msg) (a : Arrival) (index : Nat) (component : BitVec 256) (s : State) : Answers s
    (execEnterDtsComponent m a index component s) := by
  unfold execEnterDtsComponent
  refine .awake ?_
  refine .next ?_
  refine tame_msgApply _ _ _ _ _ _ _ (fun x1 => ?_)
  extract_lets +onlyGivenNames key2
  split
  · exact State.tame_refuse _ _ _ _ _ _
  · split
    · exact State.tame_refuse _ _ _ _ _ _
    · split
      · exact .after (State.tame_done _ _ _ _ _ _) (.update (.refl _))
      · exact .ite (fun _ => State.tame_refuse _ _ _ _ _ _) fun _ => .after (State.tame_done _ _ _ _ _ _) (.after (State.tame_kstat _)
          (.update (.refl _)))

theorem State.tame_leadValue (s : State) (b : Bytes) : Tame s (s.leadValue b) := by
  unfold State.leadValue
  exact State.tame_record _ _

theorem State.tame_leadDraw (s : State) (len : Nat) (f : Bytes → State → State) (hf : ∀ y0 u, Tame u (f y0 u)) : Tame s
    (s.leadDraw len f) := by
  unfold State.leadDraw
  split
  · split
    · exact .after (hf _ _) (.update (.refl _))
    · exact .refl _
  · exact .after (hf _ _) (.after (State.tame_leadValue _ _) (State.tame_drawn _))

theorem State.tame_exportPart (s : State) (m : Msg) (a : Arrival) (off : Nat) : Tame s (s.exportPart m a off) := by
  unfold State.exportPart
  exact .ite (fun _ => State.tame_refuse _ _ _ _ _ _) fun _ => State.tame_done _ _ _ _ _ _

theorem answers_execExportKeyStore (m : Msg) (a : Arrival) (off : Nat) (s : State) : Answers s (execExportKeyStore m a off s) := by
  unfold execExportKeyStore
  exact .awake (.next (tame_msgApply _ _ _ _ _ _ _ (fun _ => .ite (fun _ => State.tame_refuse _ _ _ _ _ _) fun _ => .ite
    (fun _ => State.tame_exportPart _ _ _ _) fun _ => State.tame_leadDraw _ _ _ (fun _ _ => .after (State.tame_exportPart _ _ _ _)
    (.after (State.tame_kstat _) (.after (.update (.refl _)) (State.tame_drawn _)))))))

theorem State.tame_importRec (s : State) (no : Nat) (i : Nat) : Tame s (s.importRec no i) := by
  unfold State.importRec
  exact State.tame_setKslot _ _ _

theorem State.tame_importDone (s : State) (m : Msg) (a : Arrival) : Tame s (s.importDone m a) := by
  unfold State.importDone
  exact .after (.ite (fun _ => .after (State.tame_refuse _ _ _ _ _ _) (.update (.refl _))) fun _ => .after
    (.after (.after (.after (.update (.refl _)) (State.tame_done _ _ _ _ _ _)) (.foldl (fun _ _ => State.tame_importRec _ _ _) _ _))
    (State.tame_setKslot _ _ _)) (.update (.refl _))) (State.tame_drawn _)

theorem answers_execImportKeyStore (m : Msg) (a : Arrival) (off : Nat) (total : Nat) (data : Bytes) (s : State) : Answers s
    (execImportKeyStore m a off total data s) := by
  unfold execImportKeyStore
  exact .awake (.next (tame_msgApply _ _ _ _ _ _ _ (fun _ => .ite (fun _ => State.tame_refuse _ _ _ _ _ _) fun _ => .ite
    (fun _ => State.tame_refuse _ _ _ _ _ _) fun _ => .ite (fun _ => State.tame_refuse _ _ _ _ _ _) fun _ => .after
    (.ite (fun _ => State.tame_importDone _ _ _) fun _ => State.tame_done _ _ _ _ _ _) (.update (.refl _)))))

theorem State.tame_zeroizeNow (s : State) : Tame s s.zeroizeNow := by
  unfold State.zeroizeNow
  exact .after (.after (.after (State.tame_kstat _) (.update (.refl _))) (.foldl (fun _ _ => State.tame_unchargeAll _ _) _ _))
    (State.tame_norErase _ _)

theorem answers_execZeroize (m : Msg) (a : Arrival) (confirm : BitVec 32) (s : State) : Answers s (execZeroize m a confirm s) := by
  unfold execZeroize
  exact .awake (.next (tame_msgApply _ _ _ _ _ _ _ (fun _ => .ite (fun _ => State.tame_refuse _ _ _ _ _ _) fun _ => .after
    (State.tame_zeroizeNow _) (State.tame_done _ _ _ _ _ _))))

theorem answers_execSanitizeNAssert (ns : Nat) (s : State) : Answers s (execSanitizeNAssert ns s) := by
  unfold execSanitizeNAssert
  exact .awake (.next (.ite (fun _ => .refl _) fun _ => State.tame_capture _ _ _ (fun _ => State.tame_zeroizeNow _)))

theorem answers_execSecXfer (xseq : BitVec 64) (slot : Fin 65536) (gen : BitVec 32) (alg : Nat) (material : BitVec 512)
    (s : State) : Answers s (execSecXfer xseq slot gen alg material s) := by
  unfold execSecXfer
  refine .awake ?_
  extract_lets +onlyGivenNames mat1
  refine .next ?_
  split
  · exact .refl _
  · extract_lets +onlyGivenNames s2
    have hs2 : Tame s s2 := State.tame_twinIn _ _
    split
    · exact .after (State.tame_setKslot _ _ _) (.update hs2)
    · split
      · exact hs2
      · split
        · exact .update hs2
        · extract_lets +onlyGivenNames s3 s4
          have hs4 : Tame s s4 := .update hs2
          extract_lets +onlyGivenNames n5
          split
          · exact .after (State.tame_setKslot _ _ _) hs4
          · exact .after (.after (.after (State.tame_answerWaits _ _ _ _ _ _ _) (State.tame_answerWaits _ _ _ _ _ _ _))
              (State.tame_setKslot _ _ _)) (.after (State.tame_installKey _ _ _) hs4)

theorem answers_execEnrolAuthenticationKey (m : Msg) (a : Arrival) (op : Nat) (role : Nat) (key : BitVec 768) (keyid : BitVec 384)
    (s : State) : Answers s (execEnrolAuthenticationKey m a op role key keyid s) := by
  unfold execEnrolAuthenticationKey
  exact .awake (.next (tame_msgApply _ _ _ _ _ _ _ (fun _ => .ite (fun _ => State.tame_refuse _ _ _ _ _ _) fun _ => .ite
    (fun _ => State.tame_refuse _ _ _ _ _ _) fun _ => .ite (fun _ => .ite (fun _ => State.tame_refuse _ _ _ _ _ _) fun _ => .after
    (.after (State.tame_done _ _ _ _ _ _) (State.tame_sgenUp _)) (.after (State.tame_kstat _) (.update (.refl _)))) fun _ => .ite
    (fun _ => State.tame_refuse _ _ _ _ _ _) fun _ => .after (.after (State.tame_done _ _ _ _ _ _) (.after (State.tame_sgenUp _)
    (State.tame_kstat _))) (.update (.refl _)))))

theorem answers_execClearLockout (m : Msg) (a : Arrival) (region : Nat) (s : State) : Answers s (execClearLockout m a region s) := by
  unfold execClearLockout
  exact .awake (.next (tame_msgApply _ _ _ _ _ _ _ (fun _ => .ite (fun _ => State.tame_refuse _ _ _ _ _ _) fun _ => .after
    (State.tame_done _ _ _ _ _ _) (State.tame_unlock _ _))))

theorem State.tame_authFail (s : State) (c : Nat) : Tame s (s.authFail c) := by
  unfold State.authFail
  exact .after (.ite (fun _ => .after (State.tame_put _ _ _ _) (.update (.refl _))) fun _ => .refl _) (.after (State.tame_put _ _ _ _)
    (.update (.refl _)))

theorem answers_execChallenge (m : Msg) (a : Arrival) (role : Nat) (s : State) : Answers s (execChallenge m a role s) := by
  unfold execChallenge
  exact .awake (.next (tame_msgApply _ _ _ _ _ _ _ (fun _ => .ite (fun _ => State.tame_refuse _ _ _ _ _ _) fun _ => .ite
    (fun _ => State.tame_refuse _ _ _ _ _ _) fun _ => State.tame_leadDraw _ _ _ (fun _ _ => .after (State.tame_done _ _ _ _ _ _)
    (.update (.refl _))))))

theorem answers_execProve (m : Msg) (a : Arrival) (role : Nat) (keyid : BitVec 384) (sig : BitVec 768) (s : State) : Answers s
    (execProve m a role keyid sig s) := by
  unfold execProve
  exact .awake (.next (tame_msgApply _ _ _ _ _ _ _ (fun _ => .ite (fun _ => State.tame_refuse _ _ _ _ _ _) fun _ => .ite
    (fun _ => State.tame_refuse _ _ _ _ _ _) fun _ => .ite (fun _ => .after (State.tame_refuse _ _ _ _ _ _)
    (.after (State.tame_authFail _ _) (.update (.refl _)))) fun _ => State.tame_leadDraw _ _ _
    (fun _ _ => .after (.after (State.tame_done _ _ _ _ _ _) (.update (.refl _))) (.update (.refl _))))))

theorem answers_execLogout (m : Msg) (a : Arrival) (s : State) : Answers s (execLogout m a s) := by
  unfold execLogout
  exact .awake (.next (tame_msgApply _ _ _ _ _ _ _ (fun _ => .after (State.tame_done _ _ _ _ _ _) (.update (.refl _)))))

theorem answers_execTokenLapse (token : BitVec 32) (s : State) : Answers s (execTokenLapse token s) := by
  unfold execTokenLapse
  exact .awake (.next (.update (.refl _)))

theorem answers_execAuthenticationBlockExpiry (c : Fin 8) (s : State) : Answers s (execAuthenticationBlockExpiry c s) := by
  unfold execAuthenticationBlockExpiry
  refine .awake ?_
  extract_lets +onlyGivenNames s1
  have hs1 : Tame s s1 := .after (State.tame_put _ _ _ _) (State.tame_put _ _ _ _)
  exact .next (.update hs1)

theorem answers_execModuleSelftest (m : Msg) (a : Arrival) (errcode : Nat) (s : State) : Answers s (execModuleSelftest m a errcode s) := by
  unfold execModuleSelftest
  exact .awake (.next (tame_msgApply _ _ _ _ _ _ _ (fun _ => .after (State.tame_done _ _ _ _ _ _) (.ite (fun _ => .refl _) fun _ =>
    State.tame_secError _ _))))

theorem answers_execEntropyTestFailure (s : State) : Answers s (execEntropyTestFailure s) := by
  unfold execEntropyTestFailure
  exact .awake (.next (State.tame_secError _ _))

/-! ### Machine/Admin -/

theorem State.tame_badDoorbell (s : State) (f : Nat) : Tame s (s.badDoorbell f) := by
  unfold State.badDoorbell
  exact .after (State.tame_postTo _ _ _ _) (.after (State.tame_errPut _ _) (State.tame_raise _ _))

theorem State.tame_setTail (f : Nat) (qid : Nat) (val : Nat) (s : State) : Tame s (State.setTail f qid val s) := by
  unfold State.setTail
  split
  · exact .refl _
  · exact .after (State.tame_raise _ _) (State.tame_setFunc _ _ _)

theorem State.tame_tailDoorbell (s : State) (f : Nat) (qid : Nat) (val : Nat) : Tame s (s.tailDoorbell f qid val) := by
  unfold State.tailDoorbell
  split
  · exact .refl _
  · split
    · exact State.tame_badDoorbell _ _
    · exact .ite (fun _ => State.tame_badDoorbell _ _) fun _ => .ite (fun _ => .update (.refl _)) fun _ => State.tame_capture _ _ _
        (fun _ => State.tame_setTail _ _ _ _)

theorem State.tame_headDoorbell (s : State) (f : Nat) (qid : Nat) (val : Nat) : Tame s (s.headDoorbell f qid val) := by
  unfold State.headDoorbell
  split
  · exact .refl _
  · split
    · exact State.tame_badDoorbell _ _
    · exact .ite (fun _ => State.tame_badDoorbell _ _) fun _ => .after (State.tame_deletes _) (.after (State.tame_drainCq _ _ _ _)
        (State.tame_setFunc _ _ _))

theorem answers_execSqTailDoorbell (f : Fin 66) (qid : Nat) (val : Nat) (s : State) : Answers s (execSqTailDoorbell f qid val s) := by
  unfold execSqTailDoorbell
  exact .awake (.next (State.tame_tailDoorbell _ _ _ _))

theorem answers_execCqHeadDoorbell (f : Fin 66) (qid : Nat) (val : Nat) (s : State) : Answers s (execCqHeadDoorbell f qid val s) := by
  unfold execCqHeadDoorbell
  exact .awake (.next (State.tame_headDoorbell _ _ _ _))

theorem State.tame_takeCtx (s : State) (t : Tenant) (sqid : Nat) (admin : Bool) (cid : BitVec 16) (opcode : BitVec 8) (nsid : Nat) : Tame s
    (s.takeCtx t sqid admin cid opcode nsid) := by
  unfold State.takeCtx
  exact .after (.after (.after (.after (.ite (fun _ => State.tame_raise _ _) fun _ => .refl _)
    (.ite (fun _ => State.tame_raise _ _) fun _ => .refl _)) (State.tame_pmc _ _ _ _)) (State.tame_pmc _ _ _ _)) (.update (.refl _))

theorem State.tame_fetchCheck (s : State) (c : Ctx) (cdw10 : Nat) : Tame s (s.fetchCheck c cdw10) := by
  unfold State.fetchCheck
  exact .ite (fun _ => State.tame_fail _ _ _ _) fun _ => .ite (fun _ => State.tame_fail _ _ _ _) fun _ => .ite
    (fun _ => State.tame_fail _ _ _ _) fun _ => .refl _

theorem State.tame_takeTurn (s : State) (i : Nat) : Tame s (s.takeTurn i) := by
  unfold State.takeTurn
  exact .ite (fun _ => .update (.refl _)) fun _ => .update (.refl _)

theorem State.tame_passTurn (s : State) (i : Nat) : Tame s (s.passTurn i) := by
  unfold State.passTurn
  exact .update (.refl _)

theorem State.tame_capsuleTake (k : Capsule) (s : State) : Tame s (State.capsuleTake k s) := by
  unfold State.capsuleTake
  split
  · exact .refl _
  · extract_lets +onlyGivenNames s1 s2
    have hs2 : Tame s s2 := .update (.refl _)
    extract_lets +onlyGivenNames stamp3 s4
    have hs4 : Tame s s4 := .after (State.tame_takeCtx _ _ _ _ _ _ _) hs2
    extract_lets +onlyGivenNames s5 s6
    have hs6 : Tame s s6 := .update hs4
    split
    · split
      · exact .after (State.tame_fail _ _ _ _) hs6
      · exact .after (State.tame_fetchCheck _ _ _) hs6
    · exact hs6

theorem State.tame_serveAssoc (s : State) (i : Nat) : Tame s (s.serveAssoc i) := by
  unfold State.serveAssoc
  split
  · exact .refl _
  · exact .ite (fun _ => State.tame_captureHeld _) fun _ => .after (.after (State.tame_capture _ _ _ (fun _ => State.tame_capsuleTake _ _))
      (.after (State.tame_keepCapsule _ _ _) (.after (State.tame_raise _ _) (State.tame_takeTurn _ _)))) (.update (.refl _))

theorem State.tame_serveFabric (s : State) (a1 : Nat) : Tame s (s.serveFabric a1) := by
  fun_induction s.serveFabric a1
  · exact .refl _
  · rename_i ih5
    exact .after ih5 (State.tame_serveAssoc _ _)
  · exact .refl _
  · exact .refl _

theorem State.tame_fabricTurns (s : State) : Tame s s.fabricTurns := by
  unfold State.fabricTurns
  exact State.tame_serveFabric _ _

theorem answers_execCommandFetch (f : Fin 66) (qid : Nat) (cid : BitVec 16) (op : SqeHead) (nsid : Nat) (s : State) : Answers s
    (execCommandFetch f qid cid op nsid s) := by
  unfold execCommandFetch
  refine .awake ?_
  refine .next ?_
  split
  · exact .refl _
  · split
    · exact .refl _
    · split
      · exact .after (State.tame_fabricTurns _) (.after (State.tame_passTurn _ _) (State.tame_setFunc _ _ _))
      · extract_lets +onlyGivenNames s1
        have hs1 : Tame s s1 := .after (State.tame_emit _ _) (State.tame_takeTurn _ _)
        extract_lets +onlyGivenNames v2 s3
        have hs3 : Tame s s3 := .after (State.tame_setFunc _ _ _) hs1
        extract_lets +onlyGivenNames stamp4 s5
        have hs5 : Tame s s5 := .after (State.tame_takeCtx _ _ _ _ _ _ _) hs3
        refine .after (State.tame_fabricTurns _) ?_
        split
        · exact .after (State.tame_fetchCheck _ _ _) hs5
        · exact hs5

theorem State.tame_dropTenant (s : State) (t : Tenant) : Tame s (s.dropTenant t) := by
  unfold State.dropTenant
  exact .foldl (fun _ _ => .after (State.tame_release _ _) (State.tame_giveBack _ _)) _ _

theorem State.tame_makeAdmin (s : State) (f : Nat) : Tame s (s.makeAdmin f) := by
  unfold State.makeAdmin
  exact State.tame_setFunc _ _ _

theorem State.tame_confirmSlot (s : State) : Tame s s.confirmSlot := by
  unfold State.confirmSlot
  exact .ite (fun _ => .refl _) fun _ => State.tame_selWrite _ _

theorem State.tame_readyNow (s : State) (f : Nat) : Tame s (s.readyNow f) := by
  unfold State.readyNow
  exact .ite (fun _ => .after (.ite (fun _ => State.tame_confirmSlot _) fun _ => .refl _) (State.tame_put _ _ _ _)) fun _ => .refl _

theorem State.tame_writeCc (s : State) (f : Nat) (cc : BitVec 32) (en : Nat) : Tame s (s.writeCc f cc en) := by
  unfold State.writeCc
  exact .after (State.tame_put _ _ _ _) (State.tame_setReg _ _ _ _)

theorem answers_execControllerEnable (f : Fin 66) (cc : BitVec 32) (s : State) : Answers s (execControllerEnable f cc s) := by
  unfold execControllerEnable
  exact .awake (.next (.ite (fun _ => .refl _) fun _ => .after (State.tame_raise _ _) (.after (State.tame_readyNow _ _)
    (.after (State.tame_makeAdmin _ _) (State.tame_writeCc _ _ _ _)))))

theorem State.tame_resetFunc (s : State) (f : Nat) : Tame s (s.resetFunc f) := by
  unfold State.resetFunc
  exact .after (.after (.after (.after (.after (.after (State.tame_put _ _ _ _) (.after (State.tame_put _ _ _ _) (State.tame_put _ _ _ _)))
    (.ite (fun _ => .update (.refl _)) fun _ => .refl _)) (State.tame_setReg _ _ _ _)) (.update (.refl _))) (.update (.refl _)))
    (State.tame_dropTenant _ _)

theorem answers_execControllerReset (f : Fin 66) (cc : BitVec 32) (s : State) : Answers s (execControllerReset f cc s) := by
  unfold execControllerReset
  exact .awake
    (.next (.ite (fun _ => .after (State.tame_flow _) (.after (State.tame_raise _ _) (.after (State.tame_resetFunc _ _)
    (State.tame_writeCc _ _ _ _)))) fun _ => .refl _))

theorem State.tame_clearFunc (s : State) (f : Nat) : Tame s (s.clearFunc f) := by
  unfold State.clearFunc
  exact .after
    (.after (.after
    (.after (.ite (fun _ => .after (State.tame_resetChans _ _) (.after (State.tame_setReg _ _ _ _) (.after (State.tame_setReg _ _ _ _)
    (State.tame_setReg _ _ _ _)))) fun _ => .refl _) (.update (.refl _))) (State.tame_setReg _ _ _ _)) (.after (State.tame_setReg _ _ _ _)
    (.after (State.tame_setReg _ _ _ _) (.after (State.tame_setReg _ _ _ _) (State.tame_setReg _ _ _ _))))) (State.tame_resetFunc _ _)

theorem answers_execFunctionLevelReset (f : Fin 66) (s : State) : Answers s (execFunctionLevelReset f s) := by
  unfold execFunctionLevelReset
  exact .awake (.next (.ite (fun _ => .after (.after (State.tame_flow _) (.ite (fun _ => State.tame_raise _ _) fun _ => .refl _))
    (.after (State.tame_raise _ _) (State.tame_clearFunc _ _))) fun _ => .refl _))

theorem answers_execNvmSubsystemReset (f : Fin 66) (s : State) : Answers s (execNvmSubsystemReset f s) := by
  unfold execNvmSubsystemReset
  exact .awake (.next (.ite (fun _ => .after (.after (State.tame_flow _) (.ite (fun _ => State.tame_raise _ _) fun _ => .refl _))
    (.after (State.tame_raise _ _) (.foldl (fun _ _ => .ite (fun _ => .after (State.tame_put _ _ _ _) (State.tame_resetFunc _ _)) fun _ =>
    .refl _) _ _))) fun _ => .refl _))

theorem answers_execConventionalReset (port : Fin 2) (s : State) : Answers s (execConventionalReset port s) := by
  unfold execConventionalReset
  refine .awake ?_
  extract_lets +onlyGivenNames mine1 vfs2 en3 s4
  have hs4 : Tame s s4 := .foldl (fun _ _ => State.tame_clearFunc _ _) _ _
  extract_lets +onlyGivenNames s5 s6
  have hs6 : Tame s s6 := .update hs4
  extract_lets +onlyGivenNames s7
  have hs7 : Tame s s7 := .ite (fun _ => .after (State.tame_raise _ _) hs6) fun _ => hs6
  exact .next (.after (State.tame_flow _) (.ite (fun _ => .after (State.tame_raise _ _) hs7) fun _ => hs7))

theorem answers_execShutdownNotification (f : Fin 66) (abrupt : Bool) (s : State) : Answers s (execShutdownNotification f abrupt s) := by
  unfold execShutdownNotification
  exact .awake
    (.next (.ite (fun _ => .refl _) fun _ => .after
    (.after (.after (State.tame_flow _) (.after (State.tame_closeCovered _) (State.tame_closeJournal _))) (.update (.refl _)))
    (.after (State.tame_raise _ _) (.after (State.tame_put _ _ _ _) (State.tame_put _ _ _ _)))))

theorem answers_execPcieLinkDown (port : Fin 2) (s : State) : Answers s (execPcieLinkDown port s) := by
  unfold execPcieLinkDown
  exact .awake (.next (.after (State.tame_raise _ _) (.update (.refl _))))

theorem answers_execPcieLinkUp (port : Fin 2) (s : State) : Answers s (execPcieLinkUp port s) := by
  unfold execPcieLinkUp
  exact .awake (.next (.after (.after (State.tame_raise _ _) (.update (.refl _))) (.foldl (fun _ _ => State.tame_presetAt _ _) _ _)))

theorem answers_execNumvfsChange (port : Fin 2) (numVfs : Nat) (vfEnable : Bool) (s : State) : Answers s
    (execNumvfsChange port numVfs vfEnable s) := by
  unfold execNumvfsChange
  exact .awake
    (.next (.ite (fun _ => .refl _) fun _ => .after
    (.after (.after (State.tame_flow _) (.after (State.tame_raise _ _) (.foldl (fun _ _ => State.tame_clearFunc _ _) _ _)))
    (.ite (fun _ => State.tame_raise _ _) fun _ => .refl _)) (.update (.refl _))))

theorem answers_execPcieCompletionTimeout (stamp : BitVec 64) (s : State) : Answers s (execPcieCompletionTimeout stamp s) := by
  unfold execPcieCompletionTimeout
  refine .awake ?_
  refine .next ?_
  split
  · exact .refl _
  · exact .after (State.tame_flow _) (.after (State.tame_raise _ _) (.after (State.tame_fail _ _ _ _) (State.tame_giveBack _ _)))

theorem answers_execPoisonedCompletion (stamp : BitVec 64) (s : State) : Answers s (execPoisonedCompletion stamp s) := by
  unfold execPoisonedCompletion
  refine .awake ?_
  refine .next ?_
  split
  · exact .refl _
  · exact .after (State.tame_flow _) (.after (State.tame_raise _ _) (.after (State.tame_fail _ _ _ _) (State.tame_giveBack _ _)))

theorem State.tame_onFunc (s : State) (c : Ctx) (g : Nat → State) (hg : ∀ y0, Tame s (g y0)) : Tame s (s.onFunc c g) := by
  unfold State.onFunc
  split
  · exact hg _
  · exact State.tame_fail _ _ _ _

theorem answers_execCreateIoSubmissionQueue (stamp : BitVec 64) (qid : Nat) (size : Nat) (cqid : Nat) (prio : Fin 4) (contiguous : Bool)
    (base : BitVec 64) (s : State) : Answers s (execCreateIoSubmissionQueue stamp qid size cqid prio contiguous base s) := by
  unfold execCreateIoSubmissionQueue
  exact .awake (.next (tame_withCtx _ _ _ (fun _ _ => State.tame_onFunc _ _ _ (fun _ => .ite (fun _ => State.tame_fail _ _ _ _) fun _ =>
    .ite (fun _ => State.tame_fail _ _ _ _) fun _ => .ite (fun _ => State.tame_fail _ _ _ _) fun _ => .ite
    (fun _ => State.tame_fail _ _ _ _) fun _ => .after (State.tame_succeed _ _ _) (State.tame_setFunc _ _ _)))))

theorem answers_execCreateIoCompletionQueue (stamp : BitVec 64) (qid : Nat) (size : Nat) (vector : Nat) (ien : Bool) (contiguous : Bool)
    (base0 : BitVec 64) (base1 : BitVec 64) (s : State) : Answers s
    (execCreateIoCompletionQueue stamp qid size vector ien contiguous base0 base1 s) := by
  unfold execCreateIoCompletionQueue
  exact .awake (.next (tame_withCtx _ _ _ (fun _ _ => State.tame_onFunc _ _ _ (fun _ => .ite (fun _ => State.tame_fail _ _ _ _) fun _ =>
    .ite (fun _ => State.tame_fail _ _ _ _) fun _ => .ite (fun _ => State.tame_fail _ _ _ _) fun _ => .ite
    (fun _ => State.tame_fail _ _ _ _) fun _ => .after (State.tame_succeed _ _ _) (State.tame_setFunc _ _ _)))))

theorem State.tame_endAssoc (s : State) (a : Nat) : Tame s (s.endAssoc a) := by
  unfold State.endAssoc
  exact .after (.update (.refl _)) (State.tame_dropTenant _ _)

theorem State.tame_abortQueue (s : State) (f : Nat) (qid : Nat) : Tame s (s.abortQueue f qid) := by
  unfold State.abortQueue
  exact .after (.foldl (fun _ _ => .after (State.tame_fail _ _ _ _) (State.tame_giveBack _ _)) _ _) (.ite (fun _ => .refl _) fun _ =>
    State.tame_setFunc _ _ _)

theorem answers_execDeleteIoSubmissionQueue (stamp : BitVec 64) (qid : Nat) (s : State) : Answers s
    (execDeleteIoSubmissionQueue stamp qid s) := by
  unfold execDeleteIoSubmissionQueue
  refine .awake ?_
  refine .next ?_
  refine tame_withCtx _ _ _ (fun x1 x2 => ?_)
  split
  · exact .ite (fun _ => .after (State.tame_flow _) (State.tame_endAssoc _ _)) fun _ => State.tame_fail _ _ _ _
  · exact .ite (fun _ => State.tame_fail _ _ _ _) fun _ => .after (.after (.ite (fun _ => State.tame_setWait _ _ _) fun _ => .after
      (State.tame_flow _) (State.tame_succeed _ _ _)) (State.tame_setFunc _ _ _)) (State.tame_abortQueue _ _ _)

theorem answers_execDeleteIoCompletionQueue (stamp : BitVec 64) (qid : Nat) (s : State) : Answers s
    (execDeleteIoCompletionQueue stamp qid s) := by
  unfold execDeleteIoCompletionQueue
  exact .awake (.next (tame_withCtx _ _ _ (fun _ _ => State.tame_onFunc _ _ _ (fun _ => .ite (fun _ => State.tame_fail _ _ _ _) fun _ =>
    .ite (fun _ => State.tame_fail _ _ _ _) fun _ => .after (State.tame_succeed _ _ _) (State.tame_setFunc _ _ _)))))

theorem answers_execAbort (stamp : BitVec 64) (sqid : Nat) (cid : BitVec 16) (s : State) : Answers s (execAbort stamp sqid cid s) := by
  unfold execAbort
  exact .awake (.next (tame_withCtx _ _ _ (fun _ _ => .ite (fun _ => State.tame_fail _ _ _ _) fun _ => State.tame_succeed _ _ _)))

theorem answers_execAsynchronousEventRequest (stamp : BitVec 64) (s : State) : Answers s (execAsynchronousEventRequest stamp s) := by
  unfold execAsynchronousEventRequest
  exact .awake (.next (tame_withCtx _ _ _ (fun _ _ => .ite (fun _ => State.tame_fail _ _ _ _) fun _ => .after (State.tame_giveHeld _ _)
    (State.tame_setWait _ _ _))))

theorem State.tame_setClock (s : State) (ms : Nat) : Tame s (s.setClock ms) := by
  unfold State.setClock
  exact .after (.ite (fun _ => .after (State.tame_logSys _ _) (.update (.refl _))) fun _ => .refl _) (.update (.refl _))

theorem State.tame_grantQueues (s : State) (c : Ctx) (dw11 : BitVec 32) : Tame s (s.grantQueues c dw11) := by
  unfold State.grantQueues
  exact .ite (fun _ => State.tame_fail _ _ _ _) fun _ => .ite (fun _ => State.tame_fail _ _ _ _) fun _ => .after (State.tame_succeed _ _ _)
    (State.tame_setCtl _ _ _)

theorem answers_execSetFeatures (stamp : BitVec 64) (fid : BitVec 8) (dw11 : BitVec 32) (timestamp : BitVec 64) (s : State) : Answers s
    (execSetFeatures stamp fid dw11 timestamp s) := by
  unfold execSetFeatures
  exact .awake (.next (tame_withCtx _ _ _ (fun _ _ => .ite (fun _ => State.tame_fail _ _ _ _) fun _ => .ite
    (fun _ => State.tame_grantQueues _ _ _) fun _ => .ite (fun _ => .after (State.tame_succeed _ _ _) (State.tame_setCtl _ _ _)) fun _ =>
    .ite (fun _ => .after (State.tame_succeed _ _ _) (State.tame_setClock _ _)) fun _ => .ite (fun _ => State.tame_fail _ _ _ _) fun _ =>
    .ite (fun _ => State.tame_fail _ _ _ _) fun _ => .ite (fun _ => .ite (fun _ => State.tame_fail _ _ _ _) fun _ => .after
    (State.tame_succeed _ _ _) (State.tame_setCtl _ _ _)) fun _ => .after (State.tame_succeed _ _ _) (State.tame_setCtl _ _ _))))

theorem State.tame_dataTo (s : State) (c : Ctx) (b : Bytes) : Tame s (s.dataTo c b) := by
  unfold State.dataTo
  split
  · exact State.tame_emit _ _
  · split
    · exact .ite (fun _ => State.tame_digest _ _ _) fun _ => State.tame_emit _ _
    · exact .refl _

theorem answers_execGetFeatures (stamp : BitVec 64) (fid : BitVec 8) (dw11 : BitVec 32) (s : State) : Answers s
    (execGetFeatures stamp fid dw11 s) := by
  unfold execGetFeatures
  exact .awake (.next (tame_withCtx _ _ _ (fun _ _ => .ite (fun _ => State.tame_fail _ _ _ _) fun _ => .ite
    (fun _ => .after (State.tame_succeed _ _ _) (State.tame_dataTo _ _ _)) fun _ => State.tame_succeed _ _ _)))

theorem answers_execNvmeMiSend (stamp : BitVec 64) (opcode : BitVec 8) (m : Msg) (s : State) : Answers s
    (execNvmeMiSend stamp opcode m s) := by
  unfold execNvmeMiSend
  exact .awake (.next (tame_withCtx _ _ _ (fun _ _ => .ite (fun _ => .after (State.tame_succeed _ _ _) (State.tame_mailGo _ _)) fun _ =>
    State.tame_fail _ _ _ _)))

theorem answers_execNvmeMiReceive (stamp : BitVec 64) (opcode : BitVec 8) (s : State) : Answers s (execNvmeMiReceive stamp opcode s) := by
  unfold execNvmeMiReceive
  exact .awake (.next (tame_withCtx _ _ _ (fun _ _ => .ite (fun _ => State.tame_fail _ _ _ _) fun _ => .after
    (.ite (fun _ => State.tame_giveMi _) fun _ => .refl _) (.after (State.tame_setWait _ _ _) (.update (.refl _))))))

/-! ### Machine/Cmp -/

theorem State.tame_cmpFault (s : State) (n : Nat) : Tame s (s.cmpFault n) := by
  unfold State.cmpFault
  exact .after (.after (State.tame_raise _ _) (State.tame_setFault _ _)) (.after (State.tame_put _ _ _ _) (.after (State.tame_bump _ _ _ _)
    (State.tame_put _ _ _ _)))

theorem State.tame_cmpFetch (s : State) (op : Nat) (r : Nat) (d : CmpDesc) : Tame s (s.cmpFetch op r d).1 := by
  unfold State.cmpFetch
  split
  · exact .refl _
  · exact State.tame_engFetch _ _

theorem tame_cmpRunJob (op : Nat) (r : Nat) (n : Nat) (d : CmpDesc) (mismatch : Bool) (s : State) : Tame s
    (cmpRunJob op r n d mismatch s) := by
  unfold cmpRunJob
  exact .after (.after (.after (.after (.after (State.tame_complete _ _) (State.tame_pmc _ _ _ _))
    (.ite (fun _ => State.tame_pmc _ _ _ _) fun _ => .refl _)) (.ite (fun _ => State.tame_cmpFault _ _) fun _ => .refl _))
    (.ite (fun _ => State.tame_engWrite _ _ _) fun _ => .refl _)) (.after (State.tame_pmc _ _ _ _) (.after (State.tame_put _ _ _ _)
    (State.tame_cmpFetch _ _ _ _)))

theorem State.tame_cmpNext (n : Nat) (s : State) (w : CmpWait) : Tame s (State.cmpNext n s w) := by
  unfold State.cmpNext
  extract_lets +onlyGivenNames s1
  have hs1 : Tame s s1 := .update (.refl _)
  split
  · exact hs1
  · split
    · exact hs1
    · exact tame_cmpRunJob _ _ _ _ _ _

theorem State.tame_cmpResume (s : State) : Tame s s.cmpResume := by
  unfold State.cmpResume
  exact .after (.foldl (fun _ _ => State.tame_cmpNext _ _ _) _ _) (.update (.refl _))

theorem tame_cmpJob (op : Nat) (r : Nat) (n : Nat) (d : CmpDesc) (mismatch : Bool) (s : State) : Tame s (cmpJob op r n d mismatch s) := by
  unfold cmpJob
  exact .ite (fun _ => .refl _) fun _ => .after (.after (State.tame_cmpNext _ _ _) (.ite (fun _ => State.tame_gateShut _) fun _ => .refl _))
    (State.tame_put _ _ _ _)

theorem answers_execCodeBale (r : Fin 8) (d : CmpDesc) (eng : Fin 26) (mismatch : Bool) (s : State) : Answers s
    (execCodeBale r d eng mismatch s) := by
  unfold execCodeBale
  exact .awake (.next (tame_cmpJob _ _ _ _ _ _))

theorem answers_execDecodeQuarter (r : Fin 8) (d : CmpDesc) (eng : Fin 26) (s : State) : Answers s (execDecodeQuarter r d eng s) := by
  unfold execDecodeQuarter
  exact .awake (.next (tame_cmpJob _ _ _ _ _ _))

theorem answers_execRoundOnly (r : Fin 8) (d : CmpDesc) (eng : Fin 26) (s : State) : Answers s (execRoundOnly r d eng s) := by
  unfold execRoundOnly
  exact .awake (.next (tame_cmpJob _ _ _ _ _ _))

theorem answers_execCodePatch (r : Fin 8) (d : CmpDesc) (eng : Fin 26) (mismatch : Bool) (s : State) : Answers s
    (execCodePatch r d eng mismatch s) := by
  unfold execCodePatch
  exact .awake (.next (tame_cmpJob _ _ _ _ _ _))

theorem answers_execDecodePatch (r : Fin 8) (d : CmpDesc) (eng : Fin 26) (s : State) : Answers s (execDecodePatch r d eng s) := by
  unfold execDecodePatch
  exact .awake (.next (tame_cmpJob _ _ _ _ _ _))

theorem answers_execCompressionEngineDisable (n : Fin 26) (s : State) : Answers s (execCompressionEngineDisable n s) := by
  unfold execCompressionEngineDisable
  exact .awake (.next (.after (State.tame_cmpResume _) (.after (State.tame_judge _) (.after (State.tame_put _ _ _ _)
    (State.tame_put _ _ _ _)))))

theorem answers_execCompressionEngineEnable (n : Fin 26) (s : State) : Answers s (execCompressionEngineEnable n s) := by
  unfold execCompressionEngineEnable
  exact .awake (.next (.ite (fun _ => .refl _) fun _ => .after (State.tame_cmpResume _) (.after (State.tame_judge _)
    (State.tame_put _ _ _ _))))

/-! ### Machine/Pack -/

theorem State.tame_sendHello (s : State) (n : Nat) : Tame s (s.sendHello n) := by
  unfold State.sendHello
  exact State.tame_packIssue _ _ _ _

theorem State.tame_sendIdRead (s : State) (n : Nat) (k : Nat) : Tame s (s.sendIdRead n k) := by
  unfold State.sendIdRead
  exact State.tame_packSend _ _ _ _

theorem State.tame_sendTemp (s : State) (n : Nat) : Tame s (s.sendTemp n) := by
  unfold State.sendTemp
  exact State.tame_packSend _ _ _ _

theorem State.tame_enterService (s : State) (n : Nat) : Tame s (s.enterService n) := by
  unfold State.enterService
  split
  · exact .refl _
  · exact .after (.after (.after (State.tame_recomputeU _) (.after (State.tame_logJoin _ _) (State.tame_idUpdate _ _ _)))
      (.ite (fun _ => State.tame_setPk _ _ _) fun _ => .after (State.tame_setPkState _ _ _) (State.tame_setPk _ _ _))) (.update (.refl _))

theorem State.tame_eraseAllBlocks (s : State) (n : Nat) (i : PackId) : Tame s (s.eraseAllBlocks n i) := by
  unfold State.eraseAllBlocks
  exact .foldl (fun _ _ => .foldl (fun _ _ => .ite (fun _ => .refl _) fun _ => State.tame_eraseOne _ _ _ _ _) _ _) _ _

theorem State.tame_adopt (s : State) (n : Nat) (i : PackId) : Tame s (s.adopt n i) := by
  unfold State.adopt
  exact .after (State.tame_setPk _ _ _) (.update (.refl _))

theorem State.tame_admitPack (s : State) (n : Nat) : Tame s (s.admitPack n) := by
  unfold State.admitPack
  split
  · exact .refl _
  · exact .ite (fun _ => .refl _) fun _ => .ite (fun _ => State.tame_setPkState _ _ _) fun _ => .ite
      (fun _ => .ite (fun _ => .refl _) fun _ => .after (State.tame_eraseAllBlocks _ _ _) (.after (State.tame_setPk _ _ _)
      (State.tame_adopt _ _ _))) fun _ => .after (State.tame_enterService _ _) (State.tame_adopt _ _ _)

theorem State.tame_autoAdmit (s : State) (n : Nat) : Tame s (s.autoAdmit n) := by
  unfold State.autoAdmit
  exact .ite (fun _ => State.tame_admitPack _ _) fun _ => State.tame_judge _

theorem State.tame_forgetErases (s : State) (n : Nat) : Tame s (s.forgetErases n) := by
  unfold State.forgetErases
  exact .after (.foldl (fun _ _ => State.tame_freeIfErased _ _) _ _) (.update (.refl _))

theorem State.tame_resume (s : State) (n : Nat) : Tame s (s.resume n) := by
  unfold State.resume
  exact .after (State.tame_recomputeU _) (.after (State.tame_packRelease _ _) (.after (State.tame_setPkState _ _ _)
    (State.tame_setPk _ _ _)))

theorem State.tame_useReserve (s : State) (lost : Nat) : Tame s (s.useReserve lost) := by
  unfold State.useReserve
  split
  · exact .refl _
  · exact .after (State.tame_admitPack _ _) (.after (State.tame_sgenUp _) (.update (.refl _)))

theorem State.tame_markGone (s : State) (n : Nat) : Tame s (s.markGone n) := by
  unfold State.markGone
  split
  · exact .ite (fun _ => .refl _) fun _ => .update (.refl _)
  · exact .refl _

theorem State.tame_loseHome (s : State) (n : Nat) : Tame s (s.loseHome n) := by
  unfold State.loseHome
  exact .after (State.tame_logLost _ _) (.after (State.tame_dropRebuild _ _) (.after (State.tame_loseWhere _ _)
    (.after (State.tame_markGone _ _) (State.tame_setPk _ _ _))))

theorem State.tame_packLost (s : State) (n : Nat) : Tame s (s.packLost n) := by
  unfold State.packLost
  exact .ite (fun _ => .refl _) fun _ => .after
    (.after (.after (.after (.after (.after (.ite (fun _ => .after (State.tame_flow _) (State.tame_useReserve _ _)) fun _ => .refl _)
    (.after (State.tame_logLost _ _) (State.tame_recomputeU _))) (.after (State.tame_forgetErases _ _) (.after (State.tame_dropRebuild _ _)
    (State.tame_loseWhere _ _)))) (.update (.refl _))) (.ite (fun _ => State.tame_put _ _ _ _) fun _ => .refl _))
    (.after (State.tame_outstUpdate _ _) (.after (State.tame_setPkState _ _ _) (.ite (fun _ => State.tame_markGone _ _) fun _ => .refl _))))
    (State.tame_setPk _ _ _)

theorem State.tame_sideDown (s : State) (n : Nat) (trail : Bool) : Tame s (s.sideDown n trail) := by
  unfold State.sideDown
  exact .ite (fun _ => State.tame_packLost _ _) fun _ => .after (.ite (fun _ => State.tame_packLost _ _) fun _ => .refl _)
    (State.tame_setPk _ _ _)

theorem State.tame_portDown (s : State) (n : Nat) : Tame s (s.portDown n) := by
  unfold State.portDown
  exact .after (.after (.after (.after (State.tame_capture _ _ _ (fun _ => State.tame_sideDown _ _ _)) (State.tame_peerTell _ _))
    (.after (State.tame_pkRaise _ _) (.ite (fun _ => .refl _) fun _ => State.tame_setSide _ _ _))) (State.tame_setPk _ _ _))
    (.after (State.tame_put _ _ _ _) (State.tame_put _ _ _ _))

theorem State.tame_retrainEnd (s : State) (l : Link) (ok : Bool) : Tame s (s.retrainEnd l ok) := by
  unfold State.retrainEnd
  split
  · extract_lets +onlyGivenNames s1
    have hs1 : Tame s s1 := by
      unfold s1
      split
      · rename_i h2 h3
        exact .ite (fun _ => .refl _) fun _ => .after (State.tame_linkChg _ _) (.after (State.tame_setSide _ _ _)
          (.after (State.tame_put _ _ _ _) (State.tame_put _ _ _ _)))
      · rename_i h4
        exact .refl _
    exact .after (State.tame_pump _ _) (.after (State.tame_replayFlits _ _) hs1)
  · extract_lets +onlyGivenNames x5 recent6 s7
    have hs7 : Tame s s7 := State.tame_setLnk _ _ _
    split
    · split
      · rename_i h8 h9 h10
        exact .after (State.tame_portDown _ _) hs7
      · rename_i h11 h12
        exact .after (State.tame_twinDown _) hs7
    · exact hs7

theorem answers_execAckTimeout (l : Link) (retrainOk : Bool) (s : State) : Answers s (execAckTimeout l retrainOk s) := by
  unfold execAckTimeout
  exact .awake (.next (.ite (fun _ => State.tame_retrainEnd _ _ _) fun _ => .ite (fun _ => .refl _) fun _ => .after
    (State.tame_retrainEnd _ _ _) (State.tame_retrainStart _ _)))

theorem tame_flitNak (l : Link) (seq : BitVec 32) (s : State) : Tame s (flitNak l seq s) := by
  unfold flitNak
  exact .after (.ite (fun _ => State.tame_afterAck _ _) fun _ => .after (.ite (fun _ => .after (State.tame_retrainStart _ _)
    (State.tame_setLnk _ _ _)) fun _ => State.tame_afterAck _ _) (.after (State.tame_replayFlits _ _) (State.tame_setLnk _ _ _)))
    (State.tame_ackTo _ _ _)

theorem answers_execFlitNak (l : Link) (seq : BitVec 32) (s : State) : Answers s (execFlitNak l seq s) := by
  unfold execFlitNak
  exact .awake (.next (tame_flitNak _ _ _))

theorem answers_execFlitDiscard (l : Link) (s : State) : Answers s (execFlitDiscard l s) := by
  unfold execFlitDiscard
  refine .awake ?_
  refine .next ?_
  split
  · exact .after (State.tame_control _ _ _ _ _ _) (State.tame_bump _ _ _ _)
  · exact State.tame_control _ _ _ _ _ _

theorem State.tame_fwChunk (s : State) (n : Nat) : Tame s (s.fwChunk n) := by
  unfold State.fwChunk
  exact .ite (fun _ => State.tame_packSend _ _ _ _) fun _ => .after (State.tame_packSend _ _ _ _) (State.tame_setPk _ _ _)

theorem State.tame_updFinish (s : State) (u : BridgeUpd) (status : Nat) : Tame s (s.updFinish u status) := by
  unfold State.updFinish
  exact .after (.ite (fun _ => State.tame_answerWaits _ _ _ _ _ _ _) fun _ => State.tame_answerWaits _ _ _ _ _ _ _) (.update (.refl _))

theorem State.tame_updNext (s : State) : Tame s s.updNext := by
  unfold State.updNext
  split
  · exact .refl _
  · split
    · exact .refl _
    · split
      · exact State.tame_updFinish _ _ _
      · extract_lets +onlyGivenNames quiet1
        split
        · exact State.tame_updFinish _ _ _
        · split
          · exact .refl _
          · split
            · exact .refl _
            · split
              · exact .refl _
              · exact .after (.after (State.tame_fwChunk _ _) (State.tame_setPk _ _ _)) (.update (.refl _))

theorem State.tame_updEnd (s : State) (n : Nat) (status : Nat) : Tame s (s.updEnd n status) := by
  unfold State.updEnd
  extract_lets +onlyGivenNames s1 s2
  have hs2 : Tame s s2 := State.tame_setPk _ _ _
  split
  · exact hs2
  · exact .ite (fun _ => hs2) fun _ => .ite (fun _ => .after (State.tame_updFinish _ _ _) hs2) fun _ => .after (State.tame_updNext _)
      (.update hs2)

theorem answers_execBridgeHoldDrained (n : Fin 32) (s : State) : Answers s (execBridgeHoldDrained n s) := by
  unfold execBridgeHoldDrained
  exact .awake
    (.next (.ite (fun _ => .after (State.tame_packIssue _ _ _ _) (.after (State.tame_setPkState _ _ _) (State.tame_setPk _ _ _))) fun _ =>
    .refl _))

theorem State.tame_judgeBridge (s : State) (n : Nat) : Tame s (s.judgeBridge n) := by
  unfold State.judgeBridge
  split
  · exact .refl _
  · exact .ite (fun _ => .refl _) fun _ => .ite (fun _ => .after (State.tame_setPkState _ _ _) (State.tame_packLost _ _)) fun _ => .ite
      (fun _ => State.tame_setPkState _ _ _) fun _ => .refl _

theorem State.tame_activated (s : State) (n : Nat) : Tame s (s.activated n) := by
  unfold State.activated
  extract_lets +onlyGivenNames p1 s2
  have hs2 : Tame s s2 := .after (State.tame_notice _ _ _ _) (State.tame_put _ _ _ _)
  extract_lets +onlyGivenNames s3
  have hs3 : Tame s s3 := by
    unfold s3
    split
    · exact .after (State.tame_judgeBridge _ _) (.after (State.tame_packRelease _ _) (.after (State.tame_setPkState _ _ _) hs2))
    · split
      · exact .ite (fun _ => .after (State.tame_sendTemp _ _) (.after (State.tame_packRelease _ _)
          (.after (State.tame_setPkState _ _ _) hs2))) fun _ => .after (State.tame_packRelease _ _)
          (.after (State.tame_setPkState _ _ _) hs2)
      · exact .after (State.tame_setPkState _ _ _) hs2
  exact .after (State.tame_updEnd _ _ _) hs3

theorem State.tame_seqFault (s : State) (n : Nat) : Tame s (s.seqFault n) := by
  unfold State.seqFault
  exact .after (.ite (fun _ => State.tame_setFault _ _) fun _ => State.tame_packLost _ _) (.after (State.tame_pkRaise _ _)
    (State.tame_put _ _ _ _))

theorem State.tame_timedOut (s : State) (n : Nat) : Tame s (s.timedOut n) := by
  unfold State.timedOut
  exact .after (.ite (fun _ => State.tame_packLost _ _) fun _ => .after (State.tame_sendHello _ _) (State.tame_retrainStart _ _))
    (State.tame_setPk _ _ _)

theorem State.tame_helloDone (s : State) (n : Nat) (r : PackResp) : Tame s (s.helloDone n r) := by
  unfold State.helloDone
  exact .ite (fun _ => .ite (fun _ => .after (State.tame_timedOut _ _) (State.tame_pkRaise _ _)) fun _ => .after (State.tame_pkRaise _ _)
    (State.tame_setPkState _ _ _)) fun _ => .after (.ite (fun _ => State.tame_activated _ _) fun _ => .ite
    (fun _ => State.tame_judgeBridge _ _) fun _ => .after (State.tame_sendIdRead _ _ _)
    (.ite (fun _ => State.tame_packSend _ _ _ _) fun _ => .ite (fun _ => State.tame_packSend _ _ _ _) fun _ => .refl _))
    (State.tame_setPk _ _ _)

theorem State.tame_idReadDone (s : State) (n : Nat) (copy : Nat) (r : PackResp) : Tame s (s.idReadDone n copy r) := by
  unfold State.idReadDone
  extract_lets +onlyGivenNames d1 p2
  split
  · exact .after (State.tame_sendIdRead _ _ _) (State.tame_setPk _ _ _)
  · extract_lets +onlyGivenNames use3
    split
    · exact .after (.ite (fun _ => State.tame_sendTemp _ _) fun _ => State.tame_setPkState _ _ _) (State.tame_setPk _ _ _)
    · exact .after (.ite (fun _ => State.tame_sendTemp _ _) fun _ => State.tame_setPkState _ _ _) (State.tame_setPk _ _ _)
    · exact .after (State.tame_setPkState _ _ _) (State.tame_setPk _ _ _)

theorem State.tame_tempDone (s : State) (n : Nat) (r : PackResp) : Tame s (s.tempDone n r) := by
  unfold State.tempDone
  split
  · exact .refl _
  · extract_lets +onlyGivenNames t1 s2 s3
    have hs3 : Tame s s3 := State.tame_setPk _ _ _
    extract_lets +onlyGivenNames s4 s5 s6
    have hs6 : Tame s s6 := .ite (fun _ => .update hs3) fun _ => hs3
    split
    · exact .after (State.tame_packRelease _ _) hs6
    · split
      · exact hs6
      · exact .ite (fun _ => .after (State.tame_setPkState _ _ _) hs6) fun _ => .ite
          (fun _ => .ite (fun _ => .after (State.tame_resume _ _) hs6) fun _ => .after (State.tame_autoAdmit _ _)
          (.after (State.tame_packRelease _ _) (.after (State.tame_setPkState _ _ _) (.after (State.tame_loseHome _ _) hs6)))) fun _ =>
          .after (State.tame_autoAdmit _ _) (.after (State.tame_packRelease _ _) (.after (State.tame_setPkState _ _ _) hs6))

theorem State.tame_programHeader (s : State) (cbid : Nat) (m : Nat) : Tame s (s.programHeader cbid m) := by
  unfold State.programHeader
  extract_lets +onlyGivenNames c1
  split
  · exact .refl _
  · exact .after (.after (State.tame_flightGo _ _) (State.tame_setCb _ _ _)) (State.tame_packSend _ _ _ _)

theorem State.tame_eraseAgain (s : State) (cbid : Nat) (m : Nat) : Tame s (s.eraseAgain cbid m) := by
  unfold State.eraseAgain
  split
  · exact State.tame_eraseOne _ _ _ _ _
  · exact .refl _

theorem State.tame_checkDone (s : State) (cbid : Nat) (m : Nat) (last : Bool) (r : PackResp) : Tame s (s.checkDone cbid m last r) := by
  unfold State.checkDone
  split
  · exact .refl _
  · split
    · split
      · exact .after (State.tame_programFail _ _ _ _) (.ite (fun _ => State.tame_dieFailed _ _ _) fun _ => .refl _)
      · exact .refl _
    · exact .ite (fun _ => .ite (fun _ => State.tame_programHeader _ _ _) fun _ => State.tame_checkMember _ _ _ _) fun _ =>
        State.tame_eraseAgain _ _ _

theorem State.tame_erasedOk (s : State) (n : Nat) (d : Nat) (b : Nat) : Tame s (s.erasedOk n d b) := by
  unfold State.erasedOk
  exact .after (State.tame_logSys _ _) (.update (.refl _))

theorem State.tame_eraseFailed (s : State) (n : Nat) (d : Nat) (b : Nat) : Tame s (s.eraseFailed n d b) := by
  unfold State.eraseFailed
  exact .after (State.tame_retire _ _ _ _) (.update (.refl _))

theorem State.tame_afterErase (s : State) (n : Nat) : Tame s (s.afterErase n) := by
  unfold State.afterErase
  exact .after (.ite (fun _ => State.tame_enterService _ _) fun _ => State.tame_recomputeU _)
    (.foldl (fun _ _ => State.tame_freeIfErased _ _) _ _)

theorem State.tame_eraseDone (s : State) (n : Nat) (d : Nat) (b : Nat) (r : PackResp) : Tame s (s.eraseDone n d b r) := by
  unfold State.eraseDone
  exact .ite (fun _ => .after (State.tame_afterErase _ _) (State.tame_erasedOk _ _ _ _)) fun _ => .ite
    (fun _ => .after (State.tame_afterErase _ _) (State.tame_eraseFailed _ _ _ _)) fun _ => .ite
    (fun _ => State.tame_dieFailed _ _ _) fun _ => .refl _

theorem State.tame_eraseAgainDone (s : State) (n : Nat) (cbid : Nat) (m : Nat) (c : PackCmd) (r : PackResp) : Tame s
    (s.eraseAgainDone n cbid m c r) := by
  unfold State.eraseAgainDone
  exact .ite (fun _ => .after (.after (State.tame_checkMember _ _ _ _) (State.tame_setCb _ _ _)) (State.tame_erasedOk _ _ _ _)) fun _ =>
    .ite (fun _ => .after (State.tame_programFail _ _ _ _) (State.tame_eraseFailed _ _ _ _)) fun _ => .ite
    (fun _ => .after (State.tame_programFail _ _ _ _) (State.tame_dieFailed _ _ _)) fun _ => State.tame_programFail _ _ _ _

theorem State.tame_programStatus (s : State) (n : Nat) (c : PackCmd) (r : PackResp) : Tame s (s.programStatus n c r) := by
  unfold State.programStatus
  exact .ite (fun _ => State.tame_retire _ _ _ _) fun _ => .ite (fun _ => State.tame_dieFailed _ _ _) fun _ => .ite
    (fun _ => State.tame_pkRaise _ _) fun _ => .refl _

theorem State.tame_programDone (s : State) (n : Nat) (cbid : Nat) (page : Nat) (m : Nat) (c : PackCmd) (r : PackResp) : Tame s
    (s.programDone n cbid page m c r) := by
  unfold State.programDone
  exact .ite (fun _ => .ite (fun _ => .refl _) fun _ => State.tame_flightAck _ _ _ _) fun _ => .after
    (.ite (fun _ => State.tame_programFail _ _ _ _) fun _ => .refl _) (State.tame_programStatus _ _ _ _)

theorem State.tame_rebuildDone (s : State) (n : Nat) (page : Nat) (c : PackCmd) (r : PackResp) : Tame s (s.rebuildDone n page c r) := by
  unfold State.rebuildDone
  exact .ite (fun _ => State.tame_rebuildAck _ _) fun _ => .after (.update (.refl _)) (State.tame_programStatus _ _ _ _)

theorem State.tame_idWriteEnd (s : State) (n : Nat) (sel : Nat) (status : Nat) : Tame s (s.idWriteEnd n sel status) := by
  unfold State.idWriteEnd
  exact .after (.ite (fun _ => State.tame_idWriteStart _ _) fun _ => .refl _) (.after (State.tame_answerWaits _ _ _ _ _ _ _)
    (State.tame_setPk _ _ _))

theorem State.tame_idWriteDone (s : State) (n : Nat) (step : Nat) (r : PackResp) : Tame s (s.idWriteDone n step r) := by
  unfold State.idWriteDone
  extract_lets +onlyGivenNames p1 first2
  split
  · exact State.tame_idWriteEnd _ _ _ _
  · split
    · exact State.tame_packSend _ _ _ _
    · exact .ite (fun _ => .after (State.tame_packSend _ _ _ _) (State.tame_setPk _ _ _)) fun _ => State.tame_idWriteEnd _ _ _ _
    · exact State.tame_packSend _ _ _ _
    · exact .ite (fun _ => State.tame_idWriteEnd _ _ _ _) fun _ => State.tame_idWriteEnd _ _ _ _

theorem State.tame_fwDone (s : State) (n : Nat) (use : PkUse) (r : PackResp) : Tame s (s.fwDone n use r) := by
  unfold State.fwDone
  extract_lets +onlyGivenNames p1
  split
  · exact .after (State.tame_updEnd _ _ _) (State.tame_put _ _ _ _)
  · split
    · exact .after (State.tame_fwChunk _ _) (State.tame_setPk _ _ _)
    · exact .after (State.tame_put _ _ _ _) (State.tame_setPk _ _ _)
    · exact State.tame_setPk _ _ _

theorem State.tame_sleepDone (s : State) (n : Nat) (level : Nat) (r : PackResp) : Tame s (s.sleepDone n level r) := by
  unfold State.sleepDone
  exact .ite (fun _ => .refl _) fun _ => .after (.ite (fun _ => .after (State.tame_put _ _ _ _) (State.tame_setPkState _ _ _)) fun _ =>
    State.tame_setPkState _ _ _) (.ite (fun _ => .refl _) fun _ => State.tame_setPk _ _ _)

theorem State.tame_wakeDone (s : State) (n : Nat) (r : PackResp) : Tame s (s.wakeDone n r) := by
  unfold State.wakeDone
  exact .ite (fun _ => .refl _) fun _ => .after (State.tame_packRelease _ _) (State.tame_setPkState _ _ _)

theorem State.tame_readFail (s : State) (n : Nat) (c : PackCmd) (r : PackResp) : Tame s (s.readFail n c r) := by
  unfold State.readFail
  exact .ite (fun _ => State.tame_dieFailed _ _ _) fun _ => .refl _

theorem State.tame_packUse (s : State) (n : Nat) (o : PkOut) (r : PackResp) : Tame s (s.packUse n o r) := by
  unfold State.packUse
  split
  · exact State.tame_helloDone _ _ _
  · exact State.tame_idReadDone _ _ _ _
  · exact State.tame_tempDone _ _ _
  · exact State.tame_sleepDone _ _ _ _
  · exact State.tame_wakeDone _ _ _
  · exact .ite (fun _ => State.tame_setPk _ _ _) fun _ => .refl _
  · exact .ite (fun _ => State.tame_setPk _ _ _) fun _ => .refl _
  · exact State.tame_checkDone _ _ _ _ _
  · exact State.tame_eraseAgainDone _ _ _ _ _ _
  · exact State.tame_programDone _ _ _ _ _ _ _
  · exact State.tame_rebuildDone _ _ _ _ _
  · exact .ite (fun _ => State.tame_rebuildGot _ _ _) fun _ => State.tame_readFail _ _ _ _
  · exact .after (.ite (fun _ => .refl _) fun _ => .update (.refl _)) (State.tame_readFail _ _ _ _)
  · exact State.tame_readFail _ _ _ _
  · exact State.tame_programStatus _ _ _ _
  · exact .after (State.tame_logAck _ _ _ _) (State.tame_programStatus _ _ _ _)
  · exact State.tame_readFail _ _ _ _
  · exact State.tame_eraseDone _ _ _ _ _
  · exact State.tame_idWriteDone _ _ _ _
  · exact .ite (fun _ => State.tame_answerWaits _ _ _ _ _ _ _) fun _ => State.tame_answerWaits _ _ _ _ _ _ _
  · exact State.tame_fwDone _ _ _ _
  · exact State.tame_fwDone _ _ _ _
  · exact State.tame_fwDone _ _ _ _

theorem State.tame_applyResp (s : State) (n : Nat) (r : PackResp) : Tame s (s.applyResp n r) := by
  unfold State.applyResp
  extract_lets +onlyGivenNames p1
  split
  · exact .refl _
  · exact .after (.after (.after (.after (State.tame_flow _) (.after (State.tame_releaseAll _) (State.tame_relocReady _)))
      (.ite (fun _ => .ite (fun _ => .refl _) fun _ => State.tame_seqFault _ _) fun _ => State.tame_packUse _ _ _ _))
      (.after (State.tame_pmc _ _ _ _) (State.tame_pmc _ _ _ _))) (.after (State.tame_outstUpdate _ _) (State.tame_setPk _ _ _))

theorem State.tame_applyAsync (s : State) (n : Nat) (code : Nat) (die : Nat) : Tame s (s.applyAsync n code die) := by
  unfold State.applyAsync
  exact .ite (fun _ => .after (State.tame_flow _) (State.tame_retireDie _ _ _)) fun _ => .refl _

theorem State.tame_respLate (s : State) (n : Nat) : Tame s (s.respLate n) := by
  unfold State.respLate
  exact .after (State.tame_flow _) (.after (State.tame_timedOut _ _) (State.tame_pkBit _ _ _))

theorem State.tame_packTimeouts (s : State) : Tame s s.packTimeouts := by
  unfold State.packTimeouts
  exact .ite (fun _ => .refl _) fun _ => .foldl (fun _ _ => .ite (fun _ => .after (State.tame_setPk _ _ _)
    (State.tame_respLate _ _)) fun _ => .refl _) _ _

theorem answers_execPackResponseTimeout (n : Fin 32) (s : State) : Answers s (execPackResponseTimeout n s) := by
  unfold execPackResponseTimeout
  exact .awake (.next (.ite (fun _ => .refl _) fun _ => State.tame_respLate _ _))

theorem answers_execPackSignalLoss (n : Fin 32) (s : State) : Answers s (execPackSignalLoss n s) := by
  unfold execPackSignalLoss
  exact .awake (.next (.ite (fun _ => State.tame_retrainStart _ _) fun _ => .refl _))

theorem answers_execPkpRetrain (n : Fin 32) (s : State) : Answers s (execPkpRetrain n s) := by
  unfold execPkpRetrain
  exact .awake (.next (.ite (fun _ => State.tame_retrainStart _ _) fun _ => .refl _))

theorem State.tame_setCseq (s : State) (n : Nat) (h : BitVec 32) (hvalid : Bool) : Tame s (s.setCseq n h hvalid) := by
  unfold State.setCseq
  exact .after (State.tame_setPk _ _ _) (.ite (fun _ => State.tame_put _ _ _ _) fun _ => .ite (fun _ => .refl _) fun _ =>
    State.tame_put _ _ _ _)

theorem State.tame_sideUp (s : State) (n : Nat) (h : BitVec 32) (hvalid : Bool) : Tame s (s.sideUp n h hvalid) := by
  unfold State.sideUp
  exact .ite (fun _ => State.tame_packLost _ _) fun _ => .ite (fun _ => .after (State.tame_packRelease _ _)
    (State.tame_setPkState _ _ _)) fun _ => .ite (fun _ => .ite (fun _ => .refl _) fun _ => State.tame_sendHello _ _) fun _ => .ite
    (fun _ => State.tame_pumpPack _ _) fun _ => .ite (fun _ => .refl _) fun _ => .after
    (.after (.after (State.tame_sendHello _ _) (State.tame_setPkState _ _ _)) (.after (State.tame_outstUpdate _ _)
    (State.tame_setPk _ _ _))) (State.tame_setCseq _ _ _ _)

theorem State.tame_sideReport (s : State) (n : Nat) : Tame s (s.sideReport n) := by
  unfold State.sideReport
  exact .after (State.tame_capture _ _ _ (fun _ => .after (State.tame_sideUp _ _ _ _) (State.tame_setPk _ _ _))) (State.tame_peerTell _ _)

theorem State.tame_packsGo (s : State) : Tame s s.packsGo := by
  unfold State.packsGo
  exact .foldl (fun _ _ => State.tame_sideReport _ _) _ _

theorem answers_execPackLinkUp (n : Fin 32) (t : Train) (s : State) : Answers s (execPackLinkUp n t s) := by
  unfold execPackLinkUp
  exact .awake (.next (.ite (fun _ => .refl _) fun _ => .ite (fun _ => .after (State.tame_linkChg _ _) (.after (State.tame_setSide _ _ _)
    (.after (State.tame_put _ _ _ _) (State.tame_put _ _ _ _)))) fun _ => .after
    (.after (.after (.after (.after (.after (.ite (fun _ => .refl _) fun _ => State.tame_sideReport _ _) (State.tame_setPk _ _ _))
    (State.tame_replayFlits _ _)) (.ite (fun _ => .refl _) fun _ => State.tame_linkChg _ _)) (State.tame_setSide _ _ _))
    (.after (State.tame_put _ _ _ _) (.after (State.tame_put _ _ _ _) (.after (State.tame_put _ _ _ _) (State.tame_put _ _ _ _)))))
    (State.tame_setPk _ _ _)))

theorem answers_execPackRemovable (n : Fin 32) (s : State) : Answers s (execPackRemovable n s) := by
  unfold execPackRemovable
  exact .awake
    (.next (.ite (fun _ => .after (State.tame_logLost _ _) (.after (State.tame_recomputeU _) (.after (State.tame_packSend _ _ _ _)
    (State.tame_setPk _ _ _)))) fun _ => .refl _))

/-! ### Machine/Io -/

theorem State.tame_nonceWarn (s : State) (nsid : Nat) (ns : Ns) : Tame s (s.nonceWarn nsid ns) := by
  unfold State.nonceWarn
  exact .ite (fun _ => .refl _) fun _ => .after (State.tame_notice _ _ _ _) (.update (.refl _))

theorem State.tame_capFail (s : State) (c : Ctx) : Tame s (s.capFail c) := by
  unfold State.capFail
  exact .after (State.tame_fail _ _ _ _) (.update (.refl _))

theorem State.tame_countWrite (s : State) (bytes : Nat) : Tame s (s.countWrite bytes) := by
  unfold State.countWrite
  exact .update (.refl _)

theorem State.tame_landWrite (s : State) (c : Ctx) (nsid : Nat) (slba : Nat) (w : Nat) (blocks : List BlockData) : Tame s
    (s.landWrite c nsid slba w blocks) := by
  unfold State.landWrite
  split
  · exact .after (State.tame_fail _ _ _ _) (State.tame_giveBack _ _)
  · exact .after (.after (.after (State.tame_flow _) (State.tame_succeed _ _ _)) (.after (State.tame_countWrite _ _)
      (State.tame_overwritten _ _ _ _))) (State.tame_land _ _ _ _ _ _)

theorem State.tame_deepRead (s : State) (cbid : Nat) (cws : List (Nat × Nat × Nat)) (stage : Nat) : Tame s (s.deepRead cbid cws stage) := by
  unfold State.deepRead
  exact .ite (fun _ => State.tame_markRefresh _ _) fun _ => .refl _

theorem State.tame_faultEnd (s : State) (ns : Ns) (f : BlockFault) (cbid : Nat) (ext : List (Nat × Nat)) (own : State → State) (unit : Int)
    (b : BlockData) (hown : ∀ u, Tame u (own u)) : Tame s (s.faultEnd ns f cbid ext own unit b).1 := by
  unfold State.faultEnd
  split
  · extract_lets +onlyGivenNames s1
    have hs1 : Tame s s1 := State.tame_drawn _
    split
    · exact .after (.after (State.tame_poisonCodeword _ _ _ _ _ _) (State.tame_deepRead _ _ _ _))
        (.after (.foldl (fun _ _ => State.tame_escStage _ _ _ _ _ _) _ _) hs1)
    · exact hs1
  · extract_lets +onlyGivenNames cws2 s3
    have hs3 : Tame s s3 := .after (State.tame_deepRead _ _ _ _) (State.tame_escalateAll _ _ _)
    split
    · exact hs3
    · exact .after (hown _) hs3
  · split
    · exact .refl _
    · exact .refl _

theorem State.tame_readOne (s0 : State) (s : State) (ns : Ns) (nsid : Nat) (slba : Nat) (lba : Nat) (fault : Option BlockFault) : Tame s
    (s0.readOne s ns nsid slba lba fault).1 := by
  unfold State.readOne
  extract_lets +onlyGivenNames bpb1 bale2 k3 src4
  split
  · exact .refl _
  · exact .refl _
  · exact .refl _
  · split
    · split
      · exact .refl _
      · exact State.tame_faultEnd _ _ _ _ _ _ _ _ (fun _ => State.tame_poisonBlock _ _ _ _ _)
    · exact .refl _
  · extract_lets +onlyGivenNames per5 f6
    clear_value f6
    split
    · split
      · exact .refl _
      · exact State.tame_faultEnd _ _ _ _ _ _ _ _ (fun _ => State.tame_poisonBale _ _ _ _)
    · exact .refl _

theorem State.tame_readExtents (s : State) (l : List (Nat × Nat)) : Tame s (s.readExtents l) := by
  unfold State.readExtents
  exact .foldl (fun _ _ => .ite (fun _ => State.tame_escStage _ _ _ _ _ _) fun _ => State.tame_escRead _ _ _ _ _ _) _ _

theorem State.tame_missPages (s : State) (pages : List Nat) : Tame s (s.missPages pages) := by
  unfold State.missPages
  exact .foldl (fun _ _ => State.tame_startMiss _ _) _ _

theorem State.tame_waitPages (s : State) (c : Ctx) (x : PageRead) (pages : List Nat) : Tame s (s.waitPages c x pages) := by
  unfold State.waitPages
  exact .after (State.tame_setWait _ _ _) (State.tame_missPages _ _)

theorem State.tame_readPacks (s : State) (ns : Ns) (nsid : Nat) (lbas : List Nat) : Tame s (s.readPacks ns nsid lbas) := by
  unfold State.readPacks
  exact .after (State.tame_readExtents _ _) (.foldl (fun _ _ => State.tame_usePage _ _ _) _ _)

theorem State.tame_readSpan (s0 : State) (ns : Ns) (nsid : Nat) (slba : Nat) (io : IoArgs) (fault : Nat → Option BlockFault) (s : State)
    (a7 : List Nat) : Tame s (s0.readSpan ns nsid slba io fault s a7).1 := by
  fun_induction s0.readSpan ns nsid slba io fault s a7
  · exact .refl _
  · rename_i ih9
    exact .after ih9 (State.tame_readOne _ _ _ _ _ _ _)
  · rename_i ih8
    exact .after ih8 (State.tame_readOne _ _ _ _ _ _ _)
  · rename_i ih9
    exact .after ih9 (State.tame_readOne _ _ _ _ _ _ _)

theorem State.tame_blocksTo (s : State) (c : Ctx) (ns : Ns) (l : List BlockData) : Tame s (s.blocksTo c ns l) := by
  unfold State.blocksTo
  exact .ite (fun _ => State.tame_dataTo _ _ _) fun _ => .after (State.tame_dataTo _ _ _) (State.tame_dataTo _ _ _)

theorem State.tame_endRead (s : State) (c : Ctx) (peer : Option PeerEnd) : Tame s (s.endRead c peer) := by
  unfold State.endRead
  split
  · exact .after (.ite (fun _ => .after (State.tame_fail _ _ _ _) (State.tame_raise _ _)) fun _ => State.tame_succeed _ _ _)
      (State.tame_follow _ _ _)
  · exact State.tame_succeed _ _ _

theorem State.tame_readCommand (s : State) (c : Ctx) (nsid : Nat) (slba : Nat) (nlb : Nat) (io : IoArgs) (faults : List (Nat × BlockFault))
    (move : Bool) : Tame s (s.readCommand c nsid slba nlb io faults move) := by
  unfold State.readCommand
  split
  · exact State.tame_fail _ _ _ _
  · split
    · exact .refl _
    · extract_lets +onlyGivenNames lbas1 pages2
      split
      · exact State.tame_waitPages _ _ _ _
      · extract_lets +onlyGivenNames s3
        have hs3 : Tame s s3 := State.tame_readPacks _ _ _ _
        extract_lets +onlyGivenNames r4
        split
        · exact .after (State.tame_flow _) (.after (State.tame_finish _ _ _) (.after (State.tame_readSpan _ _ _ _ _ _ _ _) hs3))
        · exact .ite (fun _ => .after (.after (.after (State.tame_flow _) (State.tame_endRead _ _ _)) (.update (.refl _)))
            (.after (State.tame_blocksTo _ _ _ _) (.after (State.tame_readSpan _ _ _ _ _ _ _ _) hs3))) fun _ => .after (State.tame_flow _)
            (.after (State.tame_succeed _ _ _) (.after (State.tame_readSpan _ _ _ _ _ _ _ _) hs3))

theorem answers_execRead (stamp : BitVec 64) (nsid : Nat) (span : LbaSpan) (io : IoArgs) (faults : List (Nat × BlockFault))
    (s : State) : Answers s (execRead stamp nsid span io faults s) := by
  unfold execRead
  exact .awake (.next (tame_withCtx _ _ _ (fun _ _ => State.tame_readCommand _ _ _ _ _ _ _ _)))

theorem answers_execVerify (stamp : BitVec 64) (nsid : Nat) (span : LbaSpan) (io : IoArgs) (faults : List (Nat × BlockFault))
    (s : State) : Answers s (execVerify stamp nsid span io faults s) := by
  unfold execVerify
  exact .awake (.next (tame_withCtx _ _ _ (fun _ _ => State.tame_readCommand _ _ _ _ _ _ _ _)))

theorem State.tame_dataHere (s : State) (c : Ctx) (nsid : Nat) (slba : Nat) (w : Nat) (io : IoArgs) (blocks : List BlockData) : Tame s
    (s.dataHere c nsid slba w io blocks) := by
  unfold State.dataHere
  split
  · exact .after (State.tame_fail _ _ _ _) (State.tame_giveBack _ _)
  · extract_lets +onlyGivenNames back1
    split
    · exact .after (State.tame_flow _) (.after (State.tame_fail _ _ _ _) (State.tame_rsvAdd _ _ _ _))
    · extract_lets +onlyGivenNames lbas2 s3
      have hs3 : Tame s s3 := State.tame_readPacks _ _ _ _
      extract_lets +onlyGivenNames r4
      split
      · exact .after (State.tame_flow _) (.after (State.tame_finish _ _ _) (.after (State.tame_unchargeAll _ _)
          (.after (State.tame_rsvAdd _ _ _ _) (.after (State.tame_readSpan _ _ _ _ _ _ _ _) hs3))))
      · exact .after (State.tame_landWrite _ _ _ _ _ _) (.after (State.tame_readSpan _ _ _ _ _ _ _ _) hs3)

theorem State.tame_fetchBlocks (s : State) (f : Nat) (ns : Ns) (n : Nat) : Tame s (s.fetchBlocks f ns n) := by
  unfold State.fetchBlocks
  exact .ite (fun _ => State.tame_emit _ _) fun _ => .after (State.tame_emit _ _) (State.tame_emit _ _)

theorem State.tame_rdmaSend (s : State) (c : Ctx) : Tame s (s.rdmaSend c) := by
  unfold State.rdmaSend
  split
  · exact .ite (fun _ => .refl _) fun _ => .after (State.tame_setWait _ _ _) (.ite (fun _ => State.tame_digest _ _ _) fun _ =>
      State.tame_emit _ _)
  · exact .refl _

theorem State.tame_rdmaGo (s : State) (qpn : Nat) : Tame s (s.rdmaGo qpn) := by
  unfold State.rdmaGo
  exact .foldl (fun _ _ => State.tame_rdmaSend _ _) _ _

theorem State.tame_keepLanded (s : State) (c : Ctx) (blocks : List BlockData) : Tame s (s.keepLanded c blocks) := by
  unfold State.keepLanded
  split
  · exact .refl _
  · exact .ite (fun _ => .update (.refl _)) fun _ => .refl _

theorem State.tame_rdmaHere (s : State) (c : Ctx) (x : FabWrite) : Tame s (s.rdmaHere c x) := by
  unfold State.rdmaHere
  exact .after (State.tame_rdmaGo _ _) (.after (State.tame_dataHere _ _ _ _ _ _ _) (State.tame_keepLanded _ _ _))

theorem State.tame_startWrite (s : State) (c : Ctx) (ns : Ns) (nsid : Nat) (slba : Nat) (elsize : Nat) (io : IoArgs)
    (blocks : List BlockData) : Tame s (s.startWrite c ns nsid slba elsize io blocks) := by
  unfold State.startWrite
  extract_lets +onlyGivenNames n1 need2 ch3
  split
  · exact .after (State.tame_fail _ _ _ _) (State.tame_nonceWarn _ _ _)
  · split
    · exact State.tame_fail _ _ _ _
    · split
      · exact State.tame_fail _ _ _ _
      · split
        · exact State.tame_capFail _ _
        · extract_lets +onlyGivenNames s4
          have hs4 : Tame s s4 := State.tame_put _ _ _ _
          extract_lets +onlyGivenNames s5 s6
          have hs6 : Tame s s6 := .after (State.tame_rsvAdd _ _ _ _) (.update hs4)
          extract_lets +onlyGivenNames w7
          split
          · exact .after (State.tame_dataHere _ _ _ _ _ _ _) (.after (State.tame_fetchBlocks _ _ _ _) hs6)
          · exact .ite (fun _ => .after (State.tame_dataHere _ _ _ _ _ _ _) hs6) fun _ => .after (State.tame_rdmaGo _ _)
              (.after (State.tame_setWait _ _ _) hs6)

theorem answers_execWrite (stamp : BitVec 64) (nsid : Nat) (slba : Nat) (io : IoArgs) (blocks : List BlockData) (s : State) : Answers s
    (execWrite stamp nsid slba io blocks s) := by
  unfold execWrite
  refine .awake ?_
  refine .next ?_
  refine tame_withCtx _ _ _ (fun x1 x2 => ?_)
  split
  · exact State.tame_fail _ _ _ _
  · split
    · exact .refl _
    · exact State.tame_startWrite _ _ _ _ _ _ _ _

theorem answers_execRdmaReadComplete (stamp : BitVec 64) (s : State) : Answers s (execRdmaReadComplete stamp s) := by
  unfold execRdmaReadComplete
  refine .awake ?_
  refine .next ?_
  split
  · exact .refl _
  · split
    · exact State.tame_rdmaHere _ _ _
    · exact .refl _

theorem answers_execWriteZeroes (stamp : BitVec 64) (nsid : Nat) (span : LbaSpan) (io : IoArgs) (s : State) : Answers s
    (execWriteZeroes stamp nsid span io s) := by
  unfold execWriteZeroes
  refine .awake ?_
  refine .next ?_
  refine tame_withCtx _ _ _ (fun x1 x2 => ?_)
  split
  · exact State.tame_fail _ _ _ _
  · split
    · exact .refl _
    · split
      · exact .after (State.tame_fail _ _ _ _) (State.tame_nonceWarn _ _ _)
      · split
        · exact .ite (fun _ => State.tame_capFail _ _) fun _ => State.tame_fail _ _ _ _
        · exact .after (State.tame_flow _) (.after (State.tame_succeed _ _ _) (.after (State.tame_overwritten _ _ _ _)
            (State.tame_zeroRange _ _ _ _ _)))

theorem answers_execDatasetManagement (stamp : BitVec 64) (nsid : Nat) (deallocate : Bool) (ranges : List (Nat × Nat))
    (s : State) : Answers s (execDatasetManagement stamp nsid deallocate ranges s) := by
  unfold execDatasetManagement
  refine .awake ?_
  refine .next ?_
  refine tame_withCtx _ _ _ (fun x1 x2 => ?_)
  split
  · exact State.tame_fail _ _ _ _
  · split
    · exact State.tame_fail _ _ _ _
    · split
      · exact State.tame_fail _ _ _ _
      · split
        · exact State.tame_succeed _ _ _
        · split
          · exact .ite (fun _ => State.tame_capFail _ _) fun _ => State.tame_fail _ _ _ _
          · exact .after (.after (State.tame_flow _) (State.tame_succeed _ _ _)) (.foldl (fun _ _ => .after (State.tame_overwritten _ _ _ _)
              (State.tame_zeroRange _ _ _ _ _)) _ _)

theorem answers_execFlush (stamp : BitVec 64) (nsid : Nat) (s : State) : Answers s (execFlush stamp nsid s) := by
  unfold execFlush
  refine .awake ?_
  refine .next ?_
  refine tame_withCtx _ _ _ (fun x1 x2 => ?_)
  split
  · exact State.tame_fail _ _ _ _
  · exact .after (State.tame_flow _) (.after (State.tame_closeCovered _) (State.tame_setWait _ _ _))

theorem State.tame_rawBale (s : State) (c : Ctx) (nsid bale len : Nat) (headerOnly dw12Bad : Bool) (fault : Option BlockFault) :
    Tame s (s.rawBale c nsid bale len headerOnly dw12Bad fault) := by
  unfold State.rawBale
  split
  · exact State.tame_fail _ _ _ _
  · extract_lets e put r
    have hput (s : State) (b : Bytes) : Tame s (put s b) := .after (State.tame_finish _ _ _) (State.tame_dataTo _ _ _)
    have hr : Tame s r.1 := by
      unfold r
      split
      · exact .refl s
      · exact State.tame_faultEnd _ _ _ _ _ _ _ _ fun _ => State.tame_poisonBale _ _ _ _
    have hfail (a b : Nat) : Tame s (s.fail c a b) := State.tame_fail _ _ _ _
    refine .ite (fun _ => hfail _ _) fun _ => .ite (fun _ => hfail _ _) fun _ => .ite (fun _ => hfail _ _) fun _ =>
      .ite (fun _ => hfail _ _) fun _ => .ite (fun _ => State.tame_waitPages _ _ _ _) fun _ => .ite (fun _ => hfail _ _) fun _ =>
      .ite (fun _ => hfail _ _) fun _ => ?_
    refine .ite (fun _ => hput _ _) fun _ => ?_
    split
    · exact .after (State.tame_flow _) (.after (State.tame_finish _ _ _) hr)
    · exact .ite (fun _ => .after (hput _ _) (.after (State.tame_drawn _) (.after (State.tame_readExtents _ _) hr)))
        fun _ => .after (hput _ _) (.after (State.tame_readExtents _ _) hr)

theorem answers_execRawBaleRead (stamp : BitVec 64) (nsid : Nat) (bale : Nat) (len : Nat) (headerOnly : Bool) (dw12Bad : Bool)
    (fault : Option BlockFault) (s : State) : Answers s (execRawBaleRead stamp nsid bale len headerOnly dw12Bad fault s) := by
  unfold execRawBaleRead
  exact .awake (.next (tame_withCtx _ _ _ (fun _ _ => State.tame_rawBale _ _ _ _ _ _ _ _)))

theorem State.tame_pageReadGo (s : State) (c : Ctx) : Tame s (s.pageReadGo c) := by
  unfold State.pageReadGo
  split
  · exact .after (State.tame_readCommand _ _ _ _ _ _ _ _) (State.tame_setWait _ _ _)
  · exact .after (State.tame_rawBale _ _ _ _ _ _ _ _) (State.tame_setWait _ _ _)
  · exact .refl _

theorem State.tame_pageCame (s : State) (mpn : Nat) : Tame s (s.pageCame mpn) := by
  unfold State.pageCame
  exact .after (.foldl (fun _ _ => State.tame_pageReadGo _ _) _ _) (.after (State.tame_releaseAll _) (.after (State.tame_mapHeld _)
    (.after (State.tame_relocReady _) (.after (State.tame_itemsGo _ _) (tame_mapPageFilled _ _)))))

theorem answers_execMapPageMissFilled (mpn : Nat) (crcOk : Bool) (s : State) : Answers s (execMapPageMissFilled mpn crcOk s) := by
  unfold execMapPageMissFilled
  exact .awake (.next (.ite (fun _ => .after (State.tame_flow _) (State.tame_pageCame _ _)) fun _ => .refl _))

theorem State.tame_keyFor (s : State) (t : Tenant) (sealed : Bool) (keyref : BitVec 32) :
    TameOpt s ((s.keyFor t sealed keyref).map Prod.snd) := by
  unfold State.keyFor
  extract_lets alg
  split
  · split
    · split
      · exact .some (.refl s)
      · exact .none s
    · exact .none s
  · split
    · exact .none s
    · dsimp only
      split
      · exact .some (.refl s)
      · split
        · exact .none s
        · rename_i h
          exact .some (.update (.get_snd (State.tame_newKey _ _ _) h))

theorem State.tame_absent (s : State) (nsid : Nat) : Tame s (s.absent nsid) := by
  unfold State.absent
  exact .after (.update (.refl _)) (.foldl (fun _ _ => State.tame_grainsFree _ _ _) _ _)

theorem answers_execNamespaceCreate (stamp : BitVec 64) (c : NsCreate) (s : State) : Answers s (execNamespaceCreate stamp c s) := by
  unfold execNamespaceCreate
  refine .awake ?_
  refine .next ?_
  refine tame_withCtx _ _ _ (fun x1 x2 => ?_)
  split
  · exact State.tame_fail _ _ _ _
  · split
    · exact State.tame_fail _ _ _ _
    · split
      · exact State.tame_fail _ _ _ _
      · split
        · exact State.tame_fail _ _ _ _
        · split
          · exact State.tame_fail _ _ _ _
          · rename_i h3 h4 u5 h6
            exact .after
              (.after (.after (.after (State.tame_flow _) (.after (State.tame_succeed _ _ _) (.after (State.tame_sgenUp _)
              (State.tame_nsChanged _ _)))) (State.tame_journal _ _ _ _ _ _ _)) (State.tame_setNs _ _ _)) (.after (State.tame_absent _ _)
              (.update (.get_snd (State.tame_keyFor _ _ _ _) h6)))

theorem State.tame_dropMap (s : State) (nsid : Nat) : Tame s (s.dropMap nsid) := by
  unfold State.dropMap
  exact .after (.after (.after (.after (.after (State.tame_occUpdate _) (.update (.refl _))) (State.tame_put _ _ _ _))
    (.foldl (fun _ _ => .after (State.tame_grainsFree _ _ _) (State.tame_liveAdd _ _ _ _)) _ _))
    (.foldl (fun _ _ => .after (State.tame_grainsFree _ _ _) (State.tame_liveAdd _ _ _ _)) _ _))
    (.foldl (fun _ _ => .after (State.tame_grainsFree _ _ _) (State.tame_liveAdd _ _ _ _)) _ _)

theorem State.tame_deleteNs (s : State) (nsid : Nat) : Tame s (s.deleteNs nsid) := by
  unfold State.deleteNs
  exact .after (.after (.after (.update (.refl _)) (State.tame_absent _ _)) (State.tame_journal _ _ _ _ _ _ _)) (State.tame_dropMap _ _)

theorem answers_execNamespaceDelete (stamp : BitVec 64) (nsid : Nat) (s : State) : Answers s (execNamespaceDelete stamp nsid s) := by
  unfold execNamespaceDelete
  exact .awake (.next (tame_withCtx _ _ _ (fun _ _ => .ite (fun _ => State.tame_fail _ _ _ _) fun _ => .after (.after (State.tame_flow _)
    (.after (State.tame_succeed _ _ _) (.after (State.tame_judge _) (.after (State.tame_sgenUp _) (State.tame_nsChanged _ _)))))
    (.foldl (fun _ _ => State.tame_deleteNs _ _) _ _))))

theorem answers_execNamespaceAttach (stamp : BitVec 64) (nsid : Nat) (funcs : List (Fin 128)) (s : State) : Answers s
    (execNamespaceAttach stamp nsid funcs s) := by
  unfold execNamespaceAttach
  refine .awake ?_
  refine .next ?_
  refine tame_withCtx _ _ _ (fun x1 x2 => ?_)
  split
  · exact State.tame_fail _ _ _ _
  · exact .ite (fun _ => State.tame_fail _ _ _ _) fun _ => .after (State.tame_succeed _ _ _) (.after (State.tame_sgenUp _)
      (State.tame_setNs _ _ _))

theorem answers_execNamespaceDetach (stamp : BitVec 64) (nsid : Nat) (funcs : List (Fin 128)) (s : State) : Answers s
    (execNamespaceDetach stamp nsid funcs s) := by
  unfold execNamespaceDetach
  refine .awake ?_
  refine .next ?_
  refine tame_withCtx _ _ _ (fun x1 x2 => ?_)
  split
  · exact State.tame_fail _ _ _ _
  · exact .ite (fun _ => State.tame_fail _ _ _ _) fun _ => .after (State.tame_flow _) (.after (State.tame_sgenUp _)
      (State.tame_setWait _ _ _))

theorem State.tame_dropPages (s : State) (nsid : Nat) (stamp : BitVec 64) : Tame s (s.dropPages nsid stamp) := by
  unfold State.dropPages
  exact .after (.after (.update (.refl _)) (.foldl (fun _ _ => State.tame_dropPage _ _ _ _) _ _))
    (.foldl (fun _ _ => State.tame_uncharge _ _ _ _) _ _)

theorem State.tame_rekeySlot (nsids : List Nat) (s : State) (old : Nat) : Tame s (State.rekeySlot nsids s old) := by
  unfold State.rekeySlot
  split
  · exact .refl _
  · rename_i h1 h2 u3 h4
    extract_lets +onlyGivenNames h5 s6
    have hs6 : Tame s s6 := by
      unfold s6
      refine .after (.foldl (fun u7 x8 => ?_) _ _) (.get_snd (State.tame_newKey _ _ _) h4)
      split
      · exact .ite (fun _ => State.tame_setNs _ _ _) fun _ => .refl _
      · exact .refl _
    exact .after (.ite (fun _ => .refl _) fun _ => State.tame_setKslot _ _ _) (.update hs6)

theorem State.tame_cryptoErase (s : State) (nsids : List Nat) (all : Bool) : Tame s (s.cryptoErase nsids all) := by
  unfold State.cryptoErase
  exact .after (.after (.ite (fun _ => .after (.ite (fun _ => .refl _) fun _ => State.tame_makeKey _ _) (.ite (fun _ => .refl _) fun _ =>
    State.tame_makeKey _ _)) fun _ => .refl _) (.foldl (fun _ _ => State.tame_dropPages _ _ _) _ _))
    (.foldl (fun _ _ => State.tame_rekeySlot _ _ _) _ _)

theorem State.tame_eraseAll (s : State) (nsids : List Nat) : Tame s (s.eraseAll nsids) := by
  unfold State.eraseAll
  extract_lets +onlyGivenNames s1
  have hs1 : Tame s s1 := .foldl (fun _ _ => State.tame_dropPages _ _ _) _ _
  extract_lets +onlyGivenNames s2 s3
  have hs3 : Tame s s3 := .after (.foldl (fun _ _ => State.tame_mapEnd _ _ _ _ _) _ _) (.update hs1)
  extract_lets +onlyGivenNames s4 s5 s6
  have hs6 : Tame s s6 := .update hs3
  refine .after (.foldl (fun u7 x8 => ?_) _ _) hs6
  split
  · exact State.tame_eraseAllBlocks _ _ _
  · exact .refl _

theorem State.tame_progressPut (s : State) (op : Nat) (ses : Nat) (nsid : Nat) (st : Nat) (done_ : Nat) (total : Nat) : Tame s
    (s.progressPut op ses nsid st done_ total) := by
  unfold State.progressPut
  exact .after (State.tame_norSlot _ _ _) (.update (.refl _))

theorem State.tame_progressRun (s : State) : Tame s s.progressRun := by
  unfold State.progressRun
  split
  · exact .refl _
  · exact .ite (fun _ => .refl _) fun _ => .after (.after (.after (State.tame_flow _) (.foldl (fun _ _ => State.tame_succeed _ _ _) _ _))
      (State.tame_progressPut _ _ _ _ _ _ _)) (.ite (fun _ => State.tame_eraseAll _ _) fun _ => .ite
      (fun _ => State.tame_cryptoErase _ _ _) fun _ => .ite (fun _ => State.tame_cryptoErase _ _ _) fun _ => .foldl
      (fun _ _ => State.tame_dropPages _ _ _) _ _)

theorem answers_execFormatNvm (stamp : BitVec 64) (nsid : Nat) (lbaf : Nat) (ses : Nat) (prot : FormatProt) (s : State) : Answers s
    (execFormatNvm stamp nsid lbaf ses prot s) := by
  unfold execFormatNvm
  refine .awake ?_
  refine .next ?_
  refine tame_withCtx _ _ _ (fun x1 x2 => ?_)
  extract_lets +onlyGivenNames l3 tol4
  split
  · exact State.tame_fail _ _ _ _
  · split
    · exact State.tame_fail _ _ _ _
    · split
      · exact State.tame_fail _ _ _ _
      · split
        · split
          · exact State.tame_fail _ _ _ _
          · exact State.tame_fail _ _ _ _
        · extract_lets +onlyGivenNames s5
          have hs5 : Tame x2 s5 := State.tame_progressPut _ _ _ _ _ _ _
          extract_lets +onlyGivenNames s6
          have hs6 : Tame x2 s6 := by
            unfold s6
            refine .after (.foldl (fun u7 x8 => ?_) _ _) hs5
            extract_lets +onlyGivenNames s9
            have hs9 : Tame u7 s9 := State.tame_dropPages _ _ _
            split
            · exact .after (State.tame_setNs _ _ _) hs9
            · exact hs9
          exact .after (State.tame_setWait _ _ _) (.after (State.tame_sgenUp _) hs6)

theorem State.tame_startSanitize (s : State) (c : Ctx) (op : Nat) (total : Nat) : Tame s (s.startSanitize c op total) := by
  unfold State.startSanitize
  exact .ite (fun _ => State.tame_fail _ _ _ _) fun _ => .after (State.tame_succeed _ _ _) (State.tame_progressPut _ _ _ _ _ _ _)

theorem answers_execSanitizeBlockErase (stamp : BitVec 64) (s : State) : Answers s (execSanitizeBlockErase stamp s) := by
  unfold execSanitizeBlockErase
  exact .awake (.next (tame_withCtx _ _ _ (fun _ _ => State.tame_startSanitize _ _ _ _)))

theorem answers_execSanitizeCryptoErase (stamp : BitVec 64) (s : State) : Answers s (execSanitizeCryptoErase stamp s) := by
  unfold execSanitizeCryptoErase
  exact .awake (.next (tame_withCtx _ _ _ (fun _ _ => State.tame_startSanitize _ _ _ _)))

theorem State.tame_selfTestRun (s : State) (c : Ctx) (code : Nat) (nsid : Nat) (pass : Bool) : Tame s (s.selfTestRun c code nsid pass) := by
  unfold State.selfTestRun
  exact .ite (fun _ => State.tame_fail _ _ _ _) fun _ => .after (State.tame_succeed _ _ _) (.update (.refl _))

theorem answers_execDeviceSelfTestShort (stamp : BitVec 64) (nsid : Nat) (pass : Bool) (s : State) : Answers s
    (execDeviceSelfTestShort stamp nsid pass s) := by
  unfold execDeviceSelfTestShort
  exact .awake (.next (tame_withCtx _ _ _ (fun _ _ => State.tame_selfTestRun _ _ _ _ _)))

theorem answers_execDeviceSelfTestExtended (stamp : BitVec 64) (nsid : Nat) (pass : Bool) (s : State) : Answers s
    (execDeviceSelfTestExtended stamp nsid pass s) := by
  unfold execDeviceSelfTestExtended
  exact .awake (.next (tame_withCtx _ _ _ (fun _ _ => State.tame_selfTestRun _ _ _ _ _)))

/-! ### Machine/Logs -/

theorem State.tame_logRead (s : State) (t : Tenant) (lid : BitVec 8) : Tame s (s.logRead t lid) := by
  unfold State.logRead
  exact .after (.ite (fun _ => State.tame_setCtl _ _ _) fun _ => .ite (fun _ => .update (.refl _)) fun _ => .ite
    (fun _ => .update (.refl _)) fun _ => .ite (fun _ => .update (.refl _)) fun _ => .refl _) (State.tame_unmask _ _ _)

theorem answers_execGetLogPage (stamp : BitVec 64) (lid : BitVec 8) (off : Nat) (len : Nat) (rae : Bool) (s : State) : Answers s
    (execGetLogPage stamp lid off len rae s) := by
  unfold execGetLogPage
  refine .awake ?_
  refine .next ?_
  refine tame_withCtx _ _ _ (fun x1 x2 => ?_)
  split
  · exact State.tame_fail _ _ _ _
  · exact .ite (fun _ => State.tame_fail _ _ _ _) fun _ => .after (.after (State.tame_succeed _ _ _) (.ite (fun _ => .refl _) fun _ =>
      State.tame_logRead _ _ _)) (.after (State.tame_dataTo _ _ _) (State.tame_drawn _))

theorem answers_execIdentify (stamp : BitVec 64) (cns : BitVec 8) (nsid : Nat) (s : State) : Answers s (execIdentify stamp cns nsid s) := by
  unfold execIdentify
  refine .awake ?_
  refine .next ?_
  refine tame_withCtx _ _ _ (fun x1 x2 => ?_)
  split
  · exact State.tame_fail _ _ _ _
  · exact .ite (fun _ => State.tame_fail _ _ _ _) fun _ => .after (State.tame_succeed _ _ _) (State.tame_dataTo _ _ _)

/-! ### Machine/Fabric -/

theorem State.tame_connectDo (qpn : Nat) (r : ConnectReq) (s : State) : Tame s (State.connectDo qpn r s) := by
  unfold State.connectDo
  exact .after (.update (.refl _)) (.ite (fun _ => .update (.refl _)) fun _ => .refl _)

theorem State.tame_connectAnswer (s : State) (qpn : Nat) (r : ConnectReq) (ok : Bool) : Tame s (s.connectAnswer qpn r ok) := by
  unfold State.connectAnswer
  exact .ite (fun _ => .ite (fun _ => .after (State.tame_send _ _) (State.tame_drawn _)) fun _ => .after (State.tame_emit _ _)
    (State.tame_drawn _)) fun _ => State.tame_send _ _

theorem answers_execConnect (qpn : Nat) (r : ConnectReq) (s : State) : Answers s (execConnect qpn r s) := by
  unfold execConnect
  refine .awake ?_
  extract_lets +onlyGivenNames s1
  have hs1 : Tame s s1 := State.tame_raise _ _
  exact .next (.ite (fun _ => .after (State.tame_connectAnswer _ _ _ _) hs1) fun _ => .ite
    (fun _ => .after (State.tame_connectAnswer _ _ _ _) (.after (State.tame_connectDo _ _ _) hs1)) fun _ => .after (State.tame_capture _ _ _
    (fun _ => .after (State.tame_connectAnswer _ _ _ _) (State.tame_connectDo _ _ _))) (.update hs1))

theorem answers_execDisconnect (assoc : Nat) (s : State) : Answers s (execDisconnect assoc s) := by
  unfold execDisconnect
  refine .awake ?_
  refine .next ?_
  split
  · exact .refl _
  · extract_lets +onlyGivenNames s1
    have hs1 : Tame s s1 := State.tame_raise _ _
    split
    · exact .after (State.tame_endAssoc _ _) hs1
    · split
      · exact .after (State.tame_capture _ _ _ (fun _ => .after (State.tame_flow _) (State.tame_endAssoc _ _))) hs1
      · exact .after (State.tame_flow _) (.after (State.tame_endAssoc _ _) hs1)

theorem answers_execKeepAliveExpiry (assoc : Nat) (s : State) : Answers s (execKeepAliveExpiry assoc s) := by
  unfold execKeepAliveExpiry
  refine .awake ?_
  refine .next ?_
  split
  · exact .refl _
  · split
    · exact .refl _
    · split
      · exact .after (State.tame_endAssoc _ _) (State.tame_raise _ _)
      · split
        · exact State.tame_raise _ _
        · split
          · exact .after (State.tame_capture _ _ _ (fun _ => .after (State.tame_flow _) (State.tame_endAssoc _ _))) (State.tame_raise _ _)
          · exact .after (State.tame_flow _) (.after (State.tame_endAssoc _ _) (State.tame_raise _ _))

theorem State.tame_errJudge (s : State) (qpn : Nat) : Tame s (s.errJudge qpn) := by
  unfold State.errJudge
  split
  · exact .refl _
  · exact .ite (fun _ => .after (State.tame_flow _) (State.tame_endAssoc _ _)) fun _ => .refl _

theorem State.tame_tellCapsule (s : State) (k : Capsule) : Tame s (s.tellCapsule k) := by
  unfold State.tellCapsule
  split
  · exact .ite (fun _ => State.tame_peerTell _ _) fun _ => .refl _
  · exact .refl _

theorem State.tame_qpErrEvent (qpn : Nat) (origin : Bool) (s : State) : Tame s (State.qpErrEvent qpn origin s) := by
  unfold State.qpErrEvent
  exact .after (.after (.foldl (fun _ _ => State.tame_tellCapsule _ _) _ _) (State.tame_errJudge _ _)) (.update (.refl _))

theorem State.tame_qpError (s : State) (qpn : Nat) : Tame s (s.qpError qpn) := by
  unfold State.qpError
  split
  · exact .refl _
  · exact .ite (fun _ => .refl _) fun _ => .after (.after (.ite (fun _ => .refl _) fun _ => .ite (fun _ => State.tame_peerTell _ _) fun _ =>
      State.tame_capture _ _ _ (fun _ => State.tame_qpErrEvent _ _ _)) (.after (State.tame_raise _ _) (State.tame_bump _ _ _ _)))
      (.update (.refl _))

theorem answers_execQueuePairError (qpn : Nat) (s : State) : Answers s (execQueuePairError qpn s) := by
  unfold execQueuePairError
  exact .awake (.next (State.tame_qpError _ _))

theorem answers_execRdmaWriteFailed (qpn : Nat) (s : State) : Answers s (execRdmaWriteFailed qpn s) := by
  unfold execRdmaWriteFailed
  exact .awake (.next (.after (State.tame_qpError _ _) (State.tame_raise _ _)))

theorem answers_execEthernetLinkDown (port : Fin 2) (s : State) : Answers s (execEthernetLinkDown port s) := by
  unfold execEthernetLinkDown
  exact .awake (.next (.after (State.tame_raise _ _) (.after (State.tame_put _ _ _ _) (State.tame_put _ _ _ _))))

theorem answers_execEthernetLinkUp (port : Fin 2) (s : State) : Answers s (execEthernetLinkUp port s) := by
  unfold execEthernetLinkUp
  exact .awake (.next (.after (State.tame_raise _ _) (.after (State.tame_put _ _ _ _) (.after (State.tame_put _ _ _ _)
    (State.tame_presetAt _ _)))))

theorem State.tame_setQp (s : State) (qpn : Nat) (q : Qp) : Tame s (s.setQp qpn q) := by
  unfold State.setQp
  exact .update (.refl _)

theorem answers_execNotificationReceived (qpn : Nat) (s : State) : Answers s (execNotificationReceived qpn s) := by
  unfold execNotificationReceived
  refine .awake ?_
  refine .next ?_
  split
  · exact .refl _
  · exact .after (State.tame_setQp _ _ _) (State.tame_put _ _ _ _)

theorem answers_execAlphaPeriodExpiry (qpn : Nat) (s : State) : Answers s (execAlphaPeriodExpiry qpn s) := by
  unfold execAlphaPeriodExpiry
  refine .awake ?_
  refine .next ?_
  split
  · exact .refl _
  · exact State.tame_setQp _ _ _

theorem answers_execRecoveryPeriodExpiry (qpn : Nat) (s : State) : Answers s (execRecoveryPeriodExpiry qpn s) := by
  unfold execRecoveryPeriodExpiry
  refine .awake ?_
  refine .next ?_
  split
  · exact .refl _
  · exact State.tame_setQp _ _ _

theorem answers_execCePacketReceived (qpn : Nat) (s : State) : Answers s (execCePacketReceived qpn s) := by
  unfold execCePacketReceived
  refine .awake ?_
  refine .next ?_
  split
  · exact .refl _
  · exact .ite (fun _ => .after (State.tame_send _ _) (.update (.refl _))) fun _ => .refl _

theorem answers_execDiscoveryCommand (port : Fin 2) (s : State) : Answers s (execDiscoveryCommand port s) := by
  unfold execDiscoveryCommand
  refine .awake ?_
  extract_lets +onlyGivenNames s1
  have hs1 : Tame s s1 := State.tame_raise _ _
  exact .next (.after (State.tame_send _ _) (.update hs1))

/-! ### Machine/Clock -/

theorem State.tame_tsBand (s : State) (i : Nat) (t : Int) : Tame s (s.tsBand i t) := by
  unfold State.tsBand
  exact .ite (fun _ => .after (State.tame_raise _ _) (.after (State.tame_put _ _ _ _) (.update (.refl _)))) fun _ => .ite
    (fun _ => .ite (fun _ => .after (State.tame_raise _ _) (.after (State.tame_put _ _ _ _) (.update (.refl _)))) fun _ => .update
    (.refl _)) fun _ => .update (.refl _)

theorem State.tame_tsRead (s : State) (e : Int × Nat) : Tame s (s.tsRead e) := by
  unfold State.tsRead
  exact .ite (fun _ => .refl _) fun _ => .after (State.tame_tsBand _ _ _) (State.tame_put _ _ _ _)

theorem State.tame_supRead (s : State) (e : Nat × Nat) : Tame s (s.supRead e) := by
  unfold State.supRead
  exact .ite (fun _ => .refl _) fun _ => .after (.after (.ite (fun _ => .after (State.tame_raise _ _) (State.tame_put _ _ _ _)) fun _ =>
    .refl _) (.update (.refl _))) (State.tame_put _ _ _ _)

theorem State.tame_judgeTemp (s : State) : Tame s s.judgeTemp := by
  unfold State.judgeTemp
  exact .ite (fun _ => .refl _) fun _ => .after (.ite (fun _ => State.tame_critSet _ _) fun _ => State.tame_critClear _ _)
    (.after (State.tame_raise _ _) (.update (.refl _)))

theorem State.tame_sendTemps (s : State) : Tame s s.sendTemps := by
  unfold State.sendTemps
  exact .foldl (fun _ _ => State.tame_sendTemp _ _) _ _

theorem State.tame_keepSample (s : State) (ts : List Int) (sup : List Nat) : Tame s (s.keepSample ts sup) := by
  unfold State.keepSample
  exact .update (.refl _)

theorem State.tame_useSample (ts : List Int) (sup : List Nat) (s : State) : Tame s (State.useSample ts sup s) := by
  unfold State.useSample
  exact .after (State.tame_sendTemps _) (.after (State.tame_judgeTemp _) (State.tame_keepSample _ _ _))

theorem State.tame_laneOn (s : State) (n : Nat) : Tame s (s.laneOn n) := by
  unfold State.laneOn
  exact .after (State.tame_train _ _) (.after (State.tame_put _ _ _ _) (State.tame_setSide _ _ _))

theorem State.tame_laneTry (s : State) (n : Nat) : Tame s (s.laneTry n) := by
  unfold State.laneTry
  split
  · exact .refl _
  · exact .ite (fun _ => State.tame_laneOn _ _) fun _ => .ite (fun _ => .refl _) fun _ => .after (State.tame_setPkState _ _ _)
      (State.tame_setSide _ _ _)

theorem State.tame_presence (n : Nat) (present : Bool) (s : State) : Tame s (State.presence n present s) := by
  unfold State.presence
  exact .after (.ite (fun _ => .ite (fun _ => .after (.ite (fun _ => State.tame_laneOn _ _) fun _ => State.tame_laneTry _ _)
    (State.tame_setSide _ _ _)) fun _ => .refl _) fun _ => .after (.ite (fun _ => State.tame_packLost _ _) fun _ => .ite
    (fun _ => .refl _) fun _ => State.tame_setPkState _ _ _) (.after (State.tame_setPk _ _ _) (State.tame_put _ _ _ _)))
    (State.tame_pkBit _ _ _)

theorem State.tame_pollPort (ack : BitVec 32) (types : Tbl (BitVec 32)) (s : State) (n : Nat) : Tame s (State.pollPort ack types s n) := by
  unfold State.pollPort
  extract_lets +onlyGivenNames bus1 was2 now3
  split
  · extract_lets +onlyGivenNames s4 s5
    have hs5 : Tame s s5 := .update (.refl _)
    split
    · exact .after (.ite (fun _ => State.tame_laneTry _ _) fun _ => .refl _) (.ite (fun _ => .after (State.tame_setPk _ _ _) hs5) fun _ =>
        hs5)
    · exact hs5
  · exact .after (.ite (fun _ => .update (.refl _)) fun _ => .after (.after (State.tame_capture _ _ _ (fun _ => State.tame_presence _ _ _))
      (State.tame_put _ _ _ _)) (.update (.refl _))) (.ite (fun _ => State.tame_bump _ _ _ _) fun _ => .refl _)

theorem State.tame_pollBus (stuck : BitVec 8) (s : State) (b : Nat) : Tame s (State.pollBus stuck s b) := by
  unfold State.pollBus
  exact .after (.ite (fun _ => .after (State.tame_raise _ _) (State.tame_bump _ _ _ _)) fun _ => .refl _) (State.tame_put _ _ _ _)

theorem answers_execHousekeepingRound (durUs : Nat) (ts : List Int) (sup : List Nat) (ack : BitVec 32) (lines : HkpLines)
    (s : State) : Answers s (execHousekeepingRound durUs ts sup ack lines s) := by
  unfold execHousekeepingRound
  exact .awake
    (.next (.after
    (.after (.after (.after (.after (.ite (fun _ => .after (State.tame_judgeTemp _) (State.tame_keepSample _ _ _)) fun _ => .after
    (.after (.after (State.tame_flow _) (.foldl (fun _ _ => State.tame_pollBus _ _ _) _ _))
    (.foldl (fun _ _ => State.tame_pollPort _ _ _ _) _ _)) (State.tame_capture _ _ _ (fun _ => State.tame_useSample _ _ _)))
    (.after (State.tame_raise _ _) (.after (State.tame_bandRound _ _) (State.tame_bandRound _ _)))) (.after (State.tame_tallySample _ _)
    (.foldl (fun _ _ => State.tame_supRead _ _) _ _))) (.foldl (fun _ _ => State.tame_tsRead _ _) _ _)) (.update (.refl _)))
    (.after (.foldl (fun _ _ => .ite (fun _ => .after (State.tame_raise _ _) (State.tame_put _ _ _ _)) fun _ => .refl _) _ _)
    (.after (State.tame_hwPulse _ _) (State.tame_runTask _ _ _ _)))))

theorem answers_execOscillatorTrim (ppm : Int) (s : State) : Answers s (execOscillatorTrim ppm s) := by
  unfold execOscillatorTrim
  exact .next (.ite (fun _ => State.tame_raise _ _) fun _ => .refl _)

theorem answers_execDomainGateIdle (d : Fin 112) (s : State) : Answers s (execDomainGateIdle d s) := by
  unfold execDomainGateIdle
  exact .awake (.next (.ite (fun _ => .refl _) fun _ => State.tame_put _ _ _ _))

theorem State.tame_sleepGroup (s : State) (g : Nat) (level : Nat) : Tame s (s.sleepGroup g level) := by
  unfold State.sleepGroup
  exact .ite (fun _ => .refl _) fun _ => .after (.after (State.tame_raise _ _) (.update (.refl _)))
    (.foldl (fun _ _ => State.tame_packSend _ _ _ _) _ _)

theorem answers_execSleepGroupLight (g : Fin 8) (s : State) : Answers s (execSleepGroupLight g s) := by
  unfold execSleepGroupLight
  exact .awake (.next (State.tame_sleepGroup _ _ _))

theorem answers_execSleepGroupDeep (g : Fin 8) (s : State) : Answers s (execSleepGroupDeep g s) := by
  unfold execSleepGroupDeep
  exact .awake (.next (.ite (fun _ => State.tame_sleepGroup _ _ _) fun _ => .refl _))

theorem answers_execDrowseEntry (s : State) : Answers s (execDrowseEntry s) := by
  unfold execDrowseEntry
  exact .awake
    (.next (.ite (fun _ => .refl _) fun _ => .after (.after (.after (State.tame_raise _ _) (.foldl (fun _ _ => State.tame_put _ _ _ _) _ _))
    (.update (.refl _))) (State.tame_put _ _ _ _)))

/-! ### Machine/Power -/

theorem State.tame_dumpPages (s : State) (e : Nat × OpenCv) : Tame s (s.dumpPages e) := by
  unfold State.dumpPages
  exact .ite (fun _ => .refl _) fun _ => .foldl (fun _ _ => State.tame_packSend _ _ _ _) _ _

theorem State.tame_landingConvoy (s : State) (half : Nat) (w : Nat) (k : Nat) (pages : List Bytes) : Tame s
    (s.landingConvoy half w k pages) := by
  unfold State.landingConvoy
  extract_lets +onlyGivenNames packs1 data2 all3
  refine .foldl (fun u4 x5 => ?_) _ _
  extract_lets +onlyGivenNames t6 n7
  split
  · exact State.tame_packSend _ _ _ _
  · exact .refl _

theorem State.tame_landingSend (s : State) (d : Dump) : Tame s (s.landingSend d) := by
  unfold State.landingSend
  exact .ite (fun _ => .refl _) fun _ => .foldl (fun _ _ => State.tame_landingConvoy _ _ _ _ _) _ _

theorem State.tame_leaveDrowse (s : State) : Tame s s.leaveDrowse := by
  unfold State.leaveDrowse
  exact .after (.after (.foldl (fun _ _ => State.tame_put _ _ _ _) _ _) (.update (.refl _))) (State.tame_put _ _ _ _)

theorem State.tame_keepDump (s : State) (d : Dump) : Tame s (s.keepDump d) := by
  unfold State.keepDump
  exact .update (.refl _)

theorem State.tame_dumpStart (s : State) (cause : Nat) : Tame s (s.dumpStart cause) := by
  unfold State.dumpStart
  exact .ite (fun _ => .refl _) fun _ => .after (.ite (fun _ => .refl _) fun _ => .after
    (.after (.after (.after (State.tame_keepDump _ _) (.update (.refl _))) (.after (State.tame_landingSend _ _) (State.tame_logSys _ _)))
    (.foldl (fun _ _ => State.tame_dumpPages _ _) _ _)) (.ite (fun _ => State.tame_leaveDrowse _) fun _ => .refl _)) (.update (.refl _))

theorem State.tame_goDown (s : State) (stop : Nat) : Tame s (s.goDown stop) := by
  unfold State.goDown
  exact .after (.update (.refl _)) (State.tame_send _ _)

theorem answers_execDumpEnd (s : State) : Answers s (execDumpEnd s) := by
  unfold execDumpEnd
  exact .awake (.next (.ite (fun _ => .refl _) fun _ => .after (.after (State.tame_goDown _ _)
    (.ite (fun _ => .after (State.tame_send _ _) (.update (.refl _))) fun _ => .refl _)) (.update (.refl _))))

theorem State.tame_powerFail (s : State) : Tame s s.powerFail := by
  unfold State.powerFail
  exact .after (State.tame_dumpStart _ _) (State.tame_raise _ _)

theorem answers_execThermalTrip (sensor : Fin 16) (s : State) : Answers s (execThermalTrip sensor s) := by
  unfold execThermalTrip
  exact .next (.ite (fun _ => .refl _) fun _ => .after (.ite (fun _ => .after (State.tame_send _ _) (.update (.refl _))) fun _ => .ite
    (fun _ => .after (.after (State.tame_send _ _) (.update (.refl _))) (.after (State.tame_send _ _) (State.tame_setFault _ _))) fun _ =>
    .after (State.tame_dumpStart _ _) (State.tame_norThermal _)) (.after (State.tame_raise _ _) (.after (State.tame_put _ _ _ _)
    (State.tame_put _ _ _ _))))

theorem answers_execThermtripTimeout (s : State) : Answers s (execThermtripTimeout s) := by
  unfold execThermtripTimeout
  exact .next (.ite (fun _ => .refl _) fun _ => .after (.update (.refl _)) (.ite (fun _ => .refl _) fun _ => .after (State.tame_send _ _)
    (.update (.refl _))))

theorem State.tame_resetNow (s : State) (descs : Nat) (blocks : Nat) : Tame s (s.resetNow descs blocks) := by
  unfold State.resetNow
  exact .ite (fun _ => .refl _) fun _ => .update (.refl _)

theorem answers_execPowerReset (descs : Nat) (blocks : Nat) (s : State) : Answers s (execPowerReset descs blocks s) := by
  unfold execPowerReset
  exact .next (State.tame_resetNow _ _ _)

/-! ### Machine/Boot -/

theorem State.tame_applySetting (s : State) (id : Nat) (index : Nat) : Tame s (s.applySetting id index) := by
  unfold State.applySetting
  extract_lets +onlyGivenNames v1
  split
  · exact State.tame_put _ _ _ _
  · exact State.tame_put _ _ _ _
  · exact State.tame_put _ _ _ _
  · exact .after (.ite (fun _ => .ite (fun _ => .refl _) fun _ => .update (.refl _)) fun _ => .update (.refl _)) (State.tame_put _ _ _ _)
  · exact State.tame_put _ _ _ _
  · exact .refl _

theorem State.tame_floorsAtStart (s : State) : Tame s s.floorsAtStart := by
  unfold State.floorsAtStart
  exact .ite (fun _ => .after (State.tame_notice _ _ _ _) (.after (State.tame_sgenUp _) (.update (.refl _)))) fun _ => .refl _

theorem State.tame_applySettings (s : State) : Tame s s.applySettings := by
  unfold State.applySettings
  exact .after (.after (.foldl (fun _ _ => State.tame_applySetting _ _ _) _ _) (.foldl (fun _ _ => State.tame_applySetting _ _ _) _ _))
    (State.tame_floorsAtStart _)

theorem State.tame_selectSlot (s : State) (k : Nat) (fb : Nat) : Tame s (s.selectSlot k fb) := by
  unfold State.selectSlot
  exact State.tame_selWrite _ _

theorem State.tame_chooseSlot (s : State) (e : BootEnv) : TameOpt s (s.chooseSlot e) := by
  unfold State.chooseSlot
  exact .after (.ite (fun _ => .none _) fun _ => .ite (fun _ => .some (.update (.refl _))) fun _ => .ite
    (fun _ => .after (.some (.update (.refl _))) (State.tame_selectSlot _ _ _)) fun _ => .none _) (.ite (fun _ => .refl _) fun _ => .ite
    (fun _ => State.tame_selectSlot _ _ _) fun _ => State.tame_selWrite _ _)

theorem State.tame_tallyRedo (s : State) : Tame s s.tallyRedo := by
  unfold State.tallyRedo
  exact .ite (fun _ => State.tame_norErase _ _) fun _ => .refl _

theorem State.tame_norAtStart (s : State) (old : State) (cfgOk : Bool) : Tame s (s.norAtStart old cfgOk) := by
  unfold State.norAtStart
  extract_lets +onlyGivenNames s1
  have hs1 : Tame s s1 := .foldl (fun _ _ => .after (.after (State.tame_put _ _ _ _) (State.tame_put _ _ _ _))
    (State.tame_setReg _ _ _ _)) _ _
  extract_lets +onlyGivenNames s2
  have hs2 : Tame s s2 := .after (State.tame_put _ _ _ _) (.after (State.tame_put _ _ _ _) hs1)
  extract_lets +onlyGivenNames s3
  have hs3 : Tame s s3 := by
    unfold s3
    split
    · exact hs2
    · exact .after (.after (.after (State.tame_raise _ _) (.update (.refl _))) (.after (State.tame_put _ _ _ _)
        (.after (State.tame_put _ _ _ _) (State.tame_put _ _ _ _)))) (.after (State.tame_put _ _ _ _) (.after (State.tame_put _ _ _ _)
        (.after (State.tame_put _ _ _ _) hs2)))
  exact .ite (fun _ => hs3) fun _ => .after (.after (.foldl (fun _ _ => .after (State.tame_put _ _ _ _) (State.tame_put _ _ _ _)) _ _)
    (.after (State.tame_raise _ _) (State.tame_put _ _ _ _))) (.update hs3)

theorem State.tame_asFirst (x : State) (s : State) : Tame x (x.asFirst s) := by
  unfold State.asFirst
  exact .update (.refl _)

theorem State.tame_migrate (s : State) : Tame s s.migrate := by
  unfold State.migrate
  exact .update (.refl _)

theorem State.tame_settleAlone (s : State) : Tame s s.settleAlone := by
  unfold State.settleAlone
  extract_lets +onlyGivenNames n1 keep2
  split
  · exact .refl _
  · split
    · exact State.tame_migrate _
    · split
      · exact .update (.refl _)
      · exact .after (.foldl (fun _ _ => State.tame_notice _ _ _ _) _ _) (.update (.refl _))

theorem State.tame_replayTail (s : State) (d : Dump) : Tame s (s.replayTail d) := by
  unfold State.replayTail
  exact .update (.refl _)

theorem State.tame_replayJournal (s : State) : Tame s s.replayJournal := by
  unfold State.replayJournal
  exact .after (.foldl (fun _ _ => State.tame_replayRec _ _) _ _) (.foldl (fun _ _ => State.tame_replayTail _ _) _ _)

theorem State.tame_recount (s : State) : Tame s s.recount := by
  unfold State.recount
  exact .after
    (.after (.after (.after (.after (.foldl (fun _ _ => State.tame_grainsLive _ _ _) _ _)
    (.foldl (fun _ _ => State.tame_grainsLive _ _ _) _ _)) (.foldl (fun _ _ => .ite (fun _ => .refl _) fun _ => .after
    (State.tame_grainsLive _ _ _) (State.tame_liveAdd _ _ _ _)) _ _)) (.foldl (fun _ _ => .ite (fun _ => .refl _) fun _ => .after
    (State.tame_grainsLive _ _ _) (State.tame_liveAdd _ _ _ _)) _ _)) (.update (.refl _))) (State.tame_put _ _ _ _)

theorem State.tame_replayConvoy (d : Dump) (s : State) (x : Nat × OpenCv) : Tame s (State.replayConvoy d s x) := by
  unfold State.replayConvoy
  exact .after (.after (.after (.foldl (fun _ _ => State.tame_jblockDone _ _) _ _) (.foldl (fun _ _ => State.tame_commitItem _ _ _) _ _))
    (State.tame_setCb _ _ _)) (.foldl (fun _ _ => State.tame_packSend _ _ _ _) _ _)

theorem State.tame_closeOpen (s : State) : Tame s s.closeOpen := by
  unfold State.closeOpen
  exact .foldl (fun _ _ => State.tame_closeBlock _ _ _) _ _

theorem State.tame_loseStaged (s : State) (x : Staged) : Tame s (s.loseStaged x) := by
  unfold State.loseStaged
  exact State.tame_putPatch _ _ _ _ _

theorem State.tame_landingReads (s : State) (d : Dump) : Tame s (s.landingReads d) := by
  unfold State.landingReads
  extract_lets +onlyGivenNames w1 packs2
  split
  · exact .refl _
  · extract_lets +onlyGivenNames k3
    refine .foldl (fun u4 x5 => ?_) _ _
    extract_lets +onlyGivenNames n6
    split
    · exact State.tame_packSend _ _ _ _
    · exact .refl _

theorem State.tame_replayDump (s : State) (d : Dump) (have_ : List Staged) : Tame s (s.replayDump d have_) := by
  unfold State.replayDump
  exact .after (.after (.ite (fun _ => .refl _) fun _ => .after (.after (.ite (fun _ => .refl _) fun _ => .after (State.tame_vendor _ _)
    (.foldl (fun _ _ => State.tame_addPoisoned _ _ _ _ _ _) _ _)) (.ite (fun _ => .refl _) fun _ => .after (State.tame_critSet _ _)
    (State.tame_recordPoisoned _ _ _))) (.foldl (fun _ _ => State.tame_loseStaged _ _) _ _))
    (.foldl (fun _ _ => State.tame_replayConvoy _ _ _) _ _)) (.update (.refl _))

theorem State.tame_replayLanding (s : State) : Tame s s.replayLanding := by
  unfold State.replayLanding
  extract_lets +onlyGivenNames s1
  have hs1 : Tame s s1 := .foldl (fun _ _ => State.tame_landingReads _ _) _ _
  extract_lets +onlyGivenNames s2
  have hs2 : Tame s s2 := by
    unfold s2
    split
    · exact .after (State.tame_replayDump _ _ _) hs1
    · exact hs1
  extract_lets +onlyGivenNames kept3
  split
  · exact .after (State.tame_replayDump _ _ _) hs2
  · exact hs2

theorem State.tame_firstReady (s : State) : Tame s s.firstReady := by
  unfold State.firstReady
  exact .ite (fun _ => .refl _) fun _ => .update (.refl _)

theorem State.tame_requeueRotation (s : State) (n : Nat) : Tame s (s.requeueRotation n) := by
  unfold State.requeueRotation
  split
  · exact .ite (fun _ => .refl _) fun _ => .foldl (fun _ _ => State.tame_queueRepack _ _ _) _ _
  · exact .refl _

theorem State.tame_requeueRepacks (s : State) : Tame s s.requeueRepacks := by
  unfold State.requeueRepacks
  exact .after (.foldl (fun _ _ => State.tame_queueRepacks _ _) _ _) (.foldl (fun _ _ => State.tame_repackCheck _ _ _) _ _)

theorem State.tame_bootRest (s : State) (e : BootEnv) : Tame s (s.bootRest e) := by
  unfold State.bootRest
  exact .after
    (.after (.after
    (.after (.after
    (.after (.after (.after (.after (.after (.after (State.tame_flow _) (State.tame_tallyBegin _))
    (.foldl (fun _ _ => State.tame_readyNow _ _) _ _)) (.after (.foldl (fun _ _ => State.tame_useReserve _ _) _ _)
    (.after (State.tame_recomputeU _) (State.tame_firstReady _)))) (.update (.refl _))) (.after (State.tame_putAll _ _ _)
    (State.tame_putAll _ _ _))) (.foldl (fun _ _ => State.tame_requeueRotation _ _) _ _)) (.after (State.tame_requeueRepacks _)
    (.after (State.tame_occUpdate _) (.after (State.tame_recount _) (.after (State.tame_closeOpen _) (.after (State.tame_replayLanding _)
    (State.tame_replayJournal _))))))) (.foldl (fun _ _ => State.tame_loseMember _ _ _) _ _))
    (.foldl (fun _ _ => State.tame_eraseOne _ _ _ _ _) _ _)) (.foldl (fun _ _ => State.tame_loseHome _ _) _ _)) (.update (.refl _))

theorem State.tame_bootGo (s : State) : Tame s s.bootGo := by
  unfold State.bootGo
  split
  · exact .refl _
  · exact .ite (fun _ => .refl _) fun _ => .ite (fun _ => State.tame_bootRest _ _) fun _ => .refl _

theorem State.tame_recovery (s : State) : Tame s s.recovery := by
  unfold State.recovery
  exact .after (.foldl (fun _ _ => State.tame_readyNow _ _) _ _) (.after (State.tame_putAll _ _ _) (State.tame_putAll _ _ _))

theorem State.tame_deviceKeys (s : State) : Tame s s.deviceKeys := by
  unfold State.deviceKeys
  exact .ite (fun _ => .refl _) fun _ => .after (.update (.refl _)) (.after (State.tame_installKey _ _ _)
    (.after (State.tame_setKslot _ _ _) (.update (.after (State.tame_installKey _ _ _) (.after (State.tame_setKslot _ _ _)
    (.update (.after (State.tame_installKey _ _ _) (.after (State.tame_setKslot _ _ _) (.update (.refl _))))))))))

theorem State.tame_trainHbm (s : State) (e : BootEnv) (first : Bool) : Tame s (s.trainHbm e first) := by
  unfold State.trainHbm
  exact .after (.after (.ite (fun _ => .update (.refl _)) fun _ => .refl _) (.after (tame_hbmFillDone _ _) (tame_hbmFillStart _)))
    (.foldl (fun _ _ => State.tame_setReg _ _ _ _) _ _)

theorem State.tame_discover (s : State) (e : BootEnv) : Tame s (s.discover e) := by
  unfold State.discover
  exact .foldl (fun _ _ => .ite (fun _ => .after (.after (State.tame_laneTry _ _) (.after (State.tame_setSide _ _ _)
    (State.tame_setPk _ _ _))) (State.tame_put _ _ _ _)) fun _ => .refl _) _ _

theorem State.tame_alone (s : State) : Tame s s.alone := by
  unfold State.alone
  exact .after (.ite (fun _ => State.tame_recovery _) fun _ => .after (.after (State.tame_bootGo _) (.after (State.tame_packsGo _)
    (State.tame_putAll _ _ _))) (.update (.refl _))) (.after (State.tame_applySettings _) (State.tame_settleAlone _))

theorem State.tame_pairing (s : State) (e : BootEnv) : Tame s (s.pairing e) := by
  unfold State.pairing
  exact .after (.ite (fun _ => State.tame_alone _) fun _ => .ite (fun _ => .ite (fun _ => .after (State.tame_putAll _ _ _)
    (State.tame_putAll _ _ _)) fun _ => State.tame_alone _) fun _ => .ite (fun _ => .after (State.tame_alone _)
    (.update (.refl _))) fun _ => .after (State.tame_putAll _ _ _) (State.tame_putAll _ _ _)) (.update (.refl _))

theorem State.tame_startBegin (s : State) (e : BootEnv) (cause : Nat) : Tame s (s.startBegin e cause) := by
  unfold State.startBegin
  exact .after
    (.after (.after (.after (.after (.after (.after (.after (State.tame_kstat _) (.ite (fun _ => State.tame_put _ _ _ _) fun _ => .refl _))
    (State.tame_put _ _ _ _)) (State.tame_tallyRedo _)) (State.tame_send _ _)) (.ite (fun _ => State.tame_putAll _ _ _) fun _ => .refl _))
    (State.tame_putAll _ _ _)) (.ite (fun _ => .refl _) fun _ => .update (.refl _))) (State.tame_putAll _ _ _)

theorem State.tame_startSlot (s : State) (e : BootEnv) (first : Bool) : Tame s (s.startSlot e first) := by
  unfold State.startSlot
  extract_lets +onlyGivenNames s1
  have hs1 : Tame s s1 := .ite (fun _ => State.tame_put _ _ _ _) fun _ => .after (State.tame_kstat _) (.after (State.tame_secError _ _)
    (.update (.refl _)))
  split
  · exact .after (State.tame_recovery _) hs1
  · rename_i h2 u3 h4
    exact .after (.after (.ite (fun _ => State.tame_recovery _) fun _ => State.tame_pairing _ _)
      (.ite (fun _ => State.tame_deviceKeys _) fun _ => .refl _)) (.after (State.tame_discover _ _) (.after (State.tame_trainHbm _ _ _)
      ((TameOpt.after (State.tame_chooseSlot _ _) hs1).get h4)))

theorem State.tame_wakeUp (s : State) : Tame s s.wakeUp := by
  unfold State.wakeUp
  exact .after (.ite (fun _ => .refl _) fun _ => .after
    (.after (.after (State.tame_flow _) (.after (State.tame_tallyBegin _) (.foldl (fun _ _ => State.tame_resetFunc _ _) _ _)))
    (.update (.refl _))) (.after (tame_hbmFillDone _ _) (tame_hbmFillStart _))) (.after (State.tame_raise _ _) (State.tame_leaveDrowse _))

theorem answers_execWake (b : Fin 8) (s : State) : Answers s (execWake b s) := by
  unfold execWake
  exact .awake (.next (.after (.ite (fun _ => .after (.ite (fun _ => .update (.refl _)) fun _ => State.tame_wakeUp _)
    (State.tame_put _ _ _ _)) fun _ => .refl _) (State.tame_put _ _ _ _)))

theorem answers_execDormantEntry (s : State) : Answers s (execDormantEntry s) := by
  unfold execDormantEntry
  exact .awake (.next (.ite (fun _ => .refl _) fun _ => .after (.after (State.tame_flow _) (.update (.refl _)))
    (.after (tame_checkpointAll _) (State.tame_leaveDrowse _))))

/-! ### Machine/Ledger -/

theorem State.tame_dropMsg (s : State) (n : Nat) (kind : Nat) (seq : Nat) : Tame s (s.dropMsg n kind seq) := by
  unfold State.dropMsg
  exact .ite (fun _ => .update (.refl _)) fun _ => .refl _

theorem State.tame_dropCapsule (s : State) (qpn : Nat) (rseq : Nat) : Tame s (s.dropCapsule qpn rseq) := by
  unfold State.dropCapsule
  exact .ite (fun _ => .update (.refl _)) fun _ => .refl _

theorem State.tame_connectAway (s : State) (qpn : Nat) (b : Bytes) : Tame s (s.connectAway qpn b) := by
  unfold State.connectAway
  split
  · exact .refl _
  · extract_lets +onlyGivenNames s1
    have hs1 : Tame s s1 := State.tame_connectDo _ _ _
    split
    · exact .after (State.tame_setQp _ _ _) hs1
    · exact hs1

theorem State.tame_sideEvent (s : State) (e : LEntry) (n : Nat) (kind : Nat) (status : Nat) (seq : Nat) : Tame s
    (s.sideEvent e n kind status seq) := by
  unfold State.sideEvent
  exact .ite (fun _ => .after (State.tame_sideUp _ _ _ _) (State.tame_setPk _ _ _)) fun _ => State.tame_sideDown _ _ _

theorem State.tame_doorbellEffect (s : State) (a1 : List Nat) : Tame s (s.doorbellEffect a1) := by
  unfold State.doorbellEffect
  split
  · exact .after (State.tame_setTail _ _ _ _) (.update (.refl _))
  · exact .refl _

theorem State.tame_capsuleEffect (s : State) (e : LEntry) : TameOpt s (s.capsuleEffect e) := by
  unfold State.capsuleEffect
  split
  · exact .some (.after (State.tame_capsuleTake _ _) (State.tame_dropCapsule _ _ _))
  · exact .none _

theorem State.tame_qpEffect (s : State) (e : LEntry) (a2 : List Nat) : TameOpt s (s.qpEffect e a2) := by
  unfold State.qpEffect
  split
  · split
    · split
      · exact .some (.after (State.tame_connectAnswer _ _ _ _) (State.tame_connectDo _ _ _))
      · exact .ite (fun _ => .none _) fun _ => .some (.refl _)
    · split
      · split
        · exact .some (.after (State.tame_flow _) (State.tame_endAssoc _ _))
        · exact .some (.refl _)
      · exact .ite (fun _ => .some (State.tame_qpErrEvent _ _ _)) fun _ => .some (.update (.refl _))
  · exact .some (.refl _)

theorem State.tame_packEffect (s : State) (e : LEntry) (a2 : List Nat) : TameOpt s (s.packEffect e a2) := by
  unfold State.packEffect
  split
  · split
    · split
      · exact .some (.after (State.tame_applyResp _ _ _) (State.tame_dropMsg _ _ _ _))
      · exact .some (.after (State.tame_applyAsync _ _ _ _) (State.tame_dropMsg _ _ _ _))
      · exact .none _
    · exact .some (State.tame_sideEvent _ _ _ _ _ _)
  · exact .some (.refl _)

theorem State.tame_mailEffect (s : State) (e : LEntry) (a2 : List Nat) : Tame s (s.mailEffect e a2) := by
  unfold State.mailEffect
  split
  · exact State.tame_mailUnknown _ _ _
  · exact .refl _

theorem State.tame_sampleEffect (s : State) (a1 : List Nat) : Tame s (s.sampleEffect a1) := by
  unfold State.sampleEffect
  split
  · exact State.tame_useSample _ _ _
  · exact .refl _

theorem State.tame_pinEffect (s : State) (e : LEntry) (a2 : List Nat) : Tame s (s.pinEffect e a2) := by
  unfold State.pinEffect
  split
  · extract_lets +onlyGivenNames mine1 s2 s3
    have hs3 : Tame s s3 := .update (.refl _)
    split
    · exact .after (State.tame_powerFail _) hs3
    · exact .after (State.tame_zeroizeNow _) hs3
    · exact .after (State.tame_presence _ _ _) hs3
    · exact .after (State.tame_presence _ _ _) hs3
    · exact hs3
  · exact .refl _

theorem State.tame_claimEffect (s : State) (a1 : List Nat) : Tame s (s.claimEffect a1) := by
  unfold State.claimEffect
  split
  · exact .update (.refl _)
  · exact .refl _

theorem State.tame_leadEffect (s : State) (a1 : List Nat) : Tame s (s.leadEffect a1) := by
  unfold State.leadEffect
  split
  · exact .update (.refl _)
  · exact .refl _

theorem State.tame_controlEffect (s : State) (a1 : List Nat) : Tame s (s.controlEffect a1) := by
  unfold State.controlEffect
  split
  · exact .after (.ite (fun _ => .update (.refl _)) fun _ => .ite (fun _ => .after (State.tame_vendor _ _)
      (State.tame_putAll _ _ _)) fun _ => .refl _) (State.tame_raise _ _)
  · exact .refl _

theorem State.tame_entryEffect (s : State) (e : LEntry) : TameOpt s (s.entryEffect e) := by
  unfold State.entryEffect
  split
  · exact .some (State.tame_doorbellEffect _ _)
  · exact State.tame_capsuleEffect _ _
  · exact State.tame_qpEffect _ _ _
  · exact State.tame_packEffect _ _ _
  · exact .some (State.tame_sampleEffect _ _)
  · exact .some (State.tame_mailEffect _ _ _)
  · exact .some (State.tame_pinEffect _ _ _)
  · exact .some (State.tame_claimEffect _ _)
  · exact .some (State.tame_leadEffect _ _)
  · exact .some (State.tame_controlEffect _ _)
  · exact .some (.refl _)

theorem State.tame_claimGive (s : State) (core : Nat) (r : Nat) (v : BitVec 32) : Tame s (s.claimGive core r v) := by
  unfold State.claimGive
  exact .after (State.tame_send _ _) (.update (.refl _))

theorem State.tame_setPolls (s : State) (core : Nat) (n : Nat) : Tame s (s.setPolls core n) := by
  unfold State.setPolls
  exact .update (.refl _)

theorem State.tame_claimLead (s : State) (core : Nat) (r : Nat) : Tame s (s.claimLead core r) := by
  unfold State.claimLead
  exact .ite (fun _ => .after (State.tame_claimGive _ _ _ _) (State.tame_setPolls _ _ _)) fun _ => .after (State.tame_claimGive _ _ _ _)
    (.after (State.tame_setPolls _ _ _) (State.tame_recordPut _ _))

theorem State.tame_claimUsed (s : State) (core : Nat) : Tame s (s.claimUsed core) := by
  unfold State.claimUsed
  exact .after (State.tame_setPolls _ _ _) (.update (.refl _))

theorem State.tame_claimFail (s : State) (core : Nat) (r : Nat) : Tame s (s.claimFail core r) := by
  unfold State.claimFail
  exact .after (State.tame_send _ _) (.after (State.tame_setFault _ _) (.after (State.tame_raise _ _) (State.tame_put _ _ _ _)))

theorem answers_execClaimRead (core : Fin 23) (ring : Fin 512) (s : State) : Answers s (execClaimRead core ring s) := by
  unfold execClaimRead
  refine .awake ?_
  refine .next ?_
  split
  · exact State.tame_send _ _
  · split
    · split
      · exact State.tame_claimGive _ _ _ _
      · split
        · exact .after (State.tame_claimGive _ _ _ _) (State.tame_claimUsed _ _)
        · exact .after (State.tame_claimGive _ _ _ _) (State.tame_setPolls _ _ _)
        · exact State.tame_claimFail _ _ _
        · exact .refl _
    · exact .ite (fun _ => State.tame_claimLead _ _ _) fun _ => State.tame_claimGive _ _ _ _

theorem answers_execClaimTimeout (core : Fin 23) (ring : Fin 512) (s : State) : Answers s (execClaimTimeout core ring s) := by
  unfold execClaimTimeout
  exact .awake (.next (.ite (fun _ => State.tame_claimFail _ _ _) fun _ => .refl _))

theorem State.tame_stimes (s : State) : Tame s s.stimes := by
  unfold State.stimes
  refine .foldl (fun u1 x2 => ?_) _ _
  split
  · exact State.tame_setReg _ _ _ _
  · exact .refl _

theorem State.tame_stageTime (s : State) (n : BitVec 64) (dtime : BitVec 64) : Tame s (s.stageTime n dtime) := by
  unfold State.stageTime
  exact .after (State.tame_stimes _) (.update (.refl _))

theorem State.tame_marker (n : BitVec 64) (s : State) (i : Nat) : Tame s (State.marker n s i) := by
  unfold State.marker
  exact .ite (fun _ => .update (.refl _)) fun _ => .after (.update (.refl _)) (State.tame_ringWrite _ _ _)

theorem State.tame_markAgain (s : State) : Tame s s.markAgain := by
  unfold State.markAgain
  exact .after (.foldl (fun _ _ => State.tame_marker _ _ _) _ _) (.update (.refl _))

theorem State.tame_sendDigests (a0 : Nat) (a1 : State) : Tame a1 (State.sendDigests a0 a1) := by
  fun_induction State.sendDigests a0 a1
  · exact .refl _
  · exact .refl _
  · exact .refl _
  · rename_i ih14
    exact .after ih14 (.after (State.tame_setReg _ _ _ _) (.after (State.tame_setReg _ _ _ _) (.after (State.tame_setReg _ _ _ _)
      (.after (State.tame_arbSend _ _ _) (.update (.refl _))))))

theorem State.tame_acks (a0 : Nat) (a1 : State) : Tame a1 (State.acks a0 a1) := by
  fun_induction State.acks a0 a1
  · exact .refl _
  · exact .refl _
  · exact .refl _
  · rename_i ih9
    exact .after ih9 (.after (State.tame_sendDigests _ _) (.after (State.tame_twinSend _ _ _ _) (.after (State.tame_tallyLag _ _)
      (.update (.refl _)))))

theorem State.tame_ackAll (s : State) : Tame s s.ackAll := by
  unfold State.ackAll
  exact State.tame_acks _ _

theorem State.tame_fetchAsk (s : State) (e : LEntry) : Tame s (s.fetchAsk e) := by
  unfold State.fetchAsk
  exact .ite (fun _ => .refl _) fun _ => .after (State.tame_raise _ _) (.after (State.tame_twinSend _ _ _ _) (.update (.refl _)))

theorem State.tame_becomeLead (s : State) (n : BitVec 64) : Tame s (s.becomeLead n) := by
  unfold State.becomeLead
  exact .after (.after (.after (State.tame_stageTime _ _ _) (.update (.refl _))) (State.tame_setReg _ _ _ _))
    (.after (State.tame_putAll _ _ _) (.after (State.tame_put _ _ _ _) (State.tame_put _ _ _ _)))

theorem State.tame_captureStock (s : State) : Tame s s.captureStock := by
  unfold State.captureStock
  extract_lets t s1 take s2 key lt2 msgs s3 caps s4 keys
  have htake (s : State) (e : LEntry) : Tame s (take s e) :=
    State.tame_capture _ _ _ fun _ => .getD (State.tame_entryEffect _ _) (.refl _)
  have h2 : Tame s s2 := .after (.foldl htake _ _) (.update (.refl s))
  have h3 : Tame s2 s3 := by
    refine .foldl (fun s m => ?_) _ _
    split <;> exact htake _ _
  have h4 : Tame s3 s4 := by
    refine .foldl (fun s k => ?_) _ _
    split
    · exact htake _ _
    · exact .refl s
  refine h2.trans (h3.trans (h4.trans (.foldl (fun s k => ?_) _ _)))
  split
  · split
    · exact .ite (fun _ => .refl s) fun _ => htake _ _
    · exact .refl s
  · exact .refl s

theorem State.tame_settled (s : State) : Tame s s.settled := by
  unfold State.settled
  split
  · exact .refl _
  · extract_lets +onlyGivenNames s1
    have hs1 : Tame s s1 := State.tame_ackAll _
    split
    · exact .ite (fun _ => .after (State.tame_captureStock _) (.after (State.tame_becomeLead _ _) (.update hs1))) fun _ => hs1
    · exact hs1

theorem State.tame_applyList (s : State) (l : List LEntry) : Tame s (s.applyList l) := by
  fun_induction State.applyList s l with
  | case1 s => exact .update (.refl s)
  | case2 s e t u h ih => exact ih.after ((State.tame_entryEffect s e).get h)
  | case3 s e t h u hw => exact .after (State.tame_fetchAsk _ _) (.update (.refl s))
  | case4 s e t h u hw => exact .update (.refl s)

theorem State.tame_applyGo (s : State) : Tame s s.applyGo := by
  unfold State.applyGo
  exact .ite (fun _ => .refl _) fun _ => .after (State.tame_settled _) (State.tame_applyList _ _)

theorem State.tame_applyEntry (s : State) (e : LEntry) : Tame s (s.applyEntry e) := by
  unfold State.applyEntry
  exact .ite (fun _ => State.tame_applyList _ _) fun _ => .update (.refl _)

theorem State.tame_deliverList (s : State) (l : List LEntry) : Tame s (s.deliverList l).1 := by
  fun_induction State.deliverList s l with
  | case1 s => exact .refl s
  | case2 s e t h => exact s.tame_raise 263
  | case3 s e t h ih => exact .after ih (.after (State.tame_applyEntry _ _) (State.tame_ringDeliver _ _))

theorem State.tame_delivered (s : State) (at_ : Nat) (n : BitVec 64) : Tame s (s.delivered at_ n) := by
  unfold State.delivered
  exact .after (.after (State.tame_settled _) (.after (State.tame_hwPulse _ _) (.foldl (fun _ _ => State.tame_marker _ _ _) _ _)))
    (.update (.refl _))

theorem State.tame_deliverGo (s : State) : Tame s s.deliverGo := by
  unfold State.deliverGo
  split
  · exact .refl _
  · exact .ite (fun _ => .refl _) fun _ => .ite (fun _ => .after (State.tame_delivered _ _ _) (State.tame_deliverList _ _)) fun _ => .after
      (.update (.refl _)) (State.tame_deliverList _ _)

theorem State.tame_compareDigests (s : State) : Tame s s.compareDigests := by
  unfold State.compareDigests
  exact .after (.ite (fun _ => .after (State.tame_alert _ _) (.after (State.tame_setFault _ _) (.after (State.tame_raise _ _)
    (State.tame_put _ _ _ _)))) fun _ => .refl _) (.update (.refl _))

theorem State.tame_takeRecord (s : State) : Tame s s.takeRecord := by
  unfold State.takeRecord
  split
  · exact .after (.after (.after (State.tame_compareDigests _) (.after (State.tame_packTimeouts _) (.after (State.tame_stageTime _ _ _)
      (State.tame_put _ _ _ _)))) (.after (State.tame_setReg _ _ _ _) (State.tame_put _ _ _ _))) (.update (.refl _))
  · exact .refl _

theorem State.tame_sideCmd (s : State) (use : PkUse) (opc : Nat) (side : Nat) : Tame s (s.sideCmd use opc side) := by
  unfold State.sideCmd
  exact .foldl (fun _ _ => .after (State.tame_packIssue _ _ _ _) (.ite (fun _ => State.tame_wakeGroup _ _) fun _ => .refl _)) _ _

theorem State.tame_survive (s : State) (trail : Bool) (cause : Nat) : Tame s (s.survive trail cause) := by
  unfold State.survive
  exact .after
    (.after (.after
    (.after (.after
    (.after (.after (.after (State.tame_flow _) (.after (State.tame_vendor _ _) (.foldl (fun _ _ => State.tame_bump _ _ _ _) _ _)))
    (.update (.refl _))) (.foldl (fun _ _ => State.tame_errJudge _ _) _ _)) (.after (State.tame_releaseHeld _) (.update (.refl _))))
    (.foldl (fun _ _ => State.tame_packLost _ _) _ _)) (.update (.refl _))) (.after (State.tame_putAll _ _ _) (State.tame_putAll _ _ _)))
    (.after (State.tame_put _ _ _ _) (.after (State.tame_put _ _ _ _) (State.tame_put _ _ _ _)))

theorem State.tame_applyAll (n : Nat) (s : State) : Tame s (State.applyAll n s) := by
  fun_induction State.applyAll n s with
  | case1 s => exact .refl s
  | case2 n s u h ih => exact .after ih (.after (State.tame_deliverGo _) (State.tame_takeRecord _))
  | case3 n s u h => exact .after (State.tame_deliverGo _) (State.tame_takeRecord _)

theorem State.tame_promoteGo (s : State) : Tame s s.promoteGo := by
  unfold State.promoteGo
  split
  · exact .refl _
  · exact .after (.ite (fun _ => .refl _) fun _ => .after (State.tame_captureStock _) (.after (State.tame_survive _ _ _)
      (State.tame_becomeLead _ _))) (State.tame_applyAll _ _)

theorem answers_execRecordApply (s : State) : Answers s (execRecordApply s) := by
  unfold execRecordApply
  exact .awake
    (.next (.ite (fun _ => .after (State.tame_promoteGo _) (.after (State.tame_bootGo _) (.after (State.tame_deliverGo _)
    (State.tame_takeRecord _)))) fun _ => .refl _))

theorem State.tame_tagFail (s : State) : Tame s s.tagFail := by
  unfold State.tagFail
  exact .after (.after (.ite (fun _ => .after (State.tame_twinDown _) (.update (.refl _))) fun _ => .refl _) (.update (.refl _)))
    (.after (State.tame_control _ _ _ _ _ _) (.after (State.tame_setFault _ _) (.after (State.tame_raise _ _) (State.tame_bump _ _ _ _))))

theorem answers_execRecord (entries : List LEntry) (hdr : Option RecHdr) (tagOk : Bool) (s : State) : Answers s
    (execRecord entries hdr tagOk s) := by
  unfold execRecord
  refine .awake ?_
  refine .next ?_
  split
  · exact .refl _
  · split
    · exact State.tame_tagFail _
    · split
      · exact .refl _
      · extract_lets +onlyGivenNames bytes1 s2
        have hs2 : Tame s s2 := State.tame_twinIn _ _
        extract_lets +onlyGivenNames s3 s4
        have hs4 : Tame s s4 := .update hs2
        split
        · rename_i h5
          exact hs4
        · rename_i h6 h7
          exact .ite (fun _ => hs4) fun _ => .after (State.tame_put _ _ _ _) (.update hs4)

theorem answers_execStageAck (stage : BitVec 64) (s : State) : Answers s (execStageAck stage s) := by
  unfold execStageAck
  exact .awake (.next (.ite (fun _ => .refl _) fun _ => .after (.after (.ite (fun _ => .update (.refl _)) fun _ => .refl _)
    (.update (.refl _))) (State.tame_twinIn _ _)))

theorem State.tame_retryList (s : State) (a1 : List LEntry) : Tame s (s.retryList a1) := by
  fun_induction s.retryList a1
  · exact .after (State.tame_put _ _ _ _) (.update (.refl _))
  · exact .update (.refl _)
  · rename_i ih7
    exact .after ih7 (.getD (.after (State.tame_entryEffect _ _) (.after (State.tame_ringDeliver _ _)
      (.ite (fun _ => .after (State.tame_recordPut _ _) (.update (.refl _))) fun _ => .update (.refl _))))
      (.after (State.tame_ringDeliver _ _) (.ite (fun _ => .after (State.tame_recordPut _ _) (.update (.refl _))) fun _ => .update
      (.refl _))))

theorem State.tame_retryHeld (s : State) : Tame s s.retryHeld := by
  unfold State.retryHeld
  exact .ite (fun _ => .refl _) fun _ => .after (.ite (fun _ => .refl _) fun _ => .ite (fun _ => .after (State.tame_fabricTurns _)
    (.update (.refl _))) fun _ => .refl _) (State.tame_retryList _ _)

theorem answers_execPeerReport (e : LEntry) (s : State) : Answers s (execPeerReport e s) := by
  unfold execPeerReport
  exact .awake (.next (.ite (fun _ => .refl _) fun _ => .after (.ite (fun _ => .ite (fun _ => State.tame_fetchAsk _ _) fun _ =>
    .refl _) fun _ => State.tame_capture _ _ _ (fun _ => .getD (State.tame_entryEffect _ _) (.refl _))) (.after (State.tame_raise _ _)
    (State.tame_twinIn _ _))))

theorem answers_execFetchReq (e : LEntry) (s : State) : Answers s (execFetchReq e s) := by
  unfold execFetchReq
  refine .awake ?_
  refine .next ?_
  split
  · exact .refl _
  · extract_lets +onlyGivenNames s1
    have hs1 : Tame s s1 := State.tame_twinIn _ _
    split
    · exact .after (State.tame_twinSend _ _ _ _) hs1
    · exact hs1

theorem State.tame_peerData (s : State) (qpn : Nat) (rseq : Nat) : Tame s (s.peerData qpn rseq) := by
  unfold State.peerData
  split
  · split
    · exact State.tame_rdmaHere _ _ _
    · exact .refl _
  · exact .refl _

theorem State.tame_peerCapsule (s : State) (e : LEntry) : Tame s (s.peerCapsule e) := by
  unfold State.peerCapsule
  split
  · extract_lets +onlyGivenNames s1
    have hs1 : Tame s s1 := by
      unfold s1
      split
      · split
        · exact State.tame_setQp _ _ _
        · exact .refl _
      · exact .refl _
    exact .after (State.tame_capture _ _ _ (fun _ => .getD (State.tame_entryEffect _ _) (.refl _))) hs1
  · exact .refl _

theorem answers_execFetchData (e : LEntry) (bytes : Bytes) (s : State) : Answers s (execFetchData e bytes s) := by
  unfold execFetchData
  refine .awake ?_
  refine .next ?_
  split
  · exact .refl _
  · extract_lets +onlyGivenNames s1
    have hs1 : Tame s s1 := State.tame_twinIn _ _
    extract_lets +onlyGivenNames s2 s3
    have hs3 : Tame s s3 := .update hs1
    extract_lets +onlyGivenNames s4 s5
    have hs5 : Tame s s5 := by
      unfold s5
      split
      · exact .ite (fun _ => .after (State.tame_peerData _ _ _) hs3) fun _ => .after (.after (State.tame_peerCapsule _ _)
          (.update (.refl _))) (.after (State.tame_raise _ _) (.after (State.tame_dropCapsule _ _ _) hs3))
      · exact .after (State.tame_connectAway _ _ _) hs3
      · exact .after (.update (.refl _)) (.after (State.tame_dropMsg _ _ _ _) hs3)
      · exact hs3
    exact .after (State.tame_promoteGo _) (.after (State.tame_applyGo _) hs5)

theorem State.tame_giveUp (s : State) (e : LEntry) : Tame s (s.giveUp e) := by
  unfold State.giveUp
  split
  · split
    · exact .after (State.tame_flow _) (State.tame_endAssoc _ _)
    · exact .refl _
  · exact .ite (fun _ => .refl _) fun _ => State.tame_packLost _ _
  · exact .refl _

theorem answers_execPeerFetchTimeout (e : LEntry) (s : State) : Answers s (execPeerFetchTimeout e s) := by
  unfold execPeerFetchTimeout
  exact .awake (.next (.ite (fun _ => .refl _) fun _ => .ite (fun _ => State.tame_fetchAsk _ _) fun _ => .after (State.tame_promoteGo _)
    (.after (State.tame_applyList _ _) (State.tame_giveUp _ _))))

theorem answers_execRdmaReadFailed (stamp : BitVec 64) (s : State) : Answers s (execRdmaReadFailed stamp s) := by
  unfold execRdmaReadFailed
  refine .awake ?_
  refine .next ?_
  split
  · exact .refl _
  · split
    · exact .after (.ite (fun _ => State.tame_fetchAsk _ _) fun _ => .after (State.tame_rdmaGo _ _) (.after (State.tame_flow _)
        (.after (State.tame_fail _ _ _ _) (State.tame_giveBack _ _)))) (.after (State.tame_qpError _ _) (State.tame_raise _ _))
    · exact .refl _

theorem answers_execKeyRotate (s : State) : Answers s (execKeyRotate s) := by
  unfold execKeyRotate
  exact .awake (.next (.ite (fun _ => .refl _) fun _ => .after (.after (.after (State.tame_raise _ _) (State.tame_recvKey _))
    (.update (.refl _))) (State.tame_twinIn _ _)))

theorem answers_execPackResponse (n : Fin 32) (r : RespHdr) (data : Bytes) (s : State) : Answers s (execPackResponse n r data s) := by
  unfold execPackResponse
  exact .awake
    (.next (.ite (fun _ => .refl _) fun _ => .after
    (.after (.after (State.tame_promoteGo _) (.after (State.tame_bootGo _) (.after (State.tame_applyGo _)
    (.after (State.tame_capture _ _ _ (fun _ => State.tame_applyResp _ _ _)) (State.tame_keepMsg _ _ _)))))
    (.ite (fun _ => State.tame_seqFault _ _) fun _ => .refl _)) (State.tame_accepted _ _ _)))

theorem answers_execPackAsync (n : Fin 32) (h : AsyncHdr) (die : Nat) (value : BitVec 64) (s : State) : Answers s
    (execPackAsync n h die value s) := by
  unfold execPackAsync
  exact .awake (.next (.ite (fun _ => .refl _) fun _ => .after (.after (State.tame_promoteGo _) (.after (State.tame_applyGo _)
    (.after (State.tame_capture _ _ _ (fun _ => State.tame_applyAsync _ _ _ _)) (.after (State.tame_keepMsg _ _ _)
    (State.tame_pkRaise _ _))))) (.after (State.tame_accepted _ _ _) (State.tame_setPk _ _ _))))

theorem answers_execCapsuleReceive (qpn : Nat) (opcode : BitVec 8) (flags : BitVec 8) (cid : BitVec 16) (nsid : BitVec 32) (body : Bytes)
    (s : State) : Answers s (execCapsuleReceive qpn opcode flags cid nsid body s) := by
  unfold execCapsuleReceive
  refine .awake ?_
  refine .next ?_
  split
  · exact .refl _
  · exact .ite (fun _ => .refl _) fun _ => .after (.ite (fun _ => .after (State.tame_promoteGo _) (.after (State.tame_applyGo _)
      (.after (State.tame_tellCapsule _ _) (.after (State.tame_keepCapsule _ _ _) (State.tame_raise _ _))))) fun _ =>
      State.tame_fabricTurns _) (.update (.refl _))

theorem State.tame_closePolls (s : State) (core : Nat) : Tame s (s.closePolls core) := by
  unfold State.closePolls
  exact .ite (fun _ => .refl _) fun _ => .after (State.tame_setPolls _ _ _) (State.tame_recordPut _ _)

theorem State.tame_rejoinAbort (s : State) (reason : Nat) : Tame s (s.rejoinAbort reason) := by
  unfold State.rejoinAbort
  exact .ite (fun _ => .refl _) fun _ => .after (.after (.ite (fun _ => State.tame_notice _ _ _ _) fun _ => .after
    (.after (State.tame_putAll _ _ _) (.update (.refl _))) (.after (State.tame_putAll _ _ _) (.after (State.tame_put _ _ _ _)
    (State.tame_put _ _ _ _)))) (.update (.refl _))) (State.tame_twinSend _ _ _ _)

theorem State.tame_retTrim (a0 : Nat) (a1 : State) : Tame a1 (State.retTrim a0 a1) := by
  fun_induction State.retTrim a0 a1
  · exact .refl _
  · exact .refl _
  · rename_i ih4
    exact .after ih4 (.after (State.tame_rejoinAbort _ _) (.update (.refl _)))

theorem State.tame_retain (s : State) (n : BitVec 64) (len : Nat) : Tame s (s.retain n len) := by
  unfold State.retain
  exact .after (.after (State.tame_retTrim _ _) (.ite (fun _ => State.tame_raise _ _) fun _ => .refl _)) (.update (.refl _))

theorem State.tame_setHb (s : State) (b : Bool) : Tame s (s.setHb b) := by
  unfold State.setHb
  exact .after (State.tame_send _ _) (.update (.refl _))

theorem State.tame_openStage (s : State) (n : BitVec 64) : Tame s (s.openStage n) := by
  unfold State.openStage
  exact .after (State.tame_packTimeouts _) (.after (State.tame_stageTime _ _ _) (.after (.update (.refl _)) (State.tame_setReg _ _ _ _)))

theorem State.tame_sendPage (s : State) (p : Nat) : Tame s (s.sendPage p) := by
  unfold State.sendPage
  exact State.tame_twinSend _ _ _ _

theorem State.tame_sendDirty (s : State) : Tame s s.sendDirty := by
  unfold State.sendDirty
  exact .after (.foldl (fun _ _ => State.tame_sendPage _ _) _ _) (.update (.refl _))

theorem State.tame_takeCut (s : State) (n : BitVec 64) : Tame s (s.takeCut n) := by
  unfold State.takeCut
  exact .ite (fun _ => .refl _) fun _ => .after (.after (State.tame_sideCmd _ _ _ _) (.after (State.tame_twinSend _ _ _ _)
    (State.tame_sendDirty _))) (.update (.refl _))

theorem State.tame_takeSwap (s : State) (n : BitVec 64) : Tame s (s.takeSwap n) := by
  unfold State.takeSwap
  exact .ite (fun _ => .refl _) fun _ => .after (.after (.after (State.tame_releaseHeld _) (.update (.refl _)))
    (.after (State.tame_putAll _ _ _) (.after (State.tame_put _ _ _ _) (State.tame_put _ _ _ _)))) (.update (.refl _))

theorem State.tame_closeStage (s : State) : Tame s s.closeStage := by
  unfold State.closeStage
  extract_lets +onlyGivenNames n1 s2
  have hs2 : Tame s s2 := .foldl (fun _ _ => State.tame_closePolls _ _) _ _
  extract_lets +onlyGivenNames s3
  have hs3 : Tame s s3 := by
    unfold s3
    split
    · exact .after (State.tame_recordCtl _ _ _) hs2
    · exact hs2
  exact .after (.after (.after (.after (.after (State.tame_retryHeld _) (.after (State.tame_takeSwap _ _) (State.tame_takeCut _ _)))
    (.after (State.tame_openStage _ _) (State.tame_setHb _ _))) (.after (State.tame_hwPulse _ _)
    (.foldl (fun _ _ => State.tame_marker _ _ _) _ _))) (State.tame_retain _ _ _))
    (.ite (fun _ => .after (State.tame_twinSend _ _ _ _) hs3) fun _ => hs3)

theorem answers_execStageClose (s : State) : Answers s (execStageClose s) := by
  unfold execStageClose
  exact .awake (.next (.ite (fun _ => State.tame_closeStage _) fun _ => .refl _))

theorem answers_execTrailHeartbeat (s : State) : Answers s (execTrailHeartbeat s) := by
  unfold execTrailHeartbeat
  exact .awake (.next (.ite (fun _ => State.tame_setHb _ _) fun _ => .refl _))

theorem answers_execStageLengthWrite (us : BitVec 7) (s : State) : Answers s (execStageLengthWrite us s) := by
  unfold execStageLengthWrite
  exact .awake (.next (.ite (fun _ => .refl _) fun _ => .after (.ite (fun _ => .update (.refl _)) fun _ => .update (.refl _))
    (State.tame_put _ _ _ _)))

theorem answers_execPowerFailAssert (ns : Nat) (s : State) : Answers s (execPowerFailAssert ns s) := by
  unfold execPowerFailAssert
  exact .awake (.next (.ite (fun _ => .refl _) fun _ => .after (.ite (fun _ => State.tame_closeStage _) fun _ => .refl _)
    (State.tame_capture _ _ _ (fun _ => State.tame_powerFail _))))

theorem State.tame_passMarkers (s : State) (i : Nat) : Tame s (s.passMarkers i) := by
  unfold State.passMarkers
  exact .after (.after (State.tame_stimes _) (.foldl (fun _ _ => State.tame_setReg _ _ _ _) _ _)) (.update (.refl _))

theorem answers_execInputRingHeadWrite (i : Fin 23) (head : BitVec 16) (s : State) : Answers s (execInputRingHeadWrite i head s) := by
  unfold execInputRingHeadWrite
  exact .awake
    (.next (.after
    (.after (.after (.ite (fun _ => .after (State.tame_promoteGo _) (.after (State.tame_settled _) (State.tame_deliverGo _))) fun _ =>
    State.tame_retryHeld _) (.after (State.tame_markAgain _) (State.tame_passMarkers _ _))) (.update (.refl _))) (State.tame_put _ _ _ _)))

theorem answers_execDigestInWrite (core : Fin 24) (v : BitVec 64) (s : State) : Answers s (execDigestInWrite core v s) := by
  unfold execDigestInWrite
  exact .awake (.next (State.tame_digest _ _ _))

theorem answers_execStageDigestFinal (stage : BitVec 64) (s : State) : Answers s (execStageDigestFinal stage s) := by
  unfold execStageDigestFinal
  exact .awake (.next (.ite (fun _ => .refl _) fun _ => .after (.after (State.tame_compareDigests _) (State.tame_sendDigests _ _))
    (.update (.refl _))))

theorem answers_execLagLimitExceeded (lagUs : Nat) (s : State) : Answers s (execLagLimitExceeded lagUs s) := by
  unfold execLagLimitExceeded
  exact .awake (.next (.ite (fun _ => .refl _) fun _ => .after (.after (State.tame_setFault _ _) (.after (State.tame_raise _ _)
    (State.tame_put _ _ _ _))) (.update (.refl _))))

theorem answers_execTrailDoorbellUnmatched (f : Fin 66) (qid : Nat) (val : Nat) (s : State) : Answers s
    (execTrailDoorbellUnmatched f qid val s) := by
  unfold execTrailDoorbellUnmatched
  exact .awake (.next (.ite (fun _ => .after (State.tame_raise _ _) (.update (.refl _))) fun _ => .refl _))

/-! ### Machine/Arb -/

theorem State.tame_arbLost (s : State) (b : Bool) : Tame s (s.arbLost b) := by
  unfold State.arbLost
  exact .after (.ite (fun _ => .after (State.tame_vendor _ _) (State.tame_recordCtl _ _ _)) fun _ => .refl _) (State.tame_putAll _ _ _)

theorem State.tame_arbIn (s : State) (mseq : BitVec 32) : Tame s (s.arbIn mseq) := by
  unfold State.arbIn
  exact .after (.after (.ite (fun _ => .refl _) fun _ => .ite (fun _ => .update (.refl _)) fun _ => .after (State.tame_arbLost _ _)
    (.update (.refl _))) (.after (State.tame_raise _ _) (.update (.refl _)))) (State.tame_bump _ _ _ _)

theorem answers_execArbiterLost (s : State) : Answers s (execArbiterLost s) := by
  unfold execArbiterLost
  exact .awake (.next (.ite (fun _ => .refl _) fun _ => .after (State.tame_arbLost _ _) (.update (.refl _))))

theorem answers_execStatusSend (s : State) : Answers s (execStatusSend s) := by
  unfold execStatusSend
  exact .awake (.next (State.tame_arbSend _ _ _))

theorem State.tame_report (s : State) (stage : BitVec 64) : Tame s (s.report stage) := by
  unfold State.report
  exact State.tame_arbSend _ _ _

theorem answers_execQuery (mseq : BitVec 32) (stage : BitVec 64) (cause : Nat) (s : State) : Answers s (execQuery mseq stage cause s) := by
  unfold execQuery
  exact .awake (.next (.after (.after (.after (State.tame_rejoinAbort _ _) (State.tame_report _ _)) (.update (.refl _)))
    (State.tame_arbIn _ _)))

theorem State.tame_thaw (s : State) : Tame s s.thaw := by
  unfold State.thaw
  exact .after (State.tame_releaseHeld _) (.update (.refl _))

theorem answers_execQueryFreezeTimeout (s : State) : Answers s (execQueryFreezeTimeout s) := by
  unfold execQueryFreezeTimeout
  exact .awake (.next (.ite (fun _ => State.tame_thaw _) fun _ => .refl _))

theorem State.tame_fencePeer (s : State) (cause : Nat) : Tame s (s.fencePeer cause) := by
  unfold State.fencePeer
  exact .after (.ite (fun _ => State.tame_survive _ _ _) fun _ => .after (State.tame_promoteGo _) (.update (.refl _)))
    (State.tame_sideCmd _ _ _ _)

theorem answers_execVerdict (mseq : BitVec 32) (loser : BitVec 8) (cause : Nat) (stage : BitVec 64) (s : State) : Answers s
    (execVerdict mseq loser cause stage s) := by
  unfold execVerdict
  exact .awake (.next (.after (.after (.ite (fun _ => State.tame_fencePeer _ _) fun _ => State.tame_thaw _)
    (State.tame_answerWaits _ _ _ _ _ _ _)) (State.tame_arbIn _ _)))

theorem State.tame_aloneFencing (s : State) : Tame s s.aloneFencing := by
  unfold State.aloneFencing
  exact .after (.after (State.tame_alone _) (.update (.refl _))) (State.tame_putAll _ _ _)

theorem answers_execArbHello (mseq : BitVec 32) (peer : Nat) (s : State) : Answers s (execArbHello mseq peer s) := by
  unfold execArbHello
  exact .awake (.next (.after (.after (.ite (fun _ => State.tame_aloneFencing _) fun _ => .refl _) (.update (.refl _)))
    (State.tame_arbIn _ _)))

theorem answers_execLeadContinueAlone (s : State) : Answers s (execLeadContinueAlone s) := by
  unfold execLeadContinueAlone
  refine .awake ?_
  refine .next ?_
  split
  · exact .ite (fun _ => State.tame_fencePeer _ _) fun _ => .refl _
  · exact .refl _

theorem answers_execFenceNAssert (s : State) : Answers s (execFenceNAssert s) := by
  unfold execFenceNAssert
  exact .awake (.next (.after (.after (.after (.after (.after (State.tame_send _ _) (State.tame_setHb _ _)) (.update (.refl _)))
    (.after (State.tame_putAll _ _ _) (State.tame_putAll _ _ _))) (.after (State.tame_put _ _ _ _) (.after (State.tame_put _ _ _ _)
    (State.tame_put _ _ _ _)))) (State.tame_raise _ _)))

theorem answers_execFenceNRelease (s : State) : Answers s (execFenceNRelease s) := by
  unfold execFenceNRelease
  exact .awake (.next (.ite (fun _ => .refl _) fun _ => .after (.after (State.tame_flow _)
    (.foldl (fun _ _ => .after (State.tame_fail _ _ _ _) (State.tame_giveBack _ _)) _ _)) (.after (State.tame_releaseHeld _)
    (.after (State.tame_send _ _) (.update (.refl _))))))

theorem State.tame_sendHelloTwin (s : State) : Tame s s.sendHelloTwin := by
  unfold State.sendHelloTwin
  exact State.tame_twinSend _ _ _ _

theorem State.tame_sendResult (s : State) (result : Nat) : Tame s (s.sendResult result) := by
  unfold State.sendResult
  exact State.tame_twinSend _ _ _ _

theorem State.tame_agreed (s : State) (h : PairHello) (pairId : BitVec 64) : Tame s (s.agreed h pairId) := by
  unfold State.agreed
  exact .after (.after (State.tame_raise _ _) (.after (State.tame_put _ _ _ _) (.after (State.tame_kstat _) (.after (State.tame_recvKey _)
    (State.tame_sendKey _))))) (.update (.refl _))

theorem State.tame_asPaired (s : State) (trail : Bool) : Tame s (s.asPaired trail) := by
  unfold State.asPaired
  exact .after (.after (.after (.update (.refl _)) (.after (State.tame_putAll _ _ _) (State.tame_putAll _ _ _))) (State.tame_put _ _ _ _))
    (.after (State.tame_put _ _ _ _) (.after (State.tame_put _ _ _ _) (State.tame_put _ _ _ _)))

theorem State.tame_startPaired (s : State) (h : PairHello) (trail : Bool) : Tame s (s.startPaired h trail) := by
  unfold State.startPaired
  exact .after (.after (.after (.after (.after (State.tame_bootGo _) (.after (State.tame_packsGo _) (State.tame_putAll _ _ _)))
    (.ite (fun _ => .refl _) fun _ => State.tame_openStage _ _)) (.after (State.tame_applySettings _)
    (.ite (fun _ => State.tame_migrate _) fun _ => .refl _))) (.update (.refl _))) (.after (State.tame_putAll _ _ _)
    (State.tame_asPaired _ _))

theorem State.tame_refused (s : State) (code : Nat) : Tame s (s.refused code) := by
  unfold State.refused
  exact .after (State.tame_notice _ _ _ _) (.update (.refl _))

theorem State.tame_judgeHello (s : State) (h : PairHello) : Tame s (s.judgeHello h) := by
  unfold State.judgeHello
  exact .ite (fun _ => .after (.after (State.tame_startPaired _ _ _) (State.tame_agreed _ _ _)) (.after (State.tame_sendResult _ _)
    (.update (.refl _)))) fun _ => .after (State.tame_alone _) (.after (State.tame_putAll _ _ _) (.after (State.tame_refused _ _)
    (State.tame_sendResult _ _)))

theorem State.tame_startCopy (s : State) : Tame s s.startCopy := by
  unfold State.startCopy
  exact .after (.after (.foldl (fun _ _ => State.tame_sendPage _ _) _ _) (.update (.refl _)))
    (.foldl (fun _ _ => State.tame_xferSend _ _ _ _ _) _ _)

theorem State.tame_judgeJoiner (s : State) (h : PairHello) : Tame s (s.judgeJoiner h) := by
  unfold State.judgeJoiner
  exact .ite (fun _ => .after (.after (State.tame_startCopy _) (.after (State.tame_answerWaits _ _ _ _ _ _ _) (State.tame_agreed _ _ _)))
    (.after (State.tame_sendResult _ _) (.update (.refl _)))) fun _ => .after (State.tame_answerWaits _ _ _ _ _ _ _)
    (.after (State.tame_refused _ _) (.after (State.tame_sendResult _ _) (.update (.refl _))))

theorem answers_execPairHello (h : PairHello) (s : State) : Answers s (execPairHello h s) := by
  unfold execPairHello
  exact .awake
    (.next (.ite (fun _ => .refl _) fun _ => .after (.after (.ite (fun _ => .ite (fun _ => State.tame_sendResult _ _) fun _ => .ite
    (fun _ => State.tame_judgeJoiner _ _) fun _ => .refl _) fun _ => .ite
    (fun _ => .after (.after (.after (State.tame_sendHelloTwin _) (.after (State.tame_putAll _ _ _) (State.tame_putAll _ _ _)))
    (.after (State.tame_put _ _ _ _) (.after (State.tame_put _ _ _ _) (State.tame_put _ _ _ _)))) (.update (.refl _))) fun _ => .ite
    (fun _ => State.tame_judgeHello _ _) fun _ => .refl _) (.update (.refl _))) (State.tame_twinIn _ _)))

theorem answers_execPairResult (result : Nat) (pairId : BitVec 64) (epoch : BitVec 16) (dtime : BitVec 64) (s : State) : Answers s
    (execPairResult result pairId epoch dtime s) := by
  unfold execPairResult
  refine .awake ?_
  refine .next ?_
  split
  · exact .refl _
  · extract_lets +onlyGivenNames s1
    have hs1 : Tame s s1 := State.tame_twinIn _ _
    split
    · exact .ite (fun _ => .ite (fun _ => .after (State.tame_agreed _ _ _) (.update hs1)) fun _ => .after (.after (State.tame_putAll _ _ _)
        (.update (.refl _))) (.after (State.tame_putAll _ _ _) (.after (State.tame_put _ _ _ _)
        (.after (State.tame_put _ _ _ _) hs1)))) fun _ => .ite (fun _ => .after (State.tame_startPaired _ _ _)
        (.after (State.tame_agreed _ _ _) (.update hs1))) fun _ => .ite (fun _ => .update hs1) fun _ => hs1
    · exact .ite (fun _ => .update hs1) fun _ => hs1

theorem answers_execTwinLinkDown (lanes : BitVec 4) (s : State) : Answers s (execTwinLinkDown lanes s) := by
  unfold execTwinLinkDown
  exact .awake (.next (.after (.ite (fun _ => State.tame_twinDown _) fun _ => .refl _) (.after (State.tame_raise _ _)
    (State.tame_put _ _ _ _))))

theorem State.tame_linkBack (s : State) : Tame s s.linkBack := by
  unfold State.linkBack
  exact .after (.after (.after (.after (State.tame_releaseHeld _) (.after (State.tame_pumpTwin _) (State.tame_replayFlits _ _)))
    (.ite (fun _ => State.tame_rejoinAbort _ _) fun _ => .refl _)) (.update (.refl _))) (State.tame_put _ _ _ _)

theorem answers_execTwinLinkRetrain (lanes : BitVec 4) (s : State) : Answers s (execTwinLinkRetrain lanes s) := by
  unfold execTwinLinkRetrain
  exact .awake (.next (.after (.after (.ite (fun _ => .refl _) fun _ => .ite (fun _ => State.tame_replayFlits _ _) fun _ => .after
    (.ite (fun _ => State.tame_sendHelloTwin _) fun _ => .refl _) (State.tame_linkBack _)) (State.tame_control _ _ _ _ _ _))
    (.after (State.tame_raise _ _) (.after (State.tame_presetAt _ _) (.after (State.tame_put _ _ _ _) (State.tame_bump _ _ _ _))))))

theorem answers_execRsyncData (addr : Nat) (bytes : Bytes) (s : State) : Answers s (execRsyncData addr bytes s) := by
  unfold execRsyncData
  exact .awake (.next (.ite (fun _ => .after (State.tame_wrBytes _ _ _) (State.tame_twinIn _ _)) fun _ => .refl _))

theorem answers_execRsyncPassEnd (dirtyPages : Nat) (s : State) : Answers s (execRsyncPassEnd dirtyPages s) := by
  unfold execRsyncPassEnd
  exact .awake (.next (.ite (fun _ => .refl _) fun _ => .ite (fun _ => .update (.refl _)) fun _ => .ite
    (fun _ => State.tame_rejoinAbort _ _) fun _ => .after (State.tame_sendDirty _) (.update (.refl _))))

theorem twinRegs_plain : ∀ r ∈ twinRegs, r.plain = true := by decide

theorem State.tame_takeReg (s : State) (e : Nat × BitVec 64) : Tame s (s.takeReg e) := by
  refine .ite (fun _ => .refl s) fun _ => ?_
  split
  · rename_i r h
    exact s.tame_setReg r _ _ (twinRegs_plain r (List.mem_of_find?_eq_some h))
  · exact .refl s

theorem twinKey_stat (k : Nat) (h : keyOf .CIC_SRC_STAT k = true ∨ keyOf .PMC_DBG_STAT k = true) : twinKey k = false := by
  simp only [keyOf, beq_iff_eq] at h
  rcases h with h | h <;> simp only [twinKey, keyOf, h] <;> decide

theorem State.tame_takeImage (s : State) (x : CutImage) : Tame s (s.takeImage x) := by
  have hregs : Tame s { s with regs := s.regs.filter fun e => !twinKey e.1 } :=
    s.tame_filterRegs _ fun e he => by rw [twinKey_stat e.1 he]; rfl
  exact .after (.foldl State.tame_showPack _ _) (.update (.after (.foldl State.tame_takeReg _ _) hregs))

theorem answers_execRsyncCut (stage : BitVec 64) (image : CutImage) (s : State) : Answers s (execRsyncCut stage image s) := by
  unfold execRsyncCut
  exact .awake (.next (.ite (fun _ => .refl _) fun _ => .after (.after (State.tame_putAll _ _ _) (.update (.refl _)))
    (.after (State.tame_setReg _ _ _ _) (.after (State.tame_takeImage _ _) (State.tame_twinIn _ _)))))

theorem answers_execRsyncLive (stage : BitVec 64) (s : State) : Answers s (execRsyncLive stage s) := by
  unfold execRsyncLive
  exact .awake (.next (.ite (fun _ => .refl _) fun _ => .after (.ite (fun _ => .ite (fun _ => .update (.refl _)) fun _ => .after
    (State.tame_sendDigests _ _) (.after (State.tame_confirmSlot _) (State.tame_twinSend _ _ _ _))) fun _ => .after
    (.after (State.tame_vendor _ _) (State.tame_twinIn _ _)) (.update (.refl _))) (.update (.refl _))))

theorem answers_execRsyncAbort (reason : BitVec 32) (s : State) : Answers s (execRsyncAbort reason s) := by
  unfold execRsyncAbort
  exact .awake (.next (.ite (fun _ => .after (State.tame_rejoinAbort _ _) (State.tame_twinIn _ _)) fun _ => .refl _))

theorem answers_execRejoin (m : Msg) (a : Arrival) (joiner : Nat) (s : State) : Answers s (execRejoin m a joiner s) := by
  unfold execRejoin
  exact .awake (.next (tame_msgApply _ _ _ _ _ _ _ (fun _ => .ite (fun _ => State.tame_refuse _ _ _ _ _ _) fun _ => .ite
    (fun _ => State.tame_refuse _ _ _ _ _ _) fun _ => .ite (fun _ => State.tame_refuse _ _ _ _ _ _) fun _ => .ite
    (fun _ => State.tame_refuse _ _ _ _ _ _) fun _ => .after (State.tame_sendHelloTwin _) (.after (State.tame_await _ _ _ _ _)
    (.update (.refl _))))))

theorem State.tame_armed (s : State) : Tame s s.armed := by
  unfold State.armed
  exact .after (.after (.ite (fun _ => .update (.refl _)) fun _ => .refl _) (State.tame_asPaired _ _)) (.update (.refl _))

theorem answers_execArm (m : Msg) (a : Arrival) (s : State) : Answers s (execArm m a s) := by
  unfold execArm
  exact .awake
    (.next (tame_msgApply _ _ _ _ _ _ _ (fun _ => .ite (fun _ => .after (State.tame_done _ _ _ _ _ _) (State.tame_armed _)) fun _ =>
    State.tame_refuse _ _ _ _ _ _)))

theorem answers_execSwap (m : Msg) (a : Arrival) (s : State) : Answers s (execSwap m a s) := by
  unfold execSwap
  exact .awake
    (.next (tame_msgApply _ _ _ _ _ _ _ (fun _ => .ite (fun _ => .after (State.tame_done _ _ _ _ _ _) (.ite (fun _ => .refl _) fun _ =>
    .after (.update (.refl _)) (State.tame_recordCtl _ _ _))) fun _ => State.tame_refuse _ _ _ _ _ _)))

theorem answers_execFence (m : Msg) (a : Arrival) (target : Nat) (s : State) : Answers s (execFence m a target s) := by
  unfold execFence
  exact .awake (.next (tame_msgApply _ _ _ _ _ _ _ (fun _ => .ite (fun _ => State.tame_refuse _ _ _ _ _ _) fun _ => .after
    (.ite (fun _ => State.tame_arbSend _ _ _) fun _ => .refl _) (State.tame_await _ _ _ _ _))))

theorem answers_execRelease (m : Msg) (a : Arrival) (target : Nat) (s : State) : Answers s (execRelease m a target s) := by
  unfold execRelease
  exact .awake (.next (tame_msgApply _ _ _ _ _ _ _ (fun _ => .ite (fun _ => State.tame_refuse _ _ _ _ _ _) fun _ => .ite
    (fun _ => State.tame_refuse _ _ _ _ _ _) fun _ => .after (State.tame_done _ _ _ _ _ _) (State.tame_arbSend _ _ _))))

/-! ### Machine/Cic -/

theorem State.tame_takeSource (s : State) (n : Nat) : Tame s (s.takeSource n) := by
  unfold State.takeSource
  exact .ite (fun _ => .after (State.tame_putStat _ _ _ _) (.after (State.tame_putStat _ _ _ _) (State.tame_putStat _ _ _ _))) fun _ => .ite
    (fun _ => .refl _) fun _ => State.tame_putStat _ _ _ _

theorem State.tame_claimSource (s : State) (t n : Nat) : Tame s (s.claimSource t n) := by
  have hpres : ((s.takeSource n).put F.CIC_SRC_STAT.PRES n 0).get F.CIC_SRC_STAT.PRES n = 0 :=
    State.get_put_self _ F.CIC_SRC_STAT.PRES n 0 (by decide) (by decide)
  exact .update (.after (State.tame_putStat _ _ _ _) (.after (State.tame_putInsvc _ _ _ (.inl hpres))
    (.after (State.tame_putPres _ _ _ (.inr rfl)) (s.tame_takeSource n))))

theorem tame_cicClaim (t : Nat) (s : State) : Tame s (cicClaim t s) := by
  unfold cicClaim
  split
  · exact State.tame_send _ _
  · exact .after (State.tame_send _ _) (.after (State.tame_settle _) (State.tame_claimSource _ _ _))

theorem answers_execCicClaim (t : Fin 22) (s : State) : Answers s (execCicClaim t s) := by
  unfold execCicClaim
  exact .awake (.next (tame_cicClaim _ _))

theorem State.tame_endService (s : State) (t n : Nat) : Tame s (s.endService t n) :=
  .update (.after (State.tame_putStat _ _ _ _) (s.tame_putInsvc _ _ (.inr rfl)))

theorem State.tame_strayEoi (s : State) (t : Nat) (n : Nat) : Tame s (s.strayEoi t n) := by
  unfold State.strayEoi
  exact .after (State.tame_put _ _ _ _) (.after (State.tame_put _ _ _ _) (State.tame_bump _ _ _ _))

theorem tame_cicEoi (t : Nat) (n : Nat) (s : State) : Tame s (cicEoi t n s) := by
  unfold cicEoi
  exact .ite (fun _ => .after (State.tame_settle _) (State.tame_endService _ _ _)) fun _ => State.tame_strayEoi _ _ _

theorem answers_execCicEoi (t : Fin 22) (src : Fin 512) (s : State) : Answers s (execCicEoi t src s) := by
  unfold execCicEoi
  exact .awake (.next (tame_cicEoi _ _ _))

theorem answers_execCicDbRing (d : Fin 32) (s : State) : Answers s (execCicDbRing d s) := by
  unfold execCicDbRing
  exact .awake (.next (State.tame_raise _ _))

theorem tame_coreRun (i : Nat) (run : Bool) (s : State) : Tame s (coreRun i run s) := by
  unfold coreRun
  exact .ite (fun _ => .refl _) fun _ => .ite (fun _ => .ite (fun _ => State.tame_accessBad _ _) fun _ => .after (State.tame_put _ _ _ _)
    (State.tame_put _ _ _ _)) fun _ => .after (State.tame_put _ _ _ _) (State.tame_put _ _ _ _)

theorem answers_execCoreRun (i : Fin 24) (run : Bool) (s : State) : Answers s (execCoreRun i run s) := by
  unfold execCoreRun
  exact .awake (.next (tame_coreRun _ _ _))

theorem tame_wdtKick (i : Nat) (s : State) : Tame s (wdtKick i s) := by
  unfold wdtKick
  exact .update (.refl _)

theorem answers_execWatchdogKick (i : Fin 24) (s : State) : Answers s (execWatchdogKick i s) := by
  unfold execWatchdogKick
  exact .awake (.next (tame_wdtKick _ _))

theorem tame_wdtExpire (i : Nat) (s : State) : Tame s (wdtExpire i s) := by
  unfold wdtExpire
  exact .after (.after (.after (.after (State.tame_put _ _ _ _) (State.tame_raise _ _)) (.ite (fun _ => State.tame_setFault _ _) fun _ =>
    .refl _)) (.ite (fun _ => .after (State.tame_settle _) (State.tame_put _ _ _ _)) fun _ => .refl _)) (.after (State.tame_bump _ _ _ _)
    (State.tame_put _ _ _ _))

theorem answers_execWatchdogExpiry (i : Fin 24) (s : State) : Answers s (execWatchdogExpiry i s) := by
  unfold execWatchdogExpiry
  exact .awake (.next (.ite (fun _ => tame_wdtExpire _ _) fun _ => .refl _))

/-! ### Machine/Stats -/

theorem tame_tallyMsg (op : Nat) (len : Nat) (m : Msg) (a : Arrival) (f : State → State) (s : State) (hf : ∀ u, Tame u (f u)) : Tame s
    (tallyMsg op len m a f s) := by
  unfold tallyMsg
  exact tame_msgApply _ _ _ _ _ _ _ (fun _ => .ite (fun _ => hf _) fun _ => State.tame_done _ _ _ _ _ _)

theorem answers_execTallyStatus (m : Msg) (a : Arrival) (s : State) : Answers s (execTallyStatus m a s) := by
  unfold execTallyStatus
  exact .awake (.next (tame_tallyMsg _ _ _ _ _ _ (fun _ => State.tame_done _ _ _ _ _ _)))

theorem answers_execTallyRead (m : Msg) (a : Arrival) (index : Nat) (count : Nat) (s : State) : Answers s
    (execTallyRead m a index count s) := by
  unfold execTallyRead
  exact .awake (.next (tame_tallyMsg _ _ _ _ _ _ (fun _ => .ite (fun _ => State.tame_refuse _ _ _ _ _ _) fun _ => .ite
    (fun _ => State.tame_refuse _ _ _ _ _ _) fun _ => .ite (fun _ => State.tame_refuse _ _ _ _ _ _) fun _ => State.tame_done _ _ _ _ _ _)))

theorem answers_execTallyFreeze (m : Msg) (a : Arrival) (on : Bool) (s : State) : Answers s (execTallyFreeze m a on s) := by
  unfold execTallyFreeze
  exact .awake (.next (tame_tallyMsg _ _ _ _ _ _ (fun _ => .after (State.tame_done _ _ _ _ _ _)
    (.ite (fun _ => State.tame_put _ _ _ _) fun _ => .ite (fun _ => State.tame_tallyThaw _) fun _ => .refl _))))

theorem answers_execTallyClear (m : Msg) (a : Arrival) (s : State) : Answers s (execTallyClear m a s) := by
  unfold execTallyClear
  exact .awake (.next (tame_tallyMsg _ _ _ _ _ _ (fun _ => .ite (fun _ => State.tame_refuse _ _ _ _ _ _) fun _ => .ite
    (fun _ => State.tame_refuse _ _ _ _ _ _) fun _ => .after (State.tame_done _ _ _ _ _ _) (State.tame_put _ _ _ _))))

theorem answers_execCounterRead (m : Msg) (unit : Nat) (s : State) : Answers s (execCounterRead m unit s) := by
  unfold execCounterRead
  refine .awake ?_
  refine .next ?_
  refine tame_msgApply _ _ _ _ _ _ _ (fun x1 => ?_)
  split
  · exact State.tame_refuse _ _ _ _ _ _
  · exact State.tame_done _ _ _ _ _ _

theorem answers_execCounterConfig (m : Msg) (a : Arrival) (unit : Nat) (k : Fin 8) (chain : Bool) (event : BitVec 16) (thresh : BitVec 32)
    (s : State) : Answers s (execCounterConfig m a unit k chain event thresh s) := by
  unfold execCounterConfig
  refine .awake ?_
  refine .next ?_
  refine tame_msgApply _ _ _ _ _ _ _ (fun x1 => ?_)
  split
  · exact State.tame_refuse _ _ _ _ _ _
  · exact .after (.after (State.tame_done _ _ _ _ _ _) (State.tame_put _ _ _ _)) (.after (State.tame_put _ _ _ _) (State.tame_put _ _ _ _))

theorem answers_execAccessErrors (m : Msg) (s : State) : Answers s (execAccessErrors m s) := by
  unfold execAccessErrors
  exact .awake (.next (tame_msgApply _ _ _ _ _ _ _ (fun _ => State.tame_done _ _ _ _ _ _)))

theorem State.tame_pageRead (s : State) (page : Nat) (f : State → State) (hf : ∀ u, Tame u (f u)) : Tame s (s.pageRead page f) := by
  unfold State.pageRead
  exact .after (.ite (fun _ => .after (State.tame_flow _) (State.tame_pageLost _ _)) fun _ => .refl _) (hf _)

theorem answers_execHbmRead (who : Initiator) (addr : Nat) (upset : BitVec 72) (s : State) : Answers s (execHbmRead who addr upset s) := by
  unfold execHbmRead
  refine .awake ?_
  refine .next ?_
  split
  · exact .refl _
  · split
    · exact .after (State.tame_send _ _) (State.tame_undecoded _ _)
    · extract_lets +onlyGivenNames w1 s2
      have hs2 : Tame s s2 := State.tame_setErr _ _ _
      refine .after (State.tame_pageRead _ _ _ (fun x3 => ?_)) hs2
      extract_lets +onlyGivenNames r4 s5
      have hs5 : Tame x3 s5 := by
        unfold s5
        split
        · split
          · rename_i h6 h7 h8
            exact .after (State.tame_send _ _) (State.tame_hbcRead _ _)
          · rename_i h9 h10 h11
            exact .after (State.tame_send _ _) (State.tame_hbcRead _ _)
          · exact State.tame_hbcRead _ _
        · exact State.tame_hbcRead _ _
      exact .after (State.tame_send _ _) hs5

theorem answers_execPatrolScrub (page : Nat) (upsets : List (Nat × BitVec 72)) (s : State) : Answers s (execPatrolScrub page upsets s) := by
  unfold execPatrolScrub
  exact .awake (.next (.ite (fun _ => .after (State.tame_pageRead _ _ _ (fun _ => tame_patrolPage _ _))
    (State.tame_upsetPage _ _ _)) fun _ => .refl _))

/-! ### Machine/Settings -/

theorem State.tame_storeSetting (s : State) (id : Nat) (index : Nat) (v : Nat) : Tame s (s.storeSetting id index v) := by
  unfold State.storeSetting
  exact .update (.refl _)

theorem State.tame_settingActs (s : State) (id : Nat) (index : Nat) : Tame s (s.settingActs id index) := by
  unfold State.settingActs
  exact .after (.ite (fun _ => State.tame_recomputeU _) fun _ => State.tame_flow _) (State.tame_applySetting _ _ _)

theorem State.tame_putSetting (s : State) (x : SetInfo) (index : Nat) (v : Nat) (a : Arrival) : Tame s (s.putSetting x index v a) := by
  unfold State.putSetting
  exact .ite (fun _ => .after (.ite (fun _ => .refl _) fun _ => State.tame_sgenUp _) (.update (.refl _))) fun _ => .ite
    (fun _ => .refl _) fun _ => .ite (fun _ => .ite (fun _ => .after (State.tame_settingActs _ _ _)
    (State.tame_storeSetting _ _ _ _)) fun _ => .refl _) fun _ => .after (State.tame_settingActs _ _ _) (.after (State.tame_sgenUp _)
    (State.tame_storeSetting _ _ _ _))

theorem State.tame_putNqn (s : State) (index : Nat) (v : Bytes) : Tame s (s.putNqn index v) := by
  unfold State.putNqn
  exact .ite (fun _ => .refl _) fun _ => .after (State.tame_sgenUp _) (.update (.refl _))

theorem answers_execGetSetting (m : Msg) (a : Arrival) (id : Nat) (index : Nat) (s : State) : Answers s
    (execGetSetting m a id index s) := by
  unfold execGetSetting
  refine .awake ?_
  refine .next ?_
  refine tame_msgApply _ _ _ _ _ _ _ (fun x1 => ?_)
  split
  · exact State.tame_refuse _ _ _ _ _ _
  · exact .ite (fun _ => State.tame_done _ _ _ _ _ _) fun _ => State.tame_refuse _ _ _ _ _ _

theorem answers_execSetSetting (m : Msg) (a : Arrival) (id : Nat) (index : Nat) (value : Bytes) (s : State) : Answers s
    (execSetSetting m a id index value s) := by
  unfold execSetSetting
  refine .awake ?_
  refine .next ?_
  refine tame_msgApply _ _ _ _ _ _ _ (fun x1 => ?_)
  split
  · exact State.tame_refuse _ _ _ _ _ _
  · exact .ite (fun _ => State.tame_refuse _ _ _ _ _ _) fun _ => .ite (fun _ => .ite (fun _ => .after (State.tame_done _ _ _ _ _ _)
      (State.tame_putNqn _ _ _)) fun _ => State.tame_refuse _ _ _ _ _ _) fun _ => .ite (fun _ => State.tame_refuse _ _ _ _ _ _) fun _ =>
      .ite (fun _ => .after (State.tame_done _ _ _ _ _ _) (State.tame_putSetting _ _ _ _ _)) fun _ => State.tame_refuse _ _ _ _ _ _

theorem State.tame_defaultOne (a : Arrival) (s : State) (e : SetInfo × Nat) : Tame s (State.defaultOne a s e) := by
  unfold State.defaultOne
  exact .ite (fun _ => State.tame_putNqn _ _ _) fun _ => State.tame_putSetting _ _ _ _ _

theorem answers_execDefaultSetting (m : Msg) (a : Arrival) (id : Nat) (index : Nat) (s : State) : Answers s
    (execDefaultSetting m a id index s) := by
  unfold execDefaultSetting
  refine .awake ?_
  refine .next ?_
  refine tame_msgApply _ _ _ _ _ _ _ (fun x1 => ?_)
  extract_lets +onlyGivenNames xs2 l3 s4
  have hs4 : Tame x1 s4 := .foldl (fun _ _ => State.tame_defaultOne _ _ _) _ _
  extract_lets +onlyGivenNames s5
  have hs5 : Tame x1 s5 := .foldl (fun _ _ => State.tame_storeSetting _ _ _ _) _ _
  exact .ite (fun _ => State.tame_refuse _ _ _ _ _ _) fun _ => .ite (fun _ => State.tame_refuse _ _ _ _ _ _) fun _ => .ite
    (fun _ => .after (State.tame_done _ _ _ _ _ _) hs4) fun _ => State.tame_refuse _ _ _ _ _ _

theorem answers_execListSettings (m : Msg) (a : Arrival) (off : Nat) (s : State) : Answers s (execListSettings m a off s) := by
  unfold execListSettings
  exact .awake (.next (tame_msgApply _ _ _ _ _ _ _ (fun _ => State.tame_done _ _ _ _ _ _)))

/-! ### Machine/ReadBack -/

theorem answers_execCatalogue (m : Msg) (off : Nat) (s : State) : Answers s (execCatalogue m off s) := by
  unfold execCatalogue
  exact .awake (.next (tame_msgApply _ _ _ _ _ _ _ (fun _ => State.tame_done _ _ _ _ _ _)))

theorem answers_execStateRead (m : Msg) (stateId : BitVec 32) (index : Nat) (off : Nat) (len : Nat) (s : State) : Answers s
    (execStateRead m stateId index off len s) := by
  unfold execStateRead
  exact .awake (.next (tame_msgApply _ _ _ _ _ _ _ (fun _ => .ite (fun _ => State.tame_refuse _ _ _ _ _ _) fun _ => .ite
    (fun _ => State.tame_refuse _ _ _ _ _ _) fun _ => .ite (fun _ => State.tame_refuse _ _ _ _ _ _) fun _ => .after
    (State.tame_done _ _ _ _ _ _) (State.tame_drawn _))))

theorem answers_execSgen (m : Msg) (s : State) : Answers s (execSgen m s) := by
  unfold execSgen
  exact .awake (.next (tame_msgApply _ _ _ _ _ _ _ (fun _ => State.tame_done _ _ _ _ _ _)))

theorem answers_execMailboxIdentify (m : Msg) (s : State) : Answers s (execMailboxIdentify m s) := by
  unfold execMailboxIdentify
  exact .awake (.next (tame_msgApply _ _ _ _ _ _ _ (fun _ => State.tame_done _ _ _ _ _ _)))

theorem answers_execAttest (m : Msg) (nonce : BitVec 256) (s : State) : Answers s (execAttest m nonce s) := by
  unfold execAttest
  exact .awake (.next (tame_msgApply _ _ _ _ _ _ _ (fun _ => .after (State.tame_done _ _ _ _ _ _) (State.tame_drawn _))))

theorem answers_execCertChain (m : Msg) (off : Nat) (s : State) : Answers s (execCertChain m off s) := by
  unfold execCertChain
  exact .awake (.next (tame_msgApply _ _ _ _ _ _ _ (fun _ => State.tame_done _ _ _ _ _ _)))

/-! ### Machine/Manage -/

theorem tame_portMsg (op : Nat) (len : Nat) (m : Msg) (a : Arrival) (port : Nat) (f : State → State) (s : State)
    (hf : ∀ u, Tame u (f u)) : Tame s (portMsg op len m a port f s) := by
  unfold portMsg
  exact tame_msgApply _ _ _ _ _ _ _ (fun _ => .ite (fun _ => State.tame_refuse _ _ _ _ _ _) fun _ => hf _)

theorem answers_execAdmitPack (m : Msg) (a : Arrival) (port : Nat) (s : State) : Answers s (execAdmitPack m a port s) := by
  unfold execAdmitPack
  exact .awake (.next (tame_portMsg _ _ _ _ _ _ _ (fun _ => .ite (fun _ => State.tame_refuse _ _ _ _ _ _) fun _ => .after
    (.after (State.tame_done _ _ _ _ _ _) (State.tame_flow _)) (.ite (fun _ => State.tame_admitPack _ _) fun _ => .after
    (State.tame_sendHello _ _) (State.tame_setPkState _ _ _)))))

theorem answers_execRemove (m : Msg) (a : Arrival) (port : Nat) (s : State) : Answers s (execRemove m a port s) := by
  unfold execRemove
  exact .awake (.next (tame_portMsg _ _ _ _ _ _ _ (fun _ => .ite (fun _ => State.tame_refuse _ _ _ _ _ _) fun _ => .ite
    (fun _ => State.tame_refuse _ _ _ _ _ _) fun _ => .after (State.tame_done _ _ _ _ _ _) (.after (State.tame_relocateRemoved _)
    (State.tame_setPk _ _ _)))))

theorem answers_execIdRead (m : Msg) (a : Arrival) (port : Nat) (off : Nat) (len : Nat) (s : State) : Answers s
    (execIdRead m a port off len s) := by
  unfold execIdRead
  exact .awake (.next (tame_portMsg _ _ _ _ _ _ _ (fun _ => .ite (fun _ => State.tame_refuse _ _ _ _ _ _) fun _ => .ite
    (fun _ => State.tame_refuse _ _ _ _ _ _) fun _ => .ite (fun _ => State.tame_refuse _ _ _ _ _ _) fun _ => .after
    (State.tame_packSend _ _ _ _) (State.tame_await _ _ _ _ _))))

theorem State.tame_replaceId (s : State) (n : Nat) (rec : Bytes) : Tame s (s.replaceId n rec) := by
  unfold State.replaceId
  exact .after (State.tame_idUpdate _ _ _) (State.tame_setPk _ _ _)

theorem answers_execIdReplace (m : Msg) (a : Arrival) (port : Nat) (rec : Bytes) (s : State) : Answers s
    (execIdReplace m a port rec s) := by
  unfold execIdReplace
  exact .awake (.next (tame_portMsg _ _ _ _ _ _ _ (fun _ => .ite (fun _ => State.tame_refuse _ _ _ _ _ _) fun _ => .ite
    (fun _ => State.tame_refuse _ _ _ _ _ _) fun _ => .ite (fun _ => State.tame_refuse _ _ _ _ _ _) fun _ => .after
    (State.tame_replaceId _ _ _) (State.tame_await _ _ _ _ _))))

theorem answers_execEndReadonly (m : Msg) (a : Arrival) (s : State) : Answers s (execEndReadonly m a s) := by
  unfold execEndReadonly
  exact .awake (.next (tame_msgApply _ _ _ _ _ _ _ (fun _ => .ite (fun _ => .after (State.tame_done _ _ _ _ _ _) (.after (State.tame_flow _)
    (.after (State.tame_roJudge _) (.update (.refl _))))) fun _ => State.tame_refuse _ _ _ _ _ _)))

theorem answers_execRetrain (m : Msg) (a : Arrival) (port : Nat) (s : State) : Answers s (execRetrain m a port s) := by
  unfold execRetrain
  refine .awake ?_
  refine .next ?_
  refine tame_portMsg _ _ _ _ _ _ _ (fun x1 => ?_)
  split
  · exact .ite (fun _ => .after (State.tame_done _ _ _ _ _ _) (.after (State.tame_retrainStart _ _)
      (.ite (fun _ => State.tame_setPkState _ _ _) fun _ => .refl _))) fun _ => State.tame_refuse _ _ _ _ _ _
  · exact .refl _

theorem State.tame_stopRelocations (s : State) : Tame s s.stopRelocations := by
  unfold State.stopRelocations
  exact .after (.foldl (fun _ _ => .ite (fun _ => .after (State.tame_logSys _ _) (State.tame_setCb _ _ _)) fun _ => .refl _) _ _)
    (.update (.refl _))

theorem answers_execRemoveCancel (m : Msg) (a : Arrival) (port : Nat) (s : State) : Answers s (execRemoveCancel m a port s) := by
  unfold execRemoveCancel
  exact .awake (.next (tame_portMsg _ _ _ _ _ _ _ (fun _ => .ite (fun _ => State.tame_refuse _ _ _ _ _ _) fun _ => .after
    (.after (State.tame_done _ _ _ _ _ _) (.after (State.tame_flow _) (.after (State.tame_recomputeU _) (State.tame_wakePack _ _))))
    (.after (State.tame_stopRelocations _) (State.tame_setPk _ _ _)))))

/-! ### Machine/Firm -/

theorem State.tame_download (s : State) (path : Nat) (off : Nat) (data : Bytes) : Tame s (s.download path off data) := by
  unfold State.download
  exact .ite (fun _ => .refl _) fun _ => .update (.refl _)

theorem State.tame_stageClear (s : State) : Tame s s.stageClear := by
  unfold State.stageClear
  exact .update (.refl _)

theorem State.tame_commit (s : State) : Tame s s.commit.2 := by
  have hclear : Tame s s.stageClear := s.tame_stageClear
  unfold State.commit
  dsimp only
  split
  · exact hclear
  · dsimp only
    exact .after (State.tame_selWrite _ _) (.after (State.tame_norPut _ _ _) (.after (State.tame_norErase _ _) hclear))

theorem tame_firmCtx (stamp : BitVec 64) (f : Ctx → State → State) (s : State) (hf : ∀ y0 u, Tame u (f y0 u)) : Tame s
    (firmCtx stamp f s) := by
  unfold firmCtx
  exact tame_withCtx _ _ _ (fun _ _ => .ite (fun _ => hf _ _) fun _ => State.tame_fail _ _ _ _)

theorem answers_execFirmwareImageDownload (stamp : BitVec 64) (off : Nat) (data : Bytes) (s : State) : Answers s
    (execFirmwareImageDownload stamp off data s) := by
  unfold execFirmwareImageDownload
  exact .awake (.next (tame_firmCtx _ _ _ (fun _ _ => .ite (fun _ => State.tame_fail _ _ _ _) fun _ => .ite
    (fun _ => State.tame_fail _ _ _ _) fun _ => .ite (fun _ => State.tame_fail _ _ _ _) fun _ => .after (State.tame_succeed _ _ _)
    (State.tame_download _ _ _ _))))

theorem State.tame_selectNext (s : State) (k : Nat) : Tame s (s.selectNext k) := by
  unfold State.selectNext
  exact State.tame_selWrite _ _

theorem State.tame_commitCmd (s : State) (c : Ctx) (slot : Nat) (act : Bool) : Tame s (s.commitCmd c slot act) := by
  unfold State.commitCmd
  split
  · exact State.tame_fail _ _ _ _
  · exact .ite (fun _ => .after (State.tame_fail _ _ _ _) (State.tame_commit _)) fun _ => .after (State.tame_succeed _ _ _)
      (.ite (fun _ => .after (State.tame_selectNext _ _) (State.tame_commit _)) fun _ => State.tame_commit _)

theorem answers_execFirmwareCommitReplace (stamp : BitVec 64) (slot : Fin 8) (s : State) : Answers s
    (execFirmwareCommitReplace stamp slot s) := by
  unfold execFirmwareCommitReplace
  exact .awake (.next (tame_firmCtx _ _ _ (fun _ _ => State.tame_commitCmd _ _ _ _)))

theorem answers_execFirmwareCommitReplaceActivate (stamp : BitVec 64) (slot : Fin 8) (s : State) : Answers s
    (execFirmwareCommitReplaceActivate stamp slot s) := by
  unfold execFirmwareCommitReplaceActivate
  exact .awake (.next (tame_firmCtx _ _ _ (fun _ _ => State.tame_commitCmd _ _ _ _)))

theorem answers_execFirmwareCommitActivate (stamp : BitVec 64) (slot : Fin 8) (s : State) : Answers s
    (execFirmwareCommitActivate stamp slot s) := by
  unfold execFirmwareCommitActivate
  refine .awake ?_
  refine .next ?_
  refine tame_firmCtx _ _ _ (fun x1 x2 => ?_)
  split
  · exact State.tame_fail _ _ _ _
  · exact .ite (fun _ => State.tame_fail _ _ _ _) fun _ => .after (State.tame_succeed _ _ _) (State.tame_selectNext _ _)

theorem State.tame_activateStart (s : State) (by_ : Option (BitVec 64)) : Tame s (s.activateStart by_) := by
  unfold State.activateStart
  exact .after (.update (.refl _)) (State.tame_event _ _ _ _)

theorem answers_execFirmwareCommitActivateNoReset (stamp : BitVec 64) (slot : Fin 8) (s : State) : Answers s
    (execFirmwareCommitActivateNoReset stamp slot s) := by
  unfold execFirmwareCommitActivateNoReset
  refine .awake ?_
  refine .next ?_
  refine tame_firmCtx _ _ _ (fun x1 x2 => ?_)
  split
  · exact State.tame_fail _ _ _ _
  · split
    · exact State.tame_fail _ _ _ _
    · exact .ite (fun _ => State.tame_fail _ _ _ _) fun _ => .ite (fun _ => .after (State.tame_fail _ _ _ _)
        (State.tame_selectNext _ _)) fun _ => .after (State.tame_activateStart _ _) (State.tame_setWait _ _ _)

theorem tame_resetFormats (old : Bytes) (new : Bytes) (s : State) : Tame s (resetFormats old new s) := by
  unfold resetFormats
  exact .foldl (fun _ _ => .ite (fun _ => .refl _) fun _ => .after (.after (State.tame_notice _ _ _ _)
    (.foldl (fun _ _ => State.tame_applySetting _ _ _) _ _)) (.update (.refl _))) _ _

theorem State.tame_switchImage (s : State) : Tame s s.switchImage := by
  unfold State.switchImage
  exact .after (.after (.update (.refl _)) (tame_resetFormats _ _ _)) (State.tame_selWrite _ _)

theorem answers_execActivationDrained (ok : Bool) (s : State) : Answers s (execActivationDrained ok s) := by
  unfold execActivationDrained
  refine .awake ?_
  refine .next ?_
  split
  · exact .refl _
  · split
    · exact .refl _
    · extract_lets +onlyGivenNames s1
      have hs1 : Tame s s1 := .ite (fun _ => .after (.foldl (fun _ _ => State.tame_judgeBridge _ _) _ _)
        (State.tame_switchImage _)) fun _ => .refl _
      extract_lets +onlyGivenNames s2 s3
      have hs3 : Tame s s3 := .update hs1
      extract_lets +onlyGivenNames s4
      have hs4 : Tame s s4 := by
        unfold s4
        split
        · rename_i h5 h6
          exact .ite (fun _ => .after (State.tame_answerWaits _ _ _ _ _ _ _) hs3) fun _ => .after (State.tame_answerWaits _ _ _ _ _ _ _) hs3
        · rename_i h7 h8 h9
          split
          · exact .ite (fun _ => .after (State.tame_succeed _ _ _) hs3) fun _ => .after (State.tame_fail _ _ _ _) hs3
          · exact hs3
      exact .after (State.tame_flow _) hs4

theorem answers_execStagingWrite (m : Msg) (a : Arrival) (off : Nat) (data : Bytes) (s : State) : Answers s
    (execStagingWrite m a off data s) := by
  unfold execStagingWrite
  exact .awake (.next (tame_msgApply _ _ _ _ _ _ _ (fun _ => .ite (fun _ => State.tame_refuse _ _ _ _ _ _) fun _ => .ite
    (fun _ => State.tame_refuse _ _ _ _ _ _) fun _ => .ite (fun _ => State.tame_refuse _ _ _ _ _ _) fun _ => .ite
    (fun _ => State.tame_refuse _ _ _ _ _ _) fun _ => .after (State.tame_done _ _ _ _ _ _) (State.tame_download _ _ _ _))))

theorem answers_execStagingAbort (m : Msg) (a : Arrival) (s : State) : Answers s (execStagingAbort m a s) := by
  unfold execStagingAbort
  exact .awake (.next (tame_msgApply _ _ _ _ _ _ _ (fun _ => .after (State.tame_done _ _ _ _ _ _) (State.tame_stageClear _))))

theorem answers_execCommitStaging (m : Msg) (a : Arrival) (s : State) : Answers s (execCommitStaging m a s) := by
  unfold execCommitStaging
  exact .awake
    (.next (tame_msgApply _ _ _ _ _ _ _ (fun _ => .ite (fun _ => .after (State.tame_refuse _ _ _ _ _ _) (State.tame_commit _)) fun _ =>
    .after (State.tame_done _ _ _ _ _ _) (State.tame_commit _))))

theorem State.tame_keepStaged (s : State) : Tame s s.keepStaged := by
  unfold State.keepStaged
  exact .ite (fun _ => .refl _) fun _ => .after (.update (.refl _)) (State.tame_keepDump _ _)

theorem State.tame_restart (s : State) : Tame s s.restart := by
  unfold State.restart
  exact .after (.after (.update (.refl _)) (State.tame_keepStaged _)) (.foldl (fun _ _ => .ite (fun _ => State.tame_resetFunc _ _) fun _ =>
    .refl _) _ _)

theorem answers_execActivateWithReset (m : Msg) (a : Arrival) (slot : Nat) (force : Bool) (s : State) : Answers s
    (execActivateWithReset m a slot force s) := by
  unfold execActivateWithReset
  exact .awake (.next (tame_msgApply _ _ _ _ _ _ _ (fun _ => .ite (fun _ => State.tame_refuse _ _ _ _ _ _) fun _ => .ite
    (fun _ => State.tame_refuse _ _ _ _ _ _) fun _ => .after (State.tame_restart _) (.after (State.tame_done _ _ _ _ _ _)
    (State.tame_selectNext _ _)))))

theorem answers_execActivateWithoutReset (m : Msg) (a : Arrival) (s : State) : Answers s (execActivateWithoutReset m a s) := by
  unfold execActivateWithoutReset
  refine .awake ?_
  refine .next ?_
  refine tame_msgApply _ _ _ _ _ _ _ (fun x1 => ?_)
  split
  · exact State.tame_refuse _ _ _ _ _ _
  · exact .ite (fun _ => State.tame_refuse _ _ _ _ _ _) fun _ => .ite (fun _ => .after (State.tame_refuse _ _ _ _ _ _)
      (State.tame_selectNext _ _)) fun _ => .after (State.tame_activateStart _ _) (State.tame_await _ _ _ _ _)

theorem answers_execReadSlotStatus (m : Msg) (a : Arrival) (s : State) : Answers s (execReadSlotStatus m a s) := by
  unfold execReadSlotStatus
  exact .awake (.next (tame_msgApply _ _ _ _ _ _ _ (fun _ => .after (State.tame_done _ _ _ _ _ _) (.update (.refl _)))))

theorem answers_execUpdatePackBridges (m : Msg) (a : Arrival) (portMask : BitVec 32) (s : State) : Answers s
    (execUpdatePackBridges m a portMask s) := by
  unfold execUpdatePackBridges
  exact .awake (.next (tame_msgApply _ _ _ _ _ _ _ (fun _ => .ite (fun _ => State.tame_refuse _ _ _ _ _ _) fun _ => .ite
    (fun _ => State.tame_refuse _ _ _ _ _ _) fun _ => .after (State.tame_updNext _) (.after (.update (.refl _))
    (State.tame_await _ _ _ _ _)))))

theorem answers_execCountersigningKeys (m : Msg) (a : Arrival) (op : Nat) (key : BitVec 768) (keyid : BitVec 384) (s : State) : Answers s
    (execCountersigningKeys m a op key keyid s) := by
  unfold execCountersigningKeys
  refine .awake ?_
  extract_lets +onlyGivenNames len1
  refine .next ?_
  refine tame_msgApply _ _ _ _ _ _ _ (fun x2 => ?_)
  extract_lets +onlyGivenNames ok3
  split
  · exact .ite (fun _ => .after (State.tame_done _ _ _ _ _ _) (.update (.refl _))) fun _ => .ite
      (fun _ => State.tame_refuse _ _ _ _ _ _) fun _ => .after (State.tame_done _ _ _ _ _ _) (.update (.refl _))
  · exact .ite (fun _ => State.tame_refuse _ _ _ _ _ _) fun _ => .ite (fun _ => State.tame_refuse _ _ _ _ _ _) fun _ => .after
      (State.tame_done _ _ _ _ _ _) (.update (.refl _))
  · exact .ite (fun _ => State.tame_refuse _ _ _ _ _ _) fun _ => .after (State.tame_done _ _ _ _ _ _) (.update (.refl _))
  · exact .after (State.tame_done _ _ _ _ _ _) (.update (.refl _))
  · exact State.tame_refuse _ _ _ _ _ _

theorem answers_execRaiseSvnMin (m : Msg) (a : Arrival) (s : State) : Answers s (execRaiseSvnMin m a s) := by
  unfold execRaiseSvnMin
  exact .awake (.next (tame_msgApply _ _ _ _ _ _ _ (fun _ => .after (State.tame_done _ _ _ _ _ _)
    (.ite (fun _ => State.tame_selWrite _ _) fun _ => .refl _))))

theorem answers_execRestartTestMode (m : Msg) (a : Arrival) (s : State) : Answers s (execRestartTestMode m a s) := by
  unfold execRestartTestMode
  exact .awake (.next (tame_msgApply _ _ _ _ _ _ _ (fun _ => .after (.update (.refl _)) (.after (State.tame_restart _)
    (State.tame_done _ _ _ _ _ _)))))

theorem answers_execMigrateSettings (m : Msg) (a : Arrival) (s : State) : Answers s (execMigrateSettings m a s) := by
  unfold execMigrateSettings
  exact .awake (.next (tame_msgApply _ _ _ _ _ _ _ (fun _ => .ite (fun _ => State.tame_refuse _ _ _ _ _ _) fun _ => .after
    (State.tame_done _ _ _ _ _ _) (.ite (fun _ => State.tame_migrate _) fun _ => .refl _))))

/-! ### Machine/Debug -/

theorem State.tame_jtagIr (s : State) (code : Nat) : Tame s (s.jtagIr code) := by
  unfold State.jtagIr
  exact .update (.refl _)

theorem answers_execExtest (s : State) : Answers s (execExtest s) := by
  unfold execExtest
  exact .next (State.tame_jtagIr _ _)

theorem answers_execSample (s : State) : Answers s (execSample s) := by
  unfold execSample
  exact .next (State.tame_jtagIr _ _)

theorem answers_execPreload (s : State) : Answers s (execPreload s) := by
  unfold execPreload
  exact .next (State.tame_jtagIr _ _)

theorem answers_execBypass (s : State) : Answers s (execBypass s) := by
  unfold execBypass
  exact .next (State.tame_jtagIr _ _)

theorem answers_execDbgStatus (s : State) : Answers s (execDbgStatus s) := by
  unfold execDbgStatus
  exact .next (.after (State.tame_send _ _) (State.tame_jtagIr _ _))

theorem answers_execDbgChal (s : State) : Answers s (execDbgChal s) := by
  unfold execDbgChal
  extract_lets +onlyGivenNames v1 s2
  have hs2 : Tame s s2 := .after (State.tame_send _ _) (.after (State.tame_jtagIr _ _) (State.tame_drawn _))
  exact .next (.update hs2)

theorem State.tame_unlockRefuse (s : State) (result : Nat) (fails : Bool) : Tame s (s.unlockRefuse result fails) := by
  unfold State.unlockRefuse
  exact .after (.after (.after (State.tame_raise _ _) (.update (.refl _))) (.ite (fun _ => State.tame_putDebug _ _ _ _) fun _ => .refl _))
    (.after (State.tame_putDebug _ _ _ _) (State.tame_putDebug _ _ _ _))

theorem answers_execDbgToken (t : DbgToken) (s : State) : Answers s (execDbgToken t s) := by
  unfold execDbgToken
  exact .next (.after (.ite (fun _ => State.tame_unlockRefuse _ _ _) fun _ => .ite (fun _ => .update (.refl _)) fun _ => .after
    (State.tame_raise _ _) (.after (State.tame_putDebug _ _ _ _) (.update (.refl _)))) (State.tame_jtagIr _ _))

theorem State.tame_unlockShutdown (s : State) : Tame s s.unlockShutdown := by
  unfold State.unlockShutdown
  exact .after (.after (.after (State.tame_flow _) (.foldl (fun _ _ => State.tame_closeConvoy _ _) _ _)) (.after (State.tame_closeJournal _)
    (.update (.refl _)))) (.foldl (fun _ _ => .after (.update (.refl _)) (State.tame_put _ _ _ _)) _ _)

theorem State.tame_freezeNow (s : State) : Tame s s.freezeNow := .ite (fun _ => s.tame_putFrozen) fun _ => .refl s

theorem State.tame_unlockNow (s : State) : Tame s s.unlockNow := by
  unfold State.unlockNow
  exact .after (.after (.after (.after (State.tame_freezeNow _) (State.tame_raise _ _)) (.after (State.tame_putDebug _ _ _ _)
    (.after (State.tame_putDebug _ _ _ _) (State.tame_putDebug _ _ _ _)))) (.after (State.tame_kstat _) (State.tame_put _ _ _ _)))
    (.update (.refl _))

theorem State.tame_unlockGo (s : State) : Tame s s.unlockGo := by
  unfold State.unlockGo
  exact .ite (fun _ => State.tame_unlockNow _) fun _ => .refl _

theorem answers_execDebugUnlock (s : State) : Answers s (execDebugUnlock s) := by
  unfold execDebugUnlock
  refine .awake ?_
  refine .next ?_
  split
  · exact State.tame_unlockGo _
  · exact .ite (fun _ => .after (.ite (fun _ => .after (State.tame_unlockGo _) (State.tame_unlockShutdown _)) fun _ =>
      State.tame_unlockNow _) (.update (.refl _))) fun _ => State.tame_unlockRefuse _ _ _

theorem answers_execFreezeNAssert (s : State) : Answers s (execFreezeNAssert s) := by
  unfold execFreezeNAssert
  exact .next (.after (.ite (fun _ => State.tame_freezeNow _) fun _ => State.tame_raise _ _) (.update (.refl _)))

theorem answers_execScanSel (d : Fin 112) (s : State) : Answers s (execScanSel d s) := by
  unfold execScanSel
  extract_lets +onlyGivenNames s1
  have hs1 : Tame s s1 := .after (State.tame_send _ _) (State.tame_jtagIr _ _)
  exact .next (.update hs1)

theorem answers_execScanData (s : State) : Answers s (execScanData s) := by
  unfold execScanData
  exact .next (.after (.ite (fun _ => .after (State.tame_send _ _) (State.tame_drawn _)) fun _ => State.tame_send _ _)
    (State.tame_jtagIr _ _))

theorem answers_execMemAddr (a : BitVec 40) (s : State) : Answers s (execMemAddr a s) := by
  unfold execMemAddr
  extract_lets +onlyGivenNames s1
  have hs1 : Tame s s1 := State.tame_jtagIr _ _
  exact .next (.update hs1)

theorem answers_execMemData (s : State) : Answers s (execMemData s) := by
  unfold execMemData
  extract_lets +onlyGivenNames a1 s2
  have hs2 : Tame s s2 := .after (State.tame_send _ _) (State.tame_jtagIr _ _)
  extract_lets +onlyGivenNames s3
  have hs3 : Tame s s3 := .ite (fun _ => .after (State.tame_undecoded _ _) hs2) fun _ => hs2
  exact .next (.update hs3)

theorem State.tame_keyStall (s : State) : Tame s s.keyStall := by
  unfold State.keyStall
  exact .after (.ite (fun _ => .after (State.tame_setFault _ _) (.after (State.tame_raise _ _) (State.tame_put _ _ _ _))) fun _ => .refl _)
    (.update (.refl _))

theorem State.tame_timeRuns (s : State) : Tame s s.timeRuns := by
  unfold State.timeRuns
  extract_lets +onlyGivenNames s1
  have hs1 : Tame s s1 := .ite (fun _ => State.tame_putAll _ _ _) fun _ => .refl _
  extract_lets +onlyGivenNames p2 s3
  have hs3 : Tame s s3 := .after (State.tame_put _ _ _ _) hs1
  extract_lets +onlyGivenNames s4 s5
  have hs5 : Tame s s5 := .update hs3
  extract_lets +onlyGivenNames s6
  have hs6 : Tame s s6 := by
    unfold s6
    split
    · exact .ite (fun _ => .after (State.tame_rejoinAbort _ _) hs5) fun _ => hs5
    · exact hs5
  exact .after (State.tame_fabricTurns _) (.after (State.tame_coalTick _) (.after (State.tame_unlockGo _) (.after (State.tame_progressRun _)
    (.after (State.tame_updNext _) (.after (State.tame_bootGo _) (.after (State.tame_keyStall _) hs6))))))

/-! ### Machine/MapCmd -/

theorem answers_execMapLookup (q : Fin 16) (d : MapDesc) (s : State) : Answers s (execMapLookup q d s) := by
  unfold execMapLookup
  exact .awake (.next (.after (State.tame_flow _) (tame_mapTake _ _ _ _)))

theorem answers_execMapEntryCommit (q : Fin 16) (d : MapDesc) (s : State) : Answers s (execMapEntryCommit q d s) := by
  unfold execMapEntryCommit
  exact .awake (.next (.after (State.tame_flow _) (tame_mapTake _ _ _ _)))

theorem answers_execMapPatchCommit (q : Fin 16) (d : MapDesc) (s : State) : Answers s (execMapPatchCommit q d s) := by
  unfold execMapPatchCommit
  exact .awake (.next (.after (State.tame_flow _) (tame_mapTake _ _ _ _)))

theorem answers_execMapZeroSpan (q : Fin 16) (d : MapDesc) (s : State) : Answers s (execMapZeroSpan q d s) := by
  unfold execMapZeroSpan
  exact .awake (.next (.after (State.tame_flow _) (tame_mapTake _ _ _ _)))

theorem answers_execMapConditionalCommit (q : Fin 16) (d : MapDesc) (s : State) : Answers s (execMapConditionalCommit q d s) := by
  unfold execMapConditionalCommit
  exact .awake (.next (.after (State.tame_flow _) (tame_mapTake _ _ _ _)))

theorem answers_execMapPageDrop (q : Fin 16) (d : MapDesc) (s : State) : Answers s (execMapPageDrop q d s) := by
  unfold execMapPageDrop
  exact .awake (.next (.after (State.tame_flow _) (tame_mapTake _ _ _ _)))

theorem answers_execMapPageWriteBack (q : Fin 16) (d : MapDesc) (s : State) : Answers s (execMapPageWriteBack q d s) := by
  unfold execMapPageWriteBack
  exact .awake (.next (.after (State.tame_flow _) (tame_mapTake _ _ _ _)))

theorem answers_execJournalBlockClose (shutdown : Bool) (s : State) : Answers s (execJournalBlockClose shutdown s) := by
  unfold execJournalBlockClose
  exact .awake (.next (.after (State.tame_flow _) (State.tame_closeJournal _)))

theorem answers_execCheckpointRound (durUs : Nat) (s : State) : Answers s (execCheckpointRound durUs s) := by
  unfold execCheckpointRound
  exact .awake (.next (.after (State.tame_flow _) (.after (tame_checkpointAll _) (State.tame_runTask _ _ _ _))))

theorem State.get_bit (s : State) (f : Fld) (i : Nat) (h : f.hi = f.lo) : s.get f i = ((s.reg f.reg i).getLsbD f.lo).toNat := by
  rw [State.get, bitsOf, h, Nat.add_sub_cancel_left, ← BitVec.testBit_toNat, Nat.testBit_eq_decide_div_mod_eq]
  have := Nat.mod_two_eq_zero_or_one ((s.reg f.reg i).toNat / 2 ^ f.lo)
  rcases this with h | h <;> simp [h]

/-- A one-bit field keeps its value where its bit of what is written is that of what was there. -/
theorem State.get_setReg_bit (s : State) (f : Fld) {r : RegName} {i : Nat} {v : BitVec 64} (hr : f.reg = r) (h : f.hi = f.lo)
    (hv : v.getLsbD f.lo = (s.reg r i).getLsbD f.lo) (j : Nat) : (s.setReg r i v).get f j = s.get f j := by
  subst hr
  rw [State.get_bit _ f j h, s.get_bit f j h]
  by_cases hj : j = i
  · rw [hj, s.reg_setReg_self, hv]
  · rw [s.reg_setReg_other v (.inr hj)]

/-- A status of a source may be written where its INSVC and PRES stay. -/
theorem State.tame_setStat (s : State) (i : Nat) (v : BitVec 64)
    (hi : v.getLsbD 10 = (s.reg .CIC_SRC_STAT i).getLsbD 10) (hp : v.getLsbD 21 = (s.reg .CIC_SRC_STAT i).getLsbD 21) :
    Tame s (s.setReg .CIC_SRC_STAT i v) :=
  .of_setReg (State.exclusive_of_get (s.get_setReg_bit F.CIC_SRC_STAT.INSVC rfl rfl hi) (s.get_setReg_bit F.CIC_SRC_STAT.PRES rfl rfl hp))
    fun hf => (s.get_setReg_other i 0 v (by decide)).trans hf

/-- The state of the debug port may be written where FROZEN stays. -/
theorem State.tame_setDebug (s : State) (i : Nat) (v : BitVec 64)
    (h : v.getLsbD 30 = (s.reg .PMC_DBG_STAT i).getLsbD 30) : Tame s (s.setReg .PMC_DBG_STAT i v) :=
  .of_setReg
    (State.exclusive_of_get (fun n => s.get_setReg_other i n v (by decide)) fun n => s.get_setReg_other i n v (by decide))
    fun hf => (s.get_setReg_bit F.PMC_DBG_STAT.FROZEN rfl rfl h 0).trans hf

/-! ### Machine/RegWrite -/

theorem State.tame_storeFields (s : State) (r : RegName) (i : Nat) (mask v : BitVec 64) : Tame s (s.storeFields r i mask v) := by
  by_cases hp : r.plain = true
  · exact s.tame_setReg r i _ hp
  · simp only [RegName.plain, Bool.and_eq_true, bne_iff_ne, not_and_or, not_not] at hp
    rcases hp with rfl | rfl
    · refine s.tame_setStat i _ ?_ ?_ <;> simp [regInfo, State.ignores, accWrite, spanMask]
    · exact s.tame_setDebug i _ (by simp [regInfo, State.ignores, accWrite])

theorem State.tame_coreCtl (s : State) (i : Nat) (mask : BitVec 64) (v : BitVec 64) : Tame s (s.coreCtl i mask v) := by
  unfold State.coreCtl
  exact .after (.ite (fun _ => tame_coreRun _ _ _) fun _ => .refl _) (.ite (fun _ => State.tame_put _ _ _ _) fun _ => .refl _)

theorem State.tame_wdtCtl (s : State) (i : Nat) (mask : BitVec 64) (v : BitVec 64) : Tame s (s.wdtCtl i mask v) := by
  unfold State.wdtCtl
  exact .after (.ite (fun _ => tame_wdtKick _ _) fun _ => .refl _) (State.tame_storeFields _ _ _ _ _)

theorem State.tame_ptrCtl (s : State) (n : Nat) (mask : BitVec 64) (v : BitVec 64) : Tame s (s.ptrCtl n mask v) := by
  unfold State.ptrCtl
  exact .after (.after (.ite (fun _ => Answers.by_ (fun _ => answers_execPorterStart _ _)) fun _ => .refl _)
    (.ite (fun _ => State.tame_put _ _ _ _) fun _ => .refl _)) (State.tame_storeFields _ _ _ _ _)

theorem State.tame_pkpCtl (s : State) (n : Nat) (mask : BitVec 64) (v : BitVec 64) : Tame s (s.pkpCtl n mask v) := by
  unfold State.pkpCtl
  exact .after (.after (.after (.after (.ite (fun _ => Answers.by_ (fun _ => answers_execPkpRetrain _ _)) fun _ => .refl _)
    (.ite (fun _ => State.tame_packRelease _ _) fun _ => .refl _)) (.ite (fun _ => State.tame_train _ _) fun _ => .refl _))
    (.ite (fun _ => .after (State.tame_linkChg _ _) (State.tame_put _ _ _ _)) fun _ => .refl _)) (State.tame_storeFields _ _ _ _ _)

theorem State.tame_cmpEngCtl (s : State) (n : Nat) (mask : BitVec 64) (v : BitVec 64) : Tame s (s.cmpEngCtl n mask v) := by
  unfold State.cmpEngCtl
  exact .ite (fun _ => .refl _) fun _ => .ite (fun _ => Answers.by_ (fun _ => answers_execCompressionEngineEnable _ _)) fun _ => Answers.by_
    (fun _ => answers_execCompressionEngineDisable _ _)

theorem State.tame_cphCoreCtl (s : State) (n : Nat) (mask : BitVec 64) (v : BitVec 64) : Tame s (s.cphCoreCtl n mask v) := by
  unfold State.cphCoreCtl
  exact .ite (fun _ => .refl _) fun _ => .ite (fun _ => .after (Answers.by_ (fun _ => answers_execCipherCoreEnable _ _ _))
    (State.tame_drawn _)) fun _ => Answers.by_ (fun _ => answers_execCipherCoreDisable _ _)

theorem State.tame_cvyCtl (s : State) (mask : BitVec 64) (v : BitVec 64) : Tame s (s.cvyCtl mask v) := by
  unfold State.cvyCtl
  exact .after (.ite (fun _ => State.tame_cvyResume _) fun _ => Answers.by_ (fun _ => answers_execConvoyEngineDisable _))
    (State.tame_storeFields _ _ _ _ _)

theorem State.tame_twnCtl (s : State) (mask : BitVec 64) (v : BitVec 64) : Tame s (s.twnCtl mask v) := by
  unfold State.twnCtl
  exact .after (.ite (fun _ => Answers.by_ (fun _ => answers_execStageLengthWrite _ _)) fun _ => .refl _) (State.tame_storeFields _ _ _ _ _)

theorem State.tame_hbcCtl (s : State) (mask : BitVec 64) (v : BitVec 64) : Tame s (s.hbcCtl mask v) := by
  unfold State.hbcCtl
  exact .after (.ite (fun _ => State.tame_put _ _ _ _) fun _ => .refl _) (State.tame_storeFields _ _ _ _ _)

theorem State.tame_hbcTestCtl (s : State) (mask v : BitVec 64) : Tame s (s.hbcTestCtl mask v) := by
  unfold State.hbcTestCtl
  extract_lets s1 sym
  have h1 : Tame s s1 := s.tame_storeFields _ _ _ _
  refine .ite (fun _ => h1) fun _ => .after ?_ h1
  split
  · exact tame_testOp _ _ _ fun _ => tame_testStore _ _
  · exact tame_testOp _ _ _ fun _ => tame_testLoad _
  · exact tame_testOp _ _ _ fun _ => tame_testStoreSym _ _
  · exact tame_testOp _ _ _ fun _ => tame_testLoadSym _ _
  · exact tame_testOp _ _ _ fun s => .refl s

theorem State.tame_snfCtl (s : State) (mask : BitVec 64) (v : BitVec 64) : Tame s (s.snfCtl mask v) := by
  unfold State.snfCtl
  exact .after (.ite (fun _ => State.tame_norKick _) fun _ => Answers.by_ (fun _ => answers_execNorEngineDisable _))
    (State.tame_storeFields _ _ _ _ _)

theorem State.tame_snfPcmd (s : State) (who : Initiator) (v : BitVec 64) : Tame s (s.snfPcmd who v) := by
  unfold State.snfPcmd
  extract_lets +onlyGivenNames r1
  split
  · exact Answers.by_ (fun _ => answers_execOpenRegion _ _ _)
  · exact Answers.by_ (fun _ => answers_execCloseRegion _ _ _)
  · exact Answers.by_ (fun _ => answers_execSetPassword _ _ _)
  · exact .refl _

theorem State.tame_tlyCtl (s : State) (mask : BitVec 64) (v : BitVec 64) : Tame s (s.tlyCtl mask v) := by
  unfold State.tlyCtl
  exact .after (.after (.ite (fun _ => Answers.by_ (fun _ => answers_execPeDone _)) fun _ => .refl _)
    (.ite (fun _ => State.tame_tallyThaw _) fun _ => .refl _)) (State.tame_storeFields _ _ _ _ _)

theorem State.tame_gateRun (s : State) (a1 : GateWait) : Tame s (s.gateRun a1) := by
  unfold State.gateRun
  split
  · exact tame_mapTake _ _ _ _
  · exact tame_cvyJob _ _ _ _ _
  · exact Answers.by_ (fun _ => answers_execPorterStart _ _)
  · exact Answers.by_ (fun _ => answers_execCodewordDecode _ _ _ _ _ _ _ _)
  · exact Answers.by_ (fun _ => answers_execLdpcEncode _ _ _ _)

theorem State.tame_gatesOpen (s : State) : Tame s s.gatesOpen := by
  unfold State.gatesOpen
  exact .after (.after (.after (State.tame_startWaiting _) (State.tame_cmpResume _)) (.ite (fun _ => .refl _) fun _ => .foldl
    (fun _ _ => .ite (fun _ => State.tame_takeSet _ _) fun _ => .refl _) _ _)) (.after (.foldl (fun _ _ => State.tame_gateRun _ _) _ _)
    (.update (.refl _)))

theorem State.tame_domOff (s : State) (k : Nat) (mask : BitVec 64) (v : BitVec 64) : Tame s (s.domOff k mask v) := by
  unfold State.domOff
  exact .after (.after (State.tame_gatesOpen _) (State.tame_setReg _ _ _ _)) (State.tame_storeFields _ _ _ _ _)

theorem State.tame_mbxCsr (s : State) (firmware : Bool) (c : Nat) (mask : BitVec 64) (v : BitVec 64) : Tame s
    (s.mbxCsr firmware c mask v) := by
  unfold State.mbxCsr
  exact .after (.after (.ite (fun _ => State.tame_mailGo _ _) fun _ => .refl _)
    (.ite (fun _ => Answers.by_ (fun _ => answers_execMailboxDone _ _)) fun _ => .refl _)) (State.tame_storeFields _ _ _ _ _)

theorem State.tame_ccWrite (s : State) (f : Nat) (mask : BitVec 64) (v : BitVec 64) : Tame s (s.ccWrite f mask v) := by
  unfold State.ccWrite
  exact .ite (fun _ => Answers.by_ (fun _ => answers_execControllerEnable _ _ _)) fun _ => .ite
    (fun _ => Answers.by_ (fun _ => answers_execControllerReset _ _ _)) fun _ => .after
    (.ite (fun _ => Answers.by_ (fun _ => answers_execShutdownNotification _ _ _)) fun _ => .refl _) (State.tame_writeCc _ _ _ _)

theorem State.tame_regWrite (s : State) (who : Initiator) (r : RegName) (i : Nat) (mask : BitVec 64) (v : BitVec 64) : Tame s
    (s.regWrite who r i mask v) := by
  unfold State.regWrite
  split
  · exact .after (State.tame_settle _) (State.tame_storeFields _ _ _ _ _)
  · exact .after (State.tame_settle _) (State.tame_storeFields _ _ _ _ _)
  · exact .after (State.tame_settle _) (State.tame_storeFields _ _ _ _ _)
  · exact State.tame_raise _ _
  · exact tame_cicEoi _ _ _
  · exact State.tame_coreCtl _ _ _ _
  · exact State.tame_wdtCtl _ _ _ _
  · exact State.tame_ptrCtl _ _ _ _
  · exact .after (State.tame_put _ _ _ _) (State.tame_storeFields _ _ _ _ _)
  · exact .after (State.tame_put _ _ _ _) (State.tame_storeFields _ _ _ _ _)
  · exact .after (State.tame_put _ _ _ _) (State.tame_storeFields _ _ _ _ _)
  · exact .after (State.tame_put _ _ _ _) (State.tame_storeFields _ _ _ _ _)
  · exact .after (State.tame_put _ _ _ _) (State.tame_storeFields _ _ _ _ _)
  · exact .after (State.tame_cmpResume _) (State.tame_storeFields _ _ _ _ _)
  · exact .after (State.tame_startWaiting _) (State.tame_storeFields _ _ _ _ _)
  · exact State.tame_cmpEngCtl _ _ _ _
  · exact State.tame_cphCoreCtl _ _ _ _
  · exact State.tame_cvyCtl _ _ _
  · exact State.tame_pkpCtl _ _ _ _
  · exact State.tame_twnCtl _ _ _
  · exact Answers.by_ (fun _ => answers_execInputRingHeadWrite _ _ _)
  · split
    · exact Answers.by_ (fun _ => answers_execDigestInWrite _ _ _)
    · exact .refl _
  · exact State.tame_hbcCtl _ _ _
  · exact .ite (fun _ => tame_hbmFillStart _) fun _ => .refl _
  · exact State.tame_hbcTestCtl _ _ _
  · exact State.tame_snfCtl _ _ _
  · exact .after (State.tame_norKick _) (State.tame_storeFields _ _ _ _ _)
  · exact State.tame_setReg _ _ _ _
  · exact State.tame_snfPcmd _ _ _
  · exact Answers.by_ (fun _ => answers_execClrlock _ _ _)
  · exact State.tame_domOff _ _ _ _
  · exact State.tame_tlyCtl _ _ _
  · exact Answers.by_ (fun _ => answers_execTallyWindowSelect _ _)
  · exact State.tame_ccWrite _ _ _ _
  · exact .ite (fun _ => Answers.by_ (fun _ => answers_execNvmSubsystemReset _ _)) fun _ => .refl _
  · exact .ite (fun _ => State.tame_headDoorbell _ _ _ _) fun _ => State.tame_tailDoorbell _ _ _ _
  · exact State.tame_storeFields _ _ _ _ _

/-- What a register space does to a state is tame. -/
structure RegSpace.Tames (x : RegSpace) : Prop where
  write : ∀ r i mask v s, Tame s (x.write r i mask v s)
  other : ∀ off v s, Tame s (x.other off v s)

theorem RegSpace.Tames.word {x : RegSpace} (h : x.Tames) (a : Nat) (v : BitVec 32) (s : State) : Tame s (x.word a v s) := by
  unfold RegSpace.word
  split
  · exact h.write _ _ _ _ _
  · exact h.other _ _ _

theorem RegSpace.Tames.access {x : RegSpace} (h : x.Tames) (blk a size : Nat) (v : BitVec 64) (s : State) :
    Tame s (x.access blk a size v s) := by
  have hwords (v w : BitVec 32) : Tame s (x.word (a + 4) v (x.word a w s)) := .after (h.word _ _ _) (h.word _ _ _)
  refine .ite (fun _ => h.word _ _ _) fun _ => .ite (fun _ => ?_) fun _ => .ite (fun _ => State.tame_accessBad _ _) fun _ => .refl s
  split
  · exact .ite (fun _ => h.write _ _ _ _ _) fun _ => hwords _ _
  · exact hwords _ _

theorem State.tame_reqWrite (s : State) (c : Nat) (off : Nat) (b : Bytes) : Tame s (s.reqWrite c off b) := by
  unfold State.reqWrite
  exact .ite (fun _ => State.tame_put _ _ _ _) fun _ => .update (.refl _)

theorem State.tame_rspWrite (s : State) (c : Nat) (off : Nat) (b : Bytes) : Tame s (s.rspWrite c off b) := by
  unfold State.rspWrite
  exact .update (.refl _)

theorem tames_internalSpace (who : Initiator) : (internalSpace who).Tames where
  write _ _ _ _ _ := .ite (fun _ => State.tame_mbxCsr _ _ _ _ _) fun _ => State.tame_regWrite _ _ _ _ _ _
  other _ _ s := .refl s

theorem State.tame_writeInternal (s : State) (who : Initiator) (a size : Nat) (v : BitVec 64) : Tame s (s.writeInternal who a size v) := by
  refine .ite (fun _ => State.tame_undecoded _ _) fun _ => .ite (fun _ => State.tame_wrBytes _ _ _) fun _ =>
    .ite (fun _ => ?_) fun _ => .ite (fun _ => ?_) fun _ => ?_
  · split
    · exact State.tame_reqWrite _ _ _ _
    · exact .refl s
  · split
    · exact State.tame_rspWrite _ _ _ _
    · exact .refl s
  · split
    · exact s.tame_send _
    · split
      · exact (tames_internalSpace _).access _ _ _ _ _
      · exact .refl s

theorem State.tame_msixWrite (s : State) (f : Nat) (k : Nat) (v : BitVec 32) : Tame s (s.msixWrite f k v) := by
  unfold State.msixWrite
  exact .after (.ite (fun _ => .after (State.tame_sendMsix _ _ _) (.update (.refl _))) fun _ => .refl _) (.update (.refl _))

theorem State.tames_bar2Space (t : State) (f : Nat) : (t.bar2Space f).Tames where
  write _ _ _ _ _ := .ite (fun _ => State.tame_mbxCsr _ _ _ _ _) fun _ => State.tame_storeFields _ _ _ _ _
  other _ _ s := .refl s

theorem State.tame_writeBar2 (s : State) (f off size : Nat) (v : BitVec 64) : Tame s (s.writeBar2 f off size v) := by
  unfold State.writeBar2
  split
  · exact .ite (fun _ => State.tame_reqWrite _ _ _ _) fun _ => .refl s
  · exact (s.tames_bar2Space f).access _ _ _ _ _

theorem tames_bar0Space (f : Nat) (pf : Bool) : (bar0Space f pf).Tames where
  write r i mask v s := s.tame_regWrite (.host (Fin.ofNat 66 f)) r i mask v
  other _ _ s := .ite (fun _ => .ite (fun _ => State.tame_tailDoorbell _ _ _ _) fun _ => State.tame_headDoorbell _ _ _ _)
    fun _ => .ite (fun _ => State.tame_msixWrite _ _ _ _) fun _ => .refl s

theorem tames_bar4Space (f : Nat) : (bar4Space f).Tames where
  write _ _ _ _ s := .refl s
  other _ _ s := .ite (fun _ => State.tame_msixWrite _ _ _ _) fun _ => .refl s

theorem answers_execRegisterWrite (who : Initiator) (tgt : RegTarget) (size : Nat) (val : BitVec 64) (s : State) :
    Answers s (execRegisterWrite who tgt size val s) := by
  refine .awake (.next ?_)
  split
  · exact State.tame_writeInternal _ _ _ _ _
  · exact .ite (fun _ => (tames_bar0Space _ _).access _ _ _ _ _) fun _ => .refl s
  · exact .ite (fun _ => State.tame_writeBar2 _ _ _ _ _) fun _ => .refl s
  · exact .ite (fun _ => (tames_bar4Space _).access _ _ _ _ _) fun _ => .refl s

/-! ### Machine/RegRead -/

theorem State.tame_regRead (s : State) (r : RegName) (i : Nat) (mask : BitVec 64) : Tame s (s.regRead r i mask).1 := by
  unfold State.regRead
  split
  · split
    · exact .refl s
    · exact .after (State.tame_settle _) (State.tame_claimSource _ _ _)
  · exact State.tame_pmcRead _ _ _
  · by_cases hp : r.plain = true
    · exact s.tame_setReg r i _ hp
    · simp only [RegName.plain, Bool.and_eq_true, bne_iff_ne, not_and_or, not_not] at hp
      rcases hp with rfl | rfl
      · refine s.tame_setStat i _ ?_ ?_ <;> simp [rcMask, regInfo]
      · exact s.tame_setDebug i _ (by simp [rcMask, regInfo])

theorem State.tame_readWord (s : State) (a : Nat) : Tame s (s.readWord a).1 := by
  unfold State.readWord
  split
  · exact s.tame_regRead _ _ _
  · exact .refl s

theorem State.tame_readAccess (s : State) (who : Initiator) (a : Nat) (size : Nat) : Tame s (s.readAccess who a size).1 := by
  unfold State.readAccess
  split
  · exact State.tame_readWord _ _
  · split
    · split
      · split
        · exact State.tame_regRead _ _ _ _
        · exact .after (State.tame_readWord _ _) (State.tame_readWord _ _)
      · exact .after (State.tame_readWord _ _) (State.tame_readWord _ _)
    · split
      · exact State.tame_accessBad _ _
      · exact .refl _

theorem State.tame_readBlock (s : State) (who : Initiator) (a : Nat) (size : Nat) : Tame s (s.readBlock who a size).1 := by
  unfold State.readBlock
  split
  · split
    · exact .refl _
    · exact .refl _
    · exact State.tame_readAccess _ _ _ _
  · split
    · exact State.tame_readAccess _ _ _ _
    · exact .refl _

theorem State.tame_moveWord (s : State) (n : Nat) (input : Bytes) : Tame s (s.moveWord n input) := by
  unfold State.moveWord
  extract_lets k who x r d s1 s2 s3
  have h1 : Tame s s1 := by
    unfold s1 r
    split
    · exact s.tame_readBlock _ _ _
    · split
      · exact .refl s
      · exact s.tame_burstErrs _ _
  have h2 : Tame s1 s2 := .ite (fun _ => .refl _) fun _ => .ite (fun _ => State.tame_emitAll _ _) fun _ =>
    .ite (fun _ => State.tame_writeInternal _ _ _ _ _) fun _ => .after (State.tame_burstErrs _ _ _) (State.tame_scatterFrom _ _ _ _)
  have h3 : Tame s2 s3 := .ite (fun _ => State.tame_setReg _ _ _ _) fun _ => .refl _
  exact .after (State.tame_ptrStep _ _ _) (h1.trans (h2.trans h3))

theorem State.tame_crcWord (s : State) (n : Nat) (moved : Nat) : Tame s (s.crcWord n moved).1 := by
  unfold State.crcWord
  extract_lets +onlyGivenNames who1
  split
  · exact .refl _
  · split
    · exact State.tame_writeInternal _ _ _ _ _
    · split
      · exact State.tame_readBlock _ _ _ _
      · exact .refl _

theorem State.tame_ptrFirst (s : State) (n : Nat) (k : Nat) (tail : Nat) (fe : Option (Nat × Nat)) : Tame s (s.ptrFirst n k tail fe).1 := by
  unfold State.ptrFirst
  extract_lets +onlyGivenNames hr1 s2
  have hs2 : Tame s s2 := by
    unfold s2
    split
    · exact .after (State.tame_flow _) (.after (State.tame_pageLost _ _) (State.tame_readSource _ _ _))
    · exact State.tame_readSource _ _ _
  exact hs2

theorem answers_execPorterPauseDrained (n : Fin 64) (moved : Nat) (e : PtrEnv) (s : State) : Answers s
    (execPorterPauseDrained n moved e s) := by
  unfold execPorterPauseDrained
  refine .awake ?_
  refine .next ?_
  split
  · split
    · extract_lets +onlyGivenNames k1 fe2 r3
      refine .after (State.tame_put _ _ _ _) ?_
      split
      · exact .after (State.tame_ptrFailAt _ _ _ _ _) (State.tame_ptrFirst _ _ _ _ _)
      · exact .after (State.tame_moveBytes _ _ _ _) (State.tame_ptrFirst _ _ _ _ _)
    · exact State.tame_put _ _ _ _
  · exact .refl _

theorem State.tame_ptrRun (s : State) (n : Nat) (e : PtrEnv) : Tame s (s.ptrRun n e) := by
  unfold State.ptrRun
  extract_lets k tail fe r s1 late x
  have h1 : Tame s s1 := s.tame_ptrFirst _ _ _ _
  have hmove : Tame s1 (if s1.wordMove n then s1.moveWord n e.input else s1.moveBytes n k e.input) :=
    .ite (fun _ => State.tame_moveWord _ _ _) fun _ => State.tame_moveBytes _ _ _ _
  have hx : Tame s1 x.1 := .after (State.tame_crcWord _ _ _) hmove
  split
  · exact .after (State.tame_ptrFailAt _ _ _ _ _) h1
  · exact .after (State.tame_ptrFinish _ _ _ _ _ _) (h1.trans hx)

theorem answers_execPorterSetEnd (n : Fin 64) (e : PtrEnv) (s : State) : Answers s (execPorterSetEnd n e s) := by
  unfold execPorterSetEnd
  exact .awake (.next (.ite (fun _ => State.tame_ptrRun _ _ _) fun _ => .refl _))

end Sys2Proof.Machine
end

section

-- One proof at a time: as many threads as there are lemmas here do not fit beside the model.
set_option Elab.async false

namespace Sys2Proof.Machine

/-! ### Every command but the tick and power-on -/

/-- Every command answers, and but for the tick and power-on its next state is tame. -/
theorem answers_exec (c : Instr) (s : State) (hp : ∀ e, c ≠ .powerOnReset e) (ht : c ≠ .dtimeMillisecondTick) :
    Answers s (exec c s) := by
  cases c with
  | powerOnReset e => exact absurd rfl (hp e)
  | dtimeMillisecondTick => exact absurd rfl ht
  | registerWrite => exact answers_execRegisterWrite _ _ _ _ _
  | eventLineDelivery => exact answers_execEventLineDelivery _ _
  | sqTailDoorbell => exact answers_execSqTailDoorbell _ _ _ _
  | cqHeadDoorbell => exact answers_execCqHeadDoorbell _ _ _ _
  | controllerEnable => exact answers_execControllerEnable _ _ _
  | controllerReset => exact answers_execControllerReset _ _ _
  | functionLevelReset => exact answers_execFunctionLevelReset _ _
  | nvmSubsystemReset => exact answers_execNvmSubsystemReset _ _
  | shutdownNotification => exact answers_execShutdownNotification _ _ _
  | commandFetch => exact answers_execCommandFetch _ _ _ _ _ _
  | createIoSubmissionQueue => exact answers_execCreateIoSubmissionQueue _ _ _ _ _ _ _ _
  | deleteIoSubmissionQueue => exact answers_execDeleteIoSubmissionQueue _ _ _
  | createIoCompletionQueue => exact answers_execCreateIoCompletionQueue _ _ _ _ _ _ _ _ _
  | deleteIoCompletionQueue => exact answers_execDeleteIoCompletionQueue _ _ _
  | getLogPage => exact answers_execGetLogPage _ _ _ _ _ _
  | identify => exact answers_execIdentify _ _ _ _
  | abort t q i => exact answers_execAbort t q i s
  | setFeatures => exact answers_execSetFeatures _ _ _ _ _
  | getFeatures => exact answers_execGetFeatures _ _ _ _
  | asynchronousEventRequest => exact answers_execAsynchronousEventRequest _ _
  | namespaceCreate => exact answers_execNamespaceCreate _ _ _
  | namespaceDelete => exact answers_execNamespaceDelete _ _ _
  | namespaceAttach => exact answers_execNamespaceAttach _ _ _ _
  | namespaceDetach => exact answers_execNamespaceDetach _ _ _ _
  | firmwareImageDownload => exact answers_execFirmwareImageDownload _ _ _ _
  | firmwareCommitReplace => exact answers_execFirmwareCommitReplace _ _ _
  | firmwareCommitReplaceActivate => exact answers_execFirmwareCommitReplaceActivate _ _ _
  | firmwareCommitActivate => exact answers_execFirmwareCommitActivate _ _ _
  | firmwareCommitActivateNoReset => exact answers_execFirmwareCommitActivateNoReset _ _ _
  | activationDrained => exact answers_execActivationDrained _ _
  | deviceSelfTestShort => exact answers_execDeviceSelfTestShort _ _ _ _
  | deviceSelfTestExtended => exact answers_execDeviceSelfTestExtended _ _ _ _
  | nvmeMiSend => exact answers_execNvmeMiSend _ _ _ _
  | nvmeMiReceive => exact answers_execNvmeMiReceive _ _ _
  | formatNvm => exact answers_execFormatNvm _ _ _ _ _ _
  | sanitizeBlockErase => exact answers_execSanitizeBlockErase _ _
  | sanitizeCryptoErase => exact answers_execSanitizeCryptoErase _ _
  | rawBaleRead => exact answers_execRawBaleRead _ _ _ _ _ _ _ _
  | flush => exact answers_execFlush _ _ _
  | write => exact answers_execWrite _ _ _ _ _ _
  | read => exact answers_execRead _ _ _ _ _ _
  | writeZeroes => exact answers_execWriteZeroes _ _ _ _ _
  | datasetManagement => exact answers_execDatasetManagement _ _ _ _ _
  | verify => exact answers_execVerify _ _ _ _ _ _
  | pcieCompletionTimeout => exact answers_execPcieCompletionTimeout _ _
  | poisonedCompletion => exact answers_execPoisonedCompletion _ _
  | pcieLinkDown => exact answers_execPcieLinkDown _ _
  | pcieLinkUp => exact answers_execPcieLinkUp _ _
  | numvfsChange => exact answers_execNumvfsChange _ _ _ _
  | capsuleReceive => exact answers_execCapsuleReceive _ _ _ _ _ _ _
  | connect => exact answers_execConnect _ _ _
  | disconnect => exact answers_execDisconnect _ _
  | keepAliveExpiry => exact answers_execKeepAliveExpiry _ _
  | rdmaReadComplete => exact answers_execRdmaReadComplete _ _
  | rdmaReadFailed => exact answers_execRdmaReadFailed _ _
  | queuePairError => exact answers_execQueuePairError _ _
  | ethernetLinkDown => exact answers_execEthernetLinkDown _ _
  | ethernetLinkUp => exact answers_execEthernetLinkUp _ _
  | cePacketReceived => exact answers_execCePacketReceived _ _
  | notificationReceived => exact answers_execNotificationReceived _ _
  | alphaPeriodExpiry => exact answers_execAlphaPeriodExpiry _ _
  | recoveryPeriodExpiry => exact answers_execRecoveryPeriodExpiry _ _
  | discoveryCommand => exact answers_execDiscoveryCommand _ _
  | mapLookup => exact answers_execMapLookup _ _ _
  | mapEntryCommit => exact answers_execMapEntryCommit _ _ _
  | mapPatchCommit => exact answers_execMapPatchCommit _ _ _
  | mapZeroSpan => exact answers_execMapZeroSpan _ _ _
  | mapConditionalCommit => exact answers_execMapConditionalCommit _ _ _
  | mapPageDrop => exact answers_execMapPageDrop _ _ _
  | mapPageWriteBack => exact answers_execMapPageWriteBack _ _ _
  | mapPageMissFilled => exact answers_execMapPageMissFilled _ _ _
  | journalBlockClose b => exact answers_execJournalBlockClose b s
  | checkpointRound => exact answers_execCheckpointRound _ _
  | codeBale => exact answers_execCodeBale _ _ _ _ _
  | decodeQuarter => exact answers_execDecodeQuarter _ _ _ _
  | roundOnly => exact answers_execRoundOnly _ _ _ _
  | codePatch => exact answers_execCodePatch _ _ _ _ _
  | decodePatch => exact answers_execDecodePatch _ _ _ _
  | compressionEngineDisable => exact answers_execCompressionEngineDisable _ _
  | compressionEngineEnable => exact answers_execCompressionEngineEnable _ _
  | packLinkUp => exact answers_execPackLinkUp _ _ _
  | flitAck => exact answers_execFlitAck _ _ _
  | flitNak => exact answers_execFlitNak _ _ _
  | credit => exact answers_execCredit _ _ _
  | ackTimeout => exact answers_execAckTimeout _ _ _
  | packResponse => exact answers_execPackResponse _ _ _ _
  | packAsync => exact answers_execPackAsync _ _ _ _ _
  | packResponseTimeout => exact answers_execPackResponseTimeout _ _
  | packSignalLoss => exact answers_execPackSignalLoss _ _
  | pkpRetrain => exact answers_execPkpRetrain _ _
  | bridgeHoldDrained => exact answers_execBridgeHoldDrained _ _
  | openConvoyAgeExpiry => exact answers_execOpenConvoyAgeExpiry _ _
  | convoyBlockForm => exact answers_execConvoyBlockForm _ _
  | reclaimRound => exact answers_execReclaimRound _ _
  | rebuildBlockStart => exact answers_execRebuildBlockStart _
  | refreshBlockStart => exact answers_execRefreshBlockStart _
  | accumulatePage => exact answers_execAccumulatePage _ _ _ _
  | emitPAndQ => exact answers_execEmitPAndQ _ _ _
  | reconstruct => exact answers_execReconstruct _ _ _
  | clearAccumulator => exact answers_execClearAccumulator _ _ _
  | convoyEngineDisable => exact answers_execConvoyEngineDisable _
  | codewordDecode => exact answers_execCodewordDecode _ _ _ _ _ _ _ _
  | scrubRound => exact answers_execScrubRound _ _
  | powerFailAssert => exact answers_execPowerFailAssert _ _
  | dumpEnd => exact answers_execDumpEnd _
  | powerReset => exact answers_execPowerReset _ _ _
  | stageClose => exact answers_execStageClose _
  | trailHeartbeat => exact answers_execTrailHeartbeat _
  | record => exact answers_execRecord _ _ _ _
  | recordApply => exact answers_execRecordApply _
  | stageAck => exact answers_execStageAck _ _
  | peerReport => exact answers_execPeerReport _ _
  | fetchReq => exact answers_execFetchReq _ _
  | fetchData => exact answers_execFetchData _ _ _
  | peerFetchTimeout => exact answers_execPeerFetchTimeout _ _
  | keyRotate => exact answers_execKeyRotate _
  | twinLinkDown => exact answers_execTwinLinkDown _ _
  | twinLinkRetrain => exact answers_execTwinLinkRetrain _ _
  | twinFlitAck => exact answers_execTwinFlitAck _ _
  | claimRead => exact answers_execClaimRead _ _ _
  | claimTimeout => exact answers_execClaimTimeout _ _ _
  | inputRingHeadWrite => exact answers_execInputRingHeadWrite _ _ _
  | digestInWrite => exact answers_execDigestInWrite _ _ _
  | stageLengthWrite => exact answers_execStageLengthWrite _ _
  | stageDigestFinal => exact answers_execStageDigestFinal _ _
  | lagLimitExceeded => exact answers_execLagLimitExceeded _ _
  | trailDoorbellUnmatched => exact answers_execTrailDoorbellUnmatched _ _ _ _
  | statusSend => exact answers_execStatusSend _
  | query m t c => exact answers_execQuery m t c s
  | queryFreezeTimeout => exact answers_execQueryFreezeTimeout _
  | verdict m l c t => exact answers_execVerdict m l c t s
  | arbHello => exact answers_execArbHello _ _ _
  | arbiterLost => exact answers_execArbiterLost _
  | leadContinueAlone => exact answers_execLeadContinueAlone _
  | fenceNAssert => exact answers_execFenceNAssert _
  | fenceNRelease => exact answers_execFenceNRelease _
  | pairHello => exact answers_execPairHello _ _
  | pairResult => exact answers_execPairResult _ _ _ _ _
  | rsyncData => exact answers_execRsyncData _ _ _
  | rsyncPassEnd => exact answers_execRsyncPassEnd _ _
  | rsyncCut => exact answers_execRsyncCut _ _ _
  | rsyncLive => exact answers_execRsyncLive _ _
  | rsyncAbort => exact answers_execRsyncAbort _ _
  | secXfer => exact answers_execSecXfer _ _ _ _ _ _
  | xtsEncrypt => exact answers_execXtsEncrypt _ _ _ _
  | xtsDecrypt => exact answers_execXtsDecrypt _ _ _ _
  | gcmEncrypt => exact answers_execGcmEncrypt _ _ _ _
  | gcmDecrypt => exact answers_execGcmDecrypt _ _ _ _
  | cipherCoreDisable => exact answers_execCipherCoreDisable _ _
  | cipherCoreEnable => exact answers_execCipherCoreEnable _ _ _
  | keySlotDrained => exact answers_execKeySlotDrained _ _
  | sanitizeNAssert => exact answers_execSanitizeNAssert _ _
  | createKey => exact answers_execCreateKey _ _ _ _ _
  | rotateKey => exact answers_execRotateKey _ _ _ _
  | unloadKey => exact answers_execUnloadKey _ _ _ _
  | loadKey => exact answers_execLoadKey _ _ _ _
  | eraseKeySlot => exact answers_execEraseKeySlot _ _ _ _
  | rewriteKeySlot => exact answers_execRewriteKeySlot _ _ _ _
  | changeOwner => exact answers_execChangeOwner _ _ _ _ _
  | enterDtsComponent => exact answers_execEnterDtsComponent _ _ _ _ _
  | exportKeyStore => exact answers_execExportKeyStore _ _ _ _
  | importKeyStore => exact answers_execImportKeyStore _ _ _ _ _ _
  | zeroize => exact answers_execZeroize _ _ _ _
  | enrolAuthenticationKey => exact answers_execEnrolAuthenticationKey _ _ _ _ _ _ _
  | clearLockout => exact answers_execClearLockout _ _ _ _
  | stagingWrite => exact answers_execStagingWrite _ _ _ _ _
  | stagingAbort => exact answers_execStagingAbort _ _ _
  | commitStaging => exact answers_execCommitStaging _ _ _
  | activateWithReset => exact answers_execActivateWithReset _ _ _ _ _
  | activateWithoutReset => exact answers_execActivateWithoutReset _ _ _
  | readSlotStatus => exact answers_execReadSlotStatus _ _ _
  | updatePackBridges => exact answers_execUpdatePackBridges _ _ _ _
  | countersigningKeys => exact answers_execCountersigningKeys _ _ _ _ _ _
  | raiseSvnMin => exact answers_execRaiseSvnMin _ _ _
  | restartTestMode => exact answers_execRestartTestMode _ _ _
  | migrateSettings => exact answers_execMigrateSettings _ _ _
  | mailboxGo => exact answers_execMailboxGo _ _
  | mailboxDone => exact answers_execMailboxDone _ _
  | challenge => exact answers_execChallenge _ _ _ _
  | prove => exact answers_execProve _ _ _ _ _ _
  | logout => exact answers_execLogout _ _ _
  | tokenLapse => exact answers_execTokenLapse _ _
  | getSetting => exact answers_execGetSetting _ _ _ _ _
  | setSetting => exact answers_execSetSetting _ _ _ _ _ _
  | defaultSetting => exact answers_execDefaultSetting _ _ _ _ _
  | listSettings => exact answers_execListSettings _ _ _ _
  | catalogue => exact answers_execCatalogue _ _ _
  | stateRead => exact answers_execStateRead _ _ _ _ _ _
  | sgen => exact answers_execSgen _ _
  | mailboxIdentify => exact answers_execMailboxIdentify _ _
  | attest => exact answers_execAttest _ _ _
  | certChain => exact answers_execCertChain _ _ _
  | rejoin => exact answers_execRejoin _ _ _ _
  | arm => exact answers_execArm _ _ _
  | swap => exact answers_execSwap _ _ _
  | fence => exact answers_execFence _ _ _ _
  | release => exact answers_execRelease _ _ _ _
  | tallyStatus => exact answers_execTallyStatus _ _ _
  | tallyRead => exact answers_execTallyRead _ _ _ _ _
  | tallyFreeze => exact answers_execTallyFreeze _ _ _ _
  | tallyClear => exact answers_execTallyClear _ _ _
  | tallyClearComplete => exact answers_execTallyClearComplete _
  | counterRead => exact answers_execCounterRead _ _ _
  | counterConfig => exact answers_execCounterConfig _ _ _ _ _ _ _ _
  | accessErrors => exact answers_execAccessErrors _ _
  | moduleSelftest => exact answers_execModuleSelftest _ _ _ _
  | admitPack => exact answers_execAdmitPack _ _ _ _
  | remove => exact answers_execRemove _ _ _ _
  | packRemovable => exact answers_execPackRemovable _ _
  | idRead => exact answers_execIdRead _ _ _ _ _ _
  | idReplace => exact answers_execIdReplace _ _ _ _ _
  | endReadonly => exact answers_execEndReadonly _ _ _
  | retrain => exact answers_execRetrain _ _ _ _
  | removeCancel => exact answers_execRemoveCancel _ _ _ _
  | cicClaim => exact answers_execCicClaim _ _
  | cicEoi => exact answers_execCicEoi _ _ _
  | cicDbRing => exact answers_execCicDbRing _ _
  | coreRun => exact answers_execCoreRun _ _ _
  | watchdogKick => exact answers_execWatchdogKick _ _
  | watchdogExpiry => exact answers_execWatchdogExpiry _ _
  | porterStart => exact answers_execPorterStart _ _
  | shadowWrite => exact answers_execShadowWrite _ _ _ _
  | porterCommit => exact answers_execPorterCommit _ _
  | shadowTake => exact answers_execShadowTake _ _
  | triggerPulse => exact answers_execTriggerPulse _ _
  | porterSetEnd => exact answers_execPorterSetEnd _ _ _
  | porterPause => exact answers_execPorterPause _ _ _
  | porterPauseDrained => exact answers_execPorterPauseDrained _ _ _ _
  | porterErrClear => exact answers_execPorterErrClear _ _
  | porterDisable => exact answers_execPorterDisable _ _
  | hbmRead => exact answers_execHbmRead _ _ _ _
  | hbmFillStart => exact answers_execHbmFillStart _
  | hbmFillDone => exact answers_execHbmFillDone _ _
  | patrolScrub => exact answers_execPatrolScrub _ _ _
  | hbmTemperaturePoll => exact answers_execHbmTemperaturePoll _ _ _
  | testWriteWord => exact answers_execTestWriteWord _ _
  | testReadWord => exact answers_execTestReadWord _
  | testWriteSymbol => exact answers_execTestWriteSymbol _ _
  | testReadSymbol => exact answers_execTestReadSymbol _ _
  | norRead => exact answers_execNorRead _ _
  | norProgram => exact answers_execNorProgram _ _
  | norEraseSector => exact answers_execNorEraseSector _ _
  | norEraseSpan => exact answers_execNorEraseSpan _ _
  | norOperationEnd => exact answers_execNorOperationEnd _ _
  | norEngineDisable => exact answers_execNorEngineDisable _
  | openRegion => exact answers_execOpenRegion _ _ _
  | closeRegion a b => exact answers_execCloseRegion a b s
  | setPassword a b => exact answers_execSetPassword a b s
  | clrlock => exact answers_execClrlock _ _ _
  | housekeepingRound => exact answers_execHousekeepingRound _ _ _ _ _ _
  | oscillatorTrim => exact answers_execOscillatorTrim _ _
  | domainGateIdle => exact answers_execDomainGateIdle _ _
  | drowseEntry => exact answers_execDrowseEntry _
  | wake => exact answers_execWake _ _
  | dormantEntry => exact answers_execDormantEntry _
  | sleepGroupLight => exact answers_execSleepGroupLight _ _
  | sleepGroupDeep => exact answers_execSleepGroupDeep _ _
  | thermalTrip => exact answers_execThermalTrip _ _
  | thermtripTimeout => exact answers_execThermtripTimeout _
  | tallyIntervalEnd => exact answers_execTallyIntervalEnd _ _
  | peDone => exact answers_execPeDone _
  | peDoneTimeout => exact answers_execPeDoneTimeout _
  | tallyWindowSelect => exact answers_execTallyWindowSelect _ _
  | tallyWindowRead => exact answers_execTallyWindowRead _ _
  | tallyFreezeLapse => exact answers_execTallyFreezeLapse _
  | pmcCounterRead => exact answers_execPmcCounterRead _ _ _
  | extest => exact answers_execExtest _
  | sample => exact answers_execSample _
  | preload => exact answers_execPreload _
  | dbgStatus => exact answers_execDbgStatus _
  | dbgChal => exact answers_execDbgChal _
  | dbgToken => exact answers_execDbgToken _ _
  | debugUnlock => exact answers_execDebugUnlock _
  | scanSel => exact answers_execScanSel _ _
  | scanData => exact answers_execScanData _
  | memAddr => exact answers_execMemAddr _ _
  | memData => exact answers_execMemData _
  | bypass => exact answers_execBypass _
  | freezeNAssert => exact answers_execFreezeNAssert _
  | rdmaWriteFailed => exact answers_execRdmaWriteFailed _ _
  | conventionalReset => exact answers_execConventionalReset _ _
  | flitDiscard => exact answers_execFlitDiscard _ _
  | outOfBandMiCommand => exact answers_execOutOfBandMiCommand _ _
  | ldpcEncode a b c => exact answers_execLdpcEncode a b c s
  | entropyTestFailure => exact answers_execEntropyTestFailure _
  | counterOverflow => exact answers_execCounterOverflow _ _ _
  | authenticationBlockExpiry => exact answers_execAuthenticationBlockExpiry _ _

/-- R286, R614: every meaning but those of `actsAlways` asks first whether the controller runs. -/
theorem exec_of_not_runs {c : Instr} {s : State} (hc : actsAlways c = false) (hs : ¬ s.Runs) : exec c s = .next s := by
  cases c with
  | powerOnReset | powerReset | freezeNAssert | thermalTrip | thermtripTimeout | dtimeMillisecondTick | oscillatorTrim | extest | sample
  | preload | bypass | dbgStatus | dbgChal | dbgToken | scanSel | scanData | memAddr | memData => cases hc
  | _ => exact State.awake_of_not_runs _ hs

/-! ### The tick -/

/-- The state a millisecond later. -/
def State.later (s : State) : State := { s with dtime := s.dtime + 1000, elapsed := s.elapsed + 1000 }

/-- The tick moves time on; the rest of it is tame. -/
theorem exec_tick (s : State) : ∃ t, exec .dtimeMillisecondTick s = .next t ∧ Tame s.later t :=
  ⟨if s.later.inReset || s.later.on F.PMC_DBG_STAT.FROZEN then s.later else (s.later.hwPulse 2).timeRuns, rfl,
    .ite (fun _ => .refl _) fun _ => .after (State.tame_timeRuns _) (State.tame_hwPulse _ _)⟩

theorem State.later_facts (s : State) :
    s.later.regs = s.regs ∧ s.later.mem = s.mem ∧ s.later.snor = s.snor ∧ s.later.straps = s.straps ∧ s.later.out = s.out ∧
      s.later.pending = s.pending := by
  simp only [State.later, and_self]

theorem State.get_later (s : State) (f : Fld) (i : Nat) : s.later.get f i = s.get f i := State.get_of_regs s.later_facts.1 f i

/-! ### Power-on -/

/-- Where the statuses of sources hold their reset values no source is in service. -/
theorem State.exclusive_of_reset {s : State} (h : ∀ n, s.reg .CIC_SRC_STAT n = regReset .CIC_SRC_STAT n) : s.Exclusive := by
  intro n hn
  have h0 : s.get F.CIC_SRC_STAT.INSVC n = 0 := by
    rw [State.get, show F.CIC_SRC_STAT.INSVC.reg = .CIC_SRC_STAT from rfl, h]
    simp [regReset, bitsOf]
  omega

theorem tget_filter_none {β : Type} {p : Nat × β → Bool} {k : Nat} (h : ∀ v, p (k, v) = false) (t : Tbl β) :
    tget k (t.filter p) = none := by
  induction t with
  | nil => rfl
  | cons e t ih =>
    rw [List.filter_cons]
    split
    · rename_i he
      have hk : k ≠ e.1 := by rintro rfl; simp [h] at he
      simp [tget, hk, ih]
    · exact ih

/-- The state of R300 before its own part of the start has run: what it keeps of the state before. -/
theorem State.kept_facts (s : State) (e : BootEnv) :
    (s.kept e).pending = s.pending ∧ (s.kept e).out = s.out ∧
      (s.kept e).straps = { twinId := e.twinId, linkMode := e.linkMode, recovN := e.recovN, testEn := e.testEn } ∧
      (s.Ok → (s.kept e).Ok) ∧ (s.kept e).Exclusive := by
  refine ⟨rfl, rfl, rfl, fun h => ⟨rfl, h.2.1, regsOk_filter h.2.2⟩, State.exclusive_of_reset fun n => ?_⟩
  have hkey (v : BitVec 64) : (fun r : Nat × BitVec 64 => keyOf .MAP_CAP_USABLE r.1) (regKey .CIC_SRC_STAT n, v) = false := by
    have : regKey .CIC_SRC_STAT n % 256 = RegName.ctorIdx .CIC_SRC_STAT := by simpa [keyOf] using keyOf_regKey .CIC_SRC_STAT n
    simp only [keyOf, this]
    decide
  show tgetD _ _ (s.regs.filter _) = _
  rw [tgetD, tget_filter_none hkey]
  rfl

/-- A start begins with what it keeps. -/
theorem State.tame_cold (s : State) (e : BootEnv) : Tame (s.kept e) (s.cold e) :=
  .after (State.tame_norAtStart _ _ _) (.ite (fun _ => State.tame_asFirst _ _) fun _ => .refl _)

/-- The next state of a power-on reset is tame to what it keeps of a state that is tame to the one before. -/
theorem exec_powerOnReset (e : BootEnv) (s : State) :
    ∃ t, exec (.powerOnReset e) s = .next t ∧ Tame ((s.resetNow 0 0).kept e) t :=
  ⟨_, rfl, .after (State.tame_startSlot _ _ _) (.after (State.tame_startBegin _ _ _) (State.tame_cold _ _))⟩

/-! ### Every command -/

/-- What every command keeps, power-on and the tick among them. -/
structure Sound (s t : State) : Prop where
  pending : t.pending = s.pending
  out : s.out <+: t.out
  ok : s.Ok → t.Ok
  exclusive : s.Exclusive → t.Exclusive

theorem Tame.sound {s t : State} (h : Tame s t) : Sound s t := ⟨h.pending, h.out, h.ok, h.exclusive⟩

theorem Sound.trans {s t u : State} (h : Sound s t) (k : Sound t u) : Sound s u :=
  ⟨k.pending.trans h.pending, h.out.trans k.out, k.ok ∘ h.ok, k.exclusive ∘ h.exclusive⟩

theorem State.sound_kept (s : State) (e : BootEnv) : Sound s (s.kept e) := by
  obtain ⟨hpend, hout, _, hok, hex⟩ := s.kept_facts e
  exact ⟨hpend, hout ▸ List.prefix_rfl, hok, fun _ => hex⟩

theorem State.sound_later (s : State) : Sound s s.later := by
  obtain ⟨hregs, hmem, hsnor, _, hout, hpend⟩ := s.later_facts
  exact {
    pending := hpend
    out := by rw [hout]
    ok := fun h => by rwa [State.Ok, hmem, hsnor, hregs]
    exclusive := State.exclusive_of_get (fun _ => s.get_later _ _) fun _ => s.get_later _ _ }

theorem exec_sound (c : Instr) (s : State) : ∃ t, exec c s = .next t ∧ Sound s t := by
  by_cases hp : ∃ e, c = .powerOnReset e
  · obtain ⟨e, rfl⟩ := hp
    obtain ⟨t, ht, hk⟩ := exec_powerOnReset e s
    exact ⟨t, ht, (s.tame_resetNow 0 0).sound.trans ((State.sound_kept _ e).trans hk.sound)⟩
  · by_cases ht : c = .dtimeMillisecondTick
    · subst ht
      obtain ⟨t, ht, hk⟩ := exec_tick s
      exact ⟨t, ht, s.sound_later.trans hk.sound⟩
    · obtain ⟨t, ht, hk⟩ := answers_exec c s (fun e h => hp ⟨e, h⟩) ht
      exact ⟨t, ht, hk.sound⟩

theorem sound_of_exec {c : Instr} {s t : State} (h : exec c s = .next t) : Sound s t := by
  obtain ⟨u, hu, hs⟩ := exec_sound c s
  cases hu.symm.trans h
  exact hs

theorem tame_of_exec {c : Instr} {s t : State} (hp : ∀ e, c ≠ .powerOnReset e) (ht : c ≠ .dtimeMillisecondTick)
    (h : exec c s = .next t) : Tame s t :=
  (answers_exec c s hp ht).tame h

theorem step_nil {s : State} (h : s.pending = []) : step s = .next s := by simp [step, h]

theorem step_cons {s : State} {c : Instr} {l : List Instr} (h : s.pending = c :: l) :
    step s = exec c { s with pending := l } := by simp [step, h]

/-- What a step can do: nothing without a command, or the meaning of the front one. -/
theorem step_sound (s : State) : ∃ t, step s = .next t ∧ Sound { s with pending := s.pending.drop 1 } t := by
  cases hs : s.pending with
  | nil =>
    refine ⟨s, step_nil hs, ?_⟩
    exact ⟨hs, List.prefix_rfl, id, id⟩
  | cons c l =>
    obtain ⟨t, ht, hk⟩ := exec_sound c { s with pending := l }
    exact ⟨t, (step_cons hs).trans ht, hk⟩

theorem sound_of_step {s t : State} (h : step s = .next t) : Sound { s with pending := s.pending.drop 1 } t := by
  obtain ⟨u, hu, hs⟩ := step_sound s
  cases hu.symm.trans h
  exact hs

/-! ### A pulse of a source in service -/

/-- R507: a source in service is not presented anew. -/
theorem State.present_of_inService {s : State} {n : Nat} (h : s.get F.CIC_SRC_STAT.INSVC n = 1) : s.present n = s := by
  unfold State.present
  exact if_pos (beq_iff_eq.2 h)

theorem mirrorLine_of_le {n : Nat} (h : 3 ≤ n) : mirrorLine n = none := by
  unfold mirrorLine
  rw [if_neg (by omega), if_neg (by omega), if_neg (by omega)]

/-- R501: an event of a counting source in service only adds to its count. -/
theorem State.raise_of_inService {s : State} {n : Nat} (hr : reservedSrc n = false) (hn : 16 ≤ n)
    (hm : s.get F.CIC_SRC_CFG.MODE n = 0) (hi : s.get F.CIC_SRC_STAT.INSVC n = 1) (hc : s.get F.CIC_SRC_STAT.COUNT n < 255) :
    s.raise n = s.bump F.CIC_SRC_STAT.COUNT n := by
  have hmode : ¬ s.on F.CIC_SRC_CFG.MODE n = true := by simp [State.on, hm]
  have hins : (s.bump F.CIC_SRC_STAT.COUNT n).get F.CIC_SRC_STAT.INSVC n = 1 :=
    (s.get_put_field (f := F.CIC_SRC_STAT.COUNT) (g := F.CIC_SRC_STAT.INSVC) n _ rfl (by decide) (by decide) (by decide)
      (by decide)).trans hi
  unfold State.raise
  rw [hr, if_neg Bool.false_ne_true, mirrorLine_of_le (by omega)]
  dsimp only
  rw [if_neg (by omega), if_neg hmode, if_neg (by omega), State.present_of_inService hins]

end Sys2Proof.Machine

open Sys2Proof Sys2Proof.Machine

/-- Settles O1: both sides are the same call. -/
theorem stepRunsFront : Obligations.StepRunsFront := fun _ _ _ => rfl

/-- Settles O2. -/
theorem idleStep : Obligations.IdleStep := fun _ => step_nil

/-- Settles O3. -/
theorem resetState : Obligations.ResetState :=
  ⟨⟨State.wf_reset.1, State.wf_reset.2, rfl⟩, fun _ h => absurd h List.not_mem_nil, rfl, by decide +kernel, rfl, fun _ _ => rfl⟩

/-- Settles O4. -/
theorem stepKeepsForm : Obligations.StepKeepsForm := fun _ _ hok h => (sound_of_step h).ok hok

/-- Settles O5. -/
theorem stepTakesFront : Obligations.StepTakesFront := by
  intro s
  obtain ⟨t, ht, hs⟩ := step_sound s
  exact ⟨t, ht, hs.pending, fun hq c hc => hq c (List.mem_of_mem_drop (hs.pending ▸ hc))⟩

/-- Settles O6. -/
theorem everyCommandAnswers : Obligations.EveryCommandAnswers := fun c s =>
  (exec_sound c s).imp fun _ h => ⟨h.1, h.2.pending⟩

/-- Settles O7. -/
theorem stoppedController : Obligations.StoppedController := fun _ _ => exec_of_not_runs

/-- Settles O8. -/
theorem strapsSampledAtPowerOn : Obligations.StrapsSampledAtPowerOn := by
  refine ⟨fun c s t hp h => ?_, fun e s => ?_⟩
  · by_cases ht : c = .dtimeMillisecondTick
    · subst ht
      obtain ⟨u, hu, hk⟩ := exec_tick s
      cases hu.symm.trans h
      exact hk.straps.trans s.later_facts.2.2.2.1
    · exact (tame_of_exec hp ht h).straps
  · obtain ⟨t, ht, hk⟩ := exec_powerOnReset e s
    exact ⟨t, ht, hk.straps⟩

/-- Settles O9. -/
theorem sentOnlyGrows : Obligations.SentOnlyGrows := fun _ _ _ h => (sound_of_exec h).out

/-- Settles O10. -/
theorem timeOnlyByTick : Obligations.TimeOnlyByTick := fun _ _ _ hp ht h => (tame_of_exec hp ht h).elapsed

/-- Settles O15. -/
theorem frozenUntilPowerOn : Obligations.FrozenUntilPowerOn := by
  intro c s t hp hf h
  by_cases ht : c = .dtimeMillisecondTick
  · subst ht
    obtain ⟨u, hu, hk⟩ := exec_tick s
    cases hu.symm.trans h
    exact hk.frozen ((s.get_later _ _).trans hf)
  · exact (tame_of_exec hp ht h).frozen hf

/-- Settles O13. -/
theorem inServiceNotPresented : Obligations.InServiceNotPresented := by
  refine ⟨fun s t hx h => (sound_of_step h).exclusive hx, fun s d hruns hmode hins hcount => ?_⟩
  have hsrc : ∀ d : Fin 32, reservedSrc (300 + d.val) = false := by decide
  have hraise := State.raise_of_inService (hsrc d) (by omega) hmode hins hcount
  refine ⟨s.bump F.CIC_SRC_STAT.COUNT (300 + d.val), ?_, ?_, ?_⟩
  · calc exec (.cicDbRing d) s = s.awake (.next (s.raise (300 + d.val))) := rfl
      _ = _ := by rw [State.awake_of_runs _ hruns, hraise]
  · refine (s.get_put_self F.CIC_SRC_STAT.COUNT _ _ (by decide) (by decide)).trans ?_
    have hmax : F.CIC_SRC_STAT.COUNT.max = 255 := rfl
    rw [hmax]
    show min 255 _ % 256 = _
    omega
  · exact s.get_put_field (f := F.CIC_SRC_STAT.COUNT) (g := F.CIC_SRC_STAT.PRES) _ _ rfl (by decide) (by decide) (by decide) (by decide)

end

section

/-! SUPPORT. What a part of a command may change: the registers and the regions of the state beside which everything stays. -/

namespace Sys2Proof.Machine

/-! ### Footprints -/

/-- The registers and the regions that a part of a command may change. -/
structure Foot where
  regs : List RegName
  parts : List Region

/-- Is everything of a footprint in another? -/
def Foot.le (F G : Foot) : Bool := F.regs.all G.regs.contains && F.parts.all G.parts.contains

/-- Beside the registers and the regions of a footprint, both states are the same. -/
structure Keeps (F : Foot) (s t : State) : Prop where
  reg_eq : ∀ r, F.regs.contains r = false → ∀ i, t.reg r i = s.reg r i
  same : ∀ p, F.parts.contains p = false → p.same s t

theorem Region.same_refl (p : Region) (s : State) : p.same s s := by cases p <;> rfl

theorem Region.same_trans {p : Region} {s t u : State} (h : p.same s t) (k : p.same t u) : p.same s u := by
  cases p <;> exact Eq.trans k h

/-- What is left of a state beside its registers, some regions, and the jobs, requests and commands that wait. -/
abbrev State.rest (P : List Region) (s : State) : State where
  mem := match P.contains .mem with | true => [] | false => s.mem
  snor := match P.contains .snor with | true => [] | false => s.snor
  straps := match P.contains .straps with | true => {} | false => s.straps
  dtime := match P.contains .dtime with | true => 0 | false => s.dtime
  epoch := match P.contains .epoch with | true => 0 | false => s.epoch
  elapsed := match P.contains .elapsed with | true => 0 | false => s.elapsed
  accErr := match P.contains .accErr with | true => [] | false => s.accErr
  debugErrs := match P.contains .debugErrs with | true => 0 | false => s.debugErrs
  freeNo := match P.contains .freeNo with | true => 0 | false => s.freeNo
  inReset := match P.contains .inReset with | true => false | false => s.inReset
  evt := match P.contains .evt with | true => {} | false => s.evt
  cic := match P.contains .cic with | true => {} | false => s.cic
  hbm := match P.contains .hbm with | true => {} | false => s.hbm
  nor := match P.contains .nor with | true => {} | false => s.nor
  hkp := match P.contains .hkp with | true => {} | false => s.hkp
  tly := match P.contains .tly with | true => {} | false => s.tly
  packs := match P.contains .packs with | true => [] | false => s.packs
  hif := match P.contains .hif with | true => {} | false => s.hif
  twn := match P.contains .twn with | true => {} | false => s.twn
  map := match P.contains .map with | true => {} | false => s.map
  conv := match P.contains .conv with | true => {} | false => s.conv
  health := match P.contains .health with | true => {} | false => s.health
  pow := match P.contains .pow with | true => {} | false => s.pow
  setv := match P.contains .setv with | true => {} | false => s.setv
  sgen := match P.contains .sgen with | true => 0 | false => s.sgen
  fab := match P.contains .fab with | true => {} | false => s.fab
  fw := match P.contains .fw with | true => {} | false => s.fw
  mbx := match P.contains .mbx with | true => {} | false => s.mbx
  keys := match P.contains .keys with | true => {} | false => s.keys
  arb := match P.contains .arb with | true => {} | false => s.arb
  out := match P.contains .out with | true => [] | false => s.out

/-- A region beside those that are left out is read off what is left. -/
theorem Region.same_of_rest {P : List Region} {p : Region} {s t : State} (hp : P.contains p = false) (h : t.rest P = s.rest P) :
    p.same s t := by
  simp only [State.rest, State.mk.injEq] at h
  cases p <;> simp_all only [Region.same]

theorem Keeps.refl {F : Foot} (s : State) : Keeps F s s := ⟨fun _ _ _ => rfl, fun p _ => p.same_refl s⟩

theorem Keeps.trans {F : Foot} {s t u : State} (h : Keeps F s t) (k : Keeps F t u) : Keeps F s u :=
  ⟨fun r hr i => (k.reg_eq r hr i).trans (h.reg_eq r hr i), fun p hp => Region.same_trans (h.same p hp) (k.same p hp)⟩

/-- `Keeps.trans` from its end. -/
theorem Keeps.after {F : Foot} {s t u : State} (k : Keeps F t u) (h : Keeps F s t) : Keeps F s u := h.trans k

/-- What keeps more keeps less. -/
theorem Keeps.up {F G : Foot} {s t : State} (h : Keeps F s t) (hF : F.le G = true := by decide +kernel) : Keeps G s t := by
  simp only [Foot.le, Bool.and_eq_true, List.all_eq_true] at hF
  obtain ⟨hr, hp⟩ := hF
  refine ⟨fun r h' => h.reg_eq r ?_, fun p h' => h.same p ?_⟩
  · exact Bool.eq_false_iff.2 fun hc => Bool.noConfusion ((hr r (List.contains_iff_mem.1 hc)).symm.trans h')
  · exact Bool.eq_false_iff.2 fun hc => Bool.noConfusion ((hp p (List.contains_iff_mem.1 hc)).symm.trans h')

theorem Keeps.get {F : Foot} {s t : State} (h : Keeps F s t) (f : Fld) (i : Nat) (hf : F.regs.contains f.reg = false := by decide +kernel) :
    t.get f i = s.get f i := by
  unfold State.get
  rw [h.reg_eq f.reg hf i]

theorem Keeps.reg {F : Foot} {s t : State} (h : Keeps F s t) (r : RegName) (i : Nat) (hr : F.regs.contains r = false := by decide +kernel) :
    t.reg r i = s.reg r i := h.reg_eq r hr i

section
variable {s t : State} {mem snor : List Host.Cell} {straps : Straps} {dtime : BitVec 64} {epoch : BitVec 16} {elapsed : Nat}
  {accErr : Tbl Nat} {debugErrs freeNo : Nat} {inReset : Bool} {evt : Evt} {cic : Cic} {hbm : Hbm} {nor : Nor} {hkp : Hkp} {tly : Tly}
  {packs : Tbl Pack} {hif : Hif} {twn : Twn} {map : MapS} {cmpWait : List CmpWait} {gateWait : List GateWait} {conv : Conv}
  {health : Health} {pow : Pow} {setv : Settings} {sgen : BitVec 64} {fab : Fab} {fw : Fw} {mbx : Mbx} {keys : Keys} {arb : Arb}
  {out : List Out} {pending : List Instr}

/-- An update of the regions of a footprint. -/
theorem Keeps.update {F : Foot} (h : Keeps F s t) (e : State.rest F.parts { t with
      mem := mem, snor := snor, straps := straps, dtime := dtime, epoch := epoch, elapsed := elapsed, accErr := accErr
      debugErrs := debugErrs, freeNo := freeNo, inReset := inReset, evt := evt, cic := cic, hbm := hbm, nor := nor, hkp := hkp
      tly := tly, packs := packs, hif := hif, twn := twn, map := map, cmpWait := cmpWait, gateWait := gateWait, conv := conv
      health := health, pow := pow, setv := setv, sgen := sgen, fab := fab, fw := fw, mbx := mbx, keys := keys, arb := arb
      out := out, pending := pending } = t.rest F.parts) : Keeps F s { t with
      mem := mem, snor := snor, straps := straps, dtime := dtime, epoch := epoch, elapsed := elapsed, accErr := accErr
      debugErrs := debugErrs, freeNo := freeNo, inReset := inReset, evt := evt, cic := cic, hbm := hbm, nor := nor, hkp := hkp
      tly := tly, packs := packs, hif := hif, twn := twn, map := map, cmpWait := cmpWait, gateWait := gateWait, conv := conv
      health := health, pow := pow, setv := setv, sgen := sgen, fab := fab, fw := fw, mbx := mbx, keys := keys, arb := arb
      out := out, pending := pending } :=
  h.trans ⟨fun _ _ _ => rfl, fun _ hp => Region.same_of_rest hp e⟩

end

/-! ### How parts are put together -/

/-- What keeps more keeps less, beside a footprint that is not known. -/
theorem Foot.le_trans {A B C : Foot} (h : A.le B = true) (k : B.le C = true) : A.le C = true := by
  simp only [Foot.le, Bool.and_eq_true, List.all_eq_true, List.contains_iff_mem] at h k ⊢
  exact ⟨fun r hr => k.1 r (h.1 r hr), fun p hp => k.2 p (h.2 p hp)⟩

theorem Keeps.within {A B F : Foot} {s t : State} (h : Keeps A s t) (hF : B.le F = true) (hA : A.le B = true := by decide +kernel) :
    Keeps F s t := h.up (Foot.le_trans hA hF)

theorem Keeps.ite {F : Foot} {s a b : State} {c : Prop} [Decidable c] (ha : c → Keeps F s a) (hb : ¬ c → Keeps F s b) :
    Keeps F s (if c then a else b) := by
  split
  · exact ha ‹_›
  · exact hb ‹_›

theorem Keeps.foldl {α : Type} {F : Foot} {f : State → α → State} (h : ∀ s x, Keeps F s (f s x)) (l : List α) (s : State) :
    Keeps F s (l.foldl f s) := by
  induction l generalizing s with
  | nil => exact .refl s
  | cons x l ih => exact (h s x).trans (ih _)

theorem Keeps.foldr {α : Type} {F : Foot} {f : α → State → State} (h : ∀ x s, Keeps F s (f x s)) (l : List α) (s : State) :
    Keeps F s (l.foldr f s) := by
  induction l with
  | nil => exact .refl s
  | cons x l ih => exact ih.trans (h x _)

theorem Keeps.foldl_fst {α β : Type} {F : Foot} {f : State × β → α → State × β} (h : ∀ p x, Keeps F p.1 (f p x).1) (l : List α)
    (s : State) (b : β) : Keeps F s (l.foldl f (s, b)).1 := by
  suffices g : ∀ p : State × β, Keeps F p.1 (l.foldl f p).1 from g (s, b)
  induction l with
  | nil => exact fun p => .refl p.1
  | cons x l ih => exact fun p => (h p x).trans (ih _)

/-- Where there is a next state, it keeps. -/
def KeepsOpt (F : Foot) (s : State) (o : Option State) : Prop := ∀ t, o = some t → Keeps F s t

theorem KeepsOpt.some {F : Foot} {s t : State} (h : Keeps F s t) : KeepsOpt F s (some t) := fun _ e => Option.some.inj e ▸ h

theorem KeepsOpt.none {F : Foot} (s : State) : KeepsOpt F s none := fun _ e => nomatch e

theorem KeepsOpt.get {F : Foot} {s t : State} {o : Option State} (h : KeepsOpt F s o) (e : o = Option.some t) : Keeps F s t := h t e

theorem KeepsOpt.after {F : Foot} {s t : State} {o : Option State} (k : KeepsOpt F t o) (h : Keeps F s t) : KeepsOpt F s o :=
  fun u e => h.trans (k u e)

theorem KeepsOpt.up {F G : Foot} {s : State} {o : Option State} (h : KeepsOpt F s o) (hF : F.le G = true := by decide +kernel) :
    KeepsOpt G s o := fun t e => (h t e).up hF

theorem KeepsOpt.ite {F : Foot} {s : State} {a b : Option State} {c : Prop} [Decidable c] (ha : c → KeepsOpt F s a)
    (hb : ¬ c → KeepsOpt F s b) : KeepsOpt F s (if c then a else b) := by
  split
  · exact ha ‹_›
  · exact hb ‹_›

theorem Keeps.elim {α : Type} {F : Foot} {s a : State} {o : Option α} {f : α → State} (ha : Keeps F s a) (hf : ∀ x, Keeps F s (f x)) :
    Keeps F s (o.elim a f) := by
  cases o
  · exact ha
  · exact hf _

theorem Keeps.getD {F : Foot} {s a : State} {o : Option State} (h : KeepsOpt F s o) (ha : Keeps F s a) : Keeps F s (o.getD a) := by
  cases o with
  | none => exact ha
  | some t => exact h t rfl

theorem Keeps.get_fst {α : Type} {F : Foot} {s a : State} {b : α} {o : Option (State × α)} (h : KeepsOpt F s (o.map Prod.fst))
    (e : o = some (a, b)) : Keeps F s a := h a (by rw [e]; rfl)

theorem Keeps.get_snd {α : Type} {F : Foot} {s a : State} {b : α} {o : Option (α × State)} (h : KeepsOpt F s (o.map Prod.snd))
    (e : o = some (b, a)) : Keeps F s a := h a (by rw [e]; rfl)

theorem Keeps.of_fst {α : Type} {F : Foot} {s a : State} {b : α} {p : State × α} (h : Keeps F s p.1) (e : p = (a, b)) : Keeps F s a := by
  rw [e] at h
  exact h

theorem Keeps.of_snd {α : Type} {F : Foot} {s a : State} {b : α} {p : α × State} (h : Keeps F s p.2) (e : p = (b, a)) : Keeps F s a := by
  rw [e] at h
  exact h

/-! ### Elementary updates -/

theorem State.keeps_setReg (s : State) (r : RegName) (i : Nat) (v : BitVec 64) : Keeps ⟨[r], []⟩ s (s.setReg r i v) := by
  refine ⟨fun q hq j => s.reg_setReg_other v (.inl fun h => ?_), fun p _ => ?_⟩
  · simp [h] at hq
  · cases p <;> rfl

theorem State.keeps_put (s : State) (f : Fld) (i x : Nat) : Keeps ⟨[f.reg], []⟩ s (s.put f i x) := s.keeps_setReg f.reg i _

theorem State.keeps_bump (s : State) (f : Fld) (i n : Nat) : Keeps ⟨[f.reg], []⟩ s (s.bump f i n) := s.keeps_put f i _

end Sys2Proof.Machine
end

section
-- One proof at a time: as many threads as there are lemmas here do not fit beside the model.
set_option Elab.async false

namespace Sys2Proof.Machine

/-! ### Machine/Unit -/

theorem State.keeps_sendKey (s : State) : Keeps ⟨[], [.keys]⟩ s s.sendKey := by
  unfold State.sendKey
  split
  · exact (Keeps.update (F := ⟨[], [.keys]⟩) (.refl _) rfl).up
  · exact .refl _

theorem State.keeps_recvKey (s : State) : Keeps ⟨[], [.keys]⟩ s s.recvKey := by
  unfold State.recvKey
  split
  · exact (Keeps.update (F := ⟨[], [.keys]⟩) (.refl _) rfl).up
  · exact .refl _

/-! ### Machine/Ops -/

theorem State.keeps_drawn (s : State) : Keeps ⟨[], [.freeNo]⟩ s s.drawn := by
  unfold State.drawn
  exact (Keeps.update (F := ⟨[], [.freeNo]⟩) (.refl _) rfl).up

theorem State.keeps_dirtied (s : State) (a : Nat) : Keeps ⟨[], [.arb]⟩ s (s.dirtied a) := by
  unfold State.dirtied
  exact .ite (fun _ => (Keeps.update (F := ⟨[], [.arb]⟩) (.refl _) rfl).up) fun _ => .refl _

theorem State.keeps_wrByte (s : State) (a : Nat) (b : Byte) : Keeps ⟨[], [.arb, .hbm, .mem]⟩ s (s.wrByte a b) := by
  unfold State.wrByte
  exact .ite (fun _ => .after ((State.keeps_dirtied _ _).up) ((Keeps.update (F := ⟨[], [.mem, .hbm]⟩) (.refl _) rfl).up)) fun _ => .refl _

theorem State.keeps_setNorByte (s : State) (a : Nat) (b : Byte) : Keeps ⟨[], [.snor]⟩ s (s.setNorByte a b) := by
  unfold State.setNorByte
  exact (Keeps.update (F := ⟨[], [.snor]⟩) (.refl _) rfl).up

theorem State.keeps_setNorBytes (s : State) (a : Nat) (a2 : Bytes) : Keeps ⟨[], [.snor]⟩ s (s.setNorBytes a a2) := by
  fun_induction s.setNorBytes a a2
  · exact .refl _
  · rename_i ih4
    exact .after ih4 ((State.keeps_setNorByte _ _ _).up)

theorem State.keeps_norPut (s : State) (a : Nat) (b : Bytes) : Keeps ⟨[], [.nor, .snor]⟩ s (s.norPut a b) := by
  unfold State.norPut
  exact .after ((Keeps.update (F := ⟨[], [.nor]⟩) (.refl _) rfl).up) ((State.keeps_setNorBytes _ _ _).up)

theorem State.keeps_norSlot (s : State) (a : Nat) (b : Bytes) : Keeps ⟨[], [.nor, .snor]⟩ s (s.norSlot a b) := by
  unfold State.norSlot
  exact .after ((State.keeps_norPut _ _ _).up) ((Keeps.update (F := ⟨[], [.snor, .nor]⟩) (.refl _) rfl).up)

theorem State.keeps_engWrite (s : State) (a : Nat) (a2 : Bytes) : Keeps ⟨[], [.arb, .hbm, .mem]⟩ s (s.engWrite a a2) := by
  fun_induction s.engWrite a a2
  · exact .refl _
  · rename_i ih4
    exact .after ih4 (.ite (fun _ => (State.keeps_wrByte _ _ _).up) fun _ => .refl _)

theorem State.keeps_send (s : State) (o : Out) : Keeps ⟨[], [.out]⟩ s (s.send o) := by
  unfold State.send
  exact .ite (fun _ => .refl _) fun _ => (Keeps.update (F := ⟨[], [.out]⟩) (.refl _) rfl).up

theorem State.keeps_present (s : State) (n : Nat) : Keeps ⟨[.CIC_SRC_STAT], [.cic]⟩ s (s.present n) := by
  unfold State.present
  split
  · exact .refl _
  · split
    · exact .refl _
    · split
      · exact .after ((Keeps.update (F := ⟨[], [.cic]⟩) (.refl _) rfl).up) (.after ((State.keeps_put _ _ _ _).up)
          ((State.keeps_put _ _ _ _).up))
      · exact (State.keeps_put _ _ _ _).up

theorem State.keeps_advance (s : State) (ring : Nat) : Keeps ⟨[.PTR_DONE], [.evt]⟩ s (s.advance ring) := by
  unfold State.advance
  exact .ite (fun _ => (State.keeps_put _ _ _ _).up) fun _ => (Keeps.update (F := ⟨[], [.evt]⟩) (.refl _) rfl).up

theorem State.keeps_enqPulse (s : State) (l : Nat) : Keeps ⟨[], [.evt]⟩ s (s.enqPulse l) := by
  unfold State.enqPulse
  exact (Keeps.update (F := ⟨[], [.evt]⟩) (.refl _) rfl).up

theorem State.keeps_hwPulse (s : State) (l : Nat) : Keeps ⟨[], [.evt]⟩ s (s.hwPulse l) := by
  unfold State.hwPulse
  exact .ite (fun _ => (Keeps.update (F := ⟨[], [.evt]⟩) (.refl _) rfl).up) fun _ => (State.keeps_enqPulse _ _).up

theorem State.keeps_raise (s : State) (n : Nat) : Keeps ⟨[.CIC_SRC_STAT], [.cic, .evt]⟩ s (s.raise n) := by
  unfold State.raise
  split
  · exact .refl _
  · extract_lets +onlyGivenNames s1
    have hs1 : Keeps ⟨[.CIC_SRC_STAT], [.cic, .evt]⟩ s s1 := by
      unfold s1
      split
      · exact (State.keeps_hwPulse _ _).up
      · exact .refl _
    exact .ite (fun _ => .after ((State.keeps_present _ _).up) (.after ((State.keeps_put _ _ _ _).up)
      (.after ((State.keeps_put _ _ _ _).up) hs1))) fun _ => .ite (fun _ => .after ((State.keeps_present _ _).up)
      (.after ((State.keeps_put _ _ _ _).up) (.after ((State.keeps_put _ _ _ _).up) hs1))) fun _ => .ite
      (fun _ => .after ((State.keeps_present _ _).up) (.after ((State.keeps_put _ _ _ _).up) hs1)) fun _ => .after
      ((State.keeps_present _ _).up) (.after ((State.keeps_bump _ _ _ _).up) hs1)

theorem State.keeps_advanceBy (s : State) (r : Nat) (a2 : Nat) : Keeps ⟨[.PTR_DONE], [.evt]⟩ s (s.advanceBy r a2) := by
  fun_induction s.advanceBy r a2
  · exact .refl _
  · rename_i ih2
    exact .after ih2 ((State.keeps_advance _ _).up)

theorem State.keeps_putErr (s : State) (u r : Nat) :
    Keeps ⟨[.MAP_QCTL, .CMP_RING_CFG, .CPH_RING_CFG, .CVY_RING_CFG], []⟩ s (s.put (errField u) r 1) := by
  unfold errField
  split_ifs <;> exact (s.keeps_put _ _ _).up

/-- What a completion that takes effect may change. -/
abbrev Foot.accept : Foot :=
  ⟨[.MAP_QCTL, .CMP_RING_CFG, .CPH_RING_CFG, .CVY_RING_CFG, .PTR_STAT, .PTR_DONE, .CIC_SRC_STAT], [.mem, .hbm, .arb, .evt, .cic]⟩

theorem State.keeps_accept (s : State) (h : HeldPulse) : Keeps .accept s (s.accept h) := by
  unfold State.accept
  extract_lets srcs s1 s2 s3 s4 s5
  have hwr : Keeps .accept s s1 := .foldl (fun _ _ => (State.keeps_engWrite _ _ _).up) _ _
  have herr : Keeps .accept s1 s2 := by
    unfold s2
    split
    · exact (State.keeps_putErr _ _ _).up
    · exact .refl _
  have hpulse : Keeps .accept s2 s3 := .ite (fun _ => (State.keeps_enqPulse _ _).up) fun _ => .refl _
  have hring : Keeps .accept s3 s4 := by
    unfold s4
    split
    · exact (State.keeps_advanceBy _ _ _).up
    · exact .refl _
  have hchan : Keeps .accept s4 s5 := by
    unfold s5
    split
    · exact .after (State.keeps_put _ _ _ _).up (State.keeps_put _ _ _ _).up
    · exact .refl _
  exact hwr.trans (herr.trans (hpulse.trans (hring.trans (hchan.trans (.foldl (fun _ _ => (State.keeps_raise _ _).up) _ _)))))

theorem State.keeps_complete (s : State) (h : HeldPulse) : Keeps ⟨[.CIC_SRC_STAT, .CMP_RING_CFG, .CPH_RING_CFG, .CVY_RING_CFG, .MAP_QCTL,
    .PTR_DONE, .PTR_STAT], [.arb, .cic, .evt, .hbm, .mem]⟩ s (s.complete h) := by
  unfold State.complete
  exact .ite (fun _ => (Keeps.update (F := ⟨[], [.evt]⟩) (.refl _) rfl).up) fun _ => (State.keeps_accept _ _).up

theorem State.keeps_pmcWrap (s : State) (x : Nat) (a2 : Nat) (a3 : Nat) : Keeps ⟨[.CIC_SRC_STAT, .PMC_CNT, .PMC_CTL], [.cic, .evt]⟩ s
    (s.pmcWrap x a2 a3) := by
  fun_induction s.pmcWrap x a2 a3
  · exact .refl _
  · rename_i ih7
    exact .after ih7 ((State.keeps_put _ _ _ _).up)
  · exact (State.keeps_put _ _ _ _).up
  · exact .after ((State.keeps_raise _ _).up) ((State.keeps_put _ _ _ _).up)
  · exact (State.keeps_put _ _ _ _).up

theorem State.keeps_pmcCount (x : Nat) (ev : Nat) (n : Nat) (s : State) (k : Nat) : Keeps ⟨[.CIC_SRC_STAT, .PMC_CNT, .PMC_CTL],
    [.cic, .evt]⟩ s (State.pmcCount x ev n s k) := by
  unfold State.pmcCount
  exact .ite (fun _ => .refl _) fun _ => .after (.ite (fun _ => (State.keeps_pmcWrap _ _ _ _).up) fun _ => .refl _)
    ((State.keeps_put _ _ _ _).up)

theorem State.keeps_pmc (s : State) (b : Nat) (ev : Nat) (n : Nat) : Keeps ⟨[.CIC_SRC_STAT, .PMC_CNT, .PMC_CTL], [.cic, .evt]⟩ s
    (s.pmc b ev n) := by
  unfold State.pmc
  exact .ite (fun _ => .refl _) fun _ => .foldl (fun _ _ => (State.keeps_pmcCount _ _ _ _ _).up) _ _

theorem State.keeps_control (s : State) (l : Link) (rx : BitVec 32) (typ : Nat) (len : Nat) (payload : Bytes) : Keeps ⟨[], [.out]⟩ s
    (s.control l rx typ len payload) := by
  unfold State.control
  exact (State.keeps_send _ _).up

theorem State.keeps_setPk (s : State) (n : Nat) (p : Pack) : Keeps ⟨[], [.packs]⟩ s (s.setPk n p) := by
  unfold State.setPk
  exact (Keeps.update (F := ⟨[], [.packs]⟩) (.refl _) rfl).up

theorem State.keeps_pumpPack (s : State) (n : Nat) : Keeps ⟨[.CIC_SRC_STAT, .PKP_CRED, .PMC_CNT, .PMC_CTL], [.cic, .evt, .out, .packs]⟩ s
    (s.pumpPack n) := by
  unfold State.pumpPack
  exact .ite (fun _ => .refl _) fun _ => .after (.after ((Keeps.update (F := ⟨[], [.out]⟩) (.refl _) rfl).up)
    ((State.keeps_put _ _ _ _).up)) (.after ((State.keeps_pmc _ _ _ _).up) ((State.keeps_setPk _ _ _).up))

theorem State.keeps_presetAt (s : State) (k : Nat) : Keeps ⟨[], [.hkp]⟩ s (s.presetAt k) := by
  unfold State.presetAt
  exact (Keeps.update (F := ⟨[], [.hkp]⟩) (.refl _) rfl).up

theorem State.keeps_train (s : State) (n : Nat) : Keeps ⟨[], [.hkp, .out]⟩ s (s.train n) := by
  unfold State.train
  exact .after ((State.keeps_control _ _ _ _ _ _).up) ((State.keeps_presetAt _ _).up)

theorem State.keeps_pumpTwin (s : State) : Keeps ⟨[], [.out, .twn]⟩ s s.pumpTwin := by
  unfold State.pumpTwin
  exact .ite (fun _ => .refl _) fun _ => (Keeps.update (F := ⟨[], [.twn, .out]⟩) (.refl _) rfl).up

theorem State.keeps_digest (s : State) (c : Nat) (o : Out) : Keeps ⟨[], [.twn]⟩ s (s.digest c o) := by
  unfold State.digest
  exact .ite (fun _ => (Keeps.update (F := ⟨[], [.twn]⟩) (.refl _) rfl).up) fun _ => .refl _

theorem State.keeps_issue (s : State) (o : Out) : Keeps ⟨[.CIC_SRC_STAT, .PKP_CRED, .PMC_CNT, .PMC_CTL], [.cic, .evt, .out, .packs]⟩ s
    (s.issue o) := by
  unfold State.issue
  split
  · exact .after ((State.keeps_pumpPack _ _).up) ((State.keeps_setPk _ _ _).up)
  · exact (State.keeps_send _ _).up

theorem State.keeps_emitQuiet (s : State) (o : Out) : Keeps ⟨[.CIC_SRC_STAT, .PKP_CRED, .PMC_CNT, .PMC_CTL], [.cic, .evt, .out, .packs,
    .twn]⟩ s (s.emitQuiet o) := by
  unfold State.emitQuiet
  exact .ite (fun _ => .refl _) fun _ => .ite (fun _ => (Keeps.update (F := ⟨[], [.twn]⟩) (.refl _) rfl).up) fun _ =>
    (State.keeps_issue _ _).up

theorem State.keeps_emit (s : State) (o : Out) : Keeps ⟨[.CIC_SRC_STAT, .PKP_CRED, .PMC_CNT, .PMC_CTL], [.cic, .evt, .out, .packs, .twn]⟩ s
    (s.emit o) := by
  unfold State.emit
  exact .after ((State.keeps_emitQuiet _ _).up) ((State.keeps_digest _ _ _).up)

theorem State.keeps_arbSend (s : State) (mtype : Nat) (body : Bytes) : Keeps ⟨[], [.arb, .out]⟩ s (s.arbSend mtype body) := by
  unfold State.arbSend
  exact .after ((State.keeps_send _ _).up) ((Keeps.update (F := ⟨[], [.arb]⟩) (.refl _) rfl).up)

theorem State.keeps_alert (s : State) (code : Nat) : Keeps ⟨[], [.arb, .out]⟩ s (s.alert code) := by
  unfold State.alert
  exact (State.keeps_arbSend _ _ _).up

theorem State.keeps_setFault (s : State) (b : Nat) : Keeps ⟨[], [.arb, .out, .twn]⟩ s (s.setFault b) := by
  unfold State.setFault
  exact .after (.ite (fun _ => (State.keeps_alert _ _).up) fun _ => .refl _) ((Keeps.update (F := ⟨[], [.twn]⟩) (.refl _) rfl).up)

theorem State.keeps_twinSend (s : State) (mtype : Nat) (body : Bytes) (last : Bool) : Keeps ⟨[.CIC_SRC_STAT, .TWN_LINK],
    [.cic, .evt, .keys, .out, .twn]⟩ s (s.twinSend mtype body last) := by
  unfold State.twinSend
  exact .ite (fun _ => .refl _) fun _ => .ite
    (fun _ => .after (.after (.after ((State.keeps_pumpTwin _).up) (.after ((State.keeps_raise _ _).up) ((State.keeps_put _ _ _ _).up)))
    (.after ((State.keeps_sendKey _).up) ((Keeps.update (F := ⟨[], [.keys]⟩) (.refl _) rfl).up)))
    ((Keeps.update (F := ⟨[], [.twn]⟩) (.refl _) rfl).up)) fun _ => .after ((State.keeps_pumpTwin _).up)
    ((Keeps.update (F := ⟨[], [.twn]⟩) (.refl _) rfl).up)

theorem State.keeps_ringWrite (s : State) (i : Nat) (b : Bytes) : Keeps ⟨[], [.arb, .hbm, .mem, .twn]⟩ s (s.ringWrite i b) := by
  unfold State.ringWrite
  exact .after (.after ((Keeps.update (F := ⟨[], [.twn]⟩) (.refl _) rfl).up) ((State.keeps_engWrite _ _ _).up))
    (.ite (fun _ => (State.keeps_engWrite _ _ _).up) fun _ => .refl _)

theorem State.keeps_ringDeliver (s : State) (e : LEntry) : Keeps ⟨[], [.arb, .hbm, .mem, .twn]⟩ s (s.ringDeliver e) := by
  unfold State.ringDeliver
  exact .ite (fun _ => .refl _) fun _ => (State.keeps_ringWrite _ _ _).up

theorem State.keeps_recordPut (s : State) (e : LEntry) : Keeps ⟨[.CIC_SRC_STAT, .PMC_CNT, .PMC_CTL, .TWN_LINK], [.cic, .evt, .keys, .out,
    .twn]⟩ s (s.recordPut e) := by
  unfold State.recordPut
  exact .after (.after ((State.keeps_pmc _ _ _ _).up) (.ite (fun _ => (State.keeps_twinSend _ _ _ _).up) fun _ => .refl _))
    ((Keeps.update (F := ⟨[], [.twn]⟩) (.refl _) rfl).up)

theorem State.keeps_record (s : State) (e : LEntry) : Keeps ⟨[.CIC_SRC_STAT, .PMC_CNT, .PMC_CTL, .TWN_LINK], [.arb, .cic, .evt, .hbm, .keys,
    .mem, .out, .twn]⟩ s (s.record e) := by
  unfold State.record
  exact .ite (fun _ => .refl _) fun _ => .after ((State.keeps_ringDeliver _ _).up) (.ite (fun _ => (State.keeps_recordPut _ _).up) fun _ =>
    .refl _)

theorem State.keeps_recordCtl (s : State) (ckind : Nat) (arg : Nat) : Keeps ⟨[.CIC_SRC_STAT, .PMC_CNT, .PMC_CTL, .TWN_LINK],
    [.arb, .cic, .evt, .hbm, .keys, .mem, .out, .twn]⟩ s (s.recordCtl ckind arg) := by
  unfold State.recordCtl
  exact .after ((State.keeps_raise _ _).up) ((State.keeps_record _ _).up)

/-! ### Machine/Hbm -/

theorem State.keeps_setErr (s : State) (w : Nat) (e : BitVec 72) : Keeps ⟨[], [.hbm]⟩ s (s.setErr w e) := by
  unfold State.setErr
  exact (Keeps.update (F := ⟨[], [.hbm]⟩) (.refl _) rfl).up

theorem State.keeps_softPut (s : State) (i : Nat) (e : SoftRow) : Keeps ⟨[], [.nor, .snor]⟩ s (s.softPut i e) := by
  unfold State.softPut
  exact (State.keeps_norPut _ _ _).up

theorem State.keeps_appendSoft (s : State) (row : Nat) : Keeps ⟨[], [.hbm, .nor, .snor]⟩ s (s.appendSoft row) := by
  unfold State.appendSoft
  exact .ite (fun _ => .refl _) fun _ => .after ((State.keeps_softPut _ _ _).up) ((Keeps.update (F := ⟨[], [.hbm]⟩) (.refl _) rfl).up)

theorem State.keeps_markHard (s : State) (row : Nat) : Keeps ⟨[.CIC_SRC_STAT, .HBC_STAT], [.cic, .evt, .hbm, .nor, .snor]⟩ s
    (s.markHard row) := by
  unfold State.markHard
  exact .ite (fun _ => .refl _) fun _ => .after (.after ((State.keeps_appendSoft _ _).up) (.after ((State.keeps_raise _ _).up)
    ((State.keeps_bump _ _ _ _).up))) ((Keeps.update (F := ⟨[], [.hbm]⟩) (.refl _) rfl).up)

theorem State.keeps_rewriteRow (s : State) (row : Nat) : Keeps ⟨[], [.hbm]⟩ s (s.rewriteRow row) := by
  unfold State.rewriteRow
  exact (Keeps.update (F := ⟨[], [.hbm]⟩) (.refl _) rfl).up

theorem State.keeps_rowEntry (s : State) (row : Nat) : Keeps ⟨[.CIC_SRC_STAT], [.cic, .evt, .hbm]⟩ s (s.rowEntry row) := by
  unfold State.rowEntry
  exact .ite (fun _ => .refl _) fun _ => .after (.ite (fun _ => (State.keeps_raise _ _).up) fun _ => .refl _)
    ((Keeps.update (F := ⟨[], [.hbm]⟩) (.refl _) rfl).up)

theorem State.keeps_updRow (s : State) (row : Nat) (f : HbmRow → HbmRow) : Keeps ⟨[], [.hbm]⟩ s (s.updRow row f) := by
  unfold State.updRow
  exact (Keeps.update (F := ⟨[], [.hbm]⟩) (.refl _) rfl).up

theorem State.keeps_countRow (s : State) (row : Nat) : Keeps ⟨[.CIC_SRC_STAT, .HBC_STAT], [.cic, .evt, .hbm, .nor, .snor]⟩ s
    (s.countRow row) := by
  unfold State.countRow
  exact .after (.after (.ite (fun _ => .ite (fun _ => (State.keeps_markHard _ _).up) fun _ => .refl _) fun _ => .ite
    (fun _ => .after ((State.keeps_raise _ _).up) (.after ((State.keeps_updRow _ _ _).up) ((State.keeps_rewriteRow _ _).up))) fun _ =>
    .refl _) (.after ((State.keeps_updRow _ _ _).up) ((State.keeps_rowEntry _ _).up))) (.after ((State.keeps_raise _ _).up)
    ((State.keeps_bump _ _ _ _).up))

theorem State.keeps_pageWriteBack (s : State) (p : Nat) : Keeps ⟨[.CIC_SRC_STAT, .HBC_STAT], [.cic, .evt, .hbm]⟩ s (s.pageWriteBack p) := by
  unfold State.pageWriteBack
  exact .after ((State.keeps_raise _ _).up) (.after ((Keeps.update (F := ⟨[], [.hbm]⟩) (.refl _) rfl).up) ((State.keeps_bump _ _ _ _).up))

theorem State.keeps_logUE (s : State) (w : Nat) : Keeps ⟨[.CIC_SRC_STAT, .HBC_UELOG], [.arb, .cic, .evt, .out, .twn]⟩ s (s.logUE w) := by
  unfold State.logUE
  exact .after (.after ((State.keeps_raise _ _).up) (.ite (fun _ => (State.keeps_setFault _ _).up) fun _ => .refl _))
    (.ite (fun _ => (State.keeps_put _ _ _ _).up) fun _ => .after
    (.after (.after ((State.keeps_put _ _ _ _).up) (.after ((State.keeps_put _ _ _ _).up) ((State.keeps_put _ _ _ _).up)))
    (.after ((State.keeps_put _ _ _ _).up) ((State.keeps_put _ _ _ _).up))) (.after ((State.keeps_put _ _ _ _).up)
    ((State.keeps_put _ _ _ _).up)))

theorem State.keeps_hbcRead (s : State) (w : Nat) : Keeps ⟨[.CIC_SRC_STAT, .HBC_STAT, .HBC_UELOG], [.arb, .cic, .evt, .hbm, .nor, .out,
    .snor, .twn]⟩ s (s.hbcRead w).1 := by
  unfold State.hbcRead
  split
  · exact .refl _
  · exact (State.keeps_countRow _ _).up
  · split
    · exact (State.keeps_pageWriteBack _ _).up
    · exact (State.keeps_logUE _ _).up

theorem State.keeps_hbcReadRun (s : State) (a : Nat) (n : Nat) : Keeps ⟨[.CIC_SRC_STAT, .HBC_STAT, .HBC_UELOG],
    [.arb, .cic, .evt, .hbm, .nor, .out, .snor, .twn]⟩ s (s.hbcReadRun a n).1 := by
  unfold State.hbcReadRun
  extract_lets +onlyGivenNames ws1
  refine .foldl_fst (fun p2 x3 => ?_) _ _ _
  split
  · exact .refl _
  · exact (State.keeps_hbcRead _ _).up

theorem keeps_applyRepair (noSpare : List (Fin 256)) (s : State) (i : Nat) : Keeps ⟨[.HBC_REPAIR], []⟩ s (applyRepair noSpare s i) := by
  unfold applyRepair
  exact .ite (fun _ => .ite (fun _ => (State.keeps_put _ _ _ _).up) fun _ => (State.keeps_put _ _ _ _).up) fun _ => .refl _

theorem State.keeps_setBand (s : State) (k b : Nat) : Keeps ⟨[.HBC_STAT, .CIC_SRC_STAT], [.evt, .cic]⟩ s (s.setBand k b) := by
  have hput : Keeps ⟨[.HBC_STAT], []⟩ s (s.put (bandFld k) 0 b) := by
    unfold bandFld
    split <;> exact (s.keeps_put _ _ _).up
  exact .ite (fun _ => .refl s) fun _ => .after (State.keeps_raise _ _).up hput.up

theorem State.keeps_bandUp (s : State) (k : Nat) : Keeps ⟨[.CIC_SRC_STAT, .HBC_STAT], [.cic, .evt]⟩ s (s.bandUp k) := by
  unfold State.bandUp
  exact .ite (fun _ => (State.keeps_setBand _ _ _).up) fun _ => .refl _

theorem State.keeps_bandRound (s : State) (k : Nat) : Keeps ⟨[.CIC_SRC_STAT, .HBC_STAT], [.cic, .evt, .hbm]⟩ s (s.bandRound k) := by
  unfold State.bandRound
  exact .after
    (.ite (fun _ => .ite (fun _ => .after ((State.keeps_setBand _ _ _).up) ((Keeps.update (F := ⟨[], [.hbm]⟩) (.refl _) rfl).up)) fun _ =>
    (Keeps.update (F := ⟨[], [.hbm]⟩) (.refl _) rfl).up) fun _ => (Keeps.update (F := ⟨[], [.hbm]⟩) (.refl _) rfl).up)
    ((State.keeps_bandUp _ _).up)

theorem keeps_testStore (chk : BitVec 8) (s : State) : Keeps ⟨[], [.hbm]⟩ s (testStore chk s) := by
  unfold testStore
  exact (State.keeps_setErr _ _ _).up

/-! ### Machine/Snor -/

theorem State.keeps_norSet (s : State) (i : Nat) (f : NorDesc → NorDesc) : Keeps ⟨[], [.nor]⟩ s (s.norSet i f) := by
  unfold State.norSet
  exact (Keeps.update (F := ⟨[], [.nor]⟩) (.refl _) rfl).up

theorem State.keeps_norEnd (s : State) (x : NorDesc) (status : Nat) (wdone : Nat) : Keeps ⟨[.CIC_SRC_STAT, .CMP_RING_CFG, .CPH_RING_CFG,
    .CVY_RING_CFG, .MAP_QCTL, .PMC_CNT, .PMC_CTL, .PTR_DONE, .PTR_STAT], [.arb, .cic, .evt, .hbm, .mem, .nor]⟩ s
    (s.norEnd x status wdone) := by
  unfold State.norEnd
  exact .after (.after (.after ((State.keeps_complete _ _).up) (.after ((State.keeps_pmc _ _ _ _).up) ((State.keeps_pmc _ _ _ _).up)))
    ((Keeps.update (F := ⟨[], [.nor]⟩) (.refl _) rfl).up)) ((State.keeps_norSet _ _ _).up)

/-- What `norStart` may change. -/
abbrev Foot.norStart : Foot :=
  ⟨[.CIC_SRC_STAT, .PKP_CRED, .PMC_CNT, .PMC_CTL, .SNF_STAT], [.cic, .evt, .nor, .out, .packs, .twn]⟩

theorem State.keeps_norStart (s : State) (x : NorDesc) : Keeps .norStart s (s.norStart x) := by
  unfold State.norStart
  extract_lets +onlyGivenNames s1
  have hs1 : Keeps .norStart s s1 := by
    unfold s1
    split
    · exact .after ((State.keeps_put _ _ _ _).up) ((State.keeps_norSet _ _ _).up)
    · exact .refl _
  extract_lets +onlyGivenNames s2
  have hs2 : Keeps .norStart s s2 := .ite (fun _ => .after ((State.keeps_put _ _ _ _).up) hs1) fun _ => .after
    ((State.keeps_pmc _ _ _ _).up) hs1
  extract_lets +onlyGivenNames s3
  have hs3 : Keeps .norStart s s3 := .after ((State.keeps_put _ _ _ _).up) (.after ((State.keeps_norSet _ _ _).up) hs2)
  split
  · exact .after ((State.keeps_emit _ _).up) hs3
  · exact hs3

theorem State.keeps_norKickN (s : State) (a1 : Nat) : Keeps ⟨[.CIC_SRC_STAT, .CMP_RING_CFG, .CPH_RING_CFG, .CVY_RING_CFG, .MAP_QCTL,
    .PKP_CRED, .PMC_CNT, .PMC_CTL, .PTR_DONE, .PTR_STAT, .SNF_STAT], [.arb, .cic, .evt, .hbm, .mem, .nor, .out, .packs, .twn]⟩ s
    (s.norKickN a1) := by
  fun_induction s.norKickN a1
  · exact .refl _
  · exact .refl _
  · exact (State.keeps_norStart _ _).up
  · rename_i ih7
    exact .after ih7 ((State.keeps_norEnd _ _ _ _).up)
  · exact .refl _
  · exact (State.keeps_norStart _ _).up

theorem State.keeps_norHead (s : State) : Keeps ⟨[.SNF_QPTR], []⟩ s s.norHead := by
  unfold State.norHead
  split
  · exact (State.keeps_put _ _ _ _).up
  · exact (State.keeps_put _ _ _ _).up

theorem State.keeps_norKick (s : State) : Keeps ⟨[.CIC_SRC_STAT, .CMP_RING_CFG, .CPH_RING_CFG, .CVY_RING_CFG, .MAP_QCTL, .PKP_CRED,
    .PMC_CNT, .PMC_CTL, .PTR_DONE, .PTR_STAT, .SNF_QPTR, .SNF_STAT], [.arb, .cic, .evt, .hbm, .mem, .nor, .out, .packs,
    .twn]⟩ s s.norKick := by
  unfold State.norKick
  exact .after (.ite (fun _ => (State.keeps_put _ _ _ _).up) fun _ => .refl _) (.after ((State.keeps_norHead _).up)
    ((State.keeps_norKickN _ _).up))

theorem State.keeps_norWords (s : State) (a : Nat) (a2 : Nat) (a3 : Bytes) (a4 : Nat) : Keeps ⟨[], [.nor, .snor]⟩ s
    (s.norWords a a2 a3 a4).1 := by
  fun_induction s.norWords a a2 a3 a4
  · exact .refl _
  · rename_i ih8
    exact ih8
  · exact .refl _
  · rename_i ih11
    exact .after ih11 (.after (Keeps.update (F := ⟨[], [.nor]⟩) (.refl _) rfl).up ((State.keeps_setNorBytes _ _ _).up))

theorem State.keeps_norErase (s : State) (sp : Nat × Nat) : Keeps ⟨[], [.nor, .snor]⟩ s (s.norErase sp) := by
  unfold State.norErase
  exact (Keeps.update (F := ⟨[], [.snor, .nor]⟩) (.refl _) rfl).up

/-! ### Machine/Setting -/

theorem State.keeps_sgenUp (s : State) : Keeps ⟨[], [.sgen]⟩ s s.sgenUp := by
  unfold State.sgenUp
  exact (Keeps.update (F := ⟨[], [.sgen]⟩) (.refl _) rfl).up

theorem State.keeps_selWrite (s : State) (f : Fw → Fw) : Keeps ⟨[], [.fw, .nor, .sgen, .snor]⟩ s (s.selWrite f) := by
  unfold State.selWrite
  exact .after (.after ((State.keeps_sgenUp _).up) ((State.keeps_norSlot _ _ _).up)) ((Keeps.update (F := ⟨[], [.fw]⟩) (.refl _) rfl).up)

/-! ### Machine/Post -/

theorem State.keeps_setFunc (s : State) (f : Nat) (v : Func) : Keeps ⟨[], [.hif]⟩ s (s.setFunc f v) := by
  unfold State.setFunc
  exact (Keeps.update (F := ⟨[], [.hif]⟩) (.refl _) rfl).up

theorem State.keeps_setAssoc (s : State) (a : Nat) (v : Assoc) : Keeps ⟨[], [.fab]⟩ s (s.setAssoc a v) := by
  unfold State.setAssoc
  exact (Keeps.update (F := ⟨[], [.fab]⟩) (.refl _) rfl).up

theorem State.keeps_setCtl (s : State) (t : Tenant) (v : Func) : Keeps ⟨[], [.fab, .hif]⟩ s (s.setCtl t v) := by
  unfold State.setCtl
  split
  · exact (State.keeps_setFunc _ _ _).up
  · exact (State.keeps_setAssoc _ _ _).up

theorem State.keeps_tallyLat (s : State) (c : Ctx) : Keeps ⟨[], [.tly]⟩ s (s.tallyLat c) := by
  unfold State.tallyLat
  split
  · exact .refl _
  · exact .ite (fun _ => (Keeps.update (F := ⟨[], [.tly]⟩) (.refl _) rfl).up) fun _ => .refl _

theorem State.keeps_sendMsix (s : State) (f : Nat) (v : Nat) : Keeps ⟨[.CIC_SRC_STAT], [.cic, .evt, .hif, .out]⟩ s (s.sendMsix f v) := by
  unfold State.sendMsix
  exact .ite (fun _ => .ite (fun _ => .refl _) fun _ => (Keeps.update (F := ⟨[], [.hif]⟩) (.refl _) rfl).up) fun _ => .ite
    (fun _ => (State.keeps_raise _ _).up) fun _ => (State.keeps_send _ _).up

theorem State.keeps_coalSend (s : State) (f : Nat) (v : Nat) : Keeps ⟨[.CIC_SRC_STAT], [.cic, .evt, .hif, .out]⟩ s (s.coalSend f v) := by
  unfold State.coalSend
  exact .after ((State.keeps_sendMsix _ _ _).up) ((Keeps.update (F := ⟨[], [.hif]⟩) (.refl _) rfl).up)

theorem State.keeps_interrupt (s : State) (f : Nat) (cqid : Nat) (v : Nat) : Keeps ⟨[.CIC_SRC_STAT], [.cic, .evt, .hif, .out]⟩ s
    (s.interrupt f cqid v) := by
  unfold State.interrupt
  exact .ite (fun _ => (State.keeps_coalSend _ _ _).up) fun _ => (Keeps.update (F := ⟨[], [.hif]⟩) (.refl _) rfl).up

theorem State.keeps_putCqe (s : State) (f : Nat) (cqid : Nat) (q : Cq) (e : CqEntry) : Keeps ⟨[.CIC_SRC_STAT, .PKP_CRED, .PMC_CNT,
    .PMC_CTL], [.cic, .evt, .hif, .out, .packs, .twn]⟩ s (s.putCqe f cqid q e) := by
  unfold State.putCqe
  exact .after (.after (.ite (fun _ => (State.keeps_interrupt _ _ _ _).up) fun _ => .refl _) ((State.keeps_emitQuiet _ _).up))
    ((State.keeps_setFunc _ _ _).up)

theorem State.keeps_postEntry (s : State) (f : Nat) (cqid : Nat) (e : CqEntry) : Keeps ⟨[.CIC_SRC_STAT, .PKP_CRED, .PMC_CNT, .PMC_CTL],
    [.cic, .evt, .hif, .out, .packs, .twn]⟩ s (s.postEntry f cqid e) := by
  unfold State.postEntry
  split
  · exact .refl _
  · exact .after (.ite (fun _ => (State.keeps_setFunc _ _ _).up) fun _ => (State.keeps_putCqe _ _ _ _ _).up) ((State.keeps_digest _ _ _).up)

theorem State.keeps_postCqe (s : State) (f : Nat) (c : Ctx) (r : Cpl) : Keeps ⟨[.CIC_SRC_STAT, .PKP_CRED, .PMC_CNT, .PMC_CTL],
    [.cic, .evt, .hif, .out, .packs, .twn]⟩ s (s.postCqe f c r) := by
  unfold State.postCqe
  split
  · exact .refl _
  · exact .after ((State.keeps_postEntry _ _ _ _).up) ((State.keeps_setFunc _ _ _).up)

theorem State.keeps_postCapsule (s : State) (c : Ctx) (r : Cpl) : Keeps ⟨[.CIC_SRC_STAT, .PKP_CRED, .PMC_CNT, .PMC_CTL],
    [.cic, .evt, .fab, .out, .packs, .twn]⟩ s (s.postCapsule c r) := by
  unfold State.postCapsule
  split
  · exact .refl _
  · exact .after (.ite (fun _ => (State.keeps_digest _ _ _).up) fun _ => (State.keeps_emit _ _).up)
      ((Keeps.update (F := ⟨[], [.fab]⟩) (.refl _) rfl).up)

theorem State.keeps_errPut (s : State) (e : ErrEntry) : Keeps ⟨[], [.hif]⟩ s (s.errPut e) := by
  unfold State.errPut
  exact (Keeps.update (F := ⟨[], [.hif]⟩) (.refl _) rfl).up

theorem State.keeps_logError (s : State) (c : Ctx) (r : Cpl) : Keeps ⟨[], [.hif]⟩ s (s.logError c r) := by
  unfold State.logError
  exact .ite (fun _ => .refl _) fun _ => (State.keeps_errPut _ _).up

theorem State.keeps_release (s : State) (stamp : BitVec 64) : Keeps ⟨[], [.hif]⟩ s (s.release stamp) := by
  unfold State.release
  exact (Keeps.update (F := ⟨[], [.hif]⟩) (.refl _) rfl).up

/-- What `finish` may change. -/
abbrev Foot.finish : Foot :=
  ⟨[.CIC_SRC_STAT, .PKP_CRED, .PMC_CNT, .PMC_CTL], [.cic, .evt, .fab, .hif, .out, .packs, .tly, .twn]⟩

theorem State.keeps_finish (s : State) (c : Ctx) (r : Cpl) : Keeps .finish s (s.finish c r) := by
  unfold State.finish
  split
  · exact .refl _
  · extract_lets +onlyGivenNames s1
    have hs1 : Keeps .finish s s1 := .after ((State.keeps_logError _ _ _).up) (.after ((State.keeps_tallyLat _ _).up)
      ((State.keeps_release _ _).up))
    split
    · exact .after ((State.keeps_postCqe _ _ _ _).up) hs1
    · exact .after ((State.keeps_postCapsule _ _ _).up) hs1

theorem State.keeps_unchargeAll (s : State) (stamp : BitVec 64) : Keeps ⟨[.MAP_CAP_CHARGED], [.map]⟩ s (s.unchargeAll stamp) := by
  unfold State.unchargeAll
  exact .after ((Keeps.update (F := ⟨[], [.map]⟩) (.refl _) rfl).up) ((State.keeps_put _ _ _ _).up)

theorem State.keeps_postTo (typ : Nat) (info : Nat) (s : State) (t : Tenant) : Keeps ⟨[.CIC_SRC_STAT, .PKP_CRED, .PMC_CNT, .PMC_CTL],
    [.cic, .evt, .fab, .hif, .out, .packs, .tly, .twn]⟩ s (State.postTo typ info s t) := by
  unfold State.postTo
  extract_lets +onlyGivenNames c1
  split
  · exact .refl _
  · split
    · exact .after ((State.keeps_finish _ _ _).up) ((State.keeps_setCtl _ _ _).up)
    · exact .ite (fun _ => .refl _) fun _ => (State.keeps_setCtl _ _ _).up

theorem State.keeps_event (s : State) (typ : Nat) (info : Nat) (bit : Option Nat) : Keeps ⟨[.CIC_SRC_STAT, .PKP_CRED, .PMC_CNT, .PMC_CTL],
    [.cic, .evt, .fab, .hif, .out, .packs, .tly, .twn]⟩ s (s.event typ info bit) := by
  unfold State.event
  exact .foldl (fun _ _ => .ite (fun _ => (State.keeps_postTo _ _ _ _).up) fun _ => .refl _) _ _

theorem State.keeps_nsChanged (s : State) (l : List Nat) : Keeps ⟨[.CIC_SRC_STAT, .PKP_CRED, .PMC_CNT, .PMC_CTL],
    [.cic, .evt, .fab, .hif, .out, .packs, .tly, .twn]⟩ s (s.nsChanged l) := by
  unfold State.nsChanged
  exact .after ((State.keeps_event _ _ _ _).up) (.foldl (fun _ _ => (State.keeps_setCtl _ _ _).up) _ _)

theorem State.keeps_vendor (s : State) (i : Nat) : Keeps ⟨[.CIC_SRC_STAT, .PKP_CRED, .PMC_CNT, .PMC_CTL], [.cic, .evt, .fab, .hif, .out,
    .packs, .tly, .twn]⟩ s (s.vendor i) := by
  unfold State.vendor
  exact (State.keeps_event _ _ _ _).up

theorem State.keeps_critSet (s : State) (n : Nat) : Keeps ⟨[.CIC_SRC_STAT, .PKP_CRED, .PMC_CNT, .PMC_CTL], [.cic, .evt, .fab, .hif, .out,
    .packs, .tly, .twn]⟩ s (s.critSet n) := by
  unfold State.critSet
  exact .ite (fun _ => .refl _) fun _ => .after ((State.keeps_event _ _ _ _).up) ((Keeps.update (F := ⟨[], [.hif]⟩) (.refl _) rfl).up)

theorem State.keeps_critClear (s : State) (n : Nat) : Keeps ⟨[], [.hif]⟩ s (s.critClear n) := by
  unfold State.critClear
  exact (Keeps.update (F := ⟨[], [.hif]⟩) (.refl _) rfl).up

theorem State.keeps_notice (s : State) (code : Nat) (param : Nat) (detail : Nat) : Keeps ⟨[.CIC_SRC_STAT, .PKP_CRED, .PMC_CNT, .PMC_CTL],
    [.cic, .evt, .fab, .hif, .out, .packs, .tly, .twn]⟩ s (s.notice code param detail) := by
  unfold State.notice
  exact .after ((State.keeps_vendor _ _).up) ((Keeps.update (F := ⟨[], [.hif]⟩) (.refl _) rfl).up)

theorem State.keeps_fail (s : State) (c : Ctx) (sct : Nat) (sc : Nat) : Keeps ⟨[.CIC_SRC_STAT, .MAP_CAP_CHARGED, .PKP_CRED, .PMC_CNT,
    .PMC_CTL], [.cic, .evt, .fab, .hif, .map, .out, .packs, .tly, .twn]⟩ s (s.fail c sct sc) := by
  unfold State.fail
  exact .after ((State.keeps_finish _ _ _).up) ((State.keeps_unchargeAll _ _).up)

theorem State.keeps_succeed (s : State) (c : Ctx) (dw0 : BitVec 32) : Keeps ⟨[.CIC_SRC_STAT, .PKP_CRED, .PMC_CNT, .PMC_CTL],
    [.cic, .evt, .fab, .hif, .out, .packs, .tly, .twn]⟩ s (s.succeed c dw0) := by
  unfold State.succeed
  exact (State.keeps_finish _ _ _).up

/-! ### Machine/Task -/

theorem State.keeps_runTask (s : State) (t : Nat) (p : Nat) (dur : Nat) : Keeps ⟨[.CIC_SRC_STAT, .HKP_TASK], [.cic, .evt, .hkp]⟩ s
    (s.runTask t p dur) := by
  unfold State.runTask
  exact .after (.after (.ite (fun _ => .after ((State.keeps_raise _ _).up) ((State.keeps_bump _ _ _ _).up)) fun _ => .refl _)
    ((State.keeps_put _ _ _ _).up)) ((Keeps.update (F := ⟨[], [.hkp]⟩) (.refl _) rfl).up)

/-! ### Machine/Tally -/

theorem State.keeps_tallyBegin (s : State) : Keeps ⟨[], [.tly]⟩ s s.tallyBegin := by
  unfold State.tallyBegin
  exact (Keeps.update (F := ⟨[], [.tly]⟩) (.refl _) rfl).up

theorem State.keeps_tallySample (s : State) (ts : List Int) : Keeps ⟨[], [.tly]⟩ s (s.tallySample ts) := by
  unfold State.tallySample
  exact .ite (fun _ => (Keeps.update (F := ⟨[], [.tly]⟩) (.refl _) rfl).up) fun _ => .refl _

theorem State.keeps_tallyWrite (s : State) : Keeps ⟨[.CIC_SRC_STAT, .TLY_CTL, .TLY_STAT], [.cic, .evt, .nor, .snor,
    .tly]⟩ s s.tallyWrite := by
  unfold State.tallyWrite
  split
  · exact .refl _
  · exact .ite (fun _ => .refl _) fun _ => .after (.ite (fun _ => .refl _) fun _ => .after
      (.after (.ite (fun _ => .after ((State.keeps_raise _ _).up) ((State.keeps_put _ _ _ _).up)) fun _ => .refl _)
      (.ite (fun _ => .after ((State.keeps_raise _ _).up) ((State.keeps_bump _ _ _ _).up)) fun _ => (State.keeps_raise _ _).up))
      (.after ((State.keeps_put _ _ _ _).up) ((State.keeps_norWords _ _ _ _ _).up))) (.after ((State.keeps_put _ _ _ _).up)
      ((Keeps.update (F := ⟨[], [.tly]⟩) (.refl _) rfl).up))

theorem State.keeps_tallyClose (s : State) (flags : Nat) : Keeps ⟨[.CIC_SRC_STAT, .TLY_CTL, .TLY_STAT], [.cic, .evt, .nor, .snor, .tly]⟩ s
    (s.tallyClose flags) := by
  unfold State.tallyClose
  exact .after (.after ((State.keeps_raise _ _).up) (.after ((State.keeps_tallyBegin _).up)
    ((Keeps.update (F := ⟨[], [.tly]⟩) (.refl _) rfl).up))) ((State.keeps_tallyWrite _).up)

theorem State.keeps_tallyEnd (s : State) (flags : Nat) : Keeps ⟨[.CIC_SRC_STAT, .TLY_CTL, .TLY_STAT], [.cic, .evt, .nor, .snor, .tly]⟩ s
    (s.tallyEnd flags) := by
  unfold State.tallyEnd
  exact .ite (fun _ => .refl _) fun _ => .ite (fun _ => (Keeps.update (F := ⟨[], [.tly]⟩) (.refl _) rfl).up) fun _ =>
    (State.keeps_tallyClose _ _).up

theorem State.keeps_winLoad (s : State) : Keeps ⟨[.TLY_STAT], [.tly]⟩ s s.winLoad := by
  unfold State.winLoad
  exact .ite (fun _ => .refl _) fun _ => .after ((State.keeps_put _ _ _ _).up) ((Keeps.update (F := ⟨[], [.tly]⟩) (.refl _) rfl).up)

/-! ### Machine/Map -/

theorem State.keeps_setNs (s : State) (nsid : Nat) (n : Ns) : Keeps ⟨[], [.hif]⟩ s (s.setNs nsid n) := by
  unfold State.setNs
  exact (Keeps.update (F := ⟨[], [.hif]⟩) (.refl _) rfl).up

theorem State.keeps_logAdd (s : State) (r : SysRec) : Keeps ⟨[], [.conv]⟩ s (s.logAdd r) := by
  unfold State.logAdd
  exact (Keeps.update (F := ⟨[], [.conv]⟩) (.refl _) rfl).up

theorem State.keeps_healthNote (s : State) : Keeps ⟨[], [.conv, .health]⟩ s s.healthNote := by
  unfold State.healthNote
  exact .ite (fun _ => .refl _) fun _ => .after ((State.keeps_logAdd _ _).up) ((Keeps.update (F := ⟨[], [.health]⟩) (.refl _) rfl).up)

theorem State.keeps_physCheck (s : State) : Keeps ⟨[.CIC_SRC_STAT, .PKP_CRED, .PMC_CNT, .PMC_CTL], [.cic, .conv, .evt, .fab, .health, .hif,
    .out, .packs, .tly, .twn]⟩ s s.physCheck := by
  unfold State.physCheck
  exact .ite (fun _ => .refl _) fun _ => .ite (fun _ => .ite (fun _ => .after ((State.keeps_healthNote _).up)
    ((Keeps.update (F := ⟨[], [.hif]⟩) (.refl _) rfl).up)) fun _ => .refl _) fun _ => .ite (fun _ => .after ((State.keeps_healthNote _).up)
    (.after ((State.keeps_vendor _ _).up) ((Keeps.update (F := ⟨[], [.hif]⟩) (.refl _) rfl).up))) fun _ => .refl _

theorem State.keeps_setCb (s : State) (id : Nat) (c : Cb) : Keeps ⟨[], [.conv]⟩ s (s.setCb id c) := by
  unfold State.setCb
  exact (Keeps.update (F := ⟨[], [.conv]⟩) (.refl _) rfl).up

theorem State.keeps_grainsFree (s : State) (gaddr : Nat) (len : Nat) : Keeps ⟨[], [.conv, .map]⟩ s (s.grainsFree gaddr len) := by
  unfold State.grainsFree
  exact .ite (fun _ => .refl _) fun _ => .after ((Keeps.update (F := ⟨[], [.map]⟩) (.refl _) rfl).up) ((State.keeps_setCb _ _ _).up)

theorem State.keeps_closeJournal (s : State) : Keeps ⟨[], [.conv, .map]⟩ s s.closeJournal := by
  unfold State.closeJournal
  exact .ite (fun _ => .refl _) fun _ => .after ((State.keeps_logAdd _ _).up) ((Keeps.update (F := ⟨[], [.map]⟩) (.refl _) rfl).up)

theorem State.keeps_journal (s : State) (typ : Nat) (blk : Nat) (nsidx : Nat) (inst : BitVec 32) (key : Nat)
    (value : BitVec 64) : Keeps ⟨[], [.conv, .map]⟩ s (s.journal typ blk nsidx inst key value) := by
  unfold State.journal
  exact .after (.ite (fun _ => (State.keeps_closeJournal _).up) fun _ => .refl _) ((Keeps.update (F := ⟨[], [.map]⟩) (.refl _) rfl).up)

theorem State.keeps_repin (s : State) : Keeps ⟨[], [.map]⟩ s s.repin := by
  unfold State.repin
  exact (Keeps.update (F := ⟨[], [.map]⟩) (.refl _) rfl).up

theorem State.keeps_install (s : State) (mpn : Nat) : Keeps ⟨[], [.map]⟩ s (s.install mpn) := by
  unfold State.install
  exact .after ((Keeps.update (F := ⟨[], [.map]⟩) (.refl _) rfl).up) ((State.keeps_repin _).up)

theorem State.keeps_touch (s : State) (mpn : Nat) (dirty : Bool) : Keeps ⟨[], [.map]⟩ s (s.touch mpn dirty) := by
  unfold State.touch
  exact (Keeps.update (F := ⟨[], [.map]⟩) (.refl _) rfl).up

theorem State.keeps_usePage (s : State) (mpn : Nat) (dirty : Bool) : Keeps ⟨[], [.map]⟩ s (s.usePage mpn dirty) := by
  unfold State.usePage
  exact .after ((State.keeps_touch _ _ _).up) (.ite (fun _ => .refl _) fun _ => (State.keeps_install _ _).up)

theorem State.keeps_missCount (s : State) : Keeps ⟨[.CIC_SRC_STAT, .MAP_MISS_CNT, .PMC_CNT, .PMC_CTL], [.cic, .evt]⟩ s s.missCount := by
  unfold State.missCount
  exact .after ((State.keeps_pmc _ _ _ _).up) ((State.keeps_setReg _ _ _ _).up)

theorem State.keeps_startMiss (s : State) (mpn : Nat) : Keeps ⟨[.CIC_SRC_STAT, .MAP_MISS_CNT, .PMC_CNT, .PMC_CTL], [.cic, .evt, .map]⟩ s
    (s.startMiss mpn) := by
  unfold State.startMiss
  exact .ite (fun _ => .refl _) fun _ => .after ((Keeps.update (F := ⟨[], [.map]⟩) (.refl _) rfl).up) ((State.keeps_missCount _).up)

theorem State.keeps_updPage (s : State) (mpn : Nat) : Keeps ⟨[.CIC_SRC_STAT, .MAP_MISS_CNT, .PMC_CNT, .PMC_CTL], [.cic, .evt, .map]⟩ s
    (s.updPage mpn) := by
  unfold State.updPage
  exact .ite (fun _ => (State.keeps_usePage _ _ _).up) fun _ => (State.keeps_startMiss _ _).up

theorem State.keeps_queueRepack (s : State) (nsid : Nat) (bale : Nat) : Keeps ⟨[], [.map]⟩ s (s.queueRepack nsid bale) := by
  unfold State.queueRepack
  exact .ite (fun _ => .refl _) fun _ => (Keeps.update (F := ⟨[], [.map]⟩) (.refl _) rfl).up

theorem State.keeps_unqueueRepack (s : State) (nsid : Nat) (bale : Nat) : Keeps ⟨[], [.map]⟩ s (s.unqueueRepack nsid bale) := by
  unfold State.unqueueRepack
  exact .ite (fun _ => .refl _) fun _ => (Keeps.update (F := ⟨[], [.map]⟩) (.refl _) rfl).up

theorem State.keeps_ckptAdd (s : State) (u : CkUnit) : Keeps ⟨[], [.map]⟩ s (s.ckptAdd u) := by
  unfold State.ckptAdd
  exact (Keeps.update (F := ⟨[], [.map]⟩) (.refl _) rfl).up

theorem State.keeps_storePage (round : Bool) (s : State) (mpn : Nat) : Keeps ⟨[], [.map]⟩ s (State.storePage round s mpn) := by
  unfold State.storePage
  exact (State.keeps_ckptAdd _ _).up

theorem State.keeps_releaseJournal (s : State) (oldest : Nat) : Keeps ⟨[], [.conv, .map]⟩ s (s.releaseJournal oldest) := by
  unfold State.releaseJournal
  exact .after ((Keeps.update (F := ⟨[], [.map]⟩) (.refl _) rfl).up) (.foldl (fun _ _ => (State.keeps_setCb _ _ _).up) _ _)

theorem State.keeps_dropStored (s : State) (mark : Nat) : Keeps ⟨[], [.conv, .map]⟩ s (s.dropStored mark) := by
  unfold State.dropStored
  exact .after ((Keeps.update (F := ⟨[], [.map]⟩) (.refl _) rfl).up) (.foldl (fun _ _ => (State.keeps_grainsFree _ _ _).up) _ _)

theorem State.keeps_roundGo (s : State) : Keeps ⟨[], [.conv, .map]⟩ s s.roundGo := by
  unfold State.roundGo
  split
  · exact .refl _
  · exact .ite (fun _ => .refl _) fun _ => .after
      (.after (.after (.after ((State.keeps_releaseJournal _ _).up) ((State.keeps_dropStored _ _).up))
      ((State.keeps_journal _ _ _ _ _ _ _).up)) ((Keeps.update (F := ⟨[], [.map]⟩) (.refl _) rfl).up))
      (.foldl (fun _ _ => (State.keeps_grainsFree _ _ _).up) _ _)

theorem State.keeps_kstat (s : State) : Keeps ⟨[.SEC_KSTAT], []⟩ s s.kstat := by
  unfold State.kstat
  exact .after (.after (.after ((State.keeps_put _ _ _ _).up) ((State.keeps_put _ _ _ _).up)) ((State.keeps_put _ _ _ _).up))
    ((State.keeps_put _ _ _ _).up)

theorem State.keeps_setKslot (s : State) (n : Nat) (k : KeySlot) : Keeps ⟨[.SEC_KSTAT], [.keys]⟩ s (s.setKslot n k) := by
  unfold State.setKslot
  exact .after ((State.keeps_kstat _).up) ((Keeps.update (F := ⟨[], [.keys]⟩) (.refl _) rfl).up)

theorem State.keeps_rsvAdd (s : State) (ns : Ns) (add : Nat) (sub : Nat) : Keeps ⟨[.SEC_KSTAT], [.keys]⟩ s (s.rsvAdd ns add sub) := by
  unfold State.rsvAdd
  exact .ite (fun _ => (State.keeps_setKslot _ _ _).up) fun _ => .refl _

/-- What `giveBack` may change. -/
abbrev Foot.giveBack : Foot :=
  ⟨[.MAP_CAP_CHARGED, .SEC_KSTAT], [.keys, .map]⟩

theorem State.keeps_giveBack (s : State) (c : Ctx) : Keeps .giveBack s (s.giveBack c) := by
  unfold State.giveBack
  extract_lets +onlyGivenNames s1
  have hs1 : Keeps .giveBack s s1 := (State.keeps_unchargeAll _ _).up
  split
  · split
    · exact .after ((State.keeps_rsvAdd _ _ _ _).up) hs1
    · exact hs1
  · exact hs1

theorem State.keeps_pageLost (s : State) (page : Nat) : Keeps ⟨[.CIC_SRC_STAT, .MAP_CAP_CHARGED, .PKP_CRED, .PMC_CNT, .PMC_CTL, .SEC_KSTAT],
    [.cic, .evt, .fab, .hif, .keys, .map, .out, .packs, .tly, .twn]⟩ s (s.pageLost page) := by
  unfold State.pageLost
  exact .ite (fun _ => .refl _) fun _ => .foldl (fun _ _ => .after ((State.keeps_fail _ _ _ _).up) ((State.keeps_giveBack _ _).up)) _ _

theorem State.keeps_engFetch (s : State) (a1 : List (Nat × Nat)) : Keeps ⟨[.CIC_SRC_STAT, .HBC_STAT, .HBC_UELOG, .MAP_CAP_CHARGED,
    .PKP_CRED, .PMC_CNT, .PMC_CTL, .SEC_KSTAT], [.arb, .cic, .evt, .fab, .hbm, .hif, .keys, .map, .nor, .out, .packs, .snor, .tly, .twn]⟩ s
    (s.engFetch a1).1 := by
  fun_induction s.engFetch a1
  · exact .refl _
  · exact .refl _
  · exact .after ((State.keeps_pageLost _ _).up) ((State.keeps_hbcReadRun _ _ _).up)
  · rename_i ih6
    exact .after ih6 ((State.keeps_hbcReadRun _ _ _).up)

/-! ### Machine/PackCmd -/

theorem State.keeps_showPack (s : State) (n : Nat) : Keeps ⟨[.PKP_STAT], []⟩ s (s.showPack n) := by
  unfold State.showPack
  exact (State.keeps_put _ _ _ _).up

theorem State.keeps_outstUpdate (s : State) (n : Nat) : Keeps ⟨[.PKP_STAT], []⟩ s (s.outstUpdate n) := by
  unfold State.outstUpdate
  exact (State.keeps_put _ _ _ _).up

theorem State.keeps_packIssue (s : State) (n : Nat) (use : PkUse) (c : PackCmd) : Keeps ⟨[.CIC_SRC_STAT, .PKP_CRED, .PKP_CSEQ, .PKP_STAT,
    .PMC_CNT, .PMC_CTL], [.cic, .evt, .out, .packs, .twn]⟩ s (s.packIssue n use c) := by
  unfold State.packIssue
  exact .after (.after (.after ((State.keeps_emit _ _).up) (.after ((State.keeps_pmc _ _ _ _).up) ((State.keeps_pmc _ _ _ _).up)))
    (.after ((State.keeps_outstUpdate _ _).up) ((State.keeps_setPk _ _ _).up))) ((State.keeps_put _ _ _ _).up)

theorem State.keeps_wakePack (s : State) (k : Nat) : Keeps ⟨[.CIC_SRC_STAT, .PKP_CRED, .PKP_CSEQ, .PKP_CTL, .PKP_STAT, .PMC_CNT, .PMC_CTL],
    [.cic, .evt, .hkp, .out, .packs, .twn]⟩ s (s.wakePack k) := by
  unfold State.wakePack
  exact .ite (fun _ => (State.keeps_packIssue _ _ _ _).up) fun _ => .ite (fun _ => .after ((State.keeps_train _ _).up)
    ((State.keeps_put _ _ _ _).up)) fun _ => .refl _

theorem State.keeps_wakeGroup (s : State) (g : Nat) : Keeps ⟨[.CIC_SRC_STAT, .PKP_CRED, .PKP_CSEQ, .PKP_CTL, .PKP_STAT, .PMC_CNT, .PMC_CTL],
    [.cic, .evt, .hkp, .out, .packs, .twn]⟩ s (s.wakeGroup g) := by
  unfold State.wakeGroup
  exact .after (.ite (fun _ => .refl _) fun _ => .after ((State.keeps_raise _ _).up) ((Keeps.update (F := ⟨[], [.hkp]⟩) (.refl _) rfl).up))
    (.foldl (fun _ _ => (State.keeps_wakePack _ _).up) _ _)

theorem State.keeps_packSend (s : State) (n : Nat) (use : PkUse) (c : PackCmd) : Keeps ⟨[.CIC_SRC_STAT, .PKP_CRED, .PKP_CSEQ, .PKP_CTL,
    .PKP_STAT, .PMC_CNT, .PMC_CTL], [.cic, .evt, .hkp, .out, .packs, .twn]⟩ s (s.packSend n use c) := by
  unfold State.packSend
  exact .ite (fun _ => .refl _) fun _ => .after (.ite (fun _ => (State.keeps_setPk _ _ _).up) fun _ => (State.keeps_packIssue _ _ _ _).up)
    (.ite (fun _ => (State.keeps_wakeGroup _ _).up) fun _ => .refl _)

theorem State.keeps_logPage (s : State) (use : PkUse) (n : Nat) (l : List SysRec) : Keeps ⟨[.CIC_SRC_STAT, .PKP_CRED, .PKP_CSEQ, .PKP_CTL,
    .PKP_STAT, .PMC_CNT, .PMC_CTL], [.cic, .evt, .freeNo, .hkp, .out, .packs, .twn]⟩ s (s.logPage use n l) := by
  unfold State.logPage
  split
  · exact .after ((State.keeps_packSend _ _ _ _).up) ((Keeps.update (F := ⟨[], [.freeNo]⟩) (.refl _) rfl).up)
  · exact .refl _

theorem State.keeps_logCopy (s : State) (lseq : Nat) (n : Nat) : Keeps ⟨[.CIC_SRC_STAT, .PKP_CRED, .PKP_CSEQ, .PKP_CTL, .PKP_STAT, .PMC_CNT,
    .PMC_CTL], [.cic, .evt, .freeNo, .hkp, .out, .packs, .twn]⟩ s (s.logCopy lseq n) := by
  unfold State.logCopy
  exact (State.keeps_logPage _ _ _ _).up

theorem State.keeps_logGo (s : State) : Keeps ⟨[.CIC_SRC_STAT, .PKP_CRED, .PKP_CSEQ, .PKP_CTL, .PKP_STAT, .PMC_CNT, .PMC_CTL],
    [.cic, .conv, .evt, .freeNo, .hkp, .out, .packs, .twn]⟩ s s.logGo := by
  unfold State.logGo
  exact .ite (fun _ => .refl _) fun _ => .after (.foldl (fun _ _ => .foldl (fun _ _ => (State.keeps_logCopy _ _ _).up) _ _) _ _)
    ((Keeps.update (F := ⟨[], [.conv]⟩) (.refl _) rfl).up)

theorem State.keeps_logSys (s : State) (r : SysRec) : Keeps ⟨[.CIC_SRC_STAT, .PKP_CRED, .PKP_CSEQ, .PKP_CTL, .PKP_STAT, .PMC_CNT, .PMC_CTL],
    [.cic, .conv, .evt, .freeNo, .hkp, .out, .packs, .twn]⟩ s (s.logSys r) := by
  unfold State.logSys
  exact .after ((State.keeps_logGo _).up) ((State.keeps_logAdd _ _).up)

theorem State.keeps_eraseGo (s : State) : Keeps ⟨[.CIC_SRC_STAT, .PKP_CRED, .PKP_CSEQ, .PKP_CTL, .PKP_STAT, .PMC_CNT, .PMC_CTL],
    [.cic, .conv, .evt, .hkp, .out, .packs, .twn]⟩ s s.eraseGo := by
  unfold State.eraseGo
  exact .ite (fun _ => .refl _) fun _ => .after (.foldl (fun _ _ => (State.keeps_packSend _ _ _ _).up) _ _)
    ((Keeps.update (F := ⟨[], [.conv]⟩) (.refl _) rfl).up)

theorem State.keeps_logJoin (s : State) (n : Nat) : Keeps ⟨[.CIC_SRC_STAT, .PKP_CRED, .PKP_CSEQ, .PKP_CTL, .PKP_STAT, .PMC_CNT, .PMC_CTL],
    [.cic, .conv, .evt, .freeNo, .hkp, .out, .packs, .twn]⟩ s (s.logJoin n) := by
  unfold State.logJoin
  exact .ite (fun _ => .refl _) fun _ => .after (.foldl (fun _ _ => (State.keeps_logPage _ _ _ _).up) _ _)
    ((Keeps.update (F := ⟨[], [.conv]⟩) (.refl _) rfl).up)

/-- What `logLost` may change. -/
abbrev Foot.logLost : Foot :=
  ⟨[.CIC_SRC_STAT, .PKP_CRED, .PKP_CSEQ, .PKP_CTL, .PKP_STAT, .PMC_CNT, .PMC_CTL], [.cic, .conv, .evt, .freeNo, .hkp, .out, .packs, .twn]⟩

theorem State.keeps_logLost (s : State) (n : Nat) : Keeps .logLost s (s.logLost n) := by
  unfold State.logLost
  split
  · exact .refl _
  · extract_lets +onlyGivenNames mine1 s2 s3
    have hs3 : Keeps .logLost s s3 := (Keeps.update (F := ⟨[], [.conv]⟩) (.refl _) rfl).up
    extract_lets +onlyGivenNames s4 s5
    have hs5 : Keeps .logLost s s5 := by
      unfold s5
      split
      · exact hs3
      · exact .after (.after (.foldl (fun _ _ => (State.keeps_logCopy _ _ _).up) _ _)
          ((Keeps.update (F := ⟨[], [.conv]⟩) (.refl _) rfl).up)) (.after ((State.keeps_logJoin _ _).up) hs3)
    exact .after ((State.keeps_eraseGo _).up) (.after (Keeps.update (F := ⟨[], [.conv]⟩) (.refl _) rfl).up hs5)

theorem State.keeps_healthSave (s : State) : Keeps ⟨[.CIC_SRC_STAT, .PKP_CRED, .PKP_CSEQ, .PKP_CTL, .PKP_STAT, .PMC_CNT, .PMC_CTL],
    [.cic, .conv, .evt, .freeNo, .health, .hkp, .out, .packs, .twn]⟩ s s.healthSave := by
  unfold State.healthSave
  exact .after ((State.keeps_logGo _).up) ((State.keeps_healthNote _).up)

theorem State.keeps_roJudge (s : State) : Keeps ⟨[.CIC_SRC_STAT, .PKP_CRED, .PKP_CSEQ, .PKP_CTL, .PKP_STAT, .PMC_CNT, .PMC_CTL],
    [.cic, .conv, .evt, .fab, .freeNo, .health, .hif, .hkp, .out, .packs, .tly, .twn]⟩ s s.roJudge := by
  unfold State.roJudge
  exact .ite (fun _ => .refl _) fun _ => .after (.after ((State.keeps_healthSave _).up)
    (.ite (fun _ => .after ((State.keeps_critSet _ _).up) (.after ((State.keeps_nsChanged _ _).up)
    ((Keeps.update (F := ⟨[], [.health]⟩) (.refl _) rfl).up))) fun _ => .ite (fun _ => .after ((State.keeps_critClear _ _).up)
    ((Keeps.update (F := ⟨[], [.health]⟩) (.refl _) rfl).up)) fun _ => .refl _))
    (.ite (fun _ => (Keeps.update (F := ⟨[], [.health]⟩) (.refl _) rfl).up) fun _ => .refl _)

theorem State.keeps_resJudge (s : State) (k : Nat) : Keeps ⟨[.CIC_SRC_STAT, .PKP_CRED, .PMC_CNT, .PMC_CTL], [.cic, .evt, .fab, .health,
    .hif, .out, .packs, .tly, .twn]⟩ s (s.resJudge k) := by
  unfold State.resJudge
  exact .ite (fun _ => .refl _) fun _ => .after (.after (.ite (fun _ => .ite (fun _ => (State.keeps_critSet _ _).up) fun _ =>
    (State.keeps_critClear _ _).up) fun _ => .refl _) (.ite (fun _ => .refl _) fun _ => (State.keeps_vendor _ _).up))
    ((Keeps.update (F := ⟨[], [.health]⟩) (.refl _) rfl).up)

theorem State.keeps_judge (s : State) : Keeps ⟨[.CIC_SRC_STAT, .PKP_CRED, .PKP_CSEQ, .PKP_CTL, .PKP_STAT, .PMC_CNT, .PMC_CTL],
    [.cic, .conv, .evt, .fab, .freeNo, .health, .hif, .hkp, .out, .packs, .tly, .twn]⟩ s s.judge := by
  unfold State.judge
  exact .after ((State.keeps_roJudge _).up) (.after ((State.keeps_physCheck _).up) (.foldl (fun _ _ => (State.keeps_resJudge _ _).up) _ _))

theorem State.keeps_recomputeU (s : State) : Keeps ⟨[.CIC_SRC_STAT, .MAP_CAP_USABLE, .PKP_CRED, .PKP_CSEQ, .PKP_CTL, .PKP_STAT, .PMC_CNT,
    .PMC_CTL], [.cic, .conv, .evt, .fab, .freeNo, .health, .hif, .hkp, .out, .packs, .tly, .twn]⟩ s s.recomputeU := by
  unfold State.recomputeU
  exact .after ((State.keeps_judge _).up) (.ite (fun _ => .refl _) fun _ => (State.keeps_put _ _ _ _).up)

/-! ### Machine/Place -/

theorem State.keeps_sendRead (s : State) (use : PkUse) (c : Cb) (m : Nat) (page : Nat) (mask : Nat) : Keeps ⟨[.CIC_SRC_STAT, .PKP_CRED,
    .PKP_CSEQ, .PKP_CTL, .PKP_STAT, .PMC_CNT, .PMC_CTL], [.cic, .evt, .hkp, .out, .packs, .twn]⟩ s (s.sendRead use c m page mask) := by
  unfold State.sendRead
  split
  · exact (State.keeps_packSend _ _ _ _).up
  · exact .refl _

theorem State.keeps_readPage (s : State) (use : PkUse) (cbid : Nat) (page : Nat) (m : Nat) (mask : Nat) : Keeps ⟨[.CIC_SRC_STAT, .PKP_CRED,
    .PKP_CSEQ, .PKP_CTL, .PKP_STAT, .PMC_CNT, .PMC_CTL], [.cic, .evt, .hkp, .out, .packs, .twn]⟩ s (s.readPage use cbid page m mask) := by
  unfold State.readPage
  extract_lets +onlyGivenNames c1
  split
  · exact .refl _
  · exact .ite (fun _ => (State.keeps_sendRead _ _ _ _ _ _).up) fun _ => .ite (fun _ => .refl _) fun _ => .foldl
      (fun _ _ => (State.keeps_sendRead _ _ _ _ _ _).up) _ _

theorem State.keeps_flightGo (s : State) (cbid : Nat) : Keeps ⟨[.CIC_SRC_STAT, .PKP_CRED, .PKP_CSEQ, .PKP_CTL, .PKP_STAT, .PMC_CNT,
    .PMC_CTL], [.cic, .conv, .evt, .hkp, .out, .packs, .twn]⟩ s (s.flightGo cbid) := by
  unfold State.flightGo
  exact .ite (fun _ => .refl _) fun _ => .after (.foldl (fun _ _ => .foldl (fun _ _ => (State.keeps_packSend _ _ _ _).up) _ _) _ _)
    ((Keeps.update (F := ⟨[], [.conv]⟩) (.refl _) rfl).up)

theorem State.keeps_eraseOne (s : State) (use : PkUse) (n : Nat) (d : Nat) (b : Nat) : Keeps ⟨[.CIC_SRC_STAT, .PKP_CRED, .PKP_CSEQ,
    .PKP_CTL, .PKP_STAT, .PMC_CNT, .PMC_CTL], [.cic, .conv, .evt, .freeNo, .hkp, .out, .packs, .twn]⟩ s (s.eraseOne use n d b) := by
  unfold State.eraseOne
  exact .after (.after (.after ((State.keeps_eraseGo _).up) ((Keeps.update (F := ⟨[], [.conv]⟩) (.refl _) rfl).up))
    ((State.keeps_logSys _ _).up)) ((Keeps.update (F := ⟨[], [.conv]⟩) (.refl _) rfl).up)

theorem State.keeps_forget (s : State) (cbid : Nat) : Keeps ⟨[], [.conv, .map]⟩ s (s.forget cbid) := by
  unfold State.forget
  exact (Keeps.update (F := ⟨[], [.map, .conv]⟩) (.refl _) rfl).up

theorem State.keeps_freeIfErased (s : State) (cbid : Nat) : Keeps ⟨[.CIC_SRC_STAT, .PKP_CRED, .PKP_CSEQ, .PKP_CTL, .PKP_STAT, .PMC_CNT,
    .PMC_CTL], [.cic, .conv, .evt, .freeNo, .hkp, .map, .out, .packs, .twn]⟩ s (s.freeIfErased cbid) := by
  unfold State.freeIfErased
  exact .ite (fun _ => .after (.after ((State.keeps_logSys _ _).up) (.after ((State.keeps_forget _ _).up) ((State.keeps_setCb _ _ _).up)))
    ((Keeps.update (F := ⟨[], [.conv]⟩) (.refl _) rfl).up)) fun _ => .refl _

theorem State.keeps_endRebuild (s : State) (cbid : Nat) : Keeps ⟨[.CIC_SRC_STAT, .PKP_CRED, .PKP_CSEQ, .PKP_CTL, .PKP_STAT, .PMC_CNT,
    .PMC_CTL], [.cic, .conv, .evt, .freeNo, .hkp, .out, .packs, .twn]⟩ s (s.endRebuild cbid) := by
  unfold State.endRebuild
  split
  · exact .refl _
  · exact .ite (fun _ => .refl _) fun _ => .after (.ite (fun _ => (State.keeps_eraseOne _ _ _ _ _).up) fun _ => .refl _)
      ((Keeps.update (F := ⟨[], [.conv]⟩) (.refl _) rfl).up)

theorem State.keeps_addPoisoned (s : State) (nsid : Nat) (slba : Nat) (nblk : Nat) (cause : Nat) (left : List Nat) : Keeps ⟨[], [.hif]⟩ s
    (s.addPoisoned nsid slba nblk cause left) := by
  unfold State.addPoisoned
  exact (Keeps.update (F := ⟨[], [.hif]⟩) (.refl _) rfl).up

theorem State.keeps_recordPoisoned (s : State) (blocks : List (Nat × Nat)) (cause : Nat) : Keeps ⟨[.CIC_SRC_STAT, .PKP_CRED, .PMC_CNT,
    .PMC_CTL], [.cic, .evt, .fab, .hif, .out, .packs, .tly, .twn]⟩ s (s.recordPoisoned blocks cause) := by
  unfold State.recordPoisoned
  exact .after (.ite (fun _ => .refl _) fun _ => (State.keeps_vendor _ _).up)
    (.foldl (fun _ _ => .foldl (fun _ _ => (State.keeps_addPoisoned _ _ _ _ _ _).up) _ _) _ _)

theorem State.keeps_poisonEntry (s : State) (nsid : Nat) (bale : Nat) : Keeps ⟨[.CIC_SRC_STAT, .MAP_MISS_CNT, .PMC_CNT, .PMC_CTL],
    [.cic, .conv, .evt, .map]⟩ s (s.poisonEntry nsid bale) := by
  unfold State.poisonEntry
  exact .after (.after ((State.keeps_unqueueRepack _ _ _).up) (.after ((State.keeps_updPage _ _).up)
    ((State.keeps_journal _ _ _ _ _ _ _).up))) ((Keeps.update (F := ⟨[], [.map]⟩) (.refl _) rfl).up)

theorem State.keeps_poisonPatch (s : State) (nsid : Nat) (bale : Nat) (blk : Nat) : Keeps ⟨[.CIC_SRC_STAT, .MAP_MISS_CNT, .PMC_CNT,
    .PMC_CTL], [.cic, .conv, .evt, .map]⟩ s (s.poisonPatch nsid bale blk) := by
  unfold State.poisonPatch
  split
  · exact .refl _
  · exact .after (.after ((State.keeps_updPage _ _).up) ((State.keeps_journal _ _ _ _ _ _ _).up))
      ((Keeps.update (F := ⟨[], [.map]⟩) (.refl _) rfl).up)

theorem State.keeps_poisonWhere (s : State) (hit : Nat → Nat → Bool) (cause : Nat) : Keeps ⟨[.CIC_SRC_STAT, .MAP_MISS_CNT, .PKP_CRED,
    .PMC_CNT, .PMC_CTL], [.cic, .conv, .evt, .fab, .hif, .map, .out, .packs, .tly, .twn]⟩ s (s.poisonWhere hit cause) := by
  unfold State.poisonWhere
  exact .after (.after ((State.keeps_recordPoisoned _ _ _).up) (.foldl (fun _ _ => (State.keeps_poisonPatch _ _ _ _).up) _ _))
    (.foldl (fun _ _ => (State.keeps_poisonEntry _ _ _).up) _ _)

theorem State.keeps_poisonLost (s : State) (cbid : Nat) : Keeps ⟨[.CIC_SRC_STAT, .MAP_MISS_CNT, .PKP_CRED, .PMC_CNT, .PMC_CTL],
    [.cic, .conv, .evt, .fab, .hif, .map, .out, .packs, .tly, .twn]⟩ s (s.poisonLost cbid) := by
  unfold State.poisonLost
  exact .ite (fun _ => .refl _) fun _ => (State.keeps_poisonWhere _ _ _).up

theorem State.keeps_copyPages (s : State) (cbid : Nat) (n : Nat) : Keeps ⟨[.CIC_SRC_STAT, .PKP_CRED, .PKP_CSEQ, .PKP_CTL, .PKP_STAT,
    .PMC_CNT, .PMC_CTL], [.cic, .conv, .evt, .hkp, .out, .packs, .twn]⟩ s (s.copyPages cbid n) := by
  unfold State.copyPages
  exact .foldl (fun _ _ => .after ((Keeps.update (F := ⟨[], [.conv]⟩) (.refl _) rfl).up) ((State.keeps_readPage _ _ _ _ _ _).up)) _ _

theorem State.keeps_copyAll (s : State) (cbid : Nat) : Keeps ⟨[.CIC_SRC_STAT, .PKP_CRED, .PKP_CSEQ, .PKP_CTL, .PKP_STAT, .PMC_CNT,
    .PMC_CTL], [.cic, .conv, .evt, .hkp, .out, .packs, .twn]⟩ s (s.copyAll cbid) := by
  unfold State.copyAll
  exact .ite (fun _ => (State.keeps_copyPages _ _ _).up) fun _ => .refl _

theorem State.keeps_copyAgain (s : State) (l : List Placed) : Keeps ⟨[.CIC_SRC_STAT, .PKP_CRED, .PKP_CSEQ, .PKP_CTL, .PKP_STAT, .PMC_CNT,
    .PMC_CTL], [.cic, .conv, .evt, .hkp, .out, .packs, .twn]⟩ s (s.copyAgain l) := by
  unfold State.copyAgain
  exact .after (.foldl (fun _ _ => (State.keeps_copyAll _ _).up) _ _) ((Keeps.update (F := ⟨[], [.conv]⟩) (.refl _) rfl).up)

theorem State.keeps_unplace (s : State) (cbid : Nat) (l : List Nat) : Keeps ⟨[], [.conv, .map]⟩ s (s.unplace cbid l) := by
  unfold State.unplace
  exact .after ((State.keeps_setCb _ _ _).up) ((Keeps.update (F := ⟨[], [.map]⟩) (.refl _) rfl).up)

theorem State.keeps_dropFlights (s : State) (cbid : Nat) : Keeps ⟨[.CIC_SRC_STAT, .PKP_CRED, .PKP_CSEQ, .PKP_CTL, .PKP_STAT, .PMC_CNT,
    .PMC_CTL], [.arb, .cic, .conv, .evt, .hbm, .hkp, .map, .mem, .out, .packs, .twn]⟩ s (s.dropFlights cbid) := by
  unfold State.dropFlights
  exact .after (.after ((State.keeps_copyAgain _ _).up) (.after ((State.keeps_unplace _ _ _).up)
    ((Keeps.update (F := ⟨[], [.conv]⟩) (.refl _) rfl).up))) (.foldl (fun _ _ => (State.keeps_engWrite _ _ _).up) _ _)

theorem State.keeps_closeBlock (s : State) (cbid : Nat) (page : Nat) : Keeps ⟨[.CIC_SRC_STAT, .PKP_CRED, .PKP_CSEQ, .PKP_CTL, .PKP_STAT,
    .PMC_CNT, .PMC_CTL], [.cic, .conv, .evt, .freeNo, .hkp, .out, .packs, .twn]⟩ s (s.closeBlock cbid page) := by
  unfold State.closeBlock
  exact .after ((State.keeps_logSys _ _).up) ((State.keeps_setCb _ _ _).up)

theorem State.keeps_loseMember (s : State) (cbid : Nat) (m : Nat) : Keeps ⟨[.CIC_SRC_STAT, .MAP_MISS_CNT, .PKP_CRED, .PKP_CSEQ, .PKP_CTL,
    .PKP_STAT, .PMC_CNT, .PMC_CTL], [.arb, .cic, .conv, .evt, .fab, .freeNo, .hbm, .hif, .hkp, .map, .mem, .out, .packs, .tly, .twn]⟩ s
    (s.loseMember cbid m) := by
  unfold State.loseMember
  extract_lets +onlyGivenNames c1
  split
  · exact .refl _
  · exact .ite (fun _ => .refl _) fun _ => .after (.after (.after (.after ((State.keeps_poisonLost _ _).up) ((State.keeps_setCb _ _ _).up))
      (.after ((State.keeps_copyAgain _ _).up) ((Keeps.update (F := ⟨[], [.conv]⟩) (.refl _) rfl).up)))
      (.ite (fun _ => .after ((State.keeps_closeBlock _ _ _).up) ((State.keeps_dropFlights _ _).up)) fun _ => .refl _))
      (.after ((State.keeps_logSys _ _).up) ((State.keeps_setCb _ _ _).up))

theorem State.keeps_loseWhere (s : State) (p : Member → Bool) : Keeps ⟨[.CIC_SRC_STAT, .MAP_MISS_CNT, .PKP_CRED, .PKP_CSEQ, .PKP_CTL,
    .PKP_STAT, .PMC_CNT, .PMC_CTL], [.arb, .cic, .conv, .evt, .fab, .freeNo, .hbm, .hif, .hkp, .map, .mem, .out, .packs, .tly, .twn]⟩ s
    (s.loseWhere p) := by
  unfold State.loseWhere
  exact .foldl (fun _ _ => (State.keeps_loseMember _ _ _).up) _ _

/-! ### Machine/Convoy -/

theorem State.keeps_queueRepacks (s : State) (cbid : Nat) : Keeps ⟨[], [.map]⟩ s (s.queueRepacks cbid) := by
  unfold State.queueRepacks
  exact .foldl (fun _ _ => .ite (fun _ => .refl _) fun _ => (State.keeps_queueRepack _ _ _).up) _ _

theorem State.keeps_dropRebuild (s : State) (p : Member → Bool) : Keeps ⟨[.CIC_SRC_STAT, .PKP_CRED, .PKP_CSEQ, .PKP_CTL, .PKP_STAT,
    .PMC_CNT, .PMC_CTL], [.cic, .conv, .evt, .freeNo, .hkp, .out, .packs, .twn]⟩ s (s.dropRebuild p) := by
  unfold State.dropRebuild
  split
  · exact .refl _
  · exact .ite (fun _ => (Keeps.update (F := ⟨[], [.conv]⟩) (.refl _) rfl).up) fun _ => .ite
      (fun _ => (State.keeps_endRebuild _ _).up) fun _ => .refl _

/-! ### Machine/Round -/

theorem State.keeps_storePatches (s : State) (r : CkRound) : Keeps ⟨[], [.map]⟩ s (s.storePatches r) := by
  unfold State.storePatches
  exact .foldl (fun _ _ => (State.keeps_ckptAdd _ _).up) _ _

theorem State.keeps_storeTables (s : State) (mark : Nat) : Keeps ⟨[], [.map]⟩ s (s.storeTables mark) := by
  unfold State.storeTables
  exact .after (.foldl (fun _ _ => (State.keeps_ckptAdd _ _).up) _ _) (.foldl (fun _ _ => (State.keeps_ckptAdd _ _).up) _ _)

theorem keeps_checkpointAll (s : State) : Keeps ⟨[], [.conv, .map]⟩ s (checkpointAll s) := by
  unfold checkpointAll
  exact .ite (fun _ => .refl _) fun _ => .after (.after ((State.keeps_roundGo _).up) (.after ((State.keeps_storeTables _ _).up)
    (.after ((State.keeps_storePatches _ _).up) (.foldl (fun _ _ => (State.keeps_storePage _ _ _).up) _ _))))
    ((Keeps.update (F := ⟨[], [.map]⟩) (.refl _) rfl).up)

/-! ### Machine/Media -/

theorem State.keeps_idWriteStart (s : State) (n : Nat) : Keeps ⟨[.CIC_SRC_STAT, .PKP_CRED, .PKP_CSEQ, .PKP_CTL, .PKP_STAT, .PMC_CNT,
    .PMC_CTL], [.cic, .evt, .hkp, .out, .packs, .twn]⟩ s (s.idWriteStart n) := by
  unfold State.idWriteStart
  exact .ite (fun _ => (State.keeps_setPk _ _ _).up) fun _ => .after ((State.keeps_packSend _ _ _ _).up) ((State.keeps_setPk _ _ _).up)

theorem State.keeps_idUpdate (s : State) (n : Nat) (i : PackId) : Keeps ⟨[.CIC_SRC_STAT, .PKP_CRED, .PKP_CSEQ, .PKP_CTL, .PKP_STAT,
    .PMC_CNT, .PMC_CTL], [.cic, .evt, .hkp, .out, .packs, .twn]⟩ s (s.idUpdate n i) := by
  unfold State.idUpdate
  exact .after (.ite (fun _ => (State.keeps_idWriteStart _ _).up) fun _ => (State.keeps_setPk _ _ _).up) ((State.keeps_setPk _ _ _).up)

/-! ### Machine/Flow -/

theorem State.keeps_flushOne (s : State) (c : Ctx) : Keeps ⟨[.CIC_SRC_STAT, .PKP_CRED, .PMC_CNT, .PMC_CTL], [.cic, .evt, .fab, .hif, .out,
    .packs, .tly, .twn]⟩ s (s.flushOne c) := by
  unfold State.flushOne
  split
  · exact .ite (fun _ => (State.keeps_succeed _ _ _).up) fun _ => .refl _
  · exact .refl _

theorem State.keeps_detachOne (s : State) (c : Ctx) : Keeps ⟨[.CIC_SRC_STAT, .PKP_CRED, .PMC_CNT, .PMC_CTL], [.cic, .evt, .fab, .hif, .out,
    .packs, .tly, .twn]⟩ s (s.detachOne c) := by
  unfold State.detachOne
  split
  · extract_lets +onlyGivenNames busy1
    split
    · exact .refl _
    · split
      · exact (State.keeps_succeed _ _ _).up
      · exact .after ((State.keeps_succeed _ _ _).up) ((State.keeps_setNs _ _ _).up)
  · exact .refl _

theorem State.keeps_shutdownOne (s : State) (f : Nat) : Keeps ⟨[.CIC_SRC_STAT, .CSTS, .TLY_CTL, .TLY_STAT], [.cic, .evt, .nor, .pow, .snor,
    .tly]⟩ s (s.shutdownOne f) := by
  unfold State.shutdownOne
  exact .ite (fun _ => .refl _) fun _ => .after ((Keeps.update (F := ⟨[], [.pow]⟩) (.refl _) rfl).up)
    (.after ((State.keeps_tallyEnd _ _).up) ((State.keeps_put _ _ _ _).up))

theorem State.keeps_rotateOne (s : State) (nsid : Nat) : Keeps ⟨[], [.hif, .keys]⟩ s (s.rotateOne nsid) := by
  unfold State.rotateOne
  split
  · exact .refl _
  · split
    · exact .refl _
    · exact .ite (fun _ => .refl _) fun _ => .after ((Keeps.update (F := ⟨[], [.keys]⟩) (.refl _) rfl).up) ((State.keeps_setNs _ _ _).up)

theorem State.keeps_eraseHalf (s : State) (h : Nat) : Keeps ⟨[.CIC_SRC_STAT, .PKP_CRED, .PKP_CSEQ, .PKP_CTL, .PKP_STAT, .PMC_CNT, .PMC_CTL],
    [.cic, .conv, .evt, .freeNo, .hkp, .out, .packs, .twn]⟩ s (s.eraseHalf h) := by
  unfold State.eraseHalf
  refine .foldl (fun u1 x2 => ?_) _ _
  split
  · exact .refl _
  · refine .foldl (fun u3 x4 => ?_) _ _
    refine .foldl (fun u5 x6 => ?_) _ _
    split
    · exact (State.keeps_eraseOne _ _ _ _ _).up
    · exact .refl _

/-- What `releaseHalf` may change. -/
abbrev Foot.releaseHalf : Foot :=
  ⟨[.CIC_SRC_STAT, .PKP_CRED, .PKP_CSEQ, .PKP_CTL, .PKP_STAT, .PMC_CNT, .PMC_CTL], [.cic, .conv, .evt, .freeNo, .hkp, .out, .packs, .pow,
    .twn]⟩

theorem State.keeps_releaseHalf (s : State) : Keeps .releaseHalf s s.releaseHalf := by
  unfold State.releaseHalf
  split
  · exact .refl _
  · split
    · exact .refl _
    · extract_lets +onlyGivenNames left1 s2 s3
      have hs3 : Keeps .releaseHalf s s3 := .ite (fun _ => (Keeps.update (F := ⟨[], [.pow]⟩) (.refl _) rfl).up) fun _ => .refl _
      split
      · exact hs3
      · exact .ite (fun _ => hs3) fun _ => .after (.foldl (fun _ _ => .after ((State.keeps_eraseHalf _ _).up)
          ((State.keeps_logSys _ _).up)) _ _) (.after (Keeps.update (F := ⟨[], [.pow]⟩) (.refl _) rfl).up hs3)

theorem State.keeps_journalDue (s : State) : Keeps ⟨[], [.conv, .map]⟩ s s.journalDue := by
  unfold State.journalDue
  exact .ite (fun _ => (keeps_checkpointAll _).up) fun _ => .refl _

theorem State.keeps_dormantGo (s : State) : Keeps ⟨[.CIC_SRC_STAT, .CPM_PSTATE, .HBC_INIT, .TLY_CTL, .TLY_STAT],
    [.cic, .evt, .hkp, .nor, .pow, .snor, .tly]⟩ s s.dormantGo := by
  unfold State.dormantGo
  exact .ite (fun _ => .refl _) fun _ => .after (.after ((Keeps.update (F := ⟨[], [.hkp, .pow]⟩) (.refl _) rfl).up)
    ((State.keeps_put _ _ _ _).up)) (.after ((State.keeps_put _ _ _ _).up) ((State.keeps_tallyEnd _ _).up))

theorem State.keeps_flow (s : State) : Keeps ⟨[.CIC_SRC_STAT, .CPM_PSTATE, .CSTS, .HBC_INIT, .PKP_CRED, .PKP_CSEQ, .PKP_CTL, .PKP_STAT,
    .PMC_CNT, .PMC_CTL, .TLY_CTL, .TLY_STAT], [.cic, .conv, .evt, .fab, .freeNo, .hif, .hkp, .keys, .map, .nor, .out, .packs, .pow, .snor,
    .tly, .twn]⟩ s s.flow := by
  unfold State.flow
  exact .after (.after (.after (.after (.after (.after ((State.keeps_dormantGo _).up) ((State.keeps_releaseHalf _).up))
    (.foldl (fun _ _ => (State.keeps_shutdownOne _ _).up) _ _)) (.foldl (fun _ _ => (State.keeps_rotateOne _ _).up) _ _))
    (.foldl (fun _ _ => (State.keeps_detachOne _ _).up) _ _)) (.foldl (fun _ _ => (State.keeps_flushOne _ _).up) _ _))
    (.after ((State.keeps_journalDue _).up) ((State.keeps_logGo _).up))

/-! ### Machine/Mbx -/

theorem State.keeps_putAll (s : State) (f : Fld) (x : Nat) : Keeps ⟨[f.reg], []⟩ s (s.putAll f x) :=
  .foldl (fun s _ => s.keeps_put f _ x) _ _

theorem State.keeps_useToken (s : State) (m : Msg) : Keeps ⟨[], [.mbx]⟩ s (s.useToken m) := by
  unfold State.useToken
  exact (Keeps.update (F := ⟨[], [.mbx]⟩) (.refl _) rfl).up

theorem State.keeps_setReply (s : State) (c : Nat) (r : Reply) (replayed : Bool) : Keeps ⟨[], [.mbx]⟩ s (s.setReply c r replayed) := by
  unfold State.setReply
  exact (Keeps.update (F := ⟨[], [.mbx]⟩) (.refl _) rfl).up

theorem State.keeps_answer (s : State) (op : Nat) (m : Msg) (here : Bool) (code : Nat) (detail : Nat) (body : Bytes)
    (more : Bool) : Keeps ⟨[.CIC_SRC_STAT, .PKP_CRED, .PMC_CNT, .PMC_CTL], [.cic, .evt, .mbx, .out, .packs, .twn]⟩ s
    (s.answer op m here code detail body more) := by
  unfold State.answer
  exact .after (.after (.ite (fun _ => .ite (fun _ => (State.keeps_send _ _).up) fun _ => .refl _) fun _ => .ite
    (fun _ => (State.keeps_emit _ _).up) fun _ => (State.keeps_digest _ _ _).up) (.ite (fun _ => (State.keeps_setReply _ _ _ _).up) fun _ =>
    .refl _)) ((Keeps.update (F := ⟨[], [.mbx]⟩) (.refl _) rfl).up)

theorem State.keeps_done (s : State) (op : Nat) (m : Msg) (a : Arrival) (body : Bytes) (more : Bool) : Keeps ⟨[.CIC_SRC_STAT, .PKP_CRED,
    .PMC_CNT, .PMC_CTL], [.cic, .evt, .mbx, .out, .packs, .twn]⟩ s (s.done op m a body more) := by
  unfold State.done
  exact (State.keeps_answer _ _ _ _ _ _ _ _).up

theorem State.keeps_refuse (s : State) (op : Nat) (m : Msg) (a : Arrival) (code : Nat) (detail : Nat) : Keeps ⟨[.CIC_SRC_STAT, .PKP_CRED,
    .PMC_CNT, .PMC_CTL], [.cic, .evt, .mbx, .out, .packs, .twn]⟩ s (s.refuse op m a code detail) := by
  unfold State.refuse
  exact (State.keeps_answer _ _ _ _ _ _ _ _).up

theorem State.keeps_replay (s : State) (op : Nat) (m : Msg) (a : Arrival) : Keeps ⟨[], [.mbx, .out]⟩ s (s.replay op m a) := by
  unfold State.replay
  exact .ite (fun _ => .after ((State.keeps_send _ _).up) ((State.keeps_setReply _ _ _ _).up)) fun _ => .refl _

theorem State.keeps_mailUnknown (s : State) (m : Msg) (a : Arrival) : Keeps ⟨[.CIC_SRC_STAT, .PKP_CRED, .PMC_CNT, .PMC_CTL],
    [.cic, .evt, .mbx, .out, .packs, .twn]⟩ s (s.mailUnknown m a) := by
  unfold State.mailUnknown
  exact .ite (fun _ => .refl _) fun _ => .ite (fun _ => (State.keeps_replay _ _ _ _).up) fun _ => .ite
    (fun _ => (State.keeps_refuse _ _ _ _ _ _).up) fun _ => (State.keeps_refuse _ _ _ _ _ _).up

theorem State.keeps_answerWaits (s : State) (op : Nat) (what : Nat) (arg : Nat) (code : Nat) (detail : Nat)
    (body : Bytes) : Keeps ⟨[.CIC_SRC_STAT, .PKP_CRED, .PMC_CNT, .PMC_CTL], [.cic, .evt, .mbx, .out, .packs, .twn]⟩ s
    (s.answerWaits op what arg code detail body) := by
  unfold State.answerWaits
  exact .after (.foldl (fun _ _ => (State.keeps_answer _ _ _ _ _ _ _ _).up) _ _) ((Keeps.update (F := ⟨[], [.mbx]⟩) (.refl _) rfl).up)

/-! ### Machine/Link -/

theorem State.keeps_setLnk (s : State) (l : Link) (x : Lnk) : Keeps ⟨[], [.packs, .twn]⟩ s (s.setLnk l x) := by
  unfold State.setLnk
  split
  · exact (State.keeps_setPk _ _ _).up
  · exact (Keeps.update (F := ⟨[], [.twn]⟩) (.refl _) rfl).up

theorem State.keeps_releaseHeld (s : State) : Keeps ⟨[.CIC_SRC_STAT, .PKP_CRED, .PMC_CNT, .PMC_CTL], [.cic, .evt, .out, .packs,
    .twn]⟩ s s.releaseHeld := by
  unfold State.releaseHeld
  exact .ite (fun _ => .refl _) fun _ => .after (.foldl (fun _ _ => (State.keeps_issue _ _).up) _ _)
    ((Keeps.update (F := ⟨[], [.twn]⟩) (.refl _) rfl).up)

theorem State.keeps_pkRaise (s : State) (n : Nat) : Keeps ⟨[.CIC_SRC_STAT], [.cic, .evt]⟩ s (s.pkRaise n) := by
  unfold State.pkRaise
  exact (State.keeps_raise _ _).up

/-- What `pkBit` may change. -/
abbrev Foot.pkBit : Foot :=
  ⟨[.PKP_STAT, .CIC_SRC_STAT], [.evt, .cic]⟩

theorem State.keeps_pkBit (s : State) (f : Fld) (n : Nat) (h : f.reg = .PKP_STAT := by rfl) :
    Keeps .pkBit s (s.pkBit f n) := by
  have hput : Keeps .pkBit s (s.put f n 1) := (s.keeps_put f n 1).up (by rw [h]; decide +kernel)
  exact .ite (fun _ => .refl s) fun _ => .after (State.keeps_pkRaise _ _).up hput

theorem State.keeps_setPkState (s : State) (n : Nat) (st : Nat) : Keeps ⟨[.PKP_STAT], [.packs]⟩ s (s.setPkState n st) := by
  unfold State.setPkState
  exact .after ((State.keeps_showPack _ _).up) ((State.keeps_setPk _ _ _).up)

theorem State.keeps_setSide (s : State) (n : Nat) (x : Nat) : Keeps ⟨[.PKP_STAT], [.packs]⟩ s (s.setSide n x) := by
  unfold State.setSide
  exact .after ((State.keeps_showPack _ _).up) ((State.keeps_setPk _ _ _).up)

theorem State.keeps_capture {F : Foot} (s : State) (e : LEntry) (f : State → State) (hf : ∀ u, Keeps F u (f u))
    (hF : Foot.le ⟨[.CIC_SRC_STAT, .PMC_CNT, .PMC_CTL, .TWN_LINK, .TWN_STAT], [.arb, .cic, .evt, .hbm, .keys, .mem, .out,
    .twn]⟩ F = true) : Keeps F s (s.capture e f) := by
  unfold State.capture
  exact .ite (fun _ => .ite (fun _ => ((Keeps.update (F := ⟨[], [.twn]⟩) (.refl _) rfl).within hF)) fun _ => .refl _) fun _ => .ite
    (fun _ => .after (.after (((State.keeps_raise _ _).within hF)) (((State.keeps_put _ _ _ _).within hF)))
    (((Keeps.update (F := ⟨[], [.twn]⟩) (.refl _) rfl).within hF))) fun _ => .after (hf _)
    (.after (((State.keeps_ringDeliver _ _).within hF)) (.ite (fun _ => ((State.keeps_recordPut _ _).within hF)) fun _ => .refl _))

theorem State.keeps_keepCapsule (s : State) (e : LEntry) (c : Capsule) : Keeps ⟨[], [.twn]⟩ s (s.keepCapsule e c) := by
  unfold State.keepCapsule
  exact .ite (fun _ => (Keeps.update (F := ⟨[], [.twn]⟩) (.refl _) rfl).up) fun _ => .refl _

theorem State.keeps_peerTell (s : State) (e : LEntry) : Keeps ⟨[.CIC_SRC_STAT, .TWN_LINK], [.cic, .evt, .keys, .out, .twn]⟩ s
    (s.peerTell e) := by
  unfold State.peerTell
  exact .ite (fun _ => (State.keeps_twinSend _ _ _ _).up) fun _ => .refl _

theorem State.keeps_ackSome (s : State) (l : Link) (k : Nat) : Keeps ⟨[], [.out, .packs, .twn]⟩ s (s.ackSome l k) := by
  unfold State.ackSome
  exact .after ((State.keeps_control _ _ _ _ _ _).up) (.after ((State.keeps_control _ _ _ _ _ _).up) ((State.keeps_setLnk _ _ _).up))

/-- What `accepted` may change. -/
abbrev Foot.accepted : Foot :=
  ⟨[.CIC_SRC_STAT, .PMC_CNT, .PMC_CTL], [.cic, .evt, .out, .packs, .twn]⟩

theorem State.keeps_accepted (s : State) (l : Link) (k : Nat) : Keeps .accepted s (s.accepted l k) := by
  unfold State.accepted
  extract_lets +onlyGivenNames s1
  have hs1 : Keeps .accepted s s1 := .foldl (fun _ _ => (State.keeps_ackSome _ _ _).up) _ _
  split
  · rename_i h2 h3
    exact .after ((State.keeps_pmc _ _ _ _).up) hs1
  · rename_i h4
    exact hs1

theorem State.keeps_twinIn (s : State) (n : Nat) : Keeps ⟨[.CIC_SRC_STAT, .PMC_CNT, .PMC_CTL], [.cic, .evt, .out, .packs, .twn]⟩ s
    (s.twinIn n) := by
  unfold State.twinIn
  exact .after ((State.keeps_accepted _ _ _).up) ((Keeps.update (F := ⟨[], [.twn]⟩) (.refl _) rfl).up)

/-! ### Machine/Chan -/

/-- What `giveMi` may change. -/
abbrev Foot.giveMi : Foot :=
  ⟨[.CIC_SRC_STAT, .PKP_CRED, .PMC_CNT, .PMC_CTL], [.cic, .evt, .fab, .hif, .out, .packs, .tly, .twn]⟩

theorem State.keeps_giveMi (s : State) : Keeps .giveMi s s.giveMi := by
  unfold State.giveMi
  split
  · exact .refl _
  · extract_lets +onlyGivenNames s1 s2
    have hs2 : Keeps .giveMi s s2 := (Keeps.update (F := ⟨[], [.hif]⟩) (.refl _) rfl).up
    split
    · exact hs2
    · split
      · exact .after ((State.keeps_succeed _ _ _).up) (.after ((State.keeps_emit _ _).up) hs2)
      · exact .after ((State.keeps_succeed _ _ _).up) hs2

theorem State.keeps_resetChans (s : State) (f : Nat) : Keeps ⟨[.MBX_CSR, .MBX_INT], [.mbx]⟩ s (s.resetChans f) := by
  unfold State.resetChans
  exact .after ((Keeps.update (F := ⟨[], [.mbx]⟩) (.refl _) rfl).up) (.foldl (fun _ _ => .after ((State.keeps_setReg _ _ _ _).up)
    ((State.keeps_setReg _ _ _ _).up)) _ _)

/-! ### Machine/Cph -/

theorem State.keeps_secStop (s : State) (code : Nat) : Keeps ⟨[.CIC_SRC_STAT, .MAP_CAP_CHARGED, .PKP_CRED, .PMC_CNT, .PMC_CTL, .SEC_MODE],
    [.arb, .cic, .evt, .fab, .hif, .map, .out, .packs, .tly, .twn]⟩ s (s.secStop code) := by
  unfold State.secStop
  exact .after
    (.after (.after (.after ((State.keeps_raise _ _).up) (.after ((State.keeps_setFault _ _).up) ((State.keeps_setFault _ _).up)))
    (.foldl (fun _ _ => (State.keeps_fail _ _ _ _).up) _ _)) ((Keeps.update (F := ⟨[], [.hif]⟩) (.refl _) rfl).up))
    (.after ((State.keeps_put _ _ _ _).up) ((State.keeps_put _ _ _ _).up))

theorem State.keeps_cphCores (s : State) : Keeps ⟨[.CPH_STAT], []⟩ s s.cphCores := by
  unfold State.cphCores
  exact (State.keeps_put _ _ _ _).up

theorem State.keeps_cphFault (s : State) (n : Nat) : Keeps ⟨[.CIC_SRC_STAT, .CPH_CORE_CTL, .CPH_CORE_STAT, .CPH_STAT, .PKP_CRED, .PKP_CSEQ,
    .PKP_CTL, .PKP_STAT, .PMC_CNT, .PMC_CTL], [.cic, .conv, .evt, .fab, .freeNo, .health, .hif, .hkp, .out, .packs, .tly, .twn]⟩ s
    (s.cphFault n) := by
  unfold State.cphFault
  exact .after (.after ((State.keeps_judge _).up) (.after ((State.keeps_raise _ _).up) ((State.keeps_cphCores _).up)))
    (.after ((State.keeps_put _ _ _ _).up) (.after ((State.keeps_bump _ _ _ _).up) ((State.keeps_put _ _ _ _).up)))

theorem State.keeps_takeNonce (s : State) (n : Nat) : Keeps ⟨[.SEC_KSTAT], [.keys]⟩ s (s.takeNonce n) := by
  unfold State.takeNonce
  exact (State.keeps_setKslot _ _ _).up

theorem State.keeps_invFail (s : State) (run : CphRun) : Keeps ⟨[.CIC_SRC_STAT, .CPH_CORE_CTL, .CPH_CORE_STAT, .CPH_STAT, .PKP_CRED,
    .PKP_CSEQ, .PKP_CTL, .PKP_STAT, .PMC_CNT, .PMC_CTL], [.cic, .conv, .evt, .fab, .freeNo, .health, .hif, .hkp, .out, .packs, .tly,
    .twn]⟩ s (s.invFail run) := by
  unfold State.invFail
  exact .ite (fun _ => .refl _) fun _ => .after (.ite (fun _ => (State.keeps_cphFault _ _).up) fun _ => .refl _)
    ((State.keeps_bump _ _ _ _).up)

theorem State.keeps_cphFetch (s : State) (op : Nat) (r : Nat) (d : CphDesc) : Keeps ⟨[.CIC_SRC_STAT, .HBC_STAT, .HBC_UELOG,
    .MAP_CAP_CHARGED, .PKP_CRED, .PMC_CNT, .PMC_CTL, .SEC_KSTAT], [.arb, .cic, .evt, .fab, .hbm, .hif, .keys, .map, .nor, .out, .packs,
    .snor, .tly, .twn]⟩ s (s.cphFetch op r d).1 := by
  unfold State.cphFetch
  split
  · exact .refl _
  · exact (State.keeps_engFetch _ _).up

theorem State.keeps_cphWrite (s : State) (op : Nat) (d : CphDesc) (e : CphEnd) : Keeps ⟨[], [.arb, .hbm, .mem]⟩ s (s.cphWrite op d e) := by
  unfold State.cphWrite
  exact .after (.ite (fun _ => (State.keeps_engWrite _ _ _).up) fun _ => .refl _) ((State.keeps_engWrite _ _ _).up)

theorem State.keeps_cphTake (s : State) (op : Nat) (r : Nat) (d : CphDesc) (run : CphRun) : Keeps ⟨[.CIC_SRC_STAT, .CMP_RING_CFG,
    .CPH_CORE_CTL, .CPH_CORE_STAT, .CPH_RING_CFG, .CPH_RING_PTR, .CPH_STAT, .CVY_RING_CFG, .HBC_STAT, .HBC_UELOG, .MAP_CAP_CHARGED,
    .MAP_QCTL, .PKP_CRED, .PKP_CSEQ, .PKP_CTL, .PKP_STAT, .PMC_CNT, .PMC_CTL, .PTR_DONE, .PTR_STAT, .SEC_KSTAT], [.arb, .cic, .conv, .evt,
    .fab, .freeNo, .hbm, .health, .hif, .hkp, .keys, .map, .mem, .nor, .out, .packs, .snor, .tly, .twn]⟩ s (s.cphTake op r d run) := by
  unfold State.cphTake
  exact .after (.after (.after (.after (.after (.after ((State.keeps_complete _ _).up) ((State.keeps_pmc _ _ _ _).up))
    (.ite (fun _ => (State.keeps_pmc _ _ _ _).up) fun _ => .refl _)) (.ite (fun _ => (State.keeps_invFail _ _).up) fun _ => .refl _))
    ((State.keeps_cphWrite _ _ _ _).up)) (.ite (fun _ => (State.keeps_takeNonce _ _).up) fun _ => .refl _))
    (.after ((State.keeps_pmc _ _ _ _).up) (.after ((State.keeps_put _ _ _ _).up) ((State.keeps_cphFetch _ _ _ _).up)))

theorem State.keeps_installKey (s : State) (n : Nat) (mat : Bytes) : Keeps ⟨[.SEC_KSTAT], [.keys]⟩ s (s.installKey n mat) := by
  unfold State.installKey
  exact (State.keeps_setKslot _ _ _).up

/-! ### Machine/Key -/

theorem State.keeps_xferSend (s : State) (slot : Nat) (gen : BitVec 32) (alg : Nat) (mat : Bytes) : Keeps ⟨[.CIC_SRC_STAT, .TWN_LINK],
    [.cic, .evt, .keys, .out, .twn]⟩ s (s.xferSend slot gen alg mat) := by
  unfold State.xferSend
  exact .after ((State.keeps_twinSend _ _ _ _).up) ((Keeps.update (F := ⟨[], [.keys]⟩) (.refl _) rfl).up)

/-- What `makeKey` may change. -/
abbrev Foot.makeKey : Foot :=
  ⟨[.CIC_SRC_STAT, .SEC_KSTAT, .TWN_LINK], [.cic, .evt, .freeNo, .keys, .out, .twn]⟩

theorem State.keeps_makeKey (s : State) (n : Nat) : Keeps .makeKey s (s.makeKey n) := by
  unfold State.makeKey
  extract_lets +onlyGivenNames alg1
  split
  · extract_lets +onlyGivenNames x2 s3 s4
    have hs4 : Keeps .makeKey s s4 := (Keeps.update (F := ⟨[], [.keys]⟩) (.refl _) rfl).up
    split
    · exact .after (.after ((State.keeps_setKslot _ _ _).up) ((State.keeps_installKey _ _ _).up))
        (.after (Keeps.update (F := ⟨[], [.keys]⟩) (.refl _) rfl).up hs4)
    · exact .after (Keeps.update (F := ⟨[], [.keys]⟩) (.refl _) rfl).up hs4
  · exact .after (.ite (fun _ => (State.keeps_xferSend _ _ _ _ _).up) fun _ => .refl _) (.after ((State.keeps_installKey _ _ _).up)
      ((Keeps.update (F := ⟨[], [.freeNo]⟩) (.refl _) rfl).up))

theorem State.keeps_leadValue (s : State) (b : Bytes) : Keeps ⟨[.CIC_SRC_STAT, .PMC_CNT, .PMC_CTL, .TWN_LINK],
    [.arb, .cic, .evt, .hbm, .keys, .mem, .out, .twn]⟩ s (s.leadValue b) := by
  unfold State.leadValue
  exact (State.keeps_record _ _).up

theorem State.keeps_exportPart (s : State) (m : Msg) (a : Arrival) (off : Nat) : Keeps ⟨[.CIC_SRC_STAT, .PKP_CRED, .PMC_CNT, .PMC_CTL],
    [.cic, .evt, .mbx, .out, .packs, .twn]⟩ s (s.exportPart m a off) := by
  unfold State.exportPart
  exact .ite (fun _ => (State.keeps_refuse _ _ _ _ _ _).up) fun _ => (State.keeps_done _ _ _ _ _ _).up

/-! ### Machine/Admin -/

theorem State.keeps_takeCtx (s : State) (t : Tenant) (sqid : Nat) (admin : Bool) (cid : BitVec 16) (opcode : BitVec 8)
    (nsid : Nat) : Keeps ⟨[.CIC_SRC_STAT, .PMC_CNT, .PMC_CTL], [.cic, .evt, .hif]⟩ s (s.takeCtx t sqid admin cid opcode nsid) := by
  unfold State.takeCtx
  exact .after (.after (.after (.after (.ite (fun _ => (State.keeps_raise _ _).up) fun _ => .refl _)
    (.ite (fun _ => (State.keeps_raise _ _).up) fun _ => .refl _)) ((State.keeps_pmc _ _ _ _).up)) ((State.keeps_pmc _ _ _ _).up))
    ((Keeps.update (F := ⟨[], [.hif]⟩) (.refl _) rfl).up)

theorem State.keeps_takeTurn (s : State) (i : Nat) : Keeps ⟨[], [.hif]⟩ s (s.takeTurn i) := by
  unfold State.takeTurn
  exact .ite (fun _ => (Keeps.update (F := ⟨[], [.hif]⟩) (.refl _) rfl).up) fun _ => (Keeps.update (F := ⟨[], [.hif]⟩) (.refl _) rfl).up

theorem State.keeps_dropTenant (s : State) (t : Tenant) : Keeps ⟨[.MAP_CAP_CHARGED, .SEC_KSTAT], [.hif, .keys, .map]⟩ s
    (s.dropTenant t) := by
  unfold State.dropTenant
  exact .foldl (fun _ _ => .after ((State.keeps_release _ _).up) ((State.keeps_giveBack _ _).up)) _ _

theorem State.keeps_makeAdmin (s : State) (f : Nat) : Keeps ⟨[], [.hif]⟩ s (s.makeAdmin f) := by
  unfold State.makeAdmin
  exact (State.keeps_setFunc _ _ _).up

theorem State.keeps_confirmSlot (s : State) : Keeps ⟨[], [.fw, .nor, .sgen, .snor]⟩ s s.confirmSlot := by
  unfold State.confirmSlot
  exact .ite (fun _ => .refl _) fun _ => (State.keeps_selWrite _ _).up

theorem State.keeps_readyNow (s : State) (f : Nat) : Keeps ⟨[.CSTS], [.fw, .nor, .sgen, .snor]⟩ s (s.readyNow f) := by
  unfold State.readyNow
  exact .ite (fun _ => .after (.ite (fun _ => (State.keeps_confirmSlot _).up) fun _ => .refl _) ((State.keeps_put _ _ _ _).up)) fun _ =>
    .refl _

theorem State.keeps_writeCc (s : State) (f : Nat) (cc : BitVec 32) (en : Nat) : Keeps ⟨[.CC], []⟩ s (s.writeCc f cc en) := by
  unfold State.writeCc
  exact .after ((State.keeps_put _ _ _ _).up) ((State.keeps_setReg _ _ _ _).up)

theorem State.keeps_resetFunc (s : State) (f : Nat) : Keeps ⟨[.CC, .CSTS, .HIF_TWNSTAT, .MAP_CAP_CHARGED, .SEC_KSTAT],
    [.fw, .hif, .keys, .map, .twn]⟩ s (s.resetFunc f) := by
  unfold State.resetFunc
  exact .after
    (.after (.after
    (.after (.after (.after ((State.keeps_put _ _ _ _).up) (.after ((State.keeps_put _ _ _ _).up) ((State.keeps_put _ _ _ _).up)))
    (.ite (fun _ => (Keeps.update (F := ⟨[], [.fw]⟩) (.refl _) rfl).up) fun _ => .refl _)) ((State.keeps_setReg _ _ _ _).up))
    ((Keeps.update (F := ⟨[], [.twn]⟩) (.refl _) rfl).up)) ((Keeps.update (F := ⟨[], [.hif]⟩) (.refl _) rfl).up))
    ((State.keeps_dropTenant _ _).up)

theorem State.keeps_endAssoc (s : State) (a : Nat) : Keeps ⟨[.MAP_CAP_CHARGED, .SEC_KSTAT], [.fab, .hif, .keys, .map]⟩ s
    (s.endAssoc a) := by
  unfold State.endAssoc
  exact .after ((Keeps.update (F := ⟨[], [.fab]⟩) (.refl _) rfl).up) ((State.keeps_dropTenant _ _).up)

/-! ### Machine/Pack -/

theorem State.keeps_sendTemp (s : State) (n : Nat) : Keeps ⟨[.CIC_SRC_STAT, .PKP_CRED, .PKP_CSEQ, .PKP_CTL, .PKP_STAT, .PMC_CNT, .PMC_CTL],
    [.cic, .evt, .hkp, .out, .packs, .twn]⟩ s (s.sendTemp n) := by
  unfold State.sendTemp
  exact (State.keeps_packSend _ _ _ _).up

theorem State.keeps_enterService (s : State) (n : Nat) : Keeps ⟨[.CIC_SRC_STAT, .MAP_CAP_USABLE, .PKP_CRED, .PKP_CSEQ, .PKP_CTL, .PKP_STAT,
    .PMC_CNT, .PMC_CTL], [.cic, .conv, .evt, .fab, .freeNo, .health, .hif, .hkp, .out, .packs, .tly, .twn]⟩ s (s.enterService n) := by
  unfold State.enterService
  split
  · exact .refl _
  · exact .after (.after (.after ((State.keeps_recomputeU _).up) (.after ((State.keeps_logJoin _ _).up) ((State.keeps_idUpdate _ _ _).up)))
      (.ite (fun _ => (State.keeps_setPk _ _ _).up) fun _ => .after ((State.keeps_setPkState _ _ _).up) ((State.keeps_setPk _ _ _).up)))
      ((Keeps.update (F := ⟨[], [.conv]⟩) (.refl _) rfl).up)

theorem State.keeps_eraseAllBlocks (s : State) (n : Nat) (i : PackId) : Keeps ⟨[.CIC_SRC_STAT, .PKP_CRED, .PKP_CSEQ, .PKP_CTL, .PKP_STAT,
    .PMC_CNT, .PMC_CTL], [.cic, .conv, .evt, .freeNo, .hkp, .out, .packs, .twn]⟩ s (s.eraseAllBlocks n i) := by
  unfold State.eraseAllBlocks
  exact .foldl (fun _ _ => .foldl (fun _ _ => .ite (fun _ => .refl _) fun _ => (State.keeps_eraseOne _ _ _ _ _).up) _ _) _ _

theorem State.keeps_adopt (s : State) (n : Nat) (i : PackId) : Keeps ⟨[], [.conv, .packs]⟩ s (s.adopt n i) := by
  unfold State.adopt
  exact .after ((State.keeps_setPk _ _ _).up) ((Keeps.update (F := ⟨[], [.conv]⟩) (.refl _) rfl).up)

theorem State.keeps_admitPack (s : State) (n : Nat) : Keeps ⟨[.CIC_SRC_STAT, .MAP_CAP_USABLE, .PKP_CRED, .PKP_CSEQ, .PKP_CTL, .PKP_STAT,
    .PMC_CNT, .PMC_CTL], [.cic, .conv, .evt, .fab, .freeNo, .health, .hif, .hkp, .out, .packs, .tly, .twn]⟩ s (s.admitPack n) := by
  unfold State.admitPack
  split
  · exact .refl _
  · exact .ite (fun _ => .refl _) fun _ => .ite (fun _ => (State.keeps_setPkState _ _ _).up) fun _ => .ite
      (fun _ => .ite (fun _ => .refl _) fun _ => .after ((State.keeps_eraseAllBlocks _ _ _).up) (.after ((State.keeps_setPk _ _ _).up)
      ((State.keeps_adopt _ _ _).up))) fun _ => .after ((State.keeps_enterService _ _).up) ((State.keeps_adopt _ _ _).up)

theorem State.keeps_forgetErases (s : State) (n : Nat) : Keeps ⟨[.CIC_SRC_STAT, .PKP_CRED, .PKP_CSEQ, .PKP_CTL, .PKP_STAT, .PMC_CNT,
    .PMC_CTL], [.cic, .conv, .evt, .freeNo, .hkp, .map, .out, .packs, .twn]⟩ s (s.forgetErases n) := by
  unfold State.forgetErases
  exact .after (.foldl (fun _ _ => (State.keeps_freeIfErased _ _).up) _ _) ((Keeps.update (F := ⟨[], [.conv]⟩) (.refl _) rfl).up)

theorem State.keeps_useReserve (s : State) (lost : Nat) : Keeps ⟨[.CIC_SRC_STAT, .MAP_CAP_USABLE, .PKP_CRED, .PKP_CSEQ, .PKP_CTL, .PKP_STAT,
    .PMC_CNT, .PMC_CTL], [.cic, .conv, .evt, .fab, .freeNo, .health, .hif, .hkp, .out, .packs, .setv, .sgen, .tly, .twn]⟩ s
    (s.useReserve lost) := by
  unfold State.useReserve
  split
  · exact .refl _
  · exact .after ((State.keeps_admitPack _ _).up) (.after ((State.keeps_sgenUp _).up)
      ((Keeps.update (F := ⟨[], [.setv]⟩) (.refl _) rfl).up))

theorem State.keeps_markGone (s : State) (n : Nat) : Keeps ⟨[], [.conv]⟩ s (s.markGone n) := by
  unfold State.markGone
  split
  · exact .ite (fun _ => .refl _) fun _ => (Keeps.update (F := ⟨[], [.conv]⟩) (.refl _) rfl).up
  · exact .refl _

/-- What the loss of a pack may change. -/
abbrev Foot.packLost : Foot :=
  ⟨[.CIC_SRC_STAT, .CPM_PSTATE, .CSTS, .HBC_INIT, .MAP_CAP_USABLE, .MAP_MISS_CNT, .PKP_CRED, .PKP_CSEQ, .PKP_CTL, .PKP_STAT, .PMC_CNT,
      .PMC_CTL, .TLY_CTL, .TLY_STAT],
    [.arb, .cic, .conv, .evt, .fab, .freeNo, .fw, .hbm, .health, .hif, .hkp, .keys, .map, .mem, .nor, .out, .packs, .pow, .setv, .sgen,
      .snor, .tly, .twn]⟩

theorem State.keeps_packLost (s : State) (n : Nat) : Keeps .packLost s (s.packLost n) := by
  unfold State.packLost
  refine .ite (fun _ => .refl s) fun _ => ?_
  extract_lets +onlyGivenNames p was l s1 s2 s3 cut f s4 s5 s6
  have h1 : Keeps .packLost s s1 := (State.keeps_setPk _ _ _).up
  have h2 : Keeps .packLost s1 s2 := .after (State.keeps_outstUpdate _ _).up (.after (State.keeps_setPkState _ _ _).up
    (.ite (fun _ => (State.keeps_markGone _ _).up) fun _ => .refl _))
  have h3 : Keeps .packLost s2 s3 := .ite (fun _ => (State.keeps_put _ _ _ _).up) fun _ => .refl _
  have hfw (x : State) : Keeps ⟨[], [.fw]⟩ x { x with fw := { x.fw with upd := x.fw.upd.map cut } } := .update (.refl _) rfl
  clear_value s1 s2 s3
  have h4 : Keeps .packLost s3 s4 := (hfw s3).up
  clear_value s4
  have h5 : Keeps .packLost s4 s5 := .after (State.keeps_forgetErases _ _).up (.after (State.keeps_dropRebuild _ _).up
    (State.keeps_loseWhere _ _).up)
  have h6 : Keeps .packLost s5 s6 := .after (State.keeps_logLost _ _).up (State.keeps_recomputeU _).up
  clear_value s5 s6
  have hs := h1.trans (h2.trans (h3.trans (h4.trans (h5.trans h6))))
  exact .ite (fun _ => .after (State.keeps_flow _).up (.after (State.keeps_useReserve _ _).up hs)) fun _ => hs

/-! ### Machine/Fabric -/

theorem State.keeps_errJudge (s : State) (qpn : Nat) : Keeps ⟨[.CIC_SRC_STAT, .CPM_PSTATE, .CSTS, .HBC_INIT, .MAP_CAP_CHARGED, .PKP_CRED,
    .PKP_CSEQ, .PKP_CTL, .PKP_STAT, .PMC_CNT, .PMC_CTL, .SEC_KSTAT, .TLY_CTL, .TLY_STAT], [.cic, .conv, .evt, .fab, .freeNo, .hif, .hkp,
    .keys, .map, .nor, .out, .packs, .pow, .snor, .tly, .twn]⟩ s (s.errJudge qpn) := by
  unfold State.errJudge
  split
  · exact .refl _
  · exact .ite (fun _ => .after ((State.keeps_flow _).up) ((State.keeps_endAssoc _ _).up)) fun _ => .refl _

theorem State.keeps_tellCapsule (s : State) (k : Capsule) : Keeps ⟨[.CIC_SRC_STAT, .TWN_LINK], [.cic, .evt, .keys, .out, .twn]⟩ s
    (s.tellCapsule k) := by
  unfold State.tellCapsule
  split
  · exact .ite (fun _ => (State.keeps_peerTell _ _).up) fun _ => .refl _
  · exact .refl _

/-! ### Machine/Clock -/

theorem State.keeps_tsBand (s : State) (i : Nat) (t : Int) : Keeps ⟨[.CIC_SRC_STAT, .HKP_TS], [.cic, .evt, .hkp]⟩ s (s.tsBand i t) := by
  unfold State.tsBand
  exact .ite (fun _ => .after ((State.keeps_raise _ _).up) (.after ((State.keeps_put _ _ _ _).up)
    ((Keeps.update (F := ⟨[], [.hkp]⟩) (.refl _) rfl).up))) fun _ => .ite (fun _ => .ite (fun _ => .after ((State.keeps_raise _ _).up)
    (.after ((State.keeps_put _ _ _ _).up) ((Keeps.update (F := ⟨[], [.hkp]⟩) (.refl _) rfl).up))) fun _ =>
    (Keeps.update (F := ⟨[], [.hkp]⟩) (.refl _) rfl).up) fun _ => (Keeps.update (F := ⟨[], [.hkp]⟩) (.refl _) rfl).up

theorem State.keeps_tsRead (s : State) (e : Int × Nat) : Keeps ⟨[.CIC_SRC_STAT, .HKP_TS], [.cic, .evt, .hkp]⟩ s (s.tsRead e) := by
  unfold State.tsRead
  exact .ite (fun _ => .refl _) fun _ => .after ((State.keeps_tsBand _ _ _).up) ((State.keeps_put _ _ _ _).up)

theorem State.keeps_supRead (s : State) (e : Nat × Nat) : Keeps ⟨[.CIC_SRC_STAT, .HKP_SUP], [.cic, .evt, .hkp]⟩ s (s.supRead e) := by
  unfold State.supRead
  exact .ite (fun _ => .refl _) fun _ => .after
    (.after (.ite (fun _ => .after ((State.keeps_raise _ _).up) ((State.keeps_put _ _ _ _).up)) fun _ => .refl _)
    ((Keeps.update (F := ⟨[], [.hkp]⟩) (.refl _) rfl).up)) ((State.keeps_put _ _ _ _).up)

theorem State.keeps_judgeTemp (s : State) : Keeps ⟨[.CIC_SRC_STAT, .PKP_CRED, .PMC_CNT, .PMC_CTL], [.cic, .evt, .fab, .hif, .out, .packs,
    .tly, .twn]⟩ s s.judgeTemp := by
  unfold State.judgeTemp
  exact .ite (fun _ => .refl _) fun _ => .after (.ite (fun _ => (State.keeps_critSet _ _).up) fun _ => (State.keeps_critClear _ _).up)
    (.after ((State.keeps_raise _ _).up) ((Keeps.update (F := ⟨[], [.hif]⟩) (.refl _) rfl).up))

theorem State.keeps_sendTemps (s : State) : Keeps ⟨[.CIC_SRC_STAT, .PKP_CRED, .PKP_CSEQ, .PKP_CTL, .PKP_STAT, .PMC_CNT, .PMC_CTL],
    [.cic, .evt, .hkp, .out, .packs, .twn]⟩ s s.sendTemps := by
  unfold State.sendTemps
  exact .foldl (fun _ _ => (State.keeps_sendTemp _ _).up) _ _

theorem State.keeps_keepSample (s : State) (ts : List Int) (sup : List Nat) : Keeps ⟨[], [.hkp]⟩ s (s.keepSample ts sup) := by
  unfold State.keepSample
  exact (Keeps.update (F := ⟨[], [.hkp]⟩) (.refl _) rfl).up

theorem State.keeps_useSample (ts : List Int) (sup : List Nat) (s : State) : Keeps ⟨[.CIC_SRC_STAT, .PKP_CRED, .PKP_CSEQ, .PKP_CTL,
    .PKP_STAT, .PMC_CNT, .PMC_CTL], [.cic, .evt, .fab, .hif, .hkp, .out, .packs, .tly, .twn]⟩ s (State.useSample ts sup s) := by
  unfold State.useSample
  exact .after ((State.keeps_sendTemps _).up) (.after ((State.keeps_judgeTemp _).up) ((State.keeps_keepSample _ _ _).up))

theorem State.keeps_laneOn (s : State) (n : Nat) : Keeps ⟨[.PKP_CTL, .PKP_STAT], [.hkp, .out, .packs]⟩ s (s.laneOn n) := by
  unfold State.laneOn
  exact .after ((State.keeps_train _ _).up) (.after ((State.keeps_put _ _ _ _).up) ((State.keeps_setSide _ _ _).up))

theorem State.keeps_laneTry (s : State) (n : Nat) : Keeps ⟨[.PKP_CTL, .PKP_STAT], [.hkp, .out, .packs]⟩ s (s.laneTry n) := by
  unfold State.laneTry
  split
  · exact .refl _
  · exact .ite (fun _ => (State.keeps_laneOn _ _).up) fun _ => .ite (fun _ => .refl _) fun _ => .after ((State.keeps_setPkState _ _ _).up)
      ((State.keeps_setSide _ _ _).up)

theorem State.keeps_presence (n : Nat) (present : Bool) (s : State) : Keeps ⟨[.CIC_SRC_STAT, .CPM_PSTATE, .CSTS, .HBC_INIT, .MAP_CAP_USABLE,
    .MAP_MISS_CNT, .PKP_CRED, .PKP_CSEQ, .PKP_CTL, .PKP_STAT, .PMC_CNT, .PMC_CTL, .TLY_CTL, .TLY_STAT], [.arb, .cic, .conv, .evt, .fab,
    .freeNo, .fw, .hbm, .health, .hif, .hkp, .keys, .map, .mem, .nor, .out, .packs, .pow, .setv, .sgen, .snor, .tly, .twn]⟩ s
    (State.presence n present s) := by
  unfold State.presence
  exact .after (.ite (fun _ => .ite (fun _ => .after (.ite (fun _ => (State.keeps_laneOn _ _).up) fun _ => (State.keeps_laneTry _ _).up)
    ((State.keeps_setSide _ _ _).up)) fun _ => .refl _) fun _ => .after (.ite (fun _ => (State.keeps_packLost _ _).up) fun _ => .ite
    (fun _ => .refl _) fun _ => (State.keeps_setPkState _ _ _).up) (.after ((State.keeps_setPk _ _ _).up) ((State.keeps_put _ _ _ _).up)))
    ((State.keeps_pkBit _ _ _).up)

/-- What `pollPort` may change. -/
abbrev Foot.pollPort : Foot :=
  ⟨[.CIC_SRC_STAT, .CPM_PSTATE, .CSTS, .HBC_INIT, .HKP_I2C, .MAP_CAP_USABLE, .MAP_MISS_CNT, .PKP_CRED, .PKP_CSEQ, .PKP_CTL, .PKP_STAT,
    .PMC_CNT, .PMC_CTL, .TLY_CTL, .TLY_STAT, .TWN_LINK, .TWN_STAT], [.arb, .cic, .conv, .evt, .fab, .freeNo, .fw, .hbm, .health, .hif, .hkp,
    .keys, .map, .mem, .nor, .out, .packs, .pow, .setv, .sgen, .snor, .tly, .twn]⟩

theorem State.keeps_pollPort (ack : BitVec 32) (types : Tbl (BitVec 32)) (s : State) (n : Nat) : Keeps .pollPort s
    (State.pollPort ack types s n) := by
  unfold State.pollPort
  extract_lets +onlyGivenNames bus1 was2 now3
  split
  · extract_lets +onlyGivenNames s4 s5
    have hs5 : Keeps .pollPort s s5 := (Keeps.update (F := ⟨[], [.hkp]⟩) (.refl _) rfl).up
    split
    · exact .after (.ite (fun _ => (State.keeps_laneTry _ _).up) fun _ => .refl _)
        (.ite (fun _ => .after ((State.keeps_setPk _ _ _).up) hs5) fun _ => hs5)
    · exact hs5
  · exact .after (.ite (fun _ => (Keeps.update (F := ⟨[], [.hkp]⟩) (.refl _) rfl).up) fun _ => .after
      (.after (State.keeps_capture _ _ _ (fun _ => (State.keeps_presence _ _ _).up) (by decide +kernel)) ((State.keeps_put _ _ _ _).up))
      ((Keeps.update (F := ⟨[], [.hkp]⟩) (.refl _) rfl).up)) (.ite (fun _ => (State.keeps_bump _ _ _ _).up) fun _ => .refl _)

theorem State.keeps_pollBus (stuck : BitVec 8) (s : State) (b : Nat) : Keeps ⟨[.CIC_SRC_STAT, .HKP_I2C], [.cic, .evt]⟩ s
    (State.pollBus stuck s b) := by
  unfold State.pollBus
  exact .after (.ite (fun _ => .after ((State.keeps_raise _ _).up) ((State.keeps_bump _ _ _ _).up)) fun _ => .refl _)
    ((State.keeps_put _ _ _ _).up)

/-! ### Machine/Power -/

theorem State.keeps_leaveDrowse (s : State) : Keeps ⟨[.CPM_DOM_STAT, .CPM_PSTATE], [.hkp]⟩ s s.leaveDrowse := by
  unfold State.leaveDrowse
  exact .after (.after (.foldl (fun _ _ => (State.keeps_put _ _ _ _).up) _ _) ((Keeps.update (F := ⟨[], [.hkp]⟩) (.refl _) rfl).up))
    ((State.keeps_put _ _ _ _).up)

theorem State.keeps_keepDump (s : State) (d : Dump) : Keeps ⟨[], [.pow]⟩ s (s.keepDump d) := by
  unfold State.keepDump
  exact (Keeps.update (F := ⟨[], [.pow]⟩) (.refl _) rfl).up

/-! ### Machine/Boot -/

theorem State.keeps_applySetting (s : State) (id : Nat) (index : Nat) : Keeps ⟨[.MAP_CACHE_CFG, .MAP_PTAB_CFG, .PKP_CTL, .TWN_CTL],
    [.twn]⟩ s (s.applySetting id index) := by
  unfold State.applySetting
  extract_lets +onlyGivenNames v1
  split
  · exact (State.keeps_put _ _ _ _).up
  · exact (State.keeps_put _ _ _ _).up
  · exact (State.keeps_put _ _ _ _).up
  · exact .after (.ite (fun _ => .ite (fun _ => .refl _) fun _ => (Keeps.update (F := ⟨[], [.twn]⟩) (.refl _) rfl).up) fun _ =>
      (Keeps.update (F := ⟨[], [.twn]⟩) (.refl _) rfl).up) ((State.keeps_put _ _ _ _).up)
  · exact (State.keeps_put _ _ _ _).up
  · exact .refl _

/-! ### Machine/Ledger -/

theorem State.keeps_sideCmd (s : State) (use : PkUse) (opc : Nat) (side : Nat) : Keeps ⟨[.CIC_SRC_STAT, .PKP_CRED, .PKP_CSEQ, .PKP_CTL,
    .PKP_STAT, .PMC_CNT, .PMC_CTL], [.cic, .evt, .hkp, .out, .packs, .twn]⟩ s (s.sideCmd use opc side) := by
  unfold State.sideCmd
  exact .foldl (fun _ _ => .after ((State.keeps_packIssue _ _ _ _).up) (.ite (fun _ => (State.keeps_wakeGroup _ _).up) fun _ =>
    .refl _)) _ _

/-! ### Machine/Arb -/

theorem State.keeps_arbLost (s : State) (b : Bool) : Keeps ⟨[.CIC_SRC_STAT, .HIF_TWNSTAT, .PKP_CRED, .PMC_CNT, .PMC_CTL, .TWN_LINK],
    [.arb, .cic, .evt, .fab, .hbm, .hif, .keys, .mem, .out, .packs, .tly, .twn]⟩ s (s.arbLost b) := by
  unfold State.arbLost
  exact .after (.ite (fun _ => .after ((State.keeps_vendor _ _).up) ((State.keeps_recordCtl _ _ _).up)) fun _ => .refl _)
    ((State.keeps_putAll _ _ _).up)

theorem State.keeps_arbIn (s : State) (mseq : BitVec 32) : Keeps ⟨[.CIC_SRC_STAT, .HIF_TWNSTAT, .PKP_CRED, .PMC_CNT, .PMC_CTL, .TWN_LINK],
    [.arb, .cic, .evt, .fab, .hbm, .hif, .keys, .mem, .out, .packs, .tly, .twn]⟩ s (s.arbIn mseq) := by
  unfold State.arbIn
  extract_lets +onlyGivenNames gap s1 a s2
  have h1 : Keeps ⟨[.TWN_LINK], []⟩ s s1 := (State.keeps_bump _ _ _ _).up
  have hm (x : State) : Keeps ⟨[], [.arb]⟩ x { x with arb := { x.arb with mseqRx := some mseq } } := .update (.refl _) rfl
  have h2 : Keeps ⟨[.CIC_SRC_STAT], [.arb, .cic, .evt]⟩ s1 s2 := .after (State.keeps_raise _ _).up (hm s1).up
  have hg (x : State) (n : Nat) : Keeps ⟨[], [.arb]⟩ x { x with arb := { x.arb with good := n } } := .update (.refl _) rfl
  refine .after (.ite (fun _ => .refl _) fun _ => .ite (fun _ => (hg _ _).up) fun _ => .after (State.keeps_arbLost _ _).up (hg _ _).up)
    (h1.up.trans h2.up)

theorem State.keeps_report (s : State) (stage : BitVec 64) : Keeps ⟨[], [.arb, .out]⟩ s (s.report stage) := by
  unfold State.report
  exact (State.keeps_arbSend _ _ _).up

/-! ### Machine/Settings -/

theorem State.keeps_settingActs (s : State) (id : Nat) (index : Nat) : Keeps ⟨[.CIC_SRC_STAT, .CPM_PSTATE, .CSTS, .HBC_INIT, .MAP_CACHE_CFG,
    .MAP_CAP_USABLE, .MAP_PTAB_CFG, .PKP_CRED, .PKP_CSEQ, .PKP_CTL, .PKP_STAT, .PMC_CNT, .PMC_CTL, .TLY_CTL, .TLY_STAT, .TWN_CTL],
    [.cic, .conv, .evt, .fab, .freeNo, .health, .hif, .hkp, .keys, .map, .nor, .out, .packs, .pow, .snor, .tly, .twn]⟩ s
    (s.settingActs id index) := by
  unfold State.settingActs
  exact .after (.ite (fun _ => (State.keeps_recomputeU _).up) fun _ => (State.keeps_flow _).up) ((State.keeps_applySetting _ _ _).up)

/-! ### Machine/Manage -/

theorem State.keeps_replaceId (s : State) (n : Nat) (rec : Bytes) : Keeps ⟨[.CIC_SRC_STAT, .PKP_CRED, .PKP_CSEQ, .PKP_CTL, .PKP_STAT,
    .PMC_CNT, .PMC_CTL], [.cic, .evt, .hkp, .out, .packs, .twn]⟩ s (s.replaceId n rec) := by
  unfold State.replaceId
  exact .after ((State.keeps_idUpdate _ _ _).up) ((State.keeps_setPk _ _ _).up)

/-! ### Machine/Firm -/

theorem keeps_resetFormats (old : Bytes) (new : Bytes) (s : State) : Keeps ⟨[.CIC_SRC_STAT, .MAP_CACHE_CFG, .MAP_PTAB_CFG, .PKP_CRED,
    .PKP_CTL, .PMC_CNT, .PMC_CTL, .TWN_CTL], [.cic, .evt, .fab, .hif, .out, .packs, .setv, .tly, .twn]⟩ s (resetFormats old new s) := by
  unfold resetFormats
  exact .foldl (fun _ _ => .ite (fun _ => .refl _) fun _ => .after (.after ((State.keeps_notice _ _ _ _).up)
    (.foldl (fun _ _ => (State.keeps_applySetting _ _ _).up) _ _)) ((Keeps.update (F := ⟨[], [.setv]⟩) (.refl _) rfl).up)) _ _

theorem State.keeps_keepStaged (s : State) : Keeps ⟨[], [.pow]⟩ s s.keepStaged := by
  unfold State.keepStaged
  exact .ite (fun _ => .refl _) fun _ => .after ((Keeps.update (F := ⟨[], [.pow]⟩) (.refl _) rfl).up) ((State.keeps_keepDump _ _).up)

/-! ### Machine/Debug -/

theorem State.keeps_freezeNow (s : State) : Keeps ⟨[.PMC_DBG_STAT], []⟩ s s.freezeNow := by
  unfold State.freezeNow
  exact .ite (fun _ => (State.keeps_put _ _ _ _).up) fun _ => .refl _

end Sys2Proof.Machine
end

section
-- One proof at a time: as many threads as there are lemmas here do not fit beside the model.
set_option Elab.async false
namespace Sys2Proof.Machine

/-! ### Fields after a write of another -/

/-- A write of field `f` leaves field `g` alone: it is of another register, or beside it. -/
def Fld.apart (f g : Fld) : Bool :=
  f.reg != g.reg || decide (f.lo ≤ f.hi ∧ f.hi < 64 ∧ g.lo ≤ g.hi ∧ (g.hi < f.lo ∨ f.hi < g.lo))

theorem State.get_put_apart (s : State) {f g : Fld} (i j x : Nat) (h : f.apart g = true := by decide) :
    (s.put f i x).get g j = s.get g j := by
  simp only [Fld.apart, Bool.or_eq_true, bne_iff_ne, decide_eq_true_eq] at h
  rcases h with h | ⟨hle, hlt, hg, hd⟩
  · exact s.get_put_other x (.inl (Ne.symm h))
  · by_cases hj : j = i
    · subst hj
      by_cases hr : g.reg = f.reg
      · exact s.get_put_field j x hr hle hlt hg hd
      · exact s.get_put_other x (.inl hr)
    · exact s.get_put_other x (.inr hj)

theorem State.get_put_same (s : State) (f : Fld) (i x : Nat) (h : f.lo ≤ f.hi := by decide) (k : f.hi < 64 := by decide) :
    (s.put f i x).get f i = x % 2 ^ (f.hi + 1 - f.lo) := s.get_put_self f i x h k

theorem State.get_put_inst (s : State) {f g : Fld} {i j : Nat} (x : Nat) (h : j ≠ i) : (s.put f i x).get g j = s.get g j :=
  s.get_put_other x (.inr h)

theorem State.reg_put_ne (s : State) {f : Fld} (q : RegName) (i j x : Nat) (h : q ≠ f.reg := by decide) :
    (s.put f i x).reg q j = s.reg q j := s.reg_put_other x (.inl h)

theorem State.reg_of_regs {s t : State} (h : t.regs = s.regs) (r : RegName) (i : Nat) : t.reg r i = s.reg r i := by
  unfold State.reg
  rw [h]

section
variable {mem snor : List Host.Cell} {straps : Straps} {dtime : BitVec 64} {epoch : BitVec 16} {elapsed : Nat}
  {accErr : Tbl Nat} {debugErrs freeNo : Nat} {inReset : Bool} {evt : Evt} {cic : Cic} {hbm : Hbm} {nor : Nor} {hkp : Hkp} {tly : Tly}
  {packs : Tbl Pack} {hif : Hif} {twn : Twn} {map : MapS} {cmpWait : List CmpWait} {gateWait : List GateWait} {conv : Conv}
  {health : Health} {pow : Pow} {setv : Settings} {sgen : BitVec 64} {fab : Fab} {fw : Fw} {mbx : Mbx} {keys : Keys} {arb : Arb}
  {out : List Out} {pending : List Instr}

/-- A change of what is no register leaves every field. -/
@[simp] theorem State.get_update (t : State) (f : Fld) (i : Nat) : State.get { t with
      mem := mem, snor := snor, straps := straps, dtime := dtime, epoch := epoch, elapsed := elapsed, accErr := accErr
      debugErrs := debugErrs, freeNo := freeNo, inReset := inReset, evt := evt, cic := cic, hbm := hbm, nor := nor, hkp := hkp
      tly := tly, packs := packs, hif := hif, twn := twn, map := map, cmpWait := cmpWait, gateWait := gateWait, conv := conv
      health := health, pow := pow, setv := setv, sgen := sgen, fab := fab, fw := fw, mbx := mbx, keys := keys, arb := arb
      out := out, pending := pending } f i = t.get f i := State.get_of_regs rfl f i

/-- A change of what is no register leaves every register. -/
@[simp] theorem State.reg_update (t : State) (r : RegName) (i : Nat) : State.reg { t with
      mem := mem, snor := snor, straps := straps, dtime := dtime, epoch := epoch, elapsed := elapsed, accErr := accErr
      debugErrs := debugErrs, freeNo := freeNo, inReset := inReset, evt := evt, cic := cic, hbm := hbm, nor := nor, hkp := hkp
      tly := tly, packs := packs, hif := hif, twn := twn, map := map, cmpWait := cmpWait, gateWait := gateWait, conv := conv
      health := health, pow := pow, setv := setv, sgen := sgen, fab := fab, fw := fw, mbx := mbx, keys := keys, arb := arb
      out := out, pending := pending } r i = t.reg r i := State.reg_of_regs rfl r i

end

/-- A field of `w` bits is less than `2 ^ w`. -/
theorem State.get_lt (s : State) (f : Fld) (i : Nat) : s.get f i < 2 ^ (f.hi + 1 - f.lo) :=
  Nat.mod_lt _ (Nat.two_pow_pos _)

/-! ### What stays, read off -/

/-- What two parts, one after the other, may change. -/
def Foot.join (F G : Foot) : Foot := ⟨F.regs ++ G.regs, F.parts ++ G.parts⟩

theorem Keeps.andThen {F G : Foot} {s t u : State} (h : Keeps F s t) (k : Keeps G t u) : Keeps (F.join G) s u := by
  refine (h.up ?_).trans (k.up ?_) <;>
    simp only [Foot.le, Foot.join, Bool.and_eq_true, List.all_eq_true, List.contains_iff_mem, List.mem_append]
  · exact ⟨fun _ => .inl, fun _ => .inl⟩
  · exact ⟨fun _ => .inr, fun _ => .inr⟩

theorem Keeps.on {F : Foot} {s t : State} (h : Keeps F s t) (f : Fld) (i : Nat)
    (hf : F.regs.contains f.reg = false := by decide +kernel) : t.on f i = s.on f i := by
  simp only [State.on, h.get f i hf]

section
variable {F : Foot} {s t : State} (h : Keeps F s t)
include h
theorem Keeps.mem_eq (hp : F.parts.contains .mem = false := by decide +kernel) : t.mem = s.mem := h.same .mem hp
theorem Keeps.snor_eq (hp : F.parts.contains .snor = false := by decide +kernel) : t.snor = s.snor := h.same .snor hp
theorem Keeps.straps_eq (hp : F.parts.contains .straps = false := by decide +kernel) : t.straps = s.straps := h.same .straps hp
theorem Keeps.dtime_eq (hp : F.parts.contains .dtime = false := by decide +kernel) : t.dtime = s.dtime := h.same .dtime hp
theorem Keeps.elapsed_eq (hp : F.parts.contains .elapsed = false := by decide +kernel) : t.elapsed = s.elapsed := h.same .elapsed hp
theorem Keeps.freeNo_eq (hp : F.parts.contains .freeNo = false := by decide +kernel) : t.freeNo = s.freeNo := h.same .freeNo hp
theorem Keeps.evt_eq (hp : F.parts.contains .evt = false := by decide +kernel) : t.evt = s.evt := h.same .evt hp
theorem Keeps.hbm_eq (hp : F.parts.contains .hbm = false := by decide +kernel) : t.hbm = s.hbm := h.same .hbm hp
theorem Keeps.nor_eq (hp : F.parts.contains .nor = false := by decide +kernel) : t.nor = s.nor := h.same .nor hp
theorem Keeps.hkp_eq (hp : F.parts.contains .hkp = false := by decide +kernel) : t.hkp = s.hkp := h.same .hkp hp
theorem Keeps.tly_eq (hp : F.parts.contains .tly = false := by decide +kernel) : t.tly = s.tly := h.same .tly hp
theorem Keeps.packs_eq (hp : F.parts.contains .packs = false := by decide +kernel) : t.packs = s.packs := h.same .packs hp
theorem Keeps.hif_eq (hp : F.parts.contains .hif = false := by decide +kernel) : t.hif = s.hif := h.same .hif hp
theorem Keeps.twn_eq (hp : F.parts.contains .twn = false := by decide +kernel) : t.twn = s.twn := h.same .twn hp
theorem Keeps.map_eq (hp : F.parts.contains .map = false := by decide +kernel) : t.map = s.map := h.same .map hp
theorem Keeps.conv_eq (hp : F.parts.contains .conv = false := by decide +kernel) : t.conv = s.conv := h.same .conv hp
theorem Keeps.health_eq (hp : F.parts.contains .health = false := by decide +kernel) : t.health = s.health := h.same .health hp
theorem Keeps.pow_eq (hp : F.parts.contains .pow = false := by decide +kernel) : t.pow = s.pow := h.same .pow hp
theorem Keeps.setv_eq (hp : F.parts.contains .setv = false := by decide +kernel) : t.setv = s.setv := h.same .setv hp
theorem Keeps.fab_eq (hp : F.parts.contains .fab = false := by decide +kernel) : t.fab = s.fab := h.same .fab hp
theorem Keeps.fw_eq (hp : F.parts.contains .fw = false := by decide +kernel) : t.fw = s.fw := h.same .fw hp
theorem Keeps.mbx_eq (hp : F.parts.contains .mbx = false := by decide +kernel) : t.mbx = s.mbx := h.same .mbx hp
theorem Keeps.keys_eq (hp : F.parts.contains .keys = false := by decide +kernel) : t.keys = s.keys := h.same .keys hp
theorem Keeps.arb_eq (hp : F.parts.contains .arb = false := by decide +kernel) : t.arb = s.arb := h.same .arb hp
theorem Keeps.out_eq (hp : F.parts.contains .out = false := by decide +kernel) : t.out = s.out := h.same .out hp
end

theorem State.rdByte_of_mem {s t : State} (h : t.mem = s.mem) (a : Nat) : t.rdByte a = s.rdByte a := by rw [State.rdByte, h, State.rdByte]

theorem State.rdBytes_of_mem {s t : State} (h : t.mem = s.mem) (a n : Nat) : t.rdBytes a n = s.rdBytes a n := by
  induction n generalizing a with
  | zero => rfl
  | succ n ih => rw [State.rdBytes, State.rdBytes, ih, State.rdByte_of_mem h]

/-! ### One component that stays -/

/-- A component of the state is the same in both. -/
def Same {α : Type} (π : State → α) (s t : State) : Prop := π t = π s

section
variable {α : Type} {π : State → α} {s t u : State}

theorem Same.refl (s : State) : Same π s s := rfl

theorem Same.trans (h : Same π s t) (k : Same π t u) : Same π s u := Eq.trans k h

theorem Same.after (k : Same π t u) (h : Same π s t) : Same π s u := h.trans k

theorem Same.ite {a b : State} {c : Prop} [Decidable c] (ha : c → Same π s a) (hb : ¬ c → Same π s b) :
    Same π s (if c then a else b) := by
  split
  · exact ha ‹_›
  · exact hb ‹_›

theorem Same.foldl {β : Type} {f : State → β → State} (h : ∀ s x, Same π s (f s x)) (l : List β) (s : State) :
    Same π s (l.foldl f s) := by
  induction l generalizing s with
  | nil => exact .refl s
  | cons x l ih => exact (h s x).trans (ih _)

theorem Same.elim {β : Type} {a : State} {o : Option β} {f : β → State} (ha : Same π s a) (hf : ∀ x, Same π s (f x)) :
    Same π s (o.elim a f) := by
  cases o
  · exact ha
  · exact hf _

theorem Same.of_fst {β : Type} {a : State} {b : β} {p : State × β} (h : Same π s p.1) (e : p = (a, b)) : Same π s a := by
  rw [e] at h
  exact h

theorem Same.of_snd {β : Type} {a : State} {b : β} {p : β × State} (h : Same π s p.2) (e : p = (b, a)) : Same π s a := by
  rw [e] at h
  exact h

variable {mem snor : List Host.Cell} {straps : Straps} {dtime : BitVec 64} {epoch : BitVec 16} {elapsed : Nat}
  {accErr : Tbl Nat} {debugErrs freeNo : Nat} {inReset : Bool} {evt : Evt} {cic : Cic} {hbm : Hbm} {nor : Nor} {hkp : Hkp} {tly : Tly}
  {packs : Tbl Pack} {hif : Hif} {twn : Twn} {map : MapS} {cmpWait : List CmpWait} {gateWait : List GateWait} {conv : Conv}
  {health : Health} {pow : Pow} {setv : Settings} {sgen : BitVec 64} {fab : Fab} {fw : Fw} {mbx : Mbx} {keys : Keys} {arb : Arb}
  {out : List Out} {pending : List Instr}

/-- An update of the components of a state that is read off. -/
theorem Same.update (h : Same π s t) (e : π { t with
      mem := mem, snor := snor, straps := straps, dtime := dtime, epoch := epoch, elapsed := elapsed, accErr := accErr
      debugErrs := debugErrs, freeNo := freeNo, inReset := inReset, evt := evt, cic := cic, hbm := hbm, nor := nor, hkp := hkp
      tly := tly, packs := packs, hif := hif, twn := twn, map := map, cmpWait := cmpWait, gateWait := gateWait, conv := conv
      health := health, pow := pow, setv := setv, sgen := sgen, fab := fab, fw := fw, mbx := mbx, keys := keys, arb := arb
      out := out, pending := pending } = π t) : Same π s { t with
      mem := mem, snor := snor, straps := straps, dtime := dtime, epoch := epoch, elapsed := elapsed, accErr := accErr
      debugErrs := debugErrs, freeNo := freeNo, inReset := inReset, evt := evt, cic := cic, hbm := hbm, nor := nor, hkp := hkp
      tly := tly, packs := packs, hif := hif, twn := twn, map := map, cmpWait := cmpWait, gateWait := gateWait, conv := conv
      health := health, pow := pow, setv := setv, sgen := sgen, fab := fab, fw := fw, mbx := mbx, keys := keys, arb := arb
      out := out, pending := pending } := h.trans e

end

/-! ### What a command gives -/

/-- A meaning of a controller that runs answers what stands behind the check. -/
theorem gives_of_awake {c : Instr} {s t : State} {P : State → Prop} (hs : s.Runs) (e : exec c s = s.awake (.next t)) (h : P t) :
    Gives c s P := ⟨t, e.trans (State.awake_of_runs _ hs), h⟩

/-- A result is a next state of which `P` holds. -/
def NextIs (P : State → Prop) (r : Res) : Prop := ∃ t, r = .next t ∧ P t

/-- A command gives what its meaning gives. -/
theorem gives_of_exec {c : Instr} {s : State} {P : State → Prop} (r : Res) (e : exec c s = r) (h : NextIs P r) : Gives c s P :=
  h.imp fun _ ht => ⟨e.trans ht.1, ht.2⟩

/-- What is checked of the state that a command answers; false where it answers none. -/
def answerHas (p : State → Bool) : Res → Bool
  | .next t => p t
  | _ => false

theorem Gives.answerHas {c : Instr} {s : State} {P : State → Prop} (h : Gives c s P) (p : State → Bool) (hp : ∀ t, P t → p t = true) :
    answerHas p (exec c s) = true := by
  obtain ⟨t, he, ht⟩ := h
  rw [he]
  exact hp t ht

theorem givesThen_of_awake {g : State → State} {c : Instr} {s t : State} {P : State → Prop} (hs : s.Runs)
    (e : exec c s = s.awake (.next (g t))) (h : P t) : GivesThen g c s P := ⟨t, e.trans (State.awake_of_runs _ hs), h⟩

theorem NextIs.intro {P : State → Prop} {t : State} (h : P t) : NextIs P (.next t) := ⟨t, rfl, h⟩

theorem State.pmc_of_off {s : State} {b : Nat} (ev n : Nat) (h : s.get F.PMC_CTL.EN (32 + b) = 0) : s.pmc b ev n = s := by
  rw [State.pmc, if_pos h]

theorem State.complete_of_room {s : State} {h : HeldPulse} (hr : s.lineFull h.line = false) : s.complete h = s.accept h := by
  simp [State.complete, hr]

/-- What the capture of an input may change, apart from what the input does. -/
abbrev Foot.captured : Foot := ⟨[.CIC_SRC_STAT, .PMC_CNT, .PMC_CTL, .TWN_LINK, .TWN_STAT], [.arb, .cic, .evt, .hbm, .keys, .mem, .out, .twn]⟩

/-- An input that is captured does what it does after its entry is recorded, or waits, or is a trail's. -/
theorem State.capture_cases (s : State) (e : LEntry) (f : State → State) :
    ∃ t, Keeps .captured s t ∧ (s.capture e f = t ∨ s.capture e f = f t) := by
  unfold State.capture
  split
  · refine ⟨_, ?_, .inl rfl⟩
    exact .ite (fun _ => .update (.refl _) rfl) fun _ => .refl _
  · extract_lets e1 s1 s2
    split
    · refine ⟨_, ?_, .inl rfl⟩
      exact .after ((State.keeps_raise _ _).up (by decide))
        (.after ((State.keeps_put _ F.TWN_STAT.HELD 0 1).up (by decide)) (.update (.refl _) rfl))
    · refine ⟨_, ?_, .inr rfl⟩
      exact .after ((State.keeps_ringDeliver _ _).up (by decide))
        (.ite (fun _ => (State.keeps_recordPut _ _).up (by decide)) fun _ => .refl _)

end Sys2Proof.Machine
end

section
-- One proof at a time: as many threads as there are lemmas here do not fit beside the model.
set_option Elab.async false
namespace Sys2Proof.Machine

/-! ### Fetched commands -/

/-- What the row of a fetched command answers. -/
theorem exec_of_fetched {i : Instr} {s : State} {t : BitVec 64} {c : Ctx} {f : Ctx → State → State} (h : s.Fetched t c)
    (e : exec i s = s.awake (.next (withCtx t f s))) : exec i s = .next (f c s) := by
  rw [e, State.awake_of_runs _ h.1, withCtx_of_fetched f h]

/-- A command of a controller that runs answers what stands behind the check. -/
theorem exec_of_awake {i : Instr} {s t : State} (h : s.Runs) (e : exec i s = s.awake (.next t)) : exec i s = .next t := by
  rw [e, State.awake_of_runs _ h]

end Sys2Proof.Machine
end

section
-- One proof at a time: as many threads as there are lemmas here do not fit beside the model.
set_option Elab.async false
namespace Sys2Proof.Machine

/-! ### Mailbox requests -/

section
variable {s : State} {op len : Nat} {m : Msg}

/-- What the answer to a request may change. -/
abbrev Foot.answered : Foot := ⟨[.CIC_SRC_STAT, .PKP_CRED, .PMC_CNT, .PMC_CTL], [.cic, .evt, .mbx, .out, .packs, .twn]⟩

/-- The checks of a request read no token's use. -/
theorem State.stateCheck_useToken (s : State) (m : Msg) (op : Nat) : (s.useToken m).stateCheck op = s.stateCheck op := rfl

/-- A request that passes the checks is carried out, whether or not it needs its role. -/
theorem msgApply_admitted (a : Arrival) (f : State → State) (free : Bool) (h : s.Admits op len m) :
    msgApply op len m a f s free = f (s.useToken m) := by
  obtain ⟨hact, hrep, hlen, hlo, hhi, htok, hrole, hst⟩ := h
  unfold msgApply
  rw [if_neg (by simp [hact]), if_neg (by simp [hrep]), if_neg (by omega)]
  extract_lets need tok sess s1 c
  have hsess : (!sess && m.token != 0 && tok.isNone) = false := by
    rcases htok with h | h | h
    · simp [sess, h]
    · simp [h]
    · simp [tok, Option.isNone_eq_false_iff.2 h]
  rw [if_neg (by simp only [hsess, Bool.false_eq_true, not_false_eq_true])]
  clear hsess
  refine (if_neg ?_).trans (if_neg ?_)
  · have hle : need ≤ roleOf op := by cases free <;> simp [need]
    revert hrole
    unfold tok
    cases s.tokenOf m <;> simp <;> omega
  · simp [c, s1, State.stateCheck_useToken, hst]

theorem State.mbx_send (s : State) (o : Out) : (s.send o).mbx = s.mbx := (State.keeps_send s o).mbx_eq

theorem State.mbx_emit (s : State) (o : Out) : (s.emit o).mbx = s.mbx := (State.keeps_emit s o).mbx_eq

theorem State.mbx_digest (s : State) (n : Nat) (o : Out) : (s.digest n o).mbx = s.mbx := (State.keeps_digest s n o).mbx_eq

/-- An answer is the last of its channel. -/
theorem State.last_answer (s : State) (op : Nat) (m : Msg) (here : Bool) (code detail : Nat) (body : Bytes) (more : Bool) :
    (s.answer op m here code detail body more).mbx.last = tput m.chan
      { tag := m.tag, opcode := BitVec.ofNat 16 op, code := code, detail := detail, body := body, more := more } s.mbx.last := by
  unfold State.answer
  extract_lets r o x s1 s2
  have h2 : s2.mbx.last = tput m.chan r s.mbx.last := by
    unfold s2
    split <;> rfl
  split
  · split
    · rw [State.mbx_send, h2]
    · exact h2
  · split
    · rw [State.mbx_emit, h2]
    · rw [State.mbx_digest, h2]

theorem State.answered_answer (s : State) (op : Nat) (m : Msg) (here : Bool) (code detail : Nat) (body : Bytes) (more : Bool) :
    (s.answer op m here code detail body more).Answered m op code body :=
  ⟨_, by rw [State.last_answer, tget_tput_self], rfl, rfl, rfl, rfl⟩

theorem State.answered_done (s : State) (op : Nat) (m : Msg) (a : Arrival) (body : Bytes) (more : Bool) :
    (s.done op m a body more).Answered m op 0 body := State.answered_answer ..

theorem State.answered_refuse (s : State) (op : Nat) (m : Msg) (a : Arrival) (code detail : Nat) :
    (s.refuse op m a code detail).Answered m op code [] := State.answered_answer ..

/-- What a request that passes the checks answers. -/
theorem exec_of_admitted {i : Instr} {a : Arrival} {free : Bool} {f : State → State} {u : State} (hs : s.Runs) (h : s.Admits op len m)
    (e : exec i s = s.awake (.next (msgApply op len m a f s free))) (hf : f (s.useToken m) = u) : exec i s = .next u := by
  rw [e, State.awake_of_runs _ hs, msgApply_admitted a f free h, hf]

/-- A row of a request that passes the checks. -/
theorem gives_of_admitted {i : Instr} {a : Arrival} {free : Bool} {f : State → State} {P : State → Prop} (hs : s.Runs) (h : s.Admits op len m)
    (e : exec i s = s.awake (.next (msgApply op len m a f s free))) (hP : P (f (s.useToken m))) : Gives i s P :=
  gives_of_awake hs e (by rwa [msgApply_admitted a f free h])

theorem State.get_done (s : State) (m : Msg) (op : Nat) (a : Arrival) (body : Bytes) (more : Bool) (f : Fld) (i : Nat)
    (hf : Foot.answered.regs.contains f.reg = false := by decide) : (s.done op m a body more).get f i = s.get f i :=
  (State.keeps_done s op m a body more).get f i hf

end

end Sys2Proof.Machine
end

section
-- One proof at a time: as many threads as there are lemmas here do not fit beside the model.
set_option Elab.async false
namespace Sys2Proof.Machine

/-! ### The tally recorder's fields and registers (R597, R598, R603) -/

section
variable (s : State)

/-- A field of a register that an interrupt does not touch. -/
theorem State.get_raise (n : Nat) (f : Fld) (i : Nat) (h : (f.reg == .CIC_SRC_STAT) = false) : (s.raise n).get f i = s.get f i :=
  (State.keeps_raise s n).get f i (by simpa using fun e => by simp [e] at h)

theorem State.tly_raise (n : Nat) : (s.raise n).tly = s.tly := (State.keeps_raise s n).tly_eq

theorem State.snor_raise (n : Nat) : (s.raise n).snor = s.snor := (State.keeps_raise s n).snor_eq

theorem State.get_norWords (a n : Nat) (b : Bytes) (k : Nat) (f : Fld) (i : Nat) : (s.norWords a n b k).1.get f i = s.get f i :=
  (State.keeps_norWords s a n b k).get f i rfl

theorem State.tly_norWords (a n : Nat) (b : Bytes) (k : Nat) : (s.norWords a n b k).1.tly = s.tly :=
  (State.keeps_norWords s a n b k).tly_eq

/-- R598: record `r` is written, with its P/E bins or without. -/
def State.tallyStore (r : TallyRec) : State :=
  let i := s.get F.TLY_STAT.NREC
  let known := s.on F.TLY_CTL.PE_DONE
  let pe := (List.range 11).map fun j => if known then s.get F.TLY_PE.COUNT j else 0xFFFFFFFF
  let flags := r.flags + if known then 0 else 8
  let s1 := { s with tly := { s.tly with closing := none, peLate := false } }.put F.TLY_CTL.PE_DONE 0 0
  if 2048 ≤ i then s1
  else
    let x := s1.norWords (tallyAt i) 512 (s1.tallyBytes r i flags pe) 0
    let s2 := x.1.put F.TLY_STAT.NREC 0 (i + 1)
    let s3 := if x.2.2 then (s2.bump F.TLY_STAT.WFAIL 0).raise 238 else s2.raise 236
    if i = 2047 then (s3.put F.TLY_STAT.FULL 0 1).raise 237 else s3

variable {s} in
theorem State.tallyWrite_eq {r : TallyRec} (hr : s.tly.closing = some r) (hh : s.tallyHeld = false) : s.tallyWrite = s.tallyStore r := by
  rw [State.tallyWrite, hr]
  exact if_neg (by simp [hh])

/-- Nothing of the recorder changes while its records are held. -/
theorem State.tallyWrite_of_held (h : s.tallyHeld = true) : s.tallyWrite = s := by
  unfold State.tallyWrite
  split
  · rfl
  · rw [if_pos h]

theorem State.tallyWrite_of_none (h : s.tly.closing = none) : s.tallyWrite = s := by
  rw [State.tallyWrite, h]

/-- A record is written, or nothing is. -/
theorem State.tallyWrite_cases : s.tallyWrite = s ∨ ∃ r, s.tallyWrite = s.tallyStore r := by
  cases hh : s.tallyHeld with
  | true => exact .inl (s.tallyWrite_of_held hh)
  | false =>
    cases hr : s.tly.closing with
    | none => exact .inl (s.tallyWrite_of_none hr)
    | some r => exact .inr ⟨r, State.tallyWrite_eq hr hh⟩

/-- Writing a record changes four fields of its registers, and nothing of FREEZE and CLEARING. -/
theorem State.get_tallyStore_apart (r : TallyRec) {g : Fld} (i : Nat) (hc : (g.reg == .CIC_SRC_STAT) = false)
    (hp : F.TLY_CTL.PE_DONE.apart g = true) (hn : F.TLY_STAT.NREC.apart g = true) (hw : F.TLY_STAT.WFAIL.apart g = true)
    (hf : F.TLY_STAT.FULL.apart g = true) : (s.tallyStore r).get g i = s.get g i := by
  unfold State.tallyStore
  extract_lets n known pe flags y s1 x s2 s3
  have h1 : s1.get g i = s.get g i := (State.get_put_apart _ (f := F.TLY_CTL.PE_DONE) _ _ _ hp).trans (State.get_update ..)
  have h2 : s2.get g i = s1.get g i := (State.get_put_apart _ (f := F.TLY_STAT.NREC) _ _ _ hn).trans (State.get_norWords ..)
  have h3 : s3.get g i = s2.get g i := by
    unfold s3
    split
    · exact (State.get_raise _ _ _ _ hc).trans (State.get_put_apart _ (f := F.TLY_STAT.WFAIL) _ _ _ hw)
    · exact State.get_raise _ _ _ _ hc
  split
  · exact h1
  have h := h3.trans (h2.trans h1)
  split
  · exact (State.get_raise _ _ _ _ hc).trans ((State.get_put_apart _ (f := F.TLY_STAT.FULL) _ _ _ hf).trans h)
  · exact h

theorem State.freeze_tallyWrite : s.tallyWrite.get F.TLY_CTL.FREEZE 0 = s.get F.TLY_CTL.FREEZE 0 := by
  obtain h | ⟨r, h⟩ := s.tallyWrite_cases
  · rw [h]
  · rw [h]
    exact s.get_tallyStore_apart r 0 (by decide) (by decide) (by decide) (by decide) (by decide)

/-- Writing a record leaves the recorder as it is but for the record that closes. -/
theorem State.tly_tallyStore (r : TallyRec) : (s.tallyStore r).tly = { s.tly with closing := none, peLate := false } := by
  unfold State.tallyStore
  extract_lets n known pe flags y s1 x s2 s3
  have h1 : s1.tly = { s.tly with closing := none, peLate := false } := rfl
  clear_value s1
  have hx : x.1.tly = s1.tly := by simp only [x, State.tly_norWords]
  clear_value x
  have h2 : s2.tly = s1.tly := ((State.keeps_put x.1 F.TLY_STAT.NREC 0 (n + 1)).tly_eq).trans hx
  clear_value s2
  have h3 : s3.tly = s2.tly := by
    unfold s3
    split
    · exact (State.tly_raise _ _).trans (State.keeps_bump s2 F.TLY_STAT.WFAIL 0 1).tly_eq
    · exact State.tly_raise _ _
  clear_value s3
  split
  · exact h1
  split
  · exact (State.tly_raise _ _).trans ((State.keeps_put s3 F.TLY_STAT.FULL 0 1).tly_eq.trans (h3.trans (h2.trans h1)))
  · exact h3.trans (h2.trans h1)

/-- A record that is written is counted, and its P/E bins are used up. -/
theorem State.counts_tallyStore (r : TallyRec) (hn : s.get F.TLY_STAT.NREC < 2048) :
    (s.tallyStore r).get F.TLY_STAT.NREC 0 = s.get F.TLY_STAT.NREC + 1 ∧ (s.tallyStore r).get F.TLY_CTL.PE_DONE 0 = 0 := by
  unfold State.tallyStore
  extract_lets n known pe flags y s1 x s2 s3
  have hp1 : s1.get F.TLY_CTL.PE_DONE 0 = 0 := (State.get_put_same _ F.TLY_CTL.PE_DONE 0 0).trans (by decide)
  clear_value s1
  have hpx : x.1.get F.TLY_CTL.PE_DONE 0 = s1.get F.TLY_CTL.PE_DONE 0 := by simp only [x, State.get_norWords]
  clear_value x
  have hn2 : s2.get F.TLY_STAT.NREC 0 = n + 1 :=
    (State.get_put_same _ F.TLY_STAT.NREC 0 _).trans (Nat.mod_eq_of_lt (Nat.lt_of_le_of_lt hn (by decide)))
  have hp2 : s2.get F.TLY_CTL.PE_DONE 0 = x.1.get F.TLY_CTL.PE_DONE 0 := State.get_put_apart _ (f := F.TLY_STAT.NREC) _ _ _
  clear_value s2
  have h3 : s3.get F.TLY_STAT.NREC 0 = s2.get F.TLY_STAT.NREC 0 ∧ s3.get F.TLY_CTL.PE_DONE 0 = s2.get F.TLY_CTL.PE_DONE 0 := by
    unfold s3
    split
    · exact ⟨(State.get_raise _ _ _ _ rfl).trans (State.get_put_apart _ (f := F.TLY_STAT.WFAIL) _ _ _),
        (State.get_raise _ _ _ _ rfl).trans (State.get_put_apart _ (f := F.TLY_STAT.WFAIL) _ _ _)⟩
    · exact ⟨State.get_raise _ _ _ _ rfl, State.get_raise _ _ _ _ rfl⟩
  clear_value s3
  rw [hn2, hp2, hpx, hp1] at h3
  rw [if_neg (Nat.not_le.2 hn)]
  split
  · exact ⟨(State.get_raise _ _ _ _ rfl).trans ((State.get_put_apart _ (f := F.TLY_STAT.FULL) _ _ _).trans h3.1),
      (State.get_raise _ _ _ _ rfl).trans ((State.get_put_apart _ (f := F.TLY_STAT.FULL) _ _ _).trans h3.2)⟩
  · exact h3

/-- Writing a record, if there is one, leaves the recorder as it is but for the record that closes. -/
theorem State.tly_tallyWrite : s.tallyWrite.tly = s.tly ∨ s.tallyWrite.tly = { s.tly with closing := none, peLate := false } := by
  obtain h | ⟨r, h⟩ := s.tallyWrite_cases
  · exact .inl (by rw [h])
  · exact .inr (by rw [h, State.tly_tallyStore])

theorem State.due_tallyWrite : s.tallyWrite.tly.due = s.tly.due := by
  rcases s.tly_tallyWrite with h | h <;> rw [h]

theorem State.cur_tallyWrite : s.tallyWrite.tly.cur = s.tly.cur := by
  rcases s.tly_tallyWrite with h | h <;> rw [h]

/-- What an interval's close leaves: the record that closes, and the one that begins. -/
theorem State.tly_tallyClose (flags : Nat) : (s.tallyClose flags).tly.due = s.tly.due ∧ (s.tallyClose flags).tly.closing.isSome = true ∧
    (s.tallyClose flags).tly.cur.startUs = s.elapsed ∧ (s.tallyClose flags).tly.cur.startDtime = s.dtime := by
  unfold State.tallyClose
  extract_lets s1 c r
  rw [State.tly_raise]
  have hk : Keeps ⟨[.CIC_SRC_STAT, .TLY_CTL, .TLY_STAT], [.cic, .evt, .nor, .snor, .tly]⟩ s s1 := State.keeps_tallyWrite s
  exact ⟨s.due_tallyWrite, rfl, hk.elapsed_eq, hk.dtime_eq⟩

theorem State.freeze_tallyClose (flags : Nat) : (s.tallyClose flags).get F.TLY_CTL.FREEZE 0 = s.get F.TLY_CTL.FREEZE 0 := by
  unfold State.tallyClose
  extract_lets s1 c r
  exact (State.get_raise _ _ _ _ rfl).trans s.freeze_tallyWrite

theorem State.freeze_tallyRelease (flags : Nat) : (s.tallyRelease flags).get F.TLY_CTL.FREEZE 0 = s.get F.TLY_CTL.FREEZE 0 := by
  unfold State.tallyRelease
  split
  · rfl
  extract_lets s1
  have h1 : s1.get F.TLY_CTL.FREEZE 0 = s.get F.TLY_CTL.FREEZE 0 := by
    unfold s1
    split
    · exact s.freeze_tallyWrite
    · rfl
  split
  · exact (State.freeze_tallyClose _ _).trans h1
  · exact h1

/-- A recorder that holds no records has none due after it releases them. -/
theorem State.due_tallyRelease (flags : Nat) (h : s.tallyHeld = false) : (s.tallyRelease flags).tly.due = false := by
  unfold State.tallyRelease
  rw [if_neg (by simp [h])]
  extract_lets s1
  split
  · exact (State.tly_tallyClose _ _).1
  next hd => simpa using hd

/-- The thaw ends the freeze. -/
theorem State.freeze_tallyThaw : s.tallyThaw.get F.TLY_CTL.FREEZE 0 = 0 :=
  ((s.put F.TLY_CTL.FREEZE 0 0).freeze_tallyRelease 2).trans ((State.get_put_same s F.TLY_CTL.FREEZE 0 0).trans (by decide))

end

/-! ### Bits -/

/-- A field of one bit holds 0 or 1. -/
theorem State.bit_cases (s : State) (f : Fld) (i : Nat) (h : f.hi + 1 - f.lo = 1 := by decide) : s.get f i = 0 ∨ s.get f i = 1 := by
  have hlt := s.get_lt f i
  rw [h] at hlt
  omega

theorem State.on_of_get_one {s : State} {f : Fld} {i : Nat} (h : s.get f i = 1) : s.on f i = true := by simp [State.on, h]

theorem State.on_of_get_zero {s : State} {f : Fld} {i : Nat} (h : s.get f i = 0) : s.on f i = false := by simp [State.on, h]

end Sys2Proof.Machine
end

section
-- One proof at a time: as many threads as there are lemmas here do not fit beside the model.
set_option Elab.async false
namespace Sys2Proof.Machine

section
variable {F : Foot} {s t : State} (h : Keeps F s t)
include h
theorem Keeps.sgen_eq (hp : F.parts.contains .sgen = false := by decide +kernel) : t.sgen = s.sgen := h.same .sgen hp
theorem Keeps.inReset_eq (hp : F.parts.contains .inReset = false := by decide +kernel) : t.inReset = s.inReset := h.same .inReset hp
end

/-! ### Key slots -/

section
variable {s t : State}

theorem State.kslot_of_keys (h : t.keys = s.keys) (n : Nat) : t.kslot n = s.kslot n := congrArg (fun k : Keys => tgetD n ({} : KeySlot) k.slots) h

theorem Keeps.kslot {F : Foot} (h : Keeps F s t) (n : Nat) (hp : F.parts.contains .keys = false := by decide +kernel) :
    t.kslot n = s.kslot n := State.kslot_of_keys (h.keys_eq hp) n

theorem State.kslot_sgenUp (s : State) (n : Nat) : s.sgenUp.kslot n = s.kslot n := rfl

theorem State.sgen_sgenUp (s : State) : s.sgenUp.sgen = s.sgen + 1 := rfl

theorem State.kslot_await (s : State) (m : Msg) (a : Arrival) (what arg n : Nat) : (s.await m a what arg).kslot n = s.kslot n := rfl

theorem State.sgen_await (s : State) (m : Msg) (a : Arrival) (what arg : Nat) : (s.await m a what arg).sgen = s.sgen := rfl

theorem State.waits_await (s : State) (m : Msg) (a : Arrival) (what arg : Nat) : (s.await m a what arg).mbx.waits =
    s.mbx.waits ++ [{ m := m, here := isHere a, what := what, arg := arg }] := rfl

theorem State.mbx_sgenUp (s : State) : s.sgenUp.mbx = s.mbx := rfl

theorem State.handleOf_of_kslot {n : Nat} (h : t.kslot n = s.kslot n) : t.handleOf n = s.handleOf n := by
  rw [State.handleOf, h, State.handleOf]

theorem State.keys_setKslot (s : State) (n : Nat) (k : KeySlot) :
    (s.setKslot n k).keys = { s.keys with slots := tset {} n k s.keys.slots } := by
  rw [State.setKslot, (State.keeps_kstat _).keys_eq]

theorem State.kslot_setKslot (s : State) (n : Nat) (k : KeySlot) : (s.setKslot n k).kslot n = k := by
  rw [State.kslot, State.keys_setKslot]
  exact tgetD_tset_self _ _ _ _

end

/-! ### What an answer leaves of the mailboxes -/

section
variable (s : State) (op : Nat) (m : Msg) (a : Arrival)

/-- An answer changes the last replies of its channel, and nothing else of the mailboxes. -/
theorem State.mbx_answer (here : Bool) (code detail : Nat) (body : Bytes) (more : Bool) : ∃ l r,
    (s.answer op m here code detail body more).mbx = { s.mbx with last := l, reply := r } := by
  unfold State.answer
  extract_lets r o x s1 s2
  have h2 : ∃ l r, s2.mbx = { s.mbx with last := l, reply := r } := by
    unfold s2
    split
    · exact ⟨_, _, rfl⟩
    · exact ⟨_, s.mbx.reply, rfl⟩
  clear_value s2
  split
  · split
    · rwa [State.mbx_send]
    · exact h2
  · split
    · rwa [State.mbx_emit]
    · rwa [State.mbx_digest]

theorem State.chal_done (body : Bytes) (more : Bool) : (s.done op m a body more).mbx.chal = s.mbx.chal := by
  obtain ⟨l, r, h⟩ := s.mbx_answer op m (isHere a) 0 0 body more
  rw [State.done, h]

theorem State.tokens_done (body : Bytes) (more : Bool) : (s.done op m a body more).mbx.tokens = s.mbx.tokens := by
  obtain ⟨l, r, h⟩ := s.mbx_answer op m (isHere a) 0 0 body more
  rw [State.done, h]

theorem State.chal_refuse (code detail : Nat) : (s.refuse op m a code detail).mbx.chal = s.mbx.chal := by
  obtain ⟨l, r, h⟩ := s.mbx_answer op m (isHere a) code detail [] false
  rw [State.refuse, h]

theorem State.tokens_refuse (code detail : Nat) : (s.refuse op m a code detail).mbx.tokens = s.mbx.tokens := by
  obtain ⟨l, r, h⟩ := s.mbx_answer op m (isHere a) code detail [] false
  rw [State.refuse, h]

end

section
variable {s : State}

/-- What drawing a non-secret value may change (R338). -/
abbrev Foot.led : Foot := ⟨[.CIC_SRC_STAT, .PMC_CNT, .PMC_CTL, .TWN_LINK], [.arb, .cic, .evt, .freeNo, .hbm, .keys, .mem, .out, .twn]⟩

/-- A value that is at hand is drawn here, or is the lead's. -/
theorem State.leadDraw_of_bytes {len : Nat} {b : Bytes} (h : s.leadBytes len = some b) (f : Bytes → State → State) :
    ∃ t, Keeps .led s t ∧ t.freeNo = (if s.isTrail then s.freeNo else s.freeNo + 1) ∧ s.leadDraw len f = f b t := by
  unfold State.leadBytes at h
  unfold State.leadDraw
  split at h
  next ht =>
    rw [if_pos ht, if_pos ht]
    cases hv : s.twn.leadVals with
    | nil => simp [hv] at h
    | cons c l =>
      obtain rfl : c = b := by simpa [hv] using h
      exact ⟨{ s with twn := { s.twn with leadVals := l } }, .update (.refl _) rfl, rfl, rfl⟩
  next ht =>
    rw [if_neg ht, if_neg ht]
    obtain rfl : freeRun s.freeNo len = b := by simpa using h
    exact ⟨_, .after (State.keeps_leadValue _ _).up (State.keeps_drawn s).up, (State.keeps_leadValue _ _).freeNo_eq, rfl⟩

end

end Sys2Proof.Machine
end

section
-- One proof at a time: as many threads as there are lemmas here do not fit beside the model.
set_option Elab.async false
namespace Sys2Proof.Machine

/-! ### HBM (chapter 17) -/

theorem State.errOf_nil {s : State} (w : Nat) (h : s.hbm.err = []) : s.errOf w = 0 := by rw [State.errOf, h]; rfl

theorem hbmFillStart_gives {s : State} (h : s.Runs) (hb : s.hbm.fillBusy = false) : Gives .hbmFillStart s fun u =>
    u.get F.HBC_INIT.DONE = 0 ∧ u.get F.HBC_INIT.PROG = 0 ∧ u.hbm.fillBusy = true := by
  refine gives_of_awake h rfl ?_
  simp (disch := decide) only [hbmFillStart, hb, Bool.false_eq_true, if_false, State.get_update, State.get_put_apart, State.get_put_same,
    Nat.zero_mod, and_self]

/-- The state in which a fill leaves memory, before its list is written and its end is shown. -/
def State.filled (s : State) (l : List SoftRow) : State :=
  { s with mem := s.mem.filter fun e => !inHbm e.1, hbm := { s.hbm with err := [], symErr := [], fillBusy := false, soft := l } }

theorem State.rdByte_filled (s : State) (l : List SoftRow) (a : Nat) : (s.filled l).rdByte a = if inHbm a then 0 else s.rdByte a := by
  show tgetD a memDefault (s.mem.filter _) = _
  split
  · rename_i h
    rw [tgetD, tget_filter_none (by simp [h])]
    rfl
  · rename_i h
    rw [tgetD, tget_filter (by simp [h])]
    rfl

/-- The end of a fill, cut at the state of memory that it leaves. -/
theorem hbmFillDone_cases (noSpare : List (Fin 256)) (s : State) : ∃ s1 : State, ∃ l : List SoftRow, ∃ u : State,
    Keeps ⟨[.HBC_REPAIR], []⟩ s s1 ∧ Keeps ⟨[], [.nor, .snor]⟩ (s1.filled l) u ∧
      hbmFillDone noSpare s = ((u.put F.HBC_INIT.DONE 0 1).put F.HBC_INIT.PROG 0 100).raise 275 := by
  unfold hbmFillDone
  extract_lets +onlyGivenNames s1 l h s2 s3
  have h1 : Keeps ⟨[.HBC_REPAIR], []⟩ s s1 := .foldl (fun _ _ => keeps_applyRepair _ _ _) _ _
  clear_value s1
  exact ⟨s1, l, s3, h1, .foldl (fun _ _ => State.keeps_softPut _ _ _) _ _, rfl⟩

theorem hbmFillDone_gives {s : State} (h : s.Runs) (l : List (Fin 256)) (hb : s.hbm.fillBusy = true) : Gives (.hbmFillDone l) s fun u =>
    (∀ a, u.rdByte a = if inHbm a then 0 else s.rdByte a) ∧ (∀ w, u.errOf w = 0) ∧ u.hbm.fillBusy = false ∧
      u.get F.HBC_INIT.DONE = 1 ∧ u.get F.HBC_INIT.PROG = 100 := by
  refine gives_of_awake h rfl ?_
  rw [if_pos hb]
  obtain ⟨s1, soft, u, h1, hu, e⟩ := hbmFillDone_cases l s
  rw [e]
  have hend := State.keeps_raise ((u.put F.HBC_INIT.DONE 0 1).put F.HBC_INIT.PROG 0 100) 275
  have hhbm : (((u.put F.HBC_INIT.DONE 0 1).put F.HBC_INIT.PROG 0 100).raise 275).hbm = (s1.filled soft).hbm := by
    rw [hend.hbm_eq, State.put_hbm, State.put_hbm, hu.hbm_eq]
  refine ⟨fun a => ?_, fun w => State.errOf_nil w (by rw [hhbm]; rfl), by rw [hhbm]; rfl, ?_, ?_⟩
  · rw [State.rdByte, hend.mem_eq, State.put_mem, State.put_mem, hu.mem_eq]
    exact (s1.rdByte_filled soft a).trans (by rw [State.rdByte, h1.mem_eq, State.rdByte])
  · rw [hend.get F.HBC_INIT.DONE 0, State.get_put_apart]
    exact State.get_put_same _ F.HBC_INIT.DONE 0 1
  · rw [hend.get F.HBC_INIT.PROG 0]
    exact State.get_put_same _ F.HBC_INIT.PROG 0 100

/-! The refresh bands (R547) -/

theorem hbmBand_lt (t : Int) : hbmBand t < 4 := by
  unfold hbmBand
  split_ifs <;> decide

theorem State.get_setBand (s : State) (k : Nat) {b : Nat} (hb : b < 4) : (s.setBand k b).get (bandFld k) = b := by
  unfold State.setBand
  split
  · assumption
  · have hr : (Foot.mk [.CIC_SRC_STAT] [.cic, .evt]).regs.contains (bandFld k).reg = false := by
      unfold bandFld
      split <;> decide
    rw [(State.keeps_raise _ 274).get (bandFld k) 0 hr]
    have hw : (bandFld k).hi + 1 - (bandFld k).lo = 2 ∧ (bandFld k).lo ≤ (bandFld k).hi ∧ (bandFld k).hi < 64 := by
      unfold bandFld
      split <;> decide
    rw [State.get_put_self _ _ _ _ hw.2.1 hw.2.2, hw.1, Nat.mod_eq_of_lt (a := b) (b := 2 ^ 2) hb]

theorem State.le_get_bandUp (s : State) (k : Nat) : hbmBand (s.stackHot k) ≤ (s.bandUp k).get (bandFld k) := by
  unfold State.bandUp
  split
  · exact (State.get_setBand _ _ (hbmBand_lt _)).ge
  · omega

theorem hbmTemperaturePoll_gives {s : State} (h : s.Runs) (k : Fin 2) (t : Int) : Gives (.hbmTemperaturePoll k t) s fun u =>
    tget k.val u.hbm.stackTemp = some t ∧ hbmBand (u.stackHot k) ≤ u.get (bandFld k) := by
  refine gives_of_awake h rfl ?_
  have hk := State.keeps_bandUp { s with hbm := { s.hbm with stackTemp := tput k t s.hbm.stackTemp } } k
  refine ⟨?_, ?_⟩
  · rw [hk.hbm_eq]
    exact tget_tput_self _ _ _
  · rw [State.stackHot, hk.hbm_eq, hk.hkp_eq]
    exact State.le_get_bandUp _ _

/-! Reads (R534) -/

theorem State.errOf_setErr (s : State) (w : Nat) (e : BitVec 72) : (s.setErr w e).errOf w = e := tgetD_tset_self _ _ _ _

theorem eccClass_zero : eccClass 0 = .clean := by decide

theorem State.seenWord_of_clean {s : State} {w : Nat} (h : s.errOf w = 0) : s.seenWord w = s.wordAt w := by
  have hx : s.wordAt w ^^^ (0 : BitVec 72).setWidth 64 = s.wordAt w := BitVec.xor_zero
  rw [State.seenWord, h, eccClass_zero]
  exact hx

theorem State.hbcRead_of_clean {s : State} {w : Nat} (h : s.errOf w = 0) :
    s.hbcRead w = (s, { data := s.wordAt w, poisoned := false }) := by
  rw [State.hbcRead, h, eccClass_zero, State.seenWord_of_clean h]

theorem State.out_send_value (s : State) (v : BitVec 64) : (s.send (.value v)).out = s.out ++ [.value v] := by
  have hport : (Out.value v).port = 0 := rfl
  simp [State.send, State.txIdle, hport, Out.isCompletion]

theorem State.out_pageRead (s : State) (page : Nat) (f : State → State) : (f s).out <+: (s.pageRead page f).out := by
  unfold State.pageRead
  extract_lets bad u
  split
  · exact ((State.tame_pageLost u page).trans (State.tame_flow _)).out
  · exact List.prefix_rfl

theorem hbmRead_gives {s : State} (h : s.Runs) (who : Initiator) (a : Nat) (upset : BitVec 72) (ha : inHbm a = true)
    (hd : s.decoded who a = true) (hu : s.errOf (a / 8) = upset) :
    Gives (.hbmRead who a upset) s fun u => s.out ++ [.value (s.wordAt (a / 8))] <+: u.out := by
  refine gives_of_awake h rfl ?_
  have hclean : (s.setErr (a / 8) (s.errOf (a / 8) ^^^ upset)).errOf (a / 8) = 0 := by
    rw [State.errOf_setErr, hu]
    exact BitVec.xor_self
  simp only [ha, hd, Bool.not_true, Bool.false_eq_true, if_false]
  refine List.IsPrefix.trans ?_ (State.out_pageRead _ _ _)
  simp only [State.hbcRead_of_clean hclean, Bool.false_eq_true, if_false, State.out_send_value]
  exact List.prefix_rfl

/-! The patrol (R546) -/

theorem State.get_bump_apart (s : State) {f g : Fld} (i j n : Nat) (h : f.apart g = true := by decide) :
    (s.bump f i n).get g j = s.get g j := s.get_put_apart i j _ h

theorem State.patrol_markHard (s : State) (row : Nat) : (s.markHard row).get F.HBC_STAT.PATROL 0 = s.get F.HBC_STAT.PATROL 0 := by
  unfold State.markHard
  split
  · rfl
  · rw [(State.keeps_appendSoft _ _).get F.HBC_STAT.PATROL 0, (State.keeps_raise _ _).get F.HBC_STAT.PATROL 0,
      State.get_bump_apart _ (f := F.HBC_STAT.HARDROWS) (g := F.HBC_STAT.PATROL), State.get_update]

theorem State.patrol_countRow (s : State) (row : Nat) : (s.countRow row).get F.HBC_STAT.PATROL 0 = s.get F.HBC_STAT.PATROL 0 := by
  unfold State.countRow
  extract_lets +onlyGivenNames s1 s2 c
  have h1 : s1.get F.HBC_STAT.PATROL 0 = s.get F.HBC_STAT.PATROL 0 :=
    ((State.keeps_raise _ _).get F.HBC_STAT.PATROL 0).trans (State.get_bump_apart _ (f := F.HBC_STAT.CECOUNT) _ _ _)
  have h2 : s2.get F.HBC_STAT.PATROL 0 = s1.get F.HBC_STAT.PATROL 0 :=
    (Keeps.after (F := ⟨[.CIC_SRC_STAT], [.cic, .evt, .hbm]⟩) (State.keeps_updRow _ _ _).up (State.keeps_rowEntry _ _).up).get F.HBC_STAT.PATROL 0
  have h := h2.trans h1
  split
  · split
    · exact (s2.patrol_markHard row).trans h
    · exact h
  · split
    · exact (Keeps.get (F := ⟨[.CIC_SRC_STAT], [.cic, .evt, .hbm]⟩) (.after (State.keeps_raise _ _).up
        (.after (State.keeps_updRow _ _ _).up (State.keeps_rewriteRow _ _).up)) F.HBC_STAT.PATROL 0).trans h
    · exact h

theorem State.patrol_pageWriteBack (s : State) (p : Nat) :
    (s.pageWriteBack p).get F.HBC_STAT.PATROL 0 = s.get F.HBC_STAT.PATROL 0 := by
  rw [State.pageWriteBack, (State.keeps_raise _ _).get F.HBC_STAT.PATROL 0, State.get_update]
  exact State.get_bump_apart _ (f := F.HBC_STAT.RSCOUNT) _ _ _

theorem State.patrol_hbcRead (s : State) (w : Nat) : (s.hbcRead w).1.get F.HBC_STAT.PATROL 0 = s.get F.HBC_STAT.PATROL 0 := by
  unfold State.hbcRead
  split
  · rfl
  · exact s.patrol_countRow _
  · split
    · exact s.patrol_pageWriteBack _
    · exact (s.keeps_logUE w).get F.HBC_STAT.PATROL 0

theorem State.patrol_hbcReadRun (s : State) (a n : Nat) :
    (s.hbcReadRun a n).1.get F.HBC_STAT.PATROL 0 = s.get F.HBC_STAT.PATROL 0 := by
  unfold State.hbcReadRun
  extract_lets ws
  suffices h : ∀ p : State × Option Nat, (ws.foldl (fun (acc : State × Option Nat) w =>
    match acc.2 with
    | some _ => acc
    | none =>
      let r := acc.1.hbcRead w
      (r.1, if r.2.poisoned then some w else none)) p).1.get F.HBC_STAT.PATROL 0 = p.1.get F.HBC_STAT.PATROL 0 from h (s, none)
  induction ws with
  | nil => exact fun p => rfl
  | cons w ws ih =>
    intro p
    rw [List.foldl_cons, ih]
    split
    · rfl
    · exact p.1.patrol_hbcRead w

theorem State.patrol_patrolPage (s : State) (page : Nat) :
    (patrolPage page s).get F.HBC_STAT.PATROL 0 = if page = 0x279FFFF then 0 else 1 := by
  unfold patrolPage
  extract_lets +onlyGivenNames last s1 s2 s3
  have h1 : s1.get F.HBC_STAT.PATROL 0 = if page = 0x279FFFF then 0 else 1 := by
    rw [State.get_put_same _ F.HBC_STAT.PATROL]
    simp only [last, decide_eq_true_eq]
    split <;> rfl
  have h2 : s2.get F.HBC_STAT.PATROL 0 = s1.get F.HBC_STAT.PATROL 0 := s1.patrol_hbcReadRun _ _
  have h3 : s3.get F.HBC_STAT.PATROL 0 = s2.get F.HBC_STAT.PATROL 0 := by
    unfold s3
    split
    · exact s2.patrol_pageWriteBack _
    · rfl
  have h := h3.trans (h2.trans h1)
  split
  · exact ((s3.keeps_raise _).get F.HBC_STAT.PATROL 0).trans h
  · exact h

theorem patrolScrub_gives {s : State} (h : s.Runs) (page : Nat) (l : List (Nat × BitVec 72)) (hd : s.get F.HBC_INIT.DONE = 1)
    (hp : s.get F.HBC_CTL.PATROL_H ≠ 0) (hlo : 0x1000000 ≤ page) (hhi : page < 0x27A0000) :
    Gives (.patrolScrub page l) s fun u => u.get F.HBC_STAT.PATROL = if page = 0x279FFFF then 0 else 1 := by
  refine gives_of_awake h rfl ?_
  have hon : s.on F.HBC_INIT.DONE = true := by simp [State.on, hd]
  rw [if_pos ⟨hon, hp, hlo, hhi⟩, State.pageRead]
  have hpp := (s.upsetPage page l).patrol_patrolPage page
  split
  · exact (((State.keeps_pageLost _ _).andThen (State.keeps_flow _)).get F.HBC_STAT.PATROL 0).trans hpp
  · exact hpp

/-! The check-bit test mode (R548, R549) -/

theorem State.wordAt_of_mem {s t : State} (h : t.mem = s.mem) (w : Nat) : t.wordAt w = s.wordAt w := by
  rw [State.wordAt, State.rdBytes_of_mem h, State.wordAt]

theorem State.rightSym_of_mem {s t : State} (h : t.mem = s.mem) (p k : Nat) : t.rightSym p k = s.rightSym p k := by
  rw [State.rightSym, State.rdBytes_of_mem h, State.rightSym]

/-- The state in which a test operation acts. -/
def State.inTest (s : State) (op : Nat) : State := (s.put F.HBC_TEST_CTL.OP 0 op).put F.HBC_TEST_CTL.DONE 0 0

theorem State.keeps_inTest (s : State) (op : Nat) : Keeps ⟨[.HBC_TEST_CTL], []⟩ s (s.inTest op) :=
  .after (State.keeps_put _ _ _ _).up (State.keeps_put _ _ _ _).up

/-- The test mode is on, not locked off, and its address lies in HBM. -/
structure State.Testing (s : State) : Prop where
  en : s.get F.HBC_TEST_CTL.EN = 1
  unlocked : s.get F.HBC_CTL.TLOCK = 0
  inside : inHbm (8 * s.testWord) = true

theorem State.Testing.put {s : State} (h : s.Testing) (f : Fld) (x : Nat) (hf : f.apart F.HBC_TEST_CTL.EN = true := by decide)
    (hr : f.reg = .HBC_TEST_CTL := by rfl) : (s.put f 0 x).Testing := by
  have hk : Keeps ⟨[.HBC_TEST_CTL], []⟩ s (s.put f 0 x) := by
    have := s.keeps_put f 0 x
    rwa [hr] at this
  have haddr : (s.put f 0 x).testWord = s.testWord := hk.get F.HBC_TEST_ADDR.ADDR 0
  exact ⟨(s.get_put_apart 0 0 x hf).trans h.en, (hk.get F.HBC_CTL.TLOCK 0).trans h.unlocked, haddr ▸ h.inside⟩

theorem testOp_eq {s : State} (h : s.Testing) (op : Nat) (g : State → State) :
    testOp op g s = ((g (s.inTest op)).put F.HBC_TEST_CTL.DONE 0 1).raise 276 := by
  have hin : inHbm (8 * (s.inTest op).testWord) = true := by
    rw [State.testWord, (s.keeps_inTest op).get F.HBC_TEST_ADDR.ADDR 0]
    exact h.inside
  have hc : (s.on F.HBC_TEST_CTL.EN && !s.on F.HBC_CTL.TLOCK) = true := by simp [State.on, h.en, h.unlocked]
  rw [testOp, if_pos hc, ← State.inTest]
  exact congrArg (fun u : State => (u.put F.HBC_TEST_CTL.DONE 0 1).raise 276) (if_pos hin)

/-- The end of a test operation: DONE is set, and the rest of what the operation did stays. -/
theorem State.testEnd_gives (u : State) : ((u.put F.HBC_TEST_CTL.DONE 0 1).raise 276).get F.HBC_TEST_CTL.DONE = 1 ∧
    Keeps ⟨[.HBC_TEST_CTL, .CIC_SRC_STAT], [.evt, .cic]⟩ u ((u.put F.HBC_TEST_CTL.DONE 0 1).raise 276) := by
  refine ⟨?_, .after (State.keeps_raise _ _).up (State.keeps_put _ _ _ _).up⟩
  rw [(State.keeps_raise _ _).get F.HBC_TEST_CTL.DONE 0, State.get_put_same _ F.HBC_TEST_CTL.DONE]
  rfl

theorem setWidth_shift_append {m n : Nat} (x : BitVec m) (y : BitVec n) : ((x ++ y) >>> n).setWidth m = x := by
  ext i hi
  simp [BitVec.getLsbD_append, hi]

theorem testWriteWord_gives {s : State} (hs : s.Runs) (h : s.Testing) (chk : BitVec 8) : Gives (.testWriteWord chk) s fun u =>
    u.get F.HBC_TEST_CTL.DONE = 1 ∧ u.mem = s.mem ∧
      s.wordAt s.testWord ^^^ (u.errOf s.testWord).setWidth 64 = s.reg .HBC_TEST_DATA 0 ∧
        Config.checkBits (s.wordAt s.testWord) ^^^ (u.errOf s.testWord >>> 64).setWidth 8 = chk := by
  refine gives_of_awake hs rfl ?_
  rw [testOp_eq (h.put F.HBC_TEST_CTL.CHK _)]
  have hv := (s.keeps_put F.HBC_TEST_CTL.CHK 0 chk.toNat).andThen (State.keeps_inTest _ 1)
  generalize (s.put F.HBC_TEST_CTL.CHK 0 chk.toNat).inTest 1 = v at hv
  obtain ⟨hdone, hend⟩ := (testStore chk v).testEnd_gives
  have haddr : v.testWord = s.testWord := hv.get F.HBC_TEST_ADDR.ADDR 0
  have herr : (testStore chk v).errOf s.testWord =
      (chk ^^^ Config.checkBits (s.wordAt s.testWord)) ++ (s.reg .HBC_TEST_DATA 0 ^^^ s.wordAt s.testWord) := by
    rw [testStore, haddr, State.errOf_setErr, State.wordAt_of_mem hv.mem_eq, hv.reg .HBC_TEST_DATA 0]
  have herr' := (congrArg (fun b : Hbm => tgetD s.testWord 0 b.err) hend.hbm_eq).trans herr
  refine ⟨hdone, (hend.mem_eq).trans ((keeps_testStore chk v).mem_eq.trans hv.mem_eq), ?_, ?_⟩
  · rw [State.errOf, herr', BitVec.setWidth_append_eq_right, BitVec.xor_comm, BitVec.xor_assoc, BitVec.xor_self, BitVec.xor_zero]
  · rw [State.errOf, herr', setWidth_shift_append (m := 8) (n := 64), BitVec.xor_comm, BitVec.xor_assoc, BitVec.xor_self, BitVec.xor_zero]

theorem testReadWord_gives {s : State} (hs : s.Runs) (h : s.Testing) : Gives .testReadWord s fun u =>
    u.get F.HBC_TEST_CTL.DONE = 1 ∧ u.reg .HBC_TEST_DATA 0 = s.wordAt s.testWord ^^^ (s.errOf s.testWord).setWidth 64 := by
  refine gives_of_awake hs rfl ?_
  rw [testOp_eq h]
  have hv := s.keeps_inTest 2
  generalize s.inTest 2 = v at hv
  obtain ⟨hdone, hend⟩ := (testLoad v).testEnd_gives
  have haddr : v.testWord = s.testWord := hv.get F.HBC_TEST_ADDR.ADDR 0
  have herr : v.errOf s.testWord = s.errOf s.testWord := by rw [State.errOf, hv.hbm_eq, State.errOf]
  refine ⟨hdone, ?_⟩
  rw [hend.reg .HBC_TEST_DATA 0, testLoad, haddr, State.reg_put_ne _ .HBC_TEST_DATA, State.reg_setReg_self, State.wordAt_of_mem hv.mem_eq, herr]

theorem testWriteSymbol_gives {s : State} (hs : s.Runs) (h : s.Testing) (k : Fin 32) : Gives (.testWriteSymbol k) s fun u =>
    u.get F.HBC_TEST_CTL.DONE = 1 ∧ s.rightSym (s.testWord / 512) k ^^^ tgetD (32 * (s.testWord / 512) + k) 0 u.hbm.symErr =
      (s.reg .HBC_TEST_DATA 0).setWidth 16 := by
  refine gives_of_awake hs rfl ?_
  rw [testOp_eq (h.put F.HBC_TEST_CTL.SYM _)]
  have hv := (s.keeps_put F.HBC_TEST_CTL.SYM 0 k).andThen (State.keeps_inTest _ 3)
  generalize (s.put F.HBC_TEST_CTL.SYM 0 k).inTest 3 = v at hv
  obtain ⟨hdone, hend⟩ := (testStoreSym k v).testEnd_gives
  have haddr : v.testWord = s.testWord := hv.get F.HBC_TEST_ADDR.ADDR 0
  have hsym : tgetD (32 * (s.testWord / 512) + k) 0 (testStoreSym k v).hbm.symErr =
      (s.reg .HBC_TEST_DATA 0).setWidth 16 ^^^ s.rightSym (s.testWord / 512) k := by
    rw [← haddr, ← State.rightSym_of_mem hv.mem_eq, ← hv.reg .HBC_TEST_DATA 0]
    exact tgetD_tset_self _ _ _ _
  refine ⟨hdone, ?_⟩
  rw [hend.hbm_eq, hsym, BitVec.xor_comm, BitVec.xor_assoc, BitVec.xor_self, BitVec.xor_zero]

theorem testReadSymbol_gives {s : State} (hs : s.Runs) (h : s.Testing) (k : Fin 32) : Gives (.testReadSymbol k) s fun u =>
    u.get F.HBC_TEST_CTL.DONE = 1 ∧ (u.reg .HBC_TEST_DATA 0).setWidth 16 =
      s.rightSym (s.testWord / 512) k ^^^ tgetD (32 * (s.testWord / 512) + k) 0 s.hbm.symErr := by
  refine gives_of_awake hs rfl ?_
  rw [testOp_eq (h.put F.HBC_TEST_CTL.SYM _)]
  have hv := (s.keeps_put F.HBC_TEST_CTL.SYM 0 k).andThen (State.keeps_inTest _ 4)
  generalize (s.put F.HBC_TEST_CTL.SYM 0 k).inTest 4 = v at hv
  obtain ⟨hdone, hend⟩ := (testLoadSym k v).testEnd_gives
  have haddr : v.testWord = s.testWord := hv.get F.HBC_TEST_ADDR.ADDR 0
  refine ⟨hdone, ?_⟩
  rw [hend.reg .HBC_TEST_DATA 0, testLoadSym, haddr, State.reg_setReg_self, State.rightSym_of_mem hv.mem_eq, hv.hbm_eq]
  ext i hi
  simp [hi]

end Sys2Proof.Machine
end

section
open Sys2Proof Sys2Proof.Machine

/-- Settles O17, command by command. -/
theorem hbmCommands : Obligations.HbmCommands := fun _ h =>
  ⟨hbmFillStart_gives h, hbmFillDone_gives h, hbmTemperaturePoll_gives h, hbmRead_gives h, patrolScrub_gives h,
    fun hen hlock hin =>
      have ht : State.Testing _ := ⟨hen, hlock, hin⟩
      ⟨testWriteWord_gives h ht, testReadWord_gives h ht, testWriteSymbol_gives h ht, testReadSymbol_gives h ht⟩⟩

end

section
-- One proof at a time: as many threads as there are lemmas here do not fit beside the model.
set_option Elab.async false
namespace Sys2Proof.Machine

/-! The convoy engine off, and encoding (R16, R229, R254) -/

theorem convoyEngineDisable_gives (s : State) (h : s.Runs) : Gives .convoyEngineDisable s fun u =>
    u.get F.CVY_CTL.EN = 0 ∧ u.get F.CVY_STAT.IDLE = 1 ∧ u.conv = s.conv ∧ u.mem = s.mem := by
  refine gives_of_awake h rfl ⟨?_, ?_, ?_, ?_⟩
  · rw [State.get_put_apart _ (f := F.CVY_STAT.IDLE) (g := F.CVY_CTL.EN), State.get_put_same _ F.CVY_CTL.EN]
    rfl
  · rw [State.get_put_same _ F.CVY_STAT.IDLE]
    rfl
  · exact ((s.keeps_put F.CVY_CTL.EN 0 0).andThen (State.keeps_put _ F.CVY_STAT.IDLE 0 1)).conv_eq
  · exact ((s.keeps_put F.CVY_CTL.EN 0 0).andThen (State.keeps_put _ F.CVY_STAT.IDLE 0 1)).mem_eq

theorem ldpcEncode_gives (s : State) (h : s.Runs) (q : Fin 32) (n : Nat) (l : Fin 256) (hd : s.domHeld 107 = false)
    (hen : s.get F.MED_CTL.EN = 1) (hl : s.lineFull l = false) (hp : s.get F.PMC_CTL.EN 39 = 0) :
    Gives (.ldpcEncode q n l) s fun u => u = s.accept { line := l } := by
  refine gives_of_exec (execLdpcEncode q n l s) rfl ?_
  unfold execLdpcEncode
  have hpmc : s.pmc 0x07 0x11 n = s := State.pmc_of_off 0x11 n hp
  have hroom : s.complete { line := l } = s.accept { line := l } := State.complete_of_room hl
  rw [State.awake_of_runs _ h, if_neg (by simp [hd]), State.on, if_pos (by simp [hen]), hpmc, hroom]
  exact .intro rfl

end Sys2Proof.Machine
end

section
open Sys2Proof Sys2Proof.Machine

/-- Settles O27: switching off writes two fields, and an encoding with nothing in its way is the acceptance of its pulse. -/
theorem parityEngineControl : Obligations.ParityEngineControl := fun s h =>
  ⟨convoyEngineDisable_gives s h, fun q n l hd hen hl hp => ldpcEncode_gives s h q n l hd hen hl hp⟩

end

section
-- One proof at a time: as many threads as there are lemmas here do not fit beside the model.
set_option Elab.async false
namespace Sys2Proof.Machine

/-- Has fetching been stopped? -/
def State.stopped (s : State) : Bool := s.hif.fetchStop

theorem Keeps.stopped {F : Foot} {s t : State} (h : Keeps F s t) (hp : F.parts.contains .hif = false := by decide +kernel) :
    Same State.stopped s t := congrArg Hif.fetchStop (h.hif_eq hp)

theorem State.stopped_setFunc (s : State) (f : Nat) (v : Func) : Same State.stopped s (s.setFunc f v) := by
  unfold State.setFunc
  exact .update (.refl _) rfl

theorem State.stopped_setCtl (s : State) (t : Tenant) (v : Func) : Same State.stopped s (s.setCtl t v) := by
  unfold State.setCtl
  split
  · exact State.stopped_setFunc _ _ _
  · exact (State.keeps_setAssoc _ _ _).stopped

theorem State.stopped_sendMsix (s : State) (f : Nat) (v : Nat) : Same State.stopped s (s.sendMsix f v) := by
  unfold State.sendMsix
  exact .ite (fun _ => .ite (fun _ => .refl _) fun _ => .update (.refl _) rfl) fun _ => .ite
    (fun _ => (State.keeps_raise _ _).stopped) fun _ => (State.keeps_send _ _).stopped

theorem State.stopped_coalSend (s : State) (f : Nat) (v : Nat) : Same State.stopped s (s.coalSend f v) := by
  unfold State.coalSend
  exact .after (State.stopped_sendMsix _ _ _) (.update (.refl _) rfl)

theorem State.stopped_interrupt (s : State) (f : Nat) (cqid : Nat) (v : Nat) : Same State.stopped s (s.interrupt f cqid v) := by
  unfold State.interrupt
  exact .ite (fun _ => State.stopped_coalSend _ _ _) fun _ => .update (.refl _) rfl

theorem State.stopped_putCqe (s : State) (f : Nat) (cqid : Nat) (q : Cq) (e : CqEntry) : Same State.stopped s (s.putCqe f cqid q e) := by
  unfold State.putCqe
  exact .after (.after (.ite (fun _ => State.stopped_interrupt _ _ _ _) fun _ => .refl _) ((State.keeps_emitQuiet _ _).stopped))
    (State.stopped_setFunc _ _ _)

theorem State.stopped_postEntry (s : State) (f : Nat) (cqid : Nat) (e : CqEntry) : Same State.stopped s (s.postEntry f cqid e) := by
  unfold State.postEntry
  split
  · exact .refl _
  · exact .after (.ite (fun _ => State.stopped_setFunc _ _ _) fun _ => State.stopped_putCqe _ _ _ _ _) ((State.keeps_digest _ _ _).stopped)

theorem State.stopped_postCqe (s : State) (f : Nat) (c : Ctx) (r : Cpl) : Same State.stopped s (s.postCqe f c r) := by
  unfold State.postCqe
  split
  · exact .refl _
  · exact .after (State.stopped_postEntry _ _ _ _) (State.stopped_setFunc _ _ _)

theorem State.stopped_errPut (s : State) (e : ErrEntry) : Same State.stopped s (s.errPut e) := by
  unfold State.errPut
  exact .update (.refl _) rfl

theorem State.stopped_logError (s : State) (c : Ctx) (r : Cpl) : Same State.stopped s (s.logError c r) := by
  unfold State.logError
  exact .ite (fun _ => .refl _) fun _ => State.stopped_errPut _ _

theorem State.stopped_release (s : State) (stamp : BitVec 64) : Same State.stopped s (s.release stamp) := by
  unfold State.release
  exact .update (.refl _) rfl

theorem State.stopped_finish (s : State) (c : Ctx) (r : Cpl) : Same State.stopped s (s.finish c r) := by
  unfold State.finish
  split
  · exact .refl _
  · extract_lets +onlyGivenNames s1
    have hs1 : Same State.stopped s s1 := .after (State.stopped_logError _ _ _) (.after ((State.keeps_tallyLat _ _).stopped)
      (State.stopped_release _ _))
    split
    · exact .after (State.stopped_postCqe _ _ _ _) hs1
    · exact .after ((State.keeps_postCapsule _ _ _).stopped) hs1

theorem State.stopped_postTo (typ : Nat) (info : Nat) (s : State) (t : Tenant) : Same State.stopped s (State.postTo typ info s t) := by
  unfold State.postTo
  extract_lets +onlyGivenNames c1
  split
  · exact .refl _
  · split
    · exact .after (State.stopped_finish _ _ _) (State.stopped_setCtl _ _ _)
    · exact .ite (fun _ => .refl _) fun _ => State.stopped_setCtl _ _ _

theorem State.stopped_event (s : State) (typ : Nat) (info : Nat) (bit : Option Nat) : Same State.stopped s (s.event typ info bit) := by
  unfold State.event
  exact .foldl (fun _ _ => .ite (fun _ => State.stopped_postTo _ _ _ _) fun _ => .refl _) _ _

theorem State.stopped_nsChanged (s : State) (l : List Nat) : Same State.stopped s (s.nsChanged l) := by
  unfold State.nsChanged
  exact .after (State.stopped_event _ _ _ _) (.foldl (fun _ _ => State.stopped_setCtl _ _ _) _ _)

theorem State.stopped_vendor (s : State) (i : Nat) : Same State.stopped s (s.vendor i) := by
  unfold State.vendor
  exact State.stopped_event _ _ _ _

theorem State.stopped_critSet (s : State) (n : Nat) : Same State.stopped s (s.critSet n) := by
  unfold State.critSet
  exact .ite (fun _ => .refl _) fun _ => .after (State.stopped_event _ _ _ _) (.update (.refl _) rfl)

theorem State.stopped_critClear (s : State) (n : Nat) : Same State.stopped s (s.critClear n) := by
  unfold State.critClear
  exact .update (.refl _) rfl

theorem State.stopped_fail (s : State) (c : Ctx) (sct : Nat) (sc : Nat) : Same State.stopped s (s.fail c sct sc) := by
  unfold State.fail
  exact .after (State.stopped_finish _ _ _) ((State.keeps_unchargeAll _ _).stopped)

theorem State.stopped_physCheck (s : State) : Same State.stopped s s.physCheck := by
  unfold State.physCheck
  exact .ite (fun _ => .refl _) fun _ => .ite (fun _ => .ite (fun _ => .after ((State.keeps_healthNote _).stopped)
    (.update (.refl _) rfl)) fun _ => .refl _) fun _ => .ite (fun _ => .after ((State.keeps_healthNote _).stopped)
    (.after (State.stopped_vendor _ _) (.update (.refl _) rfl))) fun _ => .refl _

theorem State.stopped_pageLost (s : State) (page : Nat) : Same State.stopped s (s.pageLost page) := by
  unfold State.pageLost
  exact .ite (fun _ => .refl _) fun _ => .foldl (fun _ _ => .after (State.stopped_fail _ _ _ _) ((State.keeps_giveBack _ _).stopped)) _ _

theorem State.stopped_engFetch (s : State) (a1 : List (Nat × Nat)) : Same State.stopped s (s.engFetch a1).1 := by
  fun_induction s.engFetch a1
  · exact .refl _
  · exact .refl _
  · exact .after (State.stopped_pageLost _ _) ((State.keeps_hbcReadRun _ _ _).stopped)
  · rename_i ih6
    exact .after ih6 ((State.keeps_hbcReadRun _ _ _).stopped)

theorem State.stopped_roJudge (s : State) : Same State.stopped s s.roJudge := by
  unfold State.roJudge
  exact .ite (fun _ => .refl _) fun _ => .after (.after ((State.keeps_healthSave _).stopped)
    (.ite (fun _ => .after (State.stopped_critSet _ _) (.after (State.stopped_nsChanged _ _) (.update (.refl _) rfl))) fun _ => .ite
    (fun _ => .after (State.stopped_critClear _ _) (.update (.refl _) rfl)) fun _ => .refl _))
    (.ite (fun _ => .update (.refl _) rfl) fun _ => .refl _)

theorem State.stopped_resJudge (s : State) (k : Nat) : Same State.stopped s (s.resJudge k) := by
  unfold State.resJudge
  exact .ite (fun _ => .refl _) fun _ => .after
    (.after (.ite (fun _ => .ite (fun _ => State.stopped_critSet _ _) fun _ => State.stopped_critClear _ _) fun _ => .refl _)
    (.ite (fun _ => .refl _) fun _ => State.stopped_vendor _ _)) (.update (.refl _) rfl)

theorem State.stopped_judge (s : State) : Same State.stopped s s.judge := by
  unfold State.judge
  exact .after (State.stopped_roJudge _) (.after (State.stopped_physCheck _) (.foldl (fun _ _ => State.stopped_resJudge _ _) _ _))

theorem State.stopped_cphFault (s : State) (n : Nat) : Same State.stopped s (s.cphFault n) := by
  unfold State.cphFault
  exact .after (.after (State.stopped_judge _) (.after ((State.keeps_raise _ _).stopped) ((State.keeps_cphCores _).stopped)))
    (.after ((State.keeps_put _ _ _ _).stopped) (.after ((State.keeps_bump _ _ _ _).stopped) ((State.keeps_put _ _ _ _).stopped)))

theorem State.stopped_invFail (s : State) (run : CphRun) : Same State.stopped s (s.invFail run) := by
  unfold State.invFail
  exact .ite (fun _ => .refl _) fun _ => .after (.ite (fun _ => State.stopped_cphFault _ _) fun _ => .refl _)
    ((State.keeps_bump _ _ _ _).stopped)

theorem State.stopped_cphFetch (s : State) (op : Nat) (r : Nat) (d : CphDesc) : Same State.stopped s (s.cphFetch op r d).1 := by
  unfold State.cphFetch
  split
  · exact .refl _
  · exact State.stopped_engFetch _ _

theorem State.stopped_cphTake (s : State) (op : Nat) (r : Nat) (d : CphDesc) (run : CphRun) : Same State.stopped s
    (s.cphTake op r d run) := by
  unfold State.cphTake
  exact .after (.after (.after (.after (.after (.after ((State.keeps_complete _ _).stopped) ((State.keeps_pmc _ _ _ _).stopped))
    (.ite (fun _ => (State.keeps_pmc _ _ _ _).stopped) fun _ => .refl _)) (.ite (fun _ => State.stopped_invFail _ _) fun _ => .refl _))
    ((State.keeps_cphWrite _ _ _ _).stopped)) (.ite (fun _ => (State.keeps_takeNonce _ _).stopped) fun _ => .refl _))
    (.after ((State.keeps_pmc _ _ _ _).stopped) (.after ((State.keeps_put _ _ _ _).stopped) (State.stopped_cphFetch _ _ _ _)))

/-! The error state of the module (R425) -/

theorem State.secStop_gives (s : State) (code : Nat) (hc : code < 256) : (s.secStop code).get F.SEC_MODE.MODE = 3 ∧
    (s.secStop code).get F.SEC_MODE.ERRCODE = code ∧ (s.secStop code).stopped = true := by
  unfold State.secStop
  extract_lets +onlyGivenNames s1 h s2 s3
  have hmode : s1.get F.SEC_MODE.MODE = 3 := by
    rw [State.get_put_apart _ (f := F.SEC_MODE.ERRCODE) (g := F.SEC_MODE.MODE), State.get_put_same _ F.SEC_MODE.MODE]
    rfl
  have hcode : s1.get F.SEC_MODE.ERRCODE = code := by
    rw [State.get_put_same _ F.SEC_MODE.ERRCODE]
    exact Nat.mod_eq_of_lt hc
  clear_value s1
  have hk : Keeps (Foot.mk [] [.hif]) s1 s2 := .update (.refl _) rfl
  have hstop : s2.stopped = true := rfl
  clear_value s2
  have hfail : Same State.stopped s2 s3 := .foldl (fun s c => s.stopped_fail c 0 0x06) _ _
  have hfoot : Keeps _ s2 s3 := .foldl (fun s c => s.keeps_fail c 0 0x06) _ _
  have hend : Keeps _ s3 (((s3.setFault 6).setFault 1).raise 9) :=
    ((s3.keeps_setFault 6).andThen (State.keeps_setFault _ 1)).andThen (State.keeps_raise _ 9)
  have hall := (hk.andThen hfoot).andThen hend
  exact ⟨(hall.get F.SEC_MODE.MODE 0).trans hmode, (hall.get F.SEC_MODE.ERRCODE 0).trans hcode,
    Eq.trans (hfail.trans hend.stopped) hstop⟩

theorem entropyTestFailure_gives {s : State} (h : s.Runs) : Gives .entropyTestFailure s fun u =>
    u.get F.SEC_MODE.MODE = 3 ∧ u.get F.SEC_MODE.ERRCODE = 2 ∧ u.hif.fetchStop = true := by
  refine gives_of_awake h rfl ?_
  unfold State.secError
  extract_lets t
  obtain ⟨hmode, hcode, hstop⟩ : t.get F.SEC_MODE.MODE = 3 ∧ t.get F.SEC_MODE.ERRCODE = 2 ∧ t.stopped = true :=
    s.secStop_gives 2 (by decide)
  clear_value t
  have hkeys : Keeps ⟨[], [.keys]⟩ t { t with keys := { t.keys with waitJobs := [] } } := .update (.refl _) rfl
  have htake := Keeps.foldl (fun (s : State) (w : CphWait) => s.keeps_cphTake w.op w.ring w.d w.run) s.keys.waitJobs
    { t with keys := { t.keys with waitJobs := [] } }
  have hstay := Same.foldl (fun (s : State) (w : CphWait) => s.stopped_cphTake w.op w.ring w.d w.run) s.keys.waitJobs
    { t with keys := { t.keys with waitJobs := [] } }
  have hall := hkeys.andThen htake
  exact ⟨(hall.get F.SEC_MODE.MODE 0).trans hmode, (hall.get F.SEC_MODE.ERRCODE 0).trans hcode,
    Eq.trans (hkeys.stopped.trans hstay) hstop⟩

end Sys2Proof.Machine
end

section
open Sys2Proof Sys2Proof.Machine

/-- Settles O34: fetching, once stopped, stays so while the commands held end and the waiting jobs are refused. -/
theorem entropyFailure : Obligations.EntropyFailure := fun _ h => entropyTestFailure_gives h

end

section
-- One proof at a time: as many threads as there are lemmas here do not fit beside the model.
set_option Elab.async false
namespace Sys2Proof.Machine

/-- The requests that the channels hold. -/
def State.mbxCur (s : State) : Tbl Msg := s.mbx.cur

theorem Keeps.mbxCur {F : Foot} {s t : State} (h : Keeps F s t) (hp : F.parts.contains .mbx = false := by decide +kernel) :
    Same State.mbxCur s t := congrArg Mbx.cur (h.mbx_eq hp)

theorem State.mbxCur_setReply (s : State) (c : Nat) (r : Reply) (replayed : Bool) : Same State.mbxCur s (s.setReply c r replayed) := by
  unfold State.setReply
  exact .update (.refl _) rfl

theorem State.mbxCur_answer (s : State) (op : Nat) (m : Msg) (here : Bool) (code : Nat) (detail : Nat) (body : Bytes)
    (more : Bool) : Same State.mbxCur s (s.answer op m here code detail body more) := by
  unfold State.answer
  exact .after (.after (.ite (fun _ => .ite (fun _ => (State.keeps_send _ _).mbxCur) fun _ => .refl _) fun _ => .ite
    (fun _ => (State.keeps_emit _ _).mbxCur) fun _ => (State.keeps_digest _ _ _).mbxCur)
    (.ite (fun _ => State.mbxCur_setReply _ _ _ _) fun _ => .refl _)) (.update (.refl _) rfl)

theorem State.mbxCur_refuse (s : State) (op : Nat) (m : Msg) (a : Arrival) (code : Nat) (detail : Nat) : Same State.mbxCur s
    (s.refuse op m a code detail) := by
  unfold State.refuse
  exact State.mbxCur_answer _ _ _ _ _ _ _ _

theorem State.mbxCur_replay (s : State) (op : Nat) (m : Msg) (a : Arrival) : Same State.mbxCur s (s.replay op m a) := by
  unfold State.replay
  exact .ite (fun _ => .after ((State.keeps_send _ _).mbxCur) (State.mbxCur_setReply _ _ _ _)) fun _ => .refl _

theorem State.mbxCur_mailUnknown (s : State) (m : Msg) (a : Arrival) : Same State.mbxCur s (s.mailUnknown m a) := by
  unfold State.mailUnknown
  exact .ite (fun _ => .refl _) fun _ => .ite (fun _ => State.mbxCur_replay _ _ _ _) fun _ => .ite
    (fun _ => State.mbxCur_refuse _ _ _ _ _ _) fun _ => State.mbxCur_refuse _ _ _ _ _ _

/-! The mailbox channels (R463, R466) -/

theorem State.mbxCur_capture {f : State → State} (hf : ∀ t, Same State.mbxCur t (f t)) (s : State) (e : LEntry) :
    Same State.mbxCur s (s.capture e f) := by
  obtain ⟨t, hk, h | h⟩ := s.capture_cases e f
  · exact h ▸ hk.mbxCur
  · exact h ▸ hk.mbxCur.trans (hf t)

theorem State.mailGo_busy {s : State} {m : Msg} (hb : s.get F.MBX_CSR.BUSY m.chan = 1) :
    (s.mailGo m).get F.MBX_CSR.OVERRUN m.chan = 1 ∧ (s.mailGo m).mbx = s.mbx := by
  unfold State.mailGo
  extract_lets +onlyGivenNames c
  rw [State.on, if_pos (by simp [c, hb])]
  exact ⟨(s.get_put_same F.MBX_CSR.OVERRUN m.chan.val 1).trans rfl, (s.keeps_put F.MBX_CSR.OVERRUN m.chan.val 1).mbx_eq⟩

theorem State.mailGo_free {s : State} {m : Msg} (hb : s.get F.MBX_CSR.BUSY m.chan = 0) :
    (s.mailGo m).get F.MBX_CSR.BUSY m.chan = 1 ∧ (s.mailGo m).get F.MBX_CSR.RDY m.chan = 0 ∧
      tget m.chan.val (s.mailGo m).mbx.cur = some m := by
  unfold State.mailGo
  extract_lets +onlyGivenNames c s1 m1 s2
  rw [State.on, if_neg (by simp [c, hb])]
  have hbusy : s1.get F.MBX_CSR.BUSY c = 1 := by
    rw [(State.keeps_raise _ _).get F.MBX_CSR.BUSY c, State.get_put_apart _ (f := F.MBX_CSR.RDY) (g := F.MBX_CSR.BUSY),
      State.get_put_same _ F.MBX_CSR.BUSY]
    rfl
  have hrdy : s1.get F.MBX_CSR.RDY c = 0 := by
    rw [(State.keeps_raise _ _).get F.MBX_CSR.RDY c, State.get_put_same _ F.MBX_CSR.RDY]
    rfl
  clear_value s1
  have hcur : tget c s2.mbxCur = some m := by
    rw [(State.keeps_pmc _ 0x14 0x10 1).mbxCur]
    exact tget_tput_self _ _ _
  have hin : Keeps ⟨[.CIC_SRC_STAT, .PMC_CNT, .PMC_CTL], [.cic, .evt, .mbx]⟩ s1 s2 :=
    .after ((State.keeps_pmc _ _ _ _).up (by decide)) (.update (.refl _) rfl)
  clear_value s2
  have hend : ∀ u, u = (if servedLocally m.opcode.toNat then s2.mailUnknown m .here
      else if s2.isTrail then s2.peerTell (s2.msgEntry m) else s2.capture (s2.msgEntry m) fun s => s.mailUnknown m .here) →
      Keeps ⟨[.CIC_SRC_STAT, .PKP_CRED, .PMC_CNT, .PMC_CTL, .TWN_LINK, .TWN_STAT],
        [.arb, .cic, .evt, .hbm, .keys, .mbx, .mem, .out, .packs, .twn]⟩ s2 u ∧ Same State.mbxCur s2 u := by
    rintro u rfl
    split
    · exact ⟨(State.keeps_mailUnknown _ _ _).up, State.mbxCur_mailUnknown _ _ _⟩
    split
    · exact ⟨(State.keeps_peerTell _ _).up, (State.keeps_peerTell _ _).mbxCur⟩
    · exact ⟨State.keeps_capture _ _ _ (fun u => (u.keeps_mailUnknown m .here).up) (by decide),
        State.mbxCur_capture (fun u => u.mbxCur_mailUnknown m .here) _ _⟩
  obtain ⟨hk, hc⟩ := hend _ rfl
  exact ⟨((hin.andThen hk).get F.MBX_CSR.BUSY c).trans hbusy, ((hin.andThen hk).get F.MBX_CSR.RDY c).trans hrdy,
    (congrArg (tget c) hc).trans hcur⟩

theorem Keeps.rspBytes {G : Foot} {s t : State} (h : Keeps G s t) (c : Nat)
    (hp : ([.mbx, .straps, .arb] : List Region).all (fun p => !G.parts.contains p) = true := by decide +kernel)
    (hr : G.regs.contains .TWN_STAT = false := by decide +kernel) : t.rspBytes c = s.rspBytes c := by
  simp only [List.all_cons, List.all_nil, Bool.and_true, Bool.and_eq_true, Bool.not_eq_true'] at hp
  obtain ⟨hmbx, hstraps, harb⟩ := hp
  have htrail : t.isTrail = s.isTrail := by
    simp only [State.isTrail, State.joining, h.arb_eq harb, h.on F.TWN_STAT.PAIRED 0 hr, h.on F.TWN_STAT.ROLE 0 hr]
  simp only [State.rspBytes, h.mbx_eq hmbx, h.straps_eq hstraps, htrail]

theorem mailboxDone_gives {s : State} (h : s.Runs) (c : Fin 8) : Gives (.mailboxDone c) s fun u =>
    u.get F.MBX_CSR.BUSY c = 0 ∧ u.get F.MBX_CSR.RDY c = 1 ∧ tget c.val u.mbx.rsp = some (s.rspBytes c) := by
  refine gives_of_exec (execMailboxDone c s) rfl ?_
  unfold execMailboxDone
  rw [State.awake_of_runs _ h]
  extract_lets +onlyGivenNames s1 m1 s2 s3 s4
  refine .intro ?_
  have hbusy : s1.get F.MBX_CSR.BUSY c = 0 := by
    rw [State.get_put_apart _ (f := F.MBX_CSR.RDY) (g := F.MBX_CSR.BUSY), State.get_put_same _ F.MBX_CSR.BUSY]
    rfl
  have hrdy : s1.get F.MBX_CSR.RDY c = 1 := by
    rw [State.get_put_same _ F.MBX_CSR.RDY]
    rfl
  have hbytes : s1.rspBytes c = s.rspBytes c :=
    ((s.keeps_put F.MBX_CSR.BUSY c 0).andThen (State.keeps_put _ F.MBX_CSR.RDY c 1)).rspBytes c
  clear_value s1
  have hrsp : tget c.val s2.mbx.rsp = some (s.rspBytes c) := (tget_tput_self _ _ _).trans (congrArg some hbytes)
  have hk2 : Keeps ⟨[], [.mbx]⟩ s1 s2 := .update (.refl _) rfl
  clear_value s2
  have hk3 : Keeps ⟨[.CIC_SRC_STAT, .PMC_CNT, .PMC_CTL], [.cic, .evt]⟩ s2 s3 :=
    .after (State.keeps_pmc _ _ _ _) (State.keeps_pmc _ _ _ _)
  clear_value s3
  have hk4 : Keeps ⟨[.CIC_SRC_STAT], [.cic, .evt, .hif, .out]⟩ s3 s4 := by
    unfold s4
    split
    · exact .ite (fun _ => State.keeps_sendMsix _ _ _) fun _ => .refl _
    · exact .refl _
  clear_value s4
  have hk5 : Keeps ⟨[.CIC_SRC_STAT, .PKP_CRED, .PMC_CNT, .PMC_CTL], [.cic, .evt, .fab, .hif, .out, .packs, .tly, .twn]⟩ s4
      (if c = 7 then s4.giveMi else s4) := .ite (fun _ => State.keeps_giveMi _) fun _ => .refl _
  have hk := (hk3.andThen hk4).andThen hk5
  exact ⟨((hk2.andThen hk).get F.MBX_CSR.BUSY c).trans hbusy, ((hk2.andThen hk).get F.MBX_CSR.RDY c).trans hrdy,
    (congrArg (fun x => tget c.val x.rsp) hk.mbx_eq).trans hrsp⟩

end Sys2Proof.Machine
end

section
open Sys2Proof Sys2Proof.Machine

/-- Settles O38: what follows the submission of a request, or the end of one, leaves the channel's own state alone. -/
theorem mailboxChannels : Obligations.MailboxChannels := fun _ h =>
  ⟨fun _ hb => gives_of_awake h rfl (State.mailGo_busy hb), fun _ hb => gives_of_awake h rfl (State.mailGo_free hb),
    fun m hb => gives_of_awake h rfl (State.mailGo_free (m := { m with chan := 6 }) hb), fun c => mailboxDone_gives h c⟩

end

section
-- One proof at a time: as many threads as there are lemmas here do not fit beside the model.
set_option Elab.async false
namespace Sys2Proof.Machine

/-! A page drop that makes its own page one that has to be read (against R117) -/

/-- A well-formed request of operation `op` for bale 0 of namespace 1. -/
def Refill.req (op : Nat) (value : BitVec 64) : MapReq :=
  { q := 0, op := op, slot := 0
    d := { flags := 0, nsidx := 0, count := 0, bale := 0, value := value, expect := 0, fstamp := 5, blk := 0, mbz := true } }

/-- Page 0 was dropped with a record later than the one it was stored with, and later than the next one. A drop of it waits for the page, and a
commit to it waits for its grains. -/
def Refill.state : State := { State.reset with map := {
  misses := [(0, [Refill.req 6 0])]
  missOrder := [0]
  held := [Refill.req 2 (mkEntry 0 0 0 0 0 1 0 0)]
  dropped := [(0, 9)]
  ckpt := [(0, { inst := 0, jseq := 8, loc := 0, crc := 0 })] } }

theorem Refill.waits : Refill.state.Runs ∧ Refill.state.wantsPage 0 = true := by decide +kernel

/-- Once page 0 has come, the drop puts a smaller record, and the commit finds the page stored and not in the cache. -/
theorem Refill.missed_again : answerHas (fun u => (tget 0 u.map.misses).isNone) (exec (.mapPageMissFilled 0 true) Refill.state) = false := by
  decide +kernel

end Sys2Proof.Machine
end

section
open Sys2Proof Sys2Proof.Machine

/-- Refutes O24: what waits for a page that has come may miss it again, where the records of a drop and of the stored page are not in the order
that a run gives them. -/
theorem not_mapRounds : ¬ Obligations.MapRounds := by
  intro h
  obtain ⟨hruns, hwants⟩ := Refill.waits
  obtain ⟨hfilled, -⟩ := h Refill.state hruns
  refine absurd ((hfilled 0 hwants).answerHas (fun u => (tget 0 u.map.misses).isNone) fun u hu => ?_)
    (by rw [Refill.missed_again]; decide)
  rw [hu]
  rfl

end

section
-- One proof at a time: as many threads as there are lemmas here do not fit beside the model.
set_option Elab.async false
namespace Sys2Proof.Machine

/-! An accumulator in HBM that is not filled yet (against R253) -/

theorem State.engWrite_unseen (s : State) (a : Nat) (l : Bytes) (h : ∀ k, k < l.length → s.engineSees (a + k) = false) :
    s.engWrite a l = s := by
  induction l generalizing a with
  | nil => rfl
  | cons b l ih =>
    have h0 : s.engineSees a = false := h 0 (by simp)
    rw [State.engWrite, h0]
    refine ih (a + 1) fun k hk => ?_
    rw [Nat.add_assoc, Nat.add_comm 1]
    exact h (k + 1) (by simpa using hk)

theorem State.engineSees_unfilled {s : State} {a : Nat} (hd : s.on F.HBC_INIT.DONE = false) (ha : inHbm a = true) :
    s.engineSees a = false := by
  simp [State.engineSees, hd, ha]

/-- A well-formed descriptor of accumulator 0. -/
def Unfilled.desc : CvyDesc := { flags := 0, w := 6, k := 0, acc := 0, miss0 := 0, miss1 := 255, src := 0, dst := 0, mbz := true }

/-- The engine and ring 0 are on, and a byte of accumulator 0 is 5; the fill of HBM has not ended. -/
def Unfilled.state : State :=
  (((State.reset.put F.CVY_CTL.EN 0 1).put F.CVY_RING_CFG.EN 0 1).put F.CVY_ACC_CFG.BASE 0 0x200000).wrByte 0x1000000000 5

/-- The state that the job starts from. -/
def Unfilled.posted : State := Unfilled.state.put F.CVY_RING_PTR.TAIL 0 (Unfilled.state.get F.CVY_RING_PTR.TAIL 0 + 1)

/-- A job of ring 0 that has been taken. -/
def State.jobTaken (s : State) : State := (s.put F.CVY_RING_PTR.HEAD 0 (s.get F.CVY_RING_PTR.HEAD 0 + 1)).pmc 0x09 0x10

/-- A job of ring 0 that ends well, its descriptor at `slot`. -/
def State.jobEnds (s : State) (slot : Nat) : State :=
  let t := s.pmc 0x09 0x11
  (t.put F.CVY_STAT.JOBS 0 (t.get F.CVY_STAT.JOBS + 1)).complete
    { line := 0, ring := some (0x48 + 0), wr := [(slot + 0x18, leBytes 4 1)], err := none }

theorem State.cvyEffect_clear (s : State) (d : CvyDesc) (items : List PlaceReq) : s.cvyEffect 4 d items = s.accClear d.acc := by
  unfold State.cvyEffect
  split
  · contradiction
  · contradiction
  · contradiction
  · rfl

/-- A Clear of accumulator 0 whose writes reach nothing. -/
theorem cvyRun_clear_nothing {s : State} (hf : s.cvyFetch 4 0 Unfilled.desc = (s, false))
    (hc : s.jobTaken.accClear 0 = s.jobTaken) : cvyRun 4 0 Unfilled.desc [] s = s.jobTaken.jobEnds (s.cvySlot 0) := by
  have heff : s.jobTaken.cvyEffect 4 Unfilled.desc [] = s.jobTaken := by rw [State.cvyEffect_clear, show Unfilled.desc.acc = 0 from rfl, hc]
  have hflag : Unfilled.desc.flags.getLsbD 0 = false := rfl
  unfold State.jobTaken at heff ⊢
  unfold cvyRun State.jobEnds
  rw [hf, if_neg (by simp), hflag]
  simp only [Bool.false_eq_true, if_false, heff]

/-- The state after the job: nothing has been cleared. -/
def Unfilled.done : State := Unfilled.posted.jobTaken.jobEnds (Unfilled.posted.cvySlot 0)

theorem Unfilled.accClear : Unfilled.posted.jobTaken.accClear 0 = Unfilled.posted.jobTaken := by
  have hbase : Unfilled.posted.jobTaken.accBase 0 = 0x1000000000 := by decide +kernel
  have hdone : Unfilled.posted.jobTaken.on F.HBC_INIT.DONE = false := by decide +kernel
  rw [State.accClear, hbase]
  refine State.engWrite_unseen _ _ _ fun k hk => State.engineSees_unfilled hdone ?_
  simp only [zeroPage, List.length_append, List.length_replicate] at hk
  simp only [inHbm, decide_eq_true_eq]
  omega

theorem Unfilled.takes : Unfilled.state.CvyTakes 0 := by decide +kernel

theorem Unfilled.fetch (slot : Nat) : Unfilled.posted.engFetch [(slot, 64)] = (Unfilled.posted, false) := by
  rw [State.engFetch, if_pos (by decide +kernel)]

theorem Unfilled.cvyFetch : Unfilled.posted.cvyFetch 4 0 Unfilled.desc = (Unfilled.posted, false) := by
  rw [State.cvyFetch, if_neg (by decide)]
  exact Unfilled.fetch _

theorem Unfilled.exec_clear : exec (.clearAccumulator 0 Unfilled.desc) Unfilled.state = .next Unfilled.done := by
  refine (exec_of_awake Unfilled.takes.1 rfl).trans ?_
  rw [cvyJob, if_neg (by decide +kernel), if_neg (by decide +kernel), if_pos (by decide +kernel)]
  exact congrArg Host.Outcome.next (cvyRun_clear_nothing Unfilled.cvyFetch Unfilled.accClear)

theorem Unfilled.byte_stays : Unfilled.done.rdByte 0x1000000000 = 5 := by decide +kernel

end Sys2Proof.Machine
end

section
open Sys2Proof Sys2Proof.Machine

/-- Refutes O26: before the fill of HBM has ended an engine's writes reach no HBM (R18), so that a Clear leaves the accumulator as it was. -/
theorem not_convoyJobs : ¬ Obligations.ConvoyJobs := by
  intro h
  obtain ⟨-, -, -, -, hclear⟩ := h Unfilled.state 0 Unfilled.desc Unfilled.takes
  obtain ⟨u, hu, hzero, -⟩ := hclear (by decide)
  obtain rfl : Unfilled.done = u := Host.Outcome.next.inj (Unfilled.exec_clear.symm.trans hu)
  have hacc : Unfilled.state.accBase Unfilled.desc.acc + 0 = 0x1000000000 := by decide +kernel
  have hbyte := hzero 0 (by decide) (by rw [hacc]; decide) (by rw [hacc]; decide +kernel)
  rw [hacc, Unfilled.byte_stays] at hbyte
  exact absurd hbyte (by decide)

end

section
-- One proof at a time: as many threads as there are lemmas here do not fit beside the model.
set_option Elab.async false
namespace Sys2Proof.Machine

/-! Two commands of one fetch stamp (against R42) -/

/-- An admin command of function 0 that waits for its own row. -/
def TwinStamp.admin : Ctx := { stamp := 0, slot := 0, tenant := .func 0, sqid := 0, cid := 0, opcode := 0, admin := true, nsid := 0, t0 := 0, wait := .dispatch }

/-- Submission queue 1 of function 0. -/
def TwinStamp.queue : Sq := { base := 0, size := 2, cqid := 1, prio := 0 }

/-- A command of queue 1 has the stamp of the admin command; the completion queue holds an entry of queue 1. -/
def TwinStamp.state : State := { State.reset with hif := {
  funcs := [(0, { sqs := [(1, TwinStamp.queue)]
                  cqs := [(1, { base0 := 0, base1 := 0, size := 2, vector := 0, ien := false
                                held := [{ sqid := 1, sqhd := 0, cid := 0, dw0 := 0, dw1 := 0, sct := 0, sc := 0 }] })] })]
  ctxs := [TwinStamp.admin, { TwinStamp.admin with sqid := 1 }] } }

/-- The Delete aborts the other command, and with it goes the context that should wait. -/
theorem TwinStamp.delete_loses_ctx : answerHas (fun u => (u.ctx 0).isSome) (exec (.deleteIoSubmissionQueue 0 1) TwinStamp.state) = false := by
  decide +kernel

theorem TwinStamp.waits : TwinStamp.state.Fetched 0 TwinStamp.admin ∧ tget 1 (TwinStamp.state.func 0).sqs = some TwinStamp.queue ∧
    TwinStamp.state.pow.dumping = false ∧ TwinStamp.state.staged = false ∧
    (TwinStamp.state.abortQueue 0 1).cqHolds 0 1 = true := by
  decide +kernel

end Sys2Proof.Machine
end

section
open Sys2Proof Sys2Proof.Machine

/-- Refutes O42: nothing says that the commands of a state have fetch stamps of their own. Where one of the queue that is deleted has the
stamp of the Delete, its abort releases the Delete too, which then does not wait. -/
theorem not_queueCommands : ¬ Obligations.QueueCommands := by
  intro h
  obtain ⟨hfetched, hsq, hdump, hstaged, hholds⟩ := TwinStamp.waits
  obtain ⟨-, -, hdelete, -⟩ := h TwinStamp.state 0 TwinStamp.admin hfetched
  have hgives := hdelete 0 1 TwinStamp.queue rfl (by decide) hsq (by decide) hdump hstaged hholds
  refine absurd (hgives.answerHas (fun u => (u.ctx 0).isSome) ?_) (by rw [TwinStamp.delete_loses_ctx]; decide)
  rintro u ⟨-, hwait⟩
  obtain ⟨x, hx, -⟩ := Option.map_eq_some_iff.1 hwait
  exact Option.isSome_iff_exists.2 ⟨x, hx⟩

end

section
-- One proof at a time: as many threads as there are lemmas here do not fit beside the model.
set_option Elab.async false
namespace Sys2Proof.Machine

/-! A set that starts on a channel whose PEND still stands (against R514) -/

/-- Channel 0 is enabled and idle, a set of 64 bytes is in its registers, and PEND is set as after an end that was held. -/
def PendStart.state : State :=
  ((State.reset.put F.PTR_CTL.EN 0 1).put F.PTR_STAT.PEND 0 1).put F.PTR_CNT.COUNT 0 64

/-- The channel takes up a set, which is well-formed and not empty. -/
theorem PendStart.ready : PendStart.state.Runs ∧ PendStart.state.domHeld 109 = false ∧ PendStart.state.ptrReady 0 = true ∧
    PendStart.state.malformed 0 = false ∧ PendStart.state.get F.PTR_CNT.COUNT 0 ≠ 0 := by
  decide +kernel

/-- A start leaves PEND, so the set that it starts does not count as running. -/
theorem PendStart.no_run : answerHas (fun u => u.ptrRuns 0) (exec (.porterStart 0) PendStart.state) = false := by
  decide +kernel

end Sys2Proof.Machine
end

section
open Sys2Proof Sys2Proof.Machine

/-- Refutes O18: on a channel that is idle while PEND is set, no set runs after a start. -/
theorem not_porterCommands : ¬ Obligations.PorterCommands := by
  intro h
  obtain ⟨hruns, hheld, hready, hgood, hcount⟩ := PendStart.ready
  obtain ⟨hstart, -⟩ := h PendStart.state hruns 0
  refine absurd ((hstart hheld hready hgood hcount).answerHas (fun u => u.ptrRuns 0) fun u hu => ?_)
    (by rw [PendStart.no_run]; decide)
  obtain ⟨hrun, -⟩ := hu
  exact hrun

end

section
-- One proof at a time: as many threads as there are lemmas here do not fit beside the model.
set_option Elab.async false
namespace Sys2Proof.Machine

section
variable {s : State} {t : BitVec 64} {c : Ctx} {nsid slba n : Nat} {r : Nat × Nat}

theorem exec_write_refused {io : IoArgs} {blocks : List BlockData} (h : s.Fetched t c)
    (hr : (s.argsCheck c nsid slba io).or (s.ioCheck c nsid slba blocks.length mdts) = some r) :
    exec (.write t nsid slba io blocks) s = .next (s.fail c r.1 r.2) := by
  refine (exec_of_fetched h rfl).trans ?_
  rw [hr]

theorem exec_read_refused {io : IoArgs} {faults : List (Nat × BlockFault)} (h : s.Fetched t c)
    (hr : (s.argsCheck c nsid slba io).or (s.ioCheck c nsid slba n mdts) = some r) :
    exec (.read t nsid ⟨slba, n⟩ io faults) s = .next (s.fail c r.1 r.2) := by
  refine (exec_of_fetched h rfl).trans ?_
  rw [State.readCommand, if_pos rfl, hr]

theorem exec_verify_refused {io : IoArgs} {faults : List (Nat × BlockFault)} (h : s.Fetched t c)
    (hr : (s.argsCheck c nsid slba io).or (s.ioCheck c nsid slba n noLimit) = some r) :
    exec (.verify t nsid ⟨slba, n⟩ io faults) s = .next (s.fail c r.1 r.2) := by
  refine (exec_of_fetched h rfl).trans ?_
  rw [State.readCommand, if_neg Bool.false_ne_true, hr]

theorem exec_writeZeroes_refused {io : IoArgs} (h : s.Fetched t c)
    (hr : (s.argsCheck c nsid slba io).or (s.ioCheck c nsid slba n noLimit) = some r) :
    exec (.writeZeroes t nsid ⟨slba, n⟩ io) s = .next (s.fail c r.1 r.2) := by
  refine (exec_of_fetched h rfl).trans ?_
  dsimp only
  rw [hr]

theorem exec_flush_refused (h : s.Fetched t c) (hn : nsid ≠ 0xFFFFFFFF) (hr : s.ioCheck c nsid 0 1 noLimit = some r) :
    exec (.flush t nsid) s = .next (s.fail c r.1 r.2) := by
  refine (exec_of_fetched h rfl).trans ?_
  rw [if_neg hn, hr]

theorem State.rawBale_refused {ns : Ns} {bale len : Nat} {only : Bool} {f : Option BlockFault} (hns : s.nsOf nsid = some ns)
    (hl : len < 1024 ∨ mdts < len) : s.rawBale c nsid bale len only false f = s.fail c 0 0x02 := by
  rw [State.rawBale, hns]
  exact if_pos (.inr hl)

theorem exec_rawBaleRead_refused {ns : Ns} {bale len : Nat} {only : Bool} {f : Option BlockFault} (h : s.Fetched t c)
    (hns : s.nsOf nsid = some ns) (hl : len < 1024 ∨ mdts < len) :
    exec (.rawBaleRead t nsid bale len only false f) s = .next (s.fail c 0 0x02) := by
  refine (exec_of_fetched h rfl).trans ?_
  rw [State.rawBale_refused hns hl]

theorem exec_namespaceAttach_none {l : List (Fin 128)} (h : s.Fetched t c) (hns : s.nsOf nsid = none) :
    exec (.namespaceAttach t nsid l) s = .next (s.fail c 0 0x0B) := by
  refine (exec_of_fetched h rfl).trans ?_
  rw [hns]

theorem exec_namespaceDetach_none {l : List (Fin 128)} (h : s.Fetched t c) (hns : s.nsOf nsid = none) :
    exec (.namespaceDetach t nsid l) s = .next (s.fail c 0 0x0B) := by
  refine (exec_of_fetched h rfl).trans ?_
  rw [hns]

theorem exec_namespaceDelete_none (h : s.Fetched t c) (hns : s.nsOf nsid = none) (hn : nsid ≠ 0xFFFFFFFF) :
    exec (.namespaceDelete t nsid) s = .next (s.fail c 0 0x0B) := by
  refine (exec_of_fetched h rfl).trans ?_
  simp [hns, hn]

theorem exec_formatNvm_none {prot : FormatProt} (h : s.Fetched t c) (hns : s.nsOf nsid = none) (hn : nsid ≠ 0xFFFFFFFF) :
    exec (.formatNvm t nsid 0 0 prot) s = .next (s.fail c 0 0x0B) := by
  refine (exec_of_fetched h rfl).trans ?_
  simp [hns, hn]

theorem State.startSanitize_busy {action total : Nat} (hp : s.inProgress = true) : s.startSanitize c action total = s.fail c 0 0x1D :=
  if_pos hp

theorem exec_sanitizeBlockErase_busy (h : s.Fetched t c) (hp : s.inProgress = true) :
    exec (.sanitizeBlockErase t) s = .next (s.fail c 0 0x1D) := by
  refine (exec_of_fetched h rfl).trans ?_
  rw [State.startSanitize_busy hp]

theorem exec_sanitizeCryptoErase_busy (h : s.Fetched t c) (hp : s.inProgress = true) :
    exec (.sanitizeCryptoErase t) s = .next (s.fail c 0 0x1D) := by
  refine (exec_of_fetched h rfl).trans ?_
  rw [State.startSanitize_busy hp]

theorem exec_getLogPage_unknown {lid : BitVec 8} {off len : Nat} {rae : Bool} (h : s.Fetched t c) (hb : s.logBytes c.tenant lid = none) :
    exec (.getLogPage t lid off len rae) s = .next (s.fail c 1 0x09) := by
  refine (exec_of_fetched h rfl).trans ?_
  rw [hb]

theorem exec_getLogPage_beyond {lid : BitVec 8} {off len : Nat} {rae : Bool} {b : Bytes} (h : s.Fetched t c)
    (hb : s.logBytes c.tenant lid = some b) (hl : b.length < off ∨ mdts < len) :
    exec (.getLogPage t lid off len rae) s = .next (s.fail c 0 0x02) := by
  refine (exec_of_fetched h rfl).trans ?_
  rw [hb]
  exact congrArg _ (if_pos hl)

theorem exec_identify_unknown {cns : BitVec 8} (h : s.Fetched t c) (hb : s.identBytes c cns nsid = none) :
    exec (.identify t cns nsid) s = .next (s.fail c 0 0x02) := by
  refine (exec_of_fetched h rfl).trans ?_
  rw [hb]

end

end Sys2Proof.Machine
end

section
open Sys2Proof Sys2Proof.Machine

/-- Settles O45: each command's row begins with its checks, and ends the command with what the first that fails gives. -/
theorem commandChecks : Obligations.CommandChecks := by
  intro s t c nsid slba n r h
  refine ⟨?_, ?_, ?_, exec_flush_refused h, ?_, ?_, ?_, ?_, ?_, ?_⟩
  · rintro io blocks faults rfl hr
    exact ⟨exec_write_refused h hr, exec_read_refused h hr⟩
  · intro io faults hr
    exact exec_verify_refused h hr
  · intro io hr
    exact exec_writeZeroes_refused h hr
  · intro ns bale len only f hns hl
    exact exec_rawBaleRead_refused h hns hl
  · intro hns l prot
    exact ⟨exec_namespaceAttach_none h hns, exec_namespaceDetach_none h hns, fun hn =>
      ⟨exec_namespaceDelete_none h hns hn, exec_formatNvm_none h hns hn⟩⟩
  · intro hp
    exact ⟨exec_sanitizeBlockErase_busy h hp, exec_sanitizeCryptoErase_busy h hp⟩
  · intro lid off len rae hb
    exact exec_getLogPage_unknown h hb
  · intro lid off len rae b hb hl
    exact exec_getLogPage_beyond h hb hl
  · intro cns hb
    exact exec_identify_unknown h hb

end

section
-- One proof at a time: as many threads as there are lemmas here do not fit beside the model.
set_option Elab.async false
namespace Sys2Proof.Machine

section
variable {s : State} {t : BitVec 64} {c : Ctx} {b : Bytes}

/-- A log page at hand goes to the host from its offset on. -/
theorem exec_getLogPage_sent {lid : BitVec 8} {off len : Nat} (rae : Bool) (h : s.Fetched t c) (hb : s.logBytes c.tenant lid = some b)
    (ho : off ≤ b.length) (hl : len ≤ mdts) :
    exec (.getLogPage t lid off len rae) s =
      .next ((if rae then s.drawn.dataTo c ((b.drop off).take len)
        else (s.drawn.dataTo c ((b.drop off).take len)).logRead c.tenant lid).succeed c) := by
  refine (exec_of_fetched h rfl).trans ?_
  dsimp only
  rw [hb]
  dsimp only
  rw [if_neg (by omega)]

/-- The structures of Identify that name a namespace. -/
abbrev IdentNames (cns : BitVec 8) : Prop := cns = 0x00 ∨ cns = 0x03 ∨ cns = 0x11 ∨ cns = 0x12

theorem exec_identify_found {cns : BitVec 8} {nsid : Nat} (h : s.Fetched t c) (hb : s.identBytes c cns nsid = some b) :
    exec (.identify t cns nsid) s =
      .next (if IdentNames cns ∧ (nsid = 0 ∨ 4096 < nsid) ∧ ¬ (cns = 0x00 ∧ nsid = 0xFFFFFFFF) then s.fail c 0 0x0B
        else (s.dataTo c b).succeed c) := by
  refine (exec_of_fetched h rfl).trans ?_
  rw [hb]

theorem mem_identNames {cns : BitVec 8} : cns ∈ [0x00, 0x03, 0x11, 0x12] ↔ IdentNames cns := by
  simp [IdentNames]

end

end Sys2Proof.Machine
end

section
open Sys2Proof Sys2Proof.Machine

/-- Settles O49: the two rows, on a command that passes their checks. -/
theorem logAndIdentify : Obligations.LogAndIdentify := by
  intro s t c b h
  refine ⟨?_, ?_, ?_⟩
  · intro lid off len hb ho hl
    exact ⟨exec_getLogPage_sent true h hb ho hl, exec_getLogPage_sent false h hb ho hl⟩
  · intro cns nsid hb hc
    rw [exec_identify_found h hb, if_neg]
    rintro ⟨hn, hr, hx⟩
    rcases hc with hc | ⟨h1, h2⟩ | hc
    · exact hc (mem_identNames.2 hn)
    · omega
    · exact hx hc
  · intro cns nsid hb hc hr hx
    rw [exec_identify_found h hb, if_pos ⟨mem_identNames.1 hc, hr, hx⟩]

end

section
-- One proof at a time: as many threads as there are lemmas here do not fit beside the model.
set_option Elab.async false
namespace Sys2Proof.Machine

section
variable {s : State} {qpn : Nat} {q : Qp}

/-- What is no completion leaves where no transmitter idles. -/
theorem State.send_of_sends {o : Out} (h : s.Sends) (ho : o.isCompletion = false := by rfl) :
    s.send o = { s with out := s.out ++ [o] } := by
  rw [State.send, if_neg]
  simp [State.txIdle, h.1, h.2, ho]

theorem State.tget_setQp : tget qpn (s.setQp qpn q).fab.qps = some q := tget_tput_self _ _ _

/-- A row of a queue pair that exists. -/
theorem execQp_none {i : Instr} {f : Qp → State} (h : s.Runs)
    (e : exec i s = s.awake (.next (match tget qpn s.fab.qps with | none => s | some q => f q))) (hq : tget qpn s.fab.qps = none) :
    exec i s = .next s := by
  rw [e, State.awake_of_runs _ h, hq]

theorem execQp_some {i : Instr} {f : Qp → State} (h : s.Runs)
    (e : exec i s = s.awake (.next (match tget qpn s.fab.qps with | none => s | some q => f q))) (hq : tget qpn s.fab.qps = some q) :
    exec i s = .next (f q) := by
  rw [e, State.awake_of_runs _ h, hq]

/-- R90: the interval since the last notification has passed, or there is none. -/
def State.cnpDue (s : State) (qpn port : Nat) : Bool :=
  (tget qpn s.fab.lastCnp).all fun t => decide (t + s.setting 0x25 port ≤ s.elapsed)

theorem exec_cePacketReceived (h : s.Runs) (hq : tget qpn s.fab.qps = some q) :
    exec (.cePacketReceived qpn) s = .next (if s.cnpDue qpn q.port then
        { s with fab := { s.fab with lastCnp := tput qpn s.elapsed s.fab.lastCnp } }.send (.cnp qpn) else s) := by
  refine (execQp_some h rfl hq).trans ?_
  unfold State.cnpDue
  cases tget qpn s.fab.lastCnp <;> rfl

end

end Sys2Proof.Machine
end

section
open Sys2Proof Sys2Proof.Machine

/-- Settles O52: each row replaces the one queue pair, and a notification leaves where the interval since the last has passed. -/
theorem congestion : Obligations.Congestion := by
  intro s qpn h
  refine ⟨fun hq c hc => ?_, fun q hq => ?_⟩
  · simp only [List.mem_cons, List.not_mem_nil, or_false] at hc
    rcases hc with rfl | rfl | rfl | rfl <;> exact execQp_none h rfl hq
  refine ⟨⟨_, execQp_some h rfl hq, ?_, State.tget_setQp⟩, ⟨_, execQp_some h rfl hq, State.tget_setQp⟩, fun hr => ?_, fun hr => ?_,
    fun hd hs => ?_, fun t ht hl => ?_⟩
  · exact (State.get_put_same s F.FAB_PSTAT.CNP_RX q.port 1).trans (by decide)
  · refine ⟨_, execQp_some h rfl hq, State.tget_setQp.trans ?_⟩
    simp only [if_pos hr]
  · refine ⟨_, execQp_some h rfl hq, State.tget_setQp.trans ?_⟩
    simp only [if_neg (Nat.not_lt.2 hr)]
  · refine ⟨_, exec_cePacketReceived h hq, ?_⟩
    have hdue : s.cnpDue qpn q.port = true := by
      unfold State.cnpDue
      cases hl : tget qpn s.fab.lastCnp with
      | none => rfl
      | some t => exact decide_eq_true (hd t hl)
    dsimp only
    rw [if_pos hdue,
      State.send_of_sends (s := { s with fab := { s.fab with lastCnp := tput qpn s.elapsed s.fab.lastCnp } }) (o := .cnp qpn) hs]
    exact ⟨rfl, tget_tput_self _ _ _⟩
  · rw [exec_cePacketReceived h hq, if_neg]
    simpa [State.cnpDue, ht] using hl

end

section
-- One proof at a time: as many threads as there are lemmas here do not fit beside the model.
set_option Elab.async false
namespace Sys2Proof.Machine

section
variable {s : State} {op len : Nat} {m : Msg}

/-- R605: a tally request that passes the checks is carried out where it arrived. -/
theorem gives_of_tally {i : Instr} {f : State → State} {P : State → Prop} (hs : s.Runs) (h : s.Admits op len m)
    (e : exec i s = s.awake (.next (tallyMsg op len m .here f s))) (hP : P (f (s.useToken m))) : Gives i s P :=
  gives_of_admitted hs h e hP

/-- R603: the freeze is as the request says. -/
theorem State.freeze_set (s : State) (on : Bool) :
    (if on then s.put F.TLY_CTL.FREEZE 0 1 else if s.on F.TLY_CTL.FREEZE then s.tallyThaw else s).get F.TLY_CTL.FREEZE 0 = on.toNat := by
  cases on
  · rw [if_neg Bool.false_ne_true]
    split
    · exact s.freeze_tallyThaw
    next h => exact (s.bit_cases F.TLY_CTL.FREEZE 0).resolve_right fun h1 => h (State.on_of_get_one h1)
  · exact (State.get_put_same s F.TLY_CTL.FREEZE 0 1).trans (by decide)

/-- R610: the three fields of a counter's configuration. -/
def State.putCounter (s : State) (i event chain thresh : Nat) : State :=
  ((s.put F.PMC_CFG.EVENT i event).put F.PMC_CFG.CHAIN i chain).put F.PMC_CFG.THRESH i thresh

theorem State.get_putCounter (s : State) (i : Nat) (event : BitVec 16) (chain : Bool) (thresh : BitVec 32) :
    let t := s.putCounter i event.toNat chain.toNat thresh.toNat
    t.get F.PMC_CFG.EVENT i = event.toNat ∧ t.get F.PMC_CFG.CHAIN i = chain.toNat ∧ t.get F.PMC_CFG.THRESH i = thresh.toNat := by
  refine ⟨?_, ?_, ?_⟩
  · rw [State.putCounter, State.get_put_apart _ (f := F.PMC_CFG.THRESH), State.get_put_apart _ (f := F.PMC_CFG.CHAIN)]
    exact (State.get_put_same _ F.PMC_CFG.EVENT i _).trans (Nat.mod_eq_of_lt event.isLt)
  · rw [State.putCounter, State.get_put_apart _ (f := F.PMC_CFG.THRESH)]
    exact (State.get_put_same _ F.PMC_CFG.CHAIN i _).trans (by cases chain <;> rfl)
  · exact (State.get_put_same _ F.PMC_CFG.THRESH i _).trans (Nat.mod_eq_of_lt thresh.isLt)

end

end Sys2Proof.Machine
end

section
open Sys2Proof Sys2Proof.Machine

/-- Settles O21: each request passes the checks, does its part and answers. -/
theorem counterRequests : Obligations.CounterRequests := by
  intro s m hs
  refine ⟨fun h => ?_, fun i n h hc hi hn hn7 => ?_, fun on h => ?_, fun h hc hf => ?_, fun unit x h hx => ?_,
    fun a unit x k chain event thresh h hx => ?_, fun h => ?_⟩
  · exact gives_of_tally hs h rfl ⟨_, State.answered_done .., rfl⟩
  · refine gives_of_tally hs h rfl ?_
    rw [if_neg (by simp [State.on_of_get_zero (s := s.useToken m) hc]), if_neg (by omega), if_neg (by omega)]
    exact State.answered_done ..
  · refine gives_of_tally hs h rfl ⟨?_, State.answered_done ..⟩
    exact (State.get_done _ _ _ _ _ _ F.TLY_CTL.FREEZE 0).trans (State.freeze_set _ on)
  · refine gives_of_tally hs h rfl ?_
    rw [if_neg (by simp [State.on_of_get_zero (s := s.useToken m) hc]), if_neg (by simp [State.on_of_get_zero (s := s.useToken m) hf])]
    refine ⟨?_, State.answered_done ..⟩
    exact (State.get_done _ _ _ _ _ _ F.TLY_STAT.CLEARING 0).trans ((State.get_put_same _ F.TLY_STAT.CLEARING 0 1).trans (by decide))
  · refine gives_of_admitted hs h rfl ?_
    rw [hx]
    exact State.answered_done ..
  · refine gives_of_admitted hs h rfl ?_
    rw [hx]
    obtain ⟨he, hc, ht⟩ := (s.useToken m).get_putCounter (8 * x + k.val) event chain thresh
    refine ⟨?_, ?_, ?_, State.answered_done ..⟩
    · exact (State.get_done _ _ _ _ _ _ F.PMC_CFG.EVENT _).trans he
    · exact (State.get_done _ _ _ _ _ _ F.PMC_CFG.CHAIN _).trans hc
    · exact (State.get_done _ _ _ _ _ _ F.PMC_CFG.THRESH _).trans ht
  · exact gives_of_admitted hs h rfl (State.answered_done ..)

end

section
-- One proof at a time: as many threads as there are lemmas here do not fit beside the model.
set_option Elab.async false
namespace Sys2Proof.Machine

section
variable {s : State}

theorem State.tallyHeld_false (hf : s.get F.TLY_CTL.FREEZE 0 = 0) (hc : s.get F.TLY_STAT.CLEARING 0 = 0) : s.tallyHeld = false := by
  simp [State.tallyHeld, State.on_of_get_zero hf, State.on_of_get_zero hc]

theorem State.tallyHeld_true (h : ¬ (s.get F.TLY_CTL.FREEZE 0 = 0 ∧ s.get F.TLY_STAT.CLEARING 0 = 0)) : s.tallyHeld = true := by
  rcases s.bit_cases F.TLY_CTL.FREEZE 0 with hf | hf
  · rcases s.bit_cases F.TLY_STAT.CLEARING 0 with hc | hc
    · exact absurd ⟨hf, hc⟩ h
    · simp [State.tallyHeld, State.on_of_get_one hc]
  · simp [State.tallyHeld, State.on_of_get_one hf]

theorem State.tallyHeld_of_get {t : State} (hf : t.get F.TLY_CTL.FREEZE 0 = s.get F.TLY_CTL.FREEZE 0)
    (hc : t.get F.TLY_STAT.CLEARING 0 = s.get F.TLY_STAT.CLEARING 0) : t.tallyHeld = s.tallyHeld := by
  simp only [State.tallyHeld, State.on, hf, hc]

/-- The end of an interval (R598, R603, R604). -/
theorem State.tly_tallyEnd (flags : Nat) (ho : s.tallyOn = true) :
    if s.get F.TLY_CTL.FREEZE = 0 ∧ s.get F.TLY_STAT.CLEARING = 0 then
      (s.tallyEnd flags).tly.cur.startUs = s.elapsed ∧ (s.tallyEnd flags).tly.cur.startDtime = s.dtime ∧
        (s.tallyEnd flags).tly.closing.isSome = true
    else (s.tallyEnd flags).tly.due = true ∧ (s.tallyEnd flags).tly.cur = s.tly.cur := by
  have he : s.tallyEnd flags = if s.tallyHeld then { s with tly := { s.tly with due := true } } else s.tallyClose flags :=
    if_neg (by simp [ho])
  rw [he]
  split
  next h =>
    rw [if_neg (by simp [State.tallyHeld_false h.1 h.2])]
    obtain ⟨-, hc, hu, hd⟩ := s.tly_tallyClose flags
    exact ⟨hu, hd, hc⟩
  next h =>
    rw [if_pos (State.tallyHeld_true h)]
    exact ⟨rfl, rfl⟩

/-- A record is written (R597, R598). -/
theorem State.tallyWrite_written (h : s.tallyHeld = false) (hc : s.tly.closing.isSome = true) (hn : s.get F.TLY_STAT.NREC 0 < 2048) :
    s.tallyWrite.tly.closing = none ∧ s.tallyWrite.get F.TLY_STAT.NREC 0 = s.get F.TLY_STAT.NREC 0 + 1 ∧
      s.tallyWrite.get F.TLY_CTL.PE_DONE 0 = 0 := by
  obtain ⟨r, hr⟩ := Option.isSome_iff_exists.1 hc
  rw [State.tallyWrite_eq hr h]
  exact ⟨by rw [State.tly_tallyStore], s.counts_tallyStore r hn⟩

/-! The clear (R604) -/

theorem State.norByte_norErase (s : State) (lo n a : Nat) :
    (s.norErase (lo, n)).norByte a = if lo ≤ a ∧ a < lo + n then 0xFF else s.norByte a := by
  unfold State.norByte State.norErase tgetD
  dsimp only
  split
  next h =>
    rw [tget_filter_none fun v => by simp [h]]
    rfl
  next h => rw [tget_filter fun v => by simpa using (Nat.lt_or_ge a lo).imp_right fun h1 => Nat.not_lt.1 fun h2 => h ⟨h1, h2⟩]

theorem State.tallyRelease_idle {s : State} (flags : Nat) (hd : s.tly.due = false) (hc : s.tly.closing = none ∨ s.tallyHeld = true) :
    s.tallyRelease flags = s := by
  unfold State.tallyRelease
  split
  · rfl
  next hh =>
  have hw : s.tallyWrite = s := s.tallyWrite_of_none (hc.resolve_right hh)
  simp [hw, hd]

/-- The end of an interval, after its task has been recorded (R591, R596). -/
theorem State.tly_interval {t : State} (hk : Keeps ⟨[.CIC_SRC_STAT, .HKP_TASK], [.cic, .evt, .hkp]⟩ s t) (ho : s.tallyOn = true)
    (flags : Nat) :
    if s.get F.TLY_CTL.FREEZE = 0 ∧ s.get F.TLY_STAT.CLEARING = 0 then
      (t.tallyEnd flags).tly.cur.startUs = s.elapsed ∧ (t.tallyEnd flags).tly.cur.startDtime = s.dtime ∧
        (t.tallyEnd flags).tly.closing.isSome = true
    else (t.tallyEnd flags).tly.due = true ∧ (t.tallyEnd flags).tly.cur = s.tly.cur := by
  have hto : t.tallyOn = true := by rwa [State.tallyOn, hk.on F.TLY_CTL.EN 0, hk.on F.TLY_STAT.FULL 0]
  have h := State.tly_tallyEnd flags hto
  rwa [hk.get F.TLY_CTL.FREEZE 0, hk.get F.TLY_STAT.CLEARING 0, hk.elapsed_eq, hk.dtime_eq, hk.tly_eq] at h

theorem exec_tallyIntervalEnd {d : Nat} (hs : s.Runs) (ho : s.tallyOn = true) : ∃ flags, exec (.tallyIntervalEnd d) s =
    .next ((s.runTask taskTally (s.setting 0x30 * 1000000) d).tallyEnd flags) :=
  ⟨_, (exec_of_awake hs rfl).trans (congrArg Host.Outcome.next (if_neg (by simp [ho])))⟩

/-- R604: region 2 is erased and holds no record. -/
def State.tallyErased (s : State) : State :=
  (((s.norErase (0x2000000, 0x800000)).put F.TLY_STAT.CLEARING 0 0).put F.TLY_STAT.NREC 0 0).put F.TLY_STAT.FULL 0 0

theorem State.get_tallyErased (s : State) : s.tallyErased.get F.TLY_STAT.CLEARING = 0 ∧ s.tallyErased.get F.TLY_STAT.NREC = 0 ∧
    s.tallyErased.get F.TLY_STAT.FULL = 0 ∧ s.tallyErased.get F.TLY_CTL.FREEZE = s.get F.TLY_CTL.FREEZE := by
  unfold State.tallyErased
  refine ⟨?_, ?_, (State.get_put_same _ F.TLY_STAT.FULL 0 0).trans (by decide), ?_⟩
  · rw [State.get_put_apart _ (f := F.TLY_STAT.FULL), State.get_put_apart _ (f := F.TLY_STAT.NREC)]
    exact (State.get_put_same _ F.TLY_STAT.CLEARING 0 0).trans (by decide)
  · rw [State.get_put_apart _ (f := F.TLY_STAT.FULL)]
    exact (State.get_put_same _ F.TLY_STAT.NREC 0 0).trans (by decide)
  · rw [State.get_put_apart _ (f := F.TLY_STAT.FULL), State.get_put_apart _ (f := F.TLY_STAT.NREC),
      State.get_put_apart _ (f := F.TLY_STAT.CLEARING)]
    exact (State.keeps_norErase _ _).get F.TLY_CTL.FREEZE 0

theorem State.keeps_tallyErased (s : State) : Keeps ⟨[.TLY_STAT], [.nor, .snor]⟩ s s.tallyErased :=
  .after (State.keeps_put _ F.TLY_STAT.FULL 0 0).up (.after (State.keeps_put _ F.TLY_STAT.NREC 0 0).up
    (.after (State.keeps_put _ F.TLY_STAT.CLEARING 0 0).up (State.keeps_norErase _ _).up))

theorem State.norByte_tallyErased (s : State) (a : Nat) :
    s.tallyErased.norByte a = if 0x2000000 ≤ a ∧ a < 0x2800000 then 0xFF else s.norByte a := by
  refine Eq.trans ?_ (s.norByte_norErase 0x2000000 0x800000 a)
  have hk : Keeps ⟨[.TLY_STAT], []⟩ (s.norErase (0x2000000, 0x800000)) s.tallyErased :=
    .after (State.keeps_put _ F.TLY_STAT.FULL 0 0).up (.after (State.keeps_put _ F.TLY_STAT.NREC 0 0).up
      (State.keeps_put _ F.TLY_STAT.CLEARING 0 0).up)
  rw [State.norByte, hk.snor_eq, ← State.norByte]

/-- R604: nothing is written as a clear ends, where no record is held for it. -/
theorem State.keeps_clearEnd {t : State} (hd : t.tly.due = false) (hw : t.tly.closing = none ∨ t.get F.TLY_CTL.FREEZE = 1) :
    Keeps ⟨[.CIC_SRC_STAT], [.cic, .evt, .tly]⟩ t (((if t.tly.due then t else t.tallyBegin).tallyRelease 0).raise 240) := by
  rw [if_neg (by simp [hd]), State.tallyRelease_idle (s := t.tallyBegin) 0 hd]
  · exact .after (State.keeps_raise _ 240).up (State.keeps_tallyBegin t).up
  · exact hw.imp id fun h => State.tallyHeld_true fun hx => absurd (hx.1.symm.trans h) (by decide)

/-! The window (R602) -/

theorem State.winRec_winLoad (s : State) : s.winLoad.tly.winRec = some (s.get F.TLY_CUR.RECORD) := by
  unfold State.winLoad
  extract_lets r b y
  split
  · assumption
  · exact (State.keeps_put _ F.TLY_STAT.WINRDY 0 1).tly_eq ▸ rfl

/-- R602: the fields of the window that a write selects. -/
def State.winSelect (s : State) (v : BitVec 32) : State :=
  ((s.put F.TLY_CUR.AINC 0 (bitsOf 31 31 v.toNat)).put F.TLY_CUR.RECORD 0 (bitsOf 14 4 v.toNat)).put F.TLY_CUR.CHUNK 0 (v.toNat % 16)

theorem State.get_winSelect (s : State) (v : BitVec 32) :
    (s.winSelect v).get F.TLY_CUR.CHUNK = v.toNat % 16 ∧ (s.winSelect v).get F.TLY_CUR.RECORD = bitsOf 14 4 v.toNat ∧
      (s.winSelect v).get F.TLY_CUR.AINC = bitsOf 31 31 v.toNat := by
  refine ⟨(State.get_put_same _ F.TLY_CUR.CHUNK 0 _).trans (Nat.mod_mod _ _), ?_, ?_⟩
  · rw [State.winSelect, State.get_put_apart _ (f := F.TLY_CUR.CHUNK)]
    exact (State.get_put_same _ F.TLY_CUR.RECORD 0 _).trans (Nat.mod_mod _ _)
  · rw [State.winSelect, State.get_put_apart _ (f := F.TLY_CUR.CHUNK), State.get_put_apart _ (f := F.TLY_CUR.RECORD)]
    exact (State.get_put_same _ F.TLY_CUR.AINC 0 _).trans (Nat.mod_mod _ _)

/-- R602: what a read of the last word of a chunk moves on. -/
theorem State.keeps_windowNext (s : State) (c : Nat) (p : Prop) [Decidable p] : Keeps ⟨[.TLY_CUR, .TLY_STAT], [.tly]⟩ s
    (if p then if c = 15 then ((s.put F.TLY_CUR.CHUNK 0 0).put F.TLY_CUR.RECORD 0 (s.get F.TLY_CUR.RECORD + 1)).winLoad
      else s.put F.TLY_CUR.CHUNK 0 (c + 1) else s) := by
  refine .ite (fun _ => .ite (fun _ => ?_) fun _ => ?_) fun _ => .refl _
  · exact .after (State.keeps_winLoad _).up (.after (State.keeps_put _ F.TLY_CUR.RECORD 0 _).up (State.keeps_put _ F.TLY_CUR.CHUNK 0 0).up)
  · exact (State.keeps_put _ F.TLY_CUR.CHUNK 0 _).up

/-! Counters (R608) -/

/-- R608: a read latches a chained next counter. -/
theorem State.latch_pmcRead {s : State} {x k : Nat} (hk : k < 7) (hc : s.get F.PMC_CFG.CHAIN (8 * x + k + 1) = 1) :
    tget (8 * x + k + 1) (s.pmcRead x k).1.tly.latch = some (BitVec.ofNat 32 (s.get F.PMC_CNT.COUNT (8 * x + k + 1))) := by
  unfold State.pmcRead
  extract_lets i v l l1
  have hl : l1 = tput (i + 1) (BitVec.ofNat 32 (s.get F.PMC_CNT.COUNT (i + 1))) l := if_pos ⟨hk, State.on_of_get_one hc⟩
  show tget (i + 1) l1 = _
  rw [hl]
  exact tget_tput_self _ _ _

/-- A wrap of counter `k` leaves the counters up to `k`. -/
theorem State.count_pmcWrap (s : State) (x : Nat) (fuel k j : Nat) (hj : j ≤ 8 * x + k) :
    (s.pmcWrap x fuel k).get F.PMC_CNT.COUNT j = s.get F.PMC_CNT.COUNT j := by
  induction fuel generalizing s k with
  | zero => rfl
  | succ fuel ih =>
    unfold State.pmcWrap
    split
    · extract_lets v s1
      have h1 : s1.get F.PMC_CNT.COUNT j = s.get F.PMC_CNT.COUNT j := State.get_put_inst s _ (by omega)
      split
      · rw [ih _ _ (by omega), h1]
      · exact h1
    · extract_lets s1
      have h1 : s1.get F.PMC_CNT.COUNT j = s.get F.PMC_CNT.COUNT j := State.get_put_apart s (f := F.PMC_CTL.OVF) _ _ _
      split
      · rw [State.get_raise _ _ _ _ rfl, h1]
      · exact h1

/-- The wrap of a counter that chains none sets its OVF bit. -/
theorem State.ovf_pmcWrap (s : State) (x k : Nat) (hk : k < 8) (hc : k = 7 ∨ s.get F.PMC_CFG.CHAIN (8 * x + k + 1) = 0) :
    ((s.pmcWrap x 8 k).get F.PMC_CTL.OVF x).testBit k = true := by
  unfold State.pmcWrap
  have hn : ¬ (k < 7 ∧ s.on F.PMC_CFG.CHAIN (8 * x + k + 1) = true) := by
    rintro ⟨h7, ho⟩
    rcases hc with hc | hc
    · omega
    · simp [State.on_of_get_zero hc] at ho
  rw [if_neg hn]
  extract_lets s1
  have h1 : (s1.get F.PMC_CTL.OVF x).testBit k = true := by
    unfold s1
    rw [State.get_put_same _ F.PMC_CTL.OVF x, Nat.testBit_mod_two_pow, Nat.testBit_or, Nat.testBit_two_pow_self]
    simpa using hk
  split
  · rwa [State.get_raise _ _ _ _ rfl]
  · exact h1

end

end Sys2Proof.Machine
end

section
open Sys2Proof Sys2Proof.Machine

/-- Settles O20: the end of an interval, the record, the freeze and the clear, each through what it does to the recorder. -/
theorem tallyCommands : Obligations.TallyCommands := by
  intro s hs
  refine ⟨fun d ho => ?_, fun c hc hsome hn => ⟨fun hh => ?_, fun hh => ?_⟩, fun hf => ?_, fun hc hd hw => ?_, fun v => ?_, fun k => ?_,
    fun x k => ?_, fun x k hz he => ?_⟩
  · obtain ⟨flags, he⟩ := exec_tallyIntervalEnd hs ho
    exact ⟨_, he, State.tly_interval (State.keeps_runTask s _ _ _) ho flags⟩
  · rcases hc with rfl | ⟨rfl, hp⟩
    · refine gives_of_awake hs rfl ?_
      have hw := State.tallyWrite_written (s := s.put F.TLY_CTL.PE_DONE 0 1)
        ((State.tallyHeld_of_get (State.get_put_apart s _ _ _) (State.get_put_apart s _ _ _)).trans hh)
        hsome (by rwa [State.get_put_apart])
      rwa [State.get_put_apart s (f := F.TLY_CTL.PE_DONE) (g := F.TLY_STAT.NREC)] at hw
    · refine gives_of_awake hs rfl ?_
      rw [if_neg (by simp [State.on_of_get_zero hp, Option.isNone_eq_false_iff.2 hsome])]
      exact State.tallyWrite_written (s := { s with tly := { s.tly with peLate := true } }) hh hsome hn
  · rcases hc with rfl | ⟨rfl, hp⟩
    · refine gives_of_awake hs rfl ?_
      rw [State.tallyWrite_of_held _ ((State.tallyHeld_of_get (State.get_put_apart s _ _ _) (State.get_put_apart s _ _ _)).trans hh)]
      exact ⟨rfl, State.get_put_apart s _ _ _, rfl⟩
    · refine gives_of_awake hs rfl ?_
      rw [if_neg (by simp [State.on_of_get_zero hp, Option.isNone_eq_false_iff.2 hsome]),
        State.tallyWrite_of_held { s with tly := { s.tly with peLate := true } } hh]
      exact ⟨rfl, rfl, rfl⟩
  · refine gives_of_awake hs rfl ?_
    rw [if_pos (State.on_of_get_one hf)]
    refine ⟨(State.get_raise _ _ _ _ rfl).trans s.freeze_tallyThaw, fun hc => ?_⟩
    rw [State.tly_raise]
    refine State.due_tallyRelease _ _ (State.tallyHeld_false ?_ ?_)
    · exact (State.get_put_same _ F.TLY_CTL.FREEZE 0 0).trans (by decide)
    · exact (State.get_put_apart _ (f := F.TLY_CTL.FREEZE) _ _ _).trans hc
  · refine gives_of_awake hs rfl ?_
    rw [if_neg (by simp [State.on_of_get_one hc])]
    have hk := s.keeps_tallyErased
    obtain ⟨h1, h2, h3, h4⟩ := s.get_tallyErased
    have hb := State.keeps_clearEnd (t := s.tallyErased) ((congrArg Tly.due hk.tly_eq).trans hd)
      (hw.imp (congrArg Tly.closing hk.tly_eq).trans h4.trans)
    refine ⟨(hb.get F.TLY_STAT.CLEARING 0).trans h1, (hb.get F.TLY_STAT.NREC 0).trans h2, (hb.get F.TLY_STAT.FULL 0).trans h3, fun a => ?_⟩
    exact (congrArg (tgetD a norDefault) hb.snor_eq).trans (s.norByte_tallyErased a)
  · refine gives_of_awake hs rfl ?_
    obtain ⟨hc, hr, ha⟩ := s.get_winSelect v
    have hk : Keeps ⟨[.TLY_STAT], [.tly]⟩ (s.winSelect v) (s.winSelect v).winLoad := State.keeps_winLoad _
    exact ⟨(hk.get F.TLY_CUR.CHUNK 0).trans hc, (hk.get F.TLY_CUR.RECORD 0).trans hr, (hk.get F.TLY_CUR.AINC 0).trans ha,
      (State.winRec_winLoad _).trans (congrArg some hr)⟩
  · refine gives_of_awake hs rfl ?_
    refine ((State.keeps_windowNext _ _ _).out_eq).trans ((State.out_send_value _ _).trans ?_)
    simp only [State.on]
    rcases s.bit_cases F.TLY_STAT.WINRDY 0 with h | h <;> simp [h]
  · refine gives_of_awake hs rfl ?_
    refine ⟨(State.out_send_value _ _).trans ?_, fun hk hch => ?_⟩
    · unfold State.pmcRead
      dsimp only
      cases tget (8 * x.val + k.val) s.tly.latch <;> rfl
    · rw [(State.keeps_send _ _).tly_eq]
      exact State.latch_pmcRead hk hch
  · refine gives_of_awake hs rfl ?_
    rw [if_neg (by simp [State.on_of_get_zero hz, he])]
    refine ⟨?_, fun hc => ?_⟩
    · exact (State.count_pmcWrap _ _ _ _ _ le_rfl).trans ((State.get_put_same _ F.PMC_CNT.COUNT _ 0).trans (by decide))
    · refine State.ovf_pmcWrap _ _ _ k.isLt ?_
      rwa [State.get_put_apart _ (f := F.PMC_CNT.COUNT)]

end

section
-- One proof at a time: as many threads as there are lemmas here do not fit beside the model.
set_option Elab.async false
namespace Sys2Proof.Machine

/-! Jobs in the error state (R425) -/

section
variable {s : State}

/-- What a job that is refused may change: no core. -/
abbrev Foot.jobRefused : Foot := ⟨[.CIC_SRC_STAT, .CMP_RING_CFG, .CPH_RING_CFG, .CPH_RING_PTR, .CVY_RING_CFG, .MAP_QCTL, .PMC_CNT, .PMC_CTL,
  .PTR_DONE, .PTR_STAT], [.arb, .cic, .evt, .hbm, .mem]⟩

/-- In the error state a job is refused without its cores. -/
theorem State.keeps_cphTake_stopped (h : s.get F.SEC_MODE.MODE = 3) (op r : Nat) (d : CphDesc) (run : CphRun) :
    Keeps .jobRefused s (s.cphTake op r d run) := by
  have hstop : s.cphStop op d = some 4 := if_pos (.inl h)
  have hf : s.cphFetch op r d = (s, false) := by simp [State.cphFetch, hstop]
  unfold State.cphTake
  rw [hf, hstop]
  extract_lets slot f e ran s1 s2 s3 s4 bad s5
  have h1 : Keeps .jobRefused s s1 :=
    .after (State.keeps_pmc _ 0x06 0x10 1).up (.up (State.keeps_put s F.CPH_RING_PTR.HEAD r _))
  clear_value s1
  have h2 : s2 = s1 := if_neg (by simp [ran])
  have h3 : Keeps .jobRefused s s3 := .after (State.keeps_cphWrite s2 op d e).up (h2 ▸ h1)
  clear_value s3
  have h4 : Keeps .jobRefused s s4 := by
    have e : s4 = s3 := if_neg (by simp [ran])
    rwa [e]
  clear_value s4
  have h5 : Keeps .jobRefused s s5 := .ite (fun _ => .after (State.keeps_pmc _ 0x06 0x12 1).up h4) fun _ => h4
  clear_value s5
  exact .after (State.keeps_complete _ _).up (.after (State.keeps_pmc _ 0x06 0x11 1).up h5)

theorem State.keeps_waitJobs_stopped (h : s.get F.SEC_MODE.MODE = 3) (l : List CphWait) :
    Keeps .jobRefused s (l.foldl (fun s w => s.cphTake w.op w.ring w.d w.run) s) := by
  induction l generalizing s with
  | nil => exact .refl _
  | cons w l ih =>
    have hk := State.keeps_cphTake_stopped h w.op w.ring w.d w.run
    exact hk.trans (ih ((hk.get F.SEC_MODE.MODE 0).trans h))

/-- What entering the error state may change beside SEC_MODE: no core. -/
abbrev Foot.errorState : Foot := ⟨[.CIC_SRC_STAT, .CMP_RING_CFG, .CPH_RING_CFG, .CPH_RING_PTR, .CVY_RING_CFG, .MAP_CAP_CHARGED, .MAP_QCTL,
  .PKP_CRED, .PMC_CNT, .PMC_CTL, .PTR_DONE, .PTR_STAT, .SEC_MODE],
  [.arb, .cic, .evt, .fab, .hbm, .hif, .keys, .map, .mem, .out, .packs, .tly, .twn]⟩

theorem State.secError_gives (s : State) {code : Nat} (hc : code < 256) :
    (s.secError code).get F.SEC_MODE.MODE = 3 ∧ (s.secError code).get F.SEC_MODE.ERRCODE = code ∧
      Keeps .errorState s (s.secError code) := by
  unfold State.secError
  extract_lets t
  obtain ⟨hmode, hcode, -⟩ := s.secStop_gives code hc
  have hk1 : Keeps .errorState s t := (s.keeps_secStop code).up
  have hk2 : Keeps ⟨[], [.keys]⟩ t { t with keys := { t.keys with waitJobs := [] } } := .update (.refl _) rfl
  have hmode : t.get F.SEC_MODE.MODE = 3 := hmode
  have hcode : t.get F.SEC_MODE.ERRCODE = code := hcode
  clear_value t
  have hk3 := State.keeps_waitJobs_stopped (s := { t with keys := { t.keys with waitJobs := [] } }) hmode s.keys.waitJobs
  exact ⟨(hk3.get F.SEC_MODE.MODE 0).trans hmode, (hk3.get F.SEC_MODE.ERRCODE 0).trans hcode, hk1.trans (hk2.up.trans hk3.up)⟩

end

/-! Cores (R394 to R396) -/

/-- CORES counts the cores in dispatch. -/
def State.CoresCounted (s : State) : Prop := s.get F.CPH_STAT.CORES = ((List.range 18).filter fun k => s.on F.CPH_CORE_CTL.EN k).length

theorem State.coresCounted_cphCores (s : State) : s.cphCores.CoresCounted := by
  have hen : ∀ k, s.cphCores.on F.CPH_CORE_CTL.EN k = s.on F.CPH_CORE_CTL.EN k := fun k => s.keeps_cphCores.on F.CPH_CORE_CTL.EN k
  unfold State.CoresCounted
  rw [funext hen]
  refine (State.get_put_same s F.CPH_STAT.CORES 0 _).trans (Nat.mod_eq_of_lt ?_)
  exact Nat.lt_of_le_of_lt (List.length_filter_le _ _) (by decide)

theorem Keeps.coresCounted {P : Foot} {s t : State} (h : Keeps P s t) (hc : s.CoresCounted)
    (h1 : P.regs.contains .CPH_STAT = false := by decide +kernel) (h2 : P.regs.contains .CPH_CORE_CTL = false := by decide +kernel) :
    t.CoresCounted := by
  have hen : ∀ k, t.on F.CPH_CORE_CTL.EN k = s.on F.CPH_CORE_CTL.EN k := fun k => h.on F.CPH_CORE_CTL.EN k h2
  unfold State.CoresCounted
  rw [funext hen, h.get F.CPH_STAT.CORES 0 h1]
  exact hc

/-- The count of the cores leaves each core as it is. -/
theorem State.keeps_counted (s : State) : Keeps ⟨[.CIC_SRC_STAT, .CPH_STAT, .PKP_CRED, .PKP_CSEQ, .PKP_CTL, .PKP_STAT, .PMC_CNT, .PMC_CTL],
    [.cic, .conv, .evt, .fab, .freeNo, .health, .hif, .hkp, .out, .packs, .tly, .twn]⟩ s s.cphCores.judge :=
  .after (State.keeps_judge _).up s.keeps_cphCores.up

/-- R396: a core that fails its test leaves dispatch. -/
theorem State.keeps_katFail {t : State} (n : Nat) :
    Keeps ⟨[.CIC_SRC_STAT, .CPH_CORE_CTL, .CPH_STAT, .PKP_CRED, .PKP_CSEQ, .PKP_CTL, .PKP_STAT, .PMC_CNT, .PMC_CTL],
      [.cic, .conv, .evt, .fab, .freeNo, .health, .hif, .hkp, .out, .packs, .tly, .twn]⟩ t
        ((t.put F.CPH_CORE_CTL.EN n 0).cphCores.raise (112 + n)).judge ∧
      ((t.put F.CPH_CORE_CTL.EN n 0).cphCores.raise (112 + n)).judge.get F.CPH_CORE_CTL.EN n = 0 := by
  have hk : Keeps ⟨[.CIC_SRC_STAT, .CPH_STAT, .PKP_CRED, .PKP_CSEQ, .PKP_CTL, .PKP_STAT, .PMC_CNT, .PMC_CTL],
      [.cic, .conv, .evt, .fab, .freeNo, .health, .hif, .hkp, .out, .packs, .tly, .twn]⟩ (t.put F.CPH_CORE_CTL.EN n 0)
        ((t.put F.CPH_CORE_CTL.EN n 0).cphCores.raise (112 + n)).judge :=
    .after (State.keeps_judge _).up (.after (State.keeps_raise _ _).up (State.keeps_cphCores _).up)
  exact ⟨.after hk.up (State.keeps_put t F.CPH_CORE_CTL.EN n 0).up,
    (hk.get F.CPH_CORE_CTL.EN n).trans ((State.get_put_same t F.CPH_CORE_CTL.EN n 0).trans (by decide))⟩

/-! What waits for a slot (R416) -/

theorem exec_drained_erase {s : State} (hs : s.Runs) {k : Fin 65536} (hp : (s.kslot k).pend = some .erase) :
    exec (.keySlotDrained k) s = .next ((s.wipeKey k).answerWaits 0x0605 3 k 0 0
      (leBytes 4 ((s.wipeKey k).kslot k).gen.toNat)).startWaiting := by
  refine (exec_of_awake hs rfl).trans ?_
  rw [hp]

theorem exec_drained_rewrite {s : State} (hs : s.Runs) {k : Fin 65536} {mat : Bytes} (hp : (s.kslot k).pend = some (.rewrite mat))
    (hm : mat ≠ []) : ∃ body, exec (.keySlotDrained k) s = .next ((s.installKey k mat).answerWaits 0x0606 3 k 0 0 body).startWaiting := by
  obtain ⟨b, l, rfl⟩ := List.exists_cons_of_ne_nil hm
  let slot := (s.installKey k (b :: l)).kslot k
  refine ⟨leBytes 2 k ++ leBytes 2 (slot.gen.toNat % 65536) ++ keyFp k slot, (exec_of_awake hs rfl).trans ?_⟩
  rw [hp]

theorem exec_drained_none {s : State} (hs : s.Runs) {k : Fin 65536} (hp : (s.kslot k).pend = none ∨ (s.kslot k).pend = some (.rewrite [])) :
    exec (.keySlotDrained k) s = .next s := by
  refine (exec_of_awake hs rfl).trans ?_
  rcases hp with hp | hp <;> rw [hp]

end Sys2Proof.Machine
end

section
open Sys2Proof Sys2Proof.Machine

/-- Settles O33: what is put is left alone by the count of the cores and by the error state, and a drained slot keeps what it was given. -/
theorem cipherControl : Obligations.CipherControl := by
  intro s hs
  refine ⟨fun n => ?_, fun n ok hf => ?_, fun n hf => ?_, fun n hf => ?_, fun k hp => ?_, fun k mat hp hm => ?_, fun k hp => ?_⟩
  · refine gives_of_awake hs rfl ?_
    have hk := State.keeps_counted ((s.put F.CPH_CORE_CTL.EN n 0).put F.CPH_CORE_STAT.IDLE n 1)
    refine ⟨(hk.get F.CPH_CORE_CTL.EN n).trans ?_, (hk.get F.CPH_CORE_STAT.IDLE n).trans ?_,
      (State.keeps_judge _).coresCounted (State.coresCounted_cphCores _)⟩
    · rw [State.get_put_apart _ (f := F.CPH_CORE_STAT.IDLE)]
      exact (State.get_put_same _ F.CPH_CORE_CTL.EN n 0).trans (by decide)
    · exact (State.get_put_same _ F.CPH_CORE_STAT.IDLE n 1).trans (by decide)
  · refine (exec_of_awake hs rfl).trans ?_
    rw [if_pos (State.on_of_get_one hf)]
  · refine ⟨_, (exec_of_awake hs rfl).trans (congrArg Host.Outcome.next ((if_neg (by simp [State.on_of_get_zero hf])).trans (if_pos rfl))), ?_, ?_⟩
    · exact ((State.keeps_counted _).get F.CPH_CORE_CTL.EN n).trans ((State.get_put_same _ F.CPH_CORE_CTL.EN n 1).trans (by decide))
    · exact (State.keeps_judge _).coresCounted (State.coresCounted_cphCores _)
  · refine gives_of_awake hs rfl ?_
    rw [if_neg (by simp [State.on_of_get_zero hf]), if_neg Bool.false_ne_true]
    let t := (s.put F.CPH_CORE_STAT.KATFAIL n 1).put F.CPH_CORE_STAT.FAULT n 1
    have ht : t.get F.CPH_CORE_STAT.KATFAIL n = 1 ∧ t.get F.CPH_CORE_STAT.FAULT n = 1 :=
      ⟨(State.get_put_apart _ (f := F.CPH_CORE_STAT.FAULT) _ _ _).trans ((State.get_put_same _ F.CPH_CORE_STAT.KATFAIL n 1).trans (by decide)),
        (State.get_put_same _ F.CPH_CORE_STAT.FAULT n 1).trans (by decide)⟩
    obtain ⟨hk, he⟩ := State.keeps_katFail (t := t) n
    obtain ⟨hmode, hcode, hk2⟩ := State.secError_gives (((t.put F.CPH_CORE_CTL.EN n 0).cphCores.raise (112 + n)).judge) (code := 1) (by decide)
    exact ⟨(hk2.get F.CPH_CORE_STAT.KATFAIL n).trans ((hk.get F.CPH_CORE_STAT.KATFAIL n).trans ht.1),
      (hk2.get F.CPH_CORE_STAT.FAULT n).trans ((hk.get F.CPH_CORE_STAT.FAULT n).trans ht.2),
      (hk2.get F.CPH_CORE_CTL.EN n).trans he, hmode, hcode⟩
  · exact ⟨_, exec_drained_erase hs hp, ((State.keeps_answerWaits ..).kslot k).trans (State.kslot_setKslot _ _ _)⟩
  · obtain ⟨body, he⟩ := exec_drained_rewrite hs hp hm
    exact ⟨_, he, ((State.keeps_answerWaits ..).kslot k).trans (State.kslot_setKslot _ _ _)⟩
  · exact exec_drained_none hs hp

end

section
-- One proof at a time: as many threads as there are lemmas here do not fit beside the model.
set_option Elab.async false
namespace Sys2Proof.Machine

section
variable {s : State} {m : Msg}

/-- A failed authentication costs no challenge and no token. -/
theorem State.authFail_mbx (s : State) (c : Nat) : (s.authFail c).mbx.chal = s.mbx.chal ∧ (s.authFail c).mbx.tokens = s.mbx.tokens := by
  unfold State.authFail
  extract_lets l y s1 y1
  have h1 : s1.mbx = { s.mbx with failAt := tput c l s.mbx.failAt } := (State.keeps_put _ F.MBX_CSR.FAILS c _).mbx_eq
  clear_value s1
  split
  · rw [(State.keeps_put _ F.MBX_CSR.BLOCKED c 1).mbx_eq]
    simp only [y1, h1, and_self]
  · simp only [h1, and_self]

/-- The challenge of a channel is consumed. -/
def State.spendChal (s : State) (c : Nat) : State := { s with mbx := { s.mbx with chal := tdel c s.mbx.chal } }

/-- A proven role gets a token. -/
def State.grant (s : State) (m : Msg) (role : Nat) (id : BitVec 384) (b : Bytes) : State :=
  let v := BitVec.ofNat 32 (leNat b)
  let t : Token := { val := v, chan := m.chan, role := role, keyid := id, used := s.elapsed }
  { s with mbx := { s.mbx with tokens := s.mbx.tokens ++ [t] } }

/-- R422, R474: what PROVE does on a channel that is not blocked. -/
theorem gives_prove {a : Arrival} {role : Nat} {id : BitVec 384} {sig : BitVec 768} {P : State → Prop} (hs : s.Runs)
    (h : s.Admits 0x0002 164 m) (hr : role = 1 ∨ role = 2) (hb : tget m.chan.val s.mbx.blockAt = none)
    (hP : P (if !s.proves m role id sig then (((s.useToken m).spendChal m.chan).authFail m.chan).refuse 0x0002 m a 8
      else (s.useToken m).leadDraw 4 fun b t => ((t.spendChal m.chan).grant m role id b).done 0x0002 m a
        (leBytes 4 (BitVec.ofNat 32 (leNat b)).toNat ++ leBytes 4 900))) : Gives (.prove m a role id sig) s P := by
  refine gives_of_awake hs rfl ?_
  rw [msgApply_admitted _ _ _ h, if_neg (by omega), if_neg]
  · exact hP
  · rw [show tget m.chan.val (s.useToken m).mbx.blockAt = none from hb]
    exact Bool.false_ne_true

theorem gives_of_role {i : Instr} {op len : Nat} {role : Nat} {a : Arrival} {f : State → State} {P : State → Prop} (hs : s.Runs)
    (h : s.Admits op len m) (hr : role = 1 ∨ role = 2)
    (e : exec i s = s.awake (.next (msgApply op len m a (fun s => if role ≠ 1 ∧ role ≠ 2 then s.refuse op m a 2 16 else f s) s)))
    (hP : P (f (s.useToken m))) : Gives i s P := by
  refine gives_of_admitted hs h e ?_
  rwa [if_neg (by omega)]

end

end Sys2Proof.Machine
end

section
open Sys2Proof Sys2Proof.Machine

/-- Settles O37: each request passes the checks, changes challenges, tokens or blocks, and answers. -/
theorem sessionRequests : Obligations.SessionRequests := by
  intro s m a hs
  refine ⟨fun role h hr hb => ?_, fun role b h hr hb hl => ?_, fun role id sig h hr hb => ⟨fun hp => ?_, fun b hp hl => ?_⟩, fun h => ?_,
    fun v => ?_, fun c => ?_, fun h => ?_, fun e h h0 h1 => ?_⟩
  · refine gives_of_role hs h hr rfl ?_
    have hb : (tget m.chan.val (s.useToken m).mbx.blockAt).isSome = true := hb
    rw [if_pos hb]
    exact ⟨State.chal_refuse .., State.answered_refuse ..⟩
  · refine gives_of_role hs h hr rfl ?_
    have hb : ¬ (tget m.chan.val (s.useToken m).mbx.blockAt).isSome = true := by
      rw [show tget m.chan.val (s.useToken m).mbx.blockAt = none from hb]
      exact Bool.false_ne_true
    rw [if_neg hb]
    obtain ⟨t, hk, -, ht⟩ := State.leadDraw_of_bytes (s := s.useToken m) hl (fun b s =>
        let v := BitVec.ofNat 384 (leNat b)
        { s with mbx := { s.mbx with chal := tput m.chan (role, v) s.mbx.chal } }.done 0x0001 m a b)
    rw [ht]
    refine ⟨?_, State.answered_done ..⟩
    rw [State.chal_done]
    exact tget_tput_self _ _ _
  · refine gives_prove hs h hr hb ?_
    rw [if_pos (by simp [hp])]
    obtain ⟨hc, ht⟩ := ((s.useToken m).spendChal m.chan).authFail_mbx m.chan
    refine ⟨?_, State.answered_refuse .., ?_⟩
    · rw [State.chal_refuse, hc]
      exact tget_tdel_self _ _
    · rw [State.tokens_refuse, ht]
      rfl
  · refine gives_prove hs h hr hb ?_
    rw [if_neg (by simp [hp])]
    obtain ⟨t, hk, -, ht⟩ := State.leadDraw_of_bytes (s := s.useToken m) hl fun b t => ((t.spendChal m.chan).grant m role id b).done 0x0002 m a
        (leBytes 4 (BitVec.ofNat 32 (leNat b)).toNat ++ leBytes 4 900)
    rw [ht]
    have hmbx : t.mbx = (s.useToken m).mbx := hk.mbx_eq
    have hel : t.elapsed = s.elapsed := hk.elapsed_eq
    clear ht hk
    refine ⟨?_, State.answered_done .., ?_⟩
    · rw [State.chal_done]
      exact tget_tdel_self _ _
    · rw [State.tokens_done]
      show t.mbx.tokens ++ [_] = _
      rw [hmbx, show (t.spendChal m.chan).elapsed = s.elapsed from hel]
  · refine gives_of_admitted hs h rfl ⟨fun t ht => ?_, State.answered_done ..⟩
    rw [State.tokens_done] at ht
    have := List.of_mem_filter ht
    simpa only [Bool.not_eq_true', Bool.and_eq_false_iff, beq_eq_false_iff_ne, not_and_or] using this
  · exact gives_of_awake hs rfl rfl
  · refine gives_of_awake hs rfl ⟨?_, ?_, tget_tdel_self _ _⟩
    · exact (State.get_update ..).trans ((State.get_put_apart _ (f := F.MBX_CSR.FAILS) _ _ _).trans ((State.get_put_same _ F.MBX_CSR.BLOCKED c 0).trans (by decide)))
    · exact (State.get_update ..).trans <| (State.get_put_same _ F.MBX_CSR.FAILS c 0).trans (by decide)
  · refine gives_of_admitted hs h rfl ⟨?_, State.answered_done ..⟩
    exact ((State.keeps_done ..).get F.SEC_MODE.MODE 0).trans ((s.keeps_useToken m).get F.SEC_MODE.MODE 0)
  · refine gives_of_admitted hs h rfl ?_
    rw [if_neg (by omega)]
    obtain ⟨hm, hc, -⟩ := (s.useToken m).secError_gives h1
    refine ⟨((State.keeps_done ..).get F.SEC_MODE.MODE 0).trans hm, ((State.keeps_done ..).get F.SEC_MODE.ERRCODE 0).trans hc, ?_⟩
    rw [Nat.mod_eq_of_lt h1]
    exact State.answered_done ..

end

section
-- One proof at a time: as many threads as there are lemmas here do not fit beside the model.
set_option Elab.async false
namespace Sys2Proof.Machine

/-! Slots of keys of tenants and namespaces, and material sent to the peer (R413, R415, R417) -/

section
variable {s t : State} {m : Msg} {a : Arrival} {n op len : Nat}

/-- Slot `n` and the requests for material are the same. -/
def KeepsSlot (n : Nat) (s t : State) : Prop := t.kslot n = s.kslot n ∧ t.keys.need = s.keys.need

theorem Keeps.slot {P : Foot} (h : Keeps P s t) (n : Nat) (hp : P.parts.contains .keys = false := by decide +kernel) :
    KeepsSlot n s t := ⟨h.kslot n hp, congrArg Keys.need (h.keys_eq hp)⟩

theorem KeepsSlot.trans {u : State} (h : KeepsSlot n s t) (k : KeepsSlot n t u) : KeepsSlot n s u :=
  ⟨k.1.trans h.1, k.2.trans h.2⟩

/-- The send key is that of slot 3. -/
theorem State.slot_sendKey (s : State) (hn : n ≠ 3) : KeepsSlot n s s.sendKey := by
  unfold State.sendKey
  split
  · exact ⟨congrArg (Option.getD · _) (tget_tput_ne _ _ hn), rfl⟩
  · exact ⟨rfl, rfl⟩

theorem State.slot_twinSend (s : State) (mtype : Nat) (body : Bytes) (last : Bool) (hn : n ≠ 3) :
    KeepsSlot n s (s.twinSend mtype body last) := by
  unfold State.twinSend
  split
  · exact ⟨rfl, rfl⟩
  extract_lets q l l1 y s1 y1 s2
  split
  · have h1 : KeepsSlot n s s1 := ⟨rfl, rfl⟩
    clear_value s1
    have h2 : KeepsSlot n s1 s2 :=
      .trans (t := { s1 with keys := { s1.keys with genTx := s1.keys.genTx + 1 } }) ⟨rfl, rfl⟩ (State.slot_sendKey _ hn)
    clear_value s2
    have h3 : Keeps ⟨[.CIC_SRC_STAT, .TWN_LINK], [.cic, .evt, .out, .twn]⟩ s2 ((s2.put F.TWN_LINK.KGEN 0 (s2.keys.genTx % 65536)).raise 261).pumpTwin :=
      .after (State.keeps_pumpTwin _).up (.after (State.keeps_raise _ 261).up (State.keeps_put s2 F.TWN_LINK.KGEN 0 _).up)
    exact h1.trans (h2.trans (h3.slot n))
  · exact (State.keeps_pumpTwin _).slot n

theorem State.slot_xferSend (s : State) (slot : Nat) (gen : BitVec 32) (alg : Nat) (mat : Bytes) (hn : n ≠ 3) :
    KeepsSlot n s (s.xferSend slot gen alg mat) := by
  unfold State.xferSend
  exact .trans (t := { s with keys := { s.keys with xseq := s.keys.xseq + 1 } }) ⟨rfl, rfl⟩ (State.slot_twinSend _ _ _ _ hn)

theorem State.emptySlotFrom_ge (s : State) {k lo : Nat} (h : s.emptySlotFrom k lo = some n) : lo ≤ n := by
  induction k generalizing lo with
  | zero => simp [State.emptySlotFrom] at h
  | succ k ih =>
    unfold State.emptySlotFrom at h
    split at h
    · simp at h
    · split at h
      · exact Nat.le_of_eq (Option.some.inj h)
      · exact Nat.le_of_succ_le (ih h)

theorem State.emptySlotFrom_of_keys (h : t.keys = s.keys) (k lo : Nat) : t.emptySlotFrom k lo = s.emptySlotFrom k lo := by
  induction k generalizing lo with
  | zero => rfl
  | succ k ih => rw [State.emptySlotFrom, State.emptySlotFrom, ih, State.kslot_of_keys h]

theorem State.emptySlot_of_keys (h : t.keys = s.keys) : t.emptySlot = s.emptySlot := by
  rw [State.emptySlot, State.emptySlot, h, State.emptySlotFrom_of_keys h]

theorem State.emptySlot_ge (s : State) (h : s.emptySlot = some n) : n ≠ 3 := by
  have := s.emptySlotFrom_ge h
  omega

theorem State.slotOf_ge (s : State) {h : BitVec 32} (hs : s.slotOf h = some n) : n ≠ 3 := by
  unfold State.slotOf at hs
  extract_lets j k at hs
  split at hs
  · have : j = n := Option.some.inj hs
    omega
  · simp at hs

theorem Keeps.isTrail {P : Foot} (h : Keeps P s t) (hr : P.regs.contains .TWN_STAT = false := by decide +kernel)
    (hp : P.parts.contains .arb = false := by decide +kernel) : t.isTrail = s.isTrail := by
  unfold State.isTrail State.joining
  rw [h.on F.TWN_STAT.PAIRED 0 hr, h.on F.TWN_STAT.ROLE 0 hr, h.arb_eq hp]

theorem State.need_installKey (s : State) (n : Nat) (mat : Bytes) : (s.installKey n mat).keys.need = s.keys.need := by
  unfold State.installKey
  rw [State.keys_setKslot]

/-- A key that is drawn here. -/
def State.drawKey (s : State) (n : Nat) : State :=
  { s with freeNo := (drawMat (s.kslot n).alg 8 s.freeNo).2 }.installKey n (drawMat (s.kslot n).alg 8 s.freeNo).1

theorem State.makeKey_lead (hl : s.isTrail = false) : s.makeKey n =
    if (s.drawKey n).pairedLead then
      (s.drawKey n).xferSend n ((s.drawKey n).kslot n).gen (s.kslot n).alg (drawMat (s.kslot n).alg 8 s.freeNo).1
    else s.drawKey n := by
  unfold State.makeKey State.drawKey
  rw [hl, if_neg Bool.false_ne_true]

/-- What a key that is made here holds (R414, R416). -/
theorem State.kslot_makeKey (hl : s.isTrail = false) (hn : n ≠ 3) : (s.makeKey n).keys.need = s.keys.need ∧
    ((s.makeKey n).kslot n).alg = (s.kslot n).alg ∧ ((s.makeKey n).kslot n).owner = (s.kslot n).owner ∧
      ((s.makeKey n).kslot n).loaded = true ∧ ((s.makeKey n).kslot n).gen = (s.kslot n).gen + 1 := by
  have hd : (s.drawKey n).kslot n = _ := State.kslot_setKslot _ _ _
  have hneed : (s.drawKey n).keys.need = s.keys.need := State.need_installKey _ _ _
  have hslot : KeepsSlot n (s.drawKey n) (s.makeKey n) := by
    rw [State.makeKey_lead hl]
    split
    · exact State.slot_xferSend _ _ _ _ _ hn
    · exact ⟨rfl, rfl⟩
  rw [hslot.1, hd]
  exact ⟨hslot.2.trans hneed, rfl, rfl, rfl, rfl⟩

/-- What the first empty slot holds after a key has been made in it. -/
theorem State.newKey_made (hl : s.isTrail = false) (he : s.emptySlot = some n) (alg : Nat) (owner : BitVec 128) :
    ∃ t, s.newKey alg owner = some (n, t) ∧ t.keys.need = s.keys.need ∧ (t.kslot n).alg = alg ∧ (t.kslot n).owner = owner ∧
      (t.kslot n).loaded = true ∧ (t.kslot n).gen = (s.kslot n).gen + 1 ∧
        Keeps ⟨[.CIC_SRC_STAT, .SEC_KSTAT, .TWN_LINK], [.cic, .evt, .freeNo, .keys, .out, .twn]⟩ s t := by
  have hk := s.keeps_setKslot n { s.kslot n with alg := alg, owner := owner }
  have hs := s.kslot_setKslot n { s.kslot n with alg := alg, owner := owner }
  have hneed : (s.setKslot n { s.kslot n with alg := alg, owner := owner }).keys.need = s.keys.need := by rw [State.keys_setKslot]
  refine ⟨(s.setKslot n { s.kslot n with alg := alg, owner := owner }).makeKey n, by rw [State.newKey, he], ?_⟩
  obtain ⟨h1, h2, h3, h4, h5⟩ := State.kslot_makeKey (hk.isTrail.trans hl) (s.emptySlot_ge he)
  rw [h1, h2, h3, h4, h5, hs]
  exact ⟨hneed, rfl, rfl, rfl, rfl, .after (State.keeps_makeKey _ n).up hk.up⟩

/-! The requests for key slots -/

/-- A request for a slot that passes the checks acts on the slot that its handle names. -/
theorem gives_of_slot {i : Instr} {h : BitVec 32} {f : Nat → State → State} {P : State → Prop} (hs : s.Runs) (ha : s.Admits op len m)
    (hslot : s.slotOf h = some n) (e : exec i s = s.awake (.next (msgApply op len m a (fun s => s.withSlot op m a h fun n s => f n s) s)))
    (hP : P (f n (s.useToken m))) : Gives i s P := by
  refine gives_of_admitted hs ha e ?_
  have hslot : (s.useToken m).slotOf h = some n := hslot
  rwa [State.withSlot, hslot]

/-- A request whose handle names no slot is refused. -/
theorem gives_of_noSlot {i : Instr} {h : BitVec 32} {f : State → Nat → State → State} (hs : s.Runs) (ha : s.Admits op len m)
    (hslot : s.slotOf h = none)
    (e : exec i s = s.awake (.next (msgApply op len m a (fun s => s.withSlot op m a h (f s)) s))) :
    Gives i s fun u => u.keys = s.keys ∧ u.Answered m op 2 [] := by
  refine gives_of_admitted hs ha e ?_
  have hslot : (s.useToken m).slotOf h = none := hslot
  rw [State.withSlot, hslot]
  exact ⟨(State.keeps_refuse ..).keys_eq.trans (s.keeps_useToken m).keys_eq, State.answered_refuse ..⟩

/-- A slot is replaced, the settings' generation goes up, and the request is answered. -/
theorem State.slotSet_done (s : State) (n : Nat) (k : KeySlot) (m : Msg) (a : Arrival) (op : Nat) (body : Bytes) (more : Bool) :
    (((s.setKslot n k).sgenUp).done op m a body more).kslot n = k ∧
      (((s.setKslot n k).sgenUp).done op m a body more).sgen = s.sgen + 1 := by
  have hk := State.keeps_done (s.setKslot n k).sgenUp op m a body more
  rw [hk.kslot n, hk.sgen_eq, State.kslot_sgenUp, State.sgen_sgenUp, State.kslot_setKslot, (s.keeps_setKslot n k).sgen_eq]
  exact ⟨rfl, rfl⟩

/-- A slot gets an operation, and its request waits for it. -/
theorem State.slotSet_await (s : State) (n : Nat) (k : KeySlot) (m : Msg) (a : Arrival) :
    (((s.setKslot n k).sgenUp).await m a 3 n).kslot n = k ∧ (((s.setKslot n k).sgenUp).await m a 3 n).sgen = s.sgen + 1 ∧
      (((s.setKslot n k).sgenUp).await m a 3 n).mbx.waits = s.mbx.waits ++ [{ m := m, here := isHere a, what := 3, arg := n }] := by
  rw [State.waits_await, State.mbx_sgenUp, (s.keeps_setKslot n k).mbx_eq, State.kslot_await, State.sgen_await, State.kslot_sgenUp, State.sgen_sgenUp, State.kslot_setKslot, (s.keeps_setKslot n k).sgen_eq]
  exact ⟨rfl, rfl, rfl⟩

/-- R416: material for a slot, sent to the peer of a paired lead. -/
def State.rewritePend (s : State) (n : Nat) : State :=
  ({ s with freeNo := (drawMat (s.kslot n).alg 8 s.freeNo).2 }.setKslot n { s.kslot n with
    pend := some (.rewrite (drawMat (s.kslot n).alg 8 s.freeNo).1) }).sgenUp

theorem State.rewrite_await (s : State) (hn : n ≠ 3) (m : Msg) (a : Arrival) (p : Bool) (gen : BitVec 32) (alg : Nat) (mat : Bytes) :
    let u := (if p then (s.rewritePend n).xferSend n gen alg mat else s.rewritePend n).await m a 3 n
    u.kslot n = { s.kslot n with pend := some (.rewrite (drawMat (s.kslot n).alg 8 s.freeNo).1) } ∧ u.sgen = s.sgen + 1 ∧
      u.mbx.waits = s.mbx.waits ++ [{ m := m, here := isHere a, what := 3, arg := n }] := by
  intro u
  have h1 : (s.rewritePend n).kslot n = { s.kslot n with pend := some (.rewrite (drawMat (s.kslot n).alg 8 s.freeNo).1) } := by
    rw [State.rewritePend, State.kslot_sgenUp, State.kslot_setKslot]
  have h2 : (s.rewritePend n).sgen = s.sgen + 1 := by
    rw [State.rewritePend, State.sgen_sgenUp, (State.keeps_setKslot _ _ _).sgen_eq]
  have h3 : (s.rewritePend n).mbx = s.mbx := by
    rw [State.rewritePend, State.mbx_sgenUp, (State.keeps_setKslot _ _ _).mbx_eq]
  unfold u
  rw [State.kslot_await, State.sgen_await, State.waits_await]
  split
  · have hk := State.keeps_xferSend (s.rewritePend n) n gen alg mat
    rw [(State.slot_xferSend _ _ _ _ _ hn).1, hk.sgen_eq, hk.mbx_eq, h1, h2, h3]
    exact ⟨rfl, rfl, rfl⟩
  · rw [h1, h2, h3]
    exact ⟨rfl, rfl, rfl⟩

/-- Bales that are queued for repack leave the slots and the namespaces. -/
theorem State.keeps_queueBales (s : State) (nsid : Nat) (l : List Nat) :
    Keeps ⟨[], [.map]⟩ s (l.foldl (fun t b => t.queueRepack nsid b) s) :=
  .foldl (fun s b => s.keeps_queueRepack nsid b) l s

theorem State.nsOf_setNs (s : State) (nsid : Nat) (ns : Ns) : (s.setNs nsid ns).nsOf nsid = some ns := tget_tput_self _ _ _

theorem State.nsOf_of_hif (h : t.hif = s.hif) (nsid : Nat) : t.nsOf nsid = s.nsOf nsid := congrArg (fun x : Hif => tget nsid x.ns) h

end

end Sys2Proof.Machine
end

section
open Sys2Proof Sys2Proof.Machine

/-- Settles O35: a request passes the checks, its slot is replaced, and the answer or the wait follows. -/
theorem keySlotRequests : Obligations.KeySlotRequests := by
  intro s m a n hs
  refine ⟨fun alg owner h h1 h3 he ht hn => ?_, fun alg owner h hbad => ?_, fun nsid ns h hns hsl hpk he ht => ?_, fun hd h hslot => ?_,
    fun hd h hslot hl hw hu => ?_, fun hd h hslot hp => ?_, fun hd h hslot hp ht => ?_, fun hd owner h hslot => ?_,
    fun hd owner op len c hslot h hc => ?_⟩
  · have he : (s.useToken m).emptySlot = some n := (State.emptySlot_of_keys (s.keeps_useToken m).keys_eq).trans he
    obtain ⟨t, hnew, hneed, halg, howner, hload, hgen, hk⟩ := State.newKey_made (s := s.useToken m) ht he alg owner
    have hwait : t.sgenUp.keyNeeded n = false := by
      rw [← hn]
      exact congrArg (List.any · _) hneed
    obtain ⟨body, hbody⟩ : ∃ b, leBytes 4 (t.sgenUp.handleOf n).toNat ++ keyFp n (t.kslot n) = b := ⟨_, rfl⟩
    refine ⟨t.sgenUp.done 0x0601 m a body, ?_, ?_⟩
    · refine exec_of_admitted hs h rfl ?_
      rw [if_neg (by omega), hnew, ← hbody]
      exact if_neg (by simp [hwait])
    · have hd := State.keeps_done t.sgenUp 0x0601 m a body false
      dsimp only
      rw [State.handleOf_of_kslot (hd.kslot n), hd.kslot n, hd.sgen_eq, State.sgen_sgenUp, hk.sgen_eq, State.kslot_sgenUp, hbody]
      exact ⟨halg, howner, hload, hgen, rfl, State.answered_done t.sgenUp 0x0601 m a body false⟩
  · refine gives_of_admitted hs h rfl ?_
    rw [if_pos (by omega)]
    exact ⟨(State.keeps_refuse ..).keys_eq.trans (s.keeps_useToken m).keys_eq, State.answered_refuse ..⟩
  · have he : (s.useToken m).emptySlot = some n := (State.emptySlot_of_keys (s.keeps_useToken m).keys_eq).trans he
    have hns : (s.useToken m).nsOf nsid = some ns := hns
    obtain ⟨t, hnew, -, halg, howner, hload, -, -⟩ :=
      State.newKey_made (s := s.useToken m) ht he 2 ((s.useToken m).kslot (ns.keyref.toNat % 65536)).owner
    refine ⟨((s.useToken m).storedBales nsid).foldl (fun t b => t.queueRepack nsid b)
      (t.setNs nsid { ns with keyref := t.handleOf n, prevKey := some ns.keyref }), ?_, ?_⟩
    · refine exec_of_admitted hs h rfl ?_
      rw [hns]
      dsimp only
      rw [if_neg (by simp [hsl]), if_neg (by simp [hpk]), hnew]
    · have hq := State.keeps_queueBales (t.setNs nsid { ns with keyref := t.handleOf n, prevKey := some ns.keyref }) nsid
        ((s.useToken m).storedBales nsid)
      have hk := t.keeps_setNs nsid { ns with keyref := t.handleOf n, prevKey := some ns.keyref }
      have hslot := (hq.kslot n).trans (hk.kslot n)
      dsimp only
      rw [State.handleOf_of_kslot hslot, hslot, State.nsOf_of_hif hq.hif_eq, State.nsOf_setNs]
      exact ⟨halg, hload, howner, rfl⟩
  · refine gives_of_slot hs h hslot rfl ?_
    obtain ⟨h1, h2⟩ := (s.useToken m).slotSet_done n { s.kslot n with loaded := false } m a 0x0603
      (((s.useToken m).setKslot n { s.kslot n with loaded := false }).sgenUp.genBody n) false
    have hb : ((s.useToken m).setKslot n { s.kslot n with loaded := false }).sgenUp.genBody n = s.genBody n := by
      rw [State.genBody, State.kslot_sgenUp, State.kslot_setKslot, State.genBody]
    exact ⟨h1, h2, by
      rw [← hb]
      exact State.answered_done ..⟩
  · refine gives_of_slot hs h hslot rfl ?_
    rw [if_neg]
    · obtain ⟨h1, h2⟩ := (s.useToken m).slotSet_done n { s.kslot n with loaded := true } m a 0x0604
        (((s.useToken m).setKslot n { s.kslot n with loaded := true }).sgenUp.genBody n) false
      have hb : ((s.useToken m).setKslot n { s.kslot n with loaded := true }).sgenUp.genBody n = s.genBody n := by
        rw [State.genBody, State.kslot_sgenUp, State.kslot_setKslot, State.genBody]
      exact ⟨h1, h2, by
      rw [← hb]
      exact State.answered_done ..⟩
    · simp [show ((s.useToken m).kslot 0).loaded = true from hl, show ((s.useToken m).kslot n).wrapped = true from hw,
        show (s.useToken m).keys.noUnwrap = false from hu]
  · refine gives_of_slot hs h hslot rfl ?_
    rw [if_neg (by simp [show ((s.useToken m).kslot n).pend = none from hp])]
    exact (s.useToken m).slotSet_await n _ m a
  · refine gives_of_slot hs h hslot rfl ?_
    rw [if_neg (by simp [show ((s.useToken m).kslot n).pend = none from hp]),
      if_neg (by simp [show (s.useToken m).isTrail = false from ht])]
    exact (s.useToken m).rewrite_await (s.slotOf_ge hslot) m a _ _ _ _
  · refine gives_of_slot hs h hslot rfl ?_
    obtain ⟨h1, h2⟩ := (s.useToken m).slotSet_done n { s.kslot n with owner := owner } m a 0x0607 [] false
    exact ⟨h1, h2, State.answered_done ..⟩
  · simp only [List.mem_cons, Prod.mk.injEq, List.not_mem_nil, or_false] at hc
    rcases hc with ⟨rfl, rfl, rfl⟩ | ⟨rfl, rfl, rfl⟩ | ⟨rfl, rfl, rfl⟩ | ⟨rfl, rfl, rfl⟩ | ⟨rfl, rfl, rfl⟩ <;>
      exact gives_of_noSlot hs h hslot rfl

end

section
-- One proof at a time: as many threads as there are lemmas here do not fit beside the model.
set_option Elab.async false
namespace Sys2Proof.Machine

/-! ### Inputs that are captured at once (R326) -/

/-- An input that finds room does what it does, after its entry has been recorded. -/
theorem State.capture_open {s : State} (h : s.Open) (e : LEntry) (f : State → State) (he : e.len ≤ 256) :
    ∃ t, Keeps .captured s t ∧ s.capture e f = f t := by
  obtain ⟨ht, hh, hr⟩ := h
  unfold State.capture
  rw [if_neg (by simp [ht])]
  extract_lets e1
  have hroom : s.hasRoom e1 = true := hr e1 he
  rw [if_neg (by simp [hh, hroom])]
  exact ⟨_, .after (State.keeps_ringDeliver _ e1).up (.ite (fun _ => (State.keeps_recordPut s e1).up) fun _ => .refl _), rfl⟩

end Sys2Proof.Machine
end

section
-- One proof at a time: as many threads as there are lemmas here do not fit beside the model.
set_option Elab.async false
namespace Sys2Proof.Machine

/-! Zeroization (R427) -/

section
variable {s : State} {m : Msg} {a : Arrival}

/-- What a zeroization leaves, whatever the state it meets. -/
def State.Zeroized (s : State) : Prop := s.keys = { zeroed := true } ∧ s.inReset = true ∧ s.hif.ctxs = [] ∧ s.mbx.tokens = []

/-- R427: the keys, the commands and the tokens are gone. -/
def State.wiped (s : State) : State := { s with
  hif := { s.hif with fetchStop := true, ctxs := [] }
  keys := { zeroed := true }
  mbx := { s.mbx with tokens := [], chal := [] }
  inReset := true }

/-- What comes before in a zeroization: the erase of its region and the charges of the commands. -/
def State.uncharged (s : State) : State :=
  (s.norErase (0x2800000, 0x800000)).hif.ctxs.foldl (fun s c => s.unchargeAll c.stamp) (s.norErase (0x2800000, 0x800000))

theorem State.zeroizeNow_eq (s : State) : s.zeroizeNow = s.uncharged.wiped.kstat := rfl

theorem State.keeps_uncharged (s : State) : Keeps ⟨[.MAP_CAP_CHARGED], [.map, .nor, .snor]⟩ s s.uncharged :=
  .after (.up (.foldl (fun s (c : Ctx) => s.keeps_unchargeAll c.stamp) _ _)) (s.keeps_norErase _).up

theorem State.zeroized_zeroizeNow (s : State) : s.zeroizeNow.Zeroized ∧ s.zeroizeNow.mbx.last = s.mbx.last := by
  have hk := s.uncharged.wiped.keeps_kstat
  have hm := s.keeps_uncharged.mbx_eq
  rw [State.zeroizeNow_eq, State.Zeroized, hk.keys_eq, hk.inReset_eq, hk.hif_eq, hk.mbx_eq]
  refine ⟨⟨rfl, rfl, rfl, rfl⟩, ?_⟩
  show s.uncharged.mbx.last = _
  rw [hm]

/-! The transport secret (R419) -/

/-- The first component is kept with the key of its session. -/
theorem State.dtsFirst (s : State) (m : Msg) (a : Arrival) (i : Nat) (c : BitVec 256) (key : BitVec 384) :
    let u := ({ s with keys := { s.keys with dtsPart := [(i, c, key)] } }).done 0x0608 m a (chk4 c ++ [0, 0, 0, 0])
    u.keys.dtsPart = [(i, c, key)] ∧ u.keys.dts = s.keys.dts ∧ u.Answered m 0x0608 0 (chk4 c ++ [0, 0, 0, 0]) := by
  intro u
  have hk : u.keys = { s.keys with dtsPart := [(i, c, key)] } := (State.keeps_done ..).keys_eq
  rw [hk]
  exact ⟨rfl, rfl, State.answered_done ..⟩

/-- The second component makes the secret. -/
theorem State.dtsSecond (s : State) (m : Msg) (a : Arrival) (c d : BitVec 256) :
    let u := ({ s with keys := { s.keys with dts := some d, dtsPart := [] } }.kstat).done 0x0608 m a (chk4 c ++ chk4 d)
    u.keys.dtsPart = [] ∧ u.keys.dts = some d ∧ u.Answered m 0x0608 0 (chk4 c ++ chk4 d) := by
  intro u
  have hk : u.keys = { s.keys with dts := some d, dtsPart := [] } := (State.keeps_done ..).keys_eq.trans (State.keeps_kstat _).keys_eq
  rw [hk]
  exact ⟨rfl, rfl, State.answered_done ..⟩

/-! The key store (R420) -/

/-- The part of an exported package from its start. -/
theorem State.exportPart_zero {s : State} {no : Nat} (hp : s.keys.pkgNo = no + 1) (m : Msg) (a : Arrival) :
    (s.exportPart m a 0).Answered m 0x0609 0 (leBytes 8 (Config.free no) ++
      (List.range (min 32736 (Config.free no))).map fun i => Config.freeByte no i) := by
  unfold State.exportPart
  rw [hp, Nat.add_sub_cancel]
  extract_lets total l
  rw [if_neg (Nat.not_lt_zero _)]
  have hb : (fun i => Config.freeByte no (0 + i)) = fun i => Config.freeByte no i := by
    funext i
    rw [Nat.zero_add]
  rw [hb]
  exact State.answered_done ..

/-- The parts of a package that have come. -/
def State.importBuf (s : State) : List (Nat × Bytes) := s.keys.importBuf

theorem State.importBuf_setKslot (s : State) (n : Nat) (k : KeySlot) : (s.setKslot n k).keys.importBuf = s.keys.importBuf := by
  rw [State.keys_setKslot]

theorem State.importBuf_importRec (s : State) (no i : Nat) : Same State.importBuf s (s.importRec no i) := by
  unfold Same State.importBuf State.importRec
  rw [State.importBuf_setKslot]

/-- A complete package empties the buffer; it is taken where its check passes. -/
theorem State.importDone_gives (s : State) (m : Msg) (a : Arrival) : (s.importDone m a).keys.importBuf = [] ∧
    if Config.free s.freeNo = 0 then (s.importDone m a).Answered m 0x060A 8 [] else
      (s.importDone m a).Answered m 0x060A 0 [] ∧ (s.importDone m a).inReset = true := by
  unfold State.importDone
  extract_lets no s1 y n s2 s3 s4 s5
  split
  next h =>
    clear_value y
    refine ⟨?_, State.answered_refuse _ 0x060A m a 8 0⟩
    rw [(State.keeps_refuse _ _ _ _ _ _).keys_eq]
  next h =>
    have h2 : s2.keys.importBuf = [] := rfl
    clear_value s2
    have h3 : s3.keys.importBuf = [] := by
      unfold s3
      rw [State.importBuf_setKslot, h2]
    clear_value s3
    have h4 : Same State.importBuf s3 s4 := .foldl (fun s i => s.importBuf_importRec (no + 2) i) _ _
    clear_value s4
    refine ⟨?_, State.answered_done s4 0x060A m a [] false, rfl⟩
    exact (congrArg Keys.importBuf (State.keeps_done s4 0x060A m a [] false).keys_eq).trans (Eq.trans h4 h3)

/-! Enrolment (R423) -/

theorem State.keys_sgenUp (s : State) : s.sgenUp.keys = s.keys := rfl

theorem AuthKey.role_filter (l : List AuthKey) (role : Nat) (id : BitVec 384) :
    (l.filter fun k => !(k.role == role && k.keyid == id)).filter (fun k => k.role == role) =
      l.filter fun k => k.role == role && k.keyid != id := by
  rw [List.filter_filter]
  congr 1
  funext k
  cases k.role == role <;> simp [bne]

/-- Key identifiers that are enrolled or removed: the keys, the settings' generation, and the answer. -/
theorem State.authSet_done (s : State) (l : List AuthKey) (m : Msg) (a : Arrival) (body : Bytes) :
    let u := ({ s with keys := { s.keys with auth := l } }.kstat.sgenUp).done 0x060C m a body
    u.keys.auth = l ∧ u.sgen = s.sgen + 1 ∧ u.Answered m 0x060C 0 body := by
  intro u
  have hk := State.keeps_done ({ s with keys := { s.keys with auth := l } }.kstat.sgenUp) 0x060C m a body false
  have hs := State.keeps_kstat { s with keys := { s.keys with auth := l } }
  have hauth : ({ s with keys := { s.keys with auth := l } }.kstat.sgenUp).keys = { s.keys with auth := l } := by
    rw [State.keys_sgenUp, hs.keys_eq]
  have hsg : ({ s with keys := { s.keys with auth := l } }.kstat.sgenUp).sgen = s.sgen + 1 := by
    rw [State.sgen_sgenUp, hs.sgen_eq]
  refine ⟨congrArg Keys.auth (hk.keys_eq.trans hauth), hk.sgen_eq.trans hsg, State.answered_done ..⟩

/-! Transfers of secret material (R415) -/

/-- Material that a rejoin brings. -/
def State.secJoin (s : State) (x : BitVec 64) (k : Nat) (g : BitVec 32) (alg : Nat) (mat : Bytes) : State :=
  let t := { s with keys := { s.keys with xseq := x } }
  t.setKslot k { t.kslot k with alg := alg, gen := g, loaded := true, mat := mat, wrapped := true }

theorem State.secJoin_gives (s : State) (x : BitVec 64) (k : Nat) (g : BitVec 32) (alg : Nat) (mat : Bytes) :
    (s.secJoin x k g alg mat).keys.xseq = x ∧ (s.secJoin x k g alg mat).kslot k =
      { s.kslot k with alg := alg, gen := g, loaded := true, mat := mat, wrapped := true } := by
  unfold State.secJoin
  extract_lets t
  rw [State.keys_setKslot, State.kslot_setKslot]
  exact ⟨rfl, rfl⟩

end

end Sys2Proof.Machine
end

section
open Sys2Proof Sys2Proof.Machine

/-- Settles O36: each request acts on the keys alone, and answers; a zeroization leaves the same whatever state it meets. -/
theorem secretRequests : Obligations.SecretRequests := by
  intro s m a hs
  refine ⟨fun i c h hi hp hn => ?_, fun i c o h hi hp ho hk => ?_, fun nonce h hd hl => ?_, fun off total data h hd hns hsrk hlt => ?_,
    fun off total data h hd hns hsrk heq => ?_, fun v h => ?_, fun ns hns ho => ?_, fun ns hns => ?_, fun x k g alg v hl hj => ?_,
    fun x k g alg v hl hj ht hn => ?_, fun role key id h hr hc => ?_, fun role key id h hr hc => ?_, fun r h hr => ?_⟩
  · refine gives_of_admitted hs h rfl ?_
    have hn : tget (3 - i) (s.useToken m).keys.dtsPart = none := hn
    rw [if_neg (by omega), if_neg (by simp [State.on_of_get_zero (s := s.useToken m) hp]), hn]
    cases (s.useToken m).tokenOf m <;> exact State.dtsFirst _ m a i c _
  · refine gives_of_admitted hs h rfl ?_
    have ho : tget (3 - i) (s.useToken m).keys.dtsPart = some o := ho
    rw [if_neg (by omega), if_neg (by simp [State.on_of_get_zero (s := s.useToken m) hp]), ho]
    revert hk
    cases (s.useToken m).tokenOf m with
    | none =>
      intro hk
      dsimp only
      rw [if_neg (show ¬ o.2 = 0 from hk)]
      exact State.dtsSecond _ m a c _
    | some tok =>
      intro hk
      dsimp only
      rw [if_neg (show ¬ o.2 = tok.keyid from hk)]
      exact State.dtsSecond _ m a c _
  · have hd : (s.useToken m).keys.dts.isSome = true := hd
    obtain ⟨t, -, hno, ht⟩ := State.leadDraw_of_bytes (s := s.useToken m) hl fun nonce s =>
      let k := match s.keys.dts with
        | some d => s.keys.derive 5 (exportKey d nonce)
        | none => s.keys
      ({ s.drawn with keys := { k with pkgNo := s.freeNo + 1 } }.kstat).exportPart m a 0
    have hno : t.freeNo = (if s.isTrail then s.freeNo else s.freeNo + 1) := hno
    let k := match t.keys.dts with
      | some d => t.keys.derive 5 (exportKey d nonce)
      | none => t.keys
    let v := { t.drawn with keys := { k with pkgNo := t.freeNo + 1 } }.kstat
    have hv : v.keys.pkgNo = t.freeNo + 1 := congrArg Keys.pkgNo (State.keeps_kstat _).keys_eq
    refine ⟨v.exportPart m a 0, exec_of_admitted hs h rfl ?_, ?_⟩
    · rw [if_neg (by simp [Option.isNone_eq_false_iff.2 hd]), if_neg (Nat.lt_irrefl 0)]
      exact ht
    · dsimp only
      rw [← hno, (State.keeps_exportPart v m a 0).keys_eq, hv]
      exact ⟨rfl, State.exportPart_zero hv m a⟩
  · have hb : ¬ ((s.useToken m).keys.dts.isNone || !(s.useToken m).hif.ns.isEmpty || !(s.useToken m).keys.srkFirst) = true := by
      simp [show (s.useToken m).keys.dts.isNone = false from Option.isNone_eq_false_iff.2 hd,
        show (s.useToken m).hif.ns = [] from hns, show (s.useToken m).keys.srkFirst = true from hsrk]
    have hlen := h.2.2.2.2.1
    refine gives_of_admitted hs h rfl ?_
    rw [if_neg hb, if_neg (by omega), if_neg (by omega)]
    dsimp only
    rw [if_neg (by omega)]
    exact ⟨(State.keeps_done ..).keys_eq, State.answered_done ..⟩
  · have hb : ¬ ((s.useToken m).keys.dts.isNone || !(s.useToken m).hif.ns.isEmpty || !(s.useToken m).keys.srkFirst) = true := by
      simp [show (s.useToken m).keys.dts.isNone = false from Option.isNone_eq_false_iff.2 hd,
        show (s.useToken m).hif.ns = [] from hns, show (s.useToken m).keys.srkFirst = true from hsrk]
    have hlen := h.2.2.2.2.1
    refine gives_of_admitted hs h rfl ?_
    rw [if_neg hb, if_neg (by omega), if_neg (by omega)]
    dsimp only
    rw [if_pos heq]
    exact State.importDone_gives _ m a
  · refine gives_of_admitted hs h rfl ?_
    split
    next hv =>
      rw [if_neg (by simp [hv])]
      obtain ⟨⟨h1, h2, h3, h4⟩, h5⟩ := ((s.useToken m).done 0x060B m a).zeroized_zeroizeNow
      obtain ⟨r, hr, hr2⟩ := State.answered_done (s.useToken m) 0x060B m a [] false
      exact ⟨h1, h2, h3, h4, r, h5 ▸ hr, hr2⟩
    next hv =>
      exact ⟨(State.keeps_refuse ..).keys_eq.trans (s.keeps_useToken m).keys_eq, State.answered_refuse ..⟩
  · refine gives_of_awake hs rfl ?_
    rw [if_neg (by omega)]
    obtain ⟨t, -, ht⟩ := State.capture_open ho { cls := 7, origin := false, toff := 0, payload := [2, 0, 0, 0] } State.zeroizeNow (by decide)
    rw [ht]
    exact t.zeroized_zeroizeNow.1
  · refine (exec_of_awake hs rfl).trans ?_
    rw [if_pos hns]
  · refine gives_of_awake hs rfl ?_
    rw [if_neg (by simp [State.on_of_get_one hl])]
    have hk := s.keeps_twinIn (16 + (leBytes (keyLen alg) v.toNat).length)
    have hj : ((s.twinIn (16 + (leBytes (keyLen alg) v.toNat).length)).arb.rj.active &&
        (s.twinIn (16 + (leBytes (keyLen alg) v.toNat).length)).arb.rj.joiner) = true := by rw [hk.arb_eq]; exact hj
    obtain ⟨h1, h2⟩ := (s.twinIn (16 + (leBytes (keyLen alg) v.toNat).length)).secJoin_gives x k g alg (leBytes (keyLen alg) v.toNat)
    rw [hk.kslot] at h2
    rw [if_pos hj]
    exact ⟨h1, h2⟩
  · refine gives_of_awake hs rfl ?_
    have hk := s.keeps_twinIn (16 + (leBytes (keyLen alg) v.toNat).length)
    have hj : ¬ ((s.twinIn (16 + (leBytes (keyLen alg) v.toNat).length)).arb.rj.active &&
        (s.twinIn (16 + (leBytes (keyLen alg) v.toNat).length)).arb.rj.joiner) = true := by
      rw [hk.arb_eq]
      exact Bool.eq_false_iff.1 hj
    have ht : ¬ (!(s.twinIn (16 + (leBytes (keyLen alg) v.toNat).length)).isTrail) = true := by
      rw [hk.isTrail, ht]
      exact Bool.false_ne_true
    have hn : ((s.twinIn (16 + (leBytes (keyLen alg) v.toNat).length)).keys.need.find? fun e => e.1 == x) = none := by
      rw [hk.keys_eq]
      exact hn
    rw [if_neg (by simp [State.on_of_get_one hl])]
    dsimp only
    rw [if_neg hj, if_neg ht, hn]
    dsimp only
    rw [hk.keys_eq]
  · refine gives_of_admitted hs h rfl ?_
    have hfew : ¬ 8 ≤ (((s.useToken m).keys.auth.filter fun k => !(k.role == role && k.keyid == keyIdOf key)).filter
        fun k => k.role == role).length := by
      rw [AuthKey.role_filter]
      exact Nat.not_le.2 hc
    rw [if_neg (by omega), if_neg (by omega), if_pos rfl]
    dsimp only
    rw [if_neg hfew]
    exact State.authSet_done _ _ m a _
  · refine gives_of_admitted hs h rfl ?_
    rw [if_neg (by omega), if_neg (by omega), if_neg (by omega), if_neg]
    · exact State.authSet_done _ _ m a _
    · rw [show ((s.useToken m).keys.auth.any fun k => k.role == role && k.keyid == id) = true from hc]
      exact Bool.false_ne_true
  · refine gives_of_admitted hs h rfl ?_
    rw [if_neg (by omega)]
    refine ⟨?_, ?_, State.answered_done ..⟩
    · refine (State.get_done _ _ _ _ _ _ F.SNF_RGN.LOCKOUT r).trans ?_
      rw [State.unlock, State.get_put_apart _ (f := F.SNF_RGN.ATTEMPTS)]
      exact (State.get_put_same _ F.SNF_RGN.LOCKOUT r 0).trans (by decide)
    · refine (State.get_done _ _ _ _ _ _ F.SNF_RGN.ATTEMPTS r).trans ?_
      exact (State.get_put_same _ F.SNF_RGN.ATTEMPTS r 0).trans (by decide)

end

section
-- One proof at a time: as many threads as there are lemmas here do not fit beside the model.
set_option Elab.async false
namespace Sys2Proof.Machine

/-- The packs that are being removed. -/
def State.removingOf (s : State) (n : Nat) : Bool := (s.pk n).removing

theorem Keeps.removing {F : Foot} {s t : State} (h : Keeps F s t) (hp : F.parts.contains .packs = false := by decide +kernel) :
    Same State.removingOf s t := congrArg (fun x (n : Nat) => (tgetD n ({} : Pack) x).removing) (h.packs_eq hp)

theorem State.pk_setPk (s : State) (n : Nat) (p : Pack) : (s.setPk n p).pk n = p := tgetD_tset_self _ _ _ _

theorem State.pk_setPk_ne (s : State) {k n : Nat} (p : Pack) (h : k ≠ n) : (s.setPk n p).pk k = s.pk k := tgetD_tset_ne _ _ _ _ h

theorem State.removing_setPk (s : State) (n : Nat) (p : Pack) (h : p.removing = (s.pk n).removing) :
    Same State.removingOf s (s.setPk n p) := by
  funext k
  show ((s.setPk n p).pk k).removing = (s.pk k).removing
  by_cases hk : k = n
  · rw [hk, State.pk_setPk, h]
  · rw [State.pk_setPk_ne s p hk]

theorem State.removing_pumpPack (s : State) (n : Nat) : Same State.removingOf s (s.pumpPack n) := by
  unfold State.pumpPack
  split
  · exact .refl _
  extract_lets r y s1 s2
  have h1 : Same State.removingOf s s1 := (State.removing_setPk s n { s.pk n with link := r.1 } rfl).trans
    (State.keeps_pmc _ _ _ _).removing
  have h2 : Same State.removingOf s1 s2 := (State.keeps_put _ F.PKP_CRED.TXCRED n _).removing
  exact (h1.trans h2).trans (.update (.refl _) rfl)

theorem State.removing_issue (s : State) (o : Out) : Same State.removingOf s (s.issue o) := by
  unfold State.issue
  split
  · refine .trans (State.removing_setPk s _ _ ?_) (State.removing_pumpPack _ _)
    rfl
  · exact (State.keeps_send _ _).removing

theorem State.removing_emitQuiet (s : State) (o : Out) : Same State.removingOf s (s.emitQuiet o) := by
  unfold State.emitQuiet
  exact .ite (fun _ => .refl _) fun _ => .ite (fun _ => .update (.refl _) rfl) fun _ => State.removing_issue _ _

theorem State.removing_emit (s : State) (o : Out) : Same State.removingOf s (s.emit o) := by
  unfold State.emit
  exact .after (State.removing_emitQuiet _ _) ((State.keeps_digest _ _ _).removing)

theorem State.removing_packIssue (s : State) (n : Nat) (use : PkUse) (c : PackCmd) : Same State.removingOf s (s.packIssue n use c) := by
  unfold State.packIssue
  extract_lets c1 s1 p s2
  have h1 : Same State.removingOf s s1 := (State.keeps_put _ F.PKP_CSEQ.NEXT n _).removing
  have h2 : Same State.removingOf s1 s2 := by
    refine .trans (State.removing_setPk s1 n _ ?_) (State.keeps_outstUpdate _ _).removing
    rfl
  have h3 : Same State.removingOf s2 ((s2.pmc 0x08 0x10).pmc 0x08 0x33 (p.outst.length + 1)) :=
    (State.keeps_pmc _ _ _ _).removing.trans (State.keeps_pmc _ _ _ _).removing
  exact (h1.trans h2).trans (h3.trans (State.removing_emit _ _))

theorem State.removing_wakePack (s : State) (k : Nat) : Same State.removingOf s (s.wakePack k) := by
  unfold State.wakePack
  exact .ite (fun _ => State.removing_packIssue _ _ _ _) fun _ => .ite (fun _ => .after ((State.keeps_train _ _).removing)
    ((State.keeps_put _ _ _ _).removing)) fun _ => .refl _

theorem State.removing_wakeGroup (s : State) (g : Nat) : Same State.removingOf s (s.wakeGroup g) := by
  unfold State.wakeGroup
  exact .after (.ite (fun _ => .refl _) fun _ => .after ((State.keeps_raise _ _).removing) (.update (.refl _) rfl))
    (.foldl (fun _ _ => State.removing_wakePack _ _) _ _)

theorem State.removing_packSend (s : State) (n : Nat) (use : PkUse) (c : PackCmd) : Same State.removingOf s (s.packSend n use c) := by
  unfold State.packSend
  split
  · exact .refl _
  extract_lets sleeps s2
  have h2 : Same State.removingOf s s2 := .ite (fun _ => State.removing_wakeGroup _ _) fun _ => .refl _
  split
  · refine h2.trans (State.removing_setPk s2 n _ ?_)
    rfl
  · exact h2.trans (State.removing_packIssue _ _ _ _)

theorem State.removing_logPage (s : State) (use : PkUse) (n : Nat) (l : List SysRec) : Same State.removingOf s (s.logPage use n l) := by
  unfold State.logPage
  split
  · exact .after (State.removing_packSend _ _ _ _) (.update (.refl _) rfl)
  · exact .refl _

theorem State.removing_logCopy (s : State) (lseq : Nat) (n : Nat) : Same State.removingOf s (s.logCopy lseq n) := by
  unfold State.logCopy
  exact State.removing_logPage _ _ _ _

theorem State.removing_logGo (s : State) : Same State.removingOf s s.logGo := by
  unfold State.logGo
  exact .ite (fun _ => .refl _) fun _ => .after (.foldl (fun _ _ => .foldl (fun _ _ => State.removing_logCopy _ _ _) _ _) _ _)
    (.update (.refl _) rfl)

theorem State.removing_logSys (s : State) (r : SysRec) : Same State.removingOf s (s.logSys r) := by
  unfold State.logSys
  exact .after (State.removing_logGo _) ((State.keeps_logAdd _ _).removing)

theorem State.removing_eraseGo (s : State) : Same State.removingOf s s.eraseGo := by
  unfold State.eraseGo
  exact .ite (fun _ => .refl _) fun _ => .after (.foldl (fun _ _ => State.removing_packSend _ _ _ _) _ _) (.update (.refl _) rfl)

theorem State.removing_sendRead (s : State) (use : PkUse) (c : Cb) (m : Nat) (page : Nat) (mask : Nat) : Same State.removingOf s
    (s.sendRead use c m page mask) := by
  unfold State.sendRead
  split
  · exact State.removing_packSend _ _ _ _
  · exact .refl _

theorem State.removing_readPage (s : State) (use : PkUse) (cbid : Nat) (page : Nat) (m : Nat) (mask : Nat) : Same State.removingOf s
    (s.readPage use cbid page m mask) := by
  unfold State.readPage
  extract_lets +onlyGivenNames c1
  split
  · exact .refl _
  · exact .ite (fun _ => State.removing_sendRead _ _ _ _ _ _) fun _ => .ite (fun _ => .refl _) fun _ => .foldl
      (fun _ _ => State.removing_sendRead _ _ _ _ _ _) _ _

theorem State.removing_eraseOne (s : State) (use : PkUse) (n : Nat) (d : Nat) (b : Nat) : Same State.removingOf s
    (s.eraseOne use n d b) := by
  unfold State.eraseOne
  exact .after (.after (.after (State.removing_eraseGo _) (.update (.refl _) rfl)) (State.removing_logSys _ _)) (.update (.refl _) rfl)

theorem State.removing_freeIfErased (s : State) (cbid : Nat) : Same State.removingOf s (s.freeIfErased cbid) := by
  unfold State.freeIfErased
  exact .ite (fun _ => .after (.after (State.removing_logSys _ _) (.after ((State.keeps_forget _ _).removing)
    ((State.keeps_setCb _ _ _).removing))) (.update (.refl _) rfl)) fun _ => .refl _

theorem State.removing_endRebuild (s : State) (cbid : Nat) : Same State.removingOf s (s.endRebuild cbid) := by
  unfold State.endRebuild
  split
  · exact .refl _
  · exact .ite (fun _ => .refl _) fun _ => .after (.ite (fun _ => State.removing_eraseOne _ _ _ _ _) fun _ => .refl _)
      (.update (.refl _) rfl)

theorem State.removing_eraseMembers (s : State) (cbid : Nat) (st : Nat) : Same State.removingOf s (s.eraseMembers cbid st) := by
  unfold State.eraseMembers
  exact .after
    (.after (.after (State.removing_freeIfErased _ _) (.foldl (fun _ _ => .ite (fun _ => State.removing_eraseOne _ _ _ _ _) fun _ =>
    .refl _) _ _)) (State.removing_logSys _ _)) (.after ((State.keeps_setCb _ _ _).removing) (State.removing_endRebuild _ _))

theorem State.removing_releaseOne (s : State) (cbid : Nat) : Same State.removingOf s (s.releaseOne cbid) := by
  unfold State.releaseOne
  exact .ite (fun _ => .after (State.removing_eraseMembers _ _ _) (.update (.refl _) rfl)) fun _ => .refl _

theorem State.removing_emptyBlock (s : State) (cbid : Nat) (why : Nat) : Same State.removingOf s (s.emptyBlock cbid why) := by
  unfold State.emptyBlock
  exact .after (State.removing_logSys _ _) ((State.keeps_setCb _ _ _).removing)

theorem State.removing_copyPages (s : State) (cbid : Nat) (n : Nat) : Same State.removingOf s (s.copyPages cbid n) := by
  unfold State.copyPages
  exact .foldl (fun _ _ => .after (.update (.refl _) rfl) (State.removing_readPage _ _ _ _ _ _)) _ _

theorem State.removing_copyAll (s : State) (cbid : Nat) : Same State.removingOf s (s.copyAll cbid) := by
  unfold State.copyAll
  exact .ite (fun _ => State.removing_copyPages _ _ _) fun _ => .refl _

theorem State.removing_relocateRemoved (s : State) : Same State.removingOf s s.relocateRemoved := by
  unfold State.relocateRemoved
  exact .foldl (fun _ _ => .after (.after (State.removing_releaseOne _ _) (.after (State.removing_copyAll _ _) (.update (.refl _) rfl)))
    (.after ((State.keeps_queueRepacks _ _).removing) (State.removing_emptyBlock _ _ _))) _ _

theorem State.removing_answer (s : State) (op : Nat) (m : Msg) (here : Bool) (code : Nat) (detail : Nat) (body : Bytes)
    (more : Bool) : Same State.removingOf s (s.answer op m here code detail body more) := by
  unfold State.answer
  exact .after (.after (.ite (fun _ => .ite (fun _ => (State.keeps_send _ _).removing) fun _ => .refl _) fun _ => .ite
    (fun _ => State.removing_emit _ _) fun _ => (State.keeps_digest _ _ _).removing)
    (.ite (fun _ => (State.keeps_setReply _ _ _ _).removing) fun _ => .refl _)) (.update (.refl _) rfl)

theorem State.removing_done (s : State) (op : Nat) (m : Msg) (a : Arrival) (body : Bytes) (more : Bool) : Same State.removingOf s
    (s.done op m a body more) := by
  unfold State.done
  exact State.removing_answer _ _ _ _ _ _ _ _

/-! Packs and answers -/

section
variable {s t : State} {m : Msg} {a : Arrival} {op len : Nat}

/-- An output that is no pack command leaves the packs alone. -/
theorem State.packs_emit_mbx (s : State) (chan : Nat) (tag : BitVec 16) (x : Nat) (b : Bytes) :
    (s.emit (.mbx chan tag x b)).packs = s.packs := by
  have hd : (s.digest 0 (.mbx chan tag x b)).packs = s.packs := (State.keeps_digest _ _ _).packs_eq
  unfold State.emit State.emitQuiet
  split
  · exact hd
  · split
    · exact hd
    · exact (State.keeps_send (s.digest 0 (.mbx chan tag x b)) (.mbx chan tag x b)).packs_eq.trans hd

theorem State.packs_answer (s : State) (op : Nat) (m : Msg) (here : Bool) (code detail : Nat) (body : Bytes) (more : Bool) :
    (s.answer op m here code detail body more).packs = s.packs := by
  unfold State.answer
  extract_lets r o x s1 s2
  have h2 : s2.packs = s.packs := by
    unfold s2
    split <;> rfl
  clear_value s2
  split
  · split
    · exact (State.keeps_send _ _).packs_eq.trans h2
    · exact h2
  · split
    · exact (State.packs_emit_mbx _ _ _ _ _).trans h2
    · exact (State.keeps_digest _ _ _).packs_eq.trans h2

/-- A request that is refused changes no pack, and is answered with its status. -/
theorem State.refuse_packs (s : State) (op : Nat) (m : Msg) (a : Arrival) (code detail : Nat) :
    (s.refuse op m a code detail).packs = s.packs ∧ (s.refuse op m a code detail).Answered m op code [] :=
  ⟨State.packs_answer .., State.answered_refuse ..⟩

/-- A request that names a port passes the checks. -/
theorem gives_of_port {i : Instr} {p : Nat} {f : State → State} {P : State → Prop} (hs : s.Runs) (h : s.Admits op len m) (hp : p < 32)
    (e : exec i s = s.awake (.next (portMsg op len m a p f s))) (hP : P (f (s.useToken m))) : Gives i s P :=
  gives_of_admitted hs h e (by rwa [if_neg (by omega)])

/-- A port beyond 31 is an invalid field. -/
theorem gives_of_noPort {i : Instr} {p : Nat} {f : State → State} (hs : s.Runs) (h : s.Admits op len m) (hp : 32 ≤ p)
    (e : exec i s = s.awake (.next (portMsg op len m a p f s))) : Gives i s fun u => u.packs = s.packs ∧ u.Answered m op 2 [] := by
  refine gives_of_admitted hs h e ?_
  rw [if_pos hp]
  exact (s.useToken m).refuse_packs op m a 2 16

/-! Settings (R476 to R478) -/

theorem settingInfo_id {id : Nat} {x : SetInfo} (h : settingInfo id = some x) : x.id = id := by
  simpa using List.find?_some h

theorem settingInfo_mem {id : Nat} {x : SetInfo} (h : settingInfo id = some x) : x ∈ settingTable := List.mem_of_find?_eq_some h

theorem State.setting_storeSetting (s : State) (id i v : Nat) : (s.storeSetting id i v).setting id i = v := tgetD_tset_self _ _ _ _

theorem State.setting_of_setv (h : t.setv = s.setv) (id i : Nat) : t.setting id i = s.setting id i :=
  congrArg (fun x : Settings => tgetD (settingKey id i) (settingDefault id i) x.val) h

theorem State.setv_settingActs (s : State) (id i : Nat) : (s.settingActs id i).setv = s.setv := (s.keeps_settingActs id i).setv_eq

/-- A setting that acts at once has its value in force. -/
theorem State.setting_putSetting_now (s : State) (x : SetInfo) (i v : Nat) (a : Arrival) (hr : x.atReset = false)
    (hl : x.local_ = false ∨ a = .here) : (s.putSetting x i v a).setting x.id i = v := by
  unfold State.putSetting
  extract_lets k
  rw [hr, if_neg Bool.false_ne_true]
  split
  · assumption
  split
  next hloc =>
    have ha : isHere a = true := by
      rcases hl with hl | rfl
      · simp [hl] at hloc
      · rfl
    rw [if_pos ha, State.setting_of_setv (State.setv_settingActs _ _ _), State.setting_storeSetting]
  next =>
    rw [State.setting_of_setv (State.setv_settingActs _ _ _)]
    exact State.setting_storeSetting _ _ _ _

/-- A setting that acts at the next reset is kept for it. -/
theorem State.setting_putSetting_later (s : State) (x : SetInfo) (i v : Nat) (a : Arrival) (hr : x.atReset = true) :
    (s.putSetting x i v a).setting x.id i = s.setting x.id i ∧
      tgetD (settingKey x.id i) (s.setting x.id i) (s.putSetting x i v a).setv.pend = v := by
  unfold State.putSetting
  rw [hr, if_pos rfl]
  extract_lets k old s1
  have h1 : s1.setting x.id i = s.setting x.id i ∧ tgetD (settingKey x.id i) (s.setting x.id i) s1.setv.pend = v :=
    ⟨rfl, tgetD_tset_self _ _ _ _⟩
  split
  · exact h1
  · exact h1

theorem State.nqn_putNqn (s : State) (i : Nat) (v : Bytes) : tgetD i [] (s.putNqn i v).setv.nqn = v := by
  unfold State.putNqn
  split
  · assumption
  · exact tgetD_tset_self _ _ _ _

theorem State.setv_done (s : State) (op : Nat) (m : Msg) (a : Arrival) (b : Bytes) (more : Bool) :
    (s.done op m a b more).setv = s.setv := (State.keeps_answer s op m (isHere a) 0 0 b more).setv_eq

theorem State.setv_refuse (s : State) (op : Nat) (m : Msg) (a : Arrival) (code detail : Nat) :
    (s.refuse op m a code detail).setv = s.setv := (State.keeps_answer s op m (isHere a) code detail [] false).setv_eq

theorem State.sgen_done (s : State) (op : Nat) (m : Msg) (a : Arrival) (b : Bytes) (more : Bool) :
    (s.done op m a b more).sgen = s.sgen := (State.keeps_answer s op m (isHere a) 0 0 b more).sgen_eq

/-- SET's and DEFAULT's answer gives the generation that it leaves. -/
theorem State.answered_sgen (s : State) (op : Nat) (m : Msg) (a : Arrival) (f : BitVec 64 → Bytes) :
    (s.done op m a (f s.sgen)).Answered m op 0 (f (s.done op m a (f s.sgen)).sgen) := by
  rw [State.sgen_done]
  exact s.answered_done ..

/-- No identifier and no index of the table is 0xFFFF. -/
theorem settingTable_bounded : (settingTable.all fun x => x.id != 0xFFFF && !x.indices.contains 0xFFFF) = true := by decide +kernel

theorem settingInfo_bounded {id i : Nat} {x : SetInfo} (h : settingInfo id = some x) (hi : i ∈ x.indices) : id ≠ 0xFFFF ∧ i ≠ 0xFFFF := by
  have hx := List.all_eq_true.mp settingTable_bounded x (settingInfo_mem h)
  simp only [Bool.and_eq_true, bne_iff_ne, Bool.not_eq_true', List.contains_eq_mem, decide_eq_false_iff_not] at hx
  exact ⟨settingInfo_id h ▸ hx.1, fun he => hx.2 (he ▸ hi)⟩

/-- After settings that are all one have returned to their default, it has it. -/
theorem State.setting_foldl_default (x : SetInfo) (i : Nat) (a : Arrival) (hx : x.id ≠ 0x11) (hr : x.atReset = false) (hl : x.local_ = false)
    {l : List (SetInfo × Nat)} (hall : ∀ e ∈ l, e = (x, i)) (hne : l ≠ []) (s : State) :
    (l.foldl (State.defaultOne a) s).setting x.id i = settingDefault x.id i := by
  obtain ⟨r, e, rfl⟩ := List.eq_nil_or_concat' l |>.resolve_left hne
  rw [List.foldl_append, hall e (by simp)]
  show (State.defaultOne a _ (x, i)).setting x.id i = _
  unfold State.defaultOne
  rw [if_neg hx]
  exact State.setting_putSetting_now _ x i _ a hr (.inl hl)

/-- A setting that takes part in no relation accepts its default. -/
theorem State.settingRelations_of_apart (s : State) {id : Nat} (i : Nat) (h : id ∉ [0x01, 0x02, 0x09, 0x0A, 0x11, 0x44, 0x45]) (h3 : id ≠ 3) :
    s.settingRelations id i = true := by
  simp only [List.mem_cons, List.not_mem_nil, or_false, not_or] at h
  unfold State.settingRelations
  split <;> first | rfl | omega

theorem atReset_three {x : SetInfo} (h : settingInfo 3 = some x) : x.atReset = true := by
  cases h
  rfl

theorem length_leBytes (n v : Nat) : (leBytes n v).length = n := by
  induction n generalizing v with
  | zero => rfl
  | succ n ih => rw [leBytes, List.length_cons, ih]

/-- The first bytes of a body are those of its first field. -/
theorem take_leBytes (n v : Nat) (b : Bytes) : (leBytes n v ++ b).take n = leBytes n v := by
  rw [List.take_append_of_le_length (by rw [length_leBytes]), List.take_of_length_le (by rw [length_leBytes])]

theorem drop_leBytes (n v : Nat) (b : Bytes) : (leBytes n v ++ b).drop n = b := List.drop_left' (length_leBytes n v)

/-- The stamp fills 32 bytes (R479). -/
theorem State.length_stamp (s : State) (cls : Nat) : (s.stamp cls).length = 32 := by
  simp [State.stamp, length_leBytes]

theorem State.catalogue_useToken (s : State) (m : Msg) : (s.useToken m).catalogue = s.catalogue := rfl

theorem State.regNow_useToken (s : State) (m : Msg) (r : RegName) (i : Nat) : (s.useToken m).regNow r i = s.regNow r i := by
  unfold State.regNow
  split
  · rfl
  · rfl
  · rfl
  · rfl
  · rfl
  · rfl

theorem State.regShow_useToken (s : State) (m : Msg) (r : RegName) (i : Nat) : (s.useToken m).regShow r i = s.regShow r i := by
  rw [State.regShow, State.regShow, State.regNow_useToken]

theorem State.instBytes_useToken (s : State) (m : Msg) (id i : Nat) : (s.useToken m).instBytes id i = s.instBytes id i := by
  unfold State.instBytes
  extract_lets one
  split
  · rfl
  · rfl
  · rfl
  · rfl
  · rfl
  · rfl
  · rfl
  · rfl
  · rfl
  · rfl
  · rfl
  · rfl
  · rfl
  · rfl
  · simp only [State.regShow_useToken]

theorem not_unknown {b : Bool} (h : b = true) : ¬ (!b) = true := by
  rw [h]
  decide

/-- The answer of a message that waits for a pack keeps its place among those that wait. -/
theorem Keeps.waits_of_await {P : Foot} {what arg : Nat} (h : Keeps P ((s.useToken m).await m a what arg) t)
    (hp : P.parts.contains .mbx = false := by decide +kernel) :
    t.mbx.waits = s.mbx.waits ++ [{ m := m, here := isHere a, what := what, arg := arg }] := by
  rw [h.mbx_eq hp]
  rfl

/-- A pack that is being removed is still being removed when its blocks have begun to move and the request is answered. -/
theorem State.removing_removed (s : State) (p : Nat) (x : Pack) (hx : x.removing = true) (op : Nat) (m : Msg) (a : Arrival) (b : Bytes) :
    (((s.setPk p x).relocateRemoved.done op m a b).pk p).removing = true := by
  have h1 := congrFun ((s.setPk p x).relocateRemoved.removing_done op m a b false) p
  have h2 := congrFun (s.setPk p x).removing_relocateRemoved p
  have h3 : (s.setPk p x).removingOf p = true := by
    rw [State.removingOf, State.pk_setPk, hx]
  exact h1.trans (h2.trans h3)

/-- Showing what a pack is in leaves its other bits alone. -/
theorem State.linkUp_setSide (s : State) (n x p : Nat) : (s.setSide n x).get F.PKP_STAT.LINK_UP p = s.get F.PKP_STAT.LINK_UP p :=
  State.get_put_apart _ _ _ _ (f := F.PKP_STAT.STATE) (g := F.PKP_STAT.LINK_UP)

theorem State.linkUp_setPkState (s : State) (n st p : Nat) : (s.setPkState n st).get F.PKP_STAT.LINK_UP p = s.get F.PKP_STAT.LINK_UP p :=
  State.get_put_apart _ _ _ _ (f := F.PKP_STAT.STATE) (g := F.PKP_STAT.LINK_UP)

theorem State.linkUp_linkChg (s : State) (n p : Nat) : (s.linkChg n).get F.PKP_STAT.LINK_UP p = s.get F.PKP_STAT.LINK_UP p := by
  unfold State.linkChg State.pkBit
  split
  · rfl
  · exact ((State.keeps_pkRaise _ n).get F.PKP_STAT.LINK_UP p).trans (State.get_put_apart _ _ _ _ (f := F.PKP_STAT.LINK_CHG))

/-- A link that starts to train is down. -/
theorem State.linkUp_retrainStart (s : State) (n : Fin 32) : (s.retrainStart (.pack n)).get F.PKP_STAT.LINK_UP n = 0 := by
  unfold State.retrainStart
  dsimp -zeta only
  extract_lets s1 s2
  have h2 : s2.get F.PKP_STAT.LINK_UP n = 0 := by
    unfold s2
    rw [(State.keeps_train _ _).get F.PKP_STAT.LINK_UP n]
    split
    · rw [State.linkUp_linkChg, State.get_put_same _ F.PKP_STAT.LINK_UP]
      rfl
    next h => exact (State.bit_cases s1 F.PKP_STAT.LINK_UP n).resolve_right fun h1 => h (State.on_of_get_one h1)
  split
  · exact h2
  · rw [State.linkUp_setSide, h2]

end

end Sys2Proof.Machine
end

section
-- One proof at a time: as many threads as there are lemmas here do not fit beside the model.
set_option Elab.async false
open Sys2Proof Sys2Proof.Machine

/-- Settles O57. -/
theorem mailboxServices : Obligations.MailboxServices := by
  unfold Obligations.MailboxServices
  intro s m a hs
  refine ⟨fun id i x h hx hi => ?_, fun id i h hx => ?_, fun id i value x h hx hi => ⟨fun h11 hv => ?_, fun h11 hlen hv => ?_, fun h11 hv => ?_⟩,
    fun id i x h hx hi hl hr hid => ?_, fun id i h hid hx => ?_, fun off h => ?_, fun off h => ?_,
    fun id i off len h hk hi => ?_, fun h => ?_, fun h => ?_, fun nonce h => ?_, fun off h => ?_, fun p hp h => ?_, fun p hp h hv hr => ?_,
    fun p off len hp h h1 h2 h3 hr => ?_, fun p id hp h hv hr ho => ?_, fun h => ?_, fun p hp h => ?_, fun p hp h => ?_,
    fun p off len id op c n hp h hc => ?_⟩
  · refine gives_of_admitted hs h rfl ?_
    rw [hx]
    dsimp only
    rw [if_pos (by simpa using hi)]
    exact ⟨State.answered_done .., State.setv_done ..⟩
  · refine gives_of_admitted hs h rfl ?_
    rw [hx]
    dsimp only
    exact State.answered_refuse ..
  · refine gives_of_admitted hs h rfl ?_
    rw [hx]
    dsimp only
    rw [if_neg (by simpa using hi), if_pos h11, if_pos hv]
    refine ⟨?_, State.answered_sgen _ _ _ _ fun g => leBytes 1 x.atReset.toNat ++ [0, 0, 0] ++ leBytes 8 g.toNat⟩
    rw [State.setv_done]
    exact State.nqn_putNqn ..
  · refine gives_of_admitted hs h rfl ?_
    have hv' : (s.useToken m).settingOk x i (leVal value) = true := hv
    rw [hx]
    dsimp only
    rw [if_neg (by simpa using hi), if_neg h11, if_neg (fun hn => hn hlen), if_pos hv']
    refine ⟨State.answered_sgen _ _ _ _ fun g => leBytes 1 x.atReset.toNat ++ [0, 0, 0] ++ leBytes 8 g.toNat, fun hr hl => ?_, fun hr => ?_⟩
    · rw [State.setting_of_setv (State.setv_done ..), ← settingInfo_id hx]
      exact State.setting_putSetting_now _ x i _ a hr hl
    · obtain ⟨h1, h2⟩ := State.setting_putSetting_later (s.useToken m) x i (leVal value) a hr
      rw [State.setting_of_setv (State.setv_done ..), State.setv_done, ← settingInfo_id hx]
      exact ⟨h1, h2⟩
  · refine gives_of_admitted hs h rfl ?_
    rw [hx]
    dsimp only
    rw [if_neg (by simpa using hi), if_neg h11]
    split
    · exact ⟨State.setv_refuse .., State.answered_refuse ..⟩
    next hlen =>
      have hv' : ¬ (s.useToken m).settingOk x i (leVal value) = true := fun hn =>
        Bool.false_ne_true ((hv.resolve_left hlen).symm.trans hn)
      rw [if_neg hv']
      exact ⟨State.setv_refuse .., State.answered_refuse ..⟩
  · obtain ⟨hid', hi'⟩ := settingInfo_bounded hx hi
    have h3 : id ≠ 3 := by
      rintro rfl
      rw [atReset_three hx] at hr
      exact absurd hr (by decide)
    have h11 : x.id ≠ 0x11 := by
      rw [settingInfo_id hx]
      rintro rfl
      exact hid (by decide)
    refine gives_of_admitted hs h rfl ?_
    dsimp only
    rw [if_neg hid', hx]
    simp only [if_neg hi']
    generalize hL : ((some x).toList.flatMap fun x : SetInfo => (x.indices.filter fun j => j == i).map fun j => (x, j)) = l
    have hall : ∀ e ∈ l, e = (x, i) := by
      subst hL
      simp only [Option.toList_some, List.flatMap_cons, List.flatMap_nil, List.append_nil, List.mem_map, List.mem_filter, beq_iff_eq]
      rintro e ⟨j, ⟨-, rfl⟩, rfl⟩
      rfl
    have hne : l ≠ [] := by
      subst hL
      simpa using hi
    rw [if_neg (by simp), if_neg (by simpa using hne), if_pos]
    · refine ⟨?_, State.answered_sgen _ _ _ _ fun g => leBytes 8 g.toNat⟩
      rw [State.setting_of_setv (State.setv_done ..), ← settingInfo_id hx]
      exact State.setting_foldl_default x i a h11 hr hl hall hne _
    · refine List.all_eq_true.mpr fun e he => ?_
      rw [hall e he]
      refine State.settingRelations_of_apart _ _ ?_ ?_
      · rwa [settingInfo_id hx]
      · rwa [settingInfo_id hx]
  · refine gives_of_admitted hs h rfl ?_
    dsimp only
    rw [if_neg hid, hx]
    exact ⟨State.setv_refuse .., State.answered_refuse ..⟩
  · refine gives_of_admitted hs h rfl ⟨_, State.answered_done .., take_leBytes .., ?_⟩
    simp only [List.length_append, length_leBytes, List.length_flatMap, List.map_const', List.sum_replicate, List.length_drop, smul_eq_mul]
    rw [Nat.mul_comm (settingTable.length - off)]
  · refine gives_of_admitted hs h rfl ⟨_, State.answered_done .., ?_, ?_⟩
    · rw [List.append_assoc, List.append_assoc, show (8 : Nat) = 4 + 4 from rfl, ← List.drop_drop, drop_leBytes, drop_leBytes]
      exact take_leBytes ..
    · rw [List.append_assoc, List.append_assoc, show (16 : Nat) = 4 + (4 + 8) from rfl, ← List.drop_drop, drop_leBytes, ← List.drop_drop,
        drop_leBytes, drop_leBytes, State.catalogue_useToken]
  · have hk' : (((s.useToken m).items.any fun x => x.id == id.toNat) || (regOfId id.toNat).isSome) = true := by
      rw [Bool.or_eq_true]
      exact hk
    have hi' : ¬ (id.toNat ≠ 0x20000010 ∧ (s.useToken m).instBytes id.toNat i = none) := by
      rintro ⟨h1, h2⟩
      have h3 := hi.resolve_left h1
      rw [← State.instBytes_useToken s m, h2] at h3
      exact Bool.false_ne_true h3
    split
    next hl =>
      refine gives_of_admitted hs h rfl ?_
      dsimp only
      rw [if_neg (not_unknown hk'), if_neg hi', if_neg (by omega)]
      exact ⟨_, State.answered_done .., List.take_left' (State.length_stamp ..)⟩
    next hl =>
      refine gives_of_admitted hs h rfl ?_
      dsimp only
      rw [if_neg (not_unknown hk'), if_neg hi', if_pos (by omega)]
      exact State.answered_refuse ..
  · exact gives_of_admitted hs h rfl (State.answered_done ..)
  · refine gives_of_admitted hs h rfl ⟨_, State.answered_done .., ?_⟩
    simp only [List.append_assoc]
    exact take_leBytes ..
  · exact gives_of_admitted hs h rfl ⟨_, State.answered_done ..⟩
  · exact gives_of_admitted hs h rfl (State.answered_done ..)
  · split
    next hc =>
      refine gives_of_port hs h hp rfl ?_
      have hc' : ¬ (((s.useToken m).pkState p ≠ 5 ∧ (s.useToken m).pkState p ≠ 6) ∨ (s.useToken m).isReserve p) := by
        show ¬ ((s.pkState p ≠ 5 ∧ s.pkState p ≠ 6) ∨ s.isReserve p)
        rw [hc.2]
        rintro (hn | hn)
        · omega
        · exact Bool.false_ne_true hn
      dsimp only
      rw [if_neg hc']
      exact ⟨_, State.answered_done ..⟩
    next hc =>
      refine gives_of_port hs h hp rfl ?_
      have hc' : ((s.useToken m).pkState p ≠ 5 ∧ (s.useToken m).pkState p ≠ 6) ∨ (s.useToken m).isReserve p := by
        show (s.pkState p ≠ 5 ∧ s.pkState p ≠ 6) ∨ s.isReserve p
        by_contra hn
        rw [not_or, Bool.not_eq_true] at hn
        exact hc ⟨by omega, hn.2⟩
      dsimp only
      rw [if_pos hc']
      exact State.refuse_packs ..
  · refine gives_of_port hs h hp rfl ?_
    have hv' : ((s.useToken m).pk p).svc = true := hv
    have hr' : ((s.useToken m).pk p).removing = false := hr
    dsimp only
    rw [hr', if_neg Bool.false_ne_true, hv', if_neg (by decide)]
    exact ⟨State.removing_removed (s.useToken m) p _ rfl _ _ _ _, State.answered_done ..⟩
  · refine gives_of_port hs h hp rfl ?_
    have hr' : (s.useToken m).reachable p = true := hr
    dsimp only
    rw [if_neg (by omega), if_neg (by omega), hr', if_neg (by decide)]
    exact (State.keeps_packSend _ _ _ _).waits_of_await
  · refine gives_of_port hs h hp rfl ?_
    have hr' : (s.useToken m).reachable p = true := hr
    have ho' : ((s.useToken m).pk p).outst = [] := ho
    dsimp only
    rw [hv, if_neg (by decide), hr', if_neg (by decide), ho', if_neg (by simp)]
    exact (State.keeps_replaceId _ _ _).waits_of_await
  · split
    next hc =>
      refine gives_of_admitted hs h rfl ?_
      have hc' : 10 < (s.useToken m).resLevel 0 ∧ (s.useToken m).capL * 17 ≤ (s.useToken m).capU * 16 := hc
      rw [if_pos hc']
      exact State.answered_done ..
    next hc =>
      refine gives_of_admitted hs h rfl ?_
      have hc' : ¬ (10 < (s.useToken m).resLevel 0 ∧ (s.useToken m).capL * 17 ≤ (s.useToken m).capU * 16) := hc
      rw [if_neg hc']
      exact ⟨(State.keeps_answer _ _ _ _ _ _ _ _).health_eq, State.answered_refuse ..⟩
  · split
    next hc =>
      refine gives_of_port hs h hp rfl ?_
      rw [dif_pos hp, if_pos (State.on_of_get_one (s := s.useToken m) hc)]
      exact ⟨(State.get_done ..).trans (State.linkUp_retrainStart _ ⟨p, hp⟩), State.answered_done ..⟩
    next hc =>
      refine gives_of_port hs h hp rfl ?_
      have hc' : (s.useToken m).on F.PKP_CTL.EN p = false :=
        State.on_of_get_zero ((State.bit_cases (s.useToken m) F.PKP_CTL.EN p).resolve_right hc)
      rw [dif_pos hp, hc', if_neg Bool.false_ne_true]
      exact State.refuse_packs ..
  · split
    next hc =>
      refine gives_of_port hs h hp rfl ?_
      have hc' : ((s.useToken m).pk p).removing = true := hc
      dsimp only
      rw [hc', if_neg (by decide)]
      exact State.answered_done ..
    next hc =>
      refine gives_of_port hs h hp rfl ?_
      have hc' : ((s.useToken m).pk p).removing = false := Bool.eq_false_iff.mpr hc
      dsimp only
      rw [hc', if_pos (by decide)]
      exact State.refuse_packs ..
  · simp only [List.mem_cons, List.not_mem_nil, or_false, Prod.mk.injEq] at hc
    rcases hc with ⟨rfl, rfl, rfl⟩ | ⟨rfl, rfl, rfl⟩ | ⟨rfl, rfl, rfl⟩ | ⟨rfl, rfl, rfl⟩ | ⟨rfl, rfl, rfl⟩ | ⟨rfl, rfl, rfl⟩
    · exact gives_of_noPort hs h hp rfl
    · exact gives_of_noPort hs h hp rfl
    · exact gives_of_noPort hs h hp rfl
    · exact gives_of_noPort hs h hp rfl
    · exact gives_of_noPort hs h hp rfl
    · exact gives_of_noPort hs h hp rfl
end

section
-- One proof at a time: as many threads as there are lemmas here do not fit beside the model.
set_option Elab.async false
namespace Sys2Proof.Machine

/-! Bytes written and read again; completions that write nothing -/

/-- The bytes written are read again, where there is memory. -/
theorem State.rdByte_wrBytes (s : State) (a : Nat) (l : Bytes) {j : Nat} (hj : j < l.length) (hr : isRam (a + j) = true) :
    (s.wrBytes a l).rdByte (a + j) = l[j] := by
  induction l generalizing s a j with
  | nil => exact absurd hj (Nat.not_lt_zero j)
  | cons b t ih =>
    rw [State.wrBytes]
    cases j with
    | zero =>
      rw [State.rdByte_wrBytes_ne _ t (.inl (by omega))]
      exact State.rdByte_wrByte_self _ _ _ hr
    | succ j =>
      rw [show a + (j + 1) = a + 1 + j by omega] at hr ⊢
      rw [ih (s.wrByte a b) (a + 1) (by simpa using hj) hr, List.getElem_cons_succ]

/-- A completion that writes nothing changes no byte. -/
theorem State.mem_complete (s : State) (h : HeldPulse) (hw : h.wr = []) : (s.complete h).mem = s.mem := by
  unfold State.complete
  split
  · rfl
  unfold State.accept
  extract_lets srcs s1 s2 s3 s4 s5
  have h1 : s1.mem = s.mem := by
    unfold s1
    rw [hw]
    rfl
  clear_value s1
  have h2 : s2.mem = s1.mem := by
    unfold s2
    split <;> rfl
  clear_value s2
  have h3 : s3.mem = s2.mem := by
    unfold s3
    split
    · exact (State.keeps_enqPulse _ _).mem_eq
    · rfl
  clear_value s3
  have h4 : s4.mem = s3.mem := by
    unfold s4
    split
    · exact (State.keeps_advanceBy _ _ _).mem_eq
    · rfl
  clear_value s4
  have h5 : s5.mem = s4.mem := by
    unfold s5
    split <;> rfl
  clear_value s5
  exact (Keeps.foldl (F := ⟨[.CIC_SRC_STAT], [.cic, .evt]⟩) (fun t x => State.keeps_raise t x) srcs s5).mem_eq.trans
    (h5.trans (h4.trans (h3.trans (h2.trans h1))))

/-! Secure NOR's queue -/

section
variable {s t : State}

/-- A descriptor's end writes no byte of memory. -/
theorem State.mem_norEnd (s : State) (x : NorDesc) (status wdone : Nat) : (s.norEnd x status wdone).mem = s.mem := by
  unfold State.norEnd
  exact (State.mem_complete _ _ rfl).trans ((State.keeps_pmc _ 0x0F 0x12 _).mem_eq.trans (State.keeps_pmc _ 0x0F 0x11 _).mem_eq)

theorem State.mem_norKickN (s : State) (n : Nat) : (s.norKickN n).mem = s.mem := by
  induction n generalizing s with
  | zero => rfl
  | succ n ih =>
    unfold State.norKickN
    split
    · rfl
    next x _ =>
      split
      · exact (State.keeps_norStart s x).mem_eq
      · split
        next st _ => exact (ih _).trans (s.mem_norEnd x st 0)
        · split
          · rfl
          · exact (State.keeps_norStart s x).mem_eq

theorem State.mem_norKick (s : State) : s.norKick.mem = s.mem := by
  have h1 : (s.norKickN (s.nor.descs.length + 1)).norHead.mem = s.mem := (State.keeps_norHead _).mem_eq.trans (State.mem_norKickN _ _)
  unfold State.norKick
  extract_lets +onlyGivenNames s1
  split
  · exact h1
  · exact h1

/-- TAIL is firmware's. -/
theorem State.tail_norKick (s : State) : s.norKick.get F.SNF_QPTR.TAIL = s.get F.SNF_QPTR.TAIL := by
  have h1 : (s.norKickN (s.nor.descs.length + 1)).norHead.get F.SNF_QPTR.TAIL = s.get F.SNF_QPTR.TAIL := by
    rw [← (State.keeps_norKickN s (s.nor.descs.length + 1)).get F.SNF_QPTR.TAIL 0]
    unfold State.norHead
    split
    · exact State.get_put_apart _ 0 0 _ (f := F.SNF_QPTR.HEAD)
    · exact State.get_put_apart _ 0 0 _ (f := F.SNF_QPTR.HEAD)
  unfold State.norKick
  extract_lets +onlyGivenNames s1
  split
  · exact (State.get_put_apart _ 0 0 _ (f := F.SNF_STAT.IDLE)).trans h1
  · exact h1

/-- A descriptor written to a queue with room advances TAIL. -/
theorem norQueue_room (op : Nat) (d : SnfDesc) (h : ¬ 64 ≤ (s.get F.SNF_QPTR.TAIL + 65536 - s.get F.SNF_QPTR.HEAD) % 65536) :
    (norQueue op d s).get F.SNF_QPTR.TAIL = (s.get F.SNF_QPTR.TAIL + 1) % 65536 ∧ (norQueue op d s).snor = s.snor := by
  unfold norQueue
  extract_lets +onlyGivenNames tail
  rw [if_neg h]
  extract_lets +onlyGivenNames x s1
  refine ⟨?_, (State.keeps_norKick _).snor_eq⟩
  exact (State.tail_norKick _).trans (State.get_put_same _ F.SNF_QPTR.TAIL 0 _)

/-- A full queue ignores and counts the write. -/
theorem norQueue_full (op : Nat) (d : SnfDesc) (h : 64 ≤ (s.get F.SNF_QPTR.TAIL + 65536 - s.get F.SNF_QPTR.HEAD) % 65536) :
    norQueue op d s = s.accessBad 0x0F := if_pos h

/-- What writing a descriptor does, whatever its operation. -/
theorem gives_norQueue {c : Instr} {op : Nat} {d : SnfDesc} (hs : s.Runs) (e : exec c s = s.awake (.next (norQueue op d s))) :
    if 64 ≤ (s.get F.SNF_QPTR.TAIL + 65536 - s.get F.SNF_QPTR.HEAD) % 65536 then exec c s = .next (s.accessBad 0x0F)
    else Gives c s fun u => u.get F.SNF_QPTR.TAIL = (s.get F.SNF_QPTR.TAIL + 1) % 65536 ∧ u.snor = s.snor := by
  split
  next h => rw [e, State.awake_of_runs _ hs, norQueue_full op d h]
  next h => exact gives_of_awake hs e (norQueue_room op d h)

/-! The ends of operations (R557, R560) -/

theorem State.norByte_of_snor (h : t.snor = s.snor) (a : Nat) : t.norByte a = s.norByte a := by
  rw [State.norByte, h, State.norByte]

/-- An erased span reads all ones; every other byte stays. -/
theorem State.norByte_erasedSpan (s : State) (sp : Nat × Nat) (a : Nat) :
    (s.norErase sp).norByte a = if sp.1 ≤ a ∧ a < sp.1 + sp.2 then 0xFF else s.norByte a := by
  have hf : (s.norErase sp).norByte a = tgetD a norDefault (s.snor.filter fun e => !decide (sp.1 ≤ e.1 ∧ e.1 < sp.1 + sp.2)) := rfl
  rw [hf, tgetD]
  split
  next h =>
    rw [tget_filter_none (by simpa using h)]
    rfl
  next h =>
    rw [tget_filter fun _ => by simp only [decide_eq_false h, Bool.not_false]]
    rfl

theorem State.norByte_norOpEnd_erase (s : State) {x : NorDesc} (hx : x.op = 3 ∨ x.op = 4) (a : Nat) :
    (s.norOpEnd x false).norByte a = if x.span.1 ≤ a ∧ a < x.span.1 + x.span.2 then 0xFF else s.norByte a := by
  have he : s.norOpEnd x false = s.norEraseEnd x false := by
    unfold State.norOpEnd
    split
    · omega
    · omega
    · rfl
  rw [he]
  have h1 : s.norEraseEnd x false = (s.norErase x.span).norEnd x 2 0 := rfl
  rw [h1, State.norByte_of_snor (State.keeps_norEnd _ _ _ _).snor_eq, State.norByte_erasedSpan]

/-- Where no interruption left a byte undefined, a read leaves the bytes of NOR in its buffer. -/
theorem State.rdByte_norOpEnd_read (s : State) {x : NorDesc} (v : Bool) (hx : x.op = 1) (hb : s.norBuffer x = true) (hu : s.nor.undef = [])
    {j : Nat} (hj : j < x.d.len) (hr : isRam (x.d.addr + j) = true) :
    (s.norOpEnd x v).rdByte (x.d.addr + j) = s.norByte (x.d.nor + j) := by
  have he : s.norOpEnd x v = s.norReadEnd x := by
    unfold State.norOpEnd
    rw [hx]
    rfl
  rw [he]
  unfold State.norReadEnd
  rw [if_pos hb]
  extract_lets +onlyGivenNames b
  have hl : b.length = x.d.len := by simp [b]
  rw [State.rdByte_of_mem ((State.mem_norEnd _ _ _ _).trans (State.keeps_drawn _).mem_eq),
    State.rdByte_wrBytes _ _ _ (by omega) hr]
  simp [b, State.norSeen, hu]

/-! Regions (R565) -/

theorem openRegion_right (c r : Nat) (hl : s.get F.SNF_RGN.LOCKOUT r = 0) (hc : s.get F.SNF_STAT.CFGERR = 0)
    (hp : s.reg .SNF_PWD 0 = s.passwordOf r) :
    openRegion c r s = ((s.put F.SNF_RGN.ATTEMPTS r 0).put F.SNF_RGN.OPEN r 1).put F.SNF_RGN.OPENER r c := by
  unfold openRegion
  rw [State.on_of_get_zero hl, State.on_of_get_zero hc, if_neg (by decide), if_pos hp]

theorem openRegion_wrong (c r : Nat) (hl : s.get F.SNF_RGN.LOCKOUT r = 0) (hc : s.get F.SNF_STAT.CFGERR = 0)
    (hp : s.reg .SNF_PWD 0 ≠ s.passwordOf r) :
    (openRegion c r s).get F.SNF_RGN.OPEN r = s.get F.SNF_RGN.OPEN r ∧
      (15 ≤ s.get F.SNF_RGN.ATTEMPTS r → (openRegion c r s).get F.SNF_RGN.LOCKOUT r = 1) := by
  unfold openRegion
  rw [State.on_of_get_zero hl, State.on_of_get_zero hc, if_neg (by decide), if_neg hp]
  extract_lets +onlyGivenNames n s1
  have h1 : s1.get F.SNF_RGN.OPEN r = s.get F.SNF_RGN.OPEN r :=
    ((State.keeps_raise _ 215).get F.SNF_RGN.OPEN r).trans (State.get_put_apart _ _ _ _ (f := F.SNF_RGN.ATTEMPTS))
  split
  next hn =>
    refine ⟨?_, fun _ => ?_⟩
    · rw [(State.keeps_raise _ 216).get F.SNF_RGN.OPEN r, State.get_put_apart _ _ _ _ (f := F.SNF_RGN.LOCKOUT), h1]
    · rw [(State.keeps_raise _ 216).get F.SNF_RGN.LOCKOUT r, State.get_put_same _ F.SNF_RGN.LOCKOUT]
      rfl
  next hn => exact ⟨h1, fun h => absurd (Nat.succ_le_succ h) hn⟩

theorem State.unlock_same (s : State) (r : Nat) :
    (s.unlock r).get F.SNF_RGN.LOCKOUT r = 0 ∧ (s.unlock r).get F.SNF_RGN.ATTEMPTS r = 0 := by
  unfold State.unlock
  rw [State.get_put_apart _ _ _ _ (f := F.SNF_RGN.ATTEMPTS) (g := F.SNF_RGN.LOCKOUT), State.get_put_same _ F.SNF_RGN.LOCKOUT,
    State.get_put_same _ F.SNF_RGN.ATTEMPTS]
  exact ⟨rfl, rfl⟩

theorem State.unlock_ne (s : State) {q r : Nat} (h : r ≠ q) (f : Fld) : (s.unlock q).get f r = s.get f r := by
  rw [State.unlock, State.get_put_inst _ _ h, State.get_put_inst _ _ h]

/-- The regions of the mask are unlocked, and no other. -/
theorem clrlock_fold (mask : BitVec 16) (l : List Nat) (s : State) (r : Nat) (f : Fld) (hf : ∀ t : State, (t.unlock r).get f r = 0) :
    (l.foldl (fun s r => if mask.getLsbD r then s.unlock r else s) s).get f r = if r ∈ l ∧ mask.getLsbD r = true then 0 else s.get f r := by
  induction l generalizing s with
  | nil => simp
  | cons q l ih =>
    rw [List.foldl_cons, ih]
    by_cases hq : r = q
    · subst hq
      by_cases hm : mask.getLsbD r = true
      · simp [hm, hf]
      · simp [hm]
    · simp only [List.mem_cons, hq, false_or]
      split
      · rfl
      · split
        · rw [State.unlock_ne _ hq]
        · rfl

end

end Sys2Proof.Machine
end

section
-- One proof at a time: as many threads as there are lemmas here do not fit beside the model.
set_option Elab.async false
open Sys2Proof Sys2Proof.Machine

/-- Settles O19. -/
theorem norCommands : Obligations.NorCommands := by
  unfold Obligations.NorCommands
  intro s hs
  refine ⟨fun c d hc => ?_, fun x hx ho => ?_, fun x v hx ho hb hu => ?_, ?_, fun c r hl hc => ?_, fun c r => ?_, fun c r ho => ?_,
    fun m => ?_, fun who m hw => ?_⟩
  · simp only [List.mem_cons, List.not_mem_nil, or_false] at hc
    rcases hc with rfl | rfl | rfl | rfl
    · exact gives_norQueue hs rfl
    · exact gives_norQueue hs rfl
    · exact gives_norQueue hs rfl
    · exact gives_norQueue hs rfl
  · refine gives_of_awake hs rfl fun a => ?_
    rw [hx]
    exact (State.norByte_of_snor (State.keeps_norKick _).snor_eq a).trans (s.norByte_norOpEnd_erase ho a)
  · refine gives_of_awake hs rfl fun j hj hr => ?_
    rw [hx]
    exact (State.rdByte_of_mem (State.mem_norKick _) _).trans (s.rdByte_norOpEnd_read v ho hb hu hj hr)
  · refine gives_of_awake hs rfl ?_
    rw [(State.keeps_norKick _).get F.SNF_CTL.EN 0]
    exact State.get_put_same _ F.SNF_CTL.EN _ _
  · refine gives_of_awake hs rfl ?_
    split
    next hp =>
      rw [openRegion_right c r hl hc hp]
      simp (disch := decide) only [State.get_put_apart, State.get_put_same]
      exact ⟨rfl, Nat.mod_eq_of_lt (Nat.lt_trans c.isLt (by decide)), rfl⟩
    next hp => exact openRegion_wrong c r hl hc hp
  · refine gives_of_awake hs rfl ?_
    rw [State.get_put_apart _ _ _ _ (f := F.SNF_RGN.OPENER) (g := F.SNF_RGN.OPEN)]
    exact State.get_put_same _ F.SNF_RGN.OPEN _ _
  · refine gives_of_awake hs rfl ?_
    rw [if_pos (State.on_of_get_one ho)]
    exact ⟨State.get_put_same _ F.SNF_RGN.PROT _ _, tget_tput_self _ _ _⟩
  · refine gives_of_awake hs rfl fun r hr => ?_
    rw [if_pos rfl, clrlock_fold m _ s r F.SNF_RGN.LOCKOUT fun t => (t.unlock_same r).1,
      clrlock_fold m _ s r F.SNF_RGN.ATTEMPTS fun t => (t.unlock_same r).2]
    simp only [List.mem_range, hr, true_and, and_self]
  · rw [exec_of_awake hs rfl, if_neg hw]
end

section
-- One proof at a time: as many threads as there are lemmas here do not fit beside the model.
set_option Elab.async false
namespace Sys2Proof.Machine

theorem State.keeps_closeConvoy (s : State) (a : Nat) : Keeps ⟨[.CIC_SRC_STAT, .PKP_CRED, .PKP_CSEQ, .PKP_CTL, .PKP_STAT, .PMC_CNT,
    .PMC_CTL], [.arb, .cic, .conv, .evt, .hbm, .hkp, .mem, .out, .packs, .twn]⟩ s (s.closeConvoy a) := by
  unfold State.closeConvoy
  split
  · exact .refl ..
  extract_lets +onlyGivenNames c page data par cmds f last s1 s2
  have h1 : Keeps ⟨[], [.arb, .conv, .hbm, .mem]⟩ s s2 := .after (State.keeps_engWrite s1 _ _).up (State.keeps_setCb s _ _).up
  clear_value s2
  exact .after (State.keeps_flightGo _ _).up (.after ((Keeps.update (F := ⟨[], [.conv]⟩) (.refl _) rfl).up) h1.up)

end Sys2Proof.Machine
end

section
-- One proof at a time: as many threads as there are lemmas here do not fit beside the model.
set_option Elab.async false
namespace Sys2Proof.Machine

/-! What leaves beside the transmitters -/

section
variable {s t : State}

/-- Nothing stops what leaves by no transmitter. -/
theorem State.out_send_free (s : State) (o : Out) (hp : o.port = 0) (hc : o.isCompletion = false) : (s.send o).out = s.out ++ [o] := by
  have ht : s.txIdle o = false := by simp [State.txIdle, hp, hc]
  rw [State.send, ht, if_neg Bool.false_ne_true]

theorem State.out_jtag (s : State) (n v : Nat) : (s.send (.jtag n v)).out = s.out ++ [.jtag n v] := s.out_send_free _ rfl rfl

theorem State.regs_send (s : State) (o : Out) : (s.send o).regs = s.regs := by
  unfold State.send
  split
  · rfl
  · rfl

theorem State.tly_send (s : State) (o : Out) : (s.send o).tly = s.tly := (State.keeps_send s o).tly_eq

/-! Debug unlock (R612, R613) -/

/-- What a refused token leaves. -/
theorem State.unlockRefuse_ends (s : State) (r : Nat) (fails : Bool) (hr : r < 256) : (s.unlockRefuse r fails).get F.PMC_DBG_STAT.RESULT = r ∧
    (s.unlockRefuse r fails).get F.PMC_DBG_STAT.BUSY = 0 ∧ (s.unlockRefuse r fails).tly.token = none ∧ (s.unlockRefuse r fails).tly.chal = none ∧
    (s.unlockRefuse r fails).get F.PMC_DBG_STAT.FAILS =
      if fails = true then min 5 (s.get F.PMC_DBG_STAT.FAILS + 1) else s.get F.PMC_DBG_STAT.FAILS := by
  unfold State.unlockRefuse
  extract_lets s1 s2 s3
  have h1 : s1.get F.PMC_DBG_STAT.RESULT = r ∧ s1.get F.PMC_DBG_STAT.BUSY = 0 ∧ s1.get F.PMC_DBG_STAT.FAILS = s.get F.PMC_DBG_STAT.FAILS := by
    unfold s1
    simp (disch := decide) only [State.get_put_apart, State.get_put_same]
    exact ⟨Nat.mod_eq_of_lt hr, rfl, trivial⟩
  clear_value s1
  obtain ⟨hR, hB, hF⟩ := h1
  have h2 : s2.get F.PMC_DBG_STAT.RESULT = r ∧ s2.get F.PMC_DBG_STAT.BUSY = 0 ∧
      s2.get F.PMC_DBG_STAT.FAILS = if fails = true then min 5 (s.get F.PMC_DBG_STAT.FAILS + 1) else s.get F.PMC_DBG_STAT.FAILS := by
    unfold s2
    split
    · simp (disch := decide) only [State.get_put_apart, State.get_put_same]
      exact ⟨hR, hB, by rw [hF]; exact Nat.mod_eq_of_lt (Nat.lt_of_le_of_lt (Nat.min_le_left _ _) (by decide))⟩
    · exact ⟨hR, hB, hF⟩
  clear_value s2
  have hk := State.keeps_raise { s2 with tly := { s2.tly with token := none, chal := none } } 245
  have ht : ({ s2 with tly := { s2.tly with token := none, chal := none } }.raise 245).tly = { s2.tly with token := none, chal := none } := hk.tly_eq
  rw [hk.get F.PMC_DBG_STAT.RESULT 0, hk.get F.PMC_DBG_STAT.BUSY 0, hk.get F.PMC_DBG_STAT.FAILS 0, ht]
  simp only [State.get_update]
  exact ⟨h2.1, h2.2.1, trivial, trivial, h2.2.2⟩

/-- A freeze changes FROZEN alone. -/
theorem State.get_freezeNow (s : State) (f : Fld) (i : Nat) (hf : F.PMC_DBG_STAT.FROZEN.apart f = true := by decide) :
    s.freezeNow.get f i = s.get f i := by
  unfold State.freezeNow
  split
  · exact State.get_put_apart _ _ _ _ hf
  · rfl

/-- What an unlock leaves. -/
theorem State.unlockNow_ends (s : State) : s.unlockNow.get F.PMC_DBG_STAT.UNLOCKED = 1 ∧ s.unlockNow.get F.PMC_DBG_STAT.RESULT = 1 ∧
    s.unlockNow.get F.PMC_DBG_STAT.BUSY = 0 ∧ s.unlockNow.get F.SEC_MODE.MODE = 2 ∧ s.unlockNow.tly = { s.tly with unlocking := false } ∧
    ∀ k ∈ s.unlockNow.keys.slots, k.2.loaded = false := by
  unfold State.unlockNow
  extract_lets off kept keys0 tly0 s1 s2 s3
  have h1 : s1.tly = { s.tly with unlocking := false } ∧ s1.keys.slots = kept.map off := ⟨rfl, rfl⟩
  clear_value s1
  have h2 : s2.get F.SEC_MODE.MODE = 2 ∧ s2.tly = s1.tly ∧ s2.keys = s1.keys := by
    have hk := State.keeps_kstat (s1.put F.SEC_MODE.MODE 0 2)
    exact ⟨(hk.get F.SEC_MODE.MODE 0).trans (State.get_put_same s1 F.SEC_MODE.MODE 0 2), hk.tly_eq, hk.keys_eq⟩
  clear_value s2
  have h3 : s3.get F.SEC_MODE.MODE = 2 ∧ s3.get F.PMC_DBG_STAT.UNLOCKED = 1 ∧ s3.get F.PMC_DBG_STAT.BUSY = 0 ∧
      s3.get F.PMC_DBG_STAT.RESULT = 1 ∧ s3.tly = s2.tly ∧ s3.keys = s2.keys := by
    have hk : Keeps ⟨[.PMC_DBG_STAT], []⟩ s2 s3 :=
      .after (State.keeps_put _ F.PMC_DBG_STAT.RESULT 0 1).up (.after (State.keeps_put _ F.PMC_DBG_STAT.BUSY 0 0).up
        (State.keeps_put s2 F.PMC_DBG_STAT.UNLOCKED 0 1).up)
    refine ⟨(hk.get F.SEC_MODE.MODE 0).trans h2.1, ?_, ?_, ?_, hk.tly_eq, hk.keys_eq⟩
    · unfold s3
      rw [State.get_put_apart, State.get_put_apart, State.get_put_same _ F.PMC_DBG_STAT.UNLOCKED]
      rfl
    · unfold s3
      rw [State.get_put_apart, State.get_put_same _ F.PMC_DBG_STAT.BUSY]
      rfl
    · unfold s3
      rw [State.get_put_same _ F.PMC_DBG_STAT.RESULT]
      rfl
  clear_value s3
  obtain ⟨hm, hu, hb, hr, ht, hk⟩ := h3
  have h4 : Keeps ⟨[.CIC_SRC_STAT], [.cic, .evt]⟩ s3 (s3.raise 244) := State.keeps_raise s3 244
  have h6 := State.keeps_freezeNow (s3.raise 244)
  rw [State.get_freezeNow _ F.PMC_DBG_STAT.UNLOCKED, State.get_freezeNow _ F.PMC_DBG_STAT.RESULT, State.get_freezeNow _ F.PMC_DBG_STAT.BUSY, h6.get F.SEC_MODE.MODE 0, h6.tly_eq, h6.keys_eq,
    h4.get F.PMC_DBG_STAT.UNLOCKED 0, h4.get F.PMC_DBG_STAT.RESULT 0, h4.get F.PMC_DBG_STAT.BUSY 0, h4.get F.SEC_MODE.MODE 0, h4.tly_eq, h4.keys_eq]
  refine ⟨hu, hr, hb, hm, ht.trans (h2.2.1.trans h1.1), fun e he => ?_⟩
  rw [hk, h2.2.2, h1.2] at he
  obtain ⟨x, -, rfl⟩ := List.mem_map.mp he
  rfl

theorem State.openJ_closeJournal (s : State) : s.closeJournal.map.openJ = [] := by
  unfold State.closeJournal
  split
  next h => exact List.isEmpty_iff.mp h
  · exact congrArg MapS.openJ (State.keeps_logAdd _ _).map_eq

/-- A shutdown for an unlock ends with what goes on when it can; fetching has stopped and the journal block is closed before. -/
theorem State.unlockShutdown_flow (s : State) :
    ∃ t : State, s.unlockShutdown = t.flow ∧ t.hif.fetchStop = true ∧ t.tly = s.tly ∧ t.map.openJ = [] := by
  unfold State.unlockShutdown
  extract_lets fs s1 hif0 s2
  have h1 : s1.tly = s.tly := by
    have hf : Keeps ⟨[.CSTS], [.hif]⟩ s s1 := by
      refine .foldl (fun t f => ?_) fs s
      exact .update (State.keeps_put t F.CSTS.SHST f 1).up rfl
    exact hf.tly_eq
  clear_value s1
  have h2 : s2.hif.fetchStop = true ∧ s2.tly = s1.tly ∧ s2.map.openJ = [] := by
    have hj := State.keeps_closeJournal { s1 with hif := { s1.hif with fetchStop := true } }
    exact ⟨congrArg Hif.fetchStop hj.hif_eq, hj.tly_eq, State.openJ_closeJournal _⟩
  clear_value s2
  refine ⟨_, rfl, ?_⟩
  have hc := Keeps.foldl (fun t a => State.keeps_closeConvoy t a) (keysWhere (fun _ => true) (s2.conv.acc.filter fun e => e.2.filled)) s2
  rw [hc.hif_eq, hc.tly_eq, hc.map_eq]
  exact ⟨h2.1, h2.2.1.trans h1, h2.2.2⟩

theorem State.judgeToken_lt (s : State) (t : DbgToken) : s.judgeToken t < 256 := by
  unfold State.judgeToken
  extract_lets st
  split
  · decide
  split
  · decide
  split
  · decide
  split
  · decide
  · decide

/-- A token that is taken waits for its verification. -/
theorem State.tokenSubmitted (s : State) (t : DbgToken) :
    (({ s with tly := { s.tly with token := some t } }.put F.PMC_DBG_STAT.BUSY 0 1).raise 8).tly.token = some t ∧
      (({ s with tly := { s.tly with token := some t } }.put F.PMC_DBG_STAT.BUSY 0 1).raise 8).get F.PMC_DBG_STAT.BUSY = 1 := by
  generalize hx : { s with tly := { s.tly with token := some t } } = x
  have ht : x.tly.token = some t := by rw [← hx]
  have hk := State.keeps_raise (x.put F.PMC_DBG_STAT.BUSY 0 1) 8
  exact ⟨(congrArg Tly.token (hk.tly_eq.trans (State.keeps_put x F.PMC_DBG_STAT.BUSY 0 1).tly_eq)).trans ht,
    (hk.get F.PMC_DBG_STAT.BUSY 0).trans (State.get_put_same x F.PMC_DBG_STAT.BUSY 0 1)⟩

/-- FREEZE_N falls. -/
theorem State.freezeFalls (s : State) : let x := { s with tly := { s.tly with freezeLow := true } }
    let u := if x.on F.PMC_DBG_STAT.UNLOCKED then x.freezeNow else x.raise 8
    u.tly.freezeLow = true ∧
      u.get F.PMC_DBG_STAT.FROZEN = if s.get F.PMC_DBG_STAT.UNLOCKED = 1 then 1 else s.get F.PMC_DBG_STAT.FROZEN := by
  extract_lets tly0 x u
  have hx : x.tly.freezeLow = true ∧ x.get F.PMC_DBG_STAT.UNLOCKED = s.get F.PMC_DBG_STAT.UNLOCKED ∧
      x.get F.PMC_DBG_STAT.FROZEN = s.get F.PMC_DBG_STAT.FROZEN := ⟨rfl, s.get_update .., s.get_update ..⟩
  clear_value x
  obtain ⟨hl, hu, hf⟩ := hx
  rw [← hu, ← hf]
  cases h : x.on F.PMC_DBG_STAT.UNLOCKED
  case true =>
    have h1 : x.get F.PMC_DBG_STAT.UNLOCKED = 1 := by simpa [State.on] using h
    have he : u = x.freezeNow := if_pos h
    rw [if_pos h1, he]
    refine ⟨(congrArg Tly.freezeLow (State.keeps_freezeNow x).tly_eq).trans hl, ?_⟩
    rw [State.freezeNow, h, hl]
    exact State.get_put_same x F.PMC_DBG_STAT.FROZEN 0 1
  case false =>
    have h1 : ¬ x.get F.PMC_DBG_STAT.UNLOCKED = 1 := fun hn => Bool.false_ne_true (h.symm.trans (State.on_of_get_one hn))
    have he : u = x.raise 8 := if_neg (by rw [h]; exact Bool.false_ne_true)
    rw [if_neg h1, he]
    exact ⟨(congrArg Tly.freezeLow (State.keeps_raise x 8).tly_eq).trans hl, (State.keeps_raise x 8).get F.PMC_DBG_STAT.FROZEN 0⟩

theorem State.regNow_jtagIr (s : State) (c : Nat) (r : RegName) (i : Nat) : (s.jtagIr c).regNow r i = s.regNow r i := by
  unfold State.regNow
  split
  · rfl
  · rfl
  · rfl
  · rfl
  · rfl
  · rfl

theorem State.regByte_jtagIr (s : State) (c a : Nat) : (s.jtagIr c).regByte a = s.regByte a := by
  unfold State.regByte State.regShow
  simp only [State.regNow_jtagIr]

/-- The instruction in the JTAG register shows in no word of memory. -/
theorem State.debugWord_jtagIr (s : State) (c a : Nat) : (s.jtagIr c).debugWord a = s.debugWord a := by
  have hd : (s.jtagIr c).decoded .debug a = s.decoded .debug a := rfl
  have hm : (s.jtagIr c).rdBytes a 8 = s.rdBytes a 8 := State.rdBytes_of_mem rfl a 8
  unfold State.debugWord
  simp only [hd, hm, State.regByte_jtagIr]
  rfl

theorem State.decoded_send (s : State) (o : Out) (w : Initiator) (a : Nat) : (s.send o).decoded w a = s.decoded w a := by
  unfold State.send
  split
  · rfl
  · rfl

theorem State.memData_ends (s : State) : let x := (s.jtagIr 0x26).send (.jtag 72
      (if (s.jtagIr 0x26).on F.PMC_DBG_STAT.FROZEN then (s.jtagIr 0x26).debugWord s.tly.memAddr.toNat else 0))
    let y := if x.on F.PMC_DBG_STAT.FROZEN && !x.decoded .debug s.tly.memAddr.toNat then x.undecoded .debug else x
    let u : State := { y with tly := { y.tly with memAddr := s.tly.memAddr + 8 } }
    u.tly.ir = 0x26 ∧ u.tly.memAddr = s.tly.memAddr + 8 ∧
      u.out = s.out ++ [.jtag 72 (if s.get F.PMC_DBG_STAT.FROZEN = 1 then s.debugWord s.tly.memAddr.toNat else 0)] ∧
      u.debugErrs = s.debugErrs + (if s.get F.PMC_DBG_STAT.FROZEN = 1 ∧ s.decoded .debug s.tly.memAddr.toNat = false then 1 else 0) := by
  intro x y u
  have hx : x.tly.ir = 0x26 ∧ x.get F.PMC_DBG_STAT.FROZEN = s.get F.PMC_DBG_STAT.FROZEN ∧ x.debugErrs = s.debugErrs ∧
      x.decoded .debug s.tly.memAddr.toNat = s.decoded .debug s.tly.memAddr.toNat ∧
      x.out = s.out ++ [.jtag 72 (if s.get F.PMC_DBG_STAT.FROZEN = 1 then s.debugWord s.tly.memAddr.toNat else 0)] := by
    refine ⟨congrArg Tly.ir (State.tly_send _ _), (State.keeps_send _ _).get F.PMC_DBG_STAT.FROZEN 0, (State.keeps_send _ _).same .debugErrs rfl,
      State.decoded_send _ _ _ _, ?_⟩
    unfold x
    rw [State.out_jtag, State.debugWord_jtagIr, State.on, show (s.jtagIr 0x26).get F.PMC_DBG_STAT.FROZEN = s.get F.PMC_DBG_STAT.FROZEN from rfl]
    simp only [beq_iff_eq]
    rfl
  clear_value x
  obtain ⟨hir, hfr, hde, hdc, hout⟩ := hx
  have hy : y.tly = x.tly ∧ y.out = x.out ∧ y.debugErrs = s.debugErrs +
      (if s.get F.PMC_DBG_STAT.FROZEN = 1 ∧ s.decoded .debug s.tly.memAddr.toNat = false then 1 else 0) := by
    unfold y
    rw [hdc, ← hde, State.on, hfr]
    by_cases h : s.get F.PMC_DBG_STAT.FROZEN = 1 ∧ s.decoded .debug s.tly.memAddr.toNat = false
    · rw [if_pos h, if_pos (by simp [h])]
      exact ⟨rfl, rfl, rfl⟩
    · rw [if_neg h, if_neg (by simpa using h)]
      exact ⟨rfl, rfl, rfl⟩
  clear_value y
  exact ⟨(congrArg Tly.ir hy.1).trans hir, rfl, hy.2.1.trans hout, hy.2.2⟩

theorem State.writeInternal_privileged (s : State) (i : Fin 24) (size : Nat) (v : BitVec 64) (hd : s.decoded (.user i) 0x100C00000 = true) :
    s.writeInternal (.user i) 0x100C00000 size v = s.send (.privilege i) := by
  unfold State.writeInternal
  rw [hd, show inRegBlock 0x100C00000 = true by decide, if_neg (by simp), if_neg (by simp), if_neg (by decide), if_neg (by decide)]
  rfl

/-! Bits of a register that a write reaches (R6) -/

theorem testBit_bitsOf (hi lo v k : Nat) : (bitsOf hi lo v).testBit k = (decide (k < hi + 1 - lo) && v.testBit (k + lo)) := by
  rw [bitsOf, Nat.testBit_mod_two_pow, Nat.testBit_div_two_pow]

/-- A field whose bits a write carries takes them. -/
theorem bitsOf_written {hi lo : Nat} {w v old : BitVec 64} (h : ∀ k, k < hi + 1 - lo → w.getLsbD (k + lo) = true) :
    bitsOf hi lo ((old &&& ~~~w) ||| (v &&& w)).toNat = bitsOf hi lo v.toNat := by
  refine Nat.eq_of_testBit_eq fun k => ?_
  rw [testBit_bitsOf, testBit_bitsOf]
  by_cases hk : k < hi + 1 - lo
  · rw [← BitVec.getLsbD, ← BitVec.getLsbD, BitVec.getLsbD_or, BitVec.getLsbD_and, BitVec.getLsbD_and, BitVec.getLsbD_not, h k hk]
    simp
  · simp [hk]

/-- A field of which a write carries no bit stays. -/
theorem bitsOf_unwritten {hi lo : Nat} {w v old : BitVec 64} (h : ∀ k, k < hi + 1 - lo → w.getLsbD (k + lo) = false) (hb : hi < 64) :
    bitsOf hi lo ((old &&& ~~~w) ||| (v &&& w)).toNat = bitsOf hi lo old.toNat := by
  refine Nat.eq_of_testBit_eq fun k => ?_
  rw [testBit_bitsOf, testBit_bitsOf]
  by_cases hk : k < hi + 1 - lo
  · rw [← BitVec.getLsbD, ← BitVec.getLsbD, BitVec.getLsbD_or, BitVec.getLsbD_and, BitVec.getLsbD_and, BitVec.getLsbD_not, h k hk]
    have h64 : k + lo < 64 := by omega
    simp [h64]
  · simp [hk]

theorem State.get_setReg (s : State) (f : Fld) (i : Nat) (v : BitVec 64) : (s.setReg f.reg i v).get f i = bitsOf f.hi f.lo v.toNat := by
  rw [State.get, State.reg_setReg_self]

/-- A register whose fields are all read-only keeps what it holds. -/
theorem State.storeFields_ro (s : State) (r : RegName) (i : Nat) (mask v : BitVec 64) (h : ((regInfo r).fields.all fun f => f.2.2 == .ro) = true) :
    (s.storeFields r i mask v).reg r i = s.reg r i := by
  unfold State.storeFields
  rw [State.reg_setReg_self]
  generalize s.reg r i = old
  rw [List.all_eq_true] at h
  revert h
  induction (regInfo r).fields with
  | nil => exact fun _ => rfl
  | cons f l ih =>
    intro h
    have hf : f.2.2 = .ro := by simpa using h f (List.mem_cons_self ..)
    rw [List.foldl_cons, hf]
    show List.foldl _ (if _ then old else old) l = old
    rw [ite_self]
    exact ih fun e he => h e (List.mem_cons_of_mem _ he)

/-! Writes in BAR0 (R34) -/

theorem bar0_word {f off : Nat} {pf : Bool} {r : RegName} (v : BitVec 64) (h4 : off % 4 = 0) (hr : regAtBar0 off = some (r, 0)) :
    (bar0Space f pf).access 1 off 4 v s = s.regWrite (.host (Fin.ofNat 66 f)) r f (spanMask 31 0) ((v.setWidth 32).setWidth 64) := by
  have hf : (bar0Space f pf).find off = some (r, f, 0) := by simp [bar0Space, hr]
  unfold RegSpace.access RegSpace.word
  rw [if_pos ⟨rfl, h4⟩, hf]
  dsimp only
  rw [Nat.mul_zero, BitVec.shiftLeft_zero]
  rfl

theorem bar0_wide {f off : Nat} {pf : Bool} {r : RegName} (v : BitVec 64) (h8 : off % 8 = 0) (hr : regAtBar0 off = some (r, 0))
    (hw : (regInfo r).width = 64) : (bar0Space f pf).access 1 off 8 v s = s.regWrite (.host (Fin.ofNat 66 f)) r f (spanMask 63 0) v := by
  have hf : (bar0Space f pf).find off = some (r, f, 0) := by simp [bar0Space, hr]
  unfold RegSpace.access
  rw [if_neg (by omega), if_pos ⟨rfl, h8⟩, hf]
  exact if_pos hw

/-- A misaligned access of BAR0 is ignored, and counted where it touches a register (R8). -/
theorem bar0_misaligned {f off size : Nat} {pf : Bool} (v : BitVec 64) (h4 : ¬ (size = 4 ∧ off % 4 = 0)) (h8 : ¬ (size = 8 ∧ off % 8 = 0)) :
    (bar0Space f pf).access 1 off size v s = if (bar0Space f pf).holds off size = true then s.accessBad 1 else s := by
  unfold RegSpace.access
  rw [if_neg h4, if_neg h8]

theorem aqa_written (v : BitVec 64) (f : Nat) (who : Initiator) :
    let u := s.regWrite who .AQA f (spanMask 31 0) ((v.setWidth 32).setWidth 64)
    u.get F.AQA.ASQS f = v.toNat % 4096 ∧ u.get F.AQA.ACQS f = bitsOf 27 16 v.toNat := by
  intro u
  have hu : u = s.setReg .AQA f ((((s.reg .AQA f &&& ~~~(spanMask 27 16 &&& spanMask 31 0)) |||
      ((v.setWidth 32).setWidth 64 &&& (spanMask 27 16 &&& spanMask 31 0))) &&& ~~~(spanMask 11 0 &&& spanMask 31 0)) |||
      ((v.setWidth 32).setWidth 64 &&& (spanMask 11 0 &&& spanMask 31 0))) := rfl
  clear_value u
  subst hu
  have h1 := State.get_setReg s F.AQA.ASQS f
  have h2 := State.get_setReg s F.AQA.ACQS f
  constructor
  · rw [h1, bitsOf_written (by decide)]
    simp only [bitsOf, BitVec.toNat_setWidth]
    omega
  · rw [h2, bitsOf_unwritten (by decide) (by decide), bitsOf_written (by decide)]
    simp only [bitsOf, BitVec.toNat_setWidth]
    omega

theorem asq_written (v : BitVec 64) (f : Nat) (who : Initiator) :
    (s.regWrite who .ASQ f (spanMask 63 0) v).get F.ASQ.ASQB f = bitsOf 63 12 v.toNat := by
  have hu : s.regWrite who .ASQ f (spanMask 63 0) v =
      s.setReg .ASQ f ((s.reg .ASQ f &&& ~~~(spanMask 63 12 &&& spanMask 63 0)) ||| (v &&& (spanMask 63 12 &&& spanMask 63 0))) := rfl
  rw [hu, State.get_setReg s F.ASQ.ASQB f, bitsOf_written (by decide)]

end

end Sys2Proof.Machine
end

section
-- One proof at a time: as many threads as there are lemmas here do not fit beside the model.
set_option Elab.async false
open Sys2Proof Sys2Proof.Machine

/-- Settles O56. -/
theorem debugAndRegisterWrites : Obligations.DebugAndRegisterWrites := by
  unfold Obligations.DebugAndRegisterWrites
  intro s
  refine ⟨fun ir c hc => ?_, ⟨_, rfl, ?_⟩, ⟨_, rfl, ?_⟩, fun t hf => ⟨_, rfl, ?_⟩, fun t hf => ⟨_, rfl, ?_⟩, fun hs ht hu => ?_, fun t hs ht hj => ?_,
    fun t hs ht hj h0 h3 => ?_, fun t hs ht hj hw => ?_, ⟨_, rfl, ?_⟩, fun d => ⟨_, rfl, ?_⟩, ⟨_, rfl, ?_⟩, fun a => ⟨_, rfl, ?_⟩, ⟨_, rfl, ?_⟩,
    fun who size v hs => ⟨fun a hd hk hb => ?_, fun a hd => ?_, fun f off => ⟨fun h => ?_, fun h => ?_, fun h => ?_⟩, fun f off hf ho h4 h8 => ?_,
      fun f hf => ⟨?_, ?_, ?_, ?_⟩, fun hd i hi => ?_⟩⟩
  · simp only [List.mem_cons, List.not_mem_nil, or_false, Prod.mk.injEq] at hc
    rcases hc with ⟨rfl, rfl⟩ | ⟨rfl, rfl⟩ | ⟨rfl, rfl⟩ | ⟨rfl, rfl⟩
    · rfl
    · rfl
    · rfl
    · rfl
  · exact ⟨congrArg Tly.ir (State.tly_send _ _), State.out_jtag _ _ _⟩
  · exact ⟨congrArg Tly.ir (State.tly_send _ _), _, rfl, State.out_jtag _ _ _⟩
  · have hf' : (s.jtagIr 0x22).get F.PMC_DBG_STAT.FAILS = 5 := hf
    dsimp only
    rw [if_pos hf']
    obtain ⟨hr, -, ht, hc, hF⟩ := (s.jtagIr 0x22).unlockRefuse_ends 6 false (by decide)
    exact ⟨hr, hF.trans hf', ht, hc⟩
  · have hf' : ¬ (s.jtagIr 0x22).get F.PMC_DBG_STAT.FAILS = 5 := hf
    dsimp only
    rw [if_neg hf']
    split
    next hb =>
      rw [if_pos (State.on_of_get_one (s := s.jtagIr 0x22) hb)]
      exact ⟨rfl, rfl⟩
    next hb =>
      have hb' : (s.jtagIr 0x22).on F.PMC_DBG_STAT.BUSY = false :=
        State.on_of_get_zero ((State.bit_cases (s.jtagIr 0x22) F.PMC_DBG_STAT.BUSY 0).resolve_right hb)
      rw [hb', if_neg Bool.false_ne_true]
      exact State.tokenSubmitted _ t
  · rw [exec_of_awake hs rfl, ht]
    show Host.Outcome.next s.unlockGo = _
    rw [State.unlockGo, hu]
    rfl
  · refine gives_of_awake hs rfl ?_
    rw [ht]
    dsimp only
    rw [if_neg hj]
    obtain ⟨hr, hb, ht, hc, hF⟩ := s.unlockRefuse_ends (s.judgeToken t) (decide (s.judgeToken t ≤ 4)) (s.judgeToken_lt t)
    exact ⟨hr, hb, ht, hc, by simpa only [decide_eq_true_eq] using hF⟩
  · refine gives_of_awake hs rfl ?_
    rw [ht]
    dsimp only
    rw [if_pos hj, if_neg (by rintro (h | h) <;> contradiction)]
    obtain ⟨h1, h2, h3', h4, h5, h6⟩ := State.unlockNow_ends { s with tly := { s.tly with token := none, chal := none, unlocking := true } }
    rw [h5]
    exact ⟨h1, h2, h3', h4, rfl, rfl, h6⟩
  · obtain ⟨u, hu, h1, h2, h3⟩ := State.unlockShutdown_flow { s with tly := { s.tly with token := none, chal := none, unlocking := true } }
    refine ⟨u, ?_, h1, ?_, ?_, h3⟩
    · rw [exec_of_awake hs rfl, ht]
      dsimp only
      rw [if_pos hj, if_pos, hu]
      exact hw
    · rw [h2]
    · rw [h2]
  · exact s.freezeFalls
  · exact ⟨congrArg Tly.ir (State.tly_send _ _), rfl, State.out_jtag _ _ _⟩
  · dsimp only
    split
    next hf =>
      refine ⟨congrArg Tly.ir (State.tly_send _ _), _, State.out_jtag _ _ _, fun h0 => ?_⟩
      rw [State.on_of_get_zero (s := s.jtagIr 0x24) h0] at hf
      exact absurd hf Bool.false_ne_true
    next hf => exact ⟨congrArg Tly.ir (State.tly_send _ _), _, State.out_jtag _ _ _, fun _ => rfl⟩
  · refine ⟨rfl, ?_⟩
    rw [BitVec.toNat_ofNat]
    omega
  · exact s.memData_ends
  · rw [exec_of_awake hs rfl]
    refine congrArg Host.Outcome.next ?_
    show s.writeInternal who a size v = _
    unfold State.writeInternal
    rw [hd, hb, (List.all_eq_true (l := List.range size)).mpr fun k hm => hk k (List.mem_range.mp hm)]
    rfl
  · rw [exec_of_awake hs rfl]
    refine congrArg Host.Outcome.next ?_
    show s.writeInternal who a size v = _
    unfold State.writeInternal
    rw [if_pos]
    simp only [Bool.not_and, Bool.not_or, Bool.or_eq_true, Bool.not_eq_true', Bool.and_eq_true, List.all_eq_false, List.mem_range, Bool.not_eq_true]
    exact hd
  · rw [exec_of_awake hs rfl]
    refine congrArg Host.Outcome.next (if_neg ?_)
    rcases h with h | h
    · simp [h]
    · simp [Nat.not_lt.mpr h]
  · rw [exec_of_awake hs rfl]
    refine congrArg Host.Outcome.next (if_neg ?_)
    rcases h with h | h
    · simp [h]
    · simp [Nat.not_lt.mpr h]
  · rw [exec_of_awake hs rfl]
    refine congrArg Host.Outcome.next (if_neg ?_)
    rcases h with h | h
    · simp [h]
    · simp [Nat.not_lt.mpr h]
  · rw [exec_of_awake hs rfl]
    exact congrArg Host.Outcome.next ((if_pos (by simp [hf, ho])).trans (bar0_misaligned v h4 h8))
  · refine gives_of_awake hs rfl ?_
    dsimp only
    rw [if_pos (by simp [hf]), bar0_word v (by decide) (r := .AQA) (by decide +kernel)]
    exact aqa_written v f _
  · refine gives_of_awake hs rfl ?_
    dsimp only
    rw [if_pos (by simp [hf]), bar0_wide v (by decide) (r := .ASQ) (by decide +kernel) rfl]
    exact asq_written v f _
  · refine gives_of_awake hs rfl ?_
    dsimp only
    rw [if_pos (by simp [hf]), bar0_word v (by decide) (r := .CAP) (by decide +kernel)]
    exact State.storeFields_ro s .CAP f _ _ (by decide)
  · refine gives_of_awake hs rfl ?_
    dsimp only
    rw [if_pos (by simp [hf]), bar0_word v (by decide) (r := .VS) (by decide +kernel)]
    exact State.storeFields_ro s .VS f _ _ (by decide)
  · subst hi
    refine gives_of_awake hs rfl ?_
    dsimp only
    rw [State.writeInternal_privileged s i size v hd]
    exact ⟨State.regs_send s _, State.out_send_free _ _ rfl rfl⟩
end

section
-- One proof at a time: as many threads as there are lemmas here do not fit beside the model.
set_option Elab.async false
namespace Sys2Proof.Machine

/-- Does a rejoin go on, and is this its joiner? -/
def State.rejoins (s : State) : Bool × Bool := (s.arb.rj.active, s.arb.rj.joiner)

theorem Keeps.rejoins {F : Foot} {s t : State} (h : Keeps F s t) (hp : F.parts.contains .arb = false := by decide +kernel) :
    Same State.rejoins s t := congrArg (fun x : Arb => (x.rj.active, x.rj.joiner)) (h.arb_eq hp)

theorem State.rejoins_dirtied (s : State) (a : Nat) : Same State.rejoins s (s.dirtied a) := by
  unfold State.dirtied
  exact .ite (fun _ => .update (.refl _) rfl) fun _ => .refl _

theorem State.rejoins_wrByte (s : State) (a : Nat) (b : Byte) : Same State.rejoins s (s.wrByte a b) := by
  unfold State.wrByte
  exact .ite (fun _ => .after (State.rejoins_dirtied _ _) (.update (.refl _) rfl)) fun _ => .refl _

theorem State.rejoins_engWrite (s : State) (a : Nat) (a2 : Bytes) : Same State.rejoins s (s.engWrite a a2) := by
  fun_induction s.engWrite a a2
  · exact .refl _
  · rename_i ih4
    exact .after ih4 (.ite (fun _ => State.rejoins_wrByte _ _ _) fun _ => .refl _)

theorem State.rejoins_ringWrite (s : State) (i : Nat) (b : Bytes) : Same State.rejoins s (s.ringWrite i b) := by
  unfold State.ringWrite
  exact .after (.after (.update (.refl _) rfl) (State.rejoins_engWrite _ _ _)) (.ite (fun _ => State.rejoins_engWrite _ _ _) fun _ =>
    .refl _)

theorem State.rejoins_ringDeliver (s : State) (e : LEntry) : Same State.rejoins s (s.ringDeliver e) := by
  unfold State.ringDeliver
  exact .ite (fun _ => .refl _) fun _ => State.rejoins_ringWrite _ _ _

section
variable {s t : State}

/-- Nothing that decides whose ledger is followed has changed. -/
theorem State.isTrail_of {P : Foot} (h : Keeps P s t) (hj : t.rejoins = s.rejoins) (hr : P.regs.contains .TWN_STAT = false := by decide +kernel) :
    t.isTrail = s.isTrail := by
  have ha : t.arb.rj.active = s.arb.rj.active := congrArg Prod.fst hj
  have hb : t.arb.rj.joiner = s.arb.rj.joiner := congrArg Prod.snd hj
  rw [State.isTrail, State.isTrail, State.joining, State.joining, h.on F.TWN_STAT.PAIRED 0 hr, h.on F.TWN_STAT.ROLE 0 hr, ha, hb]

/-- What the ledger takes in when an input is captured at once. -/
abbrev Foot.taken : Foot := ⟨[.CIC_SRC_STAT, .PMC_CNT, .PMC_CTL, .TWN_LINK], [.arb, .cic, .evt, .hbm, .keys, .mem, .out, .twn]⟩

/-- An input that finds room is recorded, and does what it does; whose ledger is followed does not change. -/
theorem State.capture_taken (h : s.Open) (e : LEntry) (f : State → State) (he : e.len ≤ 256) :
    ∃ t, Keeps .taken s t ∧ t.isTrail = s.isTrail ∧ s.capture e f = f t := by
  obtain ⟨ht, hh, hr⟩ := h
  unfold State.capture
  rw [if_neg (by simp [ht])]
  extract_lets e1
  have hroom : s.hasRoom e1 = true := hr e1 he
  rw [if_neg (by simp [hh, hroom])]
  have h1 : Keeps ⟨[.CIC_SRC_STAT, .PMC_CNT, .PMC_CTL, .TWN_LINK], [.cic, .evt, .keys, .out, .twn]⟩ s (if s.staged then s.recordPut e1 else s) :=
    .ite (fun _ => State.keeps_recordPut s e1) fun _ => .refl _
  generalize (if s.staged then s.recordPut e1 else s) = s1 at h1
  have h2 : Keeps .taken s (s1.ringDeliver e1) := .after (State.keeps_ringDeliver s1 e1).up h1.up
  exact ⟨_, h2, State.isTrail_of h2 (h1.rejoins.trans (s1.rejoins_ringDeliver e1)), rfl⟩

/-- A queue pair in the error state. -/
def State.qpFailed (s : State) (qpn : Nat) (q : Qp) : State :=
  ({ s with fab := { s.fab with qps := tput qpn { q with err := true } s.fab.qps } }.bump F.FAB_PSTAT.QP_ERR q.port).raise 195

theorem State.qpFailed_keeps (s : State) (qpn : Nat) (q : Qp) :
    Keeps ⟨[.CIC_SRC_STAT, .FAB_PSTAT], [.cic, .evt, .fab]⟩ s (s.qpFailed qpn q) := by
  refine .after (State.keeps_raise _ 195).up (.after (State.keeps_bump _ F.FAB_PSTAT.QP_ERR q.port 1).up ?_)
  exact .update (.refl s) rfl

theorem State.qpFailed_fab (s : State) (qpn : Nat) (q : Qp) :
    (s.qpFailed qpn q).fab = { s.fab with qps := tput qpn { q with err := true } s.fab.qps } :=
  (State.keeps_raise _ 195).fab_eq.trans (State.keeps_bump _ F.FAB_PSTAT.QP_ERR q.port 1).fab_eq

theorem State.qpFailed_count (s : State) (qpn : Nat) (q : Qp) :
    (s.qpFailed qpn q).get F.FAB_PSTAT.QP_ERR q.port = min 65535 (s.get F.FAB_PSTAT.QP_ERR q.port + 1) := by
  unfold State.qpFailed
  rw [(State.keeps_raise _ 195).get F.FAB_PSTAT.QP_ERR q.port, State.bump, State.get_put_same _ F.FAB_PSTAT.QP_ERR, State.get_update]
  exact Nat.mod_eq_of_lt (Nat.lt_of_le_of_lt (Nat.min_le_left _ _) (by decide))

/-- What a queue pair that enters the error state does (R101). -/
theorem State.qpError_eq {qpn : Nat} {q : Qp} (hq : tget qpn s.fab.qps = some q) (he : q.err = false) :
    s.qpError qpn = if (s.assoc q.assoc).discovery then s.qpFailed qpn q
      else if s.isTrail then (s.qpFailed qpn q).peerTell (connEntry qpn 3 q.port)
      else (s.qpFailed qpn q).capture (connEntry qpn 3 q.port) (State.qpErrEvent qpn false) := by
  have ha : (s.qpFailed qpn q).assoc q.assoc = s.assoc q.assoc := by
    rw [State.assoc, State.qpFailed_fab, State.assoc]
  have ht : (s.qpFailed qpn q).isTrail = s.isTrail := (s.qpFailed_keeps qpn q).isTrail
  unfold State.qpError
  rw [hq]
  dsimp only
  rw [he, if_neg Bool.false_ne_true]
  show (if ((s.qpFailed qpn q).assoc q.assoc).discovery then s.qpFailed qpn q
    else if (s.qpFailed qpn q).isTrail then (s.qpFailed qpn q).peerTell (connEntry qpn 3 q.port)
      else (s.qpFailed qpn q).capture (connEntry qpn 3 q.port) (State.qpErrEvent qpn false)) = _
  rw [ha, ht]

/-- An input still finds room where neither the rings nor the record have changed. -/
theorem Keeps.open {P : Foot} (h : Keeps P s t) (ho : s.Open) (hr : P.regs.contains .TWN_STAT = false := by decide +kernel)
    (hc : P.regs.contains .TWN_IRCFG = false := by decide +kernel) (hq : P.regs.contains .TWN_ROUTE = false := by decide +kernel)
    (ha : P.parts.contains .arb = false := by decide +kernel) (hp : P.parts.contains .twn = false := by decide +kernel) : t.Open := by
  obtain ⟨ht, hh, hroom⟩ := ho
  refine ⟨(h.isTrail hr ha).trans ht, by rw [h.twn_eq hp]; exact hh, fun e he => ?_⟩
  rw [← hroom e he]
  have hroute : t.routeOf e.cls = s.routeOf e.cls := by rw [State.routeOf, State.routeOf, h.get F.TWN_ROUTE.RING 0 hq]
  have hsize : ∀ i, t.ringSize i = s.ringSize i := fun i => by rw [State.ringSize, State.ringSize, h.get F.TWN_IRCFG.SIZE i hc]
  unfold State.hasRoom State.ringRoom State.ringNeed
  rw [hroute, h.on F.TWN_IRCFG.EN _ hc, h.twn_eq hp]
  simp only [hsize]

theorem connEntry_len (qpn ev port : Nat) : (connEntry qpn ev port).len ≤ 256 := by
  simp [connEntry, LEntry.len, LEntry.payloadBytes, entryWidths, packFields, padTo, length_leBytes]

/-- Only a trail tells of capsules. -/
theorem State.foldl_tellCapsule (h : s.isTrail = false) (l : List Capsule) : l.foldl State.tellCapsule s = s := by
  have h1 : ∀ k, s.tellCapsule k = s := fun k => by
    unfold State.tellCapsule
    split
    · rw [if_neg]
      simp [h]
    · rfl
  induction l with
  | nil => rfl
  | cons k l ih => rw [List.foldl_cons, h1, ih]

/-- The ledger has the error state of a side of a queue pair. -/
def State.ledErred (s : State) (x : Nat × Bool) : State :=
  { s with fab := { s.fab with ledErr := x :: s.fab.ledErr.filter fun y => y != x } }

theorem State.ledErred_keeps (s : State) (x : Nat × Bool) : Keeps ⟨[], [.fab]⟩ s (s.ledErred x) := .update (.refl s) rfl

/-- On a controller that follows no ledger, an error state that the ledger carries goes to the judgement of R101. -/
theorem State.qpErrEvent_lead (qpn : Nat) (ht : s.isTrail = false) :
    State.qpErrEvent qpn false s = (s.ledErred (qpn, s.straps.twinId)).errJudge qpn := by
  have hx : s.sideOf false = s.straps.twinId := by rw [State.sideOf, ht]; rfl
  have h1 : ((s.ledErred (qpn, s.straps.twinId)).errJudge qpn).isTrail = false := by
    rw [(State.keeps_errJudge _ qpn).isTrail, (s.ledErred_keeps _).isTrail, ht]
  unfold State.qpErrEvent
  rw [hx]
  exact State.foldl_tellCapsule h1 _

theorem State.errJudge_io {qpn : Nat} {q : Qp} (hq : tget qpn s.fab.qps = some q) (h0 : q.qid ≠ 0) : s.errJudge qpn = s := by
  unfold State.errJudge
  rw [hq]
  exact if_neg fun h => h0 h.1

/-- Alone, the error state of its admin queue pair ends an association. -/
theorem State.errJudge_admin {qpn : Nat} {q : Qp} (hq : tget qpn s.fab.qps = some q) (h0 : q.qid = 0) (he : q.err = true)
    (hd : (s.assoc q.assoc).discovery = false) (hp : s.get F.TWN_STAT.PAIRED = 0) : s.errJudge qpn = (s.endAssoc q.assoc).flow := by
  unfold State.errJudge
  rw [hq]
  dsimp only
  rw [State.on_of_get_zero hp, if_neg Bool.false_ne_true, if_pos]
  exact ⟨h0, he, by rw [hd]; rfl⟩

/-! The end of an association (R57, R101) -/

/-- No command of a tenant is left when it has been dropped. -/
theorem State.noCtx_dropTenant (s : State) (t : Tenant) : (s.dropTenant t).NoCtx t := by
  have hfold : ∀ (l : List Ctx) (s : State), ∀ x ∈ (l.foldl (fun s c => (s.giveBack c).release c.stamp) s).hif.ctxs,
      x ∈ s.hif.ctxs ∧ ∀ c ∈ l, x.stamp ≠ c.stamp := by
    intro l
    induction l with
    | nil => exact fun s x hx => ⟨hx, fun c hc => absurd hc (List.not_mem_nil)⟩
    | cons c l ih =>
      intro s x hx
      obtain ⟨h1, h2⟩ := ih _ x hx
      have hk : (s.giveBack c).hif = s.hif := (State.keeps_giveBack s c).hif_eq
      have h1' : x ∈ (s.giveBack c).hif.ctxs.filter fun d => d.stamp != c.stamp := h1
      rw [hk] at h1'
      obtain ⟨h3, h4⟩ := List.mem_filter.mp h1'
      exact ⟨h3, List.forall_mem_cons.mpr ⟨by simpa using h4, h2⟩⟩
  intro x hx hxt
  obtain ⟨h1, h2⟩ := hfold _ s x hx
  exact h2 x (List.mem_filter.mpr ⟨h1, by simpa using hxt⟩) rfl

/-- Nothing of an association is left when it has ended. -/
theorem State.endAssoc_ends (s : State) (a : Nat) :
    tget a (s.endAssoc a).fab.assocs = none ∧ (s.endAssoc a).NoCtx (.assoc a) ∧ ∀ q ∈ (s.endAssoc a).fab.qps, q.2.assoc ≠ a := by
  refine ⟨tget_tdel_self _ _, s.noCtx_dropTenant (.assoc a), fun q hq => ?_⟩
  simpa using (List.mem_filter.mp hq).2

end

end Sys2Proof.Machine
end

section
-- One proof at a time: as many threads as there are lemmas here do not fit beside the model.
set_option Elab.async false
open Sys2Proof Sys2Proof.Machine

/-- Settles O51. -/
theorem fabricEvents : Obligations.FabricEvents := by
  unfold Obligations.FabricEvents
  intro s qpn hs
  refine ⟨fun q hq he c hc => ?_, fun hq => ?_⟩
  · have hc' : ∃ s', Keeps ⟨[.CIC_SRC_STAT], [.cic, .evt]⟩ s s' ∧ exec c s = s.awake (.next (s'.qpError qpn)) := by
      simp only [List.mem_cons, List.not_mem_nil, or_false] at hc
      rcases hc with rfl | rfl
      · exact ⟨s, .refl s, rfl⟩
      · exact ⟨s.raise 197, State.keeps_raise s 197, rfl⟩
    obtain ⟨s', hk, hx⟩ := hc'
    have hfab : s'.fab = s.fab := hk.fab_eq
    have hassoc : s'.assoc q.assoc = s.assoc q.assoc := congrArg (fun x : Fab => tgetD q.assoc ({} : Assoc) x.assocs) hfab
    have htrail : s'.isTrail = s.isTrail := hk.isTrail
    have heq := State.qpError_eq (hfab ▸ hq) he
    have hcount : (s'.qpFailed qpn q).get F.FAB_PSTAT.QP_ERR q.port = min 65535 (s.get F.FAB_PSTAT.QP_ERR q.port + 1) := by
      rw [State.qpFailed_count, hk.get F.FAB_PSTAT.QP_ERR q.port]
    have hf : (s'.qpFailed qpn q).fab = { s.fab with qps := tput qpn { q with err := true } s.fab.qps } := by
      rw [State.qpFailed_fab, hfab]
    have hkf := s'.qpFailed_keeps qpn q
    rw [hassoc, htrail] at heq
    generalize s'.qpFailed qpn q = v at heq hcount hf hkf
    have hq' : tget qpn v.fab.qps = some { q with err := true } := by
      rw [hf]
      exact tget_tput_self _ _ _
    refine ⟨fun hd => ?_, fun hd ht => ?_, fun hd ho h0 => ?_, fun hd ho h0 hp => ?_⟩
    · rw [if_pos hd] at heq
      refine gives_of_awake hs hx ?_
      rw [heq]
      exact ⟨hq', hcount, by rw [hf], by rw [hf]⟩
    · rw [if_neg (by rw [hd]; exact Bool.false_ne_true), if_pos ht] at heq
      refine gives_of_awake hs hx ?_
      have hp := State.keeps_peerTell v (connEntry qpn 3 q.port)
      rw [heq, hp.fab_eq, hp.get F.FAB_PSTAT.QP_ERR q.port]
      exact ⟨hq', hcount, by rw [hf], by rw [hf]⟩
    · rw [if_neg (by rw [hd]; exact Bool.false_ne_true), ho.1, if_neg Bool.false_ne_true] at heq
      obtain ⟨w, hw, hwt, hwe⟩ := State.capture_taken (hkf.open (hk.open ho)) (connEntry qpn 3 q.port) (State.qpErrEvent qpn false) (connEntry_len ..)
      have htw : w.isTrail = false := hwt.trans (hkf.isTrail.trans (htrail.trans ho.1))
      have hwf : w.fab = v.fab := hw.fab_eq
      have hstraps : w.straps = s.straps := hw.straps_eq.trans (hkf.straps_eq.trans hk.straps_eq)
      refine gives_of_awake hs hx ?_
      rw [heq, hwe, State.qpErrEvent_lead qpn htw, State.errJudge_io (q := { q with err := true })]
      · have hl := w.ledErred_keeps (qpn, w.straps.twinId)
        rw [hl.get F.FAB_PSTAT.QP_ERR q.port, hw.get F.FAB_PSTAT.QP_ERR q.port]
        refine ⟨?_, hcount, ?_, ?_⟩
        · show tget qpn w.fab.qps = _
          rw [hwf, hq']
        · show w.fab.assocs = _
          rw [hwf, hf]
        · show _ ∈ (qpn, w.straps.twinId) :: _
          rw [hstraps]
          exact List.mem_cons_self ..
      · show tget qpn w.fab.qps = _
        rw [hwf, hq']
      · exact h0
    · rw [if_neg (by rw [hd]; exact Bool.false_ne_true), ho.1, if_neg Bool.false_ne_true] at heq
      obtain ⟨w, hw, hwt, hwe⟩ := State.capture_taken (hkf.open (hk.open ho)) (connEntry qpn 3 q.port) (State.qpErrEvent qpn false) (connEntry_len ..)
      have htw : w.isTrail = false := hwt.trans (hkf.isTrail.trans (htrail.trans ho.1))
      have hwf : w.fab = v.fab := hw.fab_eq
      have hl := w.ledErred_keeps (qpn, w.straps.twinId)
      have hlq : tget qpn (w.ledErred (qpn, w.straps.twinId)).fab.qps = some { q with err := true } := by
        show tget qpn w.fab.qps = _
        rw [hwf, hq']
      have hla : ((w.ledErred (qpn, w.straps.twinId)).assoc q.assoc).discovery = false := by
        show (tgetD q.assoc ({} : Assoc) w.fab.assocs).discovery = false
        rw [hwf, hf]
        exact hd
      have hlp : (w.ledErred (qpn, w.straps.twinId)).get F.TWN_STAT.PAIRED = 0 := by
        rw [hl.get F.TWN_STAT.PAIRED 0, hw.get F.TWN_STAT.PAIRED 0, hkf.get F.TWN_STAT.PAIRED 0, hk.get F.TWN_STAT.PAIRED 0, hp]
      refine givesThen_of_awake hs (t := (w.ledErred (qpn, w.straps.twinId)).endAssoc q.assoc) ?_ ?_
      · rw [hx, heq, hwe, State.qpErrEvent_lead qpn htw, State.errJudge_admin hlq h0 rfl hla hlp]
      · obtain ⟨h1, h2, -⟩ := (w.ledErred (qpn, w.straps.twinId)).endAssoc_ends q.assoc
        refine ⟨h1, h2, ?_⟩
        rw [(State.keeps_endAssoc _ q.assoc).get F.FAB_PSTAT.QP_ERR q.port, hl.get F.FAB_PSTAT.QP_ERR q.port,
          hw.get F.FAB_PSTAT.QP_ERR q.port, hcount]
  · have hnone : ∀ t : State, t.fab = s.fab → t.qpError qpn = t := fun t ht => by
      unfold State.qpError
      rw [ht]
      split
      · rfl
      next q hget => exact if_pos (hq q hget)
    constructor
    · rw [exec_of_awake hs rfl, hnone s rfl]
    · rw [exec_of_awake hs rfl, hnone _ (State.keeps_raise s 197).fab_eq]
end

section
-- One proof at a time: as many threads as there are lemmas here do not fit beside the model.
set_option Elab.async false
namespace Sys2Proof.Machine

/-! A Connect that is refused during a dump (R286) -/

/-- A controller that dumps: nothing idles its transmitters but the dump. -/
def Dumping.state : State := { State.reset with pow := { State.reset.pow with dumping := true } }

/-- A Connect for an admin queue of no entry. -/
def Dumping.request : ConnectReq :=
  { port := 0, assoc := 0, qid := 0, size := 0, discovery := false, group := none, twinMagic := 0, pairId := 0 }

theorem Dumping.refused : Dumping.state.Runs ∧ Dumping.state.Sends ∧ Dumping.state.connectOk 0 Dumping.request = false := by decide +kernel

/-- The refusal is a completion, and no completion leaves. -/
theorem Dumping.silent : answerHas (fun u => u.out.isEmpty) (exec (.connect 0 Dumping.request) Dumping.state) = true := by decide +kernel

end Sys2Proof.Machine
end

section
open Sys2Proof Sys2Proof.Machine

/-- Refutes O50: the first clause does not say that the controller is not dumping. During a dump (R286) nothing is posted, the response
to a Connect that is refused neither. -/
theorem not_fabricConnections : ¬ Obligations.FabricConnections := by
  intro h
  obtain ⟨hruns, hsends, hrefused⟩ := Dumping.refused
  obtain ⟨hconnect, -⟩ := h Dumping.state hruns
  obtain ⟨u, hu, -, hout⟩ := hconnect 0 Dumping.request hrefused hsends
  have hsilent := Dumping.silent
  rw [hu] at hsilent
  simp [answerHas, hout] at hsilent

end

section
-- One proof at a time: as many threads as there are lemmas here do not fit beside the model.
set_option Elab.async false
namespace Sys2Proof.Machine

/-- The controllers' records and the commands in flight. -/
def State.records (s : State) : Tbl Func × List Ctx := (s.hif.funcs, s.hif.ctxs)

theorem Keeps.records {F : Foot} {s t : State} (h : Keeps F s t) (hp : F.parts.contains .hif = false := by decide +kernel) :
    Same State.records s t := congrArg (fun x : Hif => (x.funcs, x.ctxs)) (h.hif_eq hp)

theorem State.records_sendMsix (s : State) (f : Nat) (v : Nat) : Same State.records s (s.sendMsix f v) := by
  unfold State.sendMsix
  exact .ite (fun _ => .ite (fun _ => .refl _) fun _ => .update (.refl _) rfl) fun _ => .ite
    (fun _ => (State.keeps_raise _ _).records) fun _ => (State.keeps_send _ _).records

theorem State.records_coalSend (s : State) (f : Nat) (v : Nat) : Same State.records s (s.coalSend f v) := by
  unfold State.coalSend
  exact .after (State.records_sendMsix _ _ _) (.update (.refl _) rfl)

theorem State.records_interrupt (s : State) (f : Nat) (cqid : Nat) (v : Nat) : Same State.records s (s.interrupt f cqid v) := by
  unfold State.interrupt
  exact .ite (fun _ => State.records_coalSend _ _ _) fun _ => .update (.refl _) rfl

theorem State.records_errPut (s : State) (e : ErrEntry) : Same State.records s (s.errPut e) := by
  unfold State.errPut
  exact .update (.refl _) rfl

theorem State.records_logError (s : State) (c : Ctx) (r : Cpl) : Same State.records s (s.logError c r) := by
  unfold State.logError
  exact .ite (fun _ => .refl _) fun _ => State.records_errPut _ _

section
variable {s t : State}

/-! ### The records of functions and the commands in flight -/

theorem State.func_of_records (h : Same State.records s t) (f : Nat) : t.func f = s.func f := by
  have h1 : t.hif.funcs = s.hif.funcs := congrArg Prod.fst h
  rw [State.func, h1, State.func]

theorem State.ctxs_of_records (h : Same State.records s t) : t.hif.ctxs = s.hif.ctxs := congrArg Prod.snd h

theorem State.ctx_of_records (h : Same State.records s t) (stamp : BitVec 64) : t.ctx stamp = s.ctx stamp := by
  rw [State.ctx, State.ctxs_of_records h, State.ctx]

theorem State.func_setFunc (s : State) (f : Nat) (v : Func) : (s.setFunc f v).func f = v := tgetD_tput_self _ _ _ _

theorem State.records_setFunc (h : Same State.records s t) (f : Nat) (v : Func) : Same State.records (s.setFunc f v) (t.setFunc f v) :=
  congrArg (fun x : Tbl Func × List Ctx => (tput f v x.1, x.2)) h

theorem State.ctx_setFunc (s : State) (f : Nat) (v : Func) (stamp : BitVec 64) : (s.setFunc f v).ctx stamp = s.ctx stamp := rfl

theorem State.func_release (s : State) (stamp : BitVec 64) (f : Nat) : (s.release stamp).func f = s.func f := rfl

/-- A command whose context has been released has none. -/
theorem State.ctx_release (s : State) (stamp : BitVec 64) : (s.release stamp).ctx stamp = none := by
  refine List.find?_eq_none.mpr fun c hc => ?_
  simpa using (List.mem_filter.mp hc).2

/-! ### Completion entries (R43, R75) -/

/-- The state in which a function's completion is posted. -/
def State.ending (s : State) (c : Ctx) (r : Cpl) : State := ((s.release c.stamp).tallyLat c).logError c r

theorem State.ending_records (s : State) (c : Ctx) (r : Cpl) : Same State.records (s.release c.stamp) (s.ending c r) :=
  .trans (Keeps.records (State.keeps_tallyLat _ c)) (State.records_logError _ c r)

theorem State.ending_keeps (s : State) (c : Ctx) (r : Cpl) : Keeps ⟨[], [.hif, .tly]⟩ s (s.ending c r) :=
  .after (State.keeps_logError _ c r).up (.after (State.keeps_tallyLat _ c).up (State.keeps_release s c.stamp).up)

theorem State.finish_eq (c : Ctx) (r : Cpl) {f : Nat} (ht : c.tenant = .func f) (hd : s.pow.dumping = false) :
    s.finish c r = (s.ending c r).postCqe f c r := by
  unfold State.finish
  rw [hd, if_neg Bool.false_ne_true, ht]
  rfl

/-- The function with one of its completion queues replaced. -/
def State.setCq (s : State) (f cqid : Nat) (q : Cq) : State := s.setFunc f { s.func f with cqs := tput cqid q (s.func f).cqs }

theorem State.sqs_setCq (s : State) (f cqid : Nat) (q : Cq) : ((s.setCq f cqid q).func f).sqs = (s.func f).sqs := by
  rw [State.setCq, State.func_setFunc]

theorem State.cqs_setCq (s : State) (f cqid : Nat) (q : Cq) : tget cqid ((s.setCq f cqid q).func f).cqs = some q := by
  rw [State.setCq, State.func_setFunc]
  exact tget_tput_self _ _ _

theorem State.dw1Of_ending (s : State) (c : Ctx) (r : Cpl) (t : Tenant) (sqid : Nat) (next : BitVec 32) (fixed : Option (BitVec 32)) :
    (s.ending c r).dw1Of t sqid next fixed = s.dw1Of t sqid next fixed := by
  have h1 : ((s.release c.stamp).tallyLat c).hif = (s.release c.stamp).hif := (State.keeps_tallyLat _ c).hif_eq
  have h2 : (s.ending c r).hif.twinSeqOn = s.hif.twinSeqOn ∧ (s.ending c r).hif.seqEnded = s.hif.seqEnded := by
    unfold State.ending State.logError
    split
    · rw [h1]
      exact ⟨rfl, rfl⟩
    · unfold State.errPut
      rw [h1]
      exact ⟨rfl, rfl⟩
  unfold State.dw1Of
  rw [h2.1, h2.2]

theorem Keeps.cqeOut {P : Foot} (h : Keeps P s t) (hr : P.regs.contains .TWN_CTL = false := by decide +kernel)
    (hp : P.parts.contains .straps = false := by decide +kernel) : t.cqeOut = s.cqeOut := by
  have h1 : t.staged = s.staged := by rw [State.staged, State.staged, h.on F.TWN_CTL.EN 0 hr, h.get F.TWN_CTL.MODE 0 hr]
  unfold State.cqeOut
  rw [h1, h.straps_eq hp]

theorem State.cqeOut_setFunc (s : State) (f : Nat) (v : Func) : (s.setFunc f v).cqeOut = s.cqeOut := rfl

/-- Posting an entry changes its queue, and no other record. -/
theorem State.records_putCqe (s : State) (f cqid : Nat) (q : Cq) (e : CqEntry) : Same State.records (s.setCq f cqid q.adv) (s.putCqe f cqid q e) := by
  have h1 := (State.keeps_emitQuiet (s.setCq f cqid q.adv) ((s.setCq f cqid q.adv).cqeOut f cqid q e)).records
  unfold State.putCqe
  extract_lets s1 s2
  split
  · exact h1.trans (State.records_interrupt _ f cqid q.vector)
  · exact h1

/-- What posting an entry leaves of the records: the queue it goes to, with the entry held or posted. -/
theorem State.records_postEntry (s : State) {f cqid : Nat} {q : Cq} (e : CqEntry) (hq : tget cqid (s.func f).cqs = some q) :
    Same State.records (s.setCq f cqid (if q.full || !q.held.isEmpty then { q with held := q.held ++ [e] } else q.adv)) (s.postEntry f cqid e) := by
  have hd := (State.keeps_digest s 0 (s.cqeOut f cqid q e)).records
  have hf := State.func_of_records hd f
  unfold State.postEntry
  rw [hq]
  dsimp only
  have hset : ∀ p, Same State.records (s.setCq f cqid p) ((s.digest 0 (s.cqeOut f cqid q e)).setCq f cqid p) := fun p => by
    rw [State.setCq, State.setCq, hf]
    exact State.records_setFunc hd f _
  split
  · exact hset _
  · exact (hset _).trans (State.records_putCqe _ f cqid q e)

/-- The submission queue that a command came from counts its completion, whose entry goes to the completion queue. -/
theorem State.postCqe_eq (s : State) (f : Nat) (c : Ctx) (r : Cpl) {q : Sq} (hq : tget c.sqid (s.func f).sqs = some q) :
    s.postCqe f c r = (s.setFunc f { s.func f with sqs := tput c.sqid { q with next := q.next + 1 } (s.func f).sqs }).postEntry f q.cqid
      { sqid := c.sqid, sqhd := q.head, cid := c.cid, dw0 := r.dw0, dw1 := s.dw1Of c.tenant c.sqid q.next r.dw1, sct := r.sct, sc := r.sc } := by
  unfold State.postCqe
  rw [hq]

/-- An entry for a full queue, or behind others, leaves nothing. -/
theorem State.out_postEntry_held {f cqid : Nat} {q : Cq} (e : CqEntry) (hq : tget cqid (s.func f).cqs = some q) (h : q.full = true ∨ q.held ≠ []) :
    (s.postEntry f cqid e).out = s.out := by
  unfold State.postEntry
  rw [hq]
  dsimp only
  rw [if_pos]
  · exact (State.keeps_digest s 0 (s.cqeOut f cqid q e)).out_eq
  · rcases h with h | h
    · rw [h]
      rfl
    · rw [Bool.or_eq_true, Bool.not_eq_true', List.isEmpty_eq_false_iff]
      exact .inr h

/-- A completion entry leaves at once where nothing mutes it and nothing is held. -/
theorem State.out_emitQuiet_cqe {f cqid : Nat} {q : Cq} {e : CqEntry} (hs : s.Sends) (hd : s.pow.dumping = false) (hj : s.joining = false)
    (hf : s.twn.frozen = false) (hl : s.pairedLead = false) : (s.emitQuiet (s.cqeOut f cqid q e)).out = s.out ++ [s.cqeOut f cqid q e] := by
  have hm : s.muted (s.cqeOut f cqid q e) = false := by
    unfold State.muted State.cqeOut
    rw [hj]
    rfl
  have hh : s.mustHold (s.cqeOut f cqid q e).oclass = false := by
    unfold State.mustHold
    rw [hf, hl, Bool.false_and, Bool.or_self, Bool.and_false]
  have hi : s.issue (s.cqeOut f cqid q e) = s.send (s.cqeOut f cqid q e) := rfl
  unfold State.emitQuiet
  rw [hm, if_neg Bool.false_ne_true, hh, if_neg Bool.false_ne_true, hi, State.send, if_neg]
  simp [State.txIdle, hs.1, hs.2, hd]

/-- What decides whether an entry leaves at once. -/
def State.Posts (s : State) : Prop :=
  s.Sends ∧ s.pow.dumping = false ∧ s.joining = false ∧ s.twn.frozen = false ∧ s.pairedLead = false

theorem Keeps.posts {P : Foot} (h : Keeps P s t) (hp : s.Posts) (hr : P.regs.contains .TWN_STAT = false := by decide +kernel)
    (ha : P.parts.contains .arb = false := by decide +kernel) (hw : P.parts.contains .pow = false := by decide +kernel)
    (ht : P.parts.contains .twn = false := by decide +kernel) : t.Posts := by
  unfold State.Posts State.Sends State.joining State.pairedLead at *
  rwa [h.arb_eq ha, h.pow_eq hw, h.twn_eq ht, h.on F.TWN_STAT.PAIRED 0 hr, h.on F.TWN_STAT.ROLE 0 hr]

theorem State.out_putCqe {f cqid : Nat} {q : Cq} {e : CqEntry} (h : s.Posts) :
    s.out ++ [s.cqeOut f cqid q e] <+: (s.putCqe f cqid q e).out := by
  obtain ⟨hs, hd, hj, hf, hl⟩ := h
  have h1 : ((s.setCq f cqid q.adv).emitQuiet (s.cqeOut f cqid q e)).out = s.out ++ [s.cqeOut f cqid q e] :=
    State.out_emitQuiet_cqe (s := s.setCq f cqid q.adv) (f := f) (cqid := cqid) (q := q) (e := e) hs hd hj hf hl
  rw [← h1]
  unfold State.putCqe
  extract_lets s1 s2
  split
  · exact (State.tame_interrupt _ f cqid q.vector).out
  · exact List.prefix_rfl

/-- The digest changes nothing that decides it, nor the entry. -/
theorem State.posts_digest (h : s.Posts) (k : Nat) (o : Out) :
    (s.digest k o).Posts ∧ (s.digest k o).out = s.out ∧ (s.digest k o).cqeOut = s.cqeOut := by
  unfold State.digest
  split
  · exact ⟨h, rfl, rfl⟩
  · exact ⟨h, rfl, rfl⟩

/-- An entry for a queue with room leaves. -/
theorem State.out_postEntry_room {f cqid : Nat} {q : Cq} {e : CqEntry} (hq : tget cqid (s.func f).cqs = some q) (hfull : q.full = false)
    (hheld : q.held = []) (h : s.Posts) : s.out ++ [s.cqeOut f cqid q e] <+: (s.postEntry f cqid e).out := by
  unfold State.postEntry
  rw [hq]
  dsimp only
  rw [hfull, hheld, if_neg (by decide)]
  obtain ⟨hp, ho, hc⟩ := State.posts_digest h 0 (s.cqeOut f cqid q e)
  rw [← hc, ← ho]
  exact State.out_putCqe hp

end

end Sys2Proof.Machine
end

section
-- One proof at a time: as many threads as there are lemmas here do not fit beside the model.
set_option Elab.async false
open Sys2Proof Sys2Proof.Machine

/-- Settles O39. -/
theorem commandEnds : Obligations.CommandEnds := by
  unfold Obligations.CommandEnds
  intro s c r f q p ht hd hq hp
  have hfin := s.finish_eq c r ht hd
  have hend := s.ending_records c r
  have hfe : (s.ending c r).func f = s.func f := State.func_of_records hend f
  rw [(s.ending c r).postCqe_eq f c r (q := q) (by rw [hfe, hq])] at hfin
  obtain ⟨s1, hs1⟩ : ∃ s1, s1 = (s.ending c r).setFunc f
      { (s.ending c r).func f with sqs := tput c.sqid { q with next := q.next + 1 } ((s.ending c r).func f).sqs } := ⟨_, rfl⟩
  have hfunc : s1.func f = { s.func f with sqs := tput c.sqid { q with next := q.next + 1 } (s.func f).sqs } := by
    rw [hs1, State.func_setFunc, hfe]
  have hctx : s1.ctx c.stamp = none := by rw [hs1, State.ctx_setFunc, State.ctx_of_records hend, State.ctx_release]
  have hkeep := s.ending_keeps c r
  have hout : s1.out = s.out := by
    rw [hs1]
    exact hkeep.out_eq
  have hp1 : tget q.cqid (s1.func f).cqs = some p := by rw [hfunc, hp]
  rw [← hs1] at hfin
  rw [hfin]
  have hrec := s1.records_postEntry
    { sqid := c.sqid, sqhd := q.head, cid := c.cid, dw0 := r.dw0, dw1 := (s.ending c r).dw1Of c.tenant c.sqid q.next r.dw1, sct := r.sct, sc := r.sc } hp1
  refine ⟨?_, ?_, fun hfull => ⟨?_, ?_⟩, fun hfull hheld => ⟨?_, fun hsend hj hf hl => ?_⟩⟩
  · rw [State.ctx_of_records hrec, State.setCq, State.ctx_setFunc, hctx]
  · rw [State.func_of_records hrec, State.sqs_setCq, hfunc]
    exact tget_tput_self _ _ _
  · rw [State.out_postEntry_held _ hp1 hfull, hout]
  · rw [State.func_of_records hrec, State.cqs_setCq, if_pos]
    · simp
    · rcases hfull with h | h
      · rw [h]
        rfl
      · rw [Bool.or_eq_true, Bool.not_eq_true', List.isEmpty_eq_false_iff]
        exact .inr h
  · rw [State.func_of_records hrec, State.cqs_setCq, hfull, hheld, if_neg (by decide)]
  · have hdw : (s.ending c r).dw1Of c.tenant c.sqid q.next r.dw1 = s.dw1Of c.tenant c.sqid q.next r.dw1 := s.dw1Of_ending c r ..
    have hcqe : s1.cqeOut = s.cqeOut := by
      rw [hs1]
      exact (s.ending c r).cqeOut_setFunc f _ |>.trans (Keeps.cqeOut hkeep)
    have hposts : s1.Posts := by
      have h : (s.ending c r).Posts := Keeps.posts hkeep ⟨hsend, hd, hj, hf, hl⟩
      rw [hs1]
      exact h
    rw [← hdw, ← hcqe, ← hout]
    exact State.out_postEntry_room hp1 hfull hheld hposts
end

section
-- One proof at a time: as many threads as there are lemmas here do not fit beside the model.
set_option Elab.async false
namespace Sys2Proof.Machine

/-- The host interface without what the end of a command touches: records, commands in flight, messages and errors. -/
def State.hifRest (s : State) : Hif :=
  { s.hif with funcs := [], ctxs := [], msixPend := [], coal := [], err := [], errCount := 0 }

theorem Keeps.hifRest {F : Foot} {s t : State} (h : Keeps F s t) (hp : F.parts.contains .hif = false := by decide +kernel) :
    Same State.hifRest s t := by
  show State.hifRest t = State.hifRest s
  rw [State.hifRest, h.hif_eq hp, State.hifRest]

/-- The commands in flight. -/
def State.flying (s : State) : List Ctx := s.hif.ctxs

theorem Keeps.flying {F : Foot} {s t : State} (h : Keeps F s t) (hp : F.parts.contains .hif = false := by decide +kernel) :
    Same State.flying s t := congrArg Hif.ctxs (h.hif_eq hp)

theorem State.hifRest_setFunc (s : State) (f : Nat) (v : Func) : Same State.hifRest s (s.setFunc f v) := by
  unfold State.setFunc
  exact .update (.refl _) rfl

theorem State.hifRest_sendMsix (s : State) (f : Nat) (v : Nat) : Same State.hifRest s (s.sendMsix f v) := by
  unfold State.sendMsix
  exact .ite (fun _ => .ite (fun _ => .refl _) fun _ => .update (.refl _) rfl) fun _ => .ite
    (fun _ => (State.keeps_raise _ _).hifRest) fun _ => (State.keeps_send _ _).hifRest

theorem State.hifRest_coalSend (s : State) (f : Nat) (v : Nat) : Same State.hifRest s (s.coalSend f v) := by
  unfold State.coalSend
  exact .after (State.hifRest_sendMsix _ _ _) (.update (.refl _) rfl)

theorem State.hifRest_interrupt (s : State) (f : Nat) (cqid : Nat) (v : Nat) : Same State.hifRest s (s.interrupt f cqid v) := by
  unfold State.interrupt
  exact .ite (fun _ => State.hifRest_coalSend _ _ _) fun _ => .update (.refl _) rfl

theorem State.hifRest_putCqe (s : State) (f : Nat) (cqid : Nat) (q : Cq) (e : CqEntry) : Same State.hifRest s (s.putCqe f cqid q e) := by
  unfold State.putCqe
  exact .after (.after (.ite (fun _ => State.hifRest_interrupt _ _ _ _) fun _ => .refl _) ((State.keeps_emitQuiet _ _).hifRest))
    (State.hifRest_setFunc _ _ _)

theorem State.hifRest_postEntry (s : State) (f : Nat) (cqid : Nat) (e : CqEntry) : Same State.hifRest s (s.postEntry f cqid e) := by
  unfold State.postEntry
  split
  · exact .refl _
  · exact .after (.ite (fun _ => State.hifRest_setFunc _ _ _) fun _ => State.hifRest_putCqe _ _ _ _ _) ((State.keeps_digest _ _ _).hifRest)

theorem State.hifRest_postCqe (s : State) (f : Nat) (c : Ctx) (r : Cpl) : Same State.hifRest s (s.postCqe f c r) := by
  unfold State.postCqe
  split
  · exact .refl _
  · exact .after (State.hifRest_postEntry _ _ _ _) (State.hifRest_setFunc _ _ _)

theorem State.hifRest_errPut (s : State) (e : ErrEntry) : Same State.hifRest s (s.errPut e) := by
  unfold State.errPut
  exact .update (.refl _) rfl

theorem State.hifRest_logError (s : State) (c : Ctx) (r : Cpl) : Same State.hifRest s (s.logError c r) := by
  unfold State.logError
  exact .ite (fun _ => .refl _) fun _ => State.hifRest_errPut _ _

theorem State.hifRest_release (s : State) (stamp : BitVec 64) : Same State.hifRest s (s.release stamp) := by
  unfold State.release
  exact .update (.refl _) rfl

theorem State.hifRest_finish (s : State) (c : Ctx) (r : Cpl) : Same State.hifRest s (s.finish c r) := by
  unfold State.finish
  split
  · exact .refl _
  · extract_lets +onlyGivenNames s1
    have hs1 : Same State.hifRest s s1 := .after (State.hifRest_logError _ _ _) (.after ((State.keeps_tallyLat _ _).hifRest)
      (State.hifRest_release _ _))
    split
    · exact .after (State.hifRest_postCqe _ _ _ _) hs1
    · exact .after ((State.keeps_postCapsule _ _ _).hifRest) hs1

theorem State.hifRest_succeed (s : State) (c : Ctx) (dw0 : BitVec 32) : Same State.hifRest s (s.succeed c dw0) := by
  unfold State.succeed
  exact State.hifRest_finish _ _ _

theorem State.flying_setFunc (s : State) (f : Nat) (v : Func) : Same State.flying s (s.setFunc f v) := by
  unfold State.setFunc
  exact .update (.refl _) rfl

theorem State.flying_sendMsix (s : State) (f : Nat) (v : Nat) : Same State.flying s (s.sendMsix f v) := by
  unfold State.sendMsix
  exact .ite (fun _ => .ite (fun _ => .refl _) fun _ => .update (.refl _) rfl) fun _ => .ite
    (fun _ => (State.keeps_raise _ _).flying) fun _ => (State.keeps_send _ _).flying

theorem State.flying_coalSend (s : State) (f : Nat) (v : Nat) : Same State.flying s (s.coalSend f v) := by
  unfold State.coalSend
  exact .after (State.flying_sendMsix _ _ _) (.update (.refl _) rfl)

theorem State.flying_interrupt (s : State) (f : Nat) (cqid : Nat) (v : Nat) : Same State.flying s (s.interrupt f cqid v) := by
  unfold State.interrupt
  exact .ite (fun _ => State.flying_coalSend _ _ _) fun _ => .update (.refl _) rfl

theorem State.flying_putCqe (s : State) (f : Nat) (cqid : Nat) (q : Cq) (e : CqEntry) : Same State.flying s (s.putCqe f cqid q e) := by
  unfold State.putCqe
  exact .after (.after (.ite (fun _ => State.flying_interrupt _ _ _ _) fun _ => .refl _) ((State.keeps_emitQuiet _ _).flying))
    (State.flying_setFunc _ _ _)

theorem State.flying_postEntry (s : State) (f : Nat) (cqid : Nat) (e : CqEntry) : Same State.flying s (s.postEntry f cqid e) := by
  unfold State.postEntry
  split
  · exact .refl _
  · exact .after (.ite (fun _ => State.flying_setFunc _ _ _) fun _ => State.flying_putCqe _ _ _ _ _) ((State.keeps_digest _ _ _).flying)

theorem State.flying_postCqe (s : State) (f : Nat) (c : Ctx) (r : Cpl) : Same State.flying s (s.postCqe f c r) := by
  unfold State.postCqe
  split
  · exact .refl _
  · exact .after (State.flying_postEntry _ _ _ _) (State.flying_setFunc _ _ _)

section
variable {s t : State}

/-- What the end of a command leaves in flight: every other command. -/
theorem State.ctxs_finish (c : Ctx) (r : Cpl) (hd : s.pow.dumping = false) :
    (s.finish c r).hif.ctxs = s.hif.ctxs.filter fun x => x.stamp != c.stamp := by
  have h1 : Same State.flying (s.release c.stamp) (s.ending c r) := congrArg Prod.snd (s.ending_records c r)
  unfold State.finish
  rw [hd, if_neg Bool.false_ne_true]
  show (match c.tenant with
    | .func f => (s.ending c r).postCqe f c r
    | .assoc _ => (s.ending c r).postCapsule c r).hif.ctxs = _
  split
  · exact h1.trans (State.flying_postCqe _ _ _ _)
  · exact h1.trans (State.keeps_postCapsule _ _ _).flying

theorem State.ctx_finish (c : Ctx) (r : Cpl) (hd : s.pow.dumping = false) : (s.finish c r).ctx c.stamp = none := by
  rw [State.ctx, State.ctxs_finish c r hd]
  exact State.ctx_release s c.stamp

/-- The context of a stamp that is found has the stamp. -/
theorem State.stamp_of_ctx {t : BitVec 64} {c : Ctx} (h : s.ctx t = some c) : c.stamp = t := by
  simpa using List.find?_some h

/-- A fetched command whose row ends with `g`. -/
theorem givesThen_of_fetched {t : BitVec 64} {c : Ctx} {i : Instr} {f : Ctx → State → State} {g : State → State} {u : State} {P : State → Prop}
    (h : s.Fetched t c) (e : exec i s = s.awake (.next (withCtx t f s))) (hf : f c s = g u) (hP : P u) : GivesThen g i s P :=
  ⟨u, (exec_of_fetched h e).trans (congrArg Host.Outcome.next hf), hP⟩

theorem gives_of_fetched {t : BitVec 64} {c : Ctx} {i : Instr} {f : Ctx → State → State} {P : State → Prop} (h : s.Fetched t c)
    (e : exec i s = s.awake (.next (withCtx t f s))) (hP : P (f c s)) : Gives i s P := ⟨_, exec_of_fetched h e, hP⟩

/-! ### Features (R48) -/

theorem State.ctl_setCtl (s : State) (t : Tenant) (v : Func) : (s.setCtl t v).ctl t = v := by
  cases t with
  | func f => exact tgetD_tput_self _ _ _ _
  | assoc a =>
    show (tgetD a ({} : Assoc) (tput a _ _)).ctl = v
    rw [tgetD_tput_self]

/-- The clock that a host sets: device time, and a new epoch where it goes back (R311). -/
theorem State.setClock_ends (s : State) (ms : Nat) : (s.setClock ms).dtime = BitVec.ofNat 64 (ms % 2 ^ 48 * 1000) ∧
    (s.setClock ms).pow.synch = false ∧ (s.setClock ms).epoch = if ms % 2 ^ 48 * 1000 < s.dtime.toNat then s.epoch + 1 else s.epoch := by
  unfold State.setClock
  extract_lets n old pow0 s1 e step conv0 s2
  split
  next hlt =>
    have hk := fun u : State => State.keeps_logSys u { typ := 5, arg := step }
    rw [(hk s2).dtime_eq, (hk s2).pow_eq]
    exact ⟨rfl, rfl, (hk s2).same .epoch rfl⟩
  next hlt => exact ⟨rfl, rfl, rfl⟩

/-- The queues granted to a function without I/O queues (R38). -/
theorem State.grantQueues_free (s : State) (c : Ctx) {f nsq ncq : Nat} (ht : c.tenant = .func f) (hsq : (s.func f).sqs.length ≤ 1)
    (hcq : (s.func f).cqs.length ≤ 1) (h1 : nsq < 65535) (h2 : ncq < 65535) :
    s.grantQueues c (BitVec.ofNat 32 (nsq + 65536 * ncq)) =
      (s.setCtl c.tenant { s.ctl c.tenant with
        granted := some (min nsq (s.queueLimit c.tenant - 1) + 65536 * min ncq (s.queueLimit c.tenant - 1)) }).succeed c
        (BitVec.ofNat 32 (min nsq (s.queueLimit c.tenant - 1) + 65536 * min ncq (s.queueLimit c.tenant - 1))) := by
  have hv : (BitVec.ofNat 32 (nsq + 65536 * ncq)).toNat = nsq + 65536 * ncq := by
    rw [BitVec.toNat_ofNat]
    omega
  have hlo : (nsq + 65536 * ncq) % 65536 = nsq := by omega
  have hhi : (nsq + 65536 * ncq) / 65536 = ncq := by omega
  unfold State.grantQueues
  rw [hv, hlo, hhi, ht]
  dsimp only
  rw [if_neg (by simp; omega), if_neg (by omega)]

/-! ### NVMe-MI Receive (R466) -/

theorem State.ctx_setWait (s : State) (t : BitVec 64) (w : Wait) : (s.setWait t w).ctx t = (s.ctx t).map fun c => { c with wait := w } := by
  have hp : ∀ c : Ctx, (if c.stamp = t then { c with wait := w } else c).stamp = c.stamp := fun c => by
    split
    · rfl
    · rfl
  have hf : (s.setWait t w).ctx t = (s.hif.ctxs.find? fun c => c.stamp == t).map fun c => if c.stamp = t then { c with wait := w } else c := by
    show (s.hif.ctxs.map _).find? _ = _
    rw [List.find?_map]
    simp only [Function.comp_def, hp]
  rw [hf]
  cases hc : s.hif.ctxs.find? fun c => c.stamp == t with
  | none => simp [State.ctx, hc]
  | some c =>
    have hst : c.stamp = t := by simpa using List.find?_some hc
    simp [State.ctx, hc, hst]

/-- A Receive command waits on its channel. -/
def State.receiving (s : State) (t : BitVec 64) : State := { s with hif := { s.hif with miPending := s.hif.miPending ++ [t] } }.setWait t .mi

theorem State.ctx_receiving (s : State) (t : BitVec 64) : (s.receiving t).ctx t = (s.ctx t).map fun c => { c with wait := .mi } :=
  State.ctx_setWait { s with hif := { s.hif with miPending := s.hif.miPending ++ [t] } } t .mi

/-- The response is given to the command that waits alone. -/
theorem State.giveMi_alone {t : BitVec 64} {c : Ctx} {f : Nat} (hc : s.ctx t = some c) (ht : c.tenant = .func f) (hp : s.hif.miPending = [])
    (hd : s.pow.dumping = false) : (s.receiving t).giveMi.hif.miPending = [] ∧ (s.receiving t).giveMi.ctx t = none := by
  have hm : (s.receiving t).hif.miPending = [t] := by
    show s.hif.miPending ++ [t] = [t]
    rw [hp]
    rfl
  have hx : (s.receiving t).ctx t = some { c with wait := .mi } := by rw [State.ctx_receiving, hc]; rfl
  have hdump : (s.receiving t).pow.dumping = false := hd
  generalize s.receiving t = r at hm hx hdump
  have hst : c.stamp = t := State.stamp_of_ctx (c := { c with wait := .mi }) hx
  unfold State.giveMi
  rw [hm]
  dsimp only
  have hx' : { r with hif := { r.hif with miPending := [] } }.ctx t = some { c with wait := .mi } := hx
  rw [hx']
  dsimp only
  rw [ht]
  dsimp only
  generalize hy : { r with hif := { r.hif with miPending := [] } } = y
  have hy1 : y.hif.miPending = [] := by rw [← hy]
  have hy2 : y.pow.dumping = false := by rw [← hy]; exact hdump
  have hk := State.keeps_emit y (.hostData f c.cid (y.rspBytes 7))
  have hd' : (y.emit (.hostData f c.cid (y.rspBytes 7))).pow.dumping = false := by rw [hk.pow_eq, hy2]
  have hh : (y.emit (.hostData f c.cid (y.rspBytes 7))).hif.miPending = [] := by rw [hk.hif_eq, hy1]
  generalize y.emit (.hostData f c.cid (y.rspBytes 7)) = z at hd' hh
  generalize hc' : { c with wait := .mi, tenant := .func f } = c'
  have hst' : c'.stamp = t := by rw [← hc', ← hst]
  refine ⟨?_, ?_⟩
  · have hq : (z.succeed c').hifRest = z.hifRest := State.hifRest_succeed z c' 0
    have hr : (z.succeed c').hifRest.miPending = z.hifRest.miPending := congrArg Hif.miPending hq
    exact hr.trans hh
  · rw [← hst']
    exact State.ctx_finish (s := z) c' { dw0 := 0 } hd'

end

end Sys2Proof.Machine
end

section
-- One proof at a time: as many threads as there are lemmas here do not fit beside the model.
set_option Elab.async false
open Sys2Proof Sys2Proof.Machine

/-- Settles O43. -/
theorem featureCommands : Obligations.FeatureCommands := by
  unfold Obligations.FeatureCommands
  intro s t c h
  have hst : c.stamp = t := State.stamp_of_ctx h.2.1
  refine ⟨fun v ts => ?_, fun fid v ts hf => ?_, fun v ts => ?_, fun f nsq ncq ts ht hsq hcq h1 h2 => ?_, fun fid v ts hf => ⟨?_, ?_⟩,
    fun fid v hf h0 => ?_, fun v => ?_, fun o m ho hb => ?_, fun o ho hr => ?_, fun o ho hr hp hd => ?_, fun o m ho => ⟨?_, ?_⟩⟩
  · exact givesThen_of_fetched (u := s.setCtl c.tenant { s.ctl c.tenant with aecOn := v }) h rfl rfl
      (congrArg Func.aecOn (State.ctl_setCtl s c.tenant { s.ctl c.tenant with aecOn := v }))
  · refine givesThen_of_fetched (u := s.setCtl c.tenant { s.ctl c.tenant with feat := tput (featKey fid v) v (s.ctl c.tenant).feat }) h rfl ?_ ?_
    · simp only [List.mem_cons, List.not_mem_nil, or_false] at hf
      rcases hf with rfl | rfl | rfl | rfl
      · rfl
      · rfl
      · rfl
      · rfl
    · rw [congrArg Func.feat (State.ctl_setCtl s c.tenant { s.ctl c.tenant with feat := tput (featKey fid v) v (s.ctl c.tenant).feat })]
      exact tget_tput_self _ _ _
  · exact givesThen_of_fetched (u := s.setClock ts.toNat) h rfl rfl (s.setClock_ends ts.toNat)
  · refine givesThen_of_fetched (u := s.setCtl c.tenant { s.ctl c.tenant with granted := some (min nsq (s.queueLimit c.tenant - 1) + 65536 * min ncq (s.queueLimit c.tenant - 1)) }) h rfl ?_
      (congrArg Func.granted (State.ctl_setCtl s c.tenant _))
    exact s.grantQueues_free c ht hsq hcq h1 h2
  · exact (exec_of_fetched h rfl).trans (congrArg Host.Outcome.next (if_pos (by rw [hf]; rfl)))
  · exact (exec_of_fetched h rfl).trans (congrArg Host.Outcome.next (if_pos (by rw [hf]; rfl)))
  · exact (exec_of_fetched h rfl).trans (congrArg Host.Outcome.next ((if_neg (by rw [hf]; decide)).trans (if_neg h0)))
  · exact (exec_of_fetched h rfl).trans (congrArg Host.Outcome.next ((if_neg (by decide)).trans (if_pos rfl)))
  · obtain ⟨h1, -, h3⟩ := State.mailGo_free (s := s) (m := { m with chan := 7 }) hb
    exact givesThen_of_fetched (u := s.mailGo { m with chan := 7 }) h rfl (if_pos ho) ⟨h1, h3⟩
  · refine gives_of_fetched h rfl ?_
    rw [hst, ho, if_neg (by decide)]
    have hr' : (s.receiving t).on F.MBX_CSR.RDY 7 = false := State.on_of_get_zero (s := s.receiving t) hr
    show let u := if (s.receiving t).on F.MBX_CSR.RDY 7 then (s.receiving t).giveMi else s.receiving t
      u.hif.miPending = s.hif.miPending ++ [t] ∧ (u.ctx t).map (fun x => x.wait) = some .mi
    rw [hr', if_neg Bool.false_ne_true]
    refine ⟨rfl, ?_⟩
    have hx : (s.receiving t).ctx t = (some c).map fun c => { c with wait := .mi } := by rw [State.ctx_receiving, h.2.1]
    rw [hx]
    rfl
  · obtain ⟨f, ht⟩ : ∃ f, c.tenant = .func f := by
      cases hc : c.tenant with
      | func f => exact ⟨f, rfl⟩
      | assoc a => simp [State.miOk, hc] at ho
    refine gives_of_fetched h rfl ?_
    rw [hst, ho, if_neg (by decide)]
    have hr' : (s.receiving t).on F.MBX_CSR.RDY 7 = true := State.on_of_get_one (s := s.receiving t) hr
    show let u := if (s.receiving t).on F.MBX_CSR.RDY 7 then (s.receiving t).giveMi else s.receiving t
      u.hif.miPending = [] ∧ u.ctx t = none
    rw [hr', if_pos rfl]
    exact State.giveMi_alone h.2.1 ht hp hd
  · exact (exec_of_fetched h rfl).trans (congrArg Host.Outcome.next (if_neg (by rw [ho]; exact Bool.false_ne_true)))
  · exact (exec_of_fetched h rfl).trans (congrArg Host.Outcome.next (if_pos (by rw [ho]; rfl)))
end

section
-- One proof at a time: as many threads as there are lemmas here do not fit beside the model.
set_option Elab.async false
namespace Sys2Proof.Machine

section
variable {s : State}

/-! ### Doorbells (R37) -/

/-- Without a queue that waits for its deletion, the end of its commands changes nothing. -/
theorem State.deletes_none (h : ∀ c ∈ s.hif.ctxs, ∀ k, c.wait ≠ .sqDrain k) : s.deletes = s := by
  have hone : ∀ c ∈ s.hif.ctxs, s.deleteOne c = s := fun c hc => by
    unfold State.deleteOne
    split
    next k f hw ht => exact absurd hw (h c hc k)
    next => rfl
  have hfold : ∀ l : List Ctx, (∀ c ∈ l, s.deleteOne c = s) → l.foldl State.deleteOne s = s := fun l => by
    induction l with
    | nil => exact fun _ => rfl
    | cons c l ih =>
      intro hl
      rw [List.foldl_cons, hl c List.mem_cons_self]
      exact ih fun d hd => hl d (List.mem_cons_of_mem c hd)
  exact hfold _ hone

theorem doorbellEntry_len (f qid val : Nat) : (doorbellEntry f qid val).len ≤ 256 := by
  simp [doorbellEntry, LEntry.len, LEntry.payloadBytes, entryWidths, packFields, padTo, length_leBytes]

theorem State.tailDoorbell_unready {f qid val : Nat} (h : s.get F.CSTS.RDY f = 0) : s.tailDoorbell f qid val = s := by
  unfold State.tailDoorbell
  rw [State.ready, State.on_of_get_zero h]
  rfl

theorem State.headDoorbell_unready {f qid val : Nat} (h : s.get F.CSTS.RDY f = 0) : s.headDoorbell f qid val = s := by
  unfold State.headDoorbell
  rw [State.ready, State.on_of_get_zero h]
  rfl

theorem State.tailDoorbell_ready {f qid val : Nat} (h : s.get F.CSTS.RDY f = 1) : s.tailDoorbell f qid val =
    match tget qid (s.func f).sqs with
    | none => s.badDoorbell f
    | some q =>
      if q.size ≤ val then s.badDoorbell f
      else if s.isTrail then { s with twn := { s.twn with ringDoorbells := s.twn.ringDoorbells ++ [(f, qid, val)] } }
      else s.capture (doorbellEntry f qid val) (State.setTail f qid val) := by
  unfold State.tailDoorbell
  rw [State.ready, State.on_of_get_one h]
  rfl

theorem State.headDoorbell_ready {f qid val : Nat} (h : s.get F.CSTS.RDY f = 1) : s.headDoorbell f qid val =
    match tget qid (s.func f).cqs with
    | none => s.badDoorbell f
    | some q =>
      if q.size ≤ val then s.badDoorbell f
      else ((s.setCq f qid { q with head := val }).drainCq f qid q.held.length).deletes := by
  unfold State.headDoorbell
  rw [State.ready, State.on_of_get_one h]
  rfl

theorem State.tailDoorbell_open {f qid val : Nat} {q : Sq} (hr : s.get F.CSTS.RDY f = 1) (hq : tget qid (s.func f).sqs = some q)
    (hv : val < q.size) (ho : s.Open) : tget qid ((s.tailDoorbell f qid val).func f).sqs = some { q with tail := val } := by
  obtain ⟨t, hk, ht⟩ := State.capture_open ho (doorbellEntry f qid val) (State.setTail f qid val) (doorbellEntry_len ..)
  have hf : t.func f = s.func f := State.func_of_records hk.records f
  rw [State.tailDoorbell_ready hr, hq]
  dsimp only
  rw [if_neg (by omega), ho.1, if_neg (by decide), ht]
  unfold State.setTail
  rw [hf, hq]
  dsimp only
  rw [State.func_of_records (State.keeps_raise _ _).records, State.func_setFunc]
  exact tget_tput_self _ _ _

theorem State.headDoorbell_free {f qid val : Nat} {q : Cq} (hr : s.get F.CSTS.RDY f = 1) (hq : tget qid (s.func f).cqs = some q)
    (hv : val < q.size) (hh : q.held = []) (hd : ∀ c ∈ s.hif.ctxs, ∀ k, c.wait ≠ .sqDrain k) :
    s.headDoorbell f qid val = s.setCq f qid { q with head := val } := by
  have hz : (s.setCq f qid { q with head := val }).drainCq f qid q.held.length = s.setCq f qid { q with head := val } := by
    rw [hh]
    rfl
  rw [State.headDoorbell_ready hr, hq]
  dsimp only
  rw [if_neg (by omega), hz]
  exact State.deletes_none hd

/-! ### Fetching (R42) -/

/-- The context that a fetched command takes. -/
def State.newCtx (s : State) (t : Tenant) (sqid : Nat) (admin : Bool) (cid : BitVec 16) (opcode : BitVec 8) (nsid : Nat) : Ctx :=
  { stamp := s.hif.nextStamp, slot := s.freeSlot s.hif.ctxs.length 0, tenant := t, sqid := sqid, cid := cid
    opcode := opcode, admin := admin, nsid := nsid, t0 := s.elapsed, wait := .dispatch }

theorem State.hif_takeCtx (s : State) (t : Tenant) (sqid : Nat) (admin : Bool) (cid : BitVec 16) (opcode : BitVec 8) (nsid : Nat) :
    (s.takeCtx t sqid admin cid opcode nsid).hif =
      { s.hif with ctxs := s.hif.ctxs ++ [s.newCtx t sqid admin cid opcode nsid], nextStamp := s.hif.nextStamp + 1 } := by
  unfold State.takeCtx
  extract_lets c hif0 s1 s2 s3 s4 floor
  have h2 : s2.hif = s1.hif := (State.keeps_pmc s1 _ _ _).hif_eq
  have h3 : s3.hif = s2.hif := (State.keeps_pmc s2 _ _ _).hif_eq
  have h4 : s4.hif = s3.hif := by
    show (if _ then s3.raise 183 else s3).hif = s3.hif
    split
    · exact (State.keeps_raise s3 _).hif_eq
    · rfl
  have h5 : ∀ b : Bool, (if b then s4.raise 200 else s4).hif = s4.hif := fun b => by
    split
    · exact (State.keeps_raise s4 _).hif_eq
    · rfl
  rw [h5, h4, h3, h2]
  rfl

theorem State.func_takeCtx (s : State) (t : Tenant) (sqid : Nat) (admin : Bool) (cid : BitVec 16) (opcode : BitVec 8) (nsid : Nat) (f : Nat) :
    (s.takeCtx t sqid admin cid opcode nsid).func f = s.func f := by
  rw [State.func, State.hif_takeCtx, State.func]

/-- A stamp that is free stands for the new context. -/
theorem State.ctx_takeCtx (t : Tenant) (sqid : Nat) (admin : Bool) (cid : BitVec 16) (opcode : BitVec 8) (nsid : Nat)
    (h : s.ctx s.hif.nextStamp = none) :
    (s.takeCtx t sqid admin cid opcode nsid).ctx s.hif.nextStamp = some (s.newCtx t sqid admin cid opcode nsid) := by
  have h' : s.hif.ctxs.find? (fun c => c.stamp == s.hif.nextStamp) = none := h
  rw [State.ctx, State.hif_takeCtx]
  show (s.hif.ctxs ++ [_]).find? _ = _
  rw [List.find?_append, h']
  simp [State.newCtx]

/-- The state in which the fetched command has its context, and its queue its new head. -/
def State.fetched (s : State) (f qid : Nat) (q : Sq) (cid : BitVec 16) (opcode : BitVec 8) (nsid : Nat) : State :=
  let r := (s.takeTurn f).emit (.hostRead f (q.base.toNat + 64 * q.head) 64)
  let v := (r.func f).servedQ (r.wrrOn f) qid q.prio
  (r.setFunc f { v with sqs := tput qid { q with head := (q.head + 1) % q.size } v.sqs }).takeCtx (.func f) qid (qid == 0) cid opcode nsid

/-- What a fetch leaves as it is. -/
def Foot.fetched : Foot :=
  ⟨[.CIC_SRC_STAT, .PKP_CRED, .PMC_CNT, .PMC_CTL], [.cic, .evt, .out, .packs, .twn, .hif]⟩

theorem State.keeps_fetched (s : State) (f qid : Nat) (q : Sq) (cid : BitVec 16) (opcode : BitVec 8) (nsid : Nat) :
    Keeps .fetched s (s.fetched f qid q cid opcode nsid) := by
  unfold State.fetched
  extract_lets r v
  exact .after (State.keeps_takeCtx _ _ _ _ _ _ _).up (.update (.after (State.keeps_emit _ _).up (State.keeps_takeTurn _ _).up) rfl)

theorem State.flying_takeTurn (s : State) (f : Nat) : (s.takeTurn f).hif.ctxs = s.hif.ctxs ∧ (s.takeTurn f).hif.nextStamp = s.hif.nextStamp := by
  unfold State.takeTurn
  split
  · exact ⟨rfl, rfl⟩
  · exact ⟨rfl, rfl⟩

theorem State.fetched_ends {f qid : Nat} {q : Sq} (cid : BitVec 16) (opcode : BitVec 8) (nsid : Nat) (hfree : s.ctx s.hif.nextStamp = none) :
    (s.fetched f qid q cid opcode nsid).hif.nextStamp = s.hif.nextStamp + 1 ∧
      tget qid ((s.fetched f qid q cid opcode nsid).func f).sqs = some { q with head := (q.head + 1) % q.size } ∧
      ∃ c : Ctx, (s.fetched f qid q cid opcode nsid).ctx s.hif.nextStamp = some c ∧ c.stamp = s.hif.nextStamp ∧ c.wait = .dispatch ∧
        c.tenant = .func f ∧ c.sqid = qid ∧ c.cid = cid ∧ c.opcode = opcode ∧ c.nsid = nsid ∧ c.admin = (qid == 0) := by
  unfold State.fetched
  extract_lets r v
  have hr : r.hif = (s.takeTurn f).hif := (State.keeps_emit _ _).hif_eq
  have hx : r.hif.ctxs = s.hif.ctxs := by rw [hr]; exact (s.flying_takeTurn f).1
  have hn : r.hif.nextStamp = s.hif.nextStamp := by rw [hr]; exact (s.flying_takeTurn f).2
  generalize hw : ({ v with sqs := tput qid { q with head := (q.head + 1) % q.size } v.sqs } : Func) = w
  have hwq : tget qid w.sqs = some { q with head := (q.head + 1) % q.size } := by rw [← hw]; exact tget_tput_self _ _ _
  have hg : (r.setFunc f w).func f = w := State.func_setFunc _ _ _
  have hgn : (r.setFunc f w).hif.nextStamp = s.hif.nextStamp := hn
  have hgc : (r.setFunc f w).ctx (r.setFunc f w).hif.nextStamp = none := by
    rw [hgn, State.ctx]
    show r.hif.ctxs.find? _ = none
    rw [hx]
    exact hfree
  generalize r.setFunc f w = z at hg hgn hgc
  refine ⟨?_, ?_, z.newCtx (.func f) qid (qid == 0) cid opcode nsid, ?_, hgn, rfl, rfl, rfl, rfl, rfl, rfl, rfl⟩
  · rw [State.hif_takeCtx, ← hgn]
  · rw [State.func_takeCtx, hg, hwq]
  · rw [← hgn]
    exact State.ctx_takeCtx _ _ _ _ _ _ hgc

theorem State.turn_iff {f qid : Nat} :
    s.queueTurn f qid = true ↔ s.nextTurn = some f ∧ (s.func f).nextQueue (s.wrrOn f) = some qid := by
  simp [State.queueTurn]

/-- Out of its turn, or with nothing to fetch, a queue is left as it is. -/
theorem State.execFetch_idle {f : Fin 66} {qid : Nat} {q : Sq} {cid : BitVec 16} {op : SqeHead} {nsid : Nat} (hs : s.Runs)
    (hq : tget qid (s.func f).sqs = some q) (h : q.head = q.tail ∨ s.queueTurn f qid = false) :
    exec (.commandFetch f qid cid op nsid) s = .next s := by
  have hidle : q.head = q.tail ∨ s.nextTurn ≠ some f.val ∨ (s.func f).nextQueue (s.wrrOn f) ≠ some qid := by
    rcases h with h | h
    · exact .inl h
    · have hn : ¬(s.nextTurn = some f.val ∧ (s.func f).nextQueue (s.wrrOn f) = some qid) := fun ht => by
        rw [State.turn_iff.2 ht] at h
        exact Bool.noConfusion h
      exact .inr (Decidable.not_and_iff_not_or_not.1 hn)
  show execCommandFetch f qid cid op nsid s = _
  unfold execCommandFetch
  rw [State.awake_of_runs _ hs, hq]
  exact congrArg Host.Outcome.next (if_pos hidle)

theorem State.execFetch_held {f : Fin 66} {qid : Nat} {q : Sq} {cid : BitVec 16} {op : SqeHead} {nsid : Nat} (hs : s.Runs)
    (hq : tget qid (s.func f).sqs = some q) (hne : q.head ≠ q.tail) (hturn : s.queueTurn f qid = true)
    (hheld : qid ≠ 0 ∧ s.writesHeld op.opcode = true) : exec (.commandFetch f qid cid op nsid) s =
      .next (((s.setFunc f { s.func f with lastQ := qid }).passTurn f).fabricTurns) := by
  obtain ⟨ht1, ht2⟩ := State.turn_iff.1 hturn
  have hgo : ¬(q.head = q.tail ∨ s.nextTurn ≠ some f.val ∨ (s.func f).nextQueue (s.wrrOn f) ≠ some qid) := by simp [hne, ht1, ht2]
  show execCommandFetch f qid cid op nsid s = _
  unfold execCommandFetch
  rw [State.awake_of_runs _ hs, hq]
  exact congrArg Host.Outcome.next ((if_neg hgo).trans (if_pos hheld))

theorem State.execFetch_taken {f : Fin 66} {qid : Nat} {q : Sq} {cid : BitVec 16} {op : SqeHead} {nsid : Nat} {c : Ctx} (hs : s.Runs)
    (hq : tget qid (s.func f).sqs = some q) (hne : q.head ≠ q.tail) (hm : s.mayFetch f qid op.opcode = true)
    (hc : (s.fetched f qid q cid op.opcode nsid).ctx s.hif.nextStamp = some c) :
    exec (.commandFetch f qid cid op nsid) s =
      .next (((s.fetched f qid q cid op.opcode nsid).fetchCheck c op.cdw10.toNat).fabricTurns) := by
  obtain ⟨hturn, hheld⟩ : s.queueTurn f qid = true ∧ ¬(qid ≠ 0 ∧ s.writesHeld op.opcode = true) := by
    simpa [State.mayFetch, imp_iff_not_or] using hm
  obtain ⟨ht1, ht2⟩ := State.turn_iff.1 hturn
  have hgo : ¬(q.head = q.tail ∨ s.nextTurn ≠ some f.val ∨ (s.func f).nextQueue (s.wrrOn f) ≠ some qid) := by simp [hne, ht1, ht2]
  have hstamp : ((s.takeTurn f).emit (.hostRead f (q.base.toNat + 64 * q.head) 64)).hif.nextStamp = s.hif.nextStamp := by
    rw [(State.keeps_emit _ _).hif_eq]
    exact (s.flying_takeTurn f).2
  show execCommandFetch f qid cid op nsid s = _
  unfold execCommandFetch
  rw [State.awake_of_runs _ hs, hq]
  refine congrArg Host.Outcome.next (((if_neg hgo).trans (if_neg hheld)).trans ?_)
  extract_lets r v z stamp u
  have hst : stamp = s.hif.nextStamp := hstamp
  have hu : u.ctx stamp = some c := by rw [hst]; exact hc
  rw [hu]
  rfl

/-! ### What ends a command at once (R46, R47) -/

theorem State.fetchCheck_passed {c : Ctx} {cdw10 : Nat} (hop : opcodeKnown c.admin c.opcode = true)
    (hact : c.admin = false ∨ actionOk c.opcode cdw10 = true) (hb : s.bootState ≠ 7) (ho : s.arb.outcast = false) : s.fetchCheck c cdw10 = s := by
  unfold State.fetchCheck
  rw [if_neg (by simp [hop, hb]), if_neg (by simp [ho]), if_neg]
  rcases hact with h | h
  · simp [h]
  · simp [h]

theorem State.fetchCheck_failed (s : State) {c : Ctx} {cdw10 : Nat}
    (h : opcodeKnown c.admin c.opcode = false ∨ (c.admin = true ∧ actionOk c.opcode cdw10 = false)) :
    ∃ r, s.fetchCheck c cdw10 = (s.unchargeAll c.stamp).finish c r := by
  unfold State.fetchCheck
  split
  · exact ⟨_, rfl⟩
  next h1 =>
    obtain ⟨hadm, hact⟩ : c.admin = true ∧ actionOk c.opcode cdw10 = false := h.resolve_left fun hop => h1 (by simp [hop])
    rw [if_neg (by simp [hadm]), if_pos (by simp [hadm, hact])]
    exact ⟨_, rfl⟩

end

end Sys2Proof.Machine
end

section
-- One proof at a time: as many threads as there are lemmas here do not fit beside the model.
set_option Elab.async false
open Sys2Proof Sys2Proof.Machine

/-- Settles O40. -/
theorem doorbellsAndFetch : Obligations.DoorbellsAndFetch := by
  unfold Obligations.DoorbellsAndFetch
  intro s f qid val hs
  have ht : exec (.sqTailDoorbell f qid val) s = .next (s.tailDoorbell f qid val) := exec_of_awake hs rfl
  have hh : exec (.cqHeadDoorbell f qid val) s = .next (s.headDoorbell f qid val) := exec_of_awake hs rfl
  refine ⟨fun h0 => ⟨?_, ?_⟩, fun h1 => ⟨fun hq => ?_, fun hq => ?_, fun q hq hv => ?_, fun q hq hv => ?_⟩, fun q h1 hq hv ho => ?_,
    fun q h1 hq hv htr => ?_, fun q h1 hq hv he hd => ?_, fun q cid op nsid hq hne hm hfree hop hact hb ho => ?_,
    fun q cid op nsid hq hor => ?_, fun q cid op nsid hq hne hturn hm => ?_, fun q cid op nsid hq hne hm hbad hd hfree => ?_⟩
  · rw [ht, State.tailDoorbell_unready h0]
  · rw [hh, State.headDoorbell_unready h0]
  · rw [ht, State.tailDoorbell_ready h1, hq]
  · rw [hh, State.headDoorbell_ready h1, hq]
  · rw [ht, State.tailDoorbell_ready h1, hq]
    exact congrArg Host.Outcome.next (if_pos hv)
  · rw [hh, State.headDoorbell_ready h1, hq]
    exact congrArg Host.Outcome.next (if_pos hv)
  · exact ⟨_, ht, State.tailDoorbell_open h1 hq hv ho⟩
  · rw [ht, State.tailDoorbell_ready h1, hq]
    exact congrArg Host.Outcome.next ((if_neg (by omega)).trans (if_pos htr))
  · rw [State.headDoorbell_free h1 hq hv he hd] at hh
    exact ⟨_, hh, State.cqs_setCq _ _ _ _, rfl⟩
  · obtain ⟨hn, hsq, c, hc, hst, hw, htn, hsqid, hcid, hopc, hns, hadm⟩ := s.fetched_ends (f := f) (qid := qid) (q := q) cid op.opcode nsid hfree
    have hk := s.keeps_fetched f qid q cid op.opcode nsid
    have hruns : (s.fetched f qid q cid op.opcode nsid).Runs := ⟨hk.inReset_eq.trans hs.1, (hk.on F.PMC_DBG_STAT.FROZEN 0).trans hs.2⟩
    refine ⟨s.fetched f qid q cid op.opcode nsid, ?_, hn, hsq, c, ⟨hruns, hc, hw⟩, htn, hsqid, hcid, hopc, hns⟩
    have hpass : (s.fetched f qid q cid op.opcode nsid).fetchCheck c op.cdw10.toNat = s.fetched f qid q cid op.opcode nsid := by
      refine State.fetchCheck_passed (by rw [hadm, hopc, hop]) ?_ ?_ ?_
      · rw [hadm, hopc]
        exact hact.imp_left fun h => by simpa using h
      · exact fun h => hb ((hk.get F.HIF_BOOTSTAT.STATE 0).symm.trans h)
      · exact (congrArg Arb.outcast hk.arb_eq).trans ho
    rw [State.execFetch_taken hs hq hne hm hc, hpass]
  · exact State.execFetch_idle hs hq hor
  · have hheld : qid ≠ 0 ∧ s.writesHeld op.opcode = true := by simpa [State.mayFetch, hturn] using hm
    refine ⟨_, State.execFetch_held hs hq hne hturn hheld, ?_, rfl, rfl, rfl⟩
    have hf : ((s.setFunc f { s.func f with lastQ := qid }).passTurn f).func f = { s.func f with lastQ := qid } := State.func_setFunc _ _ _
    rw [hf]
    exact hq
  · obtain ⟨hn, -, c, hc, hst, -, -, -, -, hopc, -, hadm⟩ := s.fetched_ends (f := f) (qid := qid) (q := q) cid op.opcode nsid hfree
    have hk := s.keeps_fetched f qid q cid op.opcode nsid
    have hex := State.execFetch_taken (op := op) (nsid := nsid) hs hq hne hm hc
    have hdump : (s.fetched f qid q cid op.opcode nsid).pow.dumping = false := (congrArg Pow.dumping hk.pow_eq).trans hd
    generalize s.fetched f qid q cid op.opcode nsid = w at hn hc hex hdump
    obtain ⟨r, hfail⟩ := w.fetchCheck_failed (c := c) (cdw10 := op.cdw10.toNat) (by
      rw [hadm, hopc]
      exact hbad.imp_right fun h => ⟨by simp [h.1], h.2⟩)
    rw [hfail] at hex
    have hkw := State.keeps_unchargeAll w c.stamp
    have hdw : (w.unchargeAll c.stamp).pow.dumping = false := (congrArg Pow.dumping hkw.pow_eq).trans hdump
    have hnw : (w.unchargeAll c.stamp).hif.nextStamp = s.hif.nextStamp + 1 := (congrArg Hif.nextStamp hkw.hif_eq).trans hn
    generalize w.unchargeAll c.stamp = x at hex hdw hnw
    have hq : (x.finish c r).hifRest = x.hifRest := State.hifRest_finish x c r
    have hns : (x.finish c r).hifRest.nextStamp = x.hifRest.nextStamp := congrArg Hif.nextStamp hq
    refine ⟨_, hex, hns.trans hnw, ?_⟩
    rw [← hst]
    exact State.ctx_finish c r hdw
end

section
-- One proof at a time: as many threads as there are lemmas here do not fit beside the model.
set_option Elab.async false
namespace Sys2Proof.Machine

section
variable {s t : State}

/-! ### The reset of a controller (R57) -/

/-- What tells which functions there are. -/
def State.enabling (s : State) : Straps × Tbl Nat × Tbl Bool := (s.straps, s.hif.numVfs, s.hif.vfEnable)

theorem Keeps.enabling {P : Foot} {s t : State} (h : Keeps P s t) (hs : P.parts.contains .straps = false := by decide +kernel)
    (hp : P.parts.contains .hif = false := by decide +kernel) : Same State.enabling s t := by
  show State.enabling t = State.enabling s
  rw [State.enabling, h.straps_eq hs, h.hif_eq hp, State.enabling]

theorem State.funcUp_of (h : Same State.enabling s t) (k : Nat) : t.funcUp k = s.funcUp k := by
  obtain ⟨hs, hn, hv⟩ : t.straps = s.straps ∧ t.hif.numVfs = s.hif.numVfs ∧ t.hif.vfEnable = s.hif.vfEnable :=
    ⟨congrArg (·.1) h, congrArg (·.2.1) h, congrArg (·.2.2) h⟩
  unfold State.funcUp
  rw [hs, hn, hv]

theorem State.fnPort_of (h : Same State.enabling s t) (k : Nat) : t.fnPort k = s.fnPort k := by
  unfold State.fnPort
  rw [show t.straps = s.straps from congrArg (·.1) h]

/-- The commands that are dropped go; nothing else of the interface changes. -/
theorem State.hif_dropTenant (s : State) (x : Tenant) : ∃ l, (s.dropTenant x).hif = { s.hif with ctxs := l } ∧ ∀ c ∈ l, c ∈ s.hif.ctxs := by
  have hfold : ∀ (d : List Ctx) (s : State), ∃ l, (d.foldl (fun s c => (s.giveBack c).release c.stamp) s).hif = { s.hif with ctxs := l } ∧
      ∀ c ∈ l, c ∈ s.hif.ctxs := fun d => by
    induction d with
    | nil => exact fun s => ⟨s.hif.ctxs, rfl, fun c hc => hc⟩
    | cons c d ih =>
      intro s
      obtain ⟨l, h1, h2⟩ := ih ((s.giveBack c).release c.stamp)
      have hk : (s.giveBack c).hif = s.hif := (State.keeps_giveBack s c).hif_eq
      refine ⟨l, h1.trans ?_, fun e he => ?_⟩
      · show ({ (s.giveBack c).hif with ctxs := l } : Hif) = _
        rw [hk]
      · have h3 : e ∈ (s.giveBack c).hif.ctxs.filter fun x => x.stamp != c.stamp := h2 e he
        rw [hk] at h3
        exact (List.mem_filter.mp h3).1
  exact hfold _ s

/-- What a reset of a function does once its commands are dropped, to all but its registers. -/
def State.forgetFunc (d : State) (f : Nat) : State :=
  { d with
    hif := { d.hif with
      funcs := tdel f d.hif.funcs
      shutdown := tdel f d.hif.shutdown
      coal := d.hif.coal.filter fun e => e.1 != f
      seqEnded := if d.on F.TWN_STAT.PAIRED then d.hif.seqEnded else d.hif.seqEnded ++ [Tenant.func f] }
    twn := { d.twn with held := d.twn.held.filter fun h => !h.o.ofFunc f } }

/-- The firmware download of a physical function ends with it (R442). -/
def State.dropDownload (s : State) (f : Nat) : State := if s.isPf f then { s with fw := { s.fw with stage := [], owner := none } } else s

theorem State.keeps_dropDownload (s : State) (f : Nat) : Keeps ⟨[], [.fw]⟩ s (s.dropDownload f) :=
  .ite (fun _ => .update (.refl s) rfl) fun _ => .refl s

/-- The registers that such a reset writes, of a controller whose download has been dropped. -/
def State.clearCtl (s : State) (f : Nat) : State := ((s.put F.CC.EN f 0).put F.CC.SHN f 0).put F.HIF_TWNSTAT.FENCE_CNT f 0

theorem State.keeps_clearCtl (s : State) (f : Nat) : Keeps ⟨[.CC, .HIF_TWNSTAT], []⟩ s (s.clearCtl f) :=
  .after (State.keeps_put _ _ _ _).up (.after (State.keeps_put _ _ _ _).up (State.keeps_put _ _ _ _).up)

theorem State.resetFunc_eq (s : State) (f : Nat) :
    s.resetFunc f = ((((s.dropTenant (.func f)).forgetFunc f).setReg .CSTS f 0).dropDownload f).clearCtl f := rfl

theorem State.keeps_forgetFunc (d : State) (f : Nat) :
    Keeps ⟨[.CC, .CSTS, .HIF_TWNSTAT], [.fw]⟩ (d.forgetFunc f) ((((d.forgetFunc f).setReg .CSTS f 0).dropDownload f).clearCtl f) :=
  .after (State.keeps_clearCtl _ _).up (.after (State.keeps_dropDownload _ _).up (State.keeps_setReg _ _ _ _).up)

/-- The interface after the reset of a function's controller. -/
theorem State.hif_resetFunc (s : State) (f : Nat) : (s.resetFunc f).hif = ((s.dropTenant (.func f)).forgetFunc f).hif := by
  rw [State.resetFunc_eq]
  exact ((s.dropTenant (.func f)).keeps_forgetFunc f).hif_eq

/-- What the reset of function `f` leaves of the registers of other functions. -/
theorem State.reg_resetFunc_other (s : State) {f k : Nat} (h : k ≠ f) (r : RegName) (hr : [RegName.MAP_CAP_CHARGED, .SEC_KSTAT].contains r = false) :
    (s.resetFunc f).reg r k = s.reg r k := by
  rw [State.resetFunc_eq, State.clearCtl, State.reg_put_other _ _ (.inr h), State.reg_put_other _ _ (.inr h), State.reg_put_other _ _ (.inr h),
    (State.keeps_dropDownload _ f).reg r k rfl, State.reg_setReg_other _ _ (.inr h)]
  exact (State.keeps_dropTenant s (.func f)).reg_eq r hr k

theorem State.get_resetFunc_en (s : State) (f : Nat) : (s.resetFunc f).get F.CC.EN f = 0 := by
  rw [State.resetFunc_eq, State.clearCtl, State.get_put_apart _ f f 0, State.get_put_apart _ f f 0, State.get_put_same _ F.CC.EN f 0]
  rfl

theorem State.reg_resetFunc_csts (s : State) (f : Nat) : (s.resetFunc f).reg .CSTS f = 0 := by
  rw [State.resetFunc_eq, (State.keeps_clearCtl _ f).reg .CSTS f, (State.keeps_dropDownload _ f).reg .CSTS f]
  exact State.reg_setReg_self _ _ _ _

/-- Nothing of function `k` is left: no queue, no feature, no command. -/
def State.Gone (s : State) (k : Nat) : Prop := s.func k = {} ∧ s.NoCtx (.func k)

theorem State.gone_resetFunc (s : State) (f : Nat) : (s.resetFunc f).Gone f := by
  refine ⟨?_, fun c hc => ?_⟩
  · rw [State.func, State.hif_resetFunc]
    show (tget f (tdel f (s.dropTenant (.func f)).hif.funcs)).getD {} = {}
    rw [tget_tdel_self]
    rfl
  · rw [State.hif_resetFunc] at hc
    exact s.noCtx_dropTenant (.func f) c hc

theorem State.Gone.resetFunc {k : Nat} (h : s.Gone k) (f : Nat) : (s.resetFunc f).Gone k := by
  by_cases hk : k = f
  · rw [hk]
    exact s.gone_resetFunc f
  · obtain ⟨l, hh, hl⟩ := s.hif_dropTenant (.func f)
    refine ⟨?_, fun c hc => ?_⟩
    · rw [State.func, State.hif_resetFunc]
      show (tget k (tdel f (s.dropTenant (.func f)).hif.funcs)).getD {} = {}
      rw [tget_tdel_ne _ hk, hh]
      exact h.1
    · rw [State.hif_resetFunc] at hc
      have hc' : c ∈ (s.dropTenant (.func f)).hif.ctxs := hc
      rw [hh] at hc'
      exact h.2 c (hl c hc')

theorem State.Gone.of_records {k : Nat} (h : s.Gone k) (ht : Same State.records s t) : t.Gone k :=
  ⟨(State.func_of_records ht k).trans h.1, fun c hc => h.2 c (by rw [← State.ctxs_of_records ht]; exact hc)⟩

theorem State.enabling_dropTenant (s : State) (x : Tenant) : Same State.enabling s (s.dropTenant x) := by
  obtain ⟨l, hh, -⟩ := s.hif_dropTenant x
  show State.enabling (s.dropTenant x) = State.enabling s
  rw [State.enabling, hh, (State.keeps_dropTenant s x).straps_eq, State.enabling]

theorem State.enabling_resetFunc (s : State) (f : Nat) : Same State.enabling s (s.resetFunc f) := by
  refine (s.enabling_dropTenant (.func f)).trans ?_
  show State.enabling (s.resetFunc f) = State.enabling ((s.dropTenant (.func f)).forgetFunc f)
  rw [State.enabling, State.hif_resetFunc, (State.keeps_resetFunc s f).straps_eq, State.enabling]
  exact congrArg (·, _, _) (State.keeps_dropTenant s (.func f)).straps_eq.symm

/-! ### Resets below the controller level (R465) -/

/-- The registers of a function and of its controller are clear, and nothing of it is left. -/
structure State.Cleared (s : State) (k : Nat) : Prop where
  cc : s.reg .CC k = 0
  csts : s.reg .CSTS k = 0
  aqa : s.reg .AQA k = 0
  asq : s.reg .ASQ k = 0
  acq : s.reg .ACQ k = 0
  gone : s.Gone k

theorem Keeps.cleared {P : Foot} {k : Nat} (h : Keeps P s t) (hc : s.Cleared k)
    (hr : (P.regs.contains .CC || P.regs.contains .CSTS || P.regs.contains .AQA || P.regs.contains .ASQ || P.regs.contains .ACQ) = false :=
      by decide +kernel)
    (hp : P.parts.contains .hif = false := by decide +kernel) : t.Cleared k := by
  simp only [Bool.or_eq_false_iff] at hr
  obtain ⟨⟨⟨⟨h1, h2⟩, h3⟩, h4⟩, h5⟩ := hr
  exact ⟨(h.reg_eq _ h1 k).trans hc.cc, (h.reg_eq _ h2 k).trans hc.csts, (h.reg_eq _ h3 k).trans hc.aqa, (h.reg_eq _ h4 k).trans hc.asq,
    (h.reg_eq _ h5 k).trans hc.acq, hc.gone.of_records (h.records hp)⟩

/-- The registers and vectors of function `f` are cleared, in a state where its controller has been reset. -/
def State.clearRegs (s : State) (f : Nat) : State :=
  ((((s.setReg .CC f 0).setReg .AQA f 0).setReg .ASQ f 0).setReg .ACQ f 0).setReg .HIF_XCFG f 0

/-- The vectors of a function that is reset go. -/
def State.forgetVectors (s : State) (f : Nat) : State :=
  { s with hif := { s.hif with
    msixTab := s.hif.msixTab.filter fun e => !(e.1 / 16384 == f)
    msixPend := s.hif.msixPend.filter fun e => e.1 != f } }

/-- The channels and the read-back window of a physical function end with it. -/
def State.clearMail (s : State) (f : Nat) : State :=
  if s.isPf f then ((s.setReg .MBX_RBV f 0).setReg .MBX_RBS_ITEM f 0 |>.setReg .MBX_RBS_OFF f 0).resetChans f else s

theorem State.keeps_clearMail (s : State) (f : Nat) : Keeps ⟨[.MBX_RBV, .MBX_RBS_ITEM, .MBX_RBS_OFF, .MBX_CSR, .MBX_INT], [.mbx]⟩ s (s.clearMail f) :=
  .ite (fun _ => .after (State.keeps_resetChans _ _).up (.after (State.keeps_setReg _ _ _ _).up (.after (State.keeps_setReg _ _ _ _).up
    (State.keeps_setReg _ _ _ _).up))) fun _ => .refl s

theorem State.clearFunc_eq (s : State) (f : Nat) : s.clearFunc f = (((s.resetFunc f).clearRegs f).forgetVectors f).clearMail f := rfl

theorem State.records_forgetVectors (s : State) (f : Nat) : Same State.records s (s.forgetVectors f) := rfl

theorem State.enabling_forgetVectors (s : State) (f : Nat) : Same State.enabling s (s.forgetVectors f) := rfl

theorem State.reg_forgetVectors (s : State) (f : Nat) (r : RegName) (k : Nat) : (s.forgetVectors f).reg r k = s.reg r k := rfl

theorem State.keeps_clearRegs (s : State) (f : Nat) : Keeps ⟨[.CC, .AQA, .ASQ, .ACQ, .HIF_XCFG], []⟩ s (s.clearRegs f) :=
  .after (State.keeps_setReg _ _ _ _).up (.after (State.keeps_setReg _ _ _ _).up (.after (State.keeps_setReg _ _ _ _).up
    (.after (State.keeps_setReg _ _ _ _).up (State.keeps_setReg _ _ _ _).up)))

theorem State.reg_clearRegs (s : State) (f : Nat) {r : RegName} (h : r ∈ [RegName.CC, .AQA, .ASQ, .ACQ]) : (s.clearRegs f).reg r f = 0 := by
  have hne : ∀ (z : State) {p q : RegName}, q ≠ p → (z.setReg p f 0).reg q f = z.reg q f := fun z p q h => State.reg_setReg_other z 0 (.inl h)
  simp only [List.mem_cons, List.not_mem_nil, or_false] at h
  unfold State.clearRegs
  rcases h with rfl | rfl | rfl | rfl
  · rw [hne _ (by decide), hne _ (by decide), hne _ (by decide), hne _ (by decide), State.reg_setReg_self]
  · rw [hne _ (by decide), hne _ (by decide), hne _ (by decide), State.reg_setReg_self]
  · rw [hne _ (by decide), hne _ (by decide), State.reg_setReg_self]
  · rw [hne _ (by decide), State.reg_setReg_self]

theorem State.reg_clearRegs_other (s : State) {f k : Nat} (h : k ≠ f) (r : RegName) : (s.clearRegs f).reg r k = s.reg r k := by
  rw [State.clearRegs, State.reg_setReg_other _ _ (.inr h), State.reg_setReg_other _ _ (.inr h), State.reg_setReg_other _ _ (.inr h),
    State.reg_setReg_other _ _ (.inr h), State.reg_setReg_other _ _ (.inr h)]

theorem State.cleared_clearFunc (s : State) (f : Nat) : (s.clearFunc f).Cleared f := by
  have hcsts : ((s.resetFunc f).clearRegs f).reg .CSTS f = 0 := ((State.keeps_clearRegs _ f).reg .CSTS f).trans (s.reg_resetFunc_csts f)
  have hgone : ((s.resetFunc f).clearRegs f).Gone f := (s.gone_resetFunc f).of_records (State.keeps_clearRegs _ f).records
  have hclear := fun r (h : r ∈ [RegName.CC, .AQA, .ASQ, .ACQ]) => (s.resetFunc f).reg_clearRegs f h
  rw [State.clearFunc_eq]
  refine (State.keeps_clearMail _ f).cleared ⟨?_, ?_, ?_, ?_, ?_, hgone.of_records (State.records_forgetVectors _ f)⟩
  · exact (State.reg_forgetVectors _ _ _ _).trans (hclear _ (by simp))
  · exact (State.reg_forgetVectors _ _ _ _).trans hcsts
  · exact (State.reg_forgetVectors _ _ _ _).trans (hclear _ (by simp))
  · exact (State.reg_forgetVectors _ _ _ _).trans (hclear _ (by simp))
  · exact (State.reg_forgetVectors _ _ _ _).trans (hclear _ (by simp))

theorem State.enabling_clearFunc (s : State) (f : Nat) : Same State.enabling s (s.clearFunc f) := by
  rw [State.clearFunc_eq]
  exact (((s.enabling_resetFunc f).trans (State.keeps_clearRegs _ f).enabling).trans (State.enabling_forgetVectors _ f)).trans
    (State.keeps_clearMail _ f).enabling

theorem State.Cleared.clearFunc {k : Nat} (h : s.Cleared k) (f : Nat) : (s.clearFunc f).Cleared k := by
  by_cases hkf : k = f
  · rw [hkf]
    exact s.cleared_clearFunc f
  · have hreg : ∀ r, [RegName.MAP_CAP_CHARGED, .SEC_KSTAT].contains r = false →
        (((s.resetFunc f).clearRegs f).forgetVectors f).reg r k = s.reg r k := fun r hr => by
      rw [State.reg_forgetVectors, State.reg_clearRegs_other _ hkf, s.reg_resetFunc_other hkf r hr]
    have hgone : ((s.resetFunc f).clearRegs f).Gone k := (h.gone.resetFunc f).of_records (State.keeps_clearRegs _ f).records
    rw [State.clearFunc_eq]
    exact (State.keeps_clearMail _ f).cleared ⟨(hreg _ (by decide)).trans h.cc, (hreg _ (by decide)).trans h.csts,
      (hreg _ (by decide)).trans h.aqa, (hreg _ (by decide)).trans h.asq, (hreg _ (by decide)).trans h.acq,
      hgone.of_records (State.records_forgetVectors _ f)⟩

/-- What each turn of a fold makes for its own item, and keeps for every other, holds of every item at its end. -/
theorem foldl_makes {g : State → Nat → State} {P : Nat → State → Prop} (hit : ∀ s k, P k (g s k)) (keep : ∀ s k j, P j s → P j (g s k))
    (l : List Nat) (s : State) {k : Nat} (hk : k ∈ l) : P k (l.foldl g s) := by
  have hkeep : ∀ (l : List Nat) (s : State), P k s → P k (l.foldl g s) := fun l => by
    induction l with
    | nil => exact fun s h => h
    | cons a l ih => exact fun s h => ih _ (keep s a k h)
  induction l generalizing s with
  | nil => exact absurd hk List.not_mem_nil
  | cons a l ih =>
    rcases List.mem_cons.mp hk with h | h
    · rw [h]
      rw [h] at hkeep
      exact hkeep l _ (hit s a)
    · exact ih _ h

theorem State.cleared_foldl (l : List Nat) (s : State) {k : Nat} (hk : k ∈ l) : (l.foldl State.clearFunc s).Cleared k :=
  foldl_makes (P := fun k s => s.Cleared k) State.cleared_clearFunc (fun _ f _ h => h.clearFunc f) l s hk

end

/-- The error log. -/
def State.errors (s : State) : List ErrEntry := s.hif.err

theorem Keeps.errors {F : Foot} {s t : State} (h : Keeps F s t) (hp : F.parts.contains .hif = false := by decide +kernel) :
    Same State.errors s t := congrArg Hif.err (h.hif_eq hp)

theorem State.errors_setFunc (s : State) (f : Nat) (v : Func) : Same State.errors s (s.setFunc f v) := by
  unfold State.setFunc
  exact .update (.refl _) rfl

theorem State.errors_sendMsix (s : State) (f : Nat) (v : Nat) : Same State.errors s (s.sendMsix f v) := by
  unfold State.sendMsix
  exact .ite (fun _ => .ite (fun _ => .refl _) fun _ => .update (.refl _) rfl) fun _ => .ite
    (fun _ => (State.keeps_raise _ _).errors) fun _ => (State.keeps_send _ _).errors

theorem State.errors_coalSend (s : State) (f : Nat) (v : Nat) : Same State.errors s (s.coalSend f v) := by
  unfold State.coalSend
  exact .after (State.errors_sendMsix _ _ _) (.update (.refl _) rfl)

theorem State.errors_interrupt (s : State) (f : Nat) (cqid : Nat) (v : Nat) : Same State.errors s (s.interrupt f cqid v) := by
  unfold State.interrupt
  exact .ite (fun _ => State.errors_coalSend _ _ _) fun _ => .update (.refl _) rfl

theorem State.errors_putCqe (s : State) (f : Nat) (cqid : Nat) (q : Cq) (e : CqEntry) : Same State.errors s (s.putCqe f cqid q e) := by
  unfold State.putCqe
  exact .after (.after (.ite (fun _ => State.errors_interrupt _ _ _ _) fun _ => .refl _) ((State.keeps_emitQuiet _ _).errors))
    (State.errors_setFunc _ _ _)

theorem State.errors_postEntry (s : State) (f : Nat) (cqid : Nat) (e : CqEntry) : Same State.errors s (s.postEntry f cqid e) := by
  unfold State.postEntry
  split
  · exact .refl _
  · exact .after (.ite (fun _ => State.errors_setFunc _ _ _) fun _ => State.errors_putCqe _ _ _ _ _) ((State.keeps_digest _ _ _).errors)

theorem State.errors_postCqe (s : State) (f : Nat) (c : Ctx) (r : Cpl) : Same State.errors s (s.postCqe f c r) := by
  unfold State.postCqe
  split
  · exact .refl _
  · exact .after (State.errors_postEntry _ _ _ _) (State.errors_setFunc _ _ _)

section
variable {s t : State}

/-! ### Enable (R38) -/

theorem State.get_writeCc_en (s : State) (f : Nat) (cc : BitVec 32) : (s.writeCc f cc 1).get F.CC.EN f = 1 := by
  rw [State.writeCc, State.get_put_same _ F.CC.EN f 1]
  rfl

theorem State.sqs_makeAdmin (s : State) (f : Nat) :
    ((s.makeAdmin f).func f).sqs = [(0, { base := s.reg .ASQ f, size := s.get F.AQA.ASQS f + 1, cqid := 0, prio := 0 })] := by
  unfold State.makeAdmin
  rw [State.func_setFunc]

theorem State.get_readyNow (f : Nat) (he : s.get F.CC.EN f = 1) (ht : s.straps.testEn = false) (hb : s.bootState = 6) :
    (s.readyNow f).get F.CSTS.RDY f = 1 := by
  have hput : (s.put F.CSTS.RDY f 1).get F.CSTS.RDY f = 1 := by
    rw [State.get_put_same _ F.CSTS.RDY f 1]
    rfl
  unfold State.readyNow
  rw [if_pos (by simp [State.on_of_get_one he, ht, hb])]
  dsimp only
  split
  · exact ((State.keeps_confirmSlot _).get F.CSTS.RDY f).trans hput
  · exact hput

/-! ### Failed transfers (R65) -/

theorem State.errors_finish (s : State) (c : Ctx) (r : Cpl) (hd : s.pow.dumping = false) : Same State.errors (s.ending c r) (s.finish c r) := by
  unfold State.finish
  rw [hd, if_neg Bool.false_ne_true]
  show Same State.errors (s.ending c r) (match c.tenant with
    | .func f => (s.ending c r).postCqe f c r
    | .assoc _ => (s.ending c r).postCapsule c r)
  split
  · exact State.errors_postCqe _ _ _ _
  · exact (State.keeps_postCapsule _ _ _).errors

/-- The end of a command that fails is the newest entry of the error log. -/
theorem State.err_ending (s : State) (c : Ctx) {r : Cpl} (h : r.sc ≠ 0) :
    ((s.ending c r).hif.err.head?.map fun e => (e.sct, e.sc)) = some (r.sct, r.sc) := by
  unfold State.ending State.logError
  rw [if_neg fun hr => h hr.2]
  rfl

theorem State.finish_fails (c : Ctx) {r : Cpl} (hd : s.pow.dumping = false) (h : r.sc ≠ 0) :
    (s.finish c r).ctx c.stamp = none ∧ ((s.finish c r).hif.err.head?.map fun e => (e.sct, e.sc)) = some (r.sct, r.sc) := by
  have herr : (s.finish c r).hif.err = (s.ending c r).hif.err := s.errors_finish c r hd
  exact ⟨State.ctx_finish c r hd, by rw [herr]; exact s.err_ending c h⟩

theorem State.fail_fails (c : Ctx) (hd : s.pow.dumping = false) :
    (s.fail c 0 4).ctx c.stamp = none ∧ ((s.fail c 0 4).hif.err.head?.map fun e => (e.sct, e.sc)) = some (0, 4) :=
  State.finish_fails (s := s.unchargeAll c.stamp) c (r := { sct := 0, sc := 4 })
    ((congrArg Pow.dumping (State.keeps_unchargeAll s c.stamp).pow_eq).trans hd) (by decide)

/-- A transfer that fails ends its command with Data Transfer Error. -/
theorem State.transfer_failed {t : BitVec 64} {c : Ctx} (hc : s.ctx t = some c) (hd : s.pow.dumping = false) (n : Nat) :
    (((s.giveBack c).fail c 0 4).raise n).ctx t = none ∧
      ((((s.giveBack c).fail c 0 4).raise n).hif.err.head?.map fun e => (e.sct, e.sc)) = some (0, 4) := by
  have hst : c.stamp = t := State.stamp_of_ctx hc
  obtain ⟨h1, h2⟩ := State.fail_fails (s := s.giveBack c) c ((congrArg Pow.dumping (State.keeps_giveBack s c).pow_eq).trans hd)
  have hk := State.keeps_raise ((s.giveBack c).fail c 0 4) n
  rw [State.ctx, hk.hif_eq]
  exact ⟨hst ▸ h1, h2⟩

/-! ### The reset of the subsystem (R57) -/

/-- One turn of the reset of the subsystem. -/
def State.resetShown (s : State) (k : Nat) : State := if s.funcUp k then (s.resetFunc k).put F.CSTS.NSSRO k 1 else s

/-- A function whose controller the subsystem's reset has taken in. -/
structure State.ResetShown (s : State) (k : Nat) : Prop where
  en : s.get F.CC.EN k = 0
  nssro : s.get F.CSTS.NSSRO k = 1
  rdy : s.get F.CSTS.RDY k = 0
  gone : s.Gone k

theorem State.resetShown_self (s : State) (k : Nat) : ((s.resetFunc k).put F.CSTS.NSSRO k 1).ResetShown k := by
  refine ⟨?_, ?_, ?_, (s.gone_resetFunc k).of_records (State.keeps_put _ _ _ _).records⟩
  · rw [State.get_put_apart _ k k 1]
    exact s.get_resetFunc_en k
  · rw [State.get_put_same _ F.CSTS.NSSRO k 1]
    rfl
  · rw [State.get_put_apart _ k k 1, State.get, s.reg_resetFunc_csts k]
    rfl

theorem State.ResetShown.other {k f : Nat} (h : s.ResetShown k) (hf : k ≠ f) : ((s.resetFunc f).put F.CSTS.NSSRO f 1).ResetShown k := by
  have hcc : (s.resetFunc f).reg .CC k = s.reg .CC k := s.reg_resetFunc_other hf .CC rfl
  have hcs : (s.resetFunc f).reg .CSTS k = s.reg .CSTS k := s.reg_resetFunc_other hf .CSTS rfl
  have hget : ∀ fl : Fld, (s.resetFunc f).reg fl.reg k = s.reg fl.reg k → ((s.resetFunc f).put F.CSTS.NSSRO f 1).get fl k = s.get fl k :=
    fun fl hr => by rw [State.get_put_inst _ _ hf, State.get, hr, State.get]
  exact ⟨(hget F.CC.EN hcc).trans h.en, (hget F.CSTS.NSSRO hcs).trans h.nssro, (hget F.CSTS.RDY hcs).trans h.rdy,
    (h.gone.resetFunc f).of_records (State.keeps_put _ _ _ _).records⟩

theorem State.enabling_resetShown (s : State) (k : Nat) : Same State.enabling s (s.resetShown k) :=
  .ite (fun _ => (s.enabling_resetFunc k).trans (State.keeps_put _ _ _ _).enabling) fun _ => .refl s

theorem State.resetShown_foldl (l : List Nat) (s : State) {k : Nat} (hk : k ∈ l) (hu : s.funcUp k = true) : (l.foldl State.resetShown s).ResetShown k := by
  have hup : ∀ (s : State) (f : Nat), (s.resetShown f).funcUp k = s.funcUp k := fun s f => State.funcUp_of (s.enabling_resetShown f) k
  have hall := foldl_makes (g := State.resetShown) (P := fun k s => s.funcUp k = true → s.ResetShown k) (fun s k h => ?_) (fun s f k hkeep h => ?_) l s hk
  · exact hall ((State.funcUp_of (Same.foldl State.enabling_resetShown l s) k).trans hu)
  · rw [State.funcUp_of (s.enabling_resetShown k) k] at h
    rw [State.resetShown, if_pos h]
    exact s.resetShown_self k
  · rw [State.funcUp_of (s.enabling_resetShown f) k] at h
    rw [State.resetShown]
    split
    next hf =>
      by_cases hkf : k = f
      · rw [hkf]
        exact s.resetShown_self f
      · exact (hkeep h).other hkf
    next => exact hkeep h

theorem Keeps.resetShown {P : Foot} {k : Nat} (h : Keeps P s t) (hr : s.ResetShown k)
    (hc : P.regs.contains .CC = false := by decide +kernel) (hs : P.regs.contains .CSTS = false := by decide +kernel)
    (hp : P.parts.contains .hif = false := by decide +kernel) : t.ResetShown k :=
  ⟨(h.get F.CC.EN k hc).trans hr.en, (h.get F.CSTS.NSSRO k hs).trans hr.nssro, (h.get F.CSTS.RDY k hs).trans hr.rdy,
    hr.gone.of_records (h.records hp)⟩

/-- An event that a condition raises. -/
theorem State.keeps_raiseIf (s : State) (b : Bool) (n : Nat) : Keeps ⟨[.CIC_SRC_STAT], [.cic, .evt]⟩ s (if b then s.raise n else s) :=
  .ite (fun _ => State.keeps_raise s n) fun _ => .refl s

/-! ### Ports (R465) -/

/-- The virtual functions of a port are disabled. -/
def State.dropVfs (s : State) (p : Nat) (keep : Bool) : State :=
  { s with hif := { s.hif with
    numVfs := if keep then s.hif.numVfs else tput p 0 s.hif.numVfs
    vfEnable := if keep then s.hif.vfEnable else tput p false s.hif.vfEnable } }

theorem State.records_dropVfs (s : State) (p : Nat) (b : Bool) : Same State.records s (s.dropVfs p b) := rfl

theorem State.reg_dropVfs (s : State) (p : Nat) (b : Bool) (r : RegName) (k : Nat) : (s.dropVfs p b).reg r k = s.reg r k := rfl

theorem State.numVfs_dropVfs (s : State) (p : Nat) : tgetD p 0 (s.dropVfs p false).hif.numVfs = 0 := tgetD_tput_self _ _ _ _

/-- The number of virtual functions, and their enable, of a port. -/
def State.enableVfs (s : State) (p n : Nat) (on : Bool) : State :=
  { s with hif := { s.hif with numVfs := tput p n s.hif.numVfs, vfEnable := tput p on s.hif.vfEnable } }

theorem State.enabling_enableVfs (s : State) (p n : Nat) (on : Bool) :
    tget p (s.enableVfs p n on).enabling.2.1 = some n ∧ tget p (s.enableVfs p n on).enabling.2.2 = some on :=
  ⟨tget_tput_self _ _ _, tget_tput_self _ _ _⟩

/-- The state of the link of a port. -/
def State.setLink (s : State) (p : Nat) (up : Bool) : State := { s with hif := { s.hif with linkUp := tput p up s.hif.linkUp } }

theorem State.linkUp_setLink (s : State) (p : Nat) (up : Bool) (n : Nat) : tget p ((s.setLink p up).raise n).hif.linkUp = some up := by
  rw [(State.keeps_raise _ n).hif_eq]
  exact tget_tput_self _ _ _

/-! ### Shutdown (R59) -/

/-- The function is told to shut down. -/
def State.shutNote (s : State) (f : Nat) (abrupt : Bool) : State :=
  ((s.put F.CC.SHN f (if abrupt then 2 else 1)).put F.CSTS.SHST f 1).raise 176

theorem State.keeps_shutNote (s : State) (f : Nat) (b : Bool) : Keeps ⟨[.CC, .CSTS, .CIC_SRC_STAT], [.cic, .evt]⟩ s (s.shutNote f b) :=
  .after (State.keeps_raise _ _).up (.after (State.keeps_put _ _ _ _).up (State.keeps_put _ _ _ _).up)

theorem State.get_shutNote (s : State) (f : Nat) (b : Bool) :
    (s.shutNote f b).get F.CC.SHN f = (if b then 2 else 1) ∧ (s.shutNote f b).get F.CSTS.SHST f = 1 := by
  have hk := State.keeps_raise ((s.put F.CC.SHN f (if b then 2 else 1)).put F.CSTS.SHST f 1) 176
  unfold State.shutNote
  rw [hk.get F.CC.SHN f, hk.get F.CSTS.SHST f, State.get_put_apart _ f f 1, State.get_put_same _ F.CC.SHN f, State.get_put_same _ F.CSTS.SHST f 1]
  cases b with
  | true => exact ⟨rfl, rfl⟩
  | false => exact ⟨rfl, rfl⟩

/-- The time of a shutdown is kept. -/
def State.shutAt (s : State) (f : Nat) : State := { s with hif := { s.hif with shutdown := tput f s.elapsed s.hif.shutdown } }

theorem State.get_shutAt (s : State) (f : Nat) (fl : Fld) (i : Nat) : (s.shutAt f).get fl i = s.get fl i := rfl

theorem State.shutdown_shutAt (s : State) (f : Nat) : tget f (s.shutAt f).hif.shutdown = some s.elapsed := tget_tput_self _ _ _

end

end Sys2Proof.Machine
end

section
-- One proof at a time: as many threads as there are lemmas here do not fit beside the model.
set_option Elab.async false
open Sys2Proof Sys2Proof.Machine

/-- Settles O41. -/
theorem controllerResets : Obligations.ControllerResets := by
  unfold Obligations.ControllerResets
  intro s f hs
  refine ⟨fun cc hu he => ?_, fun cc h => ?_, fun cc he => ?_, fun hu => ?_, fun hu => ?_, fun p => ?_, fun b he => ?_, fun p => ?_, fun p => ?_,
    fun p n on hn => ?_, fun t x hx => ⟨fun hc => ?_, fun c hc hd => ?_⟩⟩
  · have hx : exec (.controllerEnable f cc) s = .next ((((s.writeCc f cc 1).makeAdmin f).readyNow f).raise 175) :=
      exec_of_awake hs (congrArg (fun u => s.awake (.next u)) (if_neg (by simp [hu, State.on_of_get_zero he])))
    have hw := s.keeps_writeCc f cc 1
    have hm := (s.writeCc f cc 1).keeps_makeAdmin f
    have hr := ((s.writeCc f cc 1).makeAdmin f).keeps_readyNow f
    have hz := (((s.writeCc f cc 1).makeAdmin f).readyNow f).keeps_raise 175
    have hen : ((s.writeCc f cc 1).makeAdmin f).get F.CC.EN f = 1 := (hm.get F.CC.EN f).trans (s.get_writeCc_en f cc)
    have hsq : (((s.writeCc f cc 1).makeAdmin f).func f).sqs = [(0, { base := s.reg .ASQ f, size := s.get F.AQA.ASQS f + 1, cqid := 0, prio := 0 })] := by
      rw [State.sqs_makeAdmin, hw.reg .ASQ f, hw.get F.AQA.ASQS f]
    refine ⟨_, hx, ?_, ?_, fun ht hb => ?_⟩
    · exact (hz.get F.CC.EN f).trans ((hr.get F.CC.EN f).trans hen)
    · rw [State.func_of_records hz.records, State.func_of_records hr.records, hsq]
    · refine (hz.get F.CSTS.RDY f).trans (State.get_readyNow f hen ?_ ?_)
      · rw [hm.straps_eq, hw.straps_eq, ht]
      · exact ((hm.get F.HIF_BOOTSTAT.STATE 0).trans (hw.get F.HIF_BOOTSTAT.STATE 0)).trans hb
  · refine exec_of_awake hs (congrArg (fun u => s.awake (.next u)) (if_pos ?_))
    rcases h with h | h
    · simp [h]
    · simp [State.on_of_get_one h]
  · have hk := ((s.writeCc f cc 1).resetFunc f).keeps_raise 175
    have hg := ((s.writeCc f cc 1).gone_resetFunc f).of_records hk.records
    refine ⟨_, exec_of_awake hs (congrArg (fun u => s.awake (.next u)) (if_pos (State.on_of_get_one he))), ?_, ?_, hg.1, hg.2⟩
    · exact (hk.get F.CC.EN f).trans (State.get_resetFunc_en _ f)
    · exact (hk.reg .CSTS f).trans (State.reg_resetFunc_csts _ f)
  · have hc := (((s.clearFunc f).raise 174).keeps_raiseIf (s.on F.CC.EN f) 175).cleared (((s.clearFunc f).keeps_raise 174).cleared (s.cleared_clearFunc f))
    exact ⟨_, exec_of_awake hs (congrArg (fun u => s.awake (.next u)) (if_pos hu)), hc.cc, hc.csts, hc.aqa, hc.asq, hc.acq, hc.gone.1, hc.gone.2⟩
  · refine ⟨_, exec_of_awake hs (congrArg (fun u => s.awake (.next u)) (if_pos hu)), fun k hk hku => ?_⟩
    have hr : ((List.range 66).foldl State.resetShown s).ResetShown k := State.resetShown_foldl _ s (List.mem_range.2 hk) hku
    have hz := (State.keeps_raiseIf (((List.range 66).foldl State.resetShown s).raise 177)
      ((List.range 66).any fun k => s.funcUp k && s.on F.CC.EN k) 175).resetShown (((State.keeps_raise _ 177)).resetShown hr)
    exact ⟨hz.en, hz.nssro, hz.rdy, hz.gone.1, hz.gone.2⟩
  · generalize hmine : ((List.range 66).filter fun k => s.funcUp k && s.fnPort k == p.val) = mine
    generalize hvfs : (!mine.isEmpty && (tgetD p.val false s.hif.vfEnable || decide (tgetD p.val 0 s.hif.numVfs ≠ 0))) = vfs
    generalize hen : (mine.any fun k => s.on F.CC.EN k) = en
    have hx : exec (.conventionalReset p) s = .next (State.flow
        (if en then (if vfs then ((mine.foldl State.clearFunc s).dropVfs p.val mine.isEmpty).raise 184
          else (mine.foldl State.clearFunc s).dropVfs p.val mine.isEmpty).raise 175
        else if vfs then ((mine.foldl State.clearFunc s).dropVfs p.val mine.isEmpty).raise 184
          else (mine.foldl State.clearFunc s).dropVfs p.val mine.isEmpty)) := by
      rw [← hen, ← hvfs, ← hmine]
      exact exec_of_awake hs rfl
    refine ⟨_, hx, fun k hk hku hkp => ?_⟩
    have hmem : k ∈ mine := by
      rw [← hmine]
      exact List.mem_filter.2 ⟨List.mem_range.2 hk, by simp [hku, hkp]⟩
    have hne : mine.isEmpty = false := by
      cases mine with
      | nil => exact absurd hmem List.not_mem_nil
      | cons a l => rfl
    have hc := State.cleared_foldl mine s hmem
    rw [hne]
    generalize mine.foldl State.clearFunc s = w at hc
    have hd : (w.dropVfs p.val false).Cleared k := ⟨hc.cc, hc.csts, hc.aqa, hc.asq, hc.acq, hc.gone.of_records (w.records_dropVfs p.val false)⟩
    have hn := w.numVfs_dropVfs p.val
    generalize w.dropVfs p.val false = z at hd hn
    have hk1 := z.keeps_raiseIf vfs 184
    have hk2 := (if vfs then z.raise 184 else z).keeps_raiseIf en 175
    have hz := hk2.cleared (hk1.cleared hd)
    refine ⟨hz.cc, hz.csts, hz.gone.1, hz.gone.2, ?_⟩
    rw [hk2.hif_eq, hk1.hif_eq, hn]
  · obtain ⟨h1, h2⟩ := s.get_shutNote f b
    have hx : exec (.shutdownNotification f b) s = .next (((((s.shutNote f b).shutAt f).closeJournal).closeCovered).flow) :=
      exec_of_awake hs (congrArg (fun u => s.awake (.next u)) (if_neg (by simp [State.on_of_get_one he])))
    refine ⟨(s.shutNote f b).shutAt f, hx, h1, h2, ?_⟩
    rw [State.shutdown_shutAt, (s.keeps_shutNote f b).same .elapsed rfl]
  · exact ⟨(s.setLink p false).raise 178, exec_of_awake hs rfl, State.linkUp_setLink _ _ _ _⟩
  · exact ⟨(State.setLink ((if s.straps.linkMode then [35 + p.val] else [35, 36]).foldl State.presetAt s) p true).raise 179,
      exec_of_awake hs rfl, State.linkUp_setLink _ _ _ _⟩
  · generalize hgone : (((List.range 66).filter s.funcUp).filter fun k => !(s.enableVfs p.val n on).funcUp k) = gone
    generalize hen : (gone.any fun k => (s.enableVfs p.val n on).on F.CC.EN k) = en
    have hx : exec (.numvfsChange p n on) s = .next (State.flow
        ((gone.foldl State.clearFunc (if en then (s.enableVfs p.val n on).raise 175 else s.enableVfs p.val n on)).raise 184)) := by
      rw [← hen, ← hgone]
      exact exec_of_awake hs (congrArg (fun u => s.awake (.next u)) (if_neg (by omega)))
    refine ⟨_, hx, ?_⟩
    have he := s.enabling_enableVfs p.val n on
    generalize s.enableVfs p.val n on = z at he
    have hsame : Same State.enabling z ((gone.foldl State.clearFunc (if en then z.raise 175 else z)).raise 184) :=
      ((z.keeps_raiseIf en 175).enabling.trans (Same.foldl State.enabling_clearFunc gone _)).trans (State.keeps_raise _ 184).enabling
    have heq : State.enabling ((gone.foldl State.clearFunc (if en then z.raise 175 else z)).raise 184) = z.enabling := hsame
    rw [← heq] at he
    exact he
  · simp only [List.mem_cons, List.not_mem_nil, or_false] at hx
    rcases hx with rfl | rfl
    · exact exec_of_awake hs (congrArg (fun u => s.awake (.next u)) (by rw [hc]))
    · exact exec_of_awake hs (congrArg (fun u => s.awake (.next u)) (by rw [hc]))
  · simp only [List.mem_cons, List.not_mem_nil, or_false] at hx
    rcases hx with rfl | rfl
    · exact ⟨_, exec_of_awake hs (congrArg (fun u => s.awake (.next u)) (by rw [hc])), State.transfer_failed hc hd 180⟩
    · exact ⟨_, exec_of_awake hs (congrArg (fun u => s.awake (.next u)) (by rw [hc])), State.transfer_failed hc hd 181⟩
end

section
-- One proof at a time: as many threads as there are lemmas here do not fit beside the model.
set_option Elab.async false
namespace Sys2Proof.Machine

/-- The copies of capsules that wait for the ledger. -/
def State.copies (s : State) : List Capsule := s.twn.capsules

theorem Keeps.copies {F : Foot} {s t : State} (h : Keeps F s t) (hp : F.parts.contains .twn = false := by decide +kernel) :
    Same State.copies s t := congrArg Twn.capsules (h.twn_eq hp)

theorem State.copies_pumpTwin (s : State) : Same State.copies s s.pumpTwin := by
  unfold State.pumpTwin
  exact .ite (fun _ => .refl _) fun _ => .update (.refl _) rfl

theorem State.copies_twinSend (s : State) (mtype : Nat) (body : Bytes) (last : Bool) : Same State.copies s
    (s.twinSend mtype body last) := by
  unfold State.twinSend
  exact .ite (fun _ => .refl _) fun _ => .ite
    (fun _ => .after (.after (.after (State.copies_pumpTwin _) (.after ((State.keeps_raise _ _).copies) ((State.keeps_put _ _ _ _).copies)))
    (.after ((State.keeps_sendKey _).copies) (.update (.refl _) rfl))) (.update (.refl _) rfl)) fun _ => .after (State.copies_pumpTwin _)
    (.update (.refl _) rfl)

theorem State.copies_peerTell (s : State) (e : LEntry) : Same State.copies s (s.peerTell e) := by
  unfold State.peerTell
  exact .ite (fun _ => State.copies_twinSend _ _ _ _) fun _ => .refl _

theorem State.copies_tellCapsule (s : State) (k : Capsule) : Same State.copies s (s.tellCapsule k) := by
  unfold State.tellCapsule
  split
  · exact .ite (fun _ => State.copies_peerTell _ _) fun _ => .refl _
  · exact .refl _

/-- Has the controller been cut off (R381)? -/
def State.cutOff (s : State) : Bool := s.arb.outcast

theorem Keeps.cutOff {F : Foot} {s t : State} (h : Keeps F s t) (hp : F.parts.contains .arb = false := by decide +kernel) :
    Same State.cutOff s t := congrArg Arb.outcast (h.arb_eq hp)

theorem State.cutOff_dirtied (s : State) (a : Nat) : Same State.cutOff s (s.dirtied a) := by
  unfold State.dirtied
  exact .ite (fun _ => .update (.refl _) rfl) fun _ => .refl _

theorem State.cutOff_wrByte (s : State) (a : Nat) (b : Byte) : Same State.cutOff s (s.wrByte a b) := by
  unfold State.wrByte
  exact .ite (fun _ => .after (State.cutOff_dirtied _ _) (.update (.refl _) rfl)) fun _ => .refl _

theorem State.cutOff_engWrite (s : State) (a : Nat) (a2 : Bytes) : Same State.cutOff s (s.engWrite a a2) := by
  fun_induction s.engWrite a a2
  · exact .refl _
  · rename_i ih4
    exact .after ih4 (.ite (fun _ => State.cutOff_wrByte _ _ _) fun _ => .refl _)

theorem State.cutOff_ringWrite (s : State) (i : Nat) (b : Bytes) : Same State.cutOff s (s.ringWrite i b) := by
  unfold State.ringWrite
  exact .after (.after (.update (.refl _) rfl) (State.cutOff_engWrite _ _ _)) (.ite (fun _ => State.cutOff_engWrite _ _ _) fun _ => .refl _)

theorem State.cutOff_ringDeliver (s : State) (e : LEntry) : Same State.cutOff s (s.ringDeliver e) := by
  unfold State.ringDeliver
  exact .ite (fun _ => .refl _) fun _ => State.cutOff_ringWrite _ _ _

section
variable {s t : State}

/-! ### Capsules that arrive (R84) -/

theorem State.isTrail_setQp (s : State) (qpn : Nat) (q : Qp) : (s.setQp qpn q).isTrail = s.isTrail := rfl


/-- A trail keeps its copy of the capsule for the ledger, and tells of it. -/
def State.copied (s : State) (k : Capsule) (port : Nat) : State := ((s.raise 192).keepCapsule (capsuleEntry k port) k).tellCapsule k

theorem State.keeps_copied (s : State) (k : Capsule) (port : Nat) :
    Keeps ⟨[.CIC_SRC_STAT, .TWN_LINK], [.cic, .evt, .keys, .out, .twn]⟩ s (s.copied k port) :=
  .after (State.keeps_tellCapsule _ _).up (.after (State.keeps_keepCapsule _ _ _).up (State.keeps_raise _ _).up)

/-- Whether a copy is kept does not turn on the events or on the queue pairs. -/
theorem Keeps.keeps_iff {P : Foot} (h : Keeps P s t) (e : LEntry) (hc : P.regs.contains .TWN_CTL = false := by decide +kernel)
    (hi : P.regs.contains .TWN_IRCFG = false := by decide +kernel) (hq : P.regs.contains .TWN_ROUTE = false := by decide +kernel)
    (hp : P.parts.contains .twn = false := by decide +kernel) : t.keeps e = s.keeps e := by
  have hroute : t.routeOf e.cls = s.routeOf e.cls := by rw [State.routeOf, State.routeOf, h.get F.TWN_ROUTE.RING 0 hq]
  have hsize : ∀ i, t.ringSize i = s.ringSize i := fun i => by rw [State.ringSize, State.ringSize, h.get F.TWN_IRCFG.SIZE i hi]
  have hstaged : t.staged = s.staged := by rw [State.staged, State.staged, h.on F.TWN_CTL.EN 0 hc, h.get F.TWN_CTL.MODE 0 hc]
  unfold State.keeps State.hasRoom State.ringRoom State.ringNeed
  rw [hstaged, hroute, h.on F.TWN_IRCFG.EN _ hi, h.twn_eq hp]
  simp only [hsize]

theorem State.capsules_copied {k : Capsule} {port : Nat} (h : s.keeps (capsuleEntry k port) = true) :
    (s.copied k port).twn.capsules = s.twn.capsules ++ [k] := by
  have hk := State.keeps_raise s 192
  have hkeep : (s.raise 192).keeps (capsuleEntry k port) = true := (hk.keeps_iff _).trans h
  have htell : (s.copied k port).copies = ((s.raise 192).keepCapsule (capsuleEntry k port) k).copies := State.copies_tellCapsule _ _
  have hcopy : ((s.raise 192).keepCapsule (capsuleEntry k port) k).copies = (s.raise 192).twn.capsules ++ [k] := by
    unfold State.keepCapsule
    rw [if_pos hkeep]
    rfl
  exact (htell.trans hcopy).trans (by rw [hk.twn_eq])

/-! ### Inputs that the ledger takes in (R318) -/

/-- What an entry is when it is recorded. -/
def State.recorded (s : State) (e : LEntry) : State :=
  let e := { e with toff := s.toff }
  (if s.staged then s.recordPut e else s).ringDeliver e

theorem State.capture_recorded (h : s.Open) (e : LEntry) (f : State → State) (he : e.len ≤ 256) : s.capture e f = f (s.recorded e) := by
  obtain ⟨ht, hh, hr⟩ := h
  unfold State.capture
  rw [if_neg (by simp [ht])]
  extract_lets e1
  have hroom : s.hasRoom e1 = true := hr e1 he
  rw [if_neg (by simp [hh, hroom])]
  rfl

theorem State.keeps_recorded (s : State) (e : LEntry) : Keeps .taken s (s.recorded e) :=
  .after (State.keeps_ringDeliver _ _).up (.ite (fun _ => (State.keeps_recordPut s _).up) fun _ => .refl s)

theorem State.cutOff_recorded (s : State) (e : LEntry) : Same State.cutOff s (s.recorded e) :=
  .after (State.cutOff_ringDeliver _ _) (.ite (fun _ => (State.keeps_recordPut s _).cutOff) fun _ => .refl s)

theorem capsuleEntry_len (k : Capsule) (port : Nat) : (capsuleEntry k port).len ≤ 256 := by
  simp [capsuleEntry, LEntry.len, LEntry.payloadBytes, entryWidths, packFields, padTo, length_leBytes]

/-! ### Capsules that are taken (R84, R87) -/

/-- The context of a capsule that is taken. -/
def State.capsuleCtx (s : State) (k : Capsule) (q : Qp) : Ctx :=
  { (s.setQp k.qpn { q with head := (q.head + 1) % q.size }).newCtx (.assoc q.assoc) k.qpn (q.qid == 0) k.cid k.opcode k.nsid with
    rseq := k.rseq, inCap := k.inCap, inv := k.inv }

/-- The capsule has its context, and SQHD moves on. -/
def State.capsuleIn (s : State) (k : Capsule) (q : Qp) : State :=
  let s := { s with fab := { s.fab with qps := tput k.qpn { q with head := (q.head + 1) % q.size } s.fab.qps } }
  let stamp := s.hif.nextStamp
  let s := s.takeCtx (.assoc q.assoc) k.qpn (q.qid == 0) k.cid k.opcode k.nsid
  { s with hif := { s.hif with ctxs := s.hif.ctxs.map fun (c : Ctx) =>
    if c.stamp = stamp then { c with rseq := k.rseq, inCap := k.inCap, inv := k.inv } else c } }

theorem State.keeps_capsuleIn (s : State) (k : Capsule) (q : Qp) :
    Keeps ⟨[.CIC_SRC_STAT, .PMC_CNT, .PMC_CTL], [.cic, .evt, .fab, .hif]⟩ s (s.capsuleIn k q) := by
  unfold State.capsuleIn
  extract_lets fab0 s1 stamp s2
  exact .update (.after (State.keeps_takeCtx s1 _ _ _ _ _ _).up (.update (.refl s) rfl)) rfl

/-- A change of contexts that keeps their stamps changes the one that is found. -/
theorem find_map_stamp (g : Ctx → Ctx) (hg : ∀ c, (g c).stamp = c.stamp) (l : List Ctx) (t : BitVec 64) :
    (l.map g).find? (fun c => c.stamp == t) = (l.find? fun c => c.stamp == t).map g := by
  rw [List.find?_map]
  simp only [Function.comp_def, hg]

theorem State.capsuleIn_ends (s : State) (k : Capsule) (q : Qp) (hfree : s.ctx s.hif.nextStamp = none) :
    (s.capsuleIn k q).hif.nextStamp = s.hif.nextStamp + 1 ∧
      tget k.qpn (s.capsuleIn k q).fab.qps = some { q with head := (q.head + 1) % q.size } ∧
      (s.capsuleIn k q).ctx s.hif.nextStamp = some (s.capsuleCtx k q) := by
  unfold State.capsuleIn
  extract_lets fab0 s1 stamp s2 hif1
  have hh := State.hif_takeCtx s1 (.assoc q.assoc) k.qpn (q.qid == 0) k.cid k.opcode k.nsid
  have hf : s2.fab = s1.fab := (State.keeps_takeCtx s1 _ _ _ _ _ _).fab_eq
  have hc : s2.ctx s1.hif.nextStamp = some (s1.newCtx (.assoc q.assoc) k.qpn (q.qid == 0) k.cid k.opcode k.nsid) :=
    State.ctx_takeCtx (s := s1) _ _ _ _ _ _ hfree
  have hstamp : (s1.newCtx (.assoc q.assoc) k.qpn (q.qid == 0) k.cid k.opcode k.nsid).stamp = stamp := rfl
  refine ⟨?_, ?_, ?_⟩
  · exact congrArg Hif.nextStamp hh
  · show tget k.qpn s2.fab.qps = _
    rw [hf]
    exact tget_tput_self _ _ _
  · show (s2.hif.ctxs.map _).find? _ = _
    rw [find_map_stamp _ fun c => by
      split
      · rfl
      · rfl]
    show Option.map _ (s2.ctx s1.hif.nextStamp) = _
    rw [hc]
    show some (if (s1.newCtx _ _ _ _ _ _).stamp = stamp then _ else _) = _
    rw [if_pos hstamp]
    rfl

theorem State.capsuleTake_eq {k : Capsule} {q : Qp} (hq : tget k.qpn s.fab.qps = some q) (hfree : s.ctx s.hif.nextStamp = none) :
    State.capsuleTake k s = match k.refusal with
      | some sc => (s.capsuleIn k q).fail (s.capsuleCtx k q) 0 sc
      | none => (s.capsuleIn k q).fetchCheck (s.capsuleCtx k q) (le k.bytes 40 4) := by
  obtain ⟨-, -, hc⟩ := s.capsuleIn_ends k q hfree
  unfold State.capsuleTake
  rw [hq]
  dsimp -zeta only
  extract_lets fab0 s1 stamp s2 hif1 s3
  have h3 : s3.ctx stamp = some (s.capsuleCtx k q) := hc
  rw [h3]
  rfl

/-- A capsule leaves its buffer, and is taken in. -/
def State.served (s : State) (i qpn : Nat) (q : Qp) (k : Capsule) : State :=
  ((({ s with fab := { s.fab with qps := tput qpn { q with buf := q.buf.drop 1 } s.fab.qps } }.takeTurn i).raise 192).keepCapsule
    (capsuleEntry k q.port) k).recorded (capsuleEntry k q.port)

theorem State.Open.keepCapsule (h : s.Open) (e : LEntry) (k : Capsule) : (s.keepCapsule e k).Open := by
  unfold State.keepCapsule
  split
  · exact h
  · exact h

theorem State.Open.takeTurn (h : s.Open) (i : Nat) : (s.takeTurn i).Open := (State.keeps_takeTurn s i).open h

theorem State.serveAssoc_eq {i qpn : Nat} {q : Qp} {k : Capsule} (hn : s.nextCapsule (i - 66) = some (qpn, q, k)) (ho : s.Open) :
    s.serveAssoc i = State.capsuleTake k (s.served i qpn q k) := by
  have hroom : s.hasRoom (capsuleEntry k q.port) = true := ho.2.2 _ (capsuleEntry_len _ _)
  have ho1 : { s with fab := { s.fab with qps := tput qpn { q with buf := q.buf.drop 1 } s.fab.qps } }.Open := ho
  have ho2 := (State.keeps_raise _ 192).open (ho1.takeTurn i)
  unfold State.serveAssoc
  rw [hn]
  refine (if_neg (by simp [ho.2.1, hroom])).trans ?_
  exact State.capture_recorded (ho2.keepCapsule _ _) _ _ (capsuleEntry_len _ _)

/-- What the ledger and the events take in of a capsule. -/
abbrev Foot.served : Foot :=
  ⟨[.CIC_SRC_STAT, .PMC_CNT, .PMC_CTL, .TWN_LINK], [.arb, .cic, .evt, .fab, .hbm, .hif, .keys, .mem, .out, .twn]⟩

theorem State.keeps_served (s : State) (i qpn : Nat) (q : Qp) (k : Capsule) : Keeps .served s (s.served i qpn q k) :=
  .after (State.keeps_recorded _ _).up (.after (State.keeps_keepCapsule _ _ _).up (.after (State.keeps_raise _ _).up
    (.after (State.keeps_takeTurn _ _).up (.update (.refl s) rfl))))

/-- The parts that hold a capsule's queue pair and the stamps. -/
theorem State.served_parts (s : State) (i qpn : Nat) (q : Qp) (k : Capsule) :
    (s.served i qpn q k).fab.qps = tput qpn { q with buf := q.buf.drop 1 } s.fab.qps ∧ (s.served i qpn q k).hif.ctxs = s.hif.ctxs ∧
      (s.served i qpn q k).hif.nextStamp = s.hif.nextStamp ∧ (s.served i qpn q k).arb.outcast = s.arb.outcast := by
  unfold State.served
  generalize hz : { s with fab := { s.fab with qps := tput qpn { q with buf := q.buf.drop 1 } s.fab.qps } } = z
  have hfab : z.fab.qps = tput qpn { q with buf := q.buf.drop 1 } s.fab.qps := by rw [← hz]
  have hhif : z.hif = s.hif := by rw [← hz]
  have harb : z.arb = s.arb := by rw [← hz]
  have hk : Keeps ⟨[.CIC_SRC_STAT], [.cic, .evt, .twn]⟩ (z.takeTurn i) (((z.takeTurn i).raise 192).keepCapsule (capsuleEntry k q.port) k) :=
    .after (State.keeps_keepCapsule _ _ _).up (State.keeps_raise _ _).up
  have hr := State.keeps_recorded (((z.takeTurn i).raise 192).keepCapsule (capsuleEntry k q.port) k) (capsuleEntry k q.port)
  have hcut := State.cutOff_recorded (((z.takeTurn i).raise 192).keepCapsule (capsuleEntry k q.port) k) (capsuleEntry k q.port)
  have ht := State.keeps_takeTurn z i
  obtain ⟨hc, hn⟩ := z.flying_takeTurn i
  refine ⟨?_, ?_, ?_, ?_⟩
  · rw [hr.fab_eq, hk.fab_eq, ht.fab_eq, hfab]
  · rw [hr.hif_eq, hk.hif_eq, hc, hhif]
  · rw [hr.hif_eq, hk.hif_eq, hn, hhif]
  · have h1 : Same State.cutOff z _ := (ht.cutOff.trans hk.cutOff).trans hcut
    have h2 : State.cutOff _ = z.cutOff := h1
    exact h2.trans (congrArg Arb.outcast harb)

/-! ### What ends a capsule (R46, R82) -/

theorem State.nextStamp_fail (s : State) (c : Ctx) (sct sc : Nat) : (s.fail c sct sc).hif.nextStamp = s.hif.nextStamp := by
  have hq : ((s.unchargeAll c.stamp).finish c { sct := sct, sc := sc }).hifRest = (s.unchargeAll c.stamp).hifRest := State.hifRest_finish _ _ _
  have hn : ((s.unchargeAll c.stamp).finish c { sct := sct, sc := sc }).hifRest.nextStamp = (s.unchargeAll c.stamp).hifRest.nextStamp :=
    congrArg Hif.nextStamp hq
  have hu : (s.unchargeAll c.stamp).hif.nextStamp = s.hif.nextStamp := congrArg Hif.nextStamp (State.keeps_unchargeAll s c.stamp).hif_eq
  exact hn.trans hu

theorem State.nextStamp_fetchCheck (s : State) (c : Ctx) (n : Nat) : (s.fetchCheck c n).hif.nextStamp = s.hif.nextStamp := by
  unfold State.fetchCheck
  split
  · exact s.nextStamp_fail _ _ _
  · split
    · exact s.nextStamp_fail _ _ _
    · split
      · exact s.nextStamp_fail _ _ _
      · rfl

theorem State.ctx_fail (c : Ctx) (sct sc : Nat) (hd : s.pow.dumping = false) : (s.fail c sct sc).ctx c.stamp = none :=
  State.ctx_finish (s := s.unchargeAll c.stamp) c { sct := sct, sc := sc } ((congrArg Pow.dumping (State.keeps_unchargeAll s c.stamp).pow_eq).trans hd)

end

end Sys2Proof.Machine
end

section
-- One proof at a time: as many threads as there are lemmas here do not fit beside the model.
set_option Elab.async false
open Sys2Proof Sys2Proof.Machine

/-- Settles O53. -/
theorem capsules : Obligations.Capsules := by
  unfold Obligations.Capsules
  intro s qpn opcode flags cid nsid body hs
  refine ⟨fun hq => ?_, fun q hq => ⟨fun h => ?_, fun he hl hdisc hroom => ⟨fun ht => ?_, fun ht => ?_⟩, fun k hkq hturn hnext ho hfree => ?_⟩⟩
  · exact exec_of_awake hs (congrArg (fun u => s.awake (.next u)) (by rw [hq]))
  · refine exec_of_awake hs (congrArg (fun u => s.awake (.next u)) ?_)
    rw [hq]
    refine if_pos ?_
    rcases h with h | h | h | h
    · simp [h]
    · simp [State.on_of_get_zero h]
    · simp [h]
    · simp [h]
  · have hon : s.on F.FAB_PSTAT.LINK_UP q.port = true := State.on_of_get_one ((State.bit_cases s F.FAB_PSTAT.LINK_UP q.port).resolve_left hl)
    have hfull : decide (q.size ≤ q.buf.length) = false := by simp [hroom]
    have hx : exec (.capsuleReceive qpn opcode flags cid nsid body) s = .next (State.fabricTurns
        (s.setQp qpn { q with
          rseq := q.rseq + 1
          buf := q.buf ++ [{ qpn := qpn, rseq := q.rseq.toNat, bytes := capsuleBytes opcode flags cid nsid body }] })) := by
      refine exec_of_awake hs (congrArg (fun u => s.awake (.next u)) ?_)
      rw [hq]
      refine (if_neg (by rw [he, hdisc, hon, hfull]; decide)).trans ?_
      rw [ht]
      exact if_neg fun h => Bool.false_ne_true (((s.isTrail_setQp qpn _).trans ht).symm.trans h)
    exact ⟨_, hx, tget_tput_self _ _ _, rfl⟩
  · have hon : s.on F.FAB_PSTAT.LINK_UP q.port = true := State.on_of_get_one ((State.bit_cases s F.FAB_PSTAT.LINK_UP q.port).resolve_left hl)
    have hfull : decide (q.size ≤ q.buf.length) = false := by simp [hroom]
    have hx : exec (.capsuleReceive qpn opcode flags cid nsid body) s = .next (State.promoteGo (State.applyGo
        ((s.setQp qpn { q with rseq := q.rseq + 1 }).copied
          { qpn := qpn, rseq := q.rseq.toNat, bytes := capsuleBytes opcode flags cid nsid body } q.port))) := by
      refine exec_of_awake hs (congrArg (fun u => s.awake (.next u)) ?_)
      rw [hq]
      refine (if_neg (by rw [he, hdisc, hon, hfull]; decide)).trans ?_
      rw [ht]
      exact if_pos ((s.isTrail_setQp qpn _).trans ht)
    have hk := (s.setQp qpn { q with rseq := q.rseq + 1 }).keeps_copied
      { qpn := qpn, rseq := q.rseq.toNat, bytes := capsuleBytes opcode flags cid nsid body } q.port
    refine ⟨_, hx, ?_, hk.hif_eq, fun hkeep => State.capsules_copied (s := s.setQp qpn _) hkeep⟩
    rw [hk.fab_eq]
    exact tget_tput_self _ _ _
  · obtain ⟨hqps, hctxs, hns, hcut⟩ := s.served_parts (66 + q.assoc) qpn q k
    have hkw := s.keeps_served (66 + q.assoc) qpn q k
    have hs1 : s.serveAssoc (66 + q.assoc) = State.capsuleTake k (s.served (66 + q.assoc) qpn q k) :=
      State.serveAssoc_eq (by rw [Nat.add_sub_cancel_left]; exact hnext) ho
    dsimp only
    rw [hs1]
    have hboot : (s.served (66 + q.assoc) qpn q k).bootState = s.bootState := hkw.get F.HIF_BOOTSTAT.STATE 0
    have hpow : (s.served (66 + q.assoc) qpn q k).pow = s.pow := hkw.pow_eq
    generalize s.served (66 + q.assoc) qpn q k = w at hqps hctxs hns hcut hboot hpow
    have hwq : tget k.qpn w.fab.qps = some { q with buf := q.buf.drop 1 } := by
      rw [hqps, hkq]
      exact tget_tput_self _ _ _
    have hwfree : w.ctx w.hif.nextStamp = none := by
      rw [State.ctx, hctxs, hns]
      exact hfree
    have hki := w.keeps_capsuleIn k { q with buf := q.buf.drop 1 }
    obtain ⟨h1, h2, h3⟩ := w.capsuleIn_ends k { q with buf := q.buf.drop 1 } hwfree
    rw [State.capsuleTake_eq hwq hwfree]
    have hstamp : (w.capsuleCtx k { q with buf := q.buf.drop 1 }).stamp = s.hif.nextStamp := hns
    refine ⟨?_, fun hr hop hact hb hout => ?_, fun sc hr hd => ?_⟩
    · split
      · rw [State.nextStamp_fail, h1, hns]
      · rw [State.nextStamp_fetchCheck, h1, hns]
    · have hpass : (w.capsuleIn k { q with buf := q.buf.drop 1 }).fetchCheck (w.capsuleCtx k { q with buf := q.buf.drop 1 }) (le k.bytes 40 4) =
          w.capsuleIn k { q with buf := q.buf.drop 1 } := by
        refine State.fetchCheck_passed hop (hact.imp_left fun h => show (q.qid == 0) = false by simpa using h) ?_ ?_
        · exact fun h => hb (hboot.symm.trans ((hki.get F.HIF_BOOTSTAT.STATE 0).symm.trans h))
        · exact (congrArg Arb.outcast hki.arb_eq).trans (hcut.trans hout)
      rw [hr]
      dsimp only
      rw [hpass, ← hkq, h2, ← hns, h3]
      exact ⟨rfl, rfl⟩
    · rw [hr, ← hstamp]
      exact State.ctx_fail _ _ _ ((congrArg Pow.dumping (hki.pow_eq.trans hpow)).trans hd)
end

section
-- One proof at a time: as many threads as there are lemmas here do not fit beside the model.
set_option Elab.async false
namespace Sys2Proof.Machine

/-- The number of the round, and the last captured sample. -/
def State.surveyed (s : State) : Nat × Tbl Int × Tbl Nat := (s.hkp.round, s.hkp.sample, s.hkp.sampleSup)

theorem Keeps.surveyed {F : Foot} {s t : State} (h : Keeps F s t) (hp : F.parts.contains .hkp = false := by decide +kernel) :
    Same State.surveyed s t := congrArg (fun k : Hkp => (k.round, k.sample, k.sampleSup)) (h.hkp_eq hp)

theorem State.surveyed_presetAt (s : State) (k : Nat) : Same State.surveyed s (s.presetAt k) := by
  unfold State.presetAt
  exact .update (.refl _) rfl

theorem State.surveyed_train (s : State) (n : Nat) : Same State.surveyed s (s.train n) := by
  unfold State.train
  exact .after ((State.keeps_control _ _ _ _ _ _).surveyed) (State.surveyed_presetAt _ _)

theorem State.surveyed_runTask (s : State) (t : Nat) (p : Nat) (dur : Nat) : Same State.surveyed s (s.runTask t p dur) := by
  unfold State.runTask
  exact .after (.after (.ite (fun _ => .after ((State.keeps_raise _ _).surveyed) ((State.keeps_bump _ _ _ _).surveyed)) fun _ => .refl _)
    ((State.keeps_put _ _ _ _).surveyed)) (.update (.refl _) rfl)

theorem State.surveyed_wakePack (s : State) (k : Nat) : Same State.surveyed s (s.wakePack k) := by
  unfold State.wakePack
  exact .ite (fun _ => (State.keeps_packIssue _ _ _ _).surveyed) fun _ => .ite (fun _ => .after (State.surveyed_train _ _)
    ((State.keeps_put _ _ _ _).surveyed)) fun _ => .refl _

theorem State.surveyed_wakeGroup (s : State) (g : Nat) : Same State.surveyed s (s.wakeGroup g) := by
  unfold State.wakeGroup
  exact .after (.ite (fun _ => .refl _) fun _ => .after ((State.keeps_raise _ _).surveyed) (.update (.refl _) rfl))
    (.foldl (fun _ _ => State.surveyed_wakePack _ _) _ _)

theorem State.surveyed_packSend (s : State) (n : Nat) (use : PkUse) (c : PackCmd) : Same State.surveyed s (s.packSend n use c) := by
  unfold State.packSend
  exact .ite (fun _ => .refl _) fun _ => .after (.ite (fun _ => (State.keeps_setPk _ _ _).surveyed) fun _ =>
    (State.keeps_packIssue _ _ _ _).surveyed) (.ite (fun _ => State.surveyed_wakeGroup _ _) fun _ => .refl _)

theorem State.surveyed_logPage (s : State) (use : PkUse) (n : Nat) (l : List SysRec) : Same State.surveyed s (s.logPage use n l) := by
  unfold State.logPage
  split
  · exact .after (State.surveyed_packSend _ _ _ _) (.update (.refl _) rfl)
  · exact .refl _

theorem State.surveyed_logCopy (s : State) (lseq : Nat) (n : Nat) : Same State.surveyed s (s.logCopy lseq n) := by
  unfold State.logCopy
  exact State.surveyed_logPage _ _ _ _

theorem State.surveyed_logGo (s : State) : Same State.surveyed s s.logGo := by
  unfold State.logGo
  exact .ite (fun _ => .refl _) fun _ => .after (.foldl (fun _ _ => .foldl (fun _ _ => State.surveyed_logCopy _ _ _) _ _) _ _)
    (.update (.refl _) rfl)

theorem State.surveyed_logSys (s : State) (r : SysRec) : Same State.surveyed s (s.logSys r) := by
  unfold State.logSys
  exact .after (State.surveyed_logGo _) ((State.keeps_logAdd _ _).surveyed)

theorem State.surveyed_eraseGo (s : State) : Same State.surveyed s s.eraseGo := by
  unfold State.eraseGo
  exact .ite (fun _ => .refl _) fun _ => .after (.foldl (fun _ _ => State.surveyed_packSend _ _ _ _) _ _) (.update (.refl _) rfl)

theorem State.surveyed_logJoin (s : State) (n : Nat) : Same State.surveyed s (s.logJoin n) := by
  unfold State.logJoin
  exact .ite (fun _ => .refl _) fun _ => .after (.foldl (fun _ _ => State.surveyed_logPage _ _ _ _) _ _) (.update (.refl _) rfl)

theorem State.surveyed_logLost (s : State) (n : Nat) : Same State.surveyed s (s.logLost n) := by
  unfold State.logLost
  split
  · exact .refl _
  · extract_lets +onlyGivenNames mine1 s2 s3
    have hs3 : Same State.surveyed s s3 := .update (.refl _) rfl
    extract_lets +onlyGivenNames s4 s5
    have hs5 : Same State.surveyed s s5 := by
      unfold s5
      split
      · exact hs3
      · exact .after (.after (.foldl (fun _ _ => State.surveyed_logCopy _ _ _) _ _) (.update (.refl _) rfl))
          (.after (State.surveyed_logJoin _ _) hs3)
    exact .after (State.surveyed_eraseGo _) (.update hs5 rfl)

theorem State.surveyed_healthSave (s : State) : Same State.surveyed s s.healthSave := by
  unfold State.healthSave
  exact .after (State.surveyed_logGo _) ((State.keeps_healthNote _).surveyed)

theorem State.surveyed_roJudge (s : State) : Same State.surveyed s s.roJudge := by
  unfold State.roJudge
  exact .ite (fun _ => .refl _) fun _ => .after (.after (State.surveyed_healthSave _)
    (.ite (fun _ => .after ((State.keeps_critSet _ _).surveyed) (.after ((State.keeps_nsChanged _ _).surveyed)
    (.update (.refl _) rfl))) fun _ => .ite (fun _ => .after ((State.keeps_critClear _ _).surveyed) (.update (.refl _) rfl)) fun _ =>
    .refl _)) (.ite (fun _ => .update (.refl _) rfl) fun _ => .refl _)

theorem State.surveyed_judge (s : State) : Same State.surveyed s s.judge := by
  unfold State.judge
  exact .after (State.surveyed_roJudge _) (.after ((State.keeps_physCheck _).surveyed)
    (.foldl (fun _ _ => (State.keeps_resJudge _ _).surveyed) _ _))

theorem State.surveyed_recomputeU (s : State) : Same State.surveyed s s.recomputeU := by
  unfold State.recomputeU
  exact .after (State.surveyed_judge _) (.ite (fun _ => .refl _) fun _ => (State.keeps_put _ _ _ _).surveyed)

theorem State.surveyed_sendRead (s : State) (use : PkUse) (c : Cb) (m : Nat) (page : Nat) (mask : Nat) : Same State.surveyed s
    (s.sendRead use c m page mask) := by
  unfold State.sendRead
  split
  · exact State.surveyed_packSend _ _ _ _
  · exact .refl _

theorem State.surveyed_readPage (s : State) (use : PkUse) (cbid : Nat) (page : Nat) (m : Nat) (mask : Nat) : Same State.surveyed s
    (s.readPage use cbid page m mask) := by
  unfold State.readPage
  extract_lets +onlyGivenNames c1
  split
  · exact .refl _
  · exact .ite (fun _ => State.surveyed_sendRead _ _ _ _ _ _) fun _ => .ite (fun _ => .refl _) fun _ => .foldl
      (fun _ _ => State.surveyed_sendRead _ _ _ _ _ _) _ _

theorem State.surveyed_eraseOne (s : State) (use : PkUse) (n : Nat) (d : Nat) (b : Nat) : Same State.surveyed s (s.eraseOne use n d b) := by
  unfold State.eraseOne
  exact .after (.after (.after (State.surveyed_eraseGo _) (.update (.refl _) rfl)) (State.surveyed_logSys _ _)) (.update (.refl _) rfl)

theorem State.surveyed_freeIfErased (s : State) (cbid : Nat) : Same State.surveyed s (s.freeIfErased cbid) := by
  unfold State.freeIfErased
  exact .ite (fun _ => .after (.after (State.surveyed_logSys _ _) (.after ((State.keeps_forget _ _).surveyed)
    ((State.keeps_setCb _ _ _).surveyed))) (.update (.refl _) rfl)) fun _ => .refl _

theorem State.surveyed_endRebuild (s : State) (cbid : Nat) : Same State.surveyed s (s.endRebuild cbid) := by
  unfold State.endRebuild
  split
  · exact .refl _
  · exact .ite (fun _ => .refl _) fun _ => .after (.ite (fun _ => State.surveyed_eraseOne _ _ _ _ _) fun _ => .refl _)
      (.update (.refl _) rfl)

theorem State.surveyed_copyPages (s : State) (cbid : Nat) (n : Nat) : Same State.surveyed s (s.copyPages cbid n) := by
  unfold State.copyPages
  exact .foldl (fun _ _ => .after (.update (.refl _) rfl) (State.surveyed_readPage _ _ _ _ _ _)) _ _

theorem State.surveyed_copyAll (s : State) (cbid : Nat) : Same State.surveyed s (s.copyAll cbid) := by
  unfold State.copyAll
  exact .ite (fun _ => State.surveyed_copyPages _ _ _) fun _ => .refl _

theorem State.surveyed_copyAgain (s : State) (l : List Placed) : Same State.surveyed s (s.copyAgain l) := by
  unfold State.copyAgain
  exact .after (.foldl (fun _ _ => State.surveyed_copyAll _ _) _ _) (.update (.refl _) rfl)

theorem State.surveyed_dropFlights (s : State) (cbid : Nat) : Same State.surveyed s (s.dropFlights cbid) := by
  unfold State.dropFlights
  exact .after (.after (State.surveyed_copyAgain _ _) (.after ((State.keeps_unplace _ _ _).surveyed) (.update (.refl _) rfl)))
    (.foldl (fun _ _ => (State.keeps_engWrite _ _ _).surveyed) _ _)

theorem State.surveyed_closeBlock (s : State) (cbid : Nat) (page : Nat) : Same State.surveyed s (s.closeBlock cbid page) := by
  unfold State.closeBlock
  exact .after (State.surveyed_logSys _ _) ((State.keeps_setCb _ _ _).surveyed)

theorem State.surveyed_loseMember (s : State) (cbid : Nat) (m : Nat) : Same State.surveyed s (s.loseMember cbid m) := by
  unfold State.loseMember
  extract_lets +onlyGivenNames c1
  split
  · exact .refl _
  · exact .ite (fun _ => .refl _) fun _ => .after
      (.after (.after (.after ((State.keeps_poisonLost _ _).surveyed) ((State.keeps_setCb _ _ _).surveyed))
      (.after (State.surveyed_copyAgain _ _) (.update (.refl _) rfl))) (.ite (fun _ => .after (State.surveyed_closeBlock _ _ _)
      (State.surveyed_dropFlights _ _)) fun _ => .refl _)) (.after (State.surveyed_logSys _ _) ((State.keeps_setCb _ _ _).surveyed))

theorem State.surveyed_loseWhere (s : State) (p : Member → Bool) : Same State.surveyed s (s.loseWhere p) := by
  unfold State.loseWhere
  exact .foldl (fun _ _ => State.surveyed_loseMember _ _ _) _ _

theorem State.surveyed_dropRebuild (s : State) (p : Member → Bool) : Same State.surveyed s (s.dropRebuild p) := by
  unfold State.dropRebuild
  split
  · exact .refl _
  · exact .ite (fun _ => .update (.refl _) rfl) fun _ => .ite (fun _ => State.surveyed_endRebuild _ _) fun _ => .refl _

theorem State.surveyed_idWriteStart (s : State) (n : Nat) : Same State.surveyed s (s.idWriteStart n) := by
  unfold State.idWriteStart
  exact .ite (fun _ => (State.keeps_setPk _ _ _).surveyed) fun _ => .after (State.surveyed_packSend _ _ _ _)
    ((State.keeps_setPk _ _ _).surveyed)

theorem State.surveyed_idUpdate (s : State) (n : Nat) (i : PackId) : Same State.surveyed s (s.idUpdate n i) := by
  unfold State.idUpdate
  exact .after (.ite (fun _ => State.surveyed_idWriteStart _ _) fun _ => (State.keeps_setPk _ _ _).surveyed)
    ((State.keeps_setPk _ _ _).surveyed)

theorem State.surveyed_eraseHalf (s : State) (h : Nat) : Same State.surveyed s (s.eraseHalf h) := by
  unfold State.eraseHalf
  refine .foldl (fun u1 x2 => ?_) _ _
  split
  · exact .refl _
  · refine .foldl (fun u3 x4 => ?_) _ _
    refine .foldl (fun u5 x6 => ?_) _ _
    split
    · exact State.surveyed_eraseOne _ _ _ _ _
    · exact .refl _

theorem State.surveyed_releaseHalf (s : State) : Same State.surveyed s s.releaseHalf := by
  unfold State.releaseHalf
  split
  · exact .refl _
  · split
    · exact .refl _
    · extract_lets +onlyGivenNames left1 s2 s3
      have hs3 : Same State.surveyed s s3 := .ite (fun _ => .update (.refl _) rfl) fun _ => .refl _
      split
      · exact hs3
      · exact .ite (fun _ => hs3) fun _ => .after (.foldl (fun _ _ => .after (State.surveyed_eraseHalf _ _)
          (State.surveyed_logSys _ _)) _ _) (.update hs3 rfl)

theorem State.surveyed_dormantGo (s : State) : Same State.surveyed s s.dormantGo := by
  unfold State.dormantGo
  refine .ite (fun _ => .refl _) fun _ => ?_
  extract_lets s1
  have h1 : Same State.surveyed s s1 := .after ((State.keeps_put _ _ _ _).surveyed) ((State.keeps_tallyEnd _ _).surveyed)
  have h2 : Same State.surveyed s1 (s1.put F.HBC_INIT.DONE 0 0) := (State.keeps_put s1 _ _ _).surveyed
  have hup (x : State) : Same State.surveyed x
      { x with hkp := { x.hkp with pll := 0, hbmOn := false }, pow := { x.pow with entering := false } } := .update (.refl _) rfl
  exact h1.trans (h2.trans (hup _))

theorem State.surveyed_flow (s : State) : Same State.surveyed s s.flow := by
  unfold State.flow
  exact .after (.after (.after (.after (.after (.after (State.surveyed_dormantGo _) (State.surveyed_releaseHalf _))
    (.foldl (fun _ _ => (State.keeps_shutdownOne _ _).surveyed) _ _)) (.foldl (fun _ _ => (State.keeps_rotateOne _ _).surveyed) _ _))
    (.foldl (fun _ _ => (State.keeps_detachOne _ _).surveyed) _ _)) (.foldl (fun _ _ => (State.keeps_flushOne _ _).surveyed) _ _))
    (.after ((State.keeps_journalDue _).surveyed) (State.surveyed_logGo _))

theorem State.surveyed_sendTemp (s : State) (n : Nat) : Same State.surveyed s (s.sendTemp n) := by
  unfold State.sendTemp
  exact State.surveyed_packSend _ _ _ _

theorem State.surveyed_enterService (s : State) (n : Nat) : Same State.surveyed s (s.enterService n) := by
  unfold State.enterService
  split
  · exact .refl _
  · exact .after (.after (.after (State.surveyed_recomputeU _) (.after (State.surveyed_logJoin _ _) (State.surveyed_idUpdate _ _ _)))
      (.ite (fun _ => (State.keeps_setPk _ _ _).surveyed) fun _ => .after ((State.keeps_setPkState _ _ _).surveyed)
      ((State.keeps_setPk _ _ _).surveyed))) (.update (.refl _) rfl)

theorem State.surveyed_eraseAllBlocks (s : State) (n : Nat) (i : PackId) : Same State.surveyed s (s.eraseAllBlocks n i) := by
  unfold State.eraseAllBlocks
  exact .foldl (fun _ _ => .foldl (fun _ _ => .ite (fun _ => .refl _) fun _ => State.surveyed_eraseOne _ _ _ _ _) _ _) _ _

theorem State.surveyed_admitPack (s : State) (n : Nat) : Same State.surveyed s (s.admitPack n) := by
  unfold State.admitPack
  split
  · exact .refl _
  · exact .ite (fun _ => .refl _) fun _ => .ite (fun _ => (State.keeps_setPkState _ _ _).surveyed) fun _ => .ite
      (fun _ => .ite (fun _ => .refl _) fun _ => .after (State.surveyed_eraseAllBlocks _ _ _) (.after ((State.keeps_setPk _ _ _).surveyed)
      ((State.keeps_adopt _ _ _).surveyed))) fun _ => .after (State.surveyed_enterService _ _) ((State.keeps_adopt _ _ _).surveyed)

theorem State.surveyed_forgetErases (s : State) (n : Nat) : Same State.surveyed s (s.forgetErases n) := by
  unfold State.forgetErases
  exact .after (.foldl (fun _ _ => State.surveyed_freeIfErased _ _) _ _) (.update (.refl _) rfl)

theorem State.surveyed_useReserve (s : State) (lost : Nat) : Same State.surveyed s (s.useReserve lost) := by
  unfold State.useReserve
  split
  · exact .refl _
  · exact .after (State.surveyed_admitPack _ _) (.after ((State.keeps_sgenUp _).surveyed) (.update (.refl _) rfl))

theorem State.surveyed_packLost (s : State) (n : Nat) : Same State.surveyed s (s.packLost n) := by
  unfold State.packLost
  refine .ite (fun _ => .refl s) fun _ => ?_
  extract_lets +onlyGivenNames p was l s1 s2 s3 cut f s4 s5 s6
  have h1 : Same State.surveyed s s1 := (State.keeps_setPk _ _ _).surveyed
  have h2 : Same State.surveyed s1 s2 := .after (State.keeps_outstUpdate _ _).surveyed (.after (State.keeps_setPkState _ _ _).surveyed
    (.ite (fun _ => (State.keeps_markGone _ _).surveyed) fun _ => .refl _))
  have h3 : Same State.surveyed s2 s3 := .ite (fun _ => (State.keeps_put _ _ _ _).surveyed) fun _ => .refl _
  have hfw (x : State) : Same State.surveyed x { x with fw := { x.fw with upd := x.fw.upd.map cut } } := .update (.refl _) rfl
  clear_value s1 s2 s3
  have h4 : Same State.surveyed s3 s4 := hfw s3
  clear_value s4
  have h5 : Same State.surveyed s4 s5 := .after (State.surveyed_forgetErases _ _) (.after (State.surveyed_dropRebuild _ _)
    (State.surveyed_loseWhere _ _))
  have h6 : Same State.surveyed s5 s6 := .after (State.surveyed_logLost _ _) (State.surveyed_recomputeU _)
  clear_value s5 s6
  have hs := h1.trans (h2.trans (h3.trans (h4.trans (h5.trans h6))))
  exact .ite (fun _ => .after (State.surveyed_flow _) (.after (State.surveyed_useReserve _ _) hs)) fun _ => hs

theorem State.surveyed_tsBand (s : State) (i : Nat) (t : Int) : Same State.surveyed s (s.tsBand i t) := by
  unfold State.tsBand
  exact .ite (fun _ => .after ((State.keeps_raise _ _).surveyed) (.after ((State.keeps_put _ _ _ _).surveyed)
    (.update (.refl _) rfl))) fun _ => .ite (fun _ => .ite (fun _ => .after ((State.keeps_raise _ _).surveyed)
    (.after ((State.keeps_put _ _ _ _).surveyed) (.update (.refl _) rfl))) fun _ => .update (.refl _) rfl) fun _ => .update (.refl _) rfl

theorem State.surveyed_tsRead (s : State) (e : Int × Nat) : Same State.surveyed s (s.tsRead e) := by
  unfold State.tsRead
  exact .ite (fun _ => .refl _) fun _ => .after (State.surveyed_tsBand _ _ _) ((State.keeps_put _ _ _ _).surveyed)

theorem State.surveyed_supRead (s : State) (e : Nat × Nat) : Same State.surveyed s (s.supRead e) := by
  unfold State.supRead
  exact .ite (fun _ => .refl _) fun _ => .after
    (.after (.ite (fun _ => .after ((State.keeps_raise _ _).surveyed) ((State.keeps_put _ _ _ _).surveyed)) fun _ => .refl _)
    (.update (.refl _) rfl)) ((State.keeps_put _ _ _ _).surveyed)

theorem State.surveyed_sendTemps (s : State) : Same State.surveyed s s.sendTemps := by
  unfold State.sendTemps
  exact .foldl (fun _ _ => State.surveyed_sendTemp _ _) _ _

theorem State.surveyed_laneOn (s : State) (n : Nat) : Same State.surveyed s (s.laneOn n) := by
  unfold State.laneOn
  exact .after (State.surveyed_train _ _) (.after ((State.keeps_put _ _ _ _).surveyed) ((State.keeps_setSide _ _ _).surveyed))

theorem State.surveyed_laneTry (s : State) (n : Nat) : Same State.surveyed s (s.laneTry n) := by
  unfold State.laneTry
  split
  · exact .refl _
  · exact .ite (fun _ => State.surveyed_laneOn _ _) fun _ => .ite (fun _ => .refl _) fun _ => .after
      ((State.keeps_setPkState _ _ _).surveyed) ((State.keeps_setSide _ _ _).surveyed)

theorem State.surveyed_presence (n : Nat) (present : Bool) (s : State) : Same State.surveyed s (State.presence n present s) := by
  unfold State.presence
  exact .after (.ite (fun _ => .ite (fun _ => .after (.ite (fun _ => State.surveyed_laneOn _ _) fun _ => State.surveyed_laneTry _ _)
    ((State.keeps_setSide _ _ _).surveyed)) fun _ => .refl _) fun _ => .after (.ite (fun _ => State.surveyed_packLost _ _) fun _ => .ite
    (fun _ => .refl _) fun _ => (State.keeps_setPkState _ _ _).surveyed) (.after ((State.keeps_setPk _ _ _).surveyed)
    ((State.keeps_put _ _ _ _).surveyed))) ((State.keeps_pkBit _ _ _).surveyed)

/-- A part of the housekeeping that the effect of an entry keeps, its capture keeps. -/
theorem State.hkp_capture {α : Type} (g : Hkp → α) (s : State) (e : LEntry) (f : State → State) (hf : ∀ u : State, g (f u).hkp = g u.hkp) :
    g (s.capture e f).hkp = g s.hkp := by
  have hrec : ∀ (s : State) (e : LEntry), ((if s.staged then s.recordPut e else s).ringDeliver e).hkp = s.hkp := fun s e => by
    rw [(State.keeps_ringDeliver _ _).hkp_eq]
    split
    · exact (State.keeps_recordPut _ _).hkp_eq
    · rfl
  unfold State.capture
  split
  · split
    · rfl
    · rfl
  · extract_lets e1 w s1
    split
    · exact congrArg g (.trans (State.keeps_raise _ _).hkp_eq (State.keeps_put _ _ _ _).hkp_eq)
    · exact (hf _).trans (congrArg g (hrec _ _))

theorem State.surveyed_capture (s : State) (e : LEntry) (f : State → State) (hf : ∀ u, Same State.surveyed u (f u)) :
    Same State.surveyed s (s.capture e f) :=
  State.hkp_capture (fun k => (k.round, k.sample, k.sampleSup)) s e f hf

theorem State.surveyed_pollPort (ack : BitVec 32) (types : Tbl (BitVec 32)) (s : State) (n : Nat) :
    Same State.surveyed s (State.pollPort ack types s n) := by
  unfold State.pollPort
  refine .ite (fun _ => ?_) fun _ => ?_
  · extract_lets k1 s1
    have h1 : Same State.surveyed s s1 := .update (.refl s) rfl
    clear_value s1
    split
    · exact .after (.ite (fun _ => State.surveyed_laneTry _ _) fun _ => .refl _) (.ite (fun _ => .after (State.keeps_setPk _ _ _).surveyed h1) fun _ => h1)
    · exact h1
  · extract_lets s2 k3 s3 s4
    have h2 : Same State.surveyed s s2 := .ite (fun _ => (State.keeps_bump _ _ _ _).surveyed) fun _ => .refl s
    clear_value s2
    refine .ite (fun _ => .update h2 rfl) fun _ => ?_
    have h3 : Same State.surveyed s s3 := .update h2 rfl
    clear_value s3
    exact .after (State.surveyed_capture _ _ _ fun u => State.surveyed_presence _ _ u) (.after (State.keeps_put _ _ _ _).surveyed h3)

/-- The number of the checkpoint round. -/
def State.roundNo (s : State) : Nat := s.map.ckptRound

theorem Keeps.roundNo {F : Foot} {s t : State} (h : Keeps F s t) (hp : F.parts.contains .map = false := by decide +kernel) :
    Same State.roundNo s t := congrArg MapS.ckptRound (h.map_eq hp)

theorem State.roundNo_grainsFree (s : State) (gaddr : Nat) (len : Nat) : Same State.roundNo s (s.grainsFree gaddr len) := by
  unfold State.grainsFree
  exact .ite (fun _ => .refl _) fun _ => .after (.update (.refl _) rfl) ((State.keeps_setCb _ _ _).roundNo)

theorem State.roundNo_closeJournal (s : State) : Same State.roundNo s s.closeJournal := by
  unfold State.closeJournal
  exact .ite (fun _ => .refl _) fun _ => .after ((State.keeps_logAdd _ _).roundNo) (.update (.refl _) rfl)

theorem State.roundNo_journal (s : State) (typ : Nat) (blk : Nat) (nsidx : Nat) (inst : BitVec 32) (key : Nat)
    (value : BitVec 64) : Same State.roundNo s (s.journal typ blk nsidx inst key value) := by
  unfold State.journal
  exact .after (.ite (fun _ => State.roundNo_closeJournal _) fun _ => .refl _) (.update (.refl _) rfl)

theorem State.roundNo_ckptAdd (s : State) (u : CkUnit) : Same State.roundNo s (s.ckptAdd u) := by
  unfold State.ckptAdd
  exact .update (.refl _) rfl

theorem State.roundNo_storePage (round : Bool) (s : State) (mpn : Nat) : Same State.roundNo s (State.storePage round s mpn) := by
  unfold State.storePage
  exact State.roundNo_ckptAdd _ _

theorem State.roundNo_releaseJournal (s : State) (oldest : Nat) : Same State.roundNo s (s.releaseJournal oldest) := by
  unfold State.releaseJournal
  exact .after (.update (.refl _) rfl) (.foldl (fun _ _ => (State.keeps_setCb _ _ _).roundNo) _ _)

theorem State.roundNo_dropStored (s : State) (mark : Nat) : Same State.roundNo s (s.dropStored mark) := by
  unfold State.dropStored
  exact .after (.update (.refl _) rfl) (.foldl (fun _ _ => State.roundNo_grainsFree _ _ _) _ _)

theorem State.roundNo_roundGo (s : State) : Same State.roundNo s s.roundGo := by
  unfold State.roundGo
  split
  · exact .refl _
  · exact .ite (fun _ => .refl _) fun _ => .after (.after (.after (.after (State.roundNo_releaseJournal _ _) (State.roundNo_dropStored _ _))
      (State.roundNo_journal _ _ _ _ _ _ _)) (.update (.refl _) rfl)) (.foldl (fun _ _ => State.roundNo_grainsFree _ _ _) _ _)

theorem State.roundNo_storePatches (s : State) (r : CkRound) : Same State.roundNo s (s.storePatches r) := by
  unfold State.storePatches
  exact .foldl (fun _ _ => State.roundNo_ckptAdd _ _) _ _

theorem State.roundNo_storeTables (s : State) (mark : Nat) : Same State.roundNo s (s.storeTables mark) := by
  unfold State.storeTables
  exact .after (.foldl (fun _ _ => State.roundNo_ckptAdd _ _) _ _) (.foldl (fun _ _ => State.roundNo_ckptAdd _ _) _ _)

section
variable {s t : State}

/-! ### Sensors and supplies (R582, R583) -/

/-- A fold over indexed items: what the turn of an item's index writes is there at the end, if no other turn writes it. -/
theorem get_foldl_idx {β : Type} (g : State → β × Nat → State) (fl : Fld) (val : β → Nat) (n : Nat)
    (hit : ∀ s x i, i < n → (g s (x, i)).get fl i = val x) (other : ∀ s x i j, j ≠ i → (g s (x, i)).get fl j = s.get fl j)
    (l : List β) (s : State) {i : Nat} {x : β} (hi : i < n) (hx : l[i]? = some x) : (l.zipIdx.foldl g s).get fl i = val x := by
  have hkeep : ∀ (l : List β) (m : Nat) (s : State) (j : Nat), j < m → ((l.zipIdx m).foldl g s).get fl j = s.get fl j := fun l => by
    induction l with
    | nil => exact fun _ _ _ _ => rfl
    | cons a l ih =>
      intro m s j hj
      exact (ih (m + 1) _ j (by omega)).trans (other s a m j (by omega))
  have hall : ∀ (l : List β) (m k : Nat) (s : State), m + k < n → l[k]? = some x → ((l.zipIdx m).foldl g s).get fl (m + k) = val x := fun l => by
    induction l with
    | nil => exact fun m k s _ h => by simp at h
    | cons a l ih =>
      intro m k s hmk h
      cases k with
      | zero =>
        have ha : a = x := by simpa using h
        rw [← ha]
        exact (hkeep l (m + 1) _ m (by omega)).trans (hit s a m hmk)
      | succ k =>
        have hmk' : m + 1 + k < n := by omega
        have hr := ih (m + 1) k (g s (a, m)) hmk' (by simpa using h)
        rw [show m + (k + 1) = m + 1 + k by omega]
        exact hr
  have h := hall l 0 i s (by omega) hx
  rw [Nat.zero_add] at h
  exact h

theorem State.get_tsBand (s : State) (i : Nat) (t : Int) (j : Nat) : (s.tsBand i t).get F.HKP_TS.TEMP j = s.get F.HKP_TS.TEMP j := by
  have hset : ∀ n b : Nat, (({ s with hkp := { s.hkp with cool := tput i n s.hkp.cool } }.put F.HKP_TS.BAND i b).raise 222).get F.HKP_TS.TEMP j =
      s.get F.HKP_TS.TEMP j := fun n b => by
    rw [(State.keeps_raise _ _).get F.HKP_TS.TEMP j, State.get_put_apart _ i j b]
    rfl
  unfold State.tsBand
  extract_lets old low n set
  split
  · exact hset 0 _
  · split
    · split
      · exact hset 0 _
      · rfl
    · rfl

theorem State.get_tsRead (s : State) (t : Int) {i : Nat} (h : i < 16) : (s.tsRead (t, i)).get F.HKP_TS.TEMP i = (t % 65536).toNat := by
  have hlt : (t % 65536).toNat < 2 ^ (F.HKP_TS.TEMP.hi + 1 - F.HKP_TS.TEMP.lo) := by
    show (t % 65536).toNat < 65536
    omega
  unfold State.tsRead
  rw [if_neg (by dsimp only; omega), State.get_tsBand, State.get_put_same _ F.HKP_TS.TEMP, Nat.mod_eq_of_lt hlt]

theorem State.get_tsRead_other (s : State) (t : Int) (i j : Nat) (h : j ≠ i) : (s.tsRead (t, i)).get F.HKP_TS.TEMP j = s.get F.HKP_TS.TEMP j := by
  unfold State.tsRead
  split
  · rfl
  · rw [State.get_tsBand, State.get_put_inst _ _ h]

theorem State.get_supRead (s : State) (v : Nat) {i : Nat} (h : i < 8) : (s.supRead (v, i)).get F.HKP_SUP.MV i = v % 65536 := by
  unfold State.supRead
  rw [if_neg (by dsimp only; omega)]
  dsimp -zeta only
  extract_lets nom bad n s1 k s2
  have h2 : s2.get F.HKP_SUP.MV i = v % 65536 := State.get_put_same s F.HKP_SUP.MV i v
  clear_value s2
  split
  · rw [(State.keeps_raise _ _).get F.HKP_SUP.MV i, State.get_put_apart _ i i 1, h2]
  · exact h2

theorem State.get_supRead_other (s : State) (v i j : Nat) (h : j ≠ i) : (s.supRead (v, i)).get F.HKP_SUP.MV j = s.get F.HKP_SUP.MV j := by
  unfold State.supRead
  split
  · rfl
  · extract_lets nom bad n s1 k s2
    have h2 : s2.get F.HKP_SUP.MV j = s.get F.HKP_SUP.MV j := State.get_put_inst _ v h
    clear_value s2
    split
    · rw [(State.keeps_raise _ _).get F.HKP_SUP.MV j, State.get_put_inst _ _ h, h2]
    · exact h2

/-- The ports that `lines` names show that they are degraded. -/
def State.fecDeg (s : State) (fec : BitVec 2) : State :=
  [0, 1].foldl (fun s p => if fec.getLsbD p then (s.put F.FAB_PSTAT.FEC_DEG p 1).raise 201 else s) s

theorem State.keeps_fecDeg (s : State) (fec : BitVec 2) : Keeps ⟨[.FAB_PSTAT, .CIC_SRC_STAT], [.cic, .evt]⟩ s (s.fecDeg fec) :=
  .foldl (fun _ _ => .ite (fun _ => .after (State.keeps_raise _ _).up (State.keeps_put _ _ _ _).up) fun _ => .refl _) _ s

theorem State.get_fecDeg (s : State) (fec : BitVec 2) (p : Fin 2) (h : fec.getLsbD p = true) : (s.fecDeg fec).get F.FAB_PSTAT.FEC_DEG p = 1 := by
  have hset : ∀ (s : State) (q : Nat), ((s.put F.FAB_PSTAT.FEC_DEG q 1).raise 201).get F.FAB_PSTAT.FEC_DEG q = 1 := fun s q => by
    rw [(State.keeps_raise _ _).get F.FAB_PSTAT.FEC_DEG q, State.get_put_same _ F.FAB_PSTAT.FEC_DEG]
    rfl
  have hother : ∀ (s : State) (q : Nat), q ≠ p.val → (if fec.getLsbD q then (s.put F.FAB_PSTAT.FEC_DEG q 1).raise 201 else s).get F.FAB_PSTAT.FEC_DEG p =
      s.get F.FAB_PSTAT.FEC_DEG p := fun s q hq => by
    split
    · rw [(State.keeps_raise _ _).get F.FAB_PSTAT.FEC_DEG p, State.get_put_inst _ _ (Ne.symm hq)]
    · rfl
  have hmine : ∀ s : State, (if fec.getLsbD p.val then (s.put F.FAB_PSTAT.FEC_DEG p.val 1).raise 201 else s).get F.FAB_PSTAT.FEC_DEG p = 1 := fun s => by
    rw [if_pos h]
    exact hset s p.val
  unfold State.fecDeg
  rw [List.foldl_cons, List.foldl_cons, List.foldl_nil]
  rcases (show p.val = 0 ∨ p.val = 1 by omega) with hp | hp
  · rw [hother _ 1 (by omega)]
    have h0 := hmine s
    rw [hp] at h0 ⊢
    exact h0
  · have h1 := hmine (if fec.getLsbD 0 then (s.put F.FAB_PSTAT.FEC_DEG 0 1).raise 201 else s)
    rw [hp] at h1 ⊢
    exact h1

/-- What a round has read, before its sample takes effect. -/
def State.surveyRead (s : State) (dur : Nat) (ts : List Int) (sup : List Nat) (fec : BitVec 2) : State :=
  let s := ((s.runTask taskHousekeeping 8000 dur).hwPulse 1).fecDeg fec
  let s := { s with hkp := { s.hkp with round := (s.hkp.round + 1) % 2 ^ 32 } }
  let s := ts.zipIdx.foldl State.tsRead s
  let s := (sup.zipIdx.foldl State.supRead s).tallySample ts
  ((s.bandRound 0).bandRound 1).raise 220


/-- What the reads of a round write. -/
abbrev Foot.surveyRead : Foot := ⟨[.CIC_SRC_STAT, .HKP_TASK, .FAB_PSTAT, .HKP_TS, .HKP_SUP, .HBC_STAT], [.cic, .evt, .hkp, .hbm, .tly]⟩

theorem State.keeps_surveyRead (s : State) (dur : Nat) (ts : List Int) (sup : List Nat) (fec : BitVec 2) :
    Keeps .surveyRead s (s.surveyRead dur ts sup fec) := by
  unfold State.surveyRead
  extract_lets s1 k1 s2 s3 s4
  have h1 : Keeps .surveyRead s s1 := .after (State.keeps_fecDeg _ _).up (.after (State.keeps_hwPulse _ _).up (State.keeps_runTask _ _ _ _).up)
  have h2 : Keeps .surveyRead s s2 := .update h1 rfl
  have h3 : Keeps .surveyRead s s3 := .after (.foldl (fun s e => (s.keeps_tsRead e).up) _ _) h2
  have h4 : Keeps .surveyRead s s4 := .after (State.keeps_tallySample _ _).up (.after (.foldl (fun s e => (s.keeps_supRead e).up) _ _) h3)
  exact .after (State.keeps_raise _ _).up (.after (State.keeps_bandRound _ _).up (.after (State.keeps_bandRound _ _).up h4))

theorem State.surveyed_surveyRead (s : State) (dur : Nat) (ts : List Int) (sup : List Nat) (fec : BitVec 2) :
    (s.surveyRead dur ts sup fec).hkp.round = (s.hkp.round + 1) % 2 ^ 32 := by
  unfold State.surveyRead
  extract_lets s1 k1 s2 s3 s4
  have h1 : Same State.surveyed s s1 := .after (State.keeps_fecDeg _ _).surveyed (.after (State.keeps_hwPulse _ _).surveyed (State.surveyed_runTask _ _ _ _))
  have h3 : Same State.surveyed s2 s3 := .foldl State.surveyed_tsRead _ _
  have h4 : Same State.surveyed s3 s4 := .after (State.keeps_tallySample _ _).surveyed (.foldl State.surveyed_supRead _ _)
  have h5 : Same State.surveyed s4 (((s4.bandRound 0).bandRound 1).raise 220) :=
    .after (State.keeps_raise _ _).surveyed (.after (State.keeps_bandRound _ _).surveyed (State.keeps_bandRound _ _).surveyed)
  have he : (((s4.bandRound 0).bandRound 1).raise 220).surveyed = s2.surveyed := (h3.trans h4).trans h5
  have hr : s1.surveyed = s.surveyed := h1
  have hround : s1.hkp.round = s.hkp.round := congrArg Prod.fst hr
  have hlast : (((s4.bandRound 0).bandRound 1).raise 220).hkp.round = s2.hkp.round := congrArg Prod.fst he
  rw [hlast, ← hround]

theorem State.get_surveyRead (s : State) (dur : Nat) (ts : List Int) (sup : List Nat) (fec : BitVec 2) :
    (∀ p : Fin 2, fec.getLsbD p = true → (s.surveyRead dur ts sup fec).get F.FAB_PSTAT.FEC_DEG p = 1) ∧
      (∀ i t, i < 16 → ts[i]? = some t → (s.surveyRead dur ts sup fec).get F.HKP_TS.TEMP i = (t % 65536).toNat) ∧
      ∀ j v, j < 8 → sup[j]? = some v → (s.surveyRead dur ts sup fec).get F.HKP_SUP.MV j = v % 65536 := by
  unfold State.surveyRead
  extract_lets s1 k1 s2 s3 s4
  have hts : Keeps ⟨[.CIC_SRC_STAT, .HKP_TS], [.cic, .evt, .hkp]⟩ s2 s3 := .foldl (fun s e => s.keeps_tsRead e) _ _
  have hsup : Keeps ⟨[.CIC_SRC_STAT, .HKP_SUP], [.cic, .evt, .hkp]⟩ s3 (sup.zipIdx.foldl State.supRead s3) := .foldl (fun s e => s.keeps_supRead e) _ _
  have hrest : Keeps ⟨[.CIC_SRC_STAT, .HBC_STAT], [.cic, .evt, .hbm, .tly]⟩ (sup.zipIdx.foldl State.supRead s3) (((s4.bandRound 0).bandRound 1).raise 220) :=
    .after (State.keeps_raise _ _).up (.after (State.keeps_bandRound _ _).up (.after (State.keeps_bandRound _ _).up (State.keeps_tallySample _ _).up))
  refine ⟨fun p hp => ?_, fun i t hi ht => ?_, fun j v hj hv => ?_⟩
  · rw [hrest.get F.FAB_PSTAT.FEC_DEG p, hsup.get F.FAB_PSTAT.FEC_DEG p, hts.get F.FAB_PSTAT.FEC_DEG p]
    exact State.get_fecDeg ((s.runTask taskHousekeeping 8000 dur).hwPulse 1) fec p hp
  · rw [hrest.get F.HKP_TS.TEMP i, hsup.get F.HKP_TS.TEMP i]
    exact get_foldl_idx State.tsRead F.HKP_TS.TEMP (fun t => (t % 65536).toNat) 16 (fun s t i h => s.get_tsRead t h)
      (fun s t i j h => s.get_tsRead_other t i j h) ts s2 hi ht
  · rw [hrest.get F.HKP_SUP.MV j]
    exact get_foldl_idx State.supRead F.HKP_SUP.MV (fun v => v % 65536) 8 (fun s v i h => s.get_supRead v h)
      (fun s v i j h => s.get_supRead_other v i j h) sup s3 hj hv

/-- What follows the reads while the controller does not drowse. -/
def State.surveyUse (s : State) (ts : List Int) (sup : List Nat) (ack : BitVec 32) (types : Tbl (BitVec 32)) (stuck : BitVec 8) : State :=
  (List.range 8).foldl (State.pollBus stuck) ((List.range 32).foldl (State.pollPort ack types)
    (s.capture (sampleEntry s.hkp.round ts sup) (State.useSample ts sup)))

theorem State.execSurvey (s : State) (hs : s.Runs) (dur : Nat) (ts : List Int) (sup : List Nat) (ack : BitVec 32) (lines : HkpLines) :
    exec (.housekeepingRound dur ts sup ack lines) s = .next (if (s.surveyRead dur ts sup lines.fec).get F.CPM_PSTATE.STATE ≠ 0 then
      ((s.surveyRead dur ts sup lines.fec).keepSample ts sup).judgeTemp
      else ((s.surveyRead dur ts sup lines.fec).surveyUse ts sup ack lines.types lines.stuck).flow) := exec_of_awake hs rfl

theorem State.keeps_surveyUse (s : State) (ts : List Int) (sup : List Nat) (ack : BitVec 32) (types : Tbl (BitVec 32)) (stuck : BitVec 8) :
    Keeps ⟨[.CIC_SRC_STAT, .CPM_PSTATE, .CSTS, .HBC_INIT, .HKP_I2C, .MAP_CAP_USABLE, .MAP_MISS_CNT, .PKP_CRED, .PKP_CSEQ, .PKP_CTL, .PKP_STAT,
      .PMC_CNT, .PMC_CTL, .TLY_CTL, .TLY_STAT, .TWN_LINK, .TWN_STAT], [.arb, .cic, .conv, .evt, .fab, .freeNo, .fw, .hbm, .health, .hif, .hkp,
      .keys, .map, .mem, .nor, .out, .packs, .pow, .setv, .sgen, .snor, .tly, .twn]⟩ s (s.surveyUse ts sup ack types stuck) :=
  .after (.foldl (fun s b => (State.keeps_pollBus stuck s b).up) _ _) (.after (.foldl (fun s n => (State.keeps_pollPort ack types s n).up) _ _)
    (State.keeps_capture _ _ _ (fun u => (State.keeps_useSample ts sup u).up) (by decide +kernel)))

/-- The polls of a round keep its number and the sample. -/
theorem State.surveyed_surveyUse (s : State) (ts : List Int) (sup : List Nat) (ack : BitVec 32) (types : Tbl (BitVec 32)) (stuck : BitVec 8) :
    Same State.surveyed (s.capture (sampleEntry s.hkp.round ts sup) (State.useSample ts sup)) (s.surveyUse ts sup ack types stuck) :=
  .after (.foldl (fun s b => (State.keeps_pollBus stuck s b).surveyed) _ _) (.foldl (fun s n => State.surveyed_pollPort ack types s n) _ _)

theorem State.surveyed_useSample (s : State) (ts : List Int) (sup : List Nat) :
    (State.useSample ts sup s).surveyed = (s.hkp.round, tblOf ts, tblOf sup) := by
  have h : Same State.surveyed (s.keepSample ts sup) (State.useSample ts sup s) :=
    .after (State.surveyed_sendTemps _) (State.keeps_judgeTemp _).surveyed
  exact h

/-- A sample's number stays, whether its entry is captured or held. -/
theorem State.round_capture (s : State) (e : LEntry) (ts : List Int) (sup : List Nat) :
    (s.capture e (State.useSample ts sup)).hkp.round = s.hkp.round :=
  State.hkp_capture Hkp.round s e _ fun u => congrArg Prod.fst (u.surveyed_useSample ts sup)

theorem length_packFields (ws vs : List Nat) (h : vs.length ≤ ws.length) : (packFields ws vs).length ≤ ws.sum := by
  induction ws generalizing vs with
  | nil =>
    cases vs with
    | nil => exact Nat.le_refl 0
    | cons v vs => simp at h
  | cons w ws ih =>
    cases vs with
    | nil => exact Nat.zero_le _
    | cons v vs =>
      have hr := ih vs (by simpa using h)
      rw [packFields, List.length_append, length_leBytes, List.sum_cons]
      omega

theorem length_padTo (k : Nat) (b : Bytes) (hk : 0 < k) : (padTo k b).length < b.length + k := by
  have h := Nat.mod_lt (k - b.length % k) hk
  rw [padTo, List.length_append, List.length_replicate]
  omega

theorem sampleEntry_len (round : Nat) (ts : List Int) (sup : List Nat) (h1 : ts.length = 16) (h2 : sup.length = 8) :
    (sampleEntry round ts sup).len ≤ 256 := by
  have hpay : ([round, 0] ++ ts.map (fun t => (t % 65536).toNat) ++ sup).length ≤ (entryWidths 5).length := by simp [entryWidths, h1, h2]
  have hpack := length_packFields (entryWidths 5) _ hpay
  have hpad := length_padTo 8 (packFields (entryWidths 5) ([round, 0] ++ ts.map (fun t => (t % 65536).toNat) ++ sup)) (by decide)
  have hsum : (entryWidths 5).sum = 56 := by decide
  show 8 + (padTo 8 (packFields (entryWidths 5) ([round, 0] ++ ts.map (fun t => (t % 65536).toNat) ++ sup))).length ≤ 256
  omega

theorem Keeps.open_of {P : Foot} (h : Keeps P s t) (ho : s.Open)
    (hp : (P.regs.contains .TWN_STAT || P.regs.contains .TWN_IRCFG || P.regs.contains .TWN_ROUTE || P.parts.contains .arb || P.parts.contains .twn) = false :=
      by decide +kernel) : t.Open := by
  simp only [Bool.or_eq_false_iff] at hp
  obtain ⟨⟨⟨⟨h1, h2⟩, h3⟩, h4⟩, h5⟩ := hp
  exact h.open ho h1 h2 h3 h4 h5

/-! ### The oscillator (R570) -/

/-- An edge source that has not saturated counts one more. -/
theorem State.count_raise (s : State) {n : Nat} (hr : reservedSrc n = false) (hm : mirrorLine n = none) (hn : 16 ≤ n)
    (he : s.get F.CIC_SRC_CFG.MODE n = 0) (hc : s.get F.CIC_SRC_STAT.COUNT n < 255) :
    (s.raise n).get F.CIC_SRC_STAT.COUNT n = s.get F.CIC_SRC_STAT.COUNT n + 1 := by
  unfold State.raise
  rw [hr, if_neg (by decide), hm]
  dsimp only
  rw [if_neg (by omega), State.on_of_get_zero he, if_neg (by decide), if_neg (by omega)]
  rw [(State.sameDelivery_present _ n).get F.CIC_SRC_STAT.COUNT n (by decide) (.inr (by decide)), State.bump, State.get_put_same _ F.CIC_SRC_STAT.COUNT]
  have hmax : F.CIC_SRC_STAT.COUNT.max = 255 := by decide
  rw [hmax, Nat.min_eq_right (by omega)]
  exact Nat.mod_eq_of_lt (by show _ < 256; omega)

/-! ### Gates (R571) -/

theorem testBit_insBits (w k j : Nat) : (insBits k k w 0).testBit j = (decide (j ≠ k) && w.testBit j) := by
  have hbit : ∀ v : Nat, v.testBit j = decide (bitsOf j j v = 1) := fun v => by
    rw [Nat.testBit_eq_decide_div_mod_eq, bitsOf, Nat.add_sub_cancel_left, Nat.pow_one]
  rcases Nat.lt_trichotomy j k with h | h | h
  · rw [hbit, hbit w, bitsOf_insBits_below (Nat.le_refl k) h (Nat.le_refl j), decide_eq_true (Nat.ne_of_lt h), Bool.true_and]
  · rw [hbit, h, bitsOf_insBits_self (Nat.le_refl k)]
    simp
  · rw [hbit, hbit w, bitsOf_insBits_above (Nat.le_refl k) h, decide_eq_true (Nat.ne_of_gt h), Bool.true_and]

theorem State.open_gate (s : State) (d k : Nat) :
    ((s.put F.CPM_DOM_STAT.OPEN (d / 32) (insBits (d % 32) (d % 32) (s.get F.CPM_DOM_STAT.OPEN (d / 32)) 0)).get F.CPM_DOM_STAT.OPEN (k / 32)).testBit
      (k % 32) = (decide (k ≠ d) && (s.get F.CPM_DOM_STAT.OPEN (k / 32)).testBit (k % 32)) := by
  by_cases hq : k / 32 = d / 32
  · have hlt : k % 32 < 32 := Nat.mod_lt _ (by decide)
    have hiff : (k ≠ d) = (k % 32 ≠ d % 32) := propext ⟨fun h h' => h (by omega), fun h h' => h (by rw [h'])⟩
    rw [hq, State.get_put_same _ F.CPM_DOM_STAT.OPEN]
    show (_ % 2 ^ 32).testBit _ = _
    rw [Nat.testBit_mod_two_pow, testBit_insBits, decide_eq_true hlt, Bool.true_and]
    simp only [hiff]
  · have hne : k ≠ d := fun h => hq (by rw [h])
    rw [State.get_put_inst _ _ hq, decide_eq_true hne, Bool.true_and]

/-! ### Drowse, dormancy and waking (R575 to R579) -/

/-- The gates of the four words of CPM_DOM_STAT. -/
theorem State.get_openAll (s : State) (v : Nat → Nat) (hv : ∀ k, v k < 2 ^ 32) {k : Nat} (hk : k < 4) :
    ((List.range 4).foldl (fun s k => s.put F.CPM_DOM_STAT.OPEN k (v k)) s).get F.CPM_DOM_STAT.OPEN k = v k := by
  have hit : ∀ (s : State) (k : Nat), (s.put F.CPM_DOM_STAT.OPEN k (v k)).get F.CPM_DOM_STAT.OPEN k = v k := fun s k => by
    rw [State.get_put_same _ F.CPM_DOM_STAT.OPEN]
    exact Nat.mod_eq_of_lt (hv k)
  refine foldl_makes (g := fun s k => s.put F.CPM_DOM_STAT.OPEN k (v k)) (P := fun k s => s.get F.CPM_DOM_STAT.OPEN k = v k) hit (fun s j k h => ?_) _ s
    (List.mem_range.2 hk)
  by_cases hjk : k = j
  · rw [hjk]
    exact hit s j
  · exact (State.get_put_inst _ _ hjk).trans h

theorem State.keeps_openAll (s : State) (v : Nat → Nat) :
    Keeps ⟨[.CPM_DOM_STAT], []⟩ s ((List.range 4).foldl (fun s k => s.put F.CPM_DOM_STAT.OPEN k (v k)) s) :=
  .foldl (fun s k => s.keeps_put F.CPM_DOM_STAT.OPEN k (v k)) _ s

/-- The state of power management. -/
theorem State.get_put_state (s : State) {n : Nat} (hn : n < 4) : (s.put F.CPM_PSTATE.STATE 0 n).get F.CPM_PSTATE.STATE = n := by
  rw [State.get_put_same _ F.CPM_PSTATE.STATE]
  exact Nat.mod_eq_of_lt hn

/-- The clock of a controller that drowses. -/
def State.drowsy (s : State) : State :=
  let s := s.put F.CPM_PSTATE.STATE 0 1
  { s with hkp := { s.hkp with pll := 1 } }

theorem State.drowse_ends (s : State) :
    let u := ((List.range 4).foldl (fun s k => s.put F.CPM_DOM_STAT.OPEN k (if k = 0 then 1 else 0)) s.drowsy).raise 226
    u.get F.CPM_PSTATE.STATE = 1 ∧ u.hkp.pll = 1 ∧ ∀ k, k < 4 → u.get F.CPM_DOM_STAT.OPEN k = if k = 0 then 1 else 0 := by
  have h1 : s.drowsy.get F.CPM_PSTATE.STATE = 1 := s.get_put_state (by decide)
  have h2 : s.drowsy.hkp.pll = 1 := rfl
  generalize s.drowsy = d at h1 h2
  have hk := d.keeps_openAll fun k => if k = 0 then 1 else 0
  have hr := State.keeps_raise ((List.range 4).foldl (fun s k => s.put F.CPM_DOM_STAT.OPEN k (if k = 0 then 1 else 0)) d) 226
  refine ⟨?_, ?_, fun k hlt => ?_⟩
  · rw [hr.get F.CPM_PSTATE.STATE 0, hk.get F.CPM_PSTATE.STATE 0, h1]
  · rw [hr.hkp_eq, hk.hkp_eq, h2]
  · rw [hr.get F.CPM_DOM_STAT.OPEN k]
    exact State.get_openAll d (fun k => if k = 0 then 1 else 0) (fun k => by
      split
      · decide
      · decide) hlt

theorem State.leaveDrowse_ends (s : State) :
    s.leaveDrowse.get F.CPM_PSTATE.STATE = 0 ∧ s.leaveDrowse.hkp.pll = 2 ∧ s.leaveDrowse.hkp.hbmOn = true ∧
      s.leaveDrowse.get F.CPM_PSTATE.LASTWAKE = s.get F.CPM_PSTATE.LASTWAKE := by
  unfold State.leaveDrowse
  extract_lets s1 k s2
  have h1 : s2.get F.CPM_PSTATE.STATE = 0 := s.get_put_state (by decide)
  have h2 : s2.get F.CPM_PSTATE.LASTWAKE = s.get F.CPM_PSTATE.LASTWAKE := State.get_put_apart s 0 0 0
  have h3 : s2.hkp.pll = 2 ∧ s2.hkp.hbmOn = true := ⟨rfl, rfl⟩
  clear_value s2
  have hk := s2.keeps_openAll fun k => if k < 3 then 2 ^ 32 - 1 else 0xFFFF
  refine ⟨?_, ?_, ?_, ?_⟩
  · exact (hk.get F.CPM_PSTATE.STATE 0).trans h1
  · exact (congrArg Hkp.pll hk.hkp_eq).trans h3.1
  · exact (congrArg Hkp.hbmOn hk.hkp_eq).trans h3.2
  · exact (hk.get F.CPM_PSTATE.LASTWAKE 0).trans h2

/-- The clocks and HBM are off, and the entry to dormancy, with what `x` holds of both, is done. -/
def State.sleptFrom (s x : State) : State := { s with hkp := { x.hkp with pll := 0, hbmOn := false }, pow := { x.pow with entering := false } }

theorem State.dormantGo_eq (he : s.pow.entering = true) (ho : s.map.ckptOpen = none) :
    s.dormantGo = (((s.tallyEnd 1).put F.CPM_PSTATE.STATE 0 2).put F.HBC_INIT.DONE 0 0).sleptFrom ((s.tallyEnd 1).put F.CPM_PSTATE.STATE 0 2) :=
  if_neg (by simp [he, ho])

theorem State.sleptFrom_ends (s x : State) : (s.sleptFrom x).get F.CPM_PSTATE.STATE = s.get F.CPM_PSTATE.STATE ∧ (s.sleptFrom x).hkp.pll = 0 ∧
    (s.sleptFrom x).hkp.hbmOn = false ∧ (s.sleptFrom x).pow.entering = false := ⟨rfl, rfl, rfl, rfl⟩

theorem State.dormantGo_ends (he : s.pow.entering = true) (ho : s.map.ckptOpen = none) :
    s.dormantGo.get F.CPM_PSTATE.STATE = 2 ∧ s.dormantGo.hkp.pll = 0 ∧ s.dormantGo.hkp.hbmOn = false ∧ s.dormantGo.pow.entering = false := by
  obtain ⟨h1, h2, h3, h4⟩ := State.sleptFrom_ends (((s.tallyEnd 1).put F.CPM_PSTATE.STATE 0 2).put F.HBC_INIT.DONE 0 0) ((s.tallyEnd 1).put F.CPM_PSTATE.STATE 0 2)
  rw [State.dormantGo_eq he ho]
  refine ⟨h1.trans ?_, h2, h3, h4⟩
  rw [State.get_put_other _ _ (.inl (by decide))]
  exact State.get_put_state _ (by decide)

/-! ### The sleep of pack groups (R580) -/

theorem State.sleepGroup_ends (s : State) (g level : Nat)
    (h1 : ((s.groupPacks g).filter fun n => decide (5 ≤ s.pkState n ∧ s.pkState n ≤ 7) || (level == 2 && s.pkState n == 8)) ≠ [])
    (h2 : s.groupWork g = false) (h3 : s.groupIdle g = true) : tget g (s.sleepGroup g level).hkp.sleep = some level := by
  unfold State.sleepGroup
  extract_lets l s1 k
  have hl : l.isEmpty = false := by simpa [l] using h1
  rw [if_neg (by simp [hl, h2, h3]), (State.keeps_raise _ _).hkp_eq]
  clear_value s1
  exact tget_tput_self _ _ _

theorem State.sleepGroup_idle {s : State} {g level : Nat}
    (h : ((s.groupPacks g).filter fun n => decide (5 ≤ s.pkState n ∧ s.pkState n ≤ 7) || (level == 2 && s.pkState n == 8)) = [] ∨
      s.groupWork g = true ∨ s.groupIdle g = false) : s.sleepGroup g level = s := by
  unfold State.sleepGroup
  extract_lets l
  refine if_pos ?_
  rcases h with h | h | h
  · simp [l, h]
  · simp [h]
  · simp [h]

/-! ### Waking (R577) -/

/-- An event is latched. -/
def State.latched (s : State) (b : Nat) : State := s.put F.CPM_WAKE.LATCH 0 (s.get F.CPM_WAKE.LATCH ||| 2 ^ b)

theorem State.get_latched (s : State) {b : Nat} (hb : b < 8) : (s.latched b).get F.CPM_WAKE.LATCH = s.get F.CPM_WAKE.LATCH ||| 2 ^ b := by
  have hlt : s.get F.CPM_WAKE.LATCH ||| 2 ^ b < 2 ^ 8 :=
    Nat.or_lt_two_pow (s.get_lt F.CPM_WAKE.LATCH 0) (Nat.pow_lt_pow_right (by decide) hb)
  rw [State.latched, State.get_put_same _ F.CPM_WAKE.LATCH]
  exact Nat.mod_eq_of_lt hlt

/-- The lowest event that is latched. -/
def State.firstWake (s : State) : Nat := ((List.range 8).find? fun i => (s.get F.CPM_WAKE.LATCH).testBit i).getD 0

/-- A controller that enters dormancy does not. -/
def State.stayUp (s : State) : State := { s with pow := { s.pow with entering := false } }

theorem State.keeps_stayUp (s : State) : Keeps ⟨[], [.pow]⟩ s s.stayUp := .update (.refl s) rfl

theorem State.execWake_eq (hs : s.Runs) (b : Fin 8) : exec (.wake b) s = .next (
    if ((s.latched b.val).get F.CPM_PSTATE.STATE ≠ 0 ∨ (s.latched b.val).pow.entering) ∧ ((s.latched b.val).get F.CPM_WAKE.EN).testBit b then
      if ((s.latched b.val).put F.CPM_PSTATE.LASTWAKE 0 (s.latched b.val).firstWake).pow.entering then
        ((s.latched b.val).put F.CPM_PSTATE.LASTWAKE 0 (s.latched b.val).firstWake).stayUp
      else ((s.latched b.val).put F.CPM_PSTATE.LASTWAKE 0 (s.latched b.val).firstWake).wakeUp
    else s.latched b.val) := exec_of_awake hs rfl

theorem State.get_latched_parts (s : State) (b : Nat) : (s.latched b).get F.CPM_PSTATE.STATE = s.get F.CPM_PSTATE.STATE ∧
    (s.latched b).get F.CPM_WAKE.EN = s.get F.CPM_WAKE.EN ∧ (s.latched b).pow = s.pow :=
  ⟨State.get_put_other _ _ (.inl (by decide)), State.get_put_apart s 0 0 _, rfl⟩

/-- The controller enters dormancy. -/
def State.entered (s : State) : State := { s with pow := { s.pow with entering := true } }

/-- A checkpoint round that starts has the next number. -/
theorem State.roundNo_checkpointAll (ho : s.map.ckptOpen = none) : (checkpointAll s).map.ckptRound = s.map.ckptRound + 1 := by
  unfold checkpointAll
  rw [if_neg (by simp [ho])]
  extract_lets r m s1
  have h1 : s1.roundNo = s.map.ckptRound + 1 := rfl
  clear_value s1
  have h2 : Same State.roundNo s1 (((s1.dirtyPages.foldl (State.storePage true) s1).storePatches r).storeTables r.mark).roundGo :=
    .after (State.roundNo_roundGo _) (.after (State.roundNo_storeTables _ _) (.after (State.roundNo_storePatches _ _)
      (.foldl (fun s p => s.roundNo_storePage true p) _ _)))
  have h3 : (((s1.dirtyPages.foldl (State.storePage true) s1).storePatches r).storeTables r.mark).roundGo.roundNo = s1.roundNo := h2
  exact h3.trans h1

theorem State.keeps_entered (s : State) : Keeps ⟨[], [.pow]⟩ s s.entered := .update (.refl s) rfl

theorem State.firstWake_latched (s : State) {b : Nat} (hb : b < 8) (h : (s.get F.CPM_WAKE.LATCH).testBit b = true) :
    s.firstWake < 8 ∧ (s.get F.CPM_WAKE.LATCH).testBit s.firstWake = true := by
  unfold State.firstWake
  cases hf : (List.range 8).find? fun i => (s.get F.CPM_WAKE.LATCH).testBit i with
  | none => exact absurd h (by simpa using List.find?_eq_none.1 hf b (List.mem_range.2 hb))
  | some i => exact ⟨List.mem_range.1 (List.mem_of_find?_eq_some hf), by simpa using List.find?_some hf⟩

end

end Sys2Proof.Machine
end

section
-- One proof at a time: as many threads as there are lemmas here do not fit beside the model.
set_option Elab.async false
open Sys2Proof Sys2Proof.Machine

/-- Settles O54. -/
theorem clockCommands : Obligations.ClockCommands := by
  unfold Obligations.ClockCommands
  intro s hs
  refine ⟨fun dur ts sup ack lines h0 => ?_, fun dur ts sup ack lines h0 => ?_, fun ppm h1 h2 => ?_, fun ppm h hm hc => ?_, fun d h => ?_, fun d hd h0 => ?_,
    fun g level c h => ?_, fun g h => ?_, fun ht hset h0 hr => ?_, fun h => ?_, fun ht hset h1 ha => ?_, fun he ho => ?_, fun h => ?_, fun b h => ?_,
    fun b h1 he hb => ?_⟩
  · have hk := s.keeps_surveyRead dur ts sup lines.fec
    have hround := s.surveyed_surveyRead dur ts sup lines.fec
    obtain ⟨hfec, htemp, hmv⟩ := s.get_surveyRead dur ts sup lines.fec
    have hx := s.execSurvey hs dur ts sup ack lines
    rw [if_neg (not_not_intro ((hk.get F.CPM_PSTATE.STATE 0).trans h0))] at hx
    generalize s.surveyRead dur ts sup lines.fec = v at hk hround hfec htemp hmv hx
    have hu := v.keeps_surveyUse ts sup ack lines.types lines.stuck
    have hsv : (v.surveyUse ts sup ack lines.types lines.stuck).surveyed = (v.capture (sampleEntry v.hkp.round ts sup) (State.useSample ts sup)).surveyed :=
      v.surveyed_surveyUse ts sup ack lines.types lines.stuck
    refine ⟨_, hx, ?_, fun p hp => ?_, fun i t hi ht => ?_, fun j w hj hw => ?_, fun ho h16 h8 => ?_⟩
    · have hr : (v.surveyUse ts sup ack lines.types lines.stuck).hkp.round = (v.capture (sampleEntry v.hkp.round ts sup) (State.useSample ts sup)).hkp.round :=
        congrArg Prod.fst hsv
      rw [hr, State.round_capture, hround]
    · rw [hu.get F.FAB_PSTAT.FEC_DEG p, hfec p hp]
    · rw [hu.get F.HKP_TS.TEMP i, htemp i t hi ht]
    · rw [hu.get F.HKP_SUP.MV j, hmv j w hj hw]
    · rw [State.capture_recorded (hk.open_of ho) _ _ (sampleEntry_len _ _ _ h16 h8), State.surveyed_useSample] at hsv
      exact ⟨congrArg (·.2.1) hsv, congrArg (·.2.2) hsv⟩
  · have hk := s.keeps_surveyRead dur ts sup lines.fec
    have hround := s.surveyed_surveyRead dur ts sup lines.fec
    obtain ⟨hfec, htemp, -⟩ := s.get_surveyRead dur ts sup lines.fec
    have hx := s.execSurvey hs dur ts sup ack lines
    rw [if_pos (fun h => h0 ((hk.get F.CPM_PSTATE.STATE 0).symm.trans h))] at hx
    generalize s.surveyRead dur ts sup lines.fec = v at hk hround hfec htemp hx
    have hj := State.keeps_judgeTemp (v.keepSample ts sup)
    have hp := v.keeps_keepSample ts sup
    refine ⟨_, hx, ?_, ?_, fun p hp' => ?_, fun i t hi ht => ?_⟩
    · rw [hj.hkp_eq]
      exact hround
    · rw [hj.hkp_eq]
      rfl
    · rw [hj.get F.FAB_PSTAT.FEC_DEG p, hp.get F.FAB_PSTAT.FEC_DEG p, hfec p hp']
    · rw [hj.get F.HKP_TS.TEMP i, hp.get F.HKP_TS.TEMP i, htemp i t hi ht]
  · exact congrArg Host.Outcome.next (if_neg (by omega))
  · exact ⟨_, congrArg Host.Outcome.next (if_pos h), s.count_raise (by decide) (by decide) (by decide) hm hc⟩
  · exact exec_of_awake hs (congrArg (fun u => s.awake (.next u)) (if_pos h))
  · exact ⟨_, exec_of_awake hs (congrArg (fun u => s.awake (.next u)) (if_neg (by simp [hd, h0]))), fun k _ => s.open_gate d.val k⟩
  · have hx : exec c s = .next (s.sleepGroup g level) := by
      rcases h with ⟨rfl, rfl⟩ | ⟨rfl, rfl, hset⟩
      · exact exec_of_awake hs rfl
      · exact exec_of_awake hs (congrArg (fun u => s.awake (.next u)) (if_pos hset))
    exact ⟨fun hidle => hx.trans (congrArg Host.Outcome.next (State.sleepGroup_idle hidle)),
      fun hl hw hi => ⟨_, hx, s.sleepGroup_ends g.val level hl hw hi⟩⟩
  · exact exec_of_awake hs (congrArg (fun u => s.awake (.next u)) (if_neg h))
  · exact ⟨_, exec_of_awake hs (congrArg (fun u => s.awake (.next u)) (if_neg (by simp [ht, hset, h0, hr]))), s.drowse_ends⟩
  · exact exec_of_awake hs (congrArg (fun u => s.awake (.next u)) (if_pos h))
  · have hx : exec .dormantEntry s = .next (State.flow (checkpointAll s.leaveDrowse).entered) :=
      exec_of_awake hs (congrArg (fun u => s.awake (.next u)) (if_neg (by simp [ht, hset, h1, ha])))
    obtain ⟨e1, e2, e3, -⟩ := s.leaveDrowse_ends
    have hl := s.keeps_leaveDrowse
    have hc : Keeps ⟨[], [.conv, .map, .pow]⟩ s.leaveDrowse (checkpointAll s.leaveDrowse).entered :=
      .after (State.keeps_entered _).up (keeps_checkpointAll _).up
    refine ⟨_, hx, rfl, (hc.get F.CPM_PSTATE.STATE 0).trans e1, (congrArg Hkp.pll hc.hkp_eq).trans e2, (congrArg Hkp.hbmOn hc.hkp_eq).trans e3, fun ho => ?_⟩
    have hr := State.roundNo_checkpointAll (s := s.leaveDrowse) (by rw [hl.map_eq]; exact ho)
    exact hr.trans (by rw [hl.map_eq])
  · exact State.dormantGo_ends he ho
  · refine exec_of_awake hs (congrArg (fun u => s.awake (.next u)) (if_pos ?_))
    rcases h with h | h | h | h
    · exact .inr (.inr (.inl h))
    · exact .inr (.inl h)
    · exact .inl h
    · exact .inr (.inr (.inr (by simpa using h)))
  · obtain ⟨e1, e2, e3⟩ := s.get_latched_parts b.val
    have hx := State.execWake_eq hs b
    have hlatch := s.get_latched b.isLt
    generalize s.latched b.val = v at e1 e2 e3 hx hlatch
    by_cases hc : (v.get F.CPM_PSTATE.STATE ≠ 0 ∨ v.pow.entering) ∧ (v.get F.CPM_WAKE.EN).testBit b
    · have h0 : v.get F.CPM_PSTATE.STATE = 0 := by
        rw [e1]
        refine h.resolve_right fun hb => ?_
        rw [← e2, hc.2] at hb
        exact Bool.noConfusion hb
      have hent : v.pow.entering = true := hc.1.resolve_left (fun h => h h0)
      rw [if_pos hc, if_pos (by rw [(v.keeps_put F.CPM_PSTATE.LASTWAKE 0 v.firstWake).pow_eq, hent])] at hx
      have hk := (v.put F.CPM_PSTATE.LASTWAKE 0 v.firstWake).keeps_stayUp
      refine ⟨_, hx, ?_, ?_⟩
      · rw [hk.get F.CPM_WAKE.LATCH 0, State.get_put_other _ _ (.inl (by decide)), hlatch]
      · rw [hk.get F.CPM_PSTATE.STATE 0, State.get_put_apart _ 0 0 _, e1]
    · rw [if_neg hc] at hx
      exact ⟨_, hx, hlatch, e1⟩
  · obtain ⟨e1, e2, e3⟩ := s.get_latched_parts b.val
    have hx := State.execWake_eq hs b
    have hlatch := s.get_latched b.isLt
    have hbit : ((s.latched b.val).get F.CPM_WAKE.LATCH).testBit b.val = true := by
      rw [hlatch, Nat.testBit_or, Nat.testBit_two_pow_self, Bool.or_true]
    obtain ⟨hw8, hwb⟩ := (s.latched b.val).firstWake_latched b.isLt hbit
    generalize s.latched b.val = v at e1 e2 e3 hx hlatch hw8 hwb
    generalize v.firstWake = w at hx hw8 hwb
    have hent : (v.put F.CPM_PSTATE.LASTWAKE 0 w).pow.entering = false := by
      rw [(v.keeps_put F.CPM_PSTATE.LASTWAKE 0 w).pow_eq, e3, he]
    have hst : (v.put F.CPM_PSTATE.LASTWAKE 0 w).get F.CPM_PSTATE.STATE = 1 := by rw [State.get_put_apart _ 0 0 _, e1, h1]
    have hlast : (v.put F.CPM_PSTATE.LASTWAKE 0 w).get F.CPM_PSTATE.LASTWAKE = w := by
      rw [State.get_put_same _ F.CPM_PSTATE.LASTWAKE]
      exact Nat.mod_eq_of_lt (Nat.lt_trans hw8 (by decide))
    have hl2 : (v.put F.CPM_PSTATE.LASTWAKE 0 w).get F.CPM_WAKE.LATCH = v.get F.CPM_WAKE.LATCH := State.get_put_other _ _ (.inl (by decide))
    rw [if_pos ⟨.inl (by rw [e1, h1]; decide), by rw [e2, hb]⟩, if_neg (by rw [hent]; exact Bool.false_ne_true)] at hx
    generalize v.put F.CPM_PSTATE.LASTWAKE 0 w = x at hx hst hlast hl2
    have hup : x.wakeUp = x.leaveDrowse.raise 227 := by
      unfold State.wakeUp
      rw [hst]
      exact if_pos (by decide)
    rw [hup] at hx
    obtain ⟨f1, f2, f3, f4⟩ := x.leaveDrowse_ends
    have hr := x.leaveDrowse.keeps_raise 227
    have hk := x.keeps_leaveDrowse
    have hfin : (x.leaveDrowse.raise 227).get F.CPM_WAKE.LATCH = v.get F.CPM_WAKE.LATCH := by
      rw [hr.get F.CPM_WAKE.LATCH 0, hk.get F.CPM_WAKE.LATCH 0, hl2]
    refine ⟨_, hx, hfin.trans hlatch, ?_, ?_, ?_, ?_⟩
    · rw [hr.get F.CPM_PSTATE.STATE 0, f1]
    · rw [hr.hkp_eq, f2]
    · rw [hr.hkp_eq, f3]
    · rw [hfin, hr.get F.CPM_PSTATE.LASTWAKE 0, f4, hlast]
      exact hwb
end

section
-- One proof at a time: as many threads as there are lemmas here do not fit beside the model.
set_option Elab.async false
namespace Sys2Proof.Machine

/-- The slot that runs. -/
def State.runSlot (s : State) : Nat := s.fw.running

theorem Keeps.runSlot {F : Foot} {s t : State} (h : Keeps F s t) (hp : F.parts.contains .fw = false := by decide +kernel) :
    Same State.runSlot s t := congrArg Fw.running (h.fw_eq hp)

/-- The slot that the selector names, and whether it is yet to be confirmed. -/
def State.selNow (s : State) : Nat × Bool := (s.fw.active, s.fw.pendingSel)

theorem Keeps.selNow {F : Foot} {s t : State} (h : Keeps F s t) (hp : F.parts.contains .fw = false := by decide +kernel) :
    Same State.selNow s t := congrArg (fun w : Fw => (w.active, w.pendingSel)) (h.fw_eq hp)

theorem State.runSlot_packLost (s : State) (n : Nat) : Same State.runSlot s (s.packLost n) := by
  unfold State.packLost
  refine .ite (fun _ => .refl s) fun _ => ?_
  extract_lets +onlyGivenNames p was l s1 s2 s3 cut f s4 s5 s6
  have h1 : Same State.runSlot s s1 := (State.keeps_setPk _ _ _).runSlot
  have h2 : Same State.runSlot s1 s2 := .after (State.keeps_outstUpdate _ _).runSlot (.after (State.keeps_setPkState _ _ _).runSlot
    (.ite (fun _ => (State.keeps_markGone _ _).runSlot) fun _ => .refl _))
  have h3 : Same State.runSlot s2 s3 := .ite (fun _ => (State.keeps_put _ _ _ _).runSlot) fun _ => .refl _
  have hfw (x : State) : Same State.runSlot x { x with fw := { x.fw with upd := x.fw.upd.map cut } } := .update (.refl _) rfl
  clear_value s1 s2 s3
  have h4 : Same State.runSlot s3 s4 := hfw s3
  clear_value s4
  have h5 : Same State.runSlot s4 s5 := .after (State.keeps_forgetErases _ _).runSlot (.after (State.keeps_dropRebuild _ _).runSlot
    (State.keeps_loseWhere _ _).runSlot)
  have h6 : Same State.runSlot s5 s6 := .after (State.keeps_logLost _ _).runSlot (State.keeps_recomputeU _).runSlot
  clear_value s5 s6
  have hs := h1.trans (h2.trans (h3.trans (h4.trans (h5.trans h6))))
  exact .ite (fun _ => .after (State.keeps_flow _).runSlot (.after (State.keeps_useReserve _ _).runSlot hs)) fun _ => hs

theorem State.runSlot_judgeBridge (s : State) (n : Nat) : Same State.runSlot s (s.judgeBridge n) := by
  unfold State.judgeBridge
  split
  · exact .refl _
  · exact .ite (fun _ => .refl _) fun _ => .ite (fun _ => .after ((State.keeps_setPkState _ _ _).runSlot)
      (State.runSlot_packLost _ _)) fun _ => .ite (fun _ => (State.keeps_setPkState _ _ _).runSlot) fun _ => .refl _

section
variable {s t : State}

/-! ### The selector (R445, R448) -/

theorem State.fw_sgenUp (s : State) : s.sgenUp.fw = s.fw := rfl

/-- The firmware state `w` as the selector that is written with it leaves it. -/
def State.selected (s : State) (w : Fw) : Fw := { w with selSeq := w.selSeq + 1, selDtime := s.dtime, selEpoch := s.epoch }

theorem State.fw_selWrite (s : State) (f : Fw → Fw) : (s.selWrite f).fw = s.selected (f s.fw) := by
  unfold State.selWrite
  dsimp only
  rw [State.fw_sgenUp]
  exact (State.keeps_norSlot _ _ _).fw_eq

theorem State.sgen_selWrite (s : State) (f : Fw → Fw) : (s.selWrite f).sgen = s.sgen + 1 := by
  unfold State.selWrite
  extract_lets w s1
  have h : (s1.norSlot (0x3200000 + 65536 * (s1.fw.selSeq % 2)) s1.selector).sgen = s1.sgen := (State.keeps_norSlot s1 _ _).sgen_eq
  exact congrArg (· + 1) h

theorem State.fw_selectNext (s : State) (k : Nat) :
    (s.selectNext k).fw = s.selected { s.fw with active := k, pendingSel := true, tries := 0 } := s.fw_selWrite _

theorem State.selectNext_ends (s : State) (k : Nat) : (s.selectNext k).fw.active = k ∧ (s.selectNext k).fw.pendingSel = true ∧
    (s.selectNext k).fw.tries = 0 ∧ (s.selectNext k).sgen = s.sgen + 1 := by
  rw [s.fw_selectNext]
  exact ⟨rfl, rfl, rfl, s.sgen_selWrite _⟩

/-- The selection of a slot leaves what stands in the slots and in the staging buffer. -/
theorem State.selectNext_slots (s : State) (k : Nat) : (s.selectNext k).fw.slots = s.fw.slots ∧ (s.selectNext k).fw.stage = s.fw.stage ∧
    (s.selectNext k).fw.owner = s.fw.owner := by
  rw [s.fw_selectNext]
  exact ⟨rfl, rfl, rfl⟩

/-! ### The commit of the staging buffer (R443) -/

theorem State.commit_bad (h : s.checkPackage s.staged_ ≠ 0) : s.commit = (s.checkPackage s.staged_, s.stageClear) := if_pos h

/-- The inactive slot holds the package that the staging buffer held. -/
def State.Committed (t s : State) : Prop :=
  t.fw.stage = [] ∧ t.fw.owner = none ∧ (tget s.idleSlot t.fw.slots).map Slot.pkg = some s.staged_

/-- The inactive slot has been programmed with the package that the staging buffer held. -/
def State.programmed (s : State) : State := (s.stageClear.norErase (s.idleSlot * 2 ^ 24, 2 ^ 24)).norPut (s.idleSlot * 2 ^ 24) s.staged_

/-- The package of the staging buffer, as a slot holds it. -/
def State.stagedSlot (s : State) : Slot := { pkg := s.staged_, man := manifestOf s.staged_ ((s.releaseSigner s.staged_).getD 0) }

theorem State.fw_programmed (s : State) : s.programmed.fw = s.stageClear.fw :=
  (State.keeps_norPut _ _ _).fw_eq.trans (State.keeps_norErase _ _).fw_eq

theorem State.commit_eq (h : s.checkPackage s.staged_ = 0) :
    s.commit = (0, s.programmed.selWrite fun w => { w with slots := tput s.idleSlot s.stagedSlot w.slots }) := if_neg (not_not_intro h)

theorem State.fw_selWrite_of {u : State} {w : Fw} (h : u.fw = w) (f : Fw → Fw) : (u.selWrite f).fw = u.selected (f w) :=
  (State.fw_selWrite u f).trans (congrArg (fun x => u.selected (f x)) h)

theorem State.commit_good (h : s.checkPackage s.staged_ = 0) : s.commit.1 = 0 ∧ s.commit.2.Committed s := by
  rw [State.commit_eq h]
  have hw := State.fw_selWrite_of s.fw_programmed fun w => { w with slots := tput s.idleSlot s.stagedSlot w.slots }
  generalize s.programmed = v at hw ⊢
  unfold State.Committed
  rw [hw]
  refine ⟨rfl, rfl, rfl, ?_⟩
  show (tget s.idleSlot (tput s.idleSlot s.stagedSlot s.fw.slots)).map Slot.pkg = _
  rw [tget_tput_self]
  rfl

theorem State.Committed.selectNext (h : t.Committed s) (k : Nat) : (t.selectNext k).Committed s := by
  obtain ⟨h1, h2, h3⟩ := h
  obtain ⟨e1, e2, e3⟩ := t.selectNext_slots k
  exact ⟨e2.trans h1, e3.trans h2, by rw [e1]; exact h3⟩

/-! ### Admin commands of firmware -/

/-- A command of firmware that its controller takes. -/
theorem firmCtx_of_fetched {t : BitVec 64} {c : Ctx} (h : s.Fetched t c) (hp : ∀ f, c.tenant = .func f → s.isPf f = true)
    (f : Ctx → State → State) : firmCtx t f s = f c s := by
  unfold firmCtx
  rw [withCtx_of_fetched _ h]
  cases ht : c.tenant with
  | func k => exact if_pos (hp k ht)
  | assoc a => exact if_pos rfl

theorem exec_of_firm {t : BitVec 64} {c : Ctx} {i : Instr} {f : Ctx → State → State} (h : s.Fetched t c)
    (hp : ∀ f, c.tenant = .func f → s.isPf f = true) (e : exec i s = s.awake (.next (firmCtx t f s))) : exec i s = .next (f c s) := by
  rw [e, State.awake_of_runs _ h.1, firmCtx_of_fetched h hp]

theorem State.commitCmd_none {c : Ctx} {slot : Nat} (act : Bool) (h : s.commitSlot slot = none) : s.commitCmd c slot act = s.fail c 1 0x06 := by
  unfold State.commitCmd
  rw [h]

theorem State.commitCmd_bad {c : Ctx} {slot k : Nat} (act : Bool) (h : s.commitSlot slot = some k) (hb : s.checkPackage s.staged_ ≠ 0) :
    s.commitCmd c slot act = s.stageClear.fail c 1 0x07 := by
  unfold State.commitCmd
  rw [h, State.commit_bad hb]
  exact if_pos hb

theorem State.commitCmd_good {c : Ctx} {slot k : Nat} (act : Bool) (h : s.commitSlot slot = some k) (hg : s.checkPackage s.staged_ = 0) :
    s.commitCmd c slot act = (if act then s.commit.2.selectNext k else s.commit.2).succeed c := by
  unfold State.commitCmd
  rw [h]
  exact if_neg (not_not_intro (State.commit_good hg).1)

/-! ### Activation without reset (R61, R451 to R453) -/

theorem State.ctxs_setCtl (s : State) (t : Tenant) (v : Func) : (s.setCtl t v).hif.ctxs = s.hif.ctxs := by
  cases t with
  | func f => rfl
  | assoc a => rfl

/-- An event ends requests that wait for one, and no other command changes. -/
theorem State.ctxs_finish_subset (s : State) (c : Ctx) (r : Cpl) : ∀ x ∈ (s.finish c r).hif.ctxs, x ∈ s.hif.ctxs := by
  cases hd : s.pow.dumping with
  | true =>
    unfold State.finish
    rw [if_pos hd]
    exact fun x hx => hx
  | false =>
    rw [State.ctxs_finish c r hd]
    exact fun x hx => List.mem_of_mem_filter hx

theorem State.ctxs_postTo_subset (s : State) (typ info : Nat) (t : Tenant) : ∀ x ∈ (State.postTo typ info s t).hif.ctxs, x ∈ s.hif.ctxs := by
  unfold State.postTo
  extract_lets c
  split
  · exact fun x hx => hx
  · split
    · intro x hx
      have h := State.ctxs_finish_subset _ _ _ x hx
      rwa [State.ctxs_setCtl] at h
    · split
      · exact fun x hx => hx
      · rw [State.ctxs_setCtl]
        exact fun x hx => hx

theorem State.ctxs_event_subset (s : State) (typ info : Nat) (bit : Option Nat) : ∀ x ∈ (s.event typ info bit).hif.ctxs, x ∈ s.hif.ctxs := by
  have hfold : ∀ (l : List Tenant) (s : State),
      ∀ x ∈ (l.foldl (fun s t => if (s.ctl t).evOn bit then State.postTo typ info s t else s) s).hif.ctxs, x ∈ s.hif.ctxs := fun l => by
    induction l with
    | nil => exact fun s x hx => hx
    | cons a l ih =>
      intro s x hx
      have h : x ∈ (if (s.ctl a).evOn bit then State.postTo typ info s a else s).hif.ctxs := ih _ x hx
      split at h
      · exact s.ctxs_postTo_subset typ info a x h
      · exact h
  exact hfold _ s

theorem State.ctxs_setWait (s : State) (t : BitVec 64) (w : Wait) : ∀ x ∈ (s.setWait t w).hif.ctxs, x.stamp = t → x.wait = w := by
  intro x hx hst
  obtain ⟨c, -, hc⟩ := List.mem_map.1 hx
  split at hc
  next h => rw [← hc]
  next h => exact absurd (by rw [hc]; exact hst) h

theorem State.activateStart_waits (s : State) (t : BitVec 64) (b : Option (BitVec 64)) :
    ∀ x ∈ ((s.setWait t .activation).activateStart b).hif.ctxs, x.stamp = t → x.wait = .activation :=
  fun x hx => s.ctxs_setWait t .activation x (State.ctxs_event_subset _ 2 1 (some 9) x hx)

theorem State.runSlot_switchImage (s : State) : s.switchImage.fw.running = s.idleSlot := by
  unfold State.switchImage
  extract_lets old k s1 s2
  have h1 : s1.fw.running = k := congrArg Fw.running (s.fw_selWrite fun w => { w with running := k, active := k, pendingSel := true, tries := 0 })
  have h2 : s2.fw = s1.fw := (keeps_resetFormats _ _ _).fw_eq
  exact (congrArg Fw.running h2).trans h1

/-- What the end of an activation answers to whom it was asked by. -/
def State.activateEnd (s : State) (ok : Bool) (w : Option (BitVec 64)) : State :=
  match w with
  | none => if ok then s.answerWaits 0x0504 7 0 0 0 (leBytes 8 s.man.relver.toNat) else s.answerWaits 0x0504 7 0 13 0 []
  | some stamp => match s.ctx stamp with
    | some c => if ok then s.succeed c else s.fail c 1 0x0B
    | none => s

theorem State.activateEnd_ends (s : State) (ok : Bool) (w : Option (BitVec 64)) :
    (s.activateEnd ok w).hif.activating = s.hif.activating ∧ (s.activateEnd ok w).fw.running = s.fw.running := by
  have hc (u : State) (c : Ctx) (r : Cpl) : Same State.hifRest u (u.finish c r) ∧ Same State.runSlot u (u.finish c r) :=
    ⟨u.hifRest_finish c r, (u.keeps_finish c r).runSlot⟩
  have hw (op what arg code detail : Nat) (b : Bytes) : Same State.hifRest s (s.answerWaits op what arg code detail b) ∧
      Same State.runSlot s (s.answerWaits op what arg code detail b) :=
    ⟨(State.keeps_answerWaits s op what arg code detail b).hifRest, (State.keeps_answerWaits s op what arg code detail b).runSlot⟩
  have h : Same State.hifRest s (s.activateEnd ok w) ∧ Same State.runSlot s (s.activateEnd ok w) := by
    unfold State.activateEnd
    split
    · split
      · exact hw _ _ _ _ _ _
      · exact hw _ _ _ _ _ _
    · split
      next c _ =>
        split
        · exact hc s c _
        · exact ⟨.after (State.hifRest_finish _ _ _) (s.keeps_unchargeAll _).hifRest, (s.keeps_fail c 1 0x0B).runSlot⟩
      next => exact ⟨.refl s, .refl s⟩
  obtain ⟨h1, h2⟩ := h
  have h1' : (s.activateEnd ok w).hifRest = s.hifRest := h1
  have h3 : (s.activateEnd ok w).hifRest.activating = s.hifRest.activating := by rw [h1']
  exact ⟨h3, h2⟩

/-- No activation goes on. -/
def State.resumed (s : State) : State := { s with hif := { s.hif with activating := none } }

/-- The images that run when an activation ends, and the pack bridges as they judge them. -/
def State.switched (s : State) (ok : Bool) : State := if ok then (List.range 32).foldl State.judgeBridge s.switchImage else s

theorem State.runSlot_switched (s : State) (ok : Bool) : (s.switched ok).fw.running = if ok then s.idleSlot else s.fw.running := by
  cases ok with
  | false => rfl
  | true =>
    have h : Same State.runSlot s.switchImage ((List.range 32).foldl State.judgeBridge s.switchImage) :=
      .foldl (fun u n => u.runSlot_judgeBridge n) _ _
    have h' : ((List.range 32).foldl State.judgeBridge s.switchImage).runSlot = s.switchImage.runSlot := h
    have e : s.switched true = (List.range 32).foldl State.judgeBridge s.switchImage := if_pos rfl
    rw [e, if_pos rfl]
    exact h'.trans s.runSlot_switchImage

theorem State.execDrained {w : Option (BitVec 64)} (hs : s.Runs) (ok : Bool) (ha : s.hif.activating = some w) (hd : s.drained = true) :
    exec (.activationDrained ok) s = .next (State.flow ((s.switched ok).resumed.activateEnd ok w)) := by
  refine exec_of_awake hs (congrArg (fun u => s.awake (.next u)) ?_)
  rw [ha]
  exact if_neg (by rw [hd]; decide)

/-! ### The reset that firmware orders (R448, R450) -/

theorem State.selNow_resetFunc (s : State) (f : Nat) : Same State.selNow s (s.resetFunc f) := by
  unfold State.resetFunc
  extract_lets s1 h s2 w s3 s4 f s5
  have h1 : Same State.selNow s s1 := (State.keeps_dropTenant _ _).selNow
  have h2 : Same State.selNow s1 s2 := .update (.refl s1) rfl
  clear_value s1
  have h3 : Same State.selNow s2 s3 := .update (.refl s2) rfl
  clear_value s2
  have h4 : Same State.selNow s3 s4 := (State.keeps_setReg _ _ _ _).selNow
  clear_value s3
  have h5 : Same State.selNow s4 s5 := .ite (fun _ => .update (.refl s4) rfl) fun _ => .refl s4
  clear_value s4 s5
  exact h1.trans (h2.trans (h3.trans (h4.trans (h5.trans (.after (State.keeps_put _ _ _ _).selNow (.after (State.keeps_put _ _ _ _).selNow
    (State.keeps_put _ _ _ _).selNow))))))

/-- Every function that is up has been reset. -/
def State.resetAll (s : State) : State := (List.range 66).foldl (fun s k => if s.funcUp k then s.resetFunc k else s) s

/-- The controller in reset, after a stop that firmware ordered. -/
def State.heldBy (s : State) (p : Pow) : State := { s with inReset := true, pow := p }

theorem State.heldBy_ends (u : State) (p : Pow) : (u.heldBy p).inReset = true ∧ (u.heldBy p).selNow = u.selNow ∧ (u.heldBy p).mbx = u.mbx :=
  ⟨rfl, rfl, rfl⟩

theorem State.restart_ends (s : State) : s.restart.inReset = true ∧ s.restart.selNow = s.selNow ∧ s.restart.mbx = s.mbx := by
  have e : s.restart = s.resetAll.keepStaged.heldBy { s.resetAll.keepStaged.pow with dumping := false, lastStop := 5 } := by
    rw [State.restart, State.heldBy, State.resetAll]
  have h1 : Same State.selNow s s.resetAll := .foldl (fun u k => .ite (fun _ => u.selNow_resetFunc k) fun _ => .refl u) _ _
  have h2 : Keeps _ s s.resetAll := .foldl (fun u k => .ite (fun _ => u.keeps_resetFunc k) fun _ => .refl u) _ _
  have h3 := s.resetAll.keeps_keepStaged
  have h4 := s.resetAll.keepStaged.heldBy_ends { s.resetAll.keepStaged.pow with dumping := false, lastStop := 5 }
  rw [← e] at h4
  obtain ⟨h5, h6, h7⟩ := h4
  have h8 : s.resetAll.keepStaged.selNow = s.resetAll.selNow := h3.selNow
  exact ⟨h5, h6.trans (h8.trans h1), h7.trans (h3.mbx_eq.trans h2.mbx_eq)⟩

theorem State.selNow_eq (h : t.selNow = s.selNow) : t.fw.active = s.fw.active ∧ t.fw.pendingSel = s.fw.pendingSel :=
  ⟨congrArg Prod.fst h, congrArg Prod.snd h⟩

theorem State.slotVer_of_fw (h : t.fw = s.fw) (k : Nat) : t.slotVer k = s.slotVer k := by
  unfold State.slotVer
  rw [h]

theorem State.length_selector (s : State) : s.selector.length = 64 := by
  unfold State.selector
  simp only [List.length_append, length_leBytes, fitTo, List.length_take, List.length_replicate]
  rfl

theorem State.Answered.of_mbx {m : Msg} {op code : Nat} {b : Bytes} (h : s.Answered m op code b) (e : t.mbx = s.mbx) :
    t.Answered m op code b := by
  unfold State.Answered
  rwa [e]

theorem State.fw_done (s : State) (op : Nat) (m : Msg) (a : Arrival) (b : Bytes) (more : Bool) : (s.done op m a b more).fw = s.fw :=
  (s.keeps_done op m a b more).fw_eq

theorem State.fw_refuse (s : State) (op : Nat) (m : Msg) (a : Arrival) (code detail : Nat) : (s.refuse op m a code detail).fw = s.fw :=
  (s.keeps_refuse op m a code detail).fw_eq

/-- The state with the firmware state `w`. -/
def State.withFw (s : State) (w : Fw) : State := { s with fw := w }

/-- A request that leaves the firmware state `w` and answers. -/
theorem State.answered_withFw (s : State) (w : Fw) (op : Nat) (m : Msg) (a : Arrival) (b : Bytes) :
    ((s.withFw w).done op m a b).fw = w ∧ ((s.withFw w).done op m a b).Answered m op 0 b :=
  ⟨State.fw_done _ _ _ _ _ _, State.answered_done ..⟩

theorem State.withFw_ends (s : State) (w : Fw) : (s.withFw w).inReset = s.inReset ∧ (s.withFw w).fw = w ∧ (s.withFw w).mbx = s.mbx :=
  ⟨rfl, rfl, rfl⟩

end

end Sys2Proof.Machine
end

section
-- One proof at a time: as many threads as there are lemmas here do not fit beside the model.
set_option Elab.async false
open Sys2Proof Sys2Proof.Machine

/-- Settles O58. -/
theorem firmwareCommands : Obligations.FirmwareCommands := by
  unfold Obligations.FirmwareCommands
  intro s hs
  refine ⟨fun t c h hp => ⟨fun off data hbad => ?_, fun off data h1 h2 h3 h4 h5 => ?_, fun slot => ⟨fun hn x hx => ?_, fun k hk =>
    ⟨fun hb x hx => ?_, fun hg x hx => ?_, fun hn x hx => ?_, fun x hx => ⟨?_, fun hpr => ?_, fun hpr ha hr => ?_, fun hpr ha hr => ?_⟩⟩⟩⟩,
    fun ok h => ?_, fun ok w ha hd => ?_, fun m a => ⟨fun off data had h1 h2 h3 h4 => ?_, fun had => ?_, fun had => ?_, fun k force had hk => ?_,
    fun k force had hk hsl hst => ?_, fun x had hx hpr hr => ?_, fun had h => ?_, fun had => ?_, fun mask had hu hf => ?_, fun mask had hu => ?_,
    fun key id had hk hl => ?_, fun key id had hk hr => ?_, fun key id had hk => ?_, fun key id had => ?_, fun had => ?_, fun had => ?_, fun had => ?_⟩⟩
  · exact (exec_of_firm h hp rfl).trans (congrArg Host.Outcome.next (if_pos hbad))
  · refine (exec_of_firm h hp rfl).trans (congrArg Host.Outcome.next ?_)
    rw [if_neg (by omega), h5, if_neg Bool.false_ne_true]
  · rcases List.mem_cons.1 hx with rfl | hx
    · exact (exec_of_firm h hp rfl).trans (congrArg Host.Outcome.next (State.commitCmd_none _ hn))
    rcases List.mem_cons.1 hx with rfl | hx
    · exact (exec_of_firm h hp rfl).trans (congrArg Host.Outcome.next (State.commitCmd_none _ hn))
    rcases List.mem_cons.1 hx with rfl | hx
    · refine (exec_of_firm h hp rfl).trans (congrArg Host.Outcome.next ?_)
      rw [hn]
    · obtain rfl := List.mem_singleton.1 hx
      refine (exec_of_firm h hp rfl).trans (congrArg Host.Outcome.next ?_)
      rw [hn]
  · rcases List.mem_cons.1 hx with rfl | hx
    · exact (exec_of_firm h hp rfl).trans (congrArg Host.Outcome.next (State.commitCmd_bad _ hk hb))
    · obtain rfl := List.mem_singleton.1 hx
      exact (exec_of_firm h hp rfl).trans (congrArg Host.Outcome.next (State.commitCmd_bad _ hk hb))
  · have hcom := (State.commit_good hg).2
    rcases List.mem_cons.1 hx with rfl | hx
    · exact ⟨s.commit.2, (exec_of_firm h hp rfl).trans (congrArg Host.Outcome.next (State.commitCmd_good false hk hg)),
        hcom.1, hcom.2.1, hcom.2.2, nofun⟩
    · obtain rfl := List.mem_singleton.1 hx
      have hsel := hcom.selectNext k
      obtain ⟨ha, hp', -, -⟩ := s.commit.2.selectNext_ends k
      exact ⟨s.commit.2.selectNext k, (exec_of_firm h hp rfl).trans (congrArg Host.Outcome.next (State.commitCmd_good true hk hg)),
        hsel.1, hsel.2.1, hsel.2.2, fun _ => ⟨ha, hp'⟩⟩
  · rcases List.mem_cons.1 hx with rfl | hx
    · refine (exec_of_firm h hp rfl).trans (congrArg Host.Outcome.next ?_)
      rw [hk]
      dsimp only
      rw [hn]
      exact if_pos rfl
    · obtain rfl := List.mem_singleton.1 hx
      refine (exec_of_firm h hp rfl).trans (congrArg Host.Outcome.next ?_)
      rw [hk]
      dsimp only
      rw [hn]
  · refine ⟨s.selectNext k, (exec_of_firm h hp rfl).trans (congrArg Host.Outcome.next ?_), s.selectNext_ends k⟩
    rw [hk]
    dsimp only
    rw [hx]
    exact if_neg fun hno => Bool.false_ne_true hno
  · refine (exec_of_firm h hp rfl).trans (congrArg Host.Outcome.next ?_)
    rw [hk]
    dsimp only
    rw [hx]
    dsimp only
    rw [hpr, Bool.true_or, if_pos rfl]
  · refine (exec_of_firm h hp rfl).trans (congrArg Host.Outcome.next ?_)
    rw [hk]
    dsimp only
    rw [hx]
    dsimp only
    rw [hpr, ha, if_neg (by decide), if_pos hr]
  · refine ⟨_, (exec_of_firm h hp rfl).trans (congrArg Host.Outcome.next ?_), rfl, s.activateStart_waits t (some t)⟩
    rw [hk]
    dsimp only
    rw [hx]
    dsimp only
    rw [hpr, ha, if_neg (by decide), hr, if_neg Bool.false_ne_true, State.stamp_of_ctx h.2.1]
  · rcases h with hn | hd
    · refine exec_of_awake hs (congrArg (fun u => s.awake (.next u)) ?_)
      rw [hn]
    · refine exec_of_awake hs (congrArg (fun u => s.awake (.next u)) ?_)
      rw [hd]
      cases s.hif.activating with
      | none => rfl
      | some w => rfl
  · obtain ⟨h1, h2⟩ := (s.switched ok).resumed.activateEnd_ends ok w
    exact ⟨_, State.execDrained hs ok ha hd, h1, h2.trans (s.runSlot_switched ok)⟩
  · split
    next ho =>
      refine gives_of_admitted hs had rfl ?_
      have ho' : (s.useToken m).overlapsStage off data.length = true := ho
      have h4' : (s.useToken m).stageTaken 1 = false := h4
      rw [if_neg (by omega), if_neg (by omega), h4', if_neg Bool.false_ne_true, if_pos ho']
      exact ⟨State.fw_refuse .., State.answered_refuse ..⟩
    next ho =>
      refine gives_of_admitted hs had rfl ?_
      have ho' : ¬ (s.useToken m).overlapsStage off data.length = true := ho
      have h4' : (s.useToken m).stageTaken 1 = false := h4
      rw [if_neg (by omega), if_neg (by omega), h4', if_neg Bool.false_ne_true, if_neg ho']
      refine ⟨?_, State.answered_done ..⟩
      rw [State.fw_done]
      unfold State.download
      split
      · rfl
      · rfl
  · refine gives_of_admitted hs had rfl ?_
    rw [State.fw_done]
    exact ⟨rfl, rfl, State.answered_done ..⟩
  · have hck : (s.useToken m).checkPackage (s.useToken m).staged_ = s.checkPackage s.staged_ := rfl
    split
    next hg =>
      refine gives_of_admitted hs had rfl ?_
      obtain ⟨h0, hstage, -, hpkg⟩ := State.commit_good (hck.trans hg)
      dsimp only
      rw [if_neg (not_not_intro h0)]
      generalize (s.useToken m).commit.2 = v at *
      rw [State.slotVer_of_fw (v.fw_done _ _ _ _ _), State.fw_done]
      exact ⟨hstage, hpkg, State.answered_done ..⟩
    next hb =>
      refine gives_of_admitted hs had rfl ?_
      have e := State.commit_bad (s := s.useToken m) fun hn => hb (hck.symm.trans hn)
      have hb' : (s.useToken m).checkPackage (s.useToken m).staged_ ≠ 0 := fun hn => hb (hck.symm.trans hn)
      dsimp only
      rw [e]
      dsimp only
      rw [if_pos hb', State.fw_refuse]
      exact ⟨rfl, rfl, State.answered_refuse ..⟩
  · refine gives_of_admitted hs had rfl ?_
    rw [if_pos hk, State.fw_refuse]
    exact ⟨rfl, State.answered_refuse ..⟩
  · refine gives_of_admitted hs had rfl ?_
    have hsl' : ¬ (tget k (s.useToken m).fw.slots).isNone = true := fun hn => hsl (Option.isNone_iff_eq_none.1 hn)
    have hst' : ((s.useToken m).twState == 0 || (s.useToken m).twState == 4 || ((s.useToken m).twState == 3 && force)) = true := by
      show (s.twState == 0 || s.twState == 4 || (s.twState == 3 && force)) = true
      rcases hst with h | h | ⟨h, h'⟩
      · rw [h]; rfl
      · rw [h]; rfl
      · rw [h, h']; rfl
    dsimp only
    rw [if_neg (by omega), if_neg (by rw [hst']; simpa using hsl')]
    obtain ⟨h1, h2, -, -⟩ := (s.useToken m).selectNext_ends k
    generalize (s.useToken m).selectNext k = v at *
    obtain ⟨h3, h4, h5⟩ := (v.done 0x0503 m a).restart_ends
    have h6 : (v.done 0x0503 m a).selNow = v.selNow := (v.keeps_done _ _ _ _ _).selNow
    obtain ⟨h7, h8⟩ := State.selNow_eq (h4.trans h6)
    exact ⟨h3, h7.trans h1, h8.trans h2, State.Answered.of_mbx (State.answered_done ..) h5⟩
  · refine gives_of_admitted hs had rfl ?_
    have hx' : tget (s.useToken m).idleSlot (s.useToken m).fw.slots = some x := hx
    have hpr' : (s.useToken m).activateProhibited = false := hpr
    have hr' : (s.useToken m).needsReset x.man = false := hr
    rw [hx']
    dsimp only
    rw [hpr', if_neg Bool.false_ne_true, hr', if_neg Bool.false_ne_true]
    exact ⟨rfl, (State.keeps_event _ _ _ _).waits_of_await⟩
  · refine gives_of_admitted hs had rfl ?_
    have hact : (s.useToken m).hif.activating = none := had.1
    have href : ((s.useToken m).refuse 0x0504 m a 7 (s.useToken m).stateDetail).fw = s.fw ∧
        ((s.useToken m).refuse 0x0504 m a 7 (s.useToken m).stateDetail).hif.activating = none ∧
        ((s.useToken m).refuse 0x0504 m a 7 (s.useToken m).stateDetail).Answered m 0x0504 7 [] :=
      ⟨State.fw_refuse .., (congrArg Hif.activating (State.keeps_refuse ..).hif_eq).trans hact, State.answered_refuse ..⟩
    have hpr' : (s.useToken m).activateProhibited = s.activateProhibited := rfl
    have hsl' : tget (s.useToken m).idleSlot (s.useToken m).fw.slots = tget s.idleSlot s.fw.slots := rfl
    rw [hsl', hpr']
    cases hx : tget s.idleSlot s.fw.slots with
    | none => exact href
    | some x =>
      have hp : s.activateProhibited = true := h.resolve_left fun hn => Option.some_ne_none x (hx.symm.trans hn)
      dsimp only
      rw [if_pos hp]
      exact href
  · refine gives_of_admitted hs had rfl ⟨_, State.answered_done .., ?_⟩
    rw [List.append_assoc]
    exact List.take_left' s.length_selector
  · refine ⟨((s.useToken m).await m a 2 0).withFw { s.fw with upd := some { left := (List.range 32).filter fun n => mask == 0 || mask.getLsbD n } },
      exec_of_admitted hs had rfl ?_, rfl, rfl⟩
    have hu' : (s.useToken m).fw.upd = none := hu
    have hf' : (s.useToken m).sameFirmware = true := hf
    dsimp only
    rw [hu', if_neg (by decide), hf', if_neg (by decide)]
    rfl
  · refine gives_of_admitted hs had rfl ?_
    have hu' : (s.useToken m).fw.upd.isSome = true := Option.isSome_iff_ne_none.2 hu
    dsimp only
    rw [if_pos hu']
    exact ⟨State.fw_refuse .., State.answered_refuse ..⟩
  · have hk' : ¬ ((s.useToken m).fw.cosign.any fun k => k.2 == keyIdOf key) = true := fun hn => Bool.false_ne_true (hk.symm.trans hn)
    have hl' : ¬ 2 ≤ (s.useToken m).fw.cosign.length := Nat.not_le.2 hl
    obtain ⟨h1, h2⟩ := (s.useToken m).answered_withFw { s.fw with cosign := s.fw.cosign ++ [(key, keyIdOf key)] } 0x0507 m a
      (leBytes 48 (keyIdOf key).toNat)
    exact ⟨_, exec_of_admitted hs had rfl ((if_neg hk').trans (if_neg hl')), congrArg Fw.cosign h1, h2⟩
  · have hlen : ¬ ((s.useToken m).fw.cosign.filter fun k => k.2 != id).length = (s.useToken m).fw.cosign.length := fun hn => by
      obtain ⟨k, hmem, hid⟩ := List.any_eq_true.1 hk
      have hall := List.length_filter_eq_length_iff.1 hn k hmem
      rw [bne, hid] at hall
      exact Bool.false_ne_true hall
    have hr' : ¬ (((s.useToken m).fw.cosign.filter fun k => k.2 != id).isEmpty && (s.useToken m).fw.cosignReq) = true := fun hn =>
      Bool.false_ne_true (hr.symm.trans (Bool.and_eq_true_iff.1 hn).2)
    obtain ⟨h1, h2⟩ := (s.useToken m).answered_withFw { s.fw with cosign := s.fw.cosign.filter fun k => k.2 != id } 0x0507 m a
      (leBytes 48 id.toNat)
    exact ⟨_, exec_of_admitted hs had rfl ((if_neg hlen).trans (if_neg hr')), congrArg Fw.cosign h1, h2⟩
  · have hk' : ¬ (s.useToken m).fw.cosign.isEmpty = true := fun hn => hk (List.isEmpty_iff.1 hn)
    obtain ⟨h1, h2⟩ := (s.useToken m).answered_withFw { s.fw with cosignReq := true } 0x0507 m a (leBytes 48 0)
    exact ⟨_, exec_of_admitted hs had rfl (if_neg hk'), congrArg Fw.cosignReq h1, h2⟩
  · obtain ⟨h1, h2⟩ := (s.useToken m).answered_withFw { s.fw with cosignReq := false } 0x0507 m a (leBytes 48 0)
    exact ⟨_, exec_of_admitted hs had rfl rfl, congrArg Fw.cosignReq h1, h2⟩
  · refine gives_of_admitted hs had rfl ?_
    dsimp only
    split
    next hlt =>
      have hfw := (s.useToken m).fw_selWrite fun w => { w with svnMin := (s.useToken m).man.svn }
      generalize (State.selWrite _ _) = v at *
      rw [State.fw_done, hfw]
      exact ⟨(Nat.max_eq_right (Nat.le_of_lt hlt)).symm, State.answered_done ..⟩
    next hge =>
      rw [State.fw_done]
      exact ⟨(Nat.max_eq_left (Nat.not_lt.1 hge)).symm, State.answered_done ..⟩
  · obtain ⟨h3, -, h5⟩ := ((s.useToken m).done 0x0509 m a).restart_ends
    obtain ⟨h6, h7, h8⟩ := ((s.useToken m).done 0x0509 m a).restart.withFw_ends
      { ((s.useToken m).done 0x0509 m a).restart.fw with testNext := true }
    exact ⟨_, exec_of_admitted hs had rfl rfl, h6.trans h3, congrArg Fw.testNext h7, State.Answered.of_mbx (State.answered_done ..) (h8.trans h5)⟩
  · split
    next ht =>
      refine gives_of_admitted hs had rfl ?_
      have hno : ¬ (!(s.useToken m).fw.testMode && (s.useToken m).bootState != 7) = true := by
        show ¬ (!s.fw.testMode && s.bootState != 7) = true
        rcases ht with h | h
        · simp [h]
        · simp [h]
      dsimp only
      rw [if_neg hno]
      split
      next hlt =>
        rw [State.fw_done]
        exact ⟨(Nat.max_eq_right (Nat.le_of_lt hlt)).symm, State.answered_done ..⟩
      next hge =>
        rw [State.fw_done]
        exact ⟨(Nat.max_eq_left (Nat.not_lt.1 hge)).symm, State.answered_done ..⟩
    next ht =>
      refine gives_of_admitted hs had rfl ?_
      have hyes : (!(s.useToken m).fw.testMode && (s.useToken m).bootState != 7) = true := by
        show (!s.fw.testMode && s.bootState != 7) = true
        rw [not_or, Bool.not_eq_true] at ht
        simp [ht.1, ht.2]
      dsimp only
      rw [if_pos hyes]
      exact ⟨State.fw_refuse .., State.answered_refuse ..⟩
end

section
-- One proof at a time: as many threads as there are lemmas here do not fit beside the model.
set_option Elab.async false
namespace Sys2Proof.Machine

/-- The arbiter link's state without its next sequence number and without the dirty pages of a rejoin. -/
def State.arbCore (s : State) : Arb := { s.arb with mseqTx := 0, rj := { s.arb.rj with dirty := [] } }

theorem Keeps.arbCore {F : Foot} {s t : State} (h : Keeps F s t) (hp : F.parts.contains .arb = false := by decide +kernel) :
    Same State.arbCore s t := by
  show State.arbCore t = State.arbCore s
  rw [State.arbCore, h.arb_eq hp, State.arbCore]

theorem State.arbCore_dirtied (s : State) (a : Nat) : Same State.arbCore s (s.dirtied a) := by
  unfold State.dirtied
  exact .ite (fun _ => .update (.refl _) rfl) fun _ => .refl _

theorem State.arbCore_wrByte (s : State) (a : Nat) (b : Byte) : Same State.arbCore s (s.wrByte a b) := by
  unfold State.wrByte
  exact .ite (fun _ => .after (State.arbCore_dirtied _ _) (.update (.refl _) rfl)) fun _ => .refl _

theorem State.arbCore_engWrite (s : State) (a : Nat) (a2 : Bytes) : Same State.arbCore s (s.engWrite a a2) := by
  fun_induction s.engWrite a a2
  · exact .refl _
  · rename_i ih4
    exact .after ih4 (.ite (fun _ => State.arbCore_wrByte _ _ _) fun _ => .refl _)

theorem State.arbCore_arbSend (s : State) (mtype : Nat) (body : Bytes) : Same State.arbCore s (s.arbSend mtype body) := by
  unfold State.arbSend
  exact .after ((State.keeps_send _ _).arbCore) (.update (.refl _) rfl)

theorem State.arbCore_ringWrite (s : State) (i : Nat) (b : Bytes) : Same State.arbCore s (s.ringWrite i b) := by
  unfold State.ringWrite
  exact .after (.after (.update (.refl _) rfl) (State.arbCore_engWrite _ _ _)) (.ite (fun _ => State.arbCore_engWrite _ _ _) fun _ =>
    .refl _)

theorem State.arbCore_ringDeliver (s : State) (e : LEntry) : Same State.arbCore s (s.ringDeliver e) := by
  unfold State.ringDeliver
  exact .ite (fun _ => .refl _) fun _ => State.arbCore_ringWrite _ _ _

theorem State.arbCore_record (s : State) (e : LEntry) : Same State.arbCore s (s.record e) := by
  unfold State.record
  exact .ite (fun _ => .refl _) fun _ => .after (State.arbCore_ringDeliver _ _)
    (.ite (fun _ => (State.keeps_recordPut _ _).arbCore) fun _ => .refl _)

theorem State.arbCore_recordCtl (s : State) (ckind : Nat) (arg : Nat) : Same State.arbCore s (s.recordCtl ckind arg) := by
  unfold State.recordCtl
  exact .after ((State.keeps_raise _ _).arbCore) (State.arbCore_record _ _)

theorem State.arbCore_sendDigests (a0 : Nat) (a1 : State) : Same State.arbCore a1 (State.sendDigests a0 a1) := by
  fun_induction State.sendDigests a0 a1
  · exact .refl _
  · exact .refl _
  · exact .refl _
  · rename_i ih14
    exact .after ih14 (.after ((State.keeps_setReg _ _ _ _).arbCore) (.after ((State.keeps_setReg _ _ _ _).arbCore)
      (.after ((State.keeps_setReg _ _ _ _).arbCore) (.after (State.arbCore_arbSend _ _ _) (.update (.refl _) rfl)))))

theorem State.arbCore_report (s : State) (stage : BitVec 64) : Same State.arbCore s (s.report stage) := by
  unfold State.report
  exact State.arbCore_arbSend _ _ _

/-- Whether held outputs are frozen, the next message that the twin link takes, and whether the trail lags. -/
def State.heldUp (s : State) : Bool × BitVec 64 × Bool := (s.twn.frozen, s.twn.mseqRx, s.twn.lagging)

theorem Keeps.heldUp {F : Foot} {s t : State} (h : Keeps F s t) (hp : F.parts.contains .twn = false := by decide +kernel) :
    Same State.heldUp s t := congrArg (fun w : Twn => (w.frozen, w.mseqRx, w.lagging)) (h.twn_eq hp)

theorem State.heldUp_pumpTwin (s : State) : Same State.heldUp s s.pumpTwin := by
  unfold State.pumpTwin
  exact .ite (fun _ => .refl _) fun _ => .update (.refl _) rfl

theorem State.heldUp_digest (s : State) (c : Nat) (o : Out) : Same State.heldUp s (s.digest c o) := by
  unfold State.digest
  exact .ite (fun _ => .update (.refl _) rfl) fun _ => .refl _

theorem State.heldUp_emitQuiet (s : State) (o : Out) : Same State.heldUp s (s.emitQuiet o) := by
  unfold State.emitQuiet
  exact .ite (fun _ => .refl _) fun _ => .ite (fun _ => .update (.refl _) rfl) fun _ => (State.keeps_issue _ _).heldUp

theorem State.heldUp_emit (s : State) (o : Out) : Same State.heldUp s (s.emit o) := by
  unfold State.emit
  exact .after (State.heldUp_emitQuiet _ _) (State.heldUp_digest _ _ _)

theorem State.heldUp_twinSend (s : State) (mtype : Nat) (body : Bytes) (last : Bool) : Same State.heldUp s
    (s.twinSend mtype body last) := by
  unfold State.twinSend
  exact .ite (fun _ => .refl _) fun _ => .ite
    (fun _ => .after (.after (.after (State.heldUp_pumpTwin _) (.after ((State.keeps_raise _ _).heldUp) ((State.keeps_put _ _ _ _).heldUp)))
    (.after ((State.keeps_sendKey _).heldUp) (.update (.refl _) rfl))) (.update (.refl _) rfl)) fun _ => .after (State.heldUp_pumpTwin _)
    (.update (.refl _) rfl)

theorem State.heldUp_ringWrite (s : State) (i : Nat) (b : Bytes) : Same State.heldUp s (s.ringWrite i b) := by
  unfold State.ringWrite
  exact .after (.after (.update (.refl _) rfl) ((State.keeps_engWrite _ _ _).heldUp))
    (.ite (fun _ => (State.keeps_engWrite _ _ _).heldUp) fun _ => .refl _)

theorem State.heldUp_ringDeliver (s : State) (e : LEntry) : Same State.heldUp s (s.ringDeliver e) := by
  unfold State.ringDeliver
  exact .ite (fun _ => .refl _) fun _ => State.heldUp_ringWrite _ _ _

theorem State.heldUp_recordPut (s : State) (e : LEntry) : Same State.heldUp s (s.recordPut e) := by
  unfold State.recordPut
  exact .after (.after ((State.keeps_pmc _ _ _ _).heldUp) (.ite (fun _ => State.heldUp_twinSend _ _ _ _) fun _ => .refl _))
    (.update (.refl _) rfl)

theorem State.heldUp_record (s : State) (e : LEntry) : Same State.heldUp s (s.record e) := by
  unfold State.record
  exact .ite (fun _ => .refl _) fun _ => .after (State.heldUp_ringDeliver _ _) (.ite (fun _ => State.heldUp_recordPut _ _) fun _ => .refl _)

theorem State.heldUp_recordCtl (s : State) (ckind : Nat) (arg : Nat) : Same State.heldUp s (s.recordCtl ckind arg) := by
  unfold State.recordCtl
  exact .after ((State.keeps_raise _ _).heldUp) (State.heldUp_record _ _)

theorem State.heldUp_putCqe (s : State) (f : Nat) (cqid : Nat) (q : Cq) (e : CqEntry) : Same State.heldUp s (s.putCqe f cqid q e) := by
  unfold State.putCqe
  exact .after (.after (.ite (fun _ => (State.keeps_interrupt _ _ _ _).heldUp) fun _ => .refl _) (State.heldUp_emitQuiet _ _))
    ((State.keeps_setFunc _ _ _).heldUp)

theorem State.heldUp_postEntry (s : State) (f : Nat) (cqid : Nat) (e : CqEntry) : Same State.heldUp s (s.postEntry f cqid e) := by
  unfold State.postEntry
  split
  · exact .refl _
  · exact .after (.ite (fun _ => (State.keeps_setFunc _ _ _).heldUp) fun _ => State.heldUp_putCqe _ _ _ _ _) (State.heldUp_digest _ _ _)

theorem State.heldUp_postCqe (s : State) (f : Nat) (c : Ctx) (r : Cpl) : Same State.heldUp s (s.postCqe f c r) := by
  unfold State.postCqe
  split
  · exact .refl _
  · exact .after (State.heldUp_postEntry _ _ _ _) ((State.keeps_setFunc _ _ _).heldUp)

theorem State.heldUp_postCapsule (s : State) (c : Ctx) (r : Cpl) : Same State.heldUp s (s.postCapsule c r) := by
  unfold State.postCapsule
  split
  · exact .refl _
  · exact .after (.ite (fun _ => State.heldUp_digest _ _ _) fun _ => State.heldUp_emit _ _) (.update (.refl _) rfl)

theorem State.heldUp_finish (s : State) (c : Ctx) (r : Cpl) : Same State.heldUp s (s.finish c r) := by
  unfold State.finish
  split
  · exact .refl _
  · extract_lets +onlyGivenNames s1
    have hs1 : Same State.heldUp s s1 := .after ((State.keeps_logError _ _ _).heldUp) (.after ((State.keeps_tallyLat _ _).heldUp)
      ((State.keeps_release _ _).heldUp))
    split
    · exact .after (State.heldUp_postCqe _ _ _ _) hs1
    · exact .after (State.heldUp_postCapsule _ _ _) hs1

theorem State.heldUp_postTo (typ : Nat) (info : Nat) (s : State) (t : Tenant) : Same State.heldUp s (State.postTo typ info s t) := by
  unfold State.postTo
  extract_lets +onlyGivenNames c1
  split
  · exact .refl _
  · split
    · exact .after (State.heldUp_finish _ _ _) ((State.keeps_setCtl _ _ _).heldUp)
    · exact .ite (fun _ => .refl _) fun _ => (State.keeps_setCtl _ _ _).heldUp

theorem State.heldUp_event (s : State) (typ : Nat) (info : Nat) (bit : Option Nat) : Same State.heldUp s (s.event typ info bit) := by
  unfold State.event
  exact .foldl (fun _ _ => .ite (fun _ => State.heldUp_postTo _ _ _ _) fun _ => .refl _) _ _

theorem State.heldUp_nsChanged (s : State) (l : List Nat) : Same State.heldUp s (s.nsChanged l) := by
  unfold State.nsChanged
  exact .after (State.heldUp_event _ _ _ _) (.foldl (fun _ _ => (State.keeps_setCtl _ _ _).heldUp) _ _)

theorem State.heldUp_vendor (s : State) (i : Nat) : Same State.heldUp s (s.vendor i) := by
  unfold State.vendor
  exact State.heldUp_event _ _ _ _

theorem State.heldUp_critSet (s : State) (n : Nat) : Same State.heldUp s (s.critSet n) := by
  unfold State.critSet
  exact .ite (fun _ => .refl _) fun _ => .after (State.heldUp_event _ _ _ _) (.update (.refl _) rfl)

theorem State.heldUp_notice (s : State) (code : Nat) (param : Nat) (detail : Nat) : Same State.heldUp s (s.notice code param detail) := by
  unfold State.notice
  exact .after (State.heldUp_vendor _ _) (.update (.refl _) rfl)

theorem State.heldUp_succeed (s : State) (c : Ctx) (dw0 : BitVec 32) : Same State.heldUp s (s.succeed c dw0) := by
  unfold State.succeed
  exact State.heldUp_finish _ _ _

theorem State.heldUp_physCheck (s : State) : Same State.heldUp s s.physCheck := by
  unfold State.physCheck
  exact .ite (fun _ => .refl _) fun _ => .ite (fun _ => .ite (fun _ => .after ((State.keeps_healthNote _).heldUp)
    (.update (.refl _) rfl)) fun _ => .refl _) fun _ => .ite (fun _ => .after ((State.keeps_healthNote _).heldUp)
    (.after (State.heldUp_vendor _ _) (.update (.refl _) rfl))) fun _ => .refl _

theorem State.heldUp_packIssue (s : State) (n : Nat) (use : PkUse) (c : PackCmd) : Same State.heldUp s (s.packIssue n use c) := by
  unfold State.packIssue
  exact .after (.after (.after (State.heldUp_emit _ _) (.after ((State.keeps_pmc _ _ _ _).heldUp) ((State.keeps_pmc _ _ _ _).heldUp)))
    (.after ((State.keeps_outstUpdate _ _).heldUp) ((State.keeps_setPk _ _ _).heldUp))) ((State.keeps_put _ _ _ _).heldUp)

theorem State.heldUp_wakePack (s : State) (k : Nat) : Same State.heldUp s (s.wakePack k) := by
  unfold State.wakePack
  exact .ite (fun _ => State.heldUp_packIssue _ _ _ _) fun _ => .ite (fun _ => .after ((State.keeps_train _ _).heldUp)
    ((State.keeps_put _ _ _ _).heldUp)) fun _ => .refl _

theorem State.heldUp_wakeGroup (s : State) (g : Nat) : Same State.heldUp s (s.wakeGroup g) := by
  unfold State.wakeGroup
  exact .after (.ite (fun _ => .refl _) fun _ => .after ((State.keeps_raise _ _).heldUp) (.update (.refl _) rfl))
    (.foldl (fun _ _ => State.heldUp_wakePack _ _) _ _)

theorem State.heldUp_packSend (s : State) (n : Nat) (use : PkUse) (c : PackCmd) : Same State.heldUp s (s.packSend n use c) := by
  unfold State.packSend
  exact .ite (fun _ => .refl _) fun _ => .after (.ite (fun _ => (State.keeps_setPk _ _ _).heldUp) fun _ => State.heldUp_packIssue _ _ _ _)
    (.ite (fun _ => State.heldUp_wakeGroup _ _) fun _ => .refl _)

theorem State.heldUp_logPage (s : State) (use : PkUse) (n : Nat) (l : List SysRec) : Same State.heldUp s (s.logPage use n l) := by
  unfold State.logPage
  split
  · exact .after (State.heldUp_packSend _ _ _ _) (.update (.refl _) rfl)
  · exact .refl _

theorem State.heldUp_logCopy (s : State) (lseq : Nat) (n : Nat) : Same State.heldUp s (s.logCopy lseq n) := by
  unfold State.logCopy
  exact State.heldUp_logPage _ _ _ _

theorem State.heldUp_logGo (s : State) : Same State.heldUp s s.logGo := by
  unfold State.logGo
  exact .ite (fun _ => .refl _) fun _ => .after (.foldl (fun _ _ => .foldl (fun _ _ => State.heldUp_logCopy _ _ _) _ _) _ _)
    (.update (.refl _) rfl)

theorem State.heldUp_logSys (s : State) (r : SysRec) : Same State.heldUp s (s.logSys r) := by
  unfold State.logSys
  exact .after (State.heldUp_logGo _) ((State.keeps_logAdd _ _).heldUp)

theorem State.heldUp_eraseGo (s : State) : Same State.heldUp s s.eraseGo := by
  unfold State.eraseGo
  exact .ite (fun _ => .refl _) fun _ => .after (.foldl (fun _ _ => State.heldUp_packSend _ _ _ _) _ _) (.update (.refl _) rfl)

theorem State.heldUp_logJoin (s : State) (n : Nat) : Same State.heldUp s (s.logJoin n) := by
  unfold State.logJoin
  exact .ite (fun _ => .refl _) fun _ => .after (.foldl (fun _ _ => State.heldUp_logPage _ _ _ _) _ _) (.update (.refl _) rfl)

theorem State.heldUp_logLost (s : State) (n : Nat) : Same State.heldUp s (s.logLost n) := by
  unfold State.logLost
  split
  · exact .refl _
  · extract_lets +onlyGivenNames mine1 s2 s3
    have hs3 : Same State.heldUp s s3 := .update (.refl _) rfl
    extract_lets +onlyGivenNames s4 s5
    have hs5 : Same State.heldUp s s5 := by
      unfold s5
      split
      · exact hs3
      · exact .after (.after (.foldl (fun _ _ => State.heldUp_logCopy _ _ _) _ _) (.update (.refl _) rfl))
          (.after (State.heldUp_logJoin _ _) hs3)
    exact .after (State.heldUp_eraseGo _) (.update hs5 rfl)

theorem State.heldUp_healthSave (s : State) : Same State.heldUp s s.healthSave := by
  unfold State.healthSave
  exact .after (State.heldUp_logGo _) ((State.keeps_healthNote _).heldUp)

theorem State.heldUp_roJudge (s : State) : Same State.heldUp s s.roJudge := by
  unfold State.roJudge
  exact .ite (fun _ => .refl _) fun _ => .after (.after (State.heldUp_healthSave _)
    (.ite (fun _ => .after (State.heldUp_critSet _ _) (.after (State.heldUp_nsChanged _ _) (.update (.refl _) rfl))) fun _ => .ite
    (fun _ => .after ((State.keeps_critClear _ _).heldUp) (.update (.refl _) rfl)) fun _ => .refl _))
    (.ite (fun _ => .update (.refl _) rfl) fun _ => .refl _)

theorem State.heldUp_resJudge (s : State) (k : Nat) : Same State.heldUp s (s.resJudge k) := by
  unfold State.resJudge
  exact .ite (fun _ => .refl _) fun _ => .after
    (.after (.ite (fun _ => .ite (fun _ => State.heldUp_critSet _ _) fun _ => (State.keeps_critClear _ _).heldUp) fun _ => .refl _)
    (.ite (fun _ => .refl _) fun _ => State.heldUp_vendor _ _)) (.update (.refl _) rfl)

theorem State.heldUp_judge (s : State) : Same State.heldUp s s.judge := by
  unfold State.judge
  exact .after (State.heldUp_roJudge _) (.after (State.heldUp_physCheck _) (.foldl (fun _ _ => State.heldUp_resJudge _ _) _ _))

theorem State.heldUp_recomputeU (s : State) : Same State.heldUp s s.recomputeU := by
  unfold State.recomputeU
  exact .after (State.heldUp_judge _) (.ite (fun _ => .refl _) fun _ => (State.keeps_put _ _ _ _).heldUp)

theorem State.heldUp_sendRead (s : State) (use : PkUse) (c : Cb) (m : Nat) (page : Nat) (mask : Nat) : Same State.heldUp s
    (s.sendRead use c m page mask) := by
  unfold State.sendRead
  split
  · exact State.heldUp_packSend _ _ _ _
  · exact .refl _

theorem State.heldUp_readPage (s : State) (use : PkUse) (cbid : Nat) (page : Nat) (m : Nat) (mask : Nat) : Same State.heldUp s
    (s.readPage use cbid page m mask) := by
  unfold State.readPage
  extract_lets +onlyGivenNames c1
  split
  · exact .refl _
  · exact .ite (fun _ => State.heldUp_sendRead _ _ _ _ _ _) fun _ => .ite (fun _ => .refl _) fun _ => .foldl
      (fun _ _ => State.heldUp_sendRead _ _ _ _ _ _) _ _

theorem State.heldUp_eraseOne (s : State) (use : PkUse) (n : Nat) (d : Nat) (b : Nat) : Same State.heldUp s (s.eraseOne use n d b) := by
  unfold State.eraseOne
  exact .after (.after (.after (State.heldUp_eraseGo _) (.update (.refl _) rfl)) (State.heldUp_logSys _ _)) (.update (.refl _) rfl)

theorem State.heldUp_freeIfErased (s : State) (cbid : Nat) : Same State.heldUp s (s.freeIfErased cbid) := by
  unfold State.freeIfErased
  exact .ite (fun _ => .after (.after (State.heldUp_logSys _ _) (.after ((State.keeps_forget _ _).heldUp)
    ((State.keeps_setCb _ _ _).heldUp))) (.update (.refl _) rfl)) fun _ => .refl _

theorem State.heldUp_endRebuild (s : State) (cbid : Nat) : Same State.heldUp s (s.endRebuild cbid) := by
  unfold State.endRebuild
  split
  · exact .refl _
  · exact .ite (fun _ => .refl _) fun _ => .after (.ite (fun _ => State.heldUp_eraseOne _ _ _ _ _) fun _ => .refl _) (.update (.refl _) rfl)

theorem State.heldUp_recordPoisoned (s : State) (blocks : List (Nat × Nat)) (cause : Nat) : Same State.heldUp s
    (s.recordPoisoned blocks cause) := by
  unfold State.recordPoisoned
  exact .after (.ite (fun _ => .refl _) fun _ => State.heldUp_vendor _ _)
    (.foldl (fun _ _ => .foldl (fun _ _ => (State.keeps_addPoisoned _ _ _ _ _ _).heldUp) _ _) _ _)

theorem State.heldUp_poisonWhere (s : State) (hit : Nat → Nat → Bool) (cause : Nat) : Same State.heldUp s (s.poisonWhere hit cause) := by
  unfold State.poisonWhere
  exact .after (.after (State.heldUp_recordPoisoned _ _ _) (.foldl (fun _ _ => (State.keeps_poisonPatch _ _ _ _).heldUp) _ _))
    (.foldl (fun _ _ => (State.keeps_poisonEntry _ _ _).heldUp) _ _)

theorem State.heldUp_poisonLost (s : State) (cbid : Nat) : Same State.heldUp s (s.poisonLost cbid) := by
  unfold State.poisonLost
  exact .ite (fun _ => .refl _) fun _ => State.heldUp_poisonWhere _ _ _

theorem State.heldUp_copyPages (s : State) (cbid : Nat) (n : Nat) : Same State.heldUp s (s.copyPages cbid n) := by
  unfold State.copyPages
  exact .foldl (fun _ _ => .after (.update (.refl _) rfl) (State.heldUp_readPage _ _ _ _ _ _)) _ _

theorem State.heldUp_copyAll (s : State) (cbid : Nat) : Same State.heldUp s (s.copyAll cbid) := by
  unfold State.copyAll
  exact .ite (fun _ => State.heldUp_copyPages _ _ _) fun _ => .refl _

theorem State.heldUp_copyAgain (s : State) (l : List Placed) : Same State.heldUp s (s.copyAgain l) := by
  unfold State.copyAgain
  exact .after (.foldl (fun _ _ => State.heldUp_copyAll _ _) _ _) (.update (.refl _) rfl)

theorem State.heldUp_dropFlights (s : State) (cbid : Nat) : Same State.heldUp s (s.dropFlights cbid) := by
  unfold State.dropFlights
  exact .after (.after (State.heldUp_copyAgain _ _) (.after ((State.keeps_unplace _ _ _).heldUp) (.update (.refl _) rfl)))
    (.foldl (fun _ _ => (State.keeps_engWrite _ _ _).heldUp) _ _)

theorem State.heldUp_closeBlock (s : State) (cbid : Nat) (page : Nat) : Same State.heldUp s (s.closeBlock cbid page) := by
  unfold State.closeBlock
  exact .after (State.heldUp_logSys _ _) ((State.keeps_setCb _ _ _).heldUp)

theorem State.heldUp_loseMember (s : State) (cbid : Nat) (m : Nat) : Same State.heldUp s (s.loseMember cbid m) := by
  unfold State.loseMember
  extract_lets +onlyGivenNames c1
  split
  · exact .refl _
  · exact .ite (fun _ => .refl _) fun _ => .after (.after (.after (.after (State.heldUp_poisonLost _ _) ((State.keeps_setCb _ _ _).heldUp))
      (.after (State.heldUp_copyAgain _ _) (.update (.refl _) rfl))) (.ite (fun _ => .after (State.heldUp_closeBlock _ _ _)
      (State.heldUp_dropFlights _ _)) fun _ => .refl _)) (.after (State.heldUp_logSys _ _) ((State.keeps_setCb _ _ _).heldUp))

theorem State.heldUp_loseWhere (s : State) (p : Member → Bool) : Same State.heldUp s (s.loseWhere p) := by
  unfold State.loseWhere
  exact .foldl (fun _ _ => State.heldUp_loseMember _ _ _) _ _

theorem State.heldUp_dropRebuild (s : State) (p : Member → Bool) : Same State.heldUp s (s.dropRebuild p) := by
  unfold State.dropRebuild
  split
  · exact .refl _
  · exact .ite (fun _ => .update (.refl _) rfl) fun _ => .ite (fun _ => State.heldUp_endRebuild _ _) fun _ => .refl _

theorem State.heldUp_idWriteStart (s : State) (n : Nat) : Same State.heldUp s (s.idWriteStart n) := by
  unfold State.idWriteStart
  exact .ite (fun _ => (State.keeps_setPk _ _ _).heldUp) fun _ => .after (State.heldUp_packSend _ _ _ _) ((State.keeps_setPk _ _ _).heldUp)

theorem State.heldUp_idUpdate (s : State) (n : Nat) (i : PackId) : Same State.heldUp s (s.idUpdate n i) := by
  unfold State.idUpdate
  exact .after (.ite (fun _ => State.heldUp_idWriteStart _ _) fun _ => (State.keeps_setPk _ _ _).heldUp) ((State.keeps_setPk _ _ _).heldUp)

theorem State.heldUp_flushOne (s : State) (c : Ctx) : Same State.heldUp s (s.flushOne c) := by
  unfold State.flushOne
  split
  · exact .ite (fun _ => State.heldUp_succeed _ _ _) fun _ => .refl _
  · exact .refl _

theorem State.heldUp_detachOne (s : State) (c : Ctx) : Same State.heldUp s (s.detachOne c) := by
  unfold State.detachOne
  split
  · extract_lets +onlyGivenNames busy1
    split
    · exact .refl _
    · split
      · exact State.heldUp_succeed _ _ _
      · exact .after (State.heldUp_succeed _ _ _) ((State.keeps_setNs _ _ _).heldUp)
  · exact .refl _

theorem State.heldUp_eraseHalf (s : State) (h : Nat) : Same State.heldUp s (s.eraseHalf h) := by
  unfold State.eraseHalf
  refine .foldl (fun u1 x2 => ?_) _ _
  split
  · exact .refl _
  · refine .foldl (fun u3 x4 => ?_) _ _
    refine .foldl (fun u5 x6 => ?_) _ _
    split
    · exact State.heldUp_eraseOne _ _ _ _ _
    · exact .refl _

theorem State.heldUp_releaseHalf (s : State) : Same State.heldUp s s.releaseHalf := by
  unfold State.releaseHalf
  split
  · exact .refl _
  · split
    · exact .refl _
    · extract_lets +onlyGivenNames left1 s2 s3
      have hs3 : Same State.heldUp s s3 := .ite (fun _ => .update (.refl _) rfl) fun _ => .refl _
      split
      · exact hs3
      · exact .ite (fun _ => hs3) fun _ => .after (.foldl (fun _ _ => .after (State.heldUp_eraseHalf _ _) (State.heldUp_logSys _ _)) _ _)
          (.update hs3 rfl)

theorem State.heldUp_flow (s : State) : Same State.heldUp s s.flow := by
  unfold State.flow
  exact .after (.after (.after (.after (.after (.after ((State.keeps_dormantGo _).heldUp) (State.heldUp_releaseHalf _))
    (.foldl (fun _ _ => (State.keeps_shutdownOne _ _).heldUp) _ _)) (.foldl (fun _ _ => (State.keeps_rotateOne _ _).heldUp) _ _))
    (.foldl (fun _ _ => State.heldUp_detachOne _ _) _ _)) (.foldl (fun _ _ => State.heldUp_flushOne _ _) _ _))
    (.after ((State.keeps_journalDue _).heldUp) (State.heldUp_logGo _))

theorem State.heldUp_answer (s : State) (op : Nat) (m : Msg) (here : Bool) (code : Nat) (detail : Nat) (body : Bytes)
    (more : Bool) : Same State.heldUp s (s.answer op m here code detail body more) := by
  unfold State.answer
  exact .after (.after (.ite (fun _ => .ite (fun _ => (State.keeps_send _ _).heldUp) fun _ => .refl _) fun _ => .ite
    (fun _ => State.heldUp_emit _ _) fun _ => State.heldUp_digest _ _ _) (.ite (fun _ => (State.keeps_setReply _ _ _ _).heldUp) fun _ =>
    .refl _)) (.update (.refl _) rfl)

theorem State.heldUp_answerWaits (s : State) (op : Nat) (what : Nat) (arg : Nat) (code : Nat) (detail : Nat)
    (body : Bytes) : Same State.heldUp s (s.answerWaits op what arg code detail body) := by
  unfold State.answerWaits
  exact .after (.foldl (fun _ _ => State.heldUp_answer _ _ _ _ _ _ _ _) _ _) (.update (.refl _) rfl)

theorem State.heldUp_setLnk (s : State) (l : Link) (x : Lnk) : Same State.heldUp s (s.setLnk l x) := by
  unfold State.setLnk
  split
  · exact (State.keeps_setPk _ _ _).heldUp
  · exact .update (.refl _) rfl

theorem State.heldUp_releaseHeld (s : State) : Same State.heldUp s s.releaseHeld := by
  unfold State.releaseHeld
  exact .ite (fun _ => .refl _) fun _ => .after (.foldl (fun _ _ => (State.keeps_issue _ _).heldUp) _ _) (.update (.refl _) rfl)

theorem State.heldUp_ackSome (s : State) (l : Link) (k : Nat) : Same State.heldUp s (s.ackSome l k) := by
  unfold State.ackSome
  exact .after ((State.keeps_control _ _ _ _ _ _).heldUp) (.after ((State.keeps_control _ _ _ _ _ _).heldUp) (State.heldUp_setLnk _ _ _))

theorem State.heldUp_accepted (s : State) (l : Link) (k : Nat) : Same State.heldUp s (s.accepted l k) := by
  unfold State.accepted
  extract_lets +onlyGivenNames s1
  have hs1 : Same State.heldUp s s1 := .foldl (fun _ _ => State.heldUp_ackSome _ _ _) _ _
  split
  · rename_i h2 h3
    exact .after ((State.keeps_pmc _ _ _ _).heldUp) hs1
  · rename_i h4
    exact hs1

theorem State.heldUp_enterService (s : State) (n : Nat) : Same State.heldUp s (s.enterService n) := by
  unfold State.enterService
  split
  · exact .refl _
  · exact .after (.after (.after (State.heldUp_recomputeU _) (.after (State.heldUp_logJoin _ _) (State.heldUp_idUpdate _ _ _)))
      (.ite (fun _ => (State.keeps_setPk _ _ _).heldUp) fun _ => .after ((State.keeps_setPkState _ _ _).heldUp)
      ((State.keeps_setPk _ _ _).heldUp))) (.update (.refl _) rfl)

theorem State.heldUp_eraseAllBlocks (s : State) (n : Nat) (i : PackId) : Same State.heldUp s (s.eraseAllBlocks n i) := by
  unfold State.eraseAllBlocks
  exact .foldl (fun _ _ => .foldl (fun _ _ => .ite (fun _ => .refl _) fun _ => State.heldUp_eraseOne _ _ _ _ _) _ _) _ _

theorem State.heldUp_admitPack (s : State) (n : Nat) : Same State.heldUp s (s.admitPack n) := by
  unfold State.admitPack
  split
  · exact .refl _
  · exact .ite (fun _ => .refl _) fun _ => .ite (fun _ => (State.keeps_setPkState _ _ _).heldUp) fun _ => .ite
      (fun _ => .ite (fun _ => .refl _) fun _ => .after (State.heldUp_eraseAllBlocks _ _ _) (.after ((State.keeps_setPk _ _ _).heldUp)
      ((State.keeps_adopt _ _ _).heldUp))) fun _ => .after (State.heldUp_enterService _ _) ((State.keeps_adopt _ _ _).heldUp)

theorem State.heldUp_forgetErases (s : State) (n : Nat) : Same State.heldUp s (s.forgetErases n) := by
  unfold State.forgetErases
  exact .after (.foldl (fun _ _ => State.heldUp_freeIfErased _ _) _ _) (.update (.refl _) rfl)

theorem State.heldUp_useReserve (s : State) (lost : Nat) : Same State.heldUp s (s.useReserve lost) := by
  unfold State.useReserve
  split
  · exact .refl _
  · exact .after (State.heldUp_admitPack _ _) (.after ((State.keeps_sgenUp _).heldUp) (.update (.refl _) rfl))

theorem State.heldUp_packLost (s : State) (n : Nat) : Same State.heldUp s (s.packLost n) := by
  unfold State.packLost
  refine .ite (fun _ => .refl s) fun _ => ?_
  extract_lets +onlyGivenNames p was l s1 s2 s3 cut f s4 s5 s6
  have h1 : Same State.heldUp s s1 := (State.keeps_setPk _ _ _).heldUp
  have h2 : Same State.heldUp s1 s2 := .after (State.keeps_outstUpdate _ _).heldUp (.after (State.keeps_setPkState _ _ _).heldUp
    (.ite (fun _ => (State.keeps_markGone _ _).heldUp) fun _ => .refl _))
  have h3 : Same State.heldUp s2 s3 := .ite (fun _ => (State.keeps_put _ _ _ _).heldUp) fun _ => .refl _
  have hfw (x : State) : Same State.heldUp x { x with fw := { x.fw with upd := x.fw.upd.map cut } } := .update (.refl _) rfl
  clear_value s1 s2 s3
  have h4 : Same State.heldUp s3 s4 := hfw s3
  clear_value s4
  have h5 : Same State.heldUp s4 s5 := .after (State.heldUp_forgetErases _ _) (.after (State.heldUp_dropRebuild _ _)
    (State.heldUp_loseWhere _ _))
  have h6 : Same State.heldUp s5 s6 := .after (State.heldUp_logLost _ _) (State.heldUp_recomputeU _)
  clear_value s5 s6
  have hs := h1.trans (h2.trans (h3.trans (h4.trans (h5.trans h6))))
  exact .ite (fun _ => .after (State.heldUp_flow _) (.after (State.heldUp_useReserve _ _) hs)) fun _ => hs

theorem State.heldUp_errJudge (s : State) (qpn : Nat) : Same State.heldUp s (s.errJudge qpn) := by
  unfold State.errJudge
  split
  · exact .refl _
  · exact .ite (fun _ => .after (State.heldUp_flow _) ((State.keeps_endAssoc _ _).heldUp)) fun _ => .refl _

theorem State.heldUp_sideCmd (s : State) (use : PkUse) (opc : Nat) (side : Nat) : Same State.heldUp s (s.sideCmd use opc side) := by
  unfold State.sideCmd
  exact .foldl (fun _ _ => .after (State.heldUp_packIssue _ _ _ _) (.ite (fun _ => State.heldUp_wakeGroup _ _) fun _ => .refl _)) _ _

theorem State.heldUp_arbLost (s : State) (b : Bool) : Same State.heldUp s (s.arbLost b) := by
  unfold State.arbLost
  exact .after (.ite (fun _ => .after (State.heldUp_vendor _ _) (State.heldUp_recordCtl _ _ _)) fun _ => .refl _)
    ((State.keeps_putAll _ _ _).heldUp)

/-- The count of fenced peers, and the last of them. -/
def State.fences (s : State) : Nat × Nat × Nat := (s.hif.fenceCnt, s.hif.lastLoser, s.hif.lastCause)

theorem Keeps.fences {F : Foot} {s t : State} (h : Keeps F s t) (hp : F.parts.contains .hif = false := by decide +kernel) :
    Same State.fences s t := congrArg (fun w : Hif => (w.fenceCnt, w.lastLoser, w.lastCause)) (h.hif_eq hp)

theorem State.fences_setFunc (s : State) (f : Nat) (v : Func) : Same State.fences s (s.setFunc f v) := by
  unfold State.setFunc
  exact .update (.refl _) rfl

theorem State.fences_setCtl (s : State) (t : Tenant) (v : Func) : Same State.fences s (s.setCtl t v) := by
  unfold State.setCtl
  split
  · exact State.fences_setFunc _ _ _
  · exact (State.keeps_setAssoc _ _ _).fences

theorem State.fences_sendMsix (s : State) (f : Nat) (v : Nat) : Same State.fences s (s.sendMsix f v) := by
  unfold State.sendMsix
  exact .ite (fun _ => .ite (fun _ => .refl _) fun _ => .update (.refl _) rfl) fun _ => .ite
    (fun _ => (State.keeps_raise _ _).fences) fun _ => (State.keeps_send _ _).fences

theorem State.fences_coalSend (s : State) (f : Nat) (v : Nat) : Same State.fences s (s.coalSend f v) := by
  unfold State.coalSend
  exact .after (State.fences_sendMsix _ _ _) (.update (.refl _) rfl)

theorem State.fences_interrupt (s : State) (f : Nat) (cqid : Nat) (v : Nat) : Same State.fences s (s.interrupt f cqid v) := by
  unfold State.interrupt
  exact .ite (fun _ => State.fences_coalSend _ _ _) fun _ => .update (.refl _) rfl

theorem State.fences_putCqe (s : State) (f : Nat) (cqid : Nat) (q : Cq) (e : CqEntry) : Same State.fences s (s.putCqe f cqid q e) := by
  unfold State.putCqe
  exact .after (.after (.ite (fun _ => State.fences_interrupt _ _ _ _) fun _ => .refl _) ((State.keeps_emitQuiet _ _).fences))
    (State.fences_setFunc _ _ _)

theorem State.fences_postEntry (s : State) (f : Nat) (cqid : Nat) (e : CqEntry) : Same State.fences s (s.postEntry f cqid e) := by
  unfold State.postEntry
  split
  · exact .refl _
  · exact .after (.ite (fun _ => State.fences_setFunc _ _ _) fun _ => State.fences_putCqe _ _ _ _ _) ((State.keeps_digest _ _ _).fences)

theorem State.fences_postCqe (s : State) (f : Nat) (c : Ctx) (r : Cpl) : Same State.fences s (s.postCqe f c r) := by
  unfold State.postCqe
  split
  · exact .refl _
  · exact .after (State.fences_postEntry _ _ _ _) (State.fences_setFunc _ _ _)

theorem State.fences_errPut (s : State) (e : ErrEntry) : Same State.fences s (s.errPut e) := by
  unfold State.errPut
  exact .update (.refl _) rfl

theorem State.fences_logError (s : State) (c : Ctx) (r : Cpl) : Same State.fences s (s.logError c r) := by
  unfold State.logError
  exact .ite (fun _ => .refl _) fun _ => State.fences_errPut _ _

theorem State.fences_release (s : State) (stamp : BitVec 64) : Same State.fences s (s.release stamp) := by
  unfold State.release
  exact .update (.refl _) rfl

theorem State.fences_finish (s : State) (c : Ctx) (r : Cpl) : Same State.fences s (s.finish c r) := by
  unfold State.finish
  split
  · exact .refl _
  · extract_lets +onlyGivenNames s1
    have hs1 : Same State.fences s s1 := .after (State.fences_logError _ _ _) (.after ((State.keeps_tallyLat _ _).fences)
      (State.fences_release _ _))
    split
    · exact .after (State.fences_postCqe _ _ _ _) hs1
    · exact .after ((State.keeps_postCapsule _ _ _).fences) hs1

theorem State.fences_postTo (typ : Nat) (info : Nat) (s : State) (t : Tenant) : Same State.fences s (State.postTo typ info s t) := by
  unfold State.postTo
  extract_lets +onlyGivenNames c1
  split
  · exact .refl _
  · split
    · exact .after (State.fences_finish _ _ _) (State.fences_setCtl _ _ _)
    · exact .ite (fun _ => .refl _) fun _ => State.fences_setCtl _ _ _

theorem State.fences_event (s : State) (typ : Nat) (info : Nat) (bit : Option Nat) : Same State.fences s (s.event typ info bit) := by
  unfold State.event
  exact .foldl (fun _ _ => .ite (fun _ => State.fences_postTo _ _ _ _) fun _ => .refl _) _ _

theorem State.fences_nsChanged (s : State) (l : List Nat) : Same State.fences s (s.nsChanged l) := by
  unfold State.nsChanged
  exact .after (State.fences_event _ _ _ _) (.foldl (fun _ _ => State.fences_setCtl _ _ _) _ _)

theorem State.fences_vendor (s : State) (i : Nat) : Same State.fences s (s.vendor i) := by
  unfold State.vendor
  exact State.fences_event _ _ _ _

theorem State.fences_critSet (s : State) (n : Nat) : Same State.fences s (s.critSet n) := by
  unfold State.critSet
  exact .ite (fun _ => .refl _) fun _ => .after (State.fences_event _ _ _ _) (.update (.refl _) rfl)

theorem State.fences_critClear (s : State) (n : Nat) : Same State.fences s (s.critClear n) := by
  unfold State.critClear
  exact .update (.refl _) rfl

theorem State.fences_succeed (s : State) (c : Ctx) (dw0 : BitVec 32) : Same State.fences s (s.succeed c dw0) := by
  unfold State.succeed
  exact State.fences_finish _ _ _

theorem State.fences_setNs (s : State) (nsid : Nat) (n : Ns) : Same State.fences s (s.setNs nsid n) := by
  unfold State.setNs
  exact .update (.refl _) rfl

theorem State.fences_physCheck (s : State) : Same State.fences s s.physCheck := by
  unfold State.physCheck
  exact .ite (fun _ => .refl _) fun _ => .ite (fun _ => .ite (fun _ => .after ((State.keeps_healthNote _).fences)
    (.update (.refl _) rfl)) fun _ => .refl _) fun _ => .ite (fun _ => .after ((State.keeps_healthNote _).fences)
    (.after (State.fences_vendor _ _) (.update (.refl _) rfl))) fun _ => .refl _

theorem State.fences_roJudge (s : State) : Same State.fences s s.roJudge := by
  unfold State.roJudge
  exact .ite (fun _ => .refl _) fun _ => .after (.after ((State.keeps_healthSave _).fences)
    (.ite (fun _ => .after (State.fences_critSet _ _) (.after (State.fences_nsChanged _ _) (.update (.refl _) rfl))) fun _ => .ite
    (fun _ => .after (State.fences_critClear _ _) (.update (.refl _) rfl)) fun _ => .refl _))
    (.ite (fun _ => .update (.refl _) rfl) fun _ => .refl _)

theorem State.fences_resJudge (s : State) (k : Nat) : Same State.fences s (s.resJudge k) := by
  unfold State.resJudge
  exact .ite (fun _ => .refl _) fun _ => .after
    (.after (.ite (fun _ => .ite (fun _ => State.fences_critSet _ _) fun _ => State.fences_critClear _ _) fun _ => .refl _)
    (.ite (fun _ => .refl _) fun _ => State.fences_vendor _ _)) (.update (.refl _) rfl)

theorem State.fences_judge (s : State) : Same State.fences s s.judge := by
  unfold State.judge
  exact .after (State.fences_roJudge _) (.after (State.fences_physCheck _) (.foldl (fun _ _ => State.fences_resJudge _ _) _ _))

theorem State.fences_recomputeU (s : State) : Same State.fences s s.recomputeU := by
  unfold State.recomputeU
  exact .after (State.fences_judge _) (.ite (fun _ => .refl _) fun _ => (State.keeps_put _ _ _ _).fences)

theorem State.fences_addPoisoned (s : State) (nsid : Nat) (slba : Nat) (nblk : Nat) (cause : Nat) (left : List Nat) : Same State.fences s
    (s.addPoisoned nsid slba nblk cause left) := by
  unfold State.addPoisoned
  exact .update (.refl _) rfl

theorem State.fences_recordPoisoned (s : State) (blocks : List (Nat × Nat)) (cause : Nat) : Same State.fences s
    (s.recordPoisoned blocks cause) := by
  unfold State.recordPoisoned
  exact .after (.ite (fun _ => .refl _) fun _ => State.fences_vendor _ _)
    (.foldl (fun _ _ => .foldl (fun _ _ => State.fences_addPoisoned _ _ _ _ _ _) _ _) _ _)

theorem State.fences_poisonWhere (s : State) (hit : Nat → Nat → Bool) (cause : Nat) : Same State.fences s (s.poisonWhere hit cause) := by
  unfold State.poisonWhere
  exact .after (.after (State.fences_recordPoisoned _ _ _) (.foldl (fun _ _ => (State.keeps_poisonPatch _ _ _ _).fences) _ _))
    (.foldl (fun _ _ => (State.keeps_poisonEntry _ _ _).fences) _ _)

theorem State.fences_poisonLost (s : State) (cbid : Nat) : Same State.fences s (s.poisonLost cbid) := by
  unfold State.poisonLost
  exact .ite (fun _ => .refl _) fun _ => State.fences_poisonWhere _ _ _

theorem State.fences_loseMember (s : State) (cbid : Nat) (m : Nat) : Same State.fences s (s.loseMember cbid m) := by
  unfold State.loseMember
  extract_lets +onlyGivenNames c1
  split
  · exact .refl _
  · exact .ite (fun _ => .refl _) fun _ => .after (.after (.after (.after (State.fences_poisonLost _ _) ((State.keeps_setCb _ _ _).fences))
      (.after ((State.keeps_copyAgain _ _).fences) (.update (.refl _) rfl))) (.ite (fun _ => .after ((State.keeps_closeBlock _ _ _).fences)
      ((State.keeps_dropFlights _ _).fences)) fun _ => .refl _)) (.after ((State.keeps_logSys _ _).fences)
      ((State.keeps_setCb _ _ _).fences))

theorem State.fences_loseWhere (s : State) (p : Member → Bool) : Same State.fences s (s.loseWhere p) := by
  unfold State.loseWhere
  exact .foldl (fun _ _ => State.fences_loseMember _ _ _) _ _

theorem State.fences_flushOne (s : State) (c : Ctx) : Same State.fences s (s.flushOne c) := by
  unfold State.flushOne
  split
  · exact .ite (fun _ => State.fences_succeed _ _ _) fun _ => .refl _
  · exact .refl _

theorem State.fences_detachOne (s : State) (c : Ctx) : Same State.fences s (s.detachOne c) := by
  unfold State.detachOne
  split
  · extract_lets +onlyGivenNames busy1
    split
    · exact .refl _
    · split
      · exact State.fences_succeed _ _ _
      · exact .after (State.fences_succeed _ _ _) (State.fences_setNs _ _ _)
  · exact .refl _

theorem State.fences_rotateOne (s : State) (nsid : Nat) : Same State.fences s (s.rotateOne nsid) := by
  unfold State.rotateOne
  split
  · exact .refl _
  · split
    · exact .refl _
    · exact .ite (fun _ => .refl _) fun _ => .after (.update (.refl _) rfl) (State.fences_setNs _ _ _)

theorem State.fences_flow (s : State) : Same State.fences s s.flow := by
  unfold State.flow
  exact .after (.after (.after (.after (.after (.after ((State.keeps_dormantGo _).fences) ((State.keeps_releaseHalf _).fences))
    (.foldl (fun _ _ => (State.keeps_shutdownOne _ _).fences) _ _)) (.foldl (fun _ _ => State.fences_rotateOne _ _) _ _))
    (.foldl (fun _ _ => State.fences_detachOne _ _) _ _)) (.foldl (fun _ _ => State.fences_flushOne _ _) _ _))
    (.after ((State.keeps_journalDue _).fences) ((State.keeps_logGo _).fences))

theorem State.fences_dropTenant (s : State) (t : Tenant) : Same State.fences s (s.dropTenant t) := by
  unfold State.dropTenant
  exact .foldl (fun _ _ => .after (State.fences_release _ _) ((State.keeps_giveBack _ _).fences)) _ _

theorem State.fences_endAssoc (s : State) (a : Nat) : Same State.fences s (s.endAssoc a) := by
  unfold State.endAssoc
  exact .after (.update (.refl _) rfl) (State.fences_dropTenant _ _)

theorem State.fences_enterService (s : State) (n : Nat) : Same State.fences s (s.enterService n) := by
  unfold State.enterService
  split
  · exact .refl _
  · exact .after (.after (.after (State.fences_recomputeU _) (.after ((State.keeps_logJoin _ _).fences)
      ((State.keeps_idUpdate _ _ _).fences))) (.ite (fun _ => (State.keeps_setPk _ _ _).fences) fun _ => .after
      ((State.keeps_setPkState _ _ _).fences) ((State.keeps_setPk _ _ _).fences))) (.update (.refl _) rfl)

theorem State.fences_admitPack (s : State) (n : Nat) : Same State.fences s (s.admitPack n) := by
  unfold State.admitPack
  split
  · exact .refl _
  · exact .ite (fun _ => .refl _) fun _ => .ite (fun _ => (State.keeps_setPkState _ _ _).fences) fun _ => .ite
      (fun _ => .ite (fun _ => .refl _) fun _ => .after ((State.keeps_eraseAllBlocks _ _ _).fences)
      (.after ((State.keeps_setPk _ _ _).fences) ((State.keeps_adopt _ _ _).fences))) fun _ => .after (State.fences_enterService _ _)
      ((State.keeps_adopt _ _ _).fences)

theorem State.fences_useReserve (s : State) (lost : Nat) : Same State.fences s (s.useReserve lost) := by
  unfold State.useReserve
  split
  · exact .refl _
  · exact .after (State.fences_admitPack _ _) (.after ((State.keeps_sgenUp _).fences) (.update (.refl _) rfl))

theorem State.fences_packLost (s : State) (n : Nat) : Same State.fences s (s.packLost n) := by
  unfold State.packLost
  refine .ite (fun _ => .refl s) fun _ => ?_
  extract_lets +onlyGivenNames p was l s1 s2 s3 cut f s4 s5 s6
  have h1 : Same State.fences s s1 := (State.keeps_setPk _ _ _).fences
  have h2 : Same State.fences s1 s2 := .after (State.keeps_outstUpdate _ _).fences (.after (State.keeps_setPkState _ _ _).fences
    (.ite (fun _ => (State.keeps_markGone _ _).fences) fun _ => .refl _))
  have h3 : Same State.fences s2 s3 := .ite (fun _ => (State.keeps_put _ _ _ _).fences) fun _ => .refl _
  have hfw (x : State) : Same State.fences x { x with fw := { x.fw with upd := x.fw.upd.map cut } } := .update (.refl _) rfl
  clear_value s1 s2 s3
  have h4 : Same State.fences s3 s4 := hfw s3
  clear_value s4
  have h5 : Same State.fences s4 s5 := .after (State.keeps_forgetErases _ _).fences (.after (State.keeps_dropRebuild _ _).fences
    (State.fences_loseWhere _ _))
  have h6 : Same State.fences s5 s6 := .after (State.keeps_logLost _ _).fences (State.fences_recomputeU _)
  clear_value s5 s6
  have hs := h1.trans (h2.trans (h3.trans (h4.trans (h5.trans h6))))
  exact .ite (fun _ => .after (State.fences_flow _) (.after (State.fences_useReserve _ _) hs)) fun _ => hs

theorem State.fences_errJudge (s : State) (qpn : Nat) : Same State.fences s (s.errJudge qpn) := by
  unfold State.errJudge
  split
  · exact .refl _
  · exact .ite (fun _ => .after (State.fences_flow _) (State.fences_endAssoc _ _)) fun _ => .refl _

theorem State.fences_arbLost (s : State) (b : Bool) : Same State.fences s (s.arbLost b) := by
  unfold State.arbLost
  exact .after (.ite (fun _ => .after (State.fences_vendor _ _) ((State.keeps_recordCtl _ _ _).fences)) fun _ => .refl _)
    ((State.keeps_putAll _ _ _).fences)

end Sys2Proof.Machine
end

section
-- One proof at a time: as many threads as there are lemmas here do not fit beside the model.
set_option Elab.async false
namespace Sys2Proof.Machine

section
variable {s t : State}

/-! ### Registers of every function -/

theorem State.get_putAll_apart (s : State) {f g : Fld} (j x : Nat) (h : f.apart g = true := by decide) :
    (s.putAll f x).get g j = s.get g j := by
  unfold State.putAll
  induction List.range 66 generalizing s with
  | nil => rfl
  | cons a l ih => exact (ih (s.put f a x)).trans (s.get_put_apart a j x h)

theorem State.get_foldl_put (f : Fld) (x i : Nat) (h : f.lo ≤ f.hi) (k : f.hi < 64) (l : List Nat) (s : State)
    (hs : i ∉ l → s.get f i = x % 2 ^ (f.hi + 1 - f.lo)) :
    (l.foldl (fun s i => s.put f i x) s).get f i = x % 2 ^ (f.hi + 1 - f.lo) := by
  induction l generalizing s with
  | nil => exact hs List.not_mem_nil
  | cons a l ih =>
    refine ih (s.put f a x) fun hl => ?_
    by_cases ha : i = a
    · subst ha
      exact s.get_put_same f i x h k
    · rw [State.get_put_inst s x ha]
      exact hs fun hm => (List.mem_cons.1 hm).elim ha hl

theorem State.get_putAll (s : State) (f : Fld) (x i : Nat) (hi : i < 66) (h : f.lo ≤ f.hi := by decide) (k : f.hi < 64 := by decide) :
    (s.putAll f x).get f i = x % 2 ^ (f.hi + 1 - f.lo) :=
  State.get_foldl_put f x i h k _ s fun hn => absurd (List.mem_range.2 hi) hn

/-! ### The arbiter link's state -/

/-- The state with another state of the arbiter link. -/
def State.withArb (s : State) (a : Arb) : State := { s with arb := a }

theorem State.keeps_withArb (s : State) (a : Arb) : Keeps ⟨[], [.arb]⟩ s (s.withArb a) := .update (.refl s) rfl

theorem State.arb_withArb (s : State) (a : Arb) : (s.withArb a).arb = a := rfl

theorem State.core_withArb (s : State) (a : Arb) : (s.withArb a).arbCore = { a with mseqTx := 0, rj := { a.rj with dirty := [] } } := rfl

theorem State.mseqRx_of_core {a : Arb} (h : t.arbCore = a) : t.arb.mseqRx = a.mseqRx := by subst h; rfl
theorem State.good_of_core {a : Arb} (h : t.arbCore = a) : t.arb.good = a.good := by subst h; rfl
theorem State.query_of_core {a : Arb} (h : t.arbCore = a) : t.arb.query = a.query := by subst h; rfl
theorem State.promote_of_core {a : Arb} (h : t.arbCore = a) : t.arb.promote = a.promote := by subst h; rfl
theorem State.waitRejoin_of_core {a : Arb} (h : t.arbCore = a) : t.arb.waitRejoin = a.waitRejoin := by subst h; rfl
theorem State.active_of_core {a : Arb} (h : t.arbCore = a) : t.arb.rj.active = a.rj.active := by subst h; rfl
theorem State.joiner_of_core {a : Arb} (h : t.arbCore = a) : t.arb.rj.joiner = a.rj.joiner := by subst h; rfl
theorem State.live_of_core {a : Arb} (h : t.arbCore = a) : t.arb.rj.live = a.rj.live := by subst h; rfl

/-! ### Messages of the arbiter (R355, R371) -/

/-- The messages missed before one that arrives. -/
def State.missedBy (s : State) (mseq : BitVec 32) : Nat :=
  match s.arb.mseqRx with
  | some x => mseq.toNat - x.toNat - 1
  | none => 0

/-- A message of the arbiter is taken, and source 4 raised. -/
def State.heard (s : State) (mseq : BitVec 32) : State :=
  let u := s.bump F.TWN_LINK.AUTHFAIL 0 (s.missedBy mseq)
  (u.withArb { u.arb with mseqRx := some mseq }).raise 4

theorem State.arbIn_eq (s : State) (mseq : BitVec 32) : s.arbIn mseq =
    if !(s.heard mseq).on F.HIF_TWNSTAT.ARB_LOST then s.heard mseq
    else if (s.heard mseq).arb.good + 1 < 3 then (s.heard mseq).withArb { (s.heard mseq).arb with good := (s.heard mseq).arb.good + 1 }
    else ((s.heard mseq).withArb { (s.heard mseq).arb with good := 0 }).arbLost false := rfl

/-- What `heard` may change. -/
abbrev Foot.heard : Foot := ⟨[.CIC_SRC_STAT, .TWN_LINK], [.arb, .cic, .evt]⟩

theorem State.keeps_heard (s : State) (mseq : BitVec 32) : Keeps .heard s (s.heard mseq) :=
  .after (State.keeps_raise _ _).up (.after (State.keeps_withArb _ _).up (State.keeps_bump _ _ _ _).up)

theorem State.core_heard (s : State) (mseq : BitVec 32) : (s.heard mseq).arbCore = { s.arbCore with mseqRx := some mseq } := by
  have hb : (s.bump F.TWN_LINK.AUTHFAIL 0 (s.missedBy mseq)).arbCore = s.arbCore := (State.keeps_bump _ _ _ _).arbCore
  unfold State.heard
  generalize s.bump F.TWN_LINK.AUTHFAIL 0 (s.missedBy mseq) = u at *
  have h : ((u.withArb { u.arb with mseqRx := some mseq }).raise 4).arbCore = (u.withArb { u.arb with mseqRx := some mseq }).arbCore :=
    (State.keeps_raise _ _).arbCore
  exact h.trans ((u.core_withArb _).trans (congrArg (fun a : Arb => { a with mseqRx := some mseq }) hb))

theorem State.arbLost_ends (s : State) (b : Bool) : (s.arbLost b).arbCore = s.arbCore ∧ (s.arbLost b).twState = s.twState ∧
    (∀ i, i < 66 → (s.arbLost b).get F.HIF_TWNSTAT.ARB_LOST i = b.toNat) := by
  have hput : Keeps _ s (s.putAll F.HIF_TWNSTAT.ARB_LOST b.toNat) := State.keeps_putAll _ _ _
  have hon (i : Nat) (hi : i < 66) : (s.putAll F.HIF_TWNSTAT.ARB_LOST b.toNat).get F.HIF_TWNSTAT.ARB_LOST i = b.toNat := by
    rw [State.get_putAll s _ _ i hi]
    cases b with
    | true => rfl
    | false => rfl
  have htw : (s.putAll F.HIF_TWNSTAT.ARB_LOST b.toNat).twState = s.twState := s.get_putAll_apart 0 _
  have hcore : (s.putAll F.HIF_TWNSTAT.ARB_LOST b.toNat).arbCore = s.arbCore := hput.arbCore
  unfold State.arbLost
  extract_lets u
  have hrec (n : Nat) : (((u.recordCtl 4 n).vendor 2)).arbCore = u.arbCore :=
    Same.after (π := State.arbCore) (State.keeps_vendor _ _).arbCore (State.arbCore_recordCtl u 4 n)
  have hreg (n i : Nat) (f : Fld) (hf : f.reg = .HIF_TWNSTAT) : ((u.recordCtl 4 n).vendor 2).get f i = u.get f i :=
    ((State.keeps_vendor (u.recordCtl 4 n) 2).get f i (by rw [hf]; decide +kernel)).trans
      ((u.keeps_recordCtl 4 n).get f i (by rw [hf]; decide +kernel))
  split
  · exact ⟨(hrec _).trans hcore, (hreg _ 0 F.HIF_TWNSTAT.STATE rfl).trans htw, fun i hi => (hreg _ i F.HIF_TWNSTAT.ARB_LOST rfl).trans (hon i hi)⟩
  · exact ⟨hcore, htw, hon⟩

theorem State.core_setGood {a : Arb} (h : s.arbCore = a) (g : Nat) : (s.withArb { s.arb with good := g }).arbCore = { a with good := g } := by
  subst h
  rfl

theorem State.core_good (a : Arb) (h : t.arbCore = a) : t.arbCore = { a with good := a.good } := h

/-- A valid message of the arbiter changes nothing of the arbiter link's state but its sequence number and the count of R371. -/
theorem State.arbIn_ends (s : State) (q : BitVec 32) : (∃ g, (s.arbIn q).arbCore = { s.arbCore with mseqRx := some q, good := g }) ∧
    (s.arbIn q).twState = s.twState ∧ Same State.heldUp s (s.arbIn q) ∧ Same State.fences s (s.arbIn q) := by
  have hk := s.keeps_heard q
  have hc := s.core_heard q
  have htw : (s.heard q).twState = s.twState := hk.get _ _
  have hu : Same State.heldUp s (s.heard q) := hk.heldUp
  have hf : Same State.fences s (s.heard q) := hk.fences
  rw [s.arbIn_eq q]
  generalize s.heard q = v at *
  split
  · exact ⟨⟨_, State.core_good _ hc⟩, htw, hu, hf⟩
  · have hset (g : Nat) : (v.withArb { v.arb with good := g }).arbCore = { s.arbCore with mseqRx := some q, good := g } :=
      State.core_setGood hc g
    split
    · have hw := v.keeps_withArb { v.arb with good := v.arb.good + 1 }
      exact ⟨⟨_, hset _⟩, (hw.get _ _).trans htw, .after hw.heldUp hu, .after hw.fences hf⟩
    · have hw := v.keeps_withArb { v.arb with good := 0 }
      obtain ⟨h1, h2, -⟩ := (v.withArb { v.arb with good := 0 }).arbLost_ends false
      exact ⟨⟨0, h1.trans (hset 0)⟩, h2.trans ((hw.get _ _).trans htw), .after (State.heldUp_arbLost _ _) (.after hw.heldUp hu),
        .after (State.fences_arbLost _ _) (.after hw.fences hf)⟩

/-! ### The end of a freeze and of a rejoin (R360, R384) -/

theorem State.frozen_of_held {a : Bool × BitVec 64 × Bool} (h : t.heldUp = a) : t.twn.frozen = a.1 := by subst h; rfl
theorem State.mseqRx_of_held {a : Bool × BitVec 64 × Bool} (h : t.heldUp = a) : t.twn.mseqRx = a.2.1 := by subst h; rfl
theorem State.lagging_of_held {a : Bool × BitVec 64 × Bool} (h : t.heldUp = a) : t.twn.lagging = a.2.2 := by subst h; rfl

/-- The freeze is over, and what was held not yet released. -/
def State.unfrozen (s : State) : State := { s with twn := { s.twn with frozen := false }, arb := { s.arb with query := none } }

theorem State.unfrozen_ends (s : State) : s.unfrozen.twn.frozen = false ∧ s.unfrozen.arb = { s.arb with query := none } := ⟨rfl, rfl⟩

theorem State.thaw_ends (s : State) : s.thaw.twn.frozen = false ∧ s.thaw.arb = { s.arb with query := none } := by
  have h : s.thaw = s.unfrozen.releaseHeld := rfl
  obtain ⟨h1, h2⟩ := s.unfrozen_ends
  rw [h]
  generalize s.unfrozen = u at *
  exact ⟨(State.frozen_of_held (u.heldUp_releaseHeld)).trans h1, (u.keeps_releaseHeld.arb_eq).trans h2⟩

/-- No rejoin goes on. -/
def State.rjOff (s : State) : State := { s with arb := { s.arb with rj := {} } }

theorem State.rjOff_ends (s : State) : s.rjOff.arb = { s.arb with rj := {} } ∧ Same State.heldUp s s.rjOff ∧ s.rjOff.regs = s.regs := ⟨rfl, rfl, rfl⟩

/-- The registers of a controller that is no joiner any more. -/
def State.leftPair (s : State) : State := ((s.put F.TWN_CTL.MODE 0 0).put F.TWN_STAT.ROLE 0 0).putAll F.HIF_TWNSTAT.ROLE 0

theorem State.keeps_leftPair (s : State) : Keeps ⟨[.TWN_CTL, .TWN_STAT, .HIF_TWNSTAT], []⟩ s s.leftPair := by
  unfold State.leftPair
  exact .after (State.keeps_putAll _ _ _).up (.after (State.keeps_put _ _ _ _).up (State.keeps_put _ _ _ _).up)

/-- An abandoned rejoin leaves the freeze and what the arbiter has said. -/
theorem State.rejoinAbort_ends (s : State) (reason : Nat) : (s.rejoinAbort reason).arb.rj.active = false ∧
    (s.rejoinAbort reason).arb.query = s.arb.query ∧ (s.rejoinAbort reason).arb.mseqRx = s.arb.mseqRx ∧
    Same State.heldUp s (s.rejoinAbort reason) := by
  cases h : s.arb.rj.active with
  | false =>
    have e : s.rejoinAbort reason = s := if_pos (by rw [h]; rfl)
    rw [e]
    exact ⟨h, rfl, rfl, .refl s⟩
  | true =>
    unfold State.rejoinAbort
    rw [if_neg (by rw [h]; decide)]
    extract_lets u rj ar v w
    have hu : u.arb = s.arb := (State.keeps_twinSend _ _ _ _).arb_eq
    have hh : Same State.heldUp s u := State.heldUp_twinSend _ _ _ _
    clear_value rj
    have hv : v.arb = { s.arb with rj := {} } ∧ Same State.heldUp s v := by
      obtain ⟨h1, h2, -⟩ := u.rjOff_ends
      rw [hu] at h1
      exact ⟨h1, .after h2 hh⟩
    have hw : w.arb = v.arb ∧ Same State.heldUp v w := ⟨v.keeps_leftPair.arb_eq, v.keeps_leftPair.heldUp⟩
    clear_value w
    clear_value v
    obtain ⟨ha, hr⟩ := hv
    split
    · have hn := (v.keeps_notice 3 5 0).arb_eq
      rw [hn, ha]
      exact ⟨rfl, rfl, rfl, .after (State.heldUp_notice _ _ _ _) hr⟩
    · have hp := (w.withArb { w.arb with outcast := w.arb.outcast || rj.cut.isSome }).keeps_putAll F.HIF_TWNSTAT.STATE rj.was
      have e : ((w.withArb { w.arb with outcast := w.arb.outcast || rj.cut.isSome }).putAll F.HIF_TWNSTAT.STATE rj.was).arb =
          { s.arb with rj := {}, outcast := w.arb.outcast || rj.cut.isSome } := by
        rw [hp.arb_eq, State.arb_withArb, hw.1, ha]
      have hs : Same State.heldUp s ((w.withArb { w.arb with outcast := w.arb.outcast || rj.cut.isSome }).putAll F.HIF_TWNSTAT.STATE rj.was) :=
        .after hp.heldUp (.after (w.keeps_withArb _).heldUp (.after hw.2 hr))
      show ((w.withArb _).putAll _ _).arb.rj.active = false ∧ ((w.withArb _).putAll _ _).arb.query = _ ∧ ((w.withArb _).putAll _ _).arb.mseqRx = _ ∧
        Same State.heldUp s ((w.withArb _).putAll _ _)
      rw [e]
      exact ⟨rfl, rfl, rfl, hs⟩

/-! ### A twin that stands alone (R198, R368, R370) -/

theorem State.fences_eq {n k c : Nat} (h : t.fences = (n, k, c)) : t.hif.fenceCnt = n ∧ t.hif.lastLoser = k ∧ t.hif.lastCause = c := by
  cases h
  exact ⟨rfl, rfl, rfl⟩

/-- The registers of a twin that stands alone. -/
def State.aloneRegs (s : State) : State :=
  ((((s.put F.TWN_CTL.MODE 0 3).put F.TWN_STAT.ROLE 0 0).put F.TWN_STAT.PAIRED 0 0).putAll F.HIF_TWNSTAT.ROLE 0).putAll F.HIF_TWNSTAT.STATE 3

theorem State.keeps_aloneRegs (s : State) : Keeps ⟨[.TWN_CTL, .TWN_STAT, .HIF_TWNSTAT], []⟩ s s.aloneRegs := by
  unfold State.aloneRegs
  exact .after (State.keeps_putAll _ _ _).up (.after (State.keeps_putAll _ _ _).up (.after (State.keeps_put _ _ _ _).up
    (.after (State.keeps_put _ _ _ _).up (State.keeps_put _ _ _ _).up)))

/-- A twin that stands alone by its registers. -/
def State.Alone (s : State) : Prop := s.get F.TWN_CTL.MODE = 3 ∧ s.get F.TWN_STAT.PAIRED = 0 ∧ s.twState = 3

theorem State.alone_aloneRegs (s : State) : s.aloneRegs.Alone := by
  unfold State.aloneRegs
  refine ⟨?_, ?_, ?_⟩
  · rw [State.get_putAll_apart _ (f := F.HIF_TWNSTAT.STATE) (g := F.TWN_CTL.MODE), State.get_putAll_apart _ (f := F.HIF_TWNSTAT.ROLE) (g := F.TWN_CTL.MODE),
      State.get_put_apart _ (f := F.TWN_STAT.PAIRED) (g := F.TWN_CTL.MODE), State.get_put_apart _ (f := F.TWN_STAT.ROLE) (g := F.TWN_CTL.MODE),
      State.get_put_same _ F.TWN_CTL.MODE]
    rfl
  · rw [State.get_putAll_apart _ (f := F.HIF_TWNSTAT.STATE) (g := F.TWN_STAT.PAIRED), State.get_putAll_apart _ (f := F.HIF_TWNSTAT.ROLE) (g := F.TWN_STAT.PAIRED),
      State.get_put_same _ F.TWN_STAT.PAIRED]
    rfl
  · rw [State.twState, State.get_putAll _ _ _ _ (by decide)]
    rfl

theorem State.Alone.keep {F : Foot} (h : s.Alone) (k : Keeps F s t) (h1 : F.regs.contains .TWN_CTL = false := by decide +kernel)
    (h2 : F.regs.contains .TWN_STAT = false := by decide +kernel) (h3 : F.regs.contains .HIF_TWNSTAT = false := by decide +kernel) : t.Alone :=
  ⟨(k.get _ _ h1).trans h.1, (k.get _ _ h2).trans h.2.1, (k.get _ _ h3).trans h.2.2⟩

/-- No freeze and no promotion stands any more. -/
def State.loosed (s : State) : State :=
  { s with twn := { s.twn with frozen := false }, arb := { s.arb with promote := none, query := none, swap := none } }

theorem State.loosed_ends (s : State) : s.loosed.twn.frozen = false ∧ Keeps ⟨[], [.arb, .twn]⟩ s s.loosed :=
  ⟨rfl, .update (.refl s) rfl⟩

/-- The packs whose reachability hung on the peer are lost. -/
def State.sidesJudged (s : State) (trail : Bool) : State :=
  ((List.range 32).filter fun n => if trail then (s.pk n).peerLost else (s.pk n).sideLost).foldl State.packLost s

/-- Every other pack is up on both sides. -/
def State.sidesUp (s : State) : State := { s with packs := s.packs.map fun p => (p.1, { p.2 with sideLost := false, peerLost := false }) }

theorem State.keeps_sidesUp (s : State) : Keeps ⟨[], [.packs]⟩ s s.sidesUp := .update (.refl s) rfl

/-- Every queue pair is judged by what it stood on. -/
def State.qpsJudged (s : State) : State := (s.fab.qps.map Prod.fst).foldl State.errJudge s

/-- The fencing of the peer is counted and noted. -/
def State.fenceNoted (s : State) (cause : Nat) : State := { s with hif := { s.hif with
  fenceCnt := s.hif.fenceCnt + 1
  lastLoser := s.peerId
  lastCause := cause
  lastEpoch := s.epoch
  lastDtime := s.dtime } }

theorem State.fenceNoted_ends (s : State) (cause : Nat) : (s.fenceNoted cause).fences = (s.hif.fenceCnt + 1, s.peerId, cause) ∧
    Keeps ⟨[], [.hif]⟩ s (s.fenceNoted cause) := ⟨rfl, .update (.refl s) rfl⟩

/-- The count that every function shows is raised. -/
def State.fencesShown (s : State) : State := (List.range 66).foldl (fun s f => s.bump F.HIF_TWNSTAT.FENCE_CNT f) s

theorem State.keeps_fencesShown (s : State) : Keeps ⟨[.HIF_TWNSTAT], []⟩ s s.fencesShown := by
  unfold State.fencesShown
  exact .foldl (fun _ _ => (State.keeps_bump _ _ _ _).up) _ _

theorem State.Alone.fencesShown (h : s.Alone) : s.fencesShown.Alone := by
  have hk := s.keeps_fencesShown
  refine ⟨(hk.get _ _).trans h.1, (hk.get _ _).trans h.2.1, Eq.trans ?_ h.2.2⟩
  unfold State.fencesShown
  clear hk h
  induction List.range 66 generalizing s with
  | nil => rfl
  | cons a l ih => exact ih.trans (State.get_put_apart s a 0 _)

theorem State.keeps_sidesJudged (s : State) (trail : Bool) : Keeps .packLost s (s.sidesJudged trail) := by
  unfold State.sidesJudged
  exact .foldl (fun _ _ => State.keeps_packLost _ _) _ _

theorem State.survive_ends (s : State) (trail : Bool) (cause : Nat) : ∃ u : State, s.survive trail cause = u.flow ∧ u.Alone ∧
    u.twn.frozen = false ∧ u.fences = (s.hif.fenceCnt + 1, s.peerId, cause) := by
  unfold State.survive
  extract_lets both s1 s2 tw ar s3 gone s4 s5 s6 n hf s7
  have h2 : s2.Alone := s.alone_aloneRegs
  have k2 : Keeps _ s s2 := s.keeps_aloneRegs
  have h3 : s3.twn.frozen = false ∧ Keeps _ s2 s3 := s2.loosed_ends
  clear_value s2
  obtain ⟨h3, k3⟩ := h3
  have k4 : Keeps .packLost s3 s4 := .foldl (fun _ _ => State.keeps_packLost _ _) _ _
  have u4 : Same State.heldUp s3 s4 := .foldl (fun _ _ => State.heldUp_packLost _ _) _ _
  have f4 : Same State.fences s3 s4 := .foldl (fun _ _ => State.fences_packLost _ _) _ _
  clear_value s3 s4
  have k5 : Keeps _ s4 s5 := .andThen s4.keeps_sidesUp (State.keeps_releaseHeld _)
  have u5 : Same State.heldUp s4 s5 := .after (State.heldUp_releaseHeld _) s4.keeps_sidesUp.heldUp
  have f5 : Same State.fences s4 s5 := k5.fences
  clear_value s5
  have k6 : Keeps _ s5 s6 := .foldl (fun _ _ => State.keeps_errJudge _ _) _ _
  have u6 : Same State.heldUp s5 s6 := .foldl (fun _ _ => State.heldUp_errJudge _ _) _ _
  have f6 : Same State.fences s5 s6 := .foldl (fun _ _ => State.fences_errJudge _ _) _ _
  clear_value s6
  have h6 : s6.Alone := (((h2.keep k3).keep k4).keep k5).keep k6
  have hp : s6.straps = s.straps := k6.straps_eq.trans (k5.straps_eq.trans (k4.straps_eq.trans (k3.straps_eq.trans k2.straps_eq)))
  have hf6 : s6.fences = s.fences := k2.fences.trans (k3.fences.trans (f4.trans (f5.trans f6)))
  have hu6 : s6.heldUp = s3.heldUp := u4.trans (u5.trans u6)
  clear k3 k4 k5 k6 u4 u5 u6 f4 f5 f6 k2
  obtain ⟨f7, k7⟩ : s7.fences = (s6.hif.fenceCnt + 1, s6.peerId, cause) ∧ Keeps ⟨[], [.hif]⟩ s6 s7 := s6.fenceNoted_ends cause
  clear_value s7
  have h8 : s7.fencesShown.Alone := (h6.keep k7).fencesShown
  have k8 := s7.keeps_fencesShown
  refine ⟨s7.fencesShown.vendor 1, rfl, h8.keep (State.keeps_vendor _ _), ?_, ?_⟩
  · have hu : (s7.fencesShown.vendor 1).heldUp = s3.heldUp :=
      Eq.trans (k7.heldUp.trans (k8.heldUp.trans (State.heldUp_vendor s7.fencesShown 1))) hu6
    exact (State.frozen_of_held hu).trans h3
  · have hf : (s7.fencesShown.vendor 1).fences = s7.fences := k8.fences.trans (State.fences_vendor s7.fencesShown 1)
    have hc : s6.hif.fenceCnt = s.hif.fenceCnt := (State.fences_eq hf6).1
    rw [hf, f7, hc, State.peerId, hp, State.peerId]

/-! ### Fencing of the peer (R198, R368, R370) -/

theorem State.fencePeer_lead (s : State) (cause : Nat) (h : s.isTrail = false) : ∃ u : State, s.fencePeer cause = u.flow ∧ u.Alone ∧
    u.twn.frozen = false ∧ u.fences = (s.hif.fenceCnt + 1, s.peerId, cause) := by
  have k := State.keeps_sideCmd s (.fence s.peerId) 0x10 s.peerId
  have ht : (s.sideCmd (.fence s.peerId) 0x10 s.peerId).isTrail = false := (State.isTrail_of k k.rejoins).trans h
  have e : s.fencePeer cause = (s.sideCmd (.fence s.peerId) 0x10 s.peerId).survive false cause := if_pos (by rw [ht]; rfl)
  have hp : (s.sideCmd (.fence s.peerId) 0x10 s.peerId).peerId = s.peerId := by rw [State.peerId, k.straps_eq, State.peerId]
  rw [e]
  obtain ⟨u, h1, h2, h3, h4⟩ := (s.sideCmd (.fence s.peerId) 0x10 s.peerId).survive_ends false cause
  rw [k.hif_eq, hp] at h4
  exact ⟨u, h1, h2, h3, h4⟩

theorem State.fencePeer_trail (s : State) (cause : Nat) (h : s.isTrail = true) : ∃ u : State, s.fencePeer cause = u.promoteGo ∧
    u.arb.promote = some cause ∧ u.twn.rxEnts = [] := by
  have k := State.keeps_sideCmd s (.fence s.peerId) 0x10 s.peerId
  have ht : (s.sideCmd (.fence s.peerId) 0x10 s.peerId).isTrail = true := (State.isTrail_of k k.rejoins).trans h
  unfold State.fencePeer
  extract_lets v
  rw [if_neg (by rw [ht]; decide)]
  exact ⟨_, rfl, rfl, rfl⟩

end

end Sys2Proof.Machine
end

section
-- One proof at a time: as many threads as there are lemmas here do not fit beside the model.
set_option Elab.async false
namespace Sys2Proof.Machine

section
variable {s t : State}

theorem State.rejoins_of_core {a : Arb} (h : t.arbCore = a) : t.rejoins = (a.rj.active, a.rj.joiner) := by
  subst h
  rfl

/-! ### Verdicts (R360, R373) -/

/-- The answer to those who asked for a fence, when its verdict arrives. -/
def State.ruled (s : State) (q : BitVec 32) (l : BitVec 8) : State :=
  (s.arbIn q).answerWaits 0x0304 5 0 0 0 (leBytes 1 l.toNat ++ leBytes 3 0)

/-- What stays as it was when a verdict arrives. -/
theorem State.ruled_ends (s : State) (q : BitVec 32) (l : BitVec 8) : (s.ruled q l).staged = s.staged ∧ (s.ruled q l).peerId = s.peerId ∧
    (s.ruled q l).isTrail = s.isTrail ∧ (s.ruled q l).arb.promote = s.arb.promote ∧ (s.ruled q l).arb.mseqRx = some q ∧
    (s.ruled q l).hif.fenceCnt = s.hif.fenceCnt := by
  obtain ⟨⟨g, hc⟩, -, -, hf⟩ := s.arbIn_ends q
  have k1 := s.keeps_arbIn q
  have k2 : Keeps _ (s.arbIn q) (s.ruled q l) := (s.arbIn q).keeps_answerWaits 0x0304 5 0 0 0 (leBytes 1 l.toNat ++ leBytes 3 0)
  generalize s.ruled q l = v at *
  generalize s.arbIn q = u at *
  have k := k1.andThen k2
  have hc2 : v.arbCore = { s.arbCore with mseqRx := some q, good := g } := Eq.trans k2.arbCore hc
  have hr : v.rejoins = s.rejoins := (State.rejoins_of_core hc2 :)
  have hf2 : v.fences = s.fences := hf.trans k2.fences
  refine ⟨?_, ?_, State.isTrail_of k hr, (State.promote_of_core hc2 :), (State.mseqRx_of_core hc2 :), (State.fences_eq hf2).1⟩
  · rw [State.staged, State.staged, k.on F.TWN_CTL.EN 0, k.get F.TWN_CTL.MODE 0]
  · rw [State.peerId, State.peerId, k.straps_eq]

/-! ### Greetings of the arbiter (R301, R371) -/

/-- What the arbiter reports of the peer is noted. -/
def State.greeted (s : State) (q : BitVec 32) (p : Nat) : State := (s.arbIn q).withArb { (s.arbIn q).arb with peer := p }

theorem State.awaitsPeer_of (h1 : t.straps = s.straps) (h2 : t.twState = s.twState) (h3 : t.bootState = s.bootState)
    (h4 : t.arb.waitRejoin = s.arb.waitRejoin) : t.awaitsPeer = s.awaitsPeer := by
  rw [State.awaitsPeer, State.awaitsPeer, h1, h2, h3, h4]

theorem State.peerSet_ends (s : State) (p : Nat) : (s.withArb { s.arb with peer := p }).arb.peer = p ∧
    (s.withArb { s.arb with peer := p }).arb.mseqRx = s.arb.mseqRx ∧ (s.withArb { s.arb with peer := p }).awaitsPeer = s.awaitsPeer :=
  ⟨rfl, rfl, State.awaitsPeer_of rfl ((s.keeps_withArb _).get _ _) ((s.keeps_withArb _).get _ _) rfl⟩

theorem State.awaitsPeer_arbIn (s : State) (q : BitVec 32) : (s.arbIn q).awaitsPeer = s.awaitsPeer := by
  obtain ⟨⟨g, hc⟩, ht, -, -⟩ := s.arbIn_ends q
  have hw := State.waitRejoin_of_core hc
  exact State.awaitsPeer_of (s.keeps_arbIn q).straps_eq ht ((s.keeps_arbIn q).get _ _) hw

theorem State.greeted_ends (s : State) (q : BitVec 32) (p : Nat) : (s.greeted q p).arb.peer = p ∧ (s.greeted q p).arb.mseqRx = some q ∧
    (s.greeted q p).awaitsPeer = s.awaitsPeer := by
  obtain ⟨⟨g, hc⟩, -, -, -⟩ := s.arbIn_ends q
  obtain ⟨h1, h2, h3⟩ := (s.arbIn q).peerSet_ends p
  exact ⟨h1, h2.trans (State.mseqRx_of_core hc), h3.trans (s.awaitsPeer_arbIn q)⟩

/-- The state with another state of the start-up. -/
def State.withPow (s : State) (p : Pow) : State := { s with pow := p }

theorem State.keeps_withPow (s : State) (p : Pow) : Keeps ⟨[], [.pow]⟩ s (s.withPow p) := .update (.refl s) rfl

/-- R301: a controller that runs alone, and fences side A. -/
def State.fencingA (s : State) : State :=
  (s.putAll F.HIF_TWNSTAT.STATE 0).withPow { (s.putAll F.HIF_TWNSTAT.STATE 0).pow with fenceA := true }

theorem State.aloneFencing_eq (s : State) : s.aloneFencing = s.fencingA.alone := rfl

theorem State.fencingA_ends (s : State) : s.fencingA.arb = s.arb ∧ s.fencingA.pow.fenceA = true ∧ s.fencingA.twState = 0 := by
  have h : (s.putAll F.HIF_TWNSTAT.STATE 0).twState = 0 := s.get_putAll F.HIF_TWNSTAT.STATE 0 0 (by decide)
  have k := (s.putAll F.HIF_TWNSTAT.STATE 0).keeps_withPow { (s.putAll F.HIF_TWNSTAT.STATE 0).pow with fenceA := true }
  exact ⟨k.arb_eq.trans (State.keeps_putAll _ _ _).arb_eq, rfl, (k.get _ _).trans h⟩

/-! ### FENCE_N (R362, R364) -/

theorem State.setHb_ends (s : State) (b : Bool) : (s.setHb b).arb = { s.arb with hb := b } ∧ Keeps ⟨[], [.arb, .out]⟩ s (s.setHb b) :=
  ⟨((s.withArb { s.arb with hb := b }).keeps_send (.pin 0 b)).arb_eq,
    .after ((s.withArb { s.arb with hb := b }).keeps_send (.pin 0 b)).up (s.keeps_withArb _).up⟩

/-- The registers of a controller that is fenced. -/
def State.unpaired (s : State) : State :=
  ((((s.put F.TWN_CTL.MODE 0 0).put F.TWN_STAT.PAIRED 0 0).put F.TWN_STAT.ROLE 0 0).putAll F.HIF_TWNSTAT.STATE 4).putAll F.HIF_TWNSTAT.ROLE 0

theorem State.unpaired_ends (s : State) : s.unpaired.get F.TWN_STAT.PAIRED = 0 ∧ ∀ i, i < 66 → s.unpaired.get F.HIF_TWNSTAT.STATE i = 4 := by
  unfold State.unpaired
  refine ⟨?_, fun i hi => ?_⟩
  · rw [State.get_putAll_apart _ (f := F.HIF_TWNSTAT.ROLE) (g := F.TWN_STAT.PAIRED), State.get_putAll_apart _ (f := F.HIF_TWNSTAT.STATE) (g := F.TWN_STAT.PAIRED),
      State.get_put_apart _ (f := F.TWN_STAT.ROLE) (g := F.TWN_STAT.PAIRED), State.get_put_same _ F.TWN_STAT.PAIRED]
    rfl
  · rw [State.get_putAll_apart _ (f := F.HIF_TWNSTAT.ROLE) (g := F.HIF_TWNSTAT.STATE), State.get_putAll _ F.HIF_TWNSTAT.STATE _ i hi]
    rfl

/-- What the rest of the controller forgets when it is fenced. -/
def State.fencedOff (s : State) : State := { s with
  arb := { s.arb with fenceLow := true, outcast := true, rj := {}, swap := none, promote := none, query := none }
  twn := { s.twn with
    frozen := false
    held := s.twn.held.filterMap fencedOut
    rxEnts := []
    rxRecs := []
    delivering := none
    applying := []
    awaitAck := []
    stock := []
    finals := []
    capsules := []
    packMsgs := []
    retained := [] }
  hif := { s.hif with funcs := s.hif.funcs.map fun (f : Nat × Func) => (f.1, f.2.fencedHeld) } }

theorem State.fencedOff_ends (s : State) : s.fencedOff.arb.fenceLow = true ∧ s.fencedOff.arb.outcast = true ∧
    Keeps ⟨[], [.arb, .twn, .hif]⟩ s s.fencedOff := ⟨rfl, rfl, .update (.refl s) rfl⟩

theorem State.exec_fenceNAssert (hs : s.Runs) :
    exec .fenceNAssert s = .next (((s.raise 2).unpaired.fencedOff.setHb false).send (.pin 2 false)) := exec_of_awake hs rfl

/-- FENCE_N is high again. -/
def State.fenceUp (s : State) : State := { s with arb := { s.arb with fenceLow := false } }

theorem State.fenceUp_ends (s : State) : s.fenceUp.arb = { s.arb with fenceLow := false } ∧ Keeps ⟨[], [.arb]⟩ s s.fenceUp :=
  ⟨rfl, .update (.refl s) rfl⟩

/-- A command that FENCE_N ends. -/
def State.cutCmd (s : State) (c : Ctx) : State := (s.giveBack c).fail c 7 0xC6

/-- What the end of a command may change. -/
abbrev Foot.cutCmd : Foot := Foot.join ⟨[.MAP_CAP_CHARGED, .SEC_KSTAT], [.keys, .map]⟩
  ⟨[.CIC_SRC_STAT, .MAP_CAP_CHARGED, .PKP_CRED, .PMC_CNT, .PMC_CTL], [.cic, .evt, .fab, .hif, .map, .out, .packs, .tly, .twn]⟩

theorem State.keeps_cutCmd (s : State) (c : Ctx) : Keeps .cutCmd s (s.cutCmd c) := (s.keeps_giveBack c).andThen (State.keeps_fail _ _ _ _)

theorem State.ctxs_cutCmd (c : Ctx) (hd : s.pow.dumping = false) : (s.cutCmd c).hif.ctxs = s.hif.ctxs.filter fun x => x.stamp != c.stamp := by
  have k1 := s.keeps_giveBack c
  have k2 := (s.giveBack c).keeps_unchargeAll c.stamp
  have hd2 : ((s.giveBack c).unchargeAll c.stamp).pow.dumping = false := by rw [k2.pow_eq, k1.pow_eq, hd]
  have h := State.ctxs_finish c { sct := 7, sc := 0xC6 } hd2
  rw [k2.hif_eq, k1.hif_eq] at h
  exact h

theorem State.ctxs_cutCmds (l : List Ctx) (s : State) (hd : s.pow.dumping = false) : ∀ x ∈ (l.foldl State.cutCmd s).hif.ctxs,
    x ∈ s.hif.ctxs ∧ ∀ c ∈ l, x.stamp ≠ c.stamp := by
  induction l generalizing s with
  | nil => exact fun x hx => ⟨hx, nofun⟩
  | cons a l ih =>
    intro x hx
    obtain ⟨h1, h2⟩ := ih (s.cutCmd a) (by rw [(s.keeps_cutCmd a).pow_eq, hd]) x hx
    rw [State.ctxs_cutCmd a hd, List.mem_filter, bne_iff_ne] at h1
    exact ⟨h1.1, List.forall_mem_cons.2 ⟨h1.2, h2⟩⟩

/-- The I/O commands that FENCE_N ends when it is released. -/
def State.ioCut (s : State) : State := (s.hif.ctxs.filter fun c => !c.admin).foldl State.cutCmd s

theorem State.ioCut_ends (s : State) : s.ioCut.arb = s.arb ∧ (s.pow.dumping = false → ∀ c ∈ s.ioCut.hif.ctxs, c.admin = true) := by
  refine ⟨?_, fun hd c hc => ?_⟩
  · have k : Keeps .cutCmd s s.ioCut := by
      unfold State.ioCut
      exact .foldl (fun _ _ => State.keeps_cutCmd _ _) _ _
    exact k.arb_eq
  · obtain ⟨h1, h2⟩ := State.ctxs_cutCmds _ s hd c hc
    by_contra hn
    exact h2 c (List.mem_filter.2 ⟨h1, by simpa using hn⟩) rfl

theorem State.exec_fenceNRelease (hs : s.Runs) (h : s.arb.fenceLow = true) :
    exec .fenceNRelease s = .next ((s.fenceUp.send (.pin 2 true)).releaseHeld.ioCut).flow :=
  exec_of_awake hs (congrArg (fun u => s.awake (.next u)) (if_neg (by rw [h]; decide)))

end

end Sys2Proof.Machine
end

section
-- One proof at a time: as many threads as there are lemmas here do not fit beside the model.
set_option Elab.async false
namespace Sys2Proof.Machine

section
variable {s t : State}

/-! ### Messages of the twin link -/

/-- A message of the twin link has its sequence number. -/
def State.counted (s : State) : State := { s with twn := { s.twn with mseqRx := s.twn.mseqRx + 1 } }

theorem State.mseqRx_counted (s : State) : s.counted.twn.mseqRx = s.twn.mseqRx + 1 := rfl

theorem State.mseqRx_twinIn (s : State) (n : Nat) : (s.twinIn n).twn.mseqRx = s.twn.mseqRx + 1 :=
  (State.mseqRx_of_held (s.counted.heldUp_accepted .twin (flitsOf (32 + n)))).trans s.mseqRx_counted

theorem State.mayJoin_of (ha : t.arb.fenceLow = s.arb.fenceLow) (hp : t.get F.TWN_STAT.PAIRED = s.get F.TWN_STAT.PAIRED)
    (hr : t.arb.rj = s.arb.rj) (hw : t.arb.waitRejoin = s.arb.waitRejoin) (ht : t.twState = s.twState) : t.mayJoin = s.mayJoin := by
  rw [State.mayJoin, State.mayJoin, State.on, State.on, ha, hp, hr, hw, ht]

/-! ### PAIR_HELLO (R374, R375) -/

/-- The peer's hello is kept. -/
def State.helloed (s : State) (h : PairHello) : State := (s.twinIn 168).withArb { (s.twinIn 168).arb with hello := some h }

theorem State.helloSet_ends (s : State) (h : PairHello) : (s.withArb { s.arb with hello := some h }).arb = { s.arb with hello := some h } := rfl

theorem State.helloed_ends (s : State) (h : PairHello) : (s.helloed h).arb = { s.arb with hello := some h } ∧
    (s.helloed h).twState = s.twState ∧ (s.helloed h).bootState = s.bootState ∧ (s.helloed h).straps = s.straps ∧
    (s.helloed h).mayJoin = s.mayJoin := by
  have k1 := s.keeps_twinIn 168
  have k2 := (s.twinIn 168).keeps_withArb { (s.twinIn 168).arb with hello := some h }
  have ha : (s.helloed h).arb = { s.arb with hello := some h } := by
    rw [State.helloed, State.helloSet_ends, k1.arb_eq]
  have ht : (s.helloed h).twState = s.twState := (k2.get _ _).trans (k1.get _ _)
  refine ⟨ha, ht, (k2.get _ _).trans (k1.get _ _), k2.straps_eq.trans k1.straps_eq, State.mayJoin_of ?_ ((k2.get _ _).trans (k1.get _ _)) ?_ ?_ ht⟩
  · rw [ha]
  · rw [ha]
  · rw [ha]

/-- A controller that a rejoin takes in. -/
def State.asJoiner (s : State) : State :=
  (((((s.withArb { s.arb with rj := { active := true, joiner := true, was := s.twState } }).put F.TWN_CTL.EN 0 1).put F.TWN_CTL.MODE 0 2).put
    F.TWN_STAT.ROLE 0 1).putAll F.HIF_TWNSTAT.ROLE 1).putAll F.HIF_TWNSTAT.STATE 5

theorem State.asJoiner_ends (s : State) : s.asJoiner.arb = { s.arb with rj := { active := true, joiner := true, was := s.twState } } ∧
    s.asJoiner.twState = 5 ∧ s.asJoiner.get F.TWN_CTL.MODE = 2 ∧ s.asJoiner.get F.TWN_STAT.ROLE = 1 := by
  unfold State.asJoiner
  have ha := s.arb_withArb { s.arb with rj := { active := true, joiner := true, was := s.twState } }
  refine ⟨?_, ?_, ?_, ?_⟩
  · rw [(State.keeps_putAll _ F.HIF_TWNSTAT.STATE 5).arb_eq, (State.keeps_putAll _ F.HIF_TWNSTAT.ROLE 1).arb_eq, (State.keeps_put _ F.TWN_STAT.ROLE 0 1).arb_eq,
      (State.keeps_put _ F.TWN_CTL.MODE 0 2).arb_eq, (State.keeps_put _ F.TWN_CTL.EN 0 1).arb_eq, ha]
  · rw [State.twState, State.get_putAll _ _ _ _ (by decide)]
    rfl
  · rw [State.get_putAll_apart _ (f := F.HIF_TWNSTAT.STATE) (g := F.TWN_CTL.MODE), State.get_putAll_apart _ (f := F.HIF_TWNSTAT.ROLE) (g := F.TWN_CTL.MODE),
      State.get_put_apart _ (f := F.TWN_STAT.ROLE) (g := F.TWN_CTL.MODE), State.get_put_same _ F.TWN_CTL.MODE]
    rfl
  · rw [State.get_putAll_apart _ (f := F.HIF_TWNSTAT.STATE) (g := F.TWN_STAT.ROLE), State.get_putAll_apart _ (f := F.HIF_TWNSTAT.ROLE) (g := F.TWN_STAT.ROLE),
      State.get_put_same _ F.TWN_STAT.ROLE]
    rfl

theorem State.joining_of_arb {a : Arb} (h : s.arb = a) : s.joining = (a.rj.active && a.rj.joiner) := by
  subst h
  rfl

/-! ### PAIR_RESULT (R376, R377, R418) -/

/-- The time of the peer is taken over. -/
def State.withTime (s : State) (e : BitVec 16) (d : BitVec 64) : State := { s with epoch := e, dtime := d }

theorem State.withTime_ends (s : State) (e : BitVec 16) (d : BitVec 64) : (s.withTime e d).epoch = e ∧ (s.withTime e d).dtime = d ∧
    (s.withTime e d).keys = s.keys := ⟨rfl, rfl, rfl⟩

theorem State.genTx_sendKey (s : State) : s.sendKey.keys.genTx = s.keys.genTx := by
  unfold State.sendKey
  split
  · rfl
  · rfl

theorem State.genTx_recvKey (s : State) : s.recvKey.keys.genTx = s.keys.genTx := by
  unfold State.recvKey
  split
  · rfl
  · rfl

/-- What an agreed pairing leaves before the link keys are derived. -/
def State.agreedOn (s : State) (h : PairHello) (p : BitVec 64) : State := { s with
  keys := { s.keys with genTx := s.keys.genTx + 1, genRx := s.keys.genRx + 1, peerSerial := h.serial, xseq := 0, need := [], early := [] }
  twn := { s.twn with mseqTx := 0, mseqRx := 0 }
  arb := { s.arb with pairId := p, waitRejoin := false }
  hif := { s.hif with peerFw := controlVer h.fwver } }

theorem State.agreedOn_ends (s : State) (h : PairHello) (p : BitVec 64) : (s.agreedOn h p).arb.pairId = p ∧ (s.agreedOn h p).epoch = s.epoch ∧
    (s.agreedOn h p).dtime = s.dtime ∧ (s.agreedOn h p).keys.genTx = s.keys.genTx + 1 ∧ (s.agreedOn h p).arb.waitRejoin = false :=
  ⟨rfl, rfl, rfl, rfl, rfl⟩

theorem State.agreed_eq (s : State) (h : PairHello) (p : BitVec 64) : s.agreed h p =
    ((s.agreedOn h p).sendKey.recvKey.kstat.put F.TWN_LINK.KGEN 0 ((s.keys.genTx + 1) % 65536)).raise 261 := rfl

theorem State.agreed_ends (s : State) (h : PairHello) (p : BitVec 64) : (s.agreed h p).arb.pairId = p ∧ (s.agreed h p).epoch = s.epoch ∧
    (s.agreed h p).dtime = s.dtime ∧ (s.agreed h p).keys.genTx = s.keys.genTx + 1 ∧ (s.agreed h p).arb.waitRejoin = false := by
  obtain ⟨h1, h2, h3, h4, h5⟩ := s.agreedOn_ends h p
  rw [s.agreed_eq h p]
  have k1 := (s.agreedOn h p).keeps_sendKey
  have k2 := (s.agreedOn h p).sendKey.keeps_recvKey
  have k3 := (s.agreedOn h p).sendKey.recvKey.keeps_kstat
  have k4 := (s.agreedOn h p).sendKey.recvKey.kstat.keeps_put F.TWN_LINK.KGEN 0 ((s.keys.genTx + 1) % 65536)
  have k5 := ((s.agreedOn h p).sendKey.recvKey.kstat.put F.TWN_LINK.KGEN 0 ((s.keys.genTx + 1) % 65536)).keeps_raise 261
  have ha := k5.arb_eq.trans (k4.arb_eq.trans (k3.arb_eq.trans (k2.arb_eq.trans k1.arb_eq)))
  have he := (k5.same .epoch rfl).trans ((k4.same .epoch rfl).trans ((k3.same .epoch rfl).trans ((k2.same .epoch rfl).trans (k1.same .epoch rfl))))
  have hd := k5.dtime_eq.trans (k4.dtime_eq.trans (k3.dtime_eq.trans (k2.dtime_eq.trans k1.dtime_eq)))
  have hk := k5.keys_eq.trans (k4.keys_eq.trans k3.keys_eq)
  refine ⟨?_, he.trans h2, hd.trans h3, ?_, ?_⟩
  · rw [ha, h1]
  · rw [hk, State.genTx_recvKey, State.genTx_sendKey, h4]
  · rw [ha, h5]

theorem State.refusedJoin_ends (s : State) (was : Nat) (hw : was ≤ 5) : (s.leftPair.rjOff.putAll F.HIF_TWNSTAT.STATE was).arb.rj.active = false ∧
    (s.leftPair.rjOff.putAll F.HIF_TWNSTAT.STATE was).twState = was ∧ (s.leftPair.rjOff.putAll F.HIF_TWNSTAT.STATE was).get F.TWN_CTL.MODE = 0 := by
  obtain ⟨h1, -, h3⟩ := s.leftPair.rjOff_ends
  have k := s.leftPair.rjOff.keeps_putAll F.HIF_TWNSTAT.STATE was
  refine ⟨?_, ?_, ?_⟩
  · rw [k.arb_eq, h1]
  · rw [State.twState, State.get_putAll _ _ _ _ (by decide)]
    exact Nat.mod_eq_of_lt (Nat.lt_of_le_of_lt hw (by decide))
  · rw [State.get_putAll_apart _ (f := F.HIF_TWNSTAT.STATE) (g := F.TWN_CTL.MODE), State.get, State.reg_of_regs h3, ← State.get]
    unfold State.leftPair
    rw [State.get_putAll_apart _ (f := F.HIF_TWNSTAT.ROLE) (g := F.TWN_CTL.MODE), State.get_put_apart _ (f := F.TWN_STAT.ROLE) (g := F.TWN_CTL.MODE),
      State.get_put_same _ F.TWN_CTL.MODE]
    rfl

/-! ### The cut (R382, R383) -/

/-- The twin-visible state of the cut, with its registers taken. -/
def State.imaged (s : State) (x : CutImage) : State := { s with
  fw := { s.fw with level := x.level }
  hif := s.hif.joined x.hif
  map := x.map
  cmpWait := x.cmpWait
  conv := x.conv
  health := { x.health with ready := true }
  pow := { s.pow with progress := x.progress, boot := none }
  fab := { x.fab with
    qps := x.fab.qps.map fun q => (q.1, { q.2 with err := true, away := true })
    ledErr := (x.fab.qps.map fun q => (q.1, s.straps.twinId)) ++ x.fab.ledErr.filter fun e => e.2 != s.straps.twinId }
  packs := x.packs.map fun p => (p.1, (s.pk p.1).joined p.2)
  hkp := { s.hkp with sample := x.samples } }

/-- What a joiner has of the cut's image. -/
def State.Took (s : State) (x : CutImage) : Prop := s.health.ready = true ∧ s.hif.fenceCnt = x.hif.fenceCnt ∧ s.hif.mediaErrs = x.hif.mediaErrs ∧
  s.map = x.map ∧ s.conv = x.conv

theorem State.took_imaged (s : State) (x : CutImage) : (s.imaged x).Took x ∧ (s.imaged x).arb = s.arb := ⟨⟨rfl, rfl, rfl, rfl, rfl⟩, rfl⟩

theorem State.Took.keep {F : Foot} {x : CutImage} (h : s.Took x) (k : Keeps F s t) (h1 : F.parts.contains .health = false := by decide +kernel)
    (h2 : F.parts.contains .hif = false := by decide +kernel) (h3 : F.parts.contains .map = false := by decide +kernel)
    (h4 : F.parts.contains .conv = false := by decide +kernel) : t.Took x := by
  unfold State.Took
  rw [k.health_eq h1, k.hif_eq h2, k.map_eq h3, k.conv_eq h4]
  exact h

/-- The twin-visible registers give way to those of the cut. -/
def State.reged (s : State) (x : CutImage) : State := x.regs.foldl State.takeReg { s with regs := s.regs.filter fun e => !twinKey e.1 }

theorem State.arb_takeReg (s : State) (e : Nat × BitVec 64) : (s.takeReg e).arb = s.arb := by
  unfold State.takeReg
  split
  · rfl
  · split
    · rfl
    · rfl

theorem State.arb_reged (s : State) (x : CutImage) : (s.reged x).arb = s.arb := by
  have h : ∀ (l : List (Nat × BitVec 64)) (u : State), (l.foldl State.takeReg u).arb = u.arb := fun l => by
    induction l with
    | nil => exact fun _ => rfl
    | cons a l ih => exact fun u => (ih _).trans (u.arb_takeReg a)
  exact h _ _

theorem State.takeImage_eq (s : State) (x : CutImage) : s.takeImage x = (List.range 32).foldl State.showPack ((s.reged x).imaged x) := rfl

theorem State.takeImage_ends (s : State) (x : CutImage) : (s.takeImage x).Took x ∧ (s.takeImage x).arb = s.arb := by
  rw [s.takeImage_eq x]
  obtain ⟨h1, h2⟩ := (s.reged x).took_imaged x
  have k : Keeps ⟨[.PKP_STAT], []⟩ ((s.reged x).imaged x) ((List.range 32).foldl State.showPack ((s.reged x).imaged x)) :=
    .foldl (fun _ _ => State.keeps_showPack _ _) _ _
  exact ⟨h1.keep k, k.arb_eq.trans (h2.trans (s.arb_reged x))⟩

/-- The cut is taken: the joiner is ready. -/
def State.cutTaken (s : State) (x : BitVec 64) : State :=
  ((s.setReg .TWN_STAGE 0 x).withArb { (s.setReg .TWN_STAGE 0 x).arb with rj := { (s.setReg .TWN_STAGE 0 x).arb.rj with cut := some x }, outcast := false }).putAll
    F.HIF_BOOTSTAT.STATE 6

theorem State.cutTaken_ends (s : State) (x : BitVec 64) : (s.cutTaken x).arb.rj.cut = some x ∧ (s.cutTaken x).arb.outcast = false ∧
    (s.cutTaken x).reg .TWN_STAGE 0 = x ∧ (s.cutTaken x).bootState = 6 ∧ Keeps ⟨[.TWN_STAGE, .HIF_BOOTSTAT], [.arb]⟩ s (s.cutTaken x) := by
  unfold State.cutTaken
  have hr := s.reg_setReg_self .TWN_STAGE 0 x
  have k0 := s.keeps_setReg .TWN_STAGE 0 x
  have k1 := (s.setReg .TWN_STAGE 0 x).keeps_withArb { (s.setReg .TWN_STAGE 0 x).arb with rj := { (s.setReg .TWN_STAGE 0 x).arb.rj with cut := some x }, outcast := false }
  have h1 := (s.setReg .TWN_STAGE 0 x).arb_withArb { (s.setReg .TWN_STAGE 0 x).arb with rj := { (s.setReg .TWN_STAGE 0 x).arb.rj with cut := some x }, outcast := false }
  have k2 := ((s.setReg .TWN_STAGE 0 x).withArb { (s.setReg .TWN_STAGE 0 x).arb with rj := { (s.setReg .TWN_STAGE 0 x).arb.rj with cut := some x }, outcast := false }).keeps_putAll
    F.HIF_BOOTSTAT.STATE 6
  refine ⟨?_, ?_, ?_, ?_, .after k2.up (.after k1.up k0.up)⟩
  · rw [k2.arb_eq, h1]
  · rw [k2.arb_eq, h1]
  · rw [k2.reg _ _, k1.reg _ _, hr]
  · rw [State.bootState, State.get_putAll _ _ _ _ (by decide)]
    rfl

/-! ### A pair begins (R386) -/

/-- The twin sequence is on. -/
def State.seqOn (s : State) : State := { s with hif := { s.hif with twinSeqOn := true, seqEnded := [] } }

theorem State.keeps_seqOn (s : State) : Keeps ⟨[], [.hif]⟩ s s.seqOn := .update (.refl s) rfl

/-- The registers of a member of a pair. -/
def State.pairRegs (s : State) (trail : Bool) : State :=
  ((((((s.put F.TWN_STAT.PAIRED 0 1).put F.TWN_STAT.ROLE 0 trail.toNat).put F.TWN_CTL.EN 0 1).put F.TWN_CTL.MODE 0 (if trail then 2 else 1)).putAll
    F.HIF_TWNSTAT.ROLE trail.toNat).putAll F.HIF_TWNSTAT.STATE 2)

/-- A member of a pair, by its registers. -/
def State.Paired (s : State) (trail : Bool) : Prop := s.get F.TWN_STAT.PAIRED = 1 ∧ s.twState = 2 ∧ s.get F.TWN_STAT.ROLE = trail.toNat

theorem State.Paired.keep {F : Foot} {b : Bool} (h : s.Paired b) (k : Keeps F s t) (h1 : F.regs.contains .TWN_STAT = false := by decide +kernel)
    (h2 : F.regs.contains .HIF_TWNSTAT = false := by decide +kernel) : t.Paired b :=
  ⟨(k.get _ _ h1).trans h.1, (k.get _ _ h2).trans h.2.1, (k.get _ _ h1).trans h.2.2⟩

theorem State.paired_pairRegs (s : State) (b : Bool) : (s.pairRegs b).Paired b ∧ Keeps ⟨[.TWN_STAT, .TWN_CTL, .HIF_TWNSTAT], []⟩ s (s.pairRegs b) := by
  unfold State.pairRegs
  refine ⟨⟨?_, ?_, ?_⟩, .after (State.keeps_putAll _ _ _).up (.after (State.keeps_putAll _ _ _).up (.after (State.keeps_put _ _ _ _).up
    (.after (State.keeps_put _ _ _ _).up (.after (State.keeps_put _ _ _ _).up (State.keeps_put _ _ _ _).up))))⟩
  · rw [State.get_putAll_apart _ (f := F.HIF_TWNSTAT.STATE) (g := F.TWN_STAT.PAIRED), State.get_putAll_apart _ (f := F.HIF_TWNSTAT.ROLE) (g := F.TWN_STAT.PAIRED),
      State.get_put_apart _ (f := F.TWN_CTL.MODE) (g := F.TWN_STAT.PAIRED), State.get_put_apart _ (f := F.TWN_CTL.EN) (g := F.TWN_STAT.PAIRED),
      State.get_put_apart _ (f := F.TWN_STAT.ROLE) (g := F.TWN_STAT.PAIRED), State.get_put_same _ F.TWN_STAT.PAIRED]
    rfl
  · rw [State.twState, State.get_putAll _ _ _ _ (by decide)]
    rfl
  · rw [State.get_putAll_apart _ (f := F.HIF_TWNSTAT.STATE) (g := F.TWN_STAT.ROLE), State.get_putAll_apart _ (f := F.HIF_TWNSTAT.ROLE) (g := F.TWN_STAT.ROLE),
      State.get_put_apart _ (f := F.TWN_CTL.MODE) (g := F.TWN_STAT.ROLE), State.get_put_apart _ (f := F.TWN_CTL.EN) (g := F.TWN_STAT.ROLE),
      State.get_put_same _ F.TWN_STAT.ROLE]
    cases b with
    | true => rfl
    | false => rfl

theorem State.asPaired_eq (s : State) (b : Bool) : s.asPaired b = (s.pairRegs b).seqOn := rfl

/-- The re-arm list of ARM, and the end of the rejoin. -/
def State.rearmed (s : State) : State := s.withArb { s.arb with
  rearm := s.rearmList
  rj := {}
  single := if s.joining then s.fab.qps.map Prod.fst else [] }

/-- Every completion queue starts anew. -/
def State.cqsFresh (s : State) : State := { s with hif := { s.hif with funcs := s.hif.funcs.map fun f => (f.1, f.2.joined) } }

theorem State.keeps_cqsFresh (s : State) : Keeps ⟨[], [.hif]⟩ s s.cqsFresh := .update (.refl s) rfl

theorem State.armed_eq (s : State) : s.armed = if s.joining then ((s.rearmed.pairRegs s.joining).seqOn).cqsFresh else (s.rearmed.pairRegs s.joining).seqOn := rfl

theorem State.armed_ends (s : State) : s.armed.Paired s.joining ∧ s.armed.arb.rj.active = false := by
  have h0 : s.rearmed.arb.rj.active = false := rfl
  obtain ⟨h1, k1⟩ := s.rearmed.paired_pairRegs s.joining
  have k2 := (s.rearmed.pairRegs s.joining).keeps_seqOn
  have ha : (s.rearmed.pairRegs s.joining).seqOn.arb.rj.active = false := by rw [k2.arb_eq, k1.arb_eq, h0]
  rw [s.armed_eq]
  split
  · have k3 := (s.rearmed.pairRegs s.joining).seqOn.keeps_cqsFresh
    exact ⟨(h1.keep k2).keep k3, by rw [k3.arb_eq, ha]⟩
  · exact ⟨h1.keep k2, ha⟩

end

end Sys2Proof.Machine
end

section
-- One proof at a time: as many threads as there are lemmas here do not fit beside the model.
set_option Elab.async false
namespace Sys2Proof.Machine

section
variable {s t : State}

theorem State.out_arbSend (s : State) (n : Nat) (b : Bytes) : (s.arbSend n b).out = s.out ++ [.arb (s.arbFrame n b)] := by
  unfold State.arbSend
  rw [State.out_send_free _ (.arb (s.arbFrame n b)) rfl rfl]

theorem State.arbFrame_of (ha : t.arb = s.arb) (hs : t.straps = s.straps) (n : Nat) (b : Bytes) : t.arbFrame n b = s.arbFrame n b := by
  rw [State.arbFrame, State.arbFrame, ha, hs]

theorem take_three {a b c d : Bytes} (ha : a.length = 1) (hb : b.length = 1) (hc : c.length = 1) : (a ++ b ++ c ++ d).take 3 = a ++ b ++ c :=
  List.take_left' (by simp [ha, hb, hc])

/-- A query freezes what is held, and asks for a report. -/
def State.queried (s : State) (x : BitVec 64) : State := { s with twn := { s.twn with frozen := true }, arb := { s.arb with query := some x } }

theorem State.queried_ends (s : State) (x : BitVec 64) : (s.queried x).twn.frozen = true ∧ (s.queried x).arb = { s.arb with query := some x } := ⟨rfl, rfl⟩

theorem State.said_of_core (h : t.arbCore = s.arbCore) : t.arb.query = s.arb.query ∧ t.arb.mseqRx = s.arb.mseqRx ∧ t.arb.good = s.arb.good :=
  ⟨(State.query_of_core h :), (State.mseqRx_of_core h :), (State.good_of_core h :)⟩

theorem State.frozen_of_heldUp (h : Same State.heldUp s t) : t.twn.frozen = s.twn.frozen := congrArg Prod.fst h

theorem State.reported_ends (s : State) (x : BitVec 64) : (s.report x).twn.frozen = s.twn.frozen ∧ (s.report x).arb.query = s.arb.query ∧
    (s.report x).arb.mseqRx = s.arb.mseqRx := by
  obtain ⟨h1, h2, -⟩ := State.said_of_core (s.arbCore_report x)
  exact ⟨State.frozen_of_heldUp (s.keeps_report x).heldUp, h1, h2⟩

theorem State.abandoned_ends (s : State) (n : Nat) : (s.rejoinAbort n).twn.frozen = s.twn.frozen ∧ (s.rejoinAbort n).arb.query = s.arb.query ∧
    (s.rejoinAbort n).arb.mseqRx = s.arb.mseqRx ∧ (s.rejoinAbort n).arb.rj.active = false := by
  obtain ⟨h5, h6, h7, h8⟩ := s.rejoinAbort_ends n
  exact ⟨State.frozen_of_heldUp h8, h6, h7, h5⟩

theorem State.askedFor_ends (s : State) (x : BitVec 64) : (((s.queried x).report x).rejoinAbort 4).twn.frozen = true ∧
    (((s.queried x).report x).rejoinAbort 4).arb.query = some x ∧ (((s.queried x).report x).rejoinAbort 4).arb.mseqRx = s.arb.mseqRx ∧
    (((s.queried x).report x).rejoinAbort 4).arb.rj.active = false := by
  obtain ⟨h1, h2⟩ := s.queried_ends x
  obtain ⟨h3, h4, h5⟩ := (s.queried x).reported_ends x
  obtain ⟨h6, h7, h8, h9⟩ := ((s.queried x).report x).abandoned_ends 4
  have hq : (s.queried x).arb.query = some x := by rw [h2]
  have hm : (s.queried x).arb.mseqRx = s.arb.mseqRx := by rw [h2]
  exact ⟨h6.trans (h3.trans h1), h7.trans (h4.trans hq), h8.trans (h5.trans hm), h9⟩

theorem State.thawed_ends (s : State) : s.thaw.twn.frozen = false ∧ s.thaw.arb.query = none ∧ s.thaw.arb.mseqRx = s.arb.mseqRx := by
  obtain ⟨h1, h2⟩ := s.thaw_ends
  exact ⟨h1, by rw [h2], by rw [h2]⟩

/-- Who ends a freeze by fencing its peer. -/
def State.Fencer (s v : State) (n : Nat) (c : Instr) : Prop := exec c s = .next (v.fencePeer n) ∧ v.isTrail = s.isTrail ∧ v.peerId = s.peerId ∧
  v.hif.fenceCnt = s.hif.fenceCnt

theorem State.fencer_of {c : Instr} {n : Nat} (hs : s.Runs) (h1 : s.staged = true) (h2 : s.arb.promote = none)
    (h3 : (∃ q l x, c = Instr.verdict q l n x ∧ l.toNat = s.peerId) ∨ (c = .leadContinueAlone ∧ n = 2 ∧ s.pairedLead = true ∧
        s.get F.HIF_TWNSTAT.ARB_LOST = 1 ∧ ∃ t, s.arb.linkDownAt = some t ∧ t + 4 * s.twn.openUs ≤ s.elapsed)) : ∃ v, s.Fencer v n c := by
  rcases h3 with ⟨q, l, x, rfl, hl⟩ | ⟨rfl, rfl, hp, ho, t, ht, hu⟩
  · obtain ⟨e1, e2, e3, e4, -, e6⟩ := s.ruled_ends q l
    refine ⟨s.ruled q l, exec_of_awake hs (congrArg (fun u => s.awake (.next u)) (if_pos (c := ((s.ruled q l).staged && l.toNat == (s.ruled q l).peerId &&
      (s.ruled q l).arb.promote.isNone) = true) ?_)), e3, e2, e6⟩
    rw [e1, e2, e4, h1, h2, hl]
    simp
  · refine ⟨s, exec_of_awake hs (congrArg (fun u => s.awake (.next u)) ?_), rfl, rfl, rfl⟩
    rw [ht]
    exact if_pos (by rw [hp, State.on_of_get_one ho, decide_eq_true hu]; rfl)

theorem State.fencedNow_ends (s : State) : let u := ((s.raise 2).unpaired.fencedOff.setHb false).send (.pin 2 false)
    u.arb.fenceLow = true ∧ u.arb.outcast = true ∧ u.arb.hb = false ∧ u.get F.TWN_STAT.PAIRED = 0 ∧ (∀ i, i < 66 → u.get F.HIF_TWNSTAT.STATE i = 4) ∧
      [.pin 2 false] <:+ u.out := by
  obtain ⟨h1, h2⟩ := (s.raise 2).unpaired_ends
  obtain ⟨h3, h4, k1⟩ := (s.raise 2).unpaired.fencedOff_ends
  obtain ⟨h5, k2⟩ := (s.raise 2).unpaired.fencedOff.setHb_ends false
  have k3 := ((s.raise 2).unpaired.fencedOff.setHb false).keeps_send (.pin 2 false)
  have ha := k3.arb_eq.trans h5
  refine ⟨?_, ?_, ?_, ?_, fun i hi => ?_, ?_⟩
  · rw [ha]
    exact h3
  · rw [ha]
    exact h4
  · rw [ha]
  · rw [k3.get _ _, k2.get _ _, k1.get _ _, h1]
  · rw [k3.get _ _, k2.get _ _, k1.get _ _, h2 i hi]
  · rw [State.out_send_free _ (.pin 2 false) rfl rfl]
    exact List.suffix_append _ _

theorem State.released_ends (s : State) : let u := (s.fenceUp.send (.pin 2 true)).releaseHeld.ioCut
    u.arb.fenceLow = false ∧ u.arb.outcast = s.arb.outcast ∧ (s.pow.dumping = false → ∀ c ∈ u.hif.ctxs, c.admin = true) := by
  obtain ⟨h1, k1⟩ := s.fenceUp_ends
  have k2 := s.fenceUp.keeps_send (.pin 2 true)
  have k3 := (s.fenceUp.send (.pin 2 true)).keeps_releaseHeld
  obtain ⟨h2, h3⟩ := (s.fenceUp.send (.pin 2 true)).releaseHeld.ioCut_ends
  have ha := h2.trans (k3.arb_eq.trans (k2.arb_eq.trans h1))
  refine ⟨?_, ?_, fun hd => h3 ?_⟩
  · rw [ha]
  · rw [ha]
  · rw [k3.pow_eq, k2.pow_eq, k1.pow_eq, hd]

theorem State.exec_pairHello (hs : s.Runs) (h : PairHello) (hl : s.on F.TWN_STAT.LINK_UP = true) : ∃ g : State → State, exec (.pairHello h) s = .next (g (s.helloed h)) ∧
    ∀ u : State, g u = if u.twState = 3 then (if !u.arb.rj.active then u.sendResult 5 else if u.arb.rj.pass = 0 then u.judgeJoiner h else u)
      else if u.mayJoin then u.asJoiner.sendHelloTwin
      else if u.twState = 1 ∧ u.bootState = 3 ∧ !u.straps.twinId then u.judgeHello h else u :=
  ⟨_, exec_of_awake hs (congrArg (fun u => s.awake (.next u)) (if_neg (by rw [hl]; decide))), fun _ => rfl⟩

theorem Rejoin.passes (rj : Rejoin) (h1 : rj.active = true) (h2 : rj.joiner = false) (h3 : rj.pass ≠ 0) (h4 : rj.cut = none) (h5 : rj.cutNext = false) :
    ¬ (!rj.active || rj.joiner || rj.pass == 0 || rj.cut.isSome || rj.cutNext) = true := by
  rw [h1, h2, h4, h5]
  simpa using h3

/-- The first live stage is named. -/
def State.lived (s : State) (x : BitVec 64) : State := s.withArb { s.arb with rj := { s.arb.rj with live := some x } }

theorem State.lived_ends (s : State) (x : BitVec 64) : (s.lived x).arb.rj.live = some x ∧ (s.lived x).arb.rj.joiner = s.arb.rj.joiner ∧
    Keeps ⟨[], [.arb]⟩ s (s.lived x) := ⟨rfl, rfl, s.keeps_withArb _⟩

/-- Twin Peer Ready is posted. -/
def State.peerReady (s : State) : State := s.withArb { s.arb with rj := { s.arb.rj with ready := true } }

theorem State.peerReady_ends (s : State) : s.peerReady.arb.rj.live = s.arb.rj.live ∧ s.peerReady.arb.rj.ready = true := ⟨rfl, rfl⟩

theorem State.noted_ends (s : State) : ((s.peerReady.twinIn 8).vendor 6).arb.rj.live = s.arb.rj.live ∧ ((s.peerReady.twinIn 8).vendor 6).arb.rj.ready = true := by
  obtain ⟨h1, h2⟩ := s.peerReady_ends
  have ha := ((s.peerReady.twinIn 8).keeps_vendor 6).arb_eq.trans (s.peerReady.keeps_twinIn 8).arb_eq
  rw [ha]
  exact ⟨h1, h2⟩

/-- The joiner names its first live stage, and confirms its slot. -/
def State.liveSent (s : State) (x : BitVec 64) : State := (s.twinSend 0x14 (leBytes 8 x.toNat)).confirmSlot

theorem State.live_of_same (h : Same State.arbCore s t) : t.arb.rj.live = s.arb.rj.live := State.live_of_core (a := s.arbCore) h

theorem State.live_liveSent (s : State) (x : BitVec 64) (n : Nat) : (State.sendDigests n (s.liveSent x)).arb.rj.live = s.arb.rj.live := by
  have k1 := s.keeps_twinSend 0x14 (leBytes 8 x.toNat) false
  have k2 := (s.twinSend 0x14 (leBytes 8 x.toNat)).keeps_confirmSlot
  have h : (s.liveSent x).arb = s.arb := k2.arb_eq.trans k1.arb_eq
  rw [State.live_of_same (State.arbCore_sendDigests n (s.liveSent x)), h]

theorem State.exec_rsyncLive (hs : s.Runs) (x : BitVec 64) (h1 : s.arb.rj.active = true) (h2 : s.arb.rj.cut ≠ none) (h3 : s.arb.rj.live = none) :
    exec (.rsyncLive x) s = .next (if (s.lived x).arb.rj.joiner then
      (if (s.lived x).twn.lagging then s.lived x |>.withArb { s.arb with rj := s.arb.rj }
        else State.sendDigests ((s.lived x).liveSent x).twn.finals.length ((s.lived x).liveSent x))
      else ((s.lived x).peerReady.twinIn 8).vendor 6) := by
  refine exec_of_awake hs (congrArg (fun u => s.awake (.next u)) (if_neg (c := (!s.arb.rj.active || s.arb.rj.cut.isNone || s.arb.rj.live.isSome) = true) ?_))
  rw [h1, h3]
  simpa using h2

/-- The roles change at the close of the open stage. -/
def State.swapSet (s : State) : State := (s.recordCtl 2 0).withArb { s.arb with swap := some (s.reg .TWN_STAGE 0) }

theorem State.swapSet_ends (s : State) : s.swapSet.arb.swap = some (s.reg .TWN_STAGE 0) := rfl

theorem State.not_on_iff (s : State) (f : Fld) (h : f.hi + 1 - f.lo = 1 := by decide) : (!s.on f) = true ↔ s.get f = 0 := by
  rcases s.bit_cases f 0 h with h | h
  · simp [State.on, h]
  · simp [State.on, h]

end

end Sys2Proof.Machine
end

section
-- One proof at a time: as many threads as there are lemmas here do not fit beside the model.
set_option Elab.async false
open Sys2Proof Sys2Proof.Machine

/-- Settles O60. -/
theorem arbitrationCommands : Obligations.ArbitrationCommands := by
  unfold Obligations.ArbitrationCommands
  intro s hs
  refine ⟨?_, ?_, fun q x n => ?_, ?_, fun q l n x h => ?_, fun c n h1 h2 h3 => ⟨fun h4 => ?_, fun h4 => ?_⟩, fun h => ?_, fun q p h => ?_, fun q h => ?_, ?_, ?_,
    fun h hl r p e d ad b cut snap why c hc => ?_, fun hon => ⟨fun h h1 h2 => ?_, fun h h1 h2 h3 => ?_, fun h h1 h2 => ?_, fun h h1 h2 h3 h4 => ?_,
      fun r p e d h1 h2 => ?_, fun h p e d h1 h2 => ?_, fun h r p e d h1 h2 h3 h4 => ?_, fun ad b h1 h2 => ?_, fun ad b h1 => ?_, fun x l h1 => ?_,
      fun x l h1 h2 => ?_, fun why h1 => ?_, fun why h1 => ?_⟩, fun n h => ?_, fun n h1 h2 h3 h4 h5 => ⟨fun h6 => ?_, fun h6 h7 => ?_, fun h6 h7 => ?_⟩,
    fun x h => ?_, fun x h1 h2 h3 h4 => ?_, fun m a => ⟨fun had h1 h2 h3 h4 h5 => ?_, fun j had h1 => ?_, fun had => ?_, fun had => ?_, fun n had => ?_, fun n had => ?_⟩⟩
  · split
    next h => exact exec_of_awake hs (congrArg (fun u => s.awake (.next u)) (if_pos (State.on_of_get_one h)))
    next h =>
      have ho : ¬ s.on F.HIF_TWNSTAT.ARB_LOST = true := fun hn => h (by simpa [State.on] using hn)
      obtain ⟨h1, -, h3⟩ := (s.withArb { s.arb with good := 0 }).arbLost_ends true
      exact ⟨(s.withArb { s.arb with good := 0 }).arbLost true, exec_of_awake hs (congrArg (fun u => s.awake (.next u)) (if_neg ho)),
        State.good_of_core h1, h3⟩
  · refine ⟨_, exec_of_awake hs rfl, _, State.out_arbSend _ _ _, ?_⟩
    simp only [List.append_assoc]
    rw [← List.append_assoc, ← List.append_assoc]
    exact take_three (length_leBytes ..) (length_leBytes ..) (length_leBytes ..)
  · obtain ⟨⟨g, hc⟩, -, -, -⟩ := s.arbIn_ends q
    obtain ⟨h1, h2, h3, h4⟩ := (s.arbIn q).askedFor_ends x
    exact ⟨(((s.arbIn q).queried x).report x).rejoinAbort 4, exec_of_awake hs rfl, h1, h2, h3.trans (State.mseqRx_of_core hc), h4⟩
  · split
    next h => exact ⟨s.thaw, exec_of_awake hs (congrArg (fun u => s.awake (.next u)) (if_pos h)), s.thaw_ends.1, congrArg Arb.query s.thaw_ends.2⟩
    next h => exact exec_of_awake hs (congrArg (fun u => s.awake (.next u)) (if_neg h))
  · obtain ⟨e1, e2, -, e4, e5, -⟩ := s.ruled_ends q l
    obtain ⟨h1, h2, h3⟩ := (s.ruled q l).thawed_ends
    refine ⟨(s.ruled q l).thaw, exec_of_awake hs (congrArg (fun u => s.awake (.next u)) (if_neg (c := ((s.ruled q l).staged && l.toNat == (s.ruled q l).peerId &&
      (s.ruled q l).arb.promote.isNone) = true) ?_)), h1, h2, h3.trans e5⟩
    rw [e1, e2, e4]
    simp only [Bool.and_eq_true, beq_iff_eq, Option.isNone_iff_eq_none]
    rintro ⟨⟨g1, g2⟩, g3⟩
    rcases h with h | h | h
    · exact Bool.false_ne_true (h.symm.trans g1)
    · exact h g2
    · exact h g3
  · obtain ⟨v, he, e3, e2, e6⟩ := State.fencer_of hs h1 h2 h3
    obtain ⟨u, g1, g2, g3, g4⟩ := v.fencePeer_lead n (e3.trans h4)
    obtain ⟨f1, f2, f3⟩ := State.fences_eq g4
    exact ⟨u, he.trans (congrArg Host.Outcome.next g1), g2.1, g2.2.1, g2.2.2, g3, f1.trans (congrArg (· + 1) e6), f2.trans e2, f3⟩
  · obtain ⟨v, he, e3, -, -⟩ := State.fencer_of hs h1 h2 h3
    obtain ⟨u, g1, g2, g3⟩ := v.fencePeer_trail n (e3.trans h4)
    exact ⟨u, he.trans (congrArg Host.Outcome.next g1), g2, g3⟩
  · refine exec_of_awake hs (congrArg (fun u => s.awake (.next u)) ?_)
    cases ht : s.arb.linkDownAt with
    | none => rfl
    | some t =>
      refine if_neg ?_
      simp only [Bool.and_eq_true]
      rintro ⟨⟨g1, g2⟩, -⟩
      rcases h with h | h | h
      · exact Option.some_ne_none t (ht.symm.trans h)
      · exact Bool.false_ne_true (h.symm.trans g1)
      · exact Bool.false_ne_true ((State.on_of_get_zero h).symm.trans g2)
  · obtain ⟨h1, h2, h3⟩ := s.greeted_ends q p
    refine ⟨s.greeted q p, exec_of_awake hs (congrArg (fun u => s.awake (.next u)) (if_neg (c := (p == 0 && (s.greeted q p).awaitsPeer) = true) ?_)), h1, h2⟩
    rw [h3]
    simp only [Bool.and_eq_true, beq_iff_eq]
    rintro ⟨g1, g2⟩
    rcases h with h | h
    · exact h g1
    · exact Bool.false_ne_true (h.symm.trans g2)
  · obtain ⟨h1, h2, h3⟩ := s.greeted_ends q 0
    obtain ⟨g1, g2, g3⟩ := (s.greeted q 0).fencingA_ends
    refine ⟨(s.greeted q 0).fencingA, exec_of_awake hs (congrArg (fun u => s.awake (.next u))
      (if_pos (c := ((0 : Nat) == 0 && (s.greeted q 0).awaitsPeer) = true) ?_)), (congrArg Arb.peer g1).trans h1, g2, g3⟩
    rw [h3, h]
    rfl
  · exact ⟨_, State.exec_fenceNAssert hs, s.fencedNow_ends⟩
  · split
    next h =>
      intro hd
      obtain ⟨h1, h2, h3⟩ := s.released_ends
      exact ⟨_, State.exec_fenceNRelease hs h, h1, h2, h3 hd⟩
    next h => exact exec_of_awake hs (congrArg (fun u => s.awake (.next u)) (if_pos (by simpa using h)))
  · have ho := State.on_of_get_zero h
    have hoff : (!s.on F.TWN_STAT.LINK_UP) = true := by rw [ho]; rfl
    have hno (x : Bool) : ¬ (s.on F.TWN_STAT.LINK_UP && x) = true := by rw [ho]; exact Bool.false_ne_true
    rcases List.mem_cons.1 hc with rfl | hc
    · exact exec_of_awake hs (congrArg (fun u => s.awake (.next u)) (if_pos hoff))
    rcases List.mem_cons.1 hc with rfl | hc
    · exact exec_of_awake hs (congrArg (fun u => s.awake (.next u)) (if_pos hoff))
    rcases List.mem_cons.1 hc with rfl | hc
    · exact exec_of_awake hs (congrArg (fun u => s.awake (.next u)) (if_neg (by rw [ho, Bool.false_and, Bool.false_and]; exact Bool.false_ne_true)))
    rcases List.mem_cons.1 hc with rfl | hc
    · exact exec_of_awake hs (congrArg (fun u => s.awake (.next u)) (if_pos (by rw [ho, Bool.not_false, Bool.true_or, Bool.true_or])))
    · obtain rfl := List.mem_singleton.1 hc
      exact exec_of_awake hs (congrArg (fun u => s.awake (.next u)) (if_neg (hno _)))
  · obtain ⟨g, he, hg⟩ := State.exec_pairHello hs h (State.on_of_get_one hon)
    obtain ⟨e1, e2, e3, e4, e5⟩ := s.helloed_ends h
    refine ⟨s.helloed h, he.trans (congrArg Host.Outcome.next ?_), congrArg Arb.hello e1⟩
    rw [hg, if_pos (e2.trans h1), if_pos (by rw [e1, h2]; rfl)]
  · obtain ⟨g, he, hg⟩ := State.exec_pairHello hs h (State.on_of_get_one hon)
    obtain ⟨e1, e2, e3, e4, e5⟩ := s.helloed_ends h
    refine ⟨s.helloed h, he.trans (congrArg Host.Outcome.next ?_), congrArg Arb.hello e1⟩
    rw [hg, if_pos (e2.trans h1), if_neg (by rw [e1, h2]; decide), if_pos (by rw [e1]; exact h3)]
  · obtain ⟨g, he, hg⟩ := State.exec_pairHello hs h (State.on_of_get_one hon)
    obtain ⟨e1, e2, e3, e4, e5⟩ := s.helloed_ends h
    obtain ⟨g1, g2, g3, g4⟩ := (s.helloed h).asJoiner_ends
    rw [e1, e2] at g1
    refine ⟨(s.helloed h).asJoiner, he.trans (congrArg Host.Outcome.next ?_), congrArg Arb.hello g1, State.joining_of_arb g1,
      congrArg (fun a : Arb => a.rj.was) g1, g2, g3, g4⟩
    rw [hg, if_neg (by rw [e2]; exact h1), if_pos (e5.trans h2)]
  · obtain ⟨g, he, hg⟩ := State.exec_pairHello hs h (State.on_of_get_one hon)
    obtain ⟨e1, e2, e3, e4, e5⟩ := s.helloed_ends h
    refine ⟨s.helloed h, he.trans (congrArg Host.Outcome.next ?_), congrArg Arb.hello e1⟩
    rw [hg, if_neg (by rw [e2, h1]; decide), if_neg (by rw [e5, h4]; decide), if_pos (by rw [e2, e3, e4, h1, h2, h3]; exact ⟨rfl, rfl, rfl⟩)]
  · have ha : (s.twinIn 24).arb = s.arb := (s.keeps_twinIn 24).arb_eq
    have ht : (s.twinIn 24).twState = 1 := ((s.keeps_twinIn 24).get _ _).trans h2
    refine ⟨(s.twinIn 24).withArb { (s.twinIn 24).arb with waitRejoin := true }, exec_of_awake hs (congrArg (fun u => s.awake (.next u))
      ((if_neg (by rw [State.on_of_get_one hon]; decide)).trans ?_)), rfl⟩
    dsimp only
    rw [ha, h1]
    exact if_pos ht
  · have ha : (s.twinIn 24).arb = s.arb := (s.keeps_twinIn 24).arb_eq
    have hj : (s.twinIn 24).joining = true := (State.joining_of_arb ha).trans h2
    obtain ⟨g1, g2, g3, g4, g5⟩ := ((s.twinIn 24).withTime e d).agreed_ends h p
    obtain ⟨f1, f2, f3⟩ := (s.twinIn 24).withTime_ends e d
    have hk : (s.twinIn 24).keys = s.keys := (s.keeps_twinIn 24).keys_eq
    have hh : (s.twinIn 24).arb.hello = some h := by rw [ha, h1]
    refine ⟨((s.twinIn 24).withTime e d).agreed h p, exec_of_awake hs (congrArg (fun u => s.awake (.next u))
      ((if_neg (by rw [State.on_of_get_one hon]; decide)).trans ?_)), g1, g2.trans f1, g3.trans f2, by rw [g4, f3, hk], g5⟩
    clear g1 g2 g3 g4 g5 f1 f2 f3 hk ha
    generalize s.twinIn 24 = u at *
    dsimp only
    rw [hh]
    exact (if_pos hj).trans (if_pos rfl)
  · have ha : (s.twinIn 24).arb = s.arb := (s.keeps_twinIn 24).arb_eq
    have hj : (s.twinIn 24).joining = true := (State.joining_of_arb ha).trans h2
    refine ⟨(s.twinIn 24).leftPair.rjOff.putAll F.HIF_TWNSTAT.STATE s.arb.rj.was, exec_of_awake hs (congrArg (fun u => s.awake (.next u))
      ((if_neg (by rw [State.on_of_get_one hon]; decide)).trans ?_)), (s.twinIn 24).refusedJoin_ends _ h4⟩
    dsimp only
    rw [ha, h1]
    exact (if_pos hj).trans (if_neg h3)
  · refine ⟨s.twinIn (16 + b.length), exec_of_awake hs (congrArg (fun u => s.awake (.next u)) (if_pos ?_)), (s.keeps_twinIn _).mem_eq, s.mseqRx_twinIn _⟩
    rw [State.on_of_get_one hon, h1, h2]
    rfl
  · refine exec_of_awake hs (congrArg (fun u => s.awake (.next u)) (if_neg ?_))
    simp only [Bool.and_eq_true, Option.isNone_iff_eq_none]
    rintro ⟨⟨-, g1⟩, g2⟩
    rcases h1 with h | h
    · exact Bool.false_ne_true (h.symm.trans g1)
    · exact h g2
  · refine exec_of_awake hs (congrArg (fun u => s.awake (.next u)) (if_pos ?_))
    simp only [Bool.or_eq_true, Bool.not_eq_true', Option.isSome_iff_ne_none]
    rcases h1 with h | h
    · exact .inl (.inr h)
    · exact .inr h
  · obtain ⟨g1, g2⟩ := (s.twinIn (8 + 16 * l.regs.length)).takeImage_ends l
    obtain ⟨f1, f2, f3, f4, f5⟩ := ((s.twinIn (8 + 16 * l.regs.length)).takeImage l).cutTaken_ends x
    obtain ⟨e1, e2, e3, e4, e5⟩ := g1.keep f5
    refine ⟨((s.twinIn (8 + 16 * l.regs.length)).takeImage l).cutTaken x, exec_of_awake hs (congrArg (fun u => s.awake (.next u)) (if_neg ?_)),
      f1, f2, f3, f4, e1, e2, e3, e4, e5⟩
    rw [State.on_of_get_one hon, h1, h2]
    decide
  · exact exec_of_awake hs (congrArg (fun u => s.awake (.next u)) (if_neg (by rw [h1, Bool.and_false]; exact Bool.false_ne_true)))
  · exact ⟨_, exec_of_awake hs (congrArg (fun u => s.awake (.next u)) (if_pos (by rw [h1, State.on_of_get_one hon]; rfl))),
      (State.rejoinAbort_ends _ _).1⟩
  · refine exec_of_awake hs (congrArg (fun u => s.awake (.next u)) (if_pos ?_))
    simp only [Bool.or_eq_true, Bool.not_eq_true', Option.isSome_iff_ne_none, beq_iff_eq]
    rcases h with h | h | h | h | h
    · exact .inl (.inl (.inl (.inl h)))
    · exact .inl (.inl (.inl (.inr h)))
    · exact .inl (.inl (.inr h))
    · exact .inl (.inr h)
    · exact .inr h
  · exact ⟨_, exec_of_awake hs (congrArg (fun u => s.awake (.next u)) ((if_neg (s.arb.rj.passes h1 h2 h3 h4 h5)).trans (if_pos h6))), rfl⟩
  · exact ⟨_, exec_of_awake hs (congrArg (fun u => s.awake (.next u)) ((if_neg (s.arb.rj.passes h1 h2 h3 h4 h5)).trans
      ((if_neg (Nat.not_le.2 h6)).trans (if_pos h7)))), (State.rejoinAbort_ends _ _).1⟩
  · exact ⟨_, exec_of_awake hs (congrArg (fun u => s.awake (.next u)) ((if_neg (s.arb.rj.passes h1 h2 h3 h4 h5)).trans
      ((if_neg (Nat.not_le.2 h6)).trans (if_neg (Nat.not_le.2 h7))))), rfl, rfl⟩
  · refine exec_of_awake hs (congrArg (fun u => s.awake (.next u)) (if_pos ?_))
    simp only [Bool.or_eq_true, Bool.not_eq_true', Option.isSome_iff_ne_none, Option.isNone_iff_eq_none]
    rcases h with h | h | h
    · exact .inl (.inl h)
    · exact .inl (.inr h)
    · exact .inr h
  · have he := State.exec_rsyncLive hs x h1 h2 h3
    obtain ⟨g1, g2, k⟩ := s.lived_ends x
    cases hj : s.arb.rj.joiner with
    | true =>
      have hl : (s.lived x).twn.lagging = false := (congrArg Twn.lagging k.twn_eq).trans (h4 hj)
      refine ⟨_, he.trans (congrArg Host.Outcome.next ((if_pos (g2.trans hj)).trans (if_neg (by rw [hl]; decide)))), ?_, nofun⟩
      rw [State.live_liveSent, g1]
    | false =>
      obtain ⟨f1, f2⟩ := (s.lived x).noted_ends
      exact ⟨_, he.trans (congrArg Host.Outcome.next (if_neg (by rw [g2, hj]; decide))), f1.trans g1, fun _ => f2⟩
  · refine ⟨((s.useToken m).withArb { s.arb with rj := { active := true } }).await m .here 6 0, exec_of_admitted hs had rfl ?_, rfl, rfl⟩
    have e1 : ¬ ((s.useToken m).twState ≠ 3 ∨ (!isHere Arrival.here) = true) := by
      rintro (h | h)
      · exact h h1
      · exact Bool.false_ne_true h
    have e2 : ¬ s.peerId ≠ (s.useToken m).peerId := fun h => h rfl
    have e3 : ¬ (s.useToken m).arb.rj.active = true := fun h => Bool.false_ne_true (h2.symm.trans h)
    have e4 : ¬ ((s.useToken m).on F.HIF_TWNSTAT.ARB_LOST = true ∨ (s.useToken m).arb.peer ≠ 1 ∨ (!(s.useToken m).on F.TWN_STAT.LINK_UP) = true) := by
      rintro (h | h | h)
      · exact Bool.false_ne_true ((State.on_of_get_zero h3).symm.trans h)
      · exact h h4
      · exact Bool.false_ne_true ((Bool.not_eq_true' _ ▸ h).symm.trans (State.on_of_get_one h5))
    exact (if_neg e1).trans ((if_neg e2).trans ((if_neg e3).trans (if_neg e4)))
  · have e1 : (s.useToken m).twState ≠ 3 ∨ (!isHere a) = true := h1.imp id fun h => by rw [h]; rfl
    refine ⟨(s.useToken m).refuse 0x0301 m a 7 (s.useToken m).stateDetail, exec_of_admitted hs had rfl (if_pos e1), ?_, State.answered_refuse ..⟩
    exact ((s.useToken m).keeps_refuse _ _ _ _ _).arb_eq
  · have e : ((s.useToken m).atLead a && (s.useToken m).arb.rj.active && ((s.useToken m).arb.rj.ready || ((s.useToken m).joining &&
        (s.useToken m).arb.rj.live.isSome))) = true ↔ s.atLead a = true ∧ s.arb.rj.active = true ∧ (s.arb.rj.ready = true ∨
          (s.joining = true ∧ s.arb.rj.live ≠ none)) := by
      show (s.atLead a && s.arb.rj.active && (s.arb.rj.ready || (s.joining && s.arb.rj.live.isSome))) = true ↔ _
      rw [Bool.and_eq_true, Bool.and_eq_true, Bool.or_eq_true, Bool.and_eq_true, Option.isSome_iff_ne_none, and_assoc]
    split
    next hc =>
      obtain ⟨h1, h2⟩ := (s.useToken m).armed_ends
      have k := (s.useToken m).armed.keeps_done 0x0302 m a (leBytes 8 ((s.useToken m).armed.reg .TWN_STAGE 0).toNat ++
        leBytes 4 (s.useToken m).armed.arb.rearm.length) false
      obtain ⟨g1, g2, g3⟩ := h1.keep k
      exact ⟨_, exec_of_admitted hs had rfl (if_pos (e.2 hc)), g1, g2, by rw [k.arb_eq, h2], g3, _, State.answered_done ..⟩
    next hc =>
      exact ⟨_, exec_of_admitted hs had rfl (if_neg fun h => hc (e.1 h)), ((s.useToken m).keeps_refuse _ _ _ _ _).arb_eq, State.answered_refuse ..⟩
  · have e : ((s.useToken m).atLead a && (s.useToken m).twState == 2 && !(s.useToken m).on F.HIF_TWNSTAT.ARB_LOST) = true ↔
        s.atLead a = true ∧ s.twState = 2 ∧ s.get F.HIF_TWNSTAT.ARB_LOST = 0 := by
      show (s.atLead a && s.twState == 2 && !s.on F.HIF_TWNSTAT.ARB_LOST) = true ↔ _
      rw [Bool.and_eq_true, Bool.and_eq_true, beq_iff_eq, s.not_on_iff F.HIF_TWNSTAT.ARB_LOST, and_assoc]
    split
    next hc =>
      refine ⟨(if (s.useToken m).isTrail then s.useToken m else (s.useToken m).swapSet).done 0x0303 m a (leBytes 8 (s.reg .TWN_STAGE 0).toNat),
        exec_of_admitted hs had rfl (if_pos (e.2 hc)), State.answered_done .., fun ht => ?_⟩
      have ht' : ¬ (s.useToken m).isTrail = true := fun h => Bool.false_ne_true (ht.symm.trans h)
      rw [if_neg ht', (State.keeps_done _ _ _ _ _ _).arb_eq]
      exact (s.useToken m).swapSet_ends
    next hc =>
      exact ⟨_, exec_of_admitted hs had rfl (if_neg fun h => hc (e.1 h)), ((s.useToken m).keeps_refuse _ _ _ _ _).arb_eq, State.answered_refuse ..⟩
  · split
    next hn => exact ⟨_, exec_of_admitted hs had rfl (if_pos hn), ((s.useToken m).keeps_refuse _ _ _ _ _).arb_eq, State.answered_refuse ..⟩
    next hn =>
      cases a with
      | here =>
        refine ⟨((s.useToken m).await m .here 5 0).arbSend 5 [2, BitVec.ofNat 8 n, 0, 0], exec_of_admitted hs had rfl (if_neg hn), ?_, ?_⟩
        · exact (State.keeps_arbSend _ _ _).waits_of_await
        · rw [State.out_arbSend, if_pos rfl]
          rfl
      | peer => exact ⟨(s.useToken m).await m .peer 5 0, exec_of_admitted hs had rfl (if_neg hn), rfl, rfl⟩
  · have e : ((s.useToken m).twState ≠ 3 ∨ (!isHere a) = true) ↔ ¬ (s.twState = 3 ∧ a = .here) := by
      show (s.twState ≠ 3 ∨ (!isHere a) = true) ↔ _
      rw [not_and_or, isHere, Bool.not_eq_true', beq_eq_false_iff_ne]
    split
    next hc =>
      have hno : ¬ ((s.useToken m).twState ≠ 3 ∨ (!isHere a) = true) := fun h => e.1 h hc
      split
      next hn =>
        refine ⟨((s.useToken m).arbSend 5 [1, BitVec.ofNat 8 n, 0, 0]).done 0x0305 m a,
          exec_of_admitted hs had rfl ((if_neg hno).trans (if_neg (Nat.not_lt.2 hn))), ?_, State.answered_done ..⟩
        have h1 : (s.useToken m).out ++ [.arb ((s.useToken m).arbFrame 5 [1, BitVec.ofNat 8 n, 0, 0])] <+:
            (((s.useToken m).arbSend 5 [1, BitVec.ofNat 8 n, 0, 0]).done 0x0305 m a).out := by
          rw [← State.out_arbSend]
          exact (State.tame_done _ _ _ _ _ _).out
        exact (List.suffix_append _ _).isInfix.trans h1.isInfix
      next hn =>
        exact ⟨_, exec_of_admitted hs had rfl ((if_neg hno).trans (if_pos (Nat.not_le.1 hn))), ((s.useToken m).keeps_refuse _ _ _ _ _).arb_eq,
          State.answered_refuse ..⟩
    next hc =>
      exact ⟨_, exec_of_admitted hs had rfl (if_pos (e.2 hc)), ((s.useToken m).keeps_refuse _ _ _ _ _).arb_eq, State.answered_refuse ..⟩
end
